-- ==== Sys2Proof/Word.lean ====
section
/-! DEFINITION. The word types of the OZ1024 model and the sparse table type its banks of like things are kept in. -/

namespace Sys2Proof

/-- One byte of a message, a cell or a memory. -/
abbrev Byte := BitVec 8
/-- A 16-bit field of a message or register. -/
abbrev Half := BitVec 16
/-- A 32-bit register, instruction word or media time. -/
abbrev Word := BitVec 32
/-- A 64-bit quantity: device time, wide addresses. -/
abbrev DWord := BitVec 64

/-- Media time of a domain (R13): a 32-bit sample counter. -/
abbrev MT := BitVec 32
/-- Device time (R12): a 64-bit count of nanoseconds. -/
abbrev DT := BitVec 64

/-- A bank of like things by number.  A number that is not listed holds the type's default record, which is the
record's reset value. -/
abbrev Tab (α : Type) := List (Nat × α)

end Sys2Proof
end

