-- ==== Sys2Proof/Machine/Types/Dma.lean ====
section
/-! DEFINITION. The records of the DMA engine and of the bus matrix (chapter 17). -/

namespace Sys2Proof

/-- A DMA instruction as the engine fetched it (R456): its 32 bytes, and the error code of a fetch that failed. -/
structure DmaIssue where
  word : List Byte
  fetchErr : Nat := 0
  /-- PCIe bus mastering is disabled, as a host write of SIGNAL finds it. -/
  bmeOff : Bool := false
  deriving DecidableEq, Repr, Inhabited

/-- What a burst met outside the model: the bytes host space or the flash controller returned, the error code
of a host-space access that failed (4 or 6 of R467, else 0), the beat from which a pacing peripheral withdrew (R460), whether the burst would not
read (an uncorrectable error in SRAM), and the other channels with a burst ready at the same time (R454). -/
structure BurstIn where
  data : List Byte := []
  hostFail : Nat := 0
  withdraw : Option Nat := none
  ecc : Bool := false
  others : List Nat := []
  deriving DecidableEq, Repr, Inhabited

/-- An access a master presents to the matrix: master number, device address, read. -/
structure MatrixReq where
  master : Nat
  addr : Word
  read : Bool
  deriving DecidableEq, Repr, Inhabited

end Sys2Proof

namespace Sys2Proof.Machine

/-- Channel states, in the encoding order of R455. -/
inductive DmaState where
  | idle | running | waiting | paused | stalledCq | error | aborted
  deriving DecidableEq, Repr, Inhabited

/-- A MOVE under way: its flags and fields (R457), bytes still to move, and what its record will carry. -/
structure DmaMove where
  flags : Nat := 0
  mflags : Nat := 0
  swap : Nat := 0
  burst : Nat := 1
  line : Nat := 0
  total : Nat := 0
  left : Nat := 0
  moved : Nat := 0
  dropped : Nat := 0
  zeroed : Nat := 0
  withdrawn : Bool := false
  /-- Bytes read of a swap unit that is not complete. -/
  held : List Byte := []
  deriving DecidableEq, Repr, Inhabited

/-- A WAIT under way: flags, kind, index, the DT its timeout expires at, whether the edge it waits for has come. -/
structure DmaWait where
  flags : Nat := 0
  kind : Nat := 1
  index : Nat := 0
  stop : Option DT := none
  edge : Bool := false
  deriving DecidableEq, Repr, Inhabited

/-- A record that is due (R466), whether it sets DMA_IRQ.RECORD, and what follows it: the channel state to enter. -/
structure DmaRecord where
  bytes : List Byte
  irq : Bool
  next : DmaState
  pc : Nat
  deriving DecidableEq, Repr, Inhabited

/-- A DMA channel (R455, R469). -/
structure DmaChan where
  state : DmaState := .idle
  /-- The state a PAUSE left, and the time its WAIT had still to run. -/
  prev : DmaState := .idle
  remain : Nat := 0
  progBase : DWord := 0
  cqBase : DWord := 0
  cqSize : Word := 0
  head : Word := 0
  tail : Word := 0
  src : DWord := 0
  dst : DWord := 0
  /-- Loop counters, active flags, and the instruction that owns each. -/
  lc0 : Word := 0
  lc1 : Word := 0
  act0 : Option Nat := none
  act1 : Option Nat := none
  irq : Word := 0
  irqEn : Word := 0
  bytes : Word := 0
  dropped : Word := 0
  zeroed : Word := 0
  pc : Nat := 0
  lastCode : Nat := 0
  seq : Word := 0
  move : Option DmaMove := none
  wait : Option DmaWait := none
  stalled : Option DmaRecord := none
  /-- The address of the access under way, for an error report. -/
  addr : DWord := 0
  deriving DecidableEq, Repr, Inhabited

/-- The DMA engine: channels, channel flags (R463), the channel each issue queue served last, whether the device queue
was served last (R454). -/
structure Dma where
  ch : Tab DmaChan := []
  flags : Word := 0
  lastHost : Nat := 7
  lastDev : Nat := 31
  devLast : Bool := true
  deriving DecidableEq, Repr, Inhabited

/-- The bus matrix (R471–R475): parked masters, error registers, isolated masters, the master each target granted
last. -/
structure Matrix where
  park : Tab Nat := []
  err : Word := 0
  errInfo : Word := 0
  errAddr : Word := 0
  isolated : Half := 0
  last : Tab (Option Nat) := []
  deriving DecidableEq, Repr, Inhabited

end Sys2Proof.Machine
end

