-- ==== Sys2Proof/Machine/Types/Firmware.lean ====
section
/-! DEFINITION. The records of the host interface, the Hatre firmware, modes, boot, flash and power
(chapters 15, 16 and 18). -/

namespace Sys2Proof

/-- The request opcodes of R451. -/
inductive Op where
  | hello | version | caps | ping | bye
  | modeSet | modeGet | resetReq | telemetryGet | logRead | outLatencyGet
  | domainCfg | ptpCfg | pulseCfg | captureCfg
  | layoutBegin | layoutSpk | layoutCommit
  | objCfg | objUpdate | objUpdateBatch | objQuery
  | routeSet | busCfg | matrixDirect
  | chainCfg | eqSet | delaySet | dynCfg | outGain | outMute
  | firLoad | firCommit | firStatus | haloCfg
  | seamCfg | micCfg | toneDetCfg
  | calStart | calResult | trackCfg | trackProposal
  | portCfg | slotMask | alignGroup
  | netPortCfg | flowRxCfg | flowTxCfg | flowState | gateList
  | twinCfg | twinState | twinSwap
  | graphLoad | graphStart | graphStop | taskCancel
  | fwUpdateBegin | fwChunk | fwCommit | fwSlotInfo
  | selftestRun
  deriving DecidableEq, Repr, Inhabited

/-- A whole Hatre request message as firmware takes it (R423, R425): channel, tag, the two flags of the message and
the concatenated payload. -/
structure Req where
  ch : Fin 8
  tag : Half
  replyReq : Bool
  bulk : Bool
  payload : List Byte
  deriving DecidableEq, Repr, Inhabited

end Sys2Proof

namespace Sys2Proof.Machine

/-- Status codes of R429. -/
inductive Status where
  | ok | busy | badArg | badMode | noResource | version | stale | timeout | late | notFound | integrity | denied
  | cancelled
  deriving DecidableEq, Repr, Inhabited

/-- The twelve modes of R477. -/
inductive Mode where
  | off | retain | boot | safe | config | service | twin | singleRate | calibrate | selftest | update | factory
  deriving DecidableEq, Repr, Inhabited

/-- One mailbox channel (R410–R412). -/
structure Mailbox where
  inCell : List Byte := List.replicate 64 0
  inFifo : List (List Byte) := []
  outFifo : List (List Byte) := []
  irq : Word := 0
  irqEn : Word := 0
  staleIn : Half := 0
  staleOut : Half := 0
  refused : Word := 0
  epoch : Byte := 0
  deriving DecidableEq, Repr, Inhabited

/-- The HIF, DBL and interrupt state of chapter 15. -/
structure Hif where
  ctrlUp : Bool := false
  restarting : Bool := false
  fwSlot : Bool := false
  hostBoot : Bool := false
  irqMode : Bool := false
  irqEn : Word := 0
  spiIrqEn : Word := 0
  fault : Word := 0
  accessErr : Word := 0
  mbxLost : Word := 0
  ctrlRestarts : Word := 0
  deviceEpoch : Byte := 0
  /-- Mask bits of the MSI-X table, and its other words by vector × 4 + word (log entry 24). -/
  msixMask : Half := 0xFFFF
  msixTable : Tab Word := []
  msixPend : Half := 0
  /-- Which vectors' pending conditions held after the last command (R408). -/
  msixCond : Half := 0
  /-- Vectors whose messages have been sent, oldest first. -/
  msixSent : List Nat := []
  dblH2D : Word := 0
  dblD2H : Word := 0
  dblD2HEn : Word := 0
  /-- The register an I²C transfer has latched, and its latched value (R404). -/
  i2cLatch : Option (Nat × Word) := none
  /-- The data the last register read returned, as the bus carries it. -/
  readData : List Word := []
  deriving DecidableEq, Repr, Inhabited

/-- A Hatre session (R434). -/
structure Session where
  isOpen : Bool := false
  major : Nat := 0
  minor : Nat := 0
  mask : Word := 0
  deriving DecidableEq, Repr, Inhabited

/-- A request that has been taken: what its reply must carry, and the version it is judged and answered under. -/
structure Taken where
  op : Op
  req : Req
  epoch : Byte := 0
  major : Nat := 3
  minor : Nat := 4
  /-- The mode in force when it was taken (R452). -/
  mode : Mode := .boot
  deriving DecidableEq, Repr, Inhabited

/-- A MORE chain being assembled (R425). -/
structure Chain where
  opcode : Half
  tag : Half
  flags : Byte
  cells : Nat
  payload : List Byte
  deriving DecidableEq, Repr, Inhabited

/-- A reply or event waiting in the event queue (R415). -/
structure OutMsg where
  ch : Nat
  opcode : Half
  tag : Half
  bulk : Bool
  payload : List Byte
  isReply : Bool
  deriving DecidableEq, Repr, Inhabited

/-- One log entry (R446). -/
structure LogEntry where
  dt : DT
  seq : Word
  code : Half
  severity : Nat
  ch : Byte
  args : List Byte
  deriving DecidableEq, Repr, Inhabited

/-- A bulk fetch that a request waits for (R441). -/
structure BulkWait where
  taken : Taken
  addr : Nat
  len : Nat
  crc : Word
  /-- False where the sender epoch has moved on: the fetch completes and is not judged (R452). -/
  live : Bool := true
  deriving DecidableEq, Repr, Inhabited

/-- A shadow commit accepted and waiting for a boundary of its domain (R35).  The list of them is in acceptance
order. -/
structure Commit where
  taken : Taken
  dom : Nat
  /-- On a pair, the apply boundary before which it does not take effect (R379). -/
  st : Option MT := none
  deriving DecidableEq, Repr, Inhabited

/-- What a reply waits for that no record of the request's own subject holds. -/
inductive WaitFor where
  | graphLoad (slot : Nat)
  | slotErase (slot : Nat)
  | selftest
  | slotMask (port : Nat)
  | powerOn (pd : Nat) (body : List Byte)
  deriving DecidableEq, Repr, Inhabited

structure Wait where
  taken : Taken
  what : WaitFor
  deriving DecidableEq, Repr, Inhabited

/-- A mode transition in progress (R480). -/
structure ModeChange where
  target : Mode
  cause : Nat
  asked : Option Taken
  deriving DecidableEq, Repr

/-- A reset that begins 10 ms after its OK reply (R443, R496). -/
inductive DeferredReset where
  | warm (cause : Nat)
  | ctrlRestart
  | domain (d : Nat)
  deriving DecidableEq, Repr, Inhabited

/-- A control-plane restart in progress (R417, R418). -/
structure Restart where
  cause : Nat
  dt : DT
  flushed : List Nat
  unanswered : List Nat
  eventsLost : Nat
  openBefore : List Bool
  deriving DecidableEq, Repr, Inhabited

/-- What firmware last reported, kept through a control-plane restart (R520): the reported state of each source, and
the counter values its last events were based on. -/
structure Reported where
  /-- (kind, index, state) of each EV_PORT_CLOCK, EV_SENSE and EV_TWIN source. -/
  states : List (Nat × Nat × Nat) := []
  /-- (event kind, index, counter value). -/
  counts : List (Nat × Nat × Nat) := []
  deriving DecidableEq, Repr, Inhabited

/-- States of a firmware slot (R448, R496). -/
inductive SlotState where
  | empty | incomplete | valid | invalid
  deriving DecidableEq, Repr, Inhabited

/-- A flash slot (R488, R448). -/
structure Slot where
  state : SlotState := .empty
  length : Nat := 0
  crc : Word := 0
  version : Half := 0
  encrypted : Bool := false
  received : Nat := 0
  /-- Programmed image bytes, from offset 0. -/
  bytes : List Byte := []
  deriving DecidableEq, Repr, Inhabited

/-- A boot record copy as its 32 bytes (R488). -/
abbrev BootRec := List Byte

/-- Flash, fuses and the image that runs (R488–R491, R496). -/
structure Flash where
  slots : Tab Slot := []
  rec0 : BootRec := []
  rec1 : BootRec := []
  /-- Which firmware image runs: 0 slot A, 1 slot B, 2 host-loaded or recovery. -/
  running : Nat := 2
  recovery : Bool := false
  fwVersion : Half := 0
  fwBuild : Half := 0
  renderRev : Half := 0
  /-- Channel that owns the update in progress, and the slot. -/
  update : Option (Nat × Nat) := none
  keyHash : Tab (List Byte) := []
  revoked : BitVec 4 := 0
  imageKey : List Byte := []
  lock : Bool := false
  /-- The image a host boot has loaded and checked (R492). -/
  hostImage : List Byte := []
  deriving DecidableEq, Repr, Inhabited

/-- Registers of PD_AON and of the power-domain controller (R406, R493, R500). -/
structure Aon where
  vddAon : Bool := true
  resetN : Bool := true
  refclk : Bool := true
  bootcnt : BitVec 4 := 0
  safeReason : Byte := 0
  cause : BitVec 3 := 0
  bootSrc : Bool := false
  factoryEn : Bool := false
  i2cAddr : BitVec 2 := 0
  attempt : BitVec 4 := 0
  lastFail : Byte := 0
  fallback : Bool := false
  bootSource : BitVec 2 := 0
  wakeEn : BitVec 2 := 3
  wokePin : Bool := false
  wokeDbl : Bool := false
  deriving DecidableEq, Repr, Inhabited

/-- PWR_EN and PWR_STATUS (R500). -/
structure Power where
  en : Half := 0x8007
  on : Half := 0x8007
  switching : Half := 0
  deriving DecidableEq, Repr, Inhabited

/-- Firmware: mode, sessions, queues, log, counters. -/
structure Fw where
  mode : Mode := .boot
  prevMode : Mode := .off
  changing : Option ModeChange := none
  modeDt : DT := 0
  sessions : Tab Session := []
  chains : Tab (Option Chain) := []
  queue : List OutMsg := []
  log : List LogEntry := []
  logSeq : Word := 0
  bulks : List BulkWait := []
  commits : List Commit := []
  waits : List Wait := []
  evqDrop : Tab Word := []
  discard : Tab Word := []
  gainClamp : Word := 0
  stageOverrun : Tab Word := []
  srUnbridged : Word := 0
  resetPending : List DeferredReset := []
  restart : Option Restart := none
  restartTimes : List DT := []
  reported : Reported := {}
  recoveryBoot : Bool := false
  deriving DecidableEq, Repr, Inhabited

end Sys2Proof.Machine
end

