-- ==== Sys2Proof/Machine/Types/Dsp.lean ====
section
/-! DEFINITION. The records of a DSP core (chapter 10) and of the task scheduler (chapter 11). -/

namespace Sys2Proof

/-- One issue of a core, as the core saw it: the word at PC and the word after it, the TILE cycles since the core's
previous command, whether the fetched or loaded words had an uncorrectable error, and single-bit errors corrected
(R263, R264, R281, R283). -/
structure Issue where
  w : Word
  next : Word := 0
  cycles : Nat := 0
  fetchBad : Bool := false
  loadBad : Bool := false
  corrected : Nat := 0
  deriving DecidableEq, Repr, Inhabited

end Sys2Proof

namespace Sys2Proof.Machine

/-- A level of the repeat stack (R271): first and last word of the body, count. -/
structure Rpt where
  start : Word
  stop : Word
  count : Nat
  deriving DecidableEq, Repr, Inhabited

/-- A DSP core (R262, R280).  Vector and accumulator lanes are numbered register × 8 + lane.  The reset record is that
of R288. -/
structure DspCore where
  v : Tab Word := []
  a : Tab (BitVec 80) := []
  s : Tab Word := []
  p : Tab Word := []
  n : Tab Word := []
  l : Tab Word := []
  rpt : List Rpt := []
  pc : Word := 0xE0200000
  xvec : Word := 0xE0200000
  satf : Bool := false
  aovf : Bool := false
  cause : Nat := 0
  xpc : Word := 0
  xaddr : Word := 0
  cycle : Nat := 0
  cycleHi : Word := 0
  /-- Descriptor address of the running task; 0 while idle. -/
  task : Word := 0
  /-- Blocked in TFETCH, with the register that receives the descriptor address. -/
  fetching : Option Nat := none
  /-- A first TFETCH has issued since reset (R282). -/
  fetched : Bool := false
  /-- A store whose failure the target's response has told: its address and the store's address in the program. -/
  failed : Option (Word × Word) := none
  deriving DecidableEq, Repr, Inhabited

/-- Task states of R294. -/
inductive TaskState where
  | idle | waiting | ready | running | done
  deriving DecidableEq, Repr, Inhabited

/-- Outcomes of R294, in the order of COMP_LO from 1: VOID, CANCELLED, FAULTED, SKIPPED; OK is 0. -/
inductive Outcome where
  | ok | void | cancelled | faulted | skipped
  deriving DecidableEq, Repr, Inhabited

/-- A descriptor (R291) and its task's progress.  edges are numbered within the image. -/
structure Task where
  used : Bool := false
  slot : Nat := 0
  localIx : Nat := 0
  entry : Word := 0
  voidEntry : Word := 0
  args : Word := 0
  edgesAt : Word := 0
  ins : List Nat := []
  outs : List Nat := []
  prio : Nat := 0
  tile : Nat := 0
  window : Nat := 0
  dom : Nat := 0
  /-- Of a built-in operator: the instance of its domain that it runs, numbered as the base image's. -/
  builtin : Option Nat := none
  mt : MT := 0
  voidIn : Nat := 0
  state : TaskState := .idle
  counter : Nat := 0
  /-- Scheduler cycle in which it became ready. -/
  readyAt : Nat := 0
  core : Nat := 0
  outcome : Outcome := .ok
  /-- mt and void_in as the last dispatch wrote them (R291). -/
  sentMt : MT := 0
  sentVoid : Nat := 0
  deriving DecidableEq, Repr, Inhabited

/-- An edge of an image (R292): its buffer, producer (a local task or an event code), and void bit of this period. -/
structure Edge where
  buffer : Word := 0
  len : Nat := 0
  producer : Nat := 0
  output : Nat := 0
  double : Bool := false
  void : Bool := false
  deriving DecidableEq, Repr, Inhabited

/-- A port record (R302): tile output port, local task, output. -/
structure PortRec where
  port : Nat
  task : Nat
  output : Nat
  deriving DecidableEq, Repr, Inhabited

/-- Slot states of R301; RUNNING is a LOADED slot that a domain runs. -/
inductive ImgState where
  | empty | loading | loaded
  deriving DecidableEq, Repr, Inhabited

/-- An image slot (R301, R302). -/
structure Image where
  state : ImgState := .empty
  id : Word := 0
  first : Nat := 0
  count : Nat := 0
  edges : Tab Edge := []
  ports : List PortRec := []
  /-- Declared cycles by domain × 16 + window × 8 + tile (R302 BUDGET). -/
  budget : List Nat := []
  /-- Code bytes of each tile and the slot's code offset in it. -/
  code : Tab (List Byte) := []
  codeAt : Tab Nat := []
  /-- Tile-shared need by tile. -/
  shared : Tab Nat := []
  deriving DecidableEq, Repr, Inhabited

/-- A switch of a domain to an image (R306): its target (none: base), the request it belongs to, earliest boundary. -/
structure Switch where
  dest : Option Nat
  reqNo : Nat
  atMt : Option MT
  deriving DecidableEq, Repr, Inhabited

/-- A GRAPH_START or GRAPH_STOP whose domains have not all switched (R306). -/
structure SwitchReq where
  no : Nat
  taken : Taken
  slot : Nat
  left : List Nat
  mts : Tab MT := []
  late : Bool := false
  deriving DecidableEq, Repr, Inhabited

/-- A waiting or counting TASK_CANCEL (R299); counts are of the period it names. -/
structure Cancel where
  instance_ : Bool
  slot : Option Nat
  dom : Nat
  task : Nat
  mt : MT
  applied : Bool := false
  notDispatched : Nat := 0
  running : Nat := 0
  finished : Nat := 0
  taken : Taken
  deriving DecidableEq, Repr, Inhabited

/-- An entry of the completion FIFO (R307). -/
structure Completion where
  outcome : Outcome
  dom : Nat
  core : Nat
  task : Nat
  mt : MT
  overflow : Bool
  deriving DecidableEq, Repr, Inhabited

/-- The task scheduler. -/
structure Sched where
  tasks : Tab Task := []
  slots : Tab Image := []
  /-- The image each domain runs: none is the base image (R301). -/
  running : Tab (Option Nat) := []
  switches : Tab (Option Switch) := []
  switchReqs : List SwitchReq := []
  nextReq : Nat := 0
  cancels : List Cancel := []
  /-- Boundary that began the period of each domain. -/
  period : Tab MT := []
  cycle : Nat := 0
  ctrl : Word := 0
  cntCancelled : Tab Word := []
  cntVoid : Tab Word := []
  cntFaulted : Tab Word := []
  cntSkipped : Tab Word := []
  mirrorWrite : Word := 0
  comp : List Completion := []
  compLost : Bool := false
  compHi : Word := 0
  descIndex : Word := 0
  /-- Words that DESC_DATA wrote to descriptors no image uses (R307), under 8 × index + word. -/
  descRaw : Tab Word := []
  /-- The base image's tasks cancelled in this period of each domain (R299): all, or the listed local indices. -/
  baseCancel : Tab (List Nat) := []
  coreFault : Tab Word := []
  eccCorr : Tab Word := []
  deriving DecidableEq, Repr, Inhabited

/-- What the tiles have to tell the matrix and firmware after a command. -/
inductive DspNote where
  | matrixErr (master : Nat) (read : Bool) (addr : Word)
  | coreFault (core : Nat) (task : Word) (cause : Nat) (xpc xaddr : Word)
  deriving DecidableEq, Repr, Inhabited

/-- The tiles: 64 cores, the RAM that cores and DMA address by byte (device addresses of R23), the scheduler. -/
structure Tiles where
  cores : Tab DspCore := []
  mem : List Host.Cell := []
  sched : Sched := {}
  /-- Matrix errors and core faults of the command under way, oldest first; empty between commands. -/
  notes : List DspNote := []
  deriving DecidableEq, Repr, Inhabited

end Sys2Proof.Machine
end

