-- ==== Sys2Proof/Machine/Types/Scene.lean ====
section
/-! DEFINITION. The records of objects, timed metadata, the layout, the render matrix and the object path
(chapters 03, 04 and 05).  Sample values and gains are the integers of their fixed-point formats. -/

namespace Sys2Proof.Machine

/-- The state record of an object (R79).  Positions and metric sizes are Q16.16 integers. -/
structure ObjRec where
  x : Int := 0
  y : Int := 65536
  z : Int := 0
  angular : Bool := false
  width : Int := 0
  height : Int := 0
  depth : Int := 0
  gain : Int := 0
  mute : Bool := true
  diffuse : Nat := 0
  jump : Bool := false
  rampUs : Nat := 10000
  priority : Nat := 10
  deriving DecidableEq, Repr, Inhabited

/-- A source of audio (R82): 0 none, 1 receive flow, 2 AES3, 3 TDM, 4 bridge, 5 tile port; other kinds by R226,
R331. -/
structure Src where
  kind : Nat := 0
  index : Nat := 0
  chan : Nat := 0
  deriving DecidableEq, Repr, Inhabited

/-- A binary32 value by its bit pattern. -/
abbrev F32 := BitVec 32

/-- A send level of ROUTE_SET (R131). -/
structure Send where
  bus : Nat
  level : Int
  deriving DecidableEq, Repr, Inhabited

/-- A route change of ROUTE_SET (R131): mode 0 unchanged, 1 PANNED, 2 DIRECT. -/
structure Route where
  mode : Nat
  clear : Bool
  sends : List Send
  deriving DecidableEq, Repr, Inhabited

/-- A metadata queue entry (R90): the fields of an update (mask bits of R85) and a route change, merged by R93.
rampUs is the ramp time of a route change that no newer update has set, none where the record's applies. -/
structure MetaEntry where
  obj : Nat
  dom : Nat
  t : MT
  mask : Nat
  vals : ObjRec
  route : Option Route
  rampUs : Option Nat
  late : Bool
  /-- An update is in it, whose motion vals holds; and the newest message moves by JUMP (R86). -/
  upd : Bool := false
  jumps : Bool := false
  /-- On a pair, the apply boundary before which it is not served (R379). -/
  hold : Option MT := none
  deriving DecidableEq, Repr, Inhabited

/-- A ramp of R124: from v0 toward v1 over n samples from landed sample t.  n = 0 holds v1. -/
structure Seg where
  v0 : Int := 0
  v1 : Int := 0
  t : MT := 0
  n : Nat := 0
  deriving DecidableEq, Repr, Inhabited

/-- A ramped value: the ramp in force, and the two before it, which still govern the samples before the new start
samples. -/
structure Ramp where
  cur : Seg := {}
  old : Seg := {}
  old2 : Seg := {}
  deriving DecidableEq, Repr, Inhabited

/-- A change of an object's delay (R145, R146): a glide, or a 16-sample crossfade from fixed v0 to fixed v1. -/
structure DelaySeg where
  seg : Seg := {}
  fade : Bool := false
  deriving DecidableEq, Repr, Inhabited

/-- A transition of a sparse object in flight (R128): its cost in lane-cycles and the sample its ramp ends. -/
structure Transition where
  cost : Nat
  stop : MT
  deriving DecidableEq, Repr, Inhabited

/-- New targets of an object's entries by column, and of its mix weights, over n samples from t (R124): by JUMP, and of a direct write
only the entries whose targets change. -/
structure Move where
  t : MT
  n : Nat
  jump : Bool := false
  targets : List (Nat × Int)
  mix : Option (Int × Int) := none
  only : Bool := false
  deriving DecidableEq, Repr, Inhabited

/-- A transition that is to be admitted, or waits for the crossfade reserve (R129): its t in that order, and its moves, of which those
of one boundary follow each other. -/
structure Deferred where
  key : MT
  moves : List Move
  deriving DecidableEq, Repr, Inhabited

/-- The object-path fields of OBJ_CFG (R139, defaults of R140). -/
structure PathCfg where
  trim : Int := 0
  delayMode : Nat := 1
  pathMute : Bool := false
  distGain : Bool := true
  air : Bool := true
  dRef : Nat := 0
  dNear : Nat := 0
  rolloff : Nat := 602
  airCoef : Nat := 80
  airCorner : Nat := 0
  cSound : Nat := 0
  deriving DecidableEq, Repr, Inhabited

/-- State of a decorrelation filter (R153): its bank entry, the four sections' histories of w, newest first. -/
structure Decor where
  filter : Nat := 0
  w1 : List Int := []
  w2 : List Int := []
  w3 : List Int := []
  w4 : List Int := []
  deriving DecidableEq, Repr, Inhabited

/-- The object path of one object (R141–R157). -/
structure PathState where
  /-- Delay D, UQ14.18. -/
  delay : DelaySeg := {}
  delayOld : DelaySeg := {}
  delayOld2 : DelaySeg := {}
  gdist : Ramp := { cur := { v1 := 268435456 } }
  gtrim : Ramp := { cur := { v1 := 268435456 } }
  /-- Air attenuation change of R148 in centi-dB, and the value of the last block. -/
  air : Seg := {}
  airOld : Seg := {}
  airNow : Int := 0
  airOn : Bool := true
  /-- AIR was set: the shelf starts with zero state at this sample (R149). -/
  airStart : Option MT := none
  /-- The last retarget, stamped this sample, and whether it counted the clamp and the limit, until a block is past it (R149). -/
  counted : Option (MT × Bool × Bool) := none
  /-- Delay line and guard, newest sample first. -/
  line : List Int := []
  shelfX : Int := 0
  shelfY : Int := 0
  decor : Option Decor := none
  /-- The old filters of decorr_filter changes, newest first, with the crossfade's start and length (R155). -/
  decorOld : List (Decor × MT × Nat) := []
  /-- The sample at which a new filter starts (R155, R31). -/
  decorStart : Option MT := none
  /-- DECORR was cleared: the filter stops at this sample. -/
  decorStop : Option MT := none
  deriving DecidableEq, Repr, Inhabited

/-- An object (R79–R84, R123–R132). -/
structure Obj where
  enabled : Bool := false
  domain : Nat := 0
  src : Src := {}
  sparse : Bool := false
  decorr : Bool := false
  filter : Nat := 0
  defRampUs : Nat := 10000
  st : ObjRec := {}
  lateCount : Word := 0
  /-- Route mode of R130. -/
  direct : Bool := true
  /-- Send levels in centi-dB by bus (R131). -/
  sends : Tab Int := []
  /-- Direct entries' linear gains by column, as MATRIX_DIRECT set them. -/
  directs : Tab Nat := []
  ents : Tab Ramp := []
  cdir : Ramp := {}
  cdec : Ramp := {}
  /-- End sample of the ramp in progress. -/
  rampEnd : Option MT := none
  /-- End sample of the disable ramp (R83). -/
  disable : Option MT := none
  /-- The old sources of source crossfades, newest first, with start and length. -/
  srcFade : List (Src × MT × Nat) := []
  /-- A change of SPARSE is ramping: charged and rendered dense until this sample (R83). -/
  sparseRamp : Option MT := none
  trans : Option Transition := none
  deferred : Option Deferred := none
  /-- A layout re-pan request outstanding: t and n (R114). -/
  layoutReq : Option (MT × Nat) := none
  pathCfg : PathCfg := {}
  path : PathState := {}
  deriving DecidableEq, Repr, Inhabited

/-- A column's binding (R105–R107): mode 0 unbound, 1 direct, 2 send, 3 emission, 4 HALO, 5 speaker of the layout. -/
structure Binding where
  mode : Nat := 0
  dom : Nat := 0
  az : Int := 0
  el : Int := 0
  group : Nat := 0
  deriving DecidableEq, Repr, Inhabited

/-- A column's unbind ramp (R107): the binding to come, when the old domain's ramp ends, whether the HALO columns change with it, and
the requests to answer. -/
structure Unbind where
  dest : Binding
  stop : MT
  group : Bool
  replies : List Taken
  deriving DecidableEq, Repr, Inhabited

structure Column where
  bind : Binding := {}
  unbind : Option Unbind := none
  /-- A LAYOUT_COMMIT has compiled the column's emission group since it was bound (R107). -/
  compiled : Bool := false
  clip : Word := 0
  deriving DecidableEq, Repr, Inhabited

/-- A speaker of a layout (R110): type 0 full-range, 1 subwoofer, 2 virtual. -/
structure Spk where
  no : Nat
  type : Nat
  x : Int
  y : Int
  z : Int
  deriving DecidableEq, Repr, Inhabited

/-- A direction in binary32. -/
structure V3 where
  x : F32 := 0
  y : F32 := 0
  z : F32 := 0
  deriving DecidableEq, Repr, Inhabited

/-- A member of the mesh set H (R108, R113). -/
structure Member where
  no : Nat
  virt : Bool
  v : V3
  az : F32
  el : F32
  /-- Ring position u_i of a RING. -/
  u : V3
  deriving DecidableEq, Repr, Inhabited

/-- A compiled mesh (R113).  Triangles are in ascending order of sorted vertex numbers; rim edges carry their
triangle's number; arcs of a RING are in ring order. -/
structure Mesh where
  members : List Member := []
  ring : Bool := false
  isOpen : Bool := false
  tris : List (Nat × Nat × Nat) := []
  rim : List (Nat × Nat × Nat) := []
  arcs : List (Nat × Nat) := []
  normal : V3 := {}
  thetaS : F32 := 0
  /-- θ_s in centidegrees for the reply. -/
  thetaCd : Nat := 0
  deriving DecidableEq, Repr, Inhabited

structure Layout where
  dom : Nat := 0
  spks : List Spk := []
  rIn : Nat := 0
  rampUs : Nat := 100000
  id : Word := 0
  mesh : Mesh := {}
  deriving DecidableEq, Repr, Inhabited

/-- A build opened by LAYOUT_BEGIN (R109). -/
structure Build where
  dom : Nat
  count : Nat
  rIn : Nat
  rampUs : Nat
  id : Word
  spks : List Spk := []
  deriving DecidableEq, Repr, Inhabited

/-- A LAYOUT_COMMIT in progress (R112): compiling, or compiled and waiting for its boundary. -/
structure LayoutJob where
  taken : Taken
  busesOnly : Bool
  atMt : Option MT
  /-- The bindings in force when compilation started, and the emission buses compiled that have stayed bound since. -/
  binds : Tab Binding := []
  live : List Nat := []
  /-- The compiled layout and emission groups, once compilation has completed. -/
  result : Option (Layout × Tab Mesh) := none
  /-- On a pair, the boundary the leader names (R380). -/
  st : Option MT := none
  deriving DecidableEq, Repr, Inhabited

/-- Metadata counters of a domain, and what EV_LATE_META has accumulated (R96, R97). -/
structure MetaCnt where
  late : Word := 0
  coalesced : Word := 0
  dropped : Word := 0
  stale : Word := 0
  evLate : Nat := 0
  evMax : Nat := 0
  evFirst : MT := 0
  /-- Selections since the first that follows a change of META_LATE since the last event. -/
  waited : Option Nat := none
  /-- Whether the last selection left due updates unserved. -/
  carried : Bool := false
  baseLate : Word := 0
  baseCoalesced : Word := 0
  baseDropped : Word := 0
  baseStale : Word := 0
  /-- Blocks until another EV_LATE_META may follow the last one. -/
  rest : Nat := 0
  deriving DecidableEq, Repr, Inhabited

/-- A direct-queue entry (R134). -/
structure DirectEntry where
  obj : Nat
  dom : Nat
  t : MT
  rampUs : Nat
  clear : Bool
  cols : List (Nat × Int)
  late : Bool
  hold : Option MT := none
  deriving DecidableEq, Repr, Inhabited

/-- Per-domain counters of chapters 04 and 05. -/
structure SceneCnt where
  repanUsed : Word := 0
  xfadeUse : Word := 0
  xfadeDeferred : Word := 0
  pathClip : Word := 0
  delayClamp : Word := 0
  doppler : Word := 0
  pathVoid : Word := 0
  deriving DecidableEq, Repr, Inhabited

/-- Objects, metadata, layout and matrix. -/
structure Scene where
  objs : Tab Obj := []
  floors : Tab Nat := []
  cols : Tab Column := []
  queue : List MetaEntry := []
  directQ : List DirectEntry := []
  metaCnt : Tab MetaCnt := []
  cnt : Tab SceneCnt := []
  layout : Option Layout := none
  groups : Tab Mesh := []
  build : Option Build := none
  job : Option LayoutJob := none
  /-- Speaker columns of the old layout waiting to be unbound (R114 step 4). -/
  oldCols : List Nat := []
  /-- The speakers of those columns, which keep their part in bass management until then (R187). -/
  oldSpks : List Spk := []
  /-- The last end of a layout ramp served since the layout took effect. -/
  layoutEnd : Option MT := none
  activeBank : Bool := false
  /-- Mesh and emission groups in the inactive bank. -/
  bankOther : Mesh × Tab Mesh := ({}, [])
  prismCtrl : Word := 0
  sparseTrunc : Word := 0
  haloClamp : Word := 0
  objmixClip : Word := 0
  directDiscard : Word := 0
  deriving DecidableEq, Repr, Inhabited

end Sys2Proof.Machine
end

