-- ==== Sys2Proof/Machine/Types/Seam.lean ====
section
/-! DEFINITION. The records of SEAM bridges, the microphone chain and the tone detectors (chapter 08), and the two
records every sample producer shares: a line of samples by media time, and the gate of R32. -/

namespace Sys2Proof.Machine

/-- Samples by media time, newest first; `next` is the MT after the newest sample. -/
structure Line where
  next : MT := 0
  xs : List Int := []
  deriving DecidableEq, Repr, Inhabited

/-- The output gate of R32: held at zero while complete blocks are counted, passing, ramping in from sample t, or
fading out over the 16 samples from t. -/
inductive GatePhase where
  | zero | passing | ramp | fade
  deriving DecidableEq, Repr, Inhabited

structure Gate where
  phase : GatePhase := .zero
  clean : Nat := 0
  t : MT := 0
  deriving DecidableEq, Repr, Inhabited

/-- SEAM_CFG fields (R226). -/
structure SeamCfg where
  enable : Bool := false
  kind : Nat := 0
  outDom : Nat := 0
  index : Nat := 0
  chan : Nat := 0
  deriving DecidableEq, Repr, Inhabited

/-- Bridge states, in the encoding order of R225. -/
inductive BrState where
  | disabled | waiting | acquire | track | exact | range
  deriving DecidableEq, Repr, Inhabited

/-- A position loop (R219, R222): P modulo 2^64, ρ and ρ_u at 2^-32, the last position error, the run counts of R225,
and whether ACQUIRE_TIMEOUT stands. -/
structure Loop where
  pos : Int := 0
  rho : Int := 0
  rhoU : Int := 0
  err : Int := 0
  fine : Nat := 0
  off : Nat := 0
  blocks : Nat := 0
  timeout : Bool := false
  deriving DecidableEq, Repr, Inhabited

/-- A bridge channel (R215–R227). -/
structure Bridge where
  cfg : SeamCfg := {}
  state : BrState := .disabled
  loop : Loop := {}
  /-- MT of the entry to RANGE. -/
  since : MT := 0
  gate : Gate := {}
  /-- The old source of a source change inside one input domain, and the MT its crossfade starts (R227). -/
  oldSrc : Option (SeamCfg × MT) := none
  /-- A fade under way of an output that has ended: its source, whether it was EXACT, P and ρ_u, and the MT it starts. -/
  fade : Option (SeamCfg × Bool × Int × Int × MT) := none
  slips : Word := 0
  ranges : Word := 0
  /-- Loop values come from the leader (R224). -/
  follower : Bool := false
  out : Line := {}
  /-- MT of the last boundary of the output domain. -/
  mt : MT := 0
  /-- The input end's count and fraction latched at that boundary (R222). -/
  lc : MT := 0
  lf : Half := 0
  /-- Its ring of input samples by their MT (R217), and the one that a configuration before had filled. -/
  ring : Line := {}
  ringOld : SeamCfg × Line := ({}, {})
  deriving DecidableEq, Repr, Inhabited

/-- SEAM: the bridges, the configurations held while SINGLE_RATE runs, and the registers of R228. -/
structure Seam where
  br : Tab Bridge := []
  stored : Tab SeamCfg := []
  /-- Input channels that SINGLE_RATE leaves unbridged (R76). -/
  unbridged : Nat := 0
  ctrl : Word := 0
  clip : Tab Word := []
  slip : Tab Word := []
  range : Tab Word := []
  deriving DecidableEq, Repr, Inhabited

/-- MIC_CFG fields (R236). -/
structure MicCfg where
  enable : Bool := false
  domain : Nat := 0
  invert : Bool := false
  whole : Nat := 0
  frac : Nat := 0
  trim : Int := 0
  deriving DecidableEq, Repr, Inhabited

/-- Microphone states, in the encoding order of R235. -/
inductive MicState where
  | disabled | waiting | start | acquire | track
  deriving DecidableEq, Repr, Inhabited

/-- The decimator of R231 and R232: five integrators, five combs, the bit phase, the two half-band histories (newest
first) and their phases. -/
structure Decim where
  integ : List Int := [0, 0, 0, 0, 0]
  comb : List Int := [0, 0, 0, 0, 0]
  phase : Nat := 0
  hb1 : List Int := []
  hb1Odd : Bool := false
  hb2 : List Int := []
  hb2Odd : Bool := false
  deriving DecidableEq, Repr, Inhabited

/-- A microphone (R229–R236). -/
structure Mic where
  cfg : MicCfg := {}
  state : MicState := .disabled
  dec : Decim := {}
  /-- HB2 outputs by their count MC. -/
  ring : Line := {}
  /-- Bits taken and HB2 outputs made since START was entered. -/
  bitsRun : Nat := 0
  outsRun : Nat := 0
  loop : Loop := {}
  gate : Gate := {}
  /-- A fade under way of an output that has ended: P, ρ_u and the MT it starts. -/
  fade : Option (Int × Int × MT) := none
  trim : Ramp := { cur := { v1 := 268435456 } }
  /-- A step of the phase delay: what the old read position exceeds the new by, and the MT its crossfade starts. -/
  step : Option (Int × MT) := none
  lastBit : Bool := false
  same : Nat := 0
  stuck : Bool := false
  clips : Word := 0
  slips : Word := 0
  out : Line := {}
  mt : MT := 0
  deriving DecidableEq, Repr, Inhabited

/-- A tone detector window in progress: t₀, its index, samples taken, the recursion of R237. -/
structure DetRun where
  t0 : MT
  n : Nat := 0
  s1 : Int := 0
  s2 : Int := 0
  disturbed : Bool := false
  deriving DecidableEq, Repr, Inhabited

/-- The latest completed window (R238). -/
structure DetResult where
  valid : Bool := false
  disturbed : Bool := false
  level : Int := -14400
  amp : Nat := 0
  phase : Int := 0
  mt : MT := 0
  windows : Word := 0
  deriving DecidableEq, Repr, Inhabited

/-- A tone detector (R237, R238). -/
structure Det where
  repeats : Bool := false
  freq : Nat := 0
  len : Nat := 0
  lateStart : Bool := false
  /-- STOP was given: no window follows the current one. -/
  stopping : Bool := false
  run : Option DetRun := none
  /-- Windows whose samples are complete and whose results are still to be computed. -/
  ended : List DetRun := []
  res : DetResult := {}
  deriving DecidableEq, Repr, Inhabited

/-- Microphones, detectors and the PDM clocks of R229. -/
structure Mics where
  mic : Tab Mic := []
  det : Tab Det := []
  deriving DecidableEq, Repr, Inhabited

end Sys2Proof.Machine
end

