-- ==== Sys2Proof/Machine/Types/Measure.lean ====
section
/-! DEFINITION. The records of calibration, room tracking, self-test and sensing (chapter 09). -/

namespace Sys2Proof.Machine

/-- CAL_START MEASURE fields (R244). -/
structure CalCfg where
  mls : Bool := false
  spks : List Nat := []
  mics : List Nat := []
  /-- OUTPUT injection; else CHAIN. -/
  output : Bool := false
  level : Int := 0
  order : Nat := 12
  reps : Nat := 1
  fLo : Nat := 0
  fHi : Nat := 0
  n : Nat := 0
  irTaps : Nat := 256
  deriving DecidableEq, Repr, Inhabited

/-- A reference of R251: ten band levels in centi-dB and the onset. -/
structure TrackRef where
  levels : List Int := []
  onset : Nat := 0
  deriving DecidableEq, Repr, Inhabited

/-- A measurement: slot 0 starts at t0; captures, newest sample first, are kept under slot × 8 + microphone. -/
structure CalRun where
  cfg : CalCfg
  dom : Nat
  t0 : MT
  slotLen : Nat
  /-- Slots whose end has passed. -/
  done : Nat := 0
  caps : Tab (List Int) := []
  /-- Slots in which a selected microphone's output was not produced in TRACK. -/
  disturbed : List Nat := []
  /-- Slots whose captures are complete. -/
  captured : Nat := 0
  /-- It ended before its time (R250), so it gives no references. -/
  aborted : Bool := false
  /-- Its responses stand in the impulse-response store; a later measurement has not taken it over. -/
  stored : Bool := true
  /-- References of the pairs captured so far (R251). -/
  refs : Tab TrackRef := []
  deriving DecidableEq, Repr, Inhabited

/-- A stored response (R247). -/
structure Response where
  h : List F32 := []
  disturbed : Bool := false
  peak : Nat := 0
  peakLevel : Int := 0
  onset : Nat := 0
  noise : Int := 0
  deriving DecidableEq, Repr, Inhabited

/-- CAL_START DESIGN fields (R248). -/
structure DesignCfg where
  mics : List Nat := []
  linear : Bool := false
  taps : Nat := 256
  fLo : Nat := 0
  fHi : Nat := 0
  maxBoost : Nat := 0
  maxCut : Nat := 0
  tilt : Int := 0
  smoothing : Nat := 1
  deriving DecidableEq, Repr, Inhabited

/-- Calibration.  Responses and references are kept under speaker × 8 + microphone. -/
structure Cal where
  run : Option CalRun := none
  /-- A measurement whose slots have ended, with captures that are still on their way through the latency of R247. -/
  tail : Option CalRun := none
  resp : Tab Response := []
  skipped : List Nat := []
  refs : Tab TrackRef := []
  curves : Tab (List Int) := []
  lastDesign : Option DesignCfg := none
  /-- A design whose coefficients are being loaded, with the curves it stores. -/
  designPend : Option (DesignCfg × Tab (List Int)) := none
  /-- The last design's coefficients by MANTLE channel. -/
  design : List (Nat × List F32) := []
  /-- A cancelled measurement whose excitation fades over the 16 samples from a landed MT (R250). -/
  fade : Option (CalRun × MT) := none
  /-- Speakers, mt and disturbed pairs of the EV_CAL_DONE that follows EV_CTRL_RESTART (R250). -/
  ended : Option (Nat × MT × Nat) := none
  deriving DecidableEq, Repr, Inhabited

/-- TRACK_CFG fields (R253). -/
structure TrackCfg where
  enable : Bool := false
  propose : Bool := false
  post : Bool := false
  spkFirst : Nat := 0
  spkCount : Nat := 0
  mics : Nat := 0
  windowMs : Nat := 1000
  threshold : Nat := 50
  deriving DecidableEq, Repr, Inhabited

/-- What OP_TRACK has accumulated of a speaker and a microphone in the window under way (R251), by bin 0 to 512: Σ|X|², Σ|Y|² and
Σ conj(X) Y over its transforms. -/
structure PairSpec where
  frames : Nat := 0
  xx : List F32 := []
  yy : List F32 := []
  xy : List (F32 × F32) := []
  deriving DecidableEq, Repr, Inhabited

/-- What a window gives of a speaker and a microphone: by octave band the level, whether the band is valid; and H_sm. -/
structure TrackMeas where
  speaker : Nat
  mic : Nat
  level : List Int := []
  valid : List Bool := []
  h : List (F32 × F32) := []
  deriving DecidableEq, Repr, Inhabited

/-- A speaker's last tracking report (R253). -/
structure TrackRep where
  incomplete : Bool := false
  valid : Nat := 0
  dev : List Int := []
  delay : Int := 0
  mt : MT := 0
  /-- The last rotation exceeded the threshold. -/
  ovr : Bool := false
  deriving DecidableEq, Repr, Inhabited

/-- A held proposal (R254): valid mask and deviations, and whether it is posted or waits to be posted. -/
structure Proposal where
  valid : Nat := 0
  dev : List Int := []
  posted : Bool := false
  waiting : Bool := false
  mt : MT := 0
  deriving DecidableEq, Repr, Inhabited

/-- Room tracking. -/
structure Track where
  cfg : TrackCfg := {}
  group : Nat := 0
  /-- MT at which the window under way started. -/
  start : MT := 0
  /-- Spectra of the window under way, under speaker × 8 + microphone. -/
  acc : Tab PairSpec := []
  /-- Blocks of the window that OP_TRACK skipped; the block of the period under way is one of them (R252). -/
  skips : Nat := 0
  late : Bool := false
  /-- A transform starts no earlier: the window's start, or the end of the last block skipped. -/
  since : MT := 0
  broken : Bool := false
  reps : Tab (Option TrackRep) := []
  props : Tab (Option Proposal) := []
  /-- Channels whose inactive extent holds an earlier proposal. -/
  posted : List Nat := []
  skip : Word := 0
  postSkip : Word := 0
  deriving DecidableEq, Repr, Inhabited

/-- A rail or temperature sensor: reported state, last value, and the runs of R257. -/
structure Sensor where
  state : Nat := 0
  value : Int := 0
  warnRun : Nat := 0
  faultRun : Nat := 0
  deriving DecidableEq, Repr, Inhabited

/-- A cable or SerDes loss estimate. -/
structure Estimate where
  valid : Bool := false
  value : Nat := 0
  flag : Bool := false
  deriving DecidableEq, Repr, Inhabited

/-- A button FIFO entry (R260). -/
structure Button where
  button : Nat
  long : Bool
  pressed : Bool
  overflow : Bool
  deriving DecidableEq, Repr, Inhabited

/-- The sense unit (R256–R260). -/
structure Sense where
  rails : Tab Sensor := []
  temps : Tab Sensor := []
  cables : Tab Estimate := []
  losses : Tab Estimate := []
  inserted : Bool := false
  accessory : Nat := 0
  /-- The button held down, and whether it has been held for 1,000 ms. -/
  held : Option (Nat × Bool) := none
  fifo : List Button := []
  lost : Bool := false
  /-- A rail's fault has lasted 100 ms while no firmware ran to act on it (R257). -/
  overdue : Bool := false
  deriving DecidableEq, Repr, Inhabited

/-- SELFTEST_RUN in progress and the last results (R242). -/
structure Selftest where
  mask : Option Nat := none
  deriving DecidableEq, Repr, Inhabited

end Sys2Proof.Machine
end

