-- ==== Sys2Proof/Machine/Types/Time.lean ====
section
/-! DEFINITION. The records of device time, the PTP time unit, rate domains, pulses and captures (chapter 02). -/

namespace Sys2Proof

/-- A PTP timestamp of 80 bits: seconds, and nanoseconds below 1,000,000,000 (R12). -/
structure PtpTime where
  sec : BitVec 48 := 0
  ns : Word := 0
  deriving DecidableEq, Repr, Inhabited

/-- A PTP port: its clock identity and its number in the clock. -/
structure PortId where
  clock : DWord := 0
  port : Nat := 0
  deriving DecidableEq, Repr, Inhabited

/-- The data set of an Announce message that the default BMCA of R52 compares. -/
structure Announce where
  gm : DWord
  priority1 : Nat
  clockClass : Nat
  accuracy : Nat
  variance : Nat
  priority2 : Nat
  stepsRemoved : Nat
  deriving DecidableEq, Repr, Inhabited

/-- What the header and the datagram of a PTP message give: version 2 in `major` with its minor number, the domain number, IPv6 or IPv4,
unicast or multicast, and the sending port (R52, R55). -/
structure PtpHeader where
  major : Nat := 2
  minor : Nat := 1
  domainNumber : Nat := 0
  v6 : Bool := false
  unicast : Bool := false
  src : PortId := {}
  deriving DecidableEq, Repr, Inhabited

/-- A received PTP message, by what R52 and R54 do with it.  A correction is in nanoseconds. -/
inductive PtpMsg where
  | announce (a : Announce)
  /-- One-step: origin carries the origin time; two-step: origin comes with the Follow_Up of the same sequence. -/
  | sync (seq : Nat) (twoStep : Bool) (origin : PtpTime) (correction : Int) (rx : DT)
  | followUp (seq : Nat) (origin : PtpTime) (correction : Int)
  | delayReq (seq : Nat) (rx : DT)
  /-- The answer to the Delay_Req of the port named. -/
  | delayResp (seq : Nat) (receive : PtpTime) (correction : Int) (requester : PortId)
  /-- A management message with or without the ST 2059-2 synchronization metadata TLV body. -/
  | management (tlv : Option (List Byte))
  /-- A Pdelay message (R52: ignored), or a message of an option not supported. -/
  | unsupported
  deriving DecidableEq, Repr, Inhabited

/-- A PTP message as a port receives it. -/
structure PtpRx where
  head : PtpHeader
  msg : PtpMsg
  deriving DecidableEq, Repr, Inhabited

end Sys2Proof

namespace Sys2Proof.Machine

/-- States of a rate domain (R60). -/
inductive DomState where
  | stopped | acquire | locked | holdover | realign
  deriving DecidableEq, Repr, Inhabited

/-- States of the PTP time unit (R54). -/
inductive PtpState where
  | disabled | freerun | acquiring | synced | holdover | grandmaster
  deriving DecidableEq, Repr, Inhabited

/-- The SET fields of DOMAIN_CFG (R65): source 0 INTERNAL, 1 PTP, 2 WORD_CLOCK. -/
structure DomCfg where
  source : Nat := 0
  flags : Byte := 0
  rate : Nat := 48000
  allot : Nat := 0
  holdoverS : Nat := 60
  deriving DecidableEq, Repr, Inhabited

/-- The closing period of R64: begun at boundary b, sample state cleared at b + 16, over at b + 32. -/
structure Closing where
  b : MT
  cleared : Bool
  /-- The domain rendered when it began, so that its MT counts through it (R61). -/
  counts : Bool
  deriving DecidableEq, Repr, Inhabited

/-- A rate domain (R58–R68). -/
structure Domain where
  state : DomState := .stopped
  cfg : DomCfg := {}
  /-- SET fields stored while SINGLE_RATE runs (R75). -/
  stored : Option DomCfg := none
  mt : MT := 0
  /-- DT of the last boundary (R65). -/
  dt : DT := 0
  phase : Int := 0
  freqPpb : Int := 0
  /-- Frequency offset of the reference, and its average held in HOLDOVER. -/
  refPpb : Int := 0
  /-- The reference's frequency offsets of the newest 1,024 blocks in LOCKED, newest first (R60). -/
  freqHist : List Int := []
  realignPending : Bool := false
  holdoverExpired : Bool := false
  slewing : Bool := false
  acquireTimeout : Bool := false
  /-- Consecutive blocks with a phase error within 100 ns. -/
  within : Nat := 0
  /-- DT since which the reference has been valid in ACQUIRE. -/
  validSince : Option DT := none
  holdoverSince : DT := 0
  closing : Option Closing := none
  /-- A stop or a realignment to begin at the next boundary that no request waits for (R75, R382), and the settings to
  take there, or at the end of the realignment. -/
  stopReq : Bool := false
  realignReq : Bool := false
  nextCfg : Option DomCfg := none
  /-- The reference was invalid at some time since the last boundary (R74). -/
  refLost : Bool := false
  realigns : Word := 0
  /-- The domain has realigned and not rendered since (R136). -/
  relock : Bool := false
  /-- Whether the last period of this domain rendered a block. -/
  rendered : Bool := false
  /-- The word-clock output carries the sample clock of the block under way (R68). -/
  wcRuns : Bool := false
  /-- START has been given since the last STOP: what firmware restores after data-path content is lost (R478). -/
  started : Bool := false
  deriving DecidableEq, Repr, Inhabited

/-- The snapshot registers of R50. -/
structure Snapshot where
  dt : DT := 0
  mt : List MT := [0, 0, 0]
  frac : List Half := [0, 0, 0]
  valid : List Bool := [false, false, false]
  deriving DecidableEq, Repr, Inhabited

/-- PTP_CFG fields in force (R55). -/
structure PtpCfg where
  clockType : Nat := 0
  profile : Nat := 0
  domainNumber : Nat := 0
  portMask : Nat := 0
  transport : Nat := 0
  priority1 : Nat := 128
  priority2 : Nat := 128
  clockClass : Nat := 248
  logSync : Int := 0
  logAnnounce : Int := 1
  logMinDelayReq : Int := 0
  announceTimeout : Nat := 3
  flags : Nat := 0
  dscp : Nat := 46
  stepThreshold : Nat := 1000000
  syncThreshold : Nat := 1000
  deriving DecidableEq, Repr, Inhabited

/-- Roles of a PTP port (R53). -/
inductive PtpRole where
  | disabled | listening | slave | passive | master
  deriving DecidableEq, Repr, Inhabited

/-- A PTP message given to the MAC (R52, R55): kind (0 Announce, 1 Sync, 2 Follow_Up, 3 Delay_Req, 4 Delay_Resp), sequence, the time
it carries, how it is sent, the data set of an Announce, and the port that a Delay_Resp answers. -/
structure PtpOut where
  kind : Nat := 0
  seq : Nat := 0
  time : PtpTime := {}
  head : PtpHeader := {}
  dscp : Nat := 0
  data : Option Announce := none
  requester : Option PortId := none
  deriving DecidableEq, Repr, Inhabited

/-- One PTP port. -/
structure PtpPort where
  role : PtpRole := .disabled
  /-- The qualified foreign masters heard on the port: their ports and data sets. -/
  foreign : List (PortId × Announce) := []
  /-- A two-step Sync that waits for its Follow_Up: sequence, correction, receive time. -/
  pendingSync : Option (Nat × Int × DT) := none
  /-- The last Sync completed: master-to-slave difference. -/
  msDiff : Int := 0
  delaySeq : Nat := 0
  delayTx : Option DT := none
  /-- Departure of the last Sync, which its Follow_Up carries. -/
  syncTx : Option DT := none
  pathDelay : Int := 0
  syncSeq : Nat := 0
  announceSeq : Nat := 0
  /-- The last 16 PTP messages given to the MAC, newest last. -/
  sent : List PtpOut := []
  deriving DecidableEq, Repr, Inhabited

/-- The foreign master the servo follows: its grandmaster, its port, and the slave port (R53, R54). -/
structure PtpParent where
  gm : DWord
  src : PortId
  port : Nat
  deriving DecidableEq, Repr, Inhabited

/-- The PTP time unit (R52–R57). -/
structure Ptp where
  state : PtpState := .disabled
  cfg : PtpCfg := {}
  ports : Tab PtpPort := []
  parent : Option PtpParent := none
  within : Nat := 0
  /-- The first offset on a new port under R53 is still to come. -/
  switched : Bool := false
  offset : Int := 0
  ignored : Word := 0
  /-- The last ST 2059-2 TLV body received (R445 id 0x0050). -/
  tlv : List Byte := []
  deriving DecidableEq, Repr, Inhabited

/-- PULSE_CFG fields (R70). -/
structure PulseCfg where
  mode : Nat := 0
  timebase : Nat := 0
  flags : Byte := 0
  start : DWord := 0
  period : Nat := 0
  width : Nat := 0
  count : Nat := 0
  deriving DecidableEq, Repr, Inhabited

/-- A pulse output TPO (R69–R71). -/
structure Pulse where
  cfg : PulseCfg := {}
  /-- The next rising edge: DT on a DT timebase, MT in the low half on an MT timebase. -/
  next : DWord := 0
  running : Bool := false
  produced : Nat := 0
  /-- DT at which the current high phase ends. -/
  highUntil : Option DT := none
  /-- A configuration that waits for the high phase to end and 20,000 ns to pass: fields, earliest DT. -/
  pending : Option (PulseCfg × DT) := none
  suppressed : Word := 0
  skipped : Word := 0
  deriving DecidableEq, Repr, Inhabited

/-- One capture record (R72). -/
structure CapRec where
  dt : DT
  mt : MT
  frac : Half
  flags : Byte
  input : Byte
  deriving DecidableEq, Repr, Inhabited

/-- A capture input TCI (R72). -/
structure Capture where
  edge : Nat := 0
  flags : Byte := 0
  domain : Nat := 0
  minInterval : Nat := 100
  prev : Option DT := none
  fifo : List CapRec := []
  lost : Bool := false
  step : Bool := false
  filtered : Word := 0
  lostCount : Word := 0
  deriving DecidableEq, Repr, Inhabited

/-- The time unit and its block of chapter 02 and R420. -/
structure TimeUnit where
  dt : DT := 0
  /-- Fraction of a nanosecond below DT, at 2^-32 ns. -/
  frac : Word := 0
  /-- Increment per TIME cycle at 2^-32 ns (R48); nominal 2^32. -/
  incr : Nat := 4294967296
  steps : Word := 0
  snap : Snapshot := {}
  irq : Word := 0
  ptp : Ptp := {}
  pulses : Tab Pulse := []
  caps : Tab Capture := []
  /-- Word-clock inputs 0–2 that are PRESENT (R67). -/
  wcPresent : Tab Bool := []
  wcMissing : Tab Nat := []
  deriving DecidableEq, Repr, Inhabited

end Sys2Proof.Machine
end

