-- ==== Sys2Proof/Machine/Types/Chain.lean ====
section
/-! DEFINITION. The records of the speaker chain (chapter 06). -/

namespace Sys2Proof.Machine

/-- Second-order section history: x(k−1), x(k−2), y(k−1), y(k−2). -/
structure Bq where
  x1 : Int := 0
  x2 : Int := 0
  y1 : Int := 0
  y2 : Int := 0
  deriving DecidableEq, Repr, Inhabited

/-- Section coefficients: Q5.27. -/
structure Coef where
  b0 : Int := 134217728
  b1 : Int := 0
  b2 : Int := 0
  a1 : Int := 0
  a2 : Int := 0
  deriving DecidableEq, Repr, Inhabited

/-- One EQ band as EQ_SET set it (R170): type 0 off, 1–8 by R169, 9 raw. -/
structure Band where
  type : Nat := 0
  gain : Int := 0
  f0 : Nat := 1000000
  q : Nat := 256
  raw : Coef := {}
  deriving DecidableEq, Repr, Inhabited

/-- DYN_CFG fields (R179, defaults of R165). -/
structure DynCfg where
  comp : Bool := false
  lim : Bool := false
  rms : Bool := false
  truePeak : Bool := false
  compT : Int := -2000
  compR : Nat := 400
  compW : Nat := 600
  makeup : Nat := 0
  compA : Nat := 10000
  compRel : Nat := 200000
  rmsUs : Nat := 10000
  limT : Int := -100
  limW : Nat := 0
  limA : Nat := 50
  limRel : Nat := 50000
  lookUs : Nat := 0
  deriving DecidableEq, Repr, Inhabited

/-- Configuration of a chain column (R163–R184), with the defaults of R165. -/
structure ChainCfg where
  byBass : Bool := false
  byEq : Bool := false
  byFir : Bool := true
  byDelay : Bool := false
  byDyn : Bool := true
  invert : Bool := false
  ownLp : Bool := false
  group : Nat := 255
  xfade : Nat := 1
  bands : Tab Band := []
  align : Nat := 0
  dyn : DynCfg := {}
  deriving DecidableEq, Repr, Inhabited

/-- What feeds a bass destination from one group (R167). -/
structure BassFeed where
  group : Nat
  order : Nat
  crossover : Nat
  gain : Int
  members : List Nat
  deriving DecidableEq, Repr, Inhabited

/-- A column's part in bass management: its member filter and its own low-pass (group, order, crossover), the groups it is a destination
of. -/
structure BassRole where
  hp : Option (Nat × Nat × Nat) := none
  ownLp : Option (Nat × Nat × Nat) := none
  feeds : List BassFeed := []
  deriving DecidableEq, Repr, Inhabited

/-- A role with its filters' histories: two sections each. -/
structure BassPath where
  role : BassRole := {}
  hp : Bq × Bq := ({}, {})
  own : Bq × Bq := ({}, {})
  feeds : Tab (Bq × Bq) := []
  deriving DecidableEq, Repr, Inhabited

/-- An EQ cascade: none passes the band unchanged. -/
structure EqPath where
  on : Bool := true
  coefs : List (Option Coef) := []
  st : List Bq := []
  deriving DecidableEq, Repr, Inhabited

/-- A stage's crossfade: its old path, start sample and length. -/
structure StageFade (α : Type) where
  old : α
  t : MT
  n : Nat
  deriving DecidableEq, Repr, Inhabited

/-- A bass group's configuration (R163, R165). -/
structure BassGroup where
  order : Nat := 0
  crossover : Nat := 80000
  gain : Int := 0
  dests : List Nat := []
  deriving DecidableEq, Repr, Inhabited

/-- A timed OUT_GAIN or OUT_MUTE that waits (R184): ramp start, length, target. -/
structure Timed where
  t : MT
  n : Nat
  target : Int
  deriving DecidableEq, Repr, Inhabited

/-- Sample state of a chain column. -/
structure ChainState where
  bass : BassPath := {}
  bassOld : Option (StageFade BassPath) := none
  eq : EqPath := {}
  eqOld : Option (StageFade EqPath) := none
  firOn : Bool := false
  firOld : Option (StageFade Bool) := none
  /-- Alignment line, newest sample first. -/
  line : List Int := []
  /-- Detector tap D_align and audio tap D_a in samples. -/
  tapDet : Nat := 0
  tapAudio : Nat := 0
  tapOld : Option (StageFade Nat) := none
  dynOn : Bool := false
  /-- A DYN bypass change: the parameters of the old path, none where it was bypassed. -/
  dynOld : Option (StageFade (Option DynCfg)) := none
  /-- Detector-tap samples before the present one, newest first (R175). -/
  tpHist : List Int := []
  /-- p, g_C, g_L in binary32. -/
  p : F32 := 0
  gC : F32 := 0
  gL : F32 := 0
  /-- Makeup in dB: old value, new value, start, length. -/
  mk0 : F32 := 0
  mk1 : F32 := 0
  mkT : MT := 0
  mkN : Nat := 0
  /-- Greatest reductions in the last block and since the last read, centi-dB (R180). -/
  grC : Nat := 0
  grL : Nat := 0
  holdC : Nat := 0
  holdL : Nat := 0
  deriving DecidableEq, Repr, Inhabited

/-- A polarity change (R183): its start S, the factor just before it, and the new polarity. -/
structure Flip where
  t : MT
  v0 : Int
  inv : Bool
  deriving DecidableEq, Repr, Inhabited

/-- A chain column. -/
structure Chain1 where
  cfg : ChainCfg := {}
  /-- Configuration in force, which the crossfades start from. -/
  inForce : ChainCfg := {}
  gout : Ramp := { cur := { v1 := 268435456 } }
  mute : Ramp := {}
  /-- Targets as configured: linear gain and muted. -/
  goutSet : Int := 268435456
  muteSet : Bool := true
  timedGain : Option Timed := none
  timedMute : Option Timed := none
  /-- Polarity changes in progress, oldest first, after the polarity invertNow. -/
  flips : List Flip := []
  invertNow : Bool := false
  st : ChainState := {}
  deriving DecidableEq, Repr, Inhabited

/-- Chapter 06 state. -/
structure ChainAll where
  cols : Tab Chain1 := []
  groups : Tab BassGroup := []
  dynCtrl : Word := 0
  chainClip : Tab Word := []
  chainVoid : Tab Word := []
  outClip : Tab Word := []
  deriving DecidableEq, Repr, Inhabited

end Sys2Proof.Machine
end

