-- ==== Sys2Proof/Machine/Types/Mantle.lean ====
section
/-! DEFINITION. The records of MANTLE and HALO (chapter 07). -/

namespace Sys2Proof.Machine

/-- Extent states of R205: EMPTY is the absence of an extent. -/
inductive ExtState where
  | mapped | loading | loaded | invalid
  deriving DecidableEq, Repr, Inhabited

/-- A channel's extent in one set: role 0 chain column, 1 HRIR left, 2 HRIR right (R189, R198). -/
structure Extent where
  role : Nat
  target : Nat
  lam : Nat
  state : ExtState := .mapped
  /-- Transfer and transform have completed; LOADED is latched at the next boundary (R200). -/
  done : Bool := false
  taps : List F32 := []
  latch : Option MT := none
  ready : Bool := false
  /-- Bytes of the extent that bus master M1 has written since the last load, by their offset (R189, R190). -/
  raw : Tab Byte := []
  /-- The rate the extent is charged at while its target is unbound: that of the binding it lost (R193). -/
  rate : Nat := 48000
  deriving DecidableEq, Repr, Inhabited

/-- A commit crossfade (R204): boundary b, length, the old set (true for B). -/
structure MFade where
  b : MT
  n : Nat
  oldB : Bool
  deriving DecidableEq, Repr, Inhabited

/-- A MANTLE channel. -/
structure MChan where
  activeB : Bool := false
  a : Option Extent := none
  b : Option Extent := none
  fade : Option MFade := none
  /-- Input history, newest sample first. -/
  hist : List Int := []
  /-- Classes (1–5) whose state started at a sample: earlier input reads as silence (R193). -/
  since : Tab MT := []
  /-- Classes added by a MAP whose state starts at the next boundary. -/
  fresh : List Nat := []
  deriving DecidableEq, Repr, Inhabited

/-- A FIR_LOAD DATA in progress (R199), by a host request, by CAL_START DESIGN or by a proposal. -/
structure MLoad where
  asked : Option Taken
  chans : List Nat
  /-- The bus error that the transfer of its taps has met. -/
  busErr : Option Status := none
  deriving DecidableEq, Repr, Inhabited

/-- A held commit (R203). -/
structure MCommit where
  taken : Taken
  chans : List Nat
  atMt : Option MT
  n : Nat
  /-- The domain that scope DOMAIN names. -/
  named : Option Nat := none
  /-- The checks of R202 have been made: at the first boundary after the request (R214). -/
  judged : Bool := true
  /-- Channels without a bound target that have swapped already (R203). -/
  swapped : List Nat := []
  /-- On a pair, the boundary before which it does not take effect: S_t, or the boundary the leader names (R380). -/
  st : Option MT := none
  deriving DecidableEq, Repr, Inhabited

/-- A head orientation in centidegrees: yaw, pitch, roll. -/
structure Orient where
  yaw : Int := 0
  pitch : Int := 0
  roll : Int := 0
  deriving DecidableEq, Repr, Inhabited

/-- HALO_CFG state (R210, R211). -/
structure Halo where
  rotate : Bool := false
  muted : Bool := true
  gain : Int := 0
  g : Ramp := { cur := { v1 := 268435456 } }
  m : Ramp := {}
  orient : Orient := {}
  /-- ROTATE_EN before a change, and the block from which the change applies (R31). -/
  rotOld : Option (Bool × MT) := none
  /-- The orientation before a change sampled at a boundary, and the block from which the change applies. -/
  oriOld : Option (Orient × MT) := none
  /-- A pending orientation and the block it applies to. -/
  pending : Option (Orient × MT) := none
  /-- The rotation of the last rendered block; none after a lock (R213). -/
  prev : Option (Bool × Orient) := none
  deriving DecidableEq, Repr, Inhabited

/-- What FIR_STATUS reports of the last boundary of D0 (R205): the MT, the eight bytes of each listed channel, and the fields of SUMMARY
before and after mt. -/
structure FirSnap where
  mt : MT
  chans : Tab (List Byte)
  head : List Byte
  tail : List Byte
  deriving DecidableEq, Repr, Inhabited

/-- Chapter 07 state. -/
structure Mantle where
  firSnap : Option FirSnap := none
  ch : Tab MChan := []
  load : Option MLoad := none
  commits : List MCommit := []
  ctrl : Word := 0
  clip : Tab Word := []
  void : Tab Word := []
  binClip : Word := 0
  loadErr : Word := 0
  halo : Halo := {}
  deriving DecidableEq, Repr, Inhabited

end Sys2Proof.Machine
end

