-- ==== Sys2Proof/Machine/Types/Ports.lean ====
section
/-! DEFINITION. The records of AES3 receivers and transmitters, TDM ports and alignment groups (chapter 12). -/

namespace Sys2Proof

/-- A received AES3 subframe: the 24-bit word, the V, U and C bits, and its line errors (R313, R316). -/
structure AesSub where
  word : BitVec 24 := 0
  v : Bool := false
  u : Bool := false
  c : Bool := false
  parity : Bool := false
  biphase : Bool := false
  deriving DecidableEq, Repr, Inhabited

/-- A received AES3 frame: the preamble's instant at the pin on the domain's sample grid (MT and fraction), whether
subframe A has a Z preamble, and the frequency error last measured (R314, R315). -/
structure AesFrame where
  mt : MT := 0
  frac : Half := 0
  z : Bool := false
  epsPpb : Int := 0
  /-- In SINGLE_RATE, the rate of R313 that the frame rate lies within 1,000 ppm of; 0 for none. -/
  rateHz : Nat := 0
  a : AesSub := {}
  b : AesSub := {}
  deriving DecidableEq, Repr, Inhabited

/-- A TDM frame at an FS edge: the edge's instant on the domain's sample grid, the received slot words as data_bits-bit
numbers, the frequency error last measured, and whether the frame has the configured BCLK count (R320, R321). -/
structure TdmIn where
  mt : MT := 0
  frac : Half := 0
  epsPpb : Int := 0
  bclkOk : Bool := true
  /-- Cycles of the domain's APLL from the completion of an arm made since the last edge to this edge (R322). -/
  armLead : Nat := 1024
  /-- In SINGLE_RATE, the frame rate identified; 0 for none. -/
  rateHz : Nat := 0
  words : List Word := []
  deriving DecidableEq, Repr, Inhabited

end Sys2Proof

namespace Sys2Proof.Machine

/-- The slip gate of R324: passing, fading the last good samples from t, silent, or ramping in from t. -/
inductive SlipPhase where
  | passing | fade | zero | ramp
  deriving DecidableEq, Repr, Inhabited

structure SlipGate where
  phase : SlipPhase := .zero
  t : MT := 0
  /-- Clean blocks in a row while silent (R324). -/
  clean : Nat := 0
  /-- Every sample of the block under way was taken at its position without error. -/
  ok : Bool := true
  last : List Int := []
  deriving DecidableEq, Repr, Inhabited

/-- An elastic mapping (R315, R328): MT of the next frame, δ_ref at 2^-16 samples, the MT modulo 192 of the Z preamble
at the reference, and whether a reference stands. -/
structure Elastic where
  next : MT := 0
  ref : Nat := 0
  refZ : Nat := 0
  has : Bool := false
  deriving DecidableEq, Repr, Inhabited

/-- States of R314. -/
inductive AesState where
  | absent | locking | locked | clockFault
  deriving DecidableEq, Repr, Inhabited

structure AesRxCfg where
  enable : Bool := false
  domain : Nat := 0
  vmute : Bool := false
  wl20 : Bool := false
  nominal : Nat := 0
  deriving DecidableEq, Repr, Inhabited

/-- A stored channel-status and user block (R317). -/
structure CsBlock where
  cs : List Byte := []
  user : List Byte := []
  crcBad : Bool := false
  deriving DecidableEq, Repr, Inhabited

/-- An AES3 receiver. -/
structure AesRx where
  cfg : AesRxCfg := {}
  state : AesState := .absent
  map : Elastic := {}
  /-- Instant of the last preamble, its Z flag, and the last frequency error. -/
  lastMt : MT := 0
  lastFrac : Half := 0
  eps : Int := 0
  /-- Frames with valid preambles in a row; a Z preamble has been seen. -/
  frames : Nat := 0
  seenZ : Bool := false
  /-- Frames since the last Z preamble. -/
  sinceZ : Nat := 0
  /-- Errors of the last 64 frames, newest first. -/
  errs : List Bool := []
  gate : SlipGate := {}
  good : List Int := [0, 0]
  /-- The channel buffers: gated up to the last landed boundary, as taken beyond it; positions not taken clean. -/
  outA : Line := {}
  outB : Line := {}
  landed : MT := 0
  bad : List MT := []
  /-- Frames in a row that a grouped member's reference tests have failed (R328). -/
  miss : Nat := 0
  /-- Bits of the block under way, newest first, per subframe. -/
  csA : List Bool := []
  csB : List Bool := []
  usA : List Bool := []
  usB : List Bool := []
  blkA : Option CsBlock := none
  blkB : Option CsBlock := none
  changed : List Bool := [false, false]
  /-- The non-audio bit in force of each subframe, taken at Z preambles (R313, R317). -/
  nonA : Bool := false
  nonB : Bool := false
  /-- RX_WL20 in force, taken at Z preambles. -/
  wl20 : Bool := false
  rateHz : Nat := 0
  /-- Subframes received with V = 1 (R313); no register and no reply shows the count. -/
  vCount : Word := 0
  parityErr : Word := 0
  biphaseErr : Word := 0
  csCrcErr : Word := 0
  slips : Word := 0
  clkFault : Word := 0
  mappingLost : Bool := false
  deriving DecidableEq, Repr, Inhabited

/-- A transmit channel: its source, and the old source of a crossfade with its start; until that start the crossfade it
abandons runs on, from `older` (R326, R162). -/
structure TxChan where
  src : Src := {}
  old : Option (Src × MT) := none
  older : Option (Src × MT) := none
  deriving DecidableEq, Repr, Inhabited

structure AesTxCfg where
  enable : Bool := false
  domain : Nat := 0
  fixed : Bool := false
  dither : Bool := false
  forceV : Bool := false
  wl : Nat := 24
  deriving DecidableEq, Repr, Inhabited

/-- A frame that left a transmitter: Z preamble, words, V, U and C of both subframes. -/
structure AesOut where
  z : Bool := false
  a : Nat := 0
  b : Nat := 0
  va : Bool := false
  vb : Bool := false
  ua : Bool := false
  ub : Bool := false
  ca : Bool := false
  cb : Bool := false
  deriving DecidableEq, Repr, Inhabited

/-- Phases of a transmitter: off, starting (frames of zero left), running, stopping (frames left). -/
inductive TxPhase where
  | off | starting (left : Nat) | running | stopping (left : Nat)
  deriving DecidableEq, Repr, Inhabited

/-- An AES3 transmitter. -/
structure AesTx where
  cfg : AesTxCfg := {}
  phase : TxPhase := .off
  /-- Emission MT of the next frame's sample. -/
  next : MT := 0
  /-- Frame number in the 192-frame block. -/
  frame : Nat := 0
  chA : TxChan := {}
  chB : TxChan := {}
  /-- Written channel status and user patterns, and what the block under way sends. -/
  csA : List Byte := []
  csB : List Byte := []
  userA : List Byte := []
  userB : List Byte := []
  nowCsA : List Byte := []
  nowCsB : List Byte := []
  nowUsA : List Byte := []
  nowUsB : List Byte := []
  gate : SlipGate := { phase := .passing }
  good : List Int := [0, 0]
  slips : Word := 0
  sent : Option AesOut := none
  deriving DecidableEq, Repr, Inhabited

/-- States of R321. -/
inductive TdmState where
  | stopped | noClock | starting | running | stopping | clockFault
  deriving DecidableEq, Repr, Inhabited

structure TdmCfg where
  enable : Bool := false
  domain : Nat := 0
  format : Nat := 0
  target : Bool := false
  slots : Nat := 2
  slotBits : Nat := 32
  dataBits : Nat := 32
  fsInvert : Bool := false
  fsPulse : Bool := false
  bclkInvert : Bool := false
  doutHiz : Bool := false
  dither : Bool := false
  fsOffset : Nat := 0
  nominal : Nat := 0
  deriving DecidableEq, Repr, Inhabited

/-- A TDM port. -/
structure Tdm where
  cfg : TdmCfg := {}
  /-- A change that waits for STOPPING to end. -/
  pend : Option TdmCfg := none
  state : TdmState := .stopped
  /-- The elastic mappings of the two directions: MT taken by, and emission MT sent in, the next frame. -/
  map : Elastic := {}
  mapT : Elastic := {}
  lastMt : MT := 0
  lastFrac : Half := 0
  eps : Int := 0
  /-- Frames in the present state; good frames in a row while NO_CLOCK. -/
  frames : Nat := 0
  /-- Gates of the receive and the transmit direction, and the last good samples of each. -/
  gate : SlipGate := {}
  gateT : SlipGate := {}
  goodR : List Int := []
  goodT : List Int := []
  /-- The channel buffers, as for AES3. -/
  rx : Tab Line := []
  landed : MT := 0
  bad : List MT := []
  miss : Nat := 0
  missT : Nat := 0
  tx : Tab TxChan := []
  rxMask : Word := 0
  txMask : Word := 0
  rxShadow : Word := 0
  txShadow : Word := 0
  maskAt : Word := 0
  armed : Bool := false
  atMt : Bool := false
  /-- Shadows that SLOT_MASK stored while the port did not run, to be copied when it starts (R323). -/
  startCopy : Bool := false
  lateBit : Bool := false
  maskMt : Word := 0
  maskCopies : Word := 0
  /-- Slots enabled by a copy fade in from this MT (R322). -/
  slotRx : Tab MT := []
  slotTx : Tab MT := []
  slips : Word := 0
  mappingLost : Bool := false
  /-- The words of the last frame on DOUT; none is high impedance. -/
  dout : List (Option Nat) := []
  rateHz : Nat := 0
  deriving DecidableEq, Repr, Inhabited

/-- A member of an alignment group: EV_UNDERRUN kind and index (R327). -/
structure GMember where
  kind : Nat
  index : Nat
  lost : Bool := false
  deriving DecidableEq, Repr, Inhabited

structure AlignGroup where
  dom : Nat := 0
  /-- MT of the boundary at which the group last changed (R329). -/
  mt : MT := 0
  members : List GMember := []
  deriving DecidableEq, Repr, Inhabited

/-- The audio-port engine. -/
structure Ports where
  aesRx : Tab AesRx := []
  aesTx : Tab AesTx := []
  tdm : Tab Tdm := []
  groups : Tab AlignGroup := []
  ctrl : Word := 0
  clip : Tab Word := []
  deriving DecidableEq, Repr, Inhabited

end Sys2Proof.Machine
end

