-- ==== Sys2Proof/Machine/Types/Net.lean ====
section
/-! DEFINITION. The records of the network ports, media flows, host rings and metadata flows (chapter 13, R100–R103). -/

namespace Sys2Proof

/-- A fraction num/den of an S-ADM document's number. -/
structure Frac where
  num : Int := 0
  den : Nat := 1
  deriving DecidableEq, Repr, Inhabited

/-- An XML document as tags and text, and as a tree (R100). -/
inductive XmlTok where
  | start (name : List Char) (attrs : List (List Char × List Char))
  | close (name : List Char)
  | text (cs : List Char)
  deriving DecidableEq, Repr, Inhabited
inductive Xml where
  | node (name : List Char) (attrs : List (List Char × List Char)) (kids : List Xml)
  | text (cs : List Char)
  deriving Inhabited

/-- One audioBlockFormat of an S-ADM frame (R101, R102); the coordinates are X, Y, Z in cartesian form, else azimuth, elevation,
distance. -/
structure AdmBlock where
  rtime : Option Frac := none
  duration : Option Frac := none
  cartesian : Bool := false
  coord1 : Option Frac := none
  coord2 : Option Frac := none
  coord3 : Option Frac := none
  width : Option Frac := none
  height : Option Frac := none
  depth : Option Frac := none
  gain : Option Frac := none
  gainDb : Bool := false
  diffuse : Option Frac := none
  jump : Option Bool := none
  interp : Option Frac := none
  importance : Option Frac := none
  deriving DecidableEq, Repr, Inhabited

/-- An Objects channel AC_0003xxxx: xxxx, the start of the audioObject that references it, its blocks in document order. -/
structure AdmChan where
  chan : Nat
  objStart : Option Frac := none
  blocks : List AdmBlock := []
  deriving DecidableEq, Repr, Inhabited

/-- An S-ADM document (R100, R101): whether its frameFormat is full or intermediate (else header or divided), its start in seconds,
elements and attributes outside the subset, channels in document order. -/
structure AdmDoc where
  whole : Bool := true
  start : Frac := {}
  ignored : Nat := 0
  chans : List AdmChan := []
  deriving DecidableEq, Repr, Inhabited

/-- A frame at a port's balls: its bytes without FCS, whether the FCS is good, the MAC's stamp before the correction of
R341, PCS and FEC events since the last frame, and the bus addresses that the posted descriptors of the ring it may go to hold. -/
structure RxFrame where
  bytes : List Byte
  fcsOk : Bool := true
  dt : DT := 0
  pcsErr : Nat := 0
  fecCorr : Nat := 0
  fecUncorr : Nat := 0
  bufs : List Nat := []
  deriving DecidableEq, Repr, Inhabited

/-- A host transmit descriptor as fetched (R364), with its buffer's bytes. -/
structure TxDesc where
  bytes : List Byte
  data : List Byte
  deriving DecidableEq, Repr, Inhabited

end Sys2Proof

namespace Sys2Proof.Machine

/-- NET_PORT_CFG SET fields (R338). -/
structure NetCfg where
  speed : Nat := 0
  fec : Nat := 0
  jumbo : Bool := false
  ip4 : Bool := false
  ip6 : Bool := false
  icmp : Bool := false
  prefix4 : Nat := 0
  prefix6 : Nat := 0
  mac : List Byte := List.replicate 6 0
  ipv4 : List Byte := List.replicate 4 0
  gateway4 : List Byte := List.replicate 4 0
  ipv6 : List Byte := List.replicate 16 0
  rxDelay : Int := 0
  txDelay : Int := 0
  deriving DecidableEq, Repr, Inhabited

/-- A gate control list: start of its first cycle, cycle, entries (gates, interval). -/
structure GateList where
  start : Nat := 0
  cycle : Nat := 0
  entries : List (Nat × Nat) := []
  deriving DecidableEq, Repr, Inhabited

/-- What a queued transmit frame is: a media packet (flow, leg, first emission MT), a host frame (ring), a firmware
protocol frame (protocol, target address), a PTP message (kind, sequence, whether its stamp is used). -/
inductive FrameKind where
  | media (flow leg : Nat) (u : MT)
  /-- A frame of a ring, or a segment of its request: descriptors, TS_REQ, segments still to follow. -/
  | host (ring : Nat) (descs : Nat) (tsReq : Bool) (rest : Nat)
  | firmware (proto : Nat) (target : List Byte)
  | ptp (kind seq : Nat)
  deriving DecidableEq, Repr, Inhabited

/-- A frame waiting or in transmission: its bytes without FCS, one list per segment (none for protocols whose format is
their standard's), the DT at which it was queued, or once it is sent at which it started. -/
structure TxFrame where
  kind : FrameKind
  queue : Nat
  frames : List (List Byte) := []
  dt : DT := 0
  deriving DecidableEq, Repr, Inhabited

/-- A resolved neighbour: address, MAC, DT of the last answer (R339). -/
structure Neighbour where
  addr : List Byte
  mac : List Byte
  dt : DT
  deriving DecidableEq, Repr, Inhabited

/-- A multicast membership on a port (R340): group, source for INCLUDE, unsolicited reports still to send. -/
structure Member1 where
  group : List Byte
  source : List Byte
  reports : Nat
  deriving DecidableEq, Repr, Inhabited

/-- A network port. -/
structure NetPort where
  cfg : NetCfg := {}
  blockLock : Bool := false
  remoteFault : Bool := false
  up : Bool := false
  thresh : Nat := 512
  /-- Timestamp queue (R342): stamps not yet read. -/
  tsq : List DT := []
  rx : Tab Word := []
  tx : Tab Word := []
  status : Word := 0x10
  halfRx : Word := 0
  halfTx : Word := 0
  /-- Half-range crossings not yet reported by EV_COUNTER_HALF, and the DT of the first. -/
  evRx : Word := 0
  evTx : Word := 0
  evFirst : Option DT := none
  evLast : Option DT := none
  gates : Option GateList := none
  gateIx : Nat := 0
  /-- A pending change: the list (none: every gate open), its change time, the request to answer. -/
  gatePend : Option (Option GateList × Nat × Taken) := none
  queue : List TxFrame := []
  sending : Option TxFrame := none
  neigh : List Neighbour := []
  /-- Addresses asked for and not yet answered, with the DT of the first request. -/
  asking : List (List Byte × DT) := []
  members : List Member1 := []
  /-- Echo replies sent in the current second, and its start. -/
  echo : Nat := 0
  echoDt : DT := 0
  deriving DecidableEq, Repr, Inhabited

/-- FLOW_RX_CFG SET fields (R356). -/
structure RxFlowCfg where
  enable : Bool := false
  metadata : Bool := false
  ipv6 : Bool := false
  ssrcFilter : Bool := false
  ptCheck : Bool := false
  domain : Nat := 0
  ports : Nat := 0
  l24 : Bool := false
  channels : Nat := 1
  ptime : Nat := 0
  pt : Nat := 96
  depth : Nat := 0
  ssrc : Word := 0
  offset : Int := 0
  objBase : Nat := 0
  objCount : Nat := 1
  scale : Nat := 0
  itemType : Word := 0
  deriving DecidableEq, Repr, Inhabited

/-- A leg of a receive flow. -/
structure RxLeg where
  set : Bool := false
  udp : Nat := 0
  dst : List Byte := List.replicate 16 0
  src : List Byte := List.replicate 16 0
  up : Bool := false
  lastDt : DT := 0
  seq : Option Nat := none
  count : Word := 0
  gaps : Word := 0
  deriving DecidableEq, Repr, Inhabited

/-- A metadata frame being reassembled (R100): its RTP timestamp, and its packets' data under their sequence numbers, as they came. -/
structure AdmBuild where
  ts : MT
  parts : List (Nat × List Byte)
  deriving DecidableEq, Repr, Inhabited

/-- A receive flow. -/
structure RxFlow where
  cfg : RxFlowCfg := {}
  legs : Tab RxLeg := []
  /-- Positions written and not yet landed: play-out MT, one raw sample word per channel. -/
  ring : List (MT × List Int) := []
  /-- Packets have arrived since enable or the last clear. -/
  receiving : Bool := false
  /-- The first position written since then: positions before it are silent and no underrun. -/
  first : MT := 0
  gate : SlipGate := { phase := .passing }
  good : List Int := []
  out : Tab Line := []
  /-- The last landing close. -/
  landed : MT := 0
  /-- No-leg silence has been counted (R352). -/
  dark : Bool := false
  lastSsrc : Option Word := none
  ssrcChanged : Bool := false
  late : Word := 0
  early : Word := 0
  mismatch : Word := 0
  reconciled : Word := 0
  slips : Word := 0
  badLen : Word := 0
  badPt : Word := 0
  badSsrc : Word := 0
  ssrcChanges : Word := 0
  adm : Option AdmBuild := none
  admErr : Word := 0
  admIgnored : Word := 0
  admRange : Word := 0
  admClamp : Word := 0
  /-- FLOW_STATE as at the last boundary of its domain (R359). -/
  view : List Byte := []
  deriving DecidableEq, Repr, Inhabited

/-- FLOW_TX_CFG SET fields (R357). -/
structure TxFlowCfg where
  enable : Bool := false
  ipv6 : Bool := false
  dither : Bool := false
  vlan : Bool := false
  udpZero : Bool := false
  domain : Nat := 0
  ports : Nat := 0
  l24 : Bool := false
  channels : Nat := 1
  ptime : Nat := 0
  pt : Nat := 96
  queue : Nat := 0
  dscp : Nat := 0
  ssrc : Word := 0
  ttl : Nat := 1
  tci : Nat := 0
  deriving DecidableEq, Repr, Inhabited

/-- A leg of a transmit flow. -/
structure TxLeg where
  set : Bool := false
  srcUdp : Nat := 0
  dstUdp : Nat := 0
  dst : List Byte := List.replicate 16 0
  deriving DecidableEq, Repr, Inhabited

/-- A transmit flow. -/
structure TxFlow where
  cfg : TxFlowCfg := {}
  legs : Tab TxLeg := []
  chans : Tab TxChan := []
  sent : Word := 0
  drops : Word := 0
  evs : Word := 0
  /-- FLOW_STATE as at the last boundary of its domain (R359). -/
  view : List Byte := []
  deriving DecidableEq, Repr, Inhabited

/-- A receive filter (R361). -/
structure Filter where
  ports : Nat := 0
  enable : Bool := false
  byMac : Bool := false
  byEtype : Bool := false
  byProto : Bool := false
  byUdp : Bool := false
  drop : Bool := false
  ring : Nat := 0
  proto : Nat := 0
  etype : Nat := 0
  mac : List Byte := List.replicate 6 0
  udp : Nat := 0
  deriving DecidableEq, Repr, Inhabited

/-- A host ring (R367): 0–3 receive, 4–7 transmit. -/
structure Ring where
  baseLo : Word := 0
  baseHi : Word := 0
  size : Word := 0
  ctrl : Word := 0
  head : Word := 0
  tail : Word := 0
  dropping : Bool := false
  stalled : Bool := false
  dropped : Word := 0
  /-- DT of the last interrupt of the ring. -/
  irqDt : Option DT := none
  irqPend : Bool := false
  /-- An advance of RING_HEAD whose interrupt waits for the hold-off to end (R360). -/
  irqHeld : Bool := false
  /-- Completion status and stamp of a segmentation request's first segment (R365). -/
  segStamp : Option (Nat × DT) := none
  deriving DecidableEq, Repr, Inhabited

/-- The network flow engine. -/
structure Net where
  ports : Tab NetPort := []
  rxFlows : Tab RxFlow := []
  txFlows : Tab TxFlow := []
  filters : Tab Filter := []
  rings : Tab Ring := []
  tailErr : Tab Word := []
  /-- Frames that the last command put on the wire: port, bytes without FCS. -/
  wire : List (Nat × List Byte) := []
  deriving DecidableEq, Repr, Inhabited

end Sys2Proof.Machine
end

