-- ==== Sys2Proof/Machine/Types/Twin.lean ====
section
/-! DEFINITION. The records of the Silton link and of twin operation (chapter 14), and of what a domain's render period
holds between its windows (R28, R32). -/

namespace Sys2Proof.Machine

/-- What an object puts into a render period (R137): its direct and decorrelated blocks of 16 samples, the clips of its path,
and its path as it stands if the block turns out void (R156). -/
structure Mix where
  obj : Nat
  dir : List Int := []
  dec : List Int := []
  clips : Nat := 0
  void : PathState := {}
  deriving DecidableEq, Repr, Inhabited

/-- The render period of a domain: the boundary that began it, whether it renders, whether it renders objects, whether its block
is the closing block that is emitted with the fade of R64, the objects' blocks, the windows that were cut, and the work that
each cut (window, number).  `closing` stands until the outputs emit zero. -/
structure DomRender where
  b : MT := 0
  active : Bool := false
  objs : Bool := false
  closing : Bool := false
  /-- The period is one of SINGLE_RATE: what D1 and D2 hold is rendered in D0 (R77). -/
  single : Bool := false
  /-- The last period that renders objects: what PRISM gives fades over the block (R243, R480). -/
  objsEnd : Bool := false
  mixes : List Mix := []
  cut : List Nat := []
  missed : List (Nat × Nat) := []
  published : Bool := true
  /-- The domain's outputs that do not pass the matrix: zero for four blocks, then ramping in; fading in the closing period
  (R60, R61, R64).  By landed MT, emission MT less 32. -/
  outGate : Gate := {}
  deriving DecidableEq, Repr, Inhabited

/-- The output stage buffers: columns, HB0 and HB1, tile output ports, by landed MT (emission MT less 32, R31); the gates of
R32 by column, 640 and 641 for HB0 and HB1. -/
structure Render where
  dom : Tab DomRender := []
  cols : Tab Line := []
  hb : Tab Line := []
  tile : Tab Line := []
  gates : Tab Gate := []
  /-- Fades of outputs that a rail fault, a mode change or a divergence stops, by class × 4 + domain: class 0 transmit
  flows, 1 AES3 and TDM outputs, 2 every output (R257, R389, R480). -/
  mutes : Tab (Option Gate) := []
  deriving DecidableEq, Repr, Inhabited

/-- Pair states, in the encoding order of R393. -/
inductive PairState where
  | off | linking | leader | leaderSolo | resync | verify | synced | isolated
  deriving DecidableEq, Repr, Inhabited

/-- TWIN_CFG fields (R394). -/
structure TwinCfg where
  enable : Bool := false
  both : Bool := false
  rolePref : Nat := 0
  txLeg : Nat := 0
  hbPorts : Nat := 0
  hbGroup : List Byte := List.replicate 16 0
  hbUdp : Nat := 0
  pairId : Word := 0
  deriving DecidableEq, Repr, Inhabited

/-- The partner's LINK_HELLO (R376). -/
structure Hello where
  maxMajor : Nat
  maxMinor : Nat
  minMajor : Nat
  id : DWord
  grade : Nat
  rolePref : Nat
  txLeg : Nat
  state : Nat
  renderRev : Half
  pairId : Word
  deriving DecidableEq, Repr, Inhabited

/-- A frame sent and not acknowledged: its seq, its bytes, its attempts (R373). -/
structure LinkSent where
  seq : Word
  bytes : List Byte
  tries : Nat
  deriving DecidableEq, Repr, Inhabited

/-- A ticket a follower holds until its apply boundary: number, kind and body of R375, domain, S_t. -/
structure Ticket where
  no : Word
  kind : Nat
  queue : Nat
  dom : Nat
  st : MT
  body : List Byte
  deriving DecidableEq, Repr, Inhabited

/-- A command ticket the leader has issued and the partner has not acknowledged, with the replies it withholds
(R378). -/
structure Issued where
  no : Word
  taken : Option Taken := none
  reply : Option OutMsg := none
  deriving DecidableEq, Repr, Inhabited

/-- The latest MARKER of a domain (R374, R375). -/
structure Marker where
  state : Nat := 0
  source : Nat := 0
  flags : Nat := 0
  rate : Nat := 48000
  mt : MT := 0
  dt : DT := 0
  fresh : Bool := false
  deriving DecidableEq, Repr, Inhabited

/-- The signatures of a published block (R388): domain, block, ticket check, groups 0–20. -/
structure Sig where
  dom : Nat
  block : MT
  ticket : Word
  sums : List Word
  deriving DecidableEq, Repr, Inhabited

/-- Loop values of a bridge for an output block (R386). -/
structure LoopVal where
  bridge : Nat
  block : MT
  state : Nat
  pos : Int
  rho : Int
  deriving DecidableEq, Repr, Inhabited

/-- A block of a leader's port channel (R384). -/
structure PortBlk where
  kind : Nat
  index : Nat
  chan : Nat
  block : MT
  xs : List Int
  deriving DecidableEq, Repr, Inhabited

/-- The Silton link and the pair. -/
structure Twin where
  cfg : TwinCfg := {}
  state : PairState := .off
  partner : Nat := 255
  partnerId : DWord := 0
  linkCtrl : Word := 0
  lanes : BitVec 2 := 0
  helloSent : Bool := false
  hello : Option Hello := none
  handshake : Bool := false
  major : Nat := 0
  minor : Nat := 0
  refusal : Nat := 0
  partnerRestarting : Bool := false
  txSeq : Word := 1
  rxSeq : Word := 0
  unacked : List LinkSent := []
  /-- Frames waiting to be sent by the command under way: class, body, resend. -/
  waiting : List (Nat × List Byte) := []
  /-- Bodies of frames with MORE set, by class, until the last arrives (R375). -/
  parts : Tab (List Byte) := []
  /-- Frames put on the link by the last command. -/
  sent : List (List Byte) := []
  nextTicket : Word := 1
  issued : List Issued := []
  /-- Command tickets whose requests wait for local work, with their numbers (R380). -/
  working : List (Taken × Word) := []
  tickets : List Ticket := []
  applied : Word := 0
  markers : Tab Marker := []
  markerMiss : Nat := 0
  /-- Consecutive heartbeats missing, by port, and whether one has been seen. -/
  hbMissed : Tab Nat := []
  hbSeen : Bool := false
  hbSeq : Word := 0
  /-- The leader has been found lost; promotion comes at the next boundary. -/
  lost : Bool := false
  sigs : List Sig := []
  sigPartner : List Sig := []
  sigLocalRegs : List Word := []
  sigPartnerRegs : List Word := []
  matched : Nat := 0
  loops : List LoopVal := []
  portBlks : List PortBlk := []
  /-- First boundary after entry to RESYNC (R390). -/
  b0 : Option MT := none
  /-- A follower that has reached SYNCED transmits from this boundary of the heartbeat domain, and the leader stops sending its
  leg from it (R387); none once it is past. -/
  txStart : Option MT := none
  partnerStart : Option MT := none
  /-- While a held command ticket runs, its S_t, which stands for the next selection boundary (R379). -/
  applyAt : Option MT := none
  /-- A swap accepted: its request, earliest boundary, AT_MT. -/
  swap : Option (Taken × MT × Bool) := none
  /-- Tickets issued or received whose apply boundary has not come: number, domain, S_t (R388). -/
  ledger : List (Word × Nat × MT) := []
  retry : Word := 0
  downCnt : Word := 0
  diverge : Word := 0
  resyncs : Word := 0
  resyncTimeouts : Word := 0
  ticketLate : Word := 0
  loopLate : Word := 0
  hbMiss : Word := 0
  lastMt : MT := 0
  lastGroups : Word := 0
  deriving DecidableEq, Repr, Inhabited

/-- The state regions of R27 and R390 as the leader's copy carries them. -/
structure Regions where
  scene : Scene := {}
  chain : ChainAll := {}
  mantle : Mantle := {}
  seam : Seam := {}
  render : Render := {}
  rxFlows : Tab RxFlow := []
  tileMem : List Host.Cell := []
  /-- Configuration in control SRAM that is pair-wide (R377): domains, ports, transmit flows, loaded graphs. -/
  doms : Tab DomCfg := []
  ports : Ports := {}
  txFlows : Tab TxFlow := []
  sched : Sched := {}
  /-- Last ticket applied. -/
  applied : Word := 0
  deriving DecidableEq, Repr, Inhabited

end Sys2Proof.Machine
end

