-- ==== Sys2Proof/Syntax.lean ====
section
/-! DEFINITION. The commands of the OZ1024: one constructor of Instr per row of the opcode table.  An operand carries
what the outside of the device decides: the message, the register value and the interface it came by, the frame or
sample data at a ball, and what hardware measured where the spec gives the measurement no arithmetic. -/

namespace Sys2Proof

/-- Who makes a register access: a host interface (R401), the MSI-X table of BAR2 (R402), the control processor over
the device-internal map (R23). -/
inductive Via where
  | pcie | spi | bar2 | ctrl
  deriving DecidableEq, Repr, Inhabited

/-- Samples since the last boundary and the elapsed fraction of the current sample period (UQ0.16) of D0, D1, D2. -/
abbrev Elapsed := List (Nat × Half)

/-- An edge at a capture input: the length in nanoseconds of the pulse that it belongs to, and where the domains stand (R72). -/
structure EdgeIn where
  width : Nat
  now : Elapsed := []
  deriving DecidableEq, Repr, Inhabited

/-- A SPI transaction (R403): the command byte, the two address bytes, the bytes written, the words read before
SPI_CS_N rises. -/
structure SpiIn where
  cmd : Byte
  addr : Half
  data : List Byte := []
  words : Nat := 0
  deriving DecidableEq, Repr, Inhabited

/-- The straps of R484. -/
structure Straps where
  bootSrc : Bool := false
  factoryEn : Bool := false
  i2cAddr : BitVec 2 := 0
  deriving DecidableEq, Repr, Inhabited

/-- An end count latched at a boundary (R217): kind 0 domain, 1 AES3 receiver, 2 TDM receive, 3 HB2 outputs of a
microphone; sample count and fraction. -/
structure EndCount where
  kind : Nat
  index : Nat
  count : MT
  frac : Half
  deriving DecidableEq, Repr, Inhabited

/-- What hardware measured at a boundary of a domain: its DT, the phase error of the reference in nanoseconds (R63), the
reference's frequency offset, the end counts SEAM latched, and the PDM bits each microphone took since the last boundary of
any domain that carried its bits, oldest first (R230). -/
structure Boundary where
  dt : DT := 0
  phase : Int := 0
  refPpb : Int := 0
  ends : List EndCount := []
  pdm : List (Nat × List Bool) := []
  deriving DecidableEq, Repr, Inhabited

/-- What a self-test run found (R242). -/
structure TestResult where
  passed : Word := 0
  failed : Word := 0
  corrected : Word := 0
  marginMui : Half := 0
  marginMv : Half := 0
  deriving DecidableEq, Repr, Inhabited

/-- One measurement of the sense unit (R256, R257): a rail in mV, a temperature in 1/8 °C, an AES3 cable estimate with
whether its receiver is locked, a SerDes loss estimate with whether its lane is up. -/
inductive Sensed where
  | rail (i : Nat) (mv : Int)
  | temp (i : Nat) (t : Int)
  | cable (i : Nat) (locked : Bool) (m : Nat)
  | loss (lane : Nat) (up : Bool) (v : Nat)
  deriving DecidableEq, Repr, Inhabited

/-- The commands of the opcode table, one constructor per row, in its order. -/
inductive Instr where
  -- Hatre requests (chapter 16 and the chapters of their subjects)
  | hello (r : Req)
  | version (r : Req)
  | caps (r : Req)
  | ping (r : Req)
  | bye (r : Req)
  | modeSet (r : Req)
  | modeGet (r : Req)
  | resetReq (r : Req)
  | telemetryGetCounters (r : Req)
  | telemetryGetBlock (r : Req)
  | logRead (r : Req)
  | outLatencyGet (r : Req)
  | domainCfgSet (r : Req)
  | domainCfgStart (r : Req)
  | domainStop (r : Req)
  | domainCfgRealign (r : Req)
  | domainCfgGet (r : Req)
  | ptpCfg (r : Req)
  | pulseCfg (r : Req)
  | captureCfg (r : Req)
  | layoutBegin (r : Req)
  | layoutSpk (r : Req)
  | layoutCommit (r : Req)
  | objCfg (r : Req)
  | objUpdate (r : Req)
  | objUpdateBatch (r : Req)
  | objQuery (r : Req)
  | routeSet (r : Req)
  | busCfg (r : Req)
  | matrixDirect (r : Req)
  | chainCfgColumn (r : Req)
  | chainCfgBassGroup (r : Req)
  | eqSet (r : Req)
  | delaySet (r : Req)
  | dynCfgSet (r : Req)
  | grRead (r : Req)
  | outGain (r : Req)
  | outMute (r : Req)
  | firLoadMap (r : Req)
  | firLoadData (r : Req)
  | firCommit (r : Req)
  | firStatus (r : Req)
  | haloCfgSet (r : Req)
  | haloCfgOrient (r : Req)
  | haloCfgGet (r : Req)
  | seamCfgSet (r : Req)
  | seamCfgGet (r : Req)
  | micCfgSet (r : Req)
  | micCfgGet (r : Req)
  | toneDetCfgSet (r : Req)
  | toneDetCfgStop (r : Req)
  | toneDetCfgGet (r : Req)
  | calStartMeasure (r : Req)
  | calStartDesign (r : Req)
  | calStartAbort (r : Req)
  | calResult (r : Req)
  | trackCfgSet (r : Req)
  | trackCfgGet (r : Req)
  | trackCfgRead (r : Req)
  | trackProposalList (r : Req)
  | trackProposalRead (r : Req)
  | trackProposalDiscard (r : Req)
  | portCfgSet (r : Req)
  | portCfgGet (r : Req)
  | portCfgSource (r : Req)
  | csRead (r : Req)
  | csWrite (r : Req)
  | slotMask (r : Req)
  | alignGroupSet (r : Req)
  | alignGroupGet (r : Req)
  | alignGroupDissolve (r : Req)
  | netPortCfgSet (r : Req)
  | netPortCfgGet (r : Req)
  | netPortCfgFilter (r : Req)
  | flowRxCfgSet (r : Req)
  | flowRxCfgLeg (r : Req)
  | flowTxCfgSet (r : Req)
  | flowTxCfgLeg (r : Req)
  | flowTxCfgSource (r : Req)
  | flowState (r : Req)
  | gateListSet (r : Req)
  | gateListClear (r : Req)
  | twinCfgSet (r : Req)
  | twinCfgGet (r : Req)
  | twinState (r : Req)
  | twinSwap (r : Req)
  | graphLoad (r : Req)
  | graphStart (r : Req)
  | graphStop (r : Req)
  | taskCancel (r : Req)
  | fwUpdateBegin (r : Req)
  | fwChunk (r : Req)
  | fwCommit (r : Req)
  | fwSlotInfo (r : Req)
  | selftestRun (r : Req)
  -- firmware and host register accesses (chapters 15, 16)
  | hatreCellTake (ch : Fin 8)
  | messageChainTimeout (ch : Fin 8)
  | outboundCellPlace (ch : Fin 8)
  | inPost (via : Via) (ch : Fin 8) (v : Word)
  | outPop (via : Via) (ch : Fin 8) (v : Word)
  | senderReset (via : Via) (ch : Fin 8) (v : Word)
  | mbxIrqWrite (via : Via) (ch : Fin 8) (v : Word)
  | warmReset (via : Via) (v : Word)
  | ctrlRestart (via : Via) (v : Word)
  | hifIrqStatusWrite (via : Via) (v : Word)
  | hifFaultWrite (via : Via) (v : Word)
  | msiXUnmask (vector : Fin 16)
  | dblH2dSet (via : Via) (v : Word)
  | dblD2hWrite (via : Via) (v : Word)
  | timeSnapshot (via : Via) (now : Elapsed)
  | timeIrqWrite (via : Via) (v : Word)
  | capW3Read (via : Via) (i : Fin 4)
  | senseButtonRead (via : Via)
  | grHoldRead (column : Nat)
  | compLoRead
  | descDataAccess (write : Option Word)
  | netStatusRead (via : Via) (port : Fin 4)
  | halfRxRead (via : Via) (port : Fin 4)
  | halfTxRead (via : Via) (port : Fin 4)
  | ringTailWrite (via : Via) (ring : Fin 8) (v : Word)
  | ringCtrlWrite (via : Via) (ring : Fin 8) (v : Word)
  | tdmMaskArm (port : Fin 8) (v : Word)
  | dmaCmdStart (via : Via) (ch : Fin 32)
  | dmaCmdAbort (via : Via) (ch : Fin 32)
  | dmaCmdPause (via : Via) (ch : Fin 32)
  | dmaCmdResume (via : Via) (ch : Fin 32)
  | dmaIrqWrite (via : Via) (ch : Fin 32) (v : Word)
  | cqTailWrite (via : Via) (ch : Fin 32) (v : Word)
  | registerWrite (via : Via) (addr : Word) (v : Word) (be : BitVec 4)
  | spiTransaction (t : SpiIn)
  | i2cRead (off : Half) (n : Nat)
  | pcieReset
  | perstN
  | controlProcessorFault (cause : Nat)
  | watchdog
  | ctrlRestartComplete
  | vddAonRise (straps : Straps)
  | vddAonLoss
  | resetNAssert
  | resetNRelease (straps : Straps)
  | refclkStop
  | refclkRestored
  | bootStepFail (reason : Byte)
  | bootStartSuccess
  | hostImageLoad (image : List Byte)
  | hostBootTimeout
  | wake (pin dbl : Bool)
  | modeTransitionComplete (timedOut : Bool)
  | powerDomainSwitch (pd : Fin 16)
  | domainBoundary (d : Fin 3) (m : Boundary)
  | domainLock (d : Fin 3) (dt : DT)
  | acquireTimeout (d : Fin 3)
  | holdoverExpired (d : Fin 3)
  | slewingClear (d : Fin 3)
  | closingStateClear (d : Fin 3)
  | realignComplete (d : Fin 3)
  | windowDeadline (d : Fin 3) (window : Fin 8) (missed : List Nat)
  | blockPublish (d : Fin 3)
  | columnRampIn (column : Nat)
  | matrixGroupComplete (d : Fin 3) (group : Fin 20)
  | taskDispatch (tile : Fin 8)
  | storeErrorResponse (core : Fin 64) (addr storePc : Word)
  -- core instructions (chapter 10)
  | vadd (core : Fin 64) (i : Issue)
  | vsub (core : Fin 64) (i : Issue)
  | vmin (core : Fin 64) (i : Issue)
  | vmax (core : Fin 64) (i : Issue)
  | vabs (core : Fin 64) (i : Issue)
  | vneg (core : Fin 64) (i : Issue)
  | vand (core : Fin 64) (i : Issue)
  | vor (core : Fin 64) (i : Issue)
  | vxor (core : Fin 64) (i : Issue)
  | vshl (core : Fin 64) (i : Issue)
  | vasr (core : Fin 64) (i : Issue)
  | vrsr (core : Fin 64) (i : Issue)
  | vlsr (core : Fin 64) (i : Issue)
  | vmov (core : Fin 64) (i : Issue)
  | valign (core : Fin 64) (i : Issue)
  | vcmplt (core : Fin 64) (i : Issue)
  | vsel (core : Fin 64) (i : Issue)
  | amul (core : Fin 64) (i : Issue)
  | amac (core : Fin 64) (i : Issue)
  | amsu (core : Fin 64) (i : Issue)
  | aadd (core : Fin 64) (i : Issue)
  | aclr (core : Fin 64) (i : Issue)
  | ald (core : Fin 64) (i : Issue)
  | asum (core : Fin 64) (i : Issue)
  | amov (core : Fin 64) (i : Issue)
  | ext (core : Fin 64) (i : Issue)
  | add (core : Fin 64) (i : Issue)
  | sub (core : Fin 64) (i : Issue)
  | and (core : Fin 64) (i : Issue)
  | or (core : Fin 64) (i : Issue)
  | xor (core : Fin 64) (i : Issue)
  | shl (core : Fin 64) (i : Issue)
  | asr (core : Fin 64) (i : Issue)
  | lsr (core : Fin 64) (i : Issue)
  | mul (core : Fin 64) (i : Issue)
  | slt (core : Fin 64) (i : Issue)
  | sltu (core : Fin 64) (i : Issue)
  | jr (core : Fin 64) (i : Issue)
  | callr (core : Fin 64) (i : Issue)
  | addi (core : Fin 64) (i : Issue)
  | movi (core : Fin 64) (i : Issue)
  | movhi (core : Fin 64) (i : Issue)
  | mtp (core : Fin 64) (i : Issue)
  | mfp (core : Fin 64) (i : Issue)
  | mtn (core : Fin 64) (i : Issue)
  | mfn (core : Fin 64) (i : Issue)
  | mtl (core : Fin 64) (i : Issue)
  | mfl (core : Fin 64) (i : Issue)
  | vins (core : Fin 64) (i : Issue)
  | vext (core : Fin 64) (i : Issue)
  | vbc (core : Fin 64) (i : Issue)
  | mts (core : Fin 64) (i : Issue)
  | mfs (core : Fin 64) (i : Issue)
  | br (core : Fin 64) (i : Issue)
  | call (core : Fin 64) (i : Issue)
  | rep (core : Fin 64) (i : Issue)
  | ldv (core : Fin 64) (i : Issue)
  | stv (core : Fin 64) (i : Issue)
  | lds (core : Fin 64) (i : Issue)
  | sts (core : Fin 64) (i : Issue)
  | ldb (core : Fin 64) (i : Issue)
  | nop (core : Fin 64) (i : Issue)
  | tfetch (core : Fin 64) (i : Issue)
  | tdone (core : Fin 64) (i : Issue)
  | sync (core : Fin 64) (i : Issue)
  | trap (core : Fin 64) (i : Issue)
  -- DMA instructions and bus matrix (chapter 17)
  | move (ch : Fin 32) (i : DmaIssue)
  | loop (ch : Fin 32) (i : DmaIssue)
  | wait (ch : Fin 32) (i : DmaIssue)
  | signal (ch : Fin 32) (i : DmaIssue)
  | stop (ch : Fin 32) (i : DmaIssue)
  | dmaBurst (ch : Fin 32) (b : BurstIn)
  | waitConditionMet (ch : Fin 32)
  | waitTimeout (ch : Fin 32)
  | matrixGrant (idle : Bool) (accesses : List MatrixReq)
  -- completions and events of the engines, ports, network and link
  | layoutCompileComplete
  | firLoadComplete
  | graphLoadComplete (slot : Fin 2)
  | bulkFetchComplete (ch : Fin 8) (data : List Byte) (err : Bool)
  | bulkFetchTimeout (ch : Fin 8)
  | selftestComplete (res : TestResult)
  | busUnbindRampEnd (column : Nat)
  | oldLayoutUnbind
  | objectDisableRelease (object : Nat)
  | ptpMessageRx (port : Fin 4) (m : PtpRx)
  | announceReceiptTimeout (port : Fin 4)
  | ptpMessageTx (port : Fin 4) (kind : Fin 3)
  | pulseEdge (output : Fin 8)
  | pulseCfgTakeEffect (output : Fin 8)
  | captureEdge (input : Fin 4) (falling : Bool) (e : EdgeIn)
  | wordClockAbsent (input : Fin 3)
  | wordClockPresent (input : Fin 3)
  | netFrameRx (port : Fin 4) (f : RxFrame)
  | evCounterHalf (port : Fin 4)
  | legDown (flow : Fin 256) (leg : Fin 2)
  | txPacketQueue (flow : Fin 256) (first : MT)
  | txMediaDrop (port : Fin 4) (flow : Fin 256)
  | hostFrameStart (ring : Fin 4) (descs : List TxDesc) (underrun : Bool)
  | txFrameComplete (port : Fin 4) (queue : Fin 8) (dt : DT)
  | gateChangeTime (port : Fin 4)
  | gateIntervalEdge (port : Fin 4)
  | linkUp (port : Fin 4)
  | linkDown (port : Fin 4) (remoteFault : Bool)
  | arpResolveTimeout (port : Fin 4) (addr : List Byte)
  | arpRefresh (port : Fin 4) (addr : List Byte)
  | membershipReport (port : Fin 4) (group : List Byte)
  | aes3FrameRx (i : Fin 16) (f : AesFrame)
  | aes3RxLock (i : Fin 16)
  | aes3RxClockFault (i : Fin 16)
  | aes3RxAbsent (i : Fin 16)
  | tdmFrame (n : Fin 8) (f : TdmIn)
  | tdmClockLock (n : Fin 8)
  | tdmStartComplete (n : Fin 8)
  | tdmStopComplete (n : Fin 8)
  | tdmNoClock (n : Fin 8)
  | portClockRecovered (kind index : Nat)
  | slipRampIn (kind index : Nat)
  | mappingLost (kind index : Nat)
  | micStartComplete (mic : Fin 8)
  | micLock (mic : Fin 8)
  | micStuck (mic : Fin 8)
  | detectorWindowEnd (det : Fin 8)
  | bridgeAcquireLock (bridge : Fin 256)
  | bridgeAcquireTimeout (bridge : Fin 256)
  | bridgeRange (bridge : Fin 256)
  | bridgeRangeExpiry (bridge : Fin 256)
  | bridgeEndsRendering (bridge : Fin 256)
  | senseUpdate (ms : List Sensed)
  | railFaultTimeout
  | jackInsertion (inserted : Bool)
  | accessoryJudged (tip sleeve : Nat)
  | buttonPress (ohms : Nat) (pressed : Bool)
  | buttonLong
  | trackWindowEnd (d : Fin 3) (b : MT)
  | proposalPost (speaker : Nat)
  | linkFrameRx (bytes : List Byte) (crc : Word)
  | linkFrameResend (seq : Word)
  | linkAckFrame
  | linkHello
  | laneLockChange (lane : Fin 2) (locked : Bool)
  | markerMissing (marker : Bool) (heartbeats : BitVec 4)
  | promotion
  | resyncCopyComplete (copy : Machine.Regions)
  | verifyComplete
  | resyncTimeout
  | linkingTimeout
  | twinSwapTakeEffect
  | micAcquireTimeout (mic : Fin 8)
  | tdmClockFault (n : Fin 8)
  | aes3RxLocking (i : Fin 16)
  | aes3FrameTx (i : Fin 16)
  | deferredResetBegin
  | slotEraseComplete
  | hostTimeout (ch : Fin 32)
  | delayReqTx (port : Fin 4)
  | signatureMissing
  deriving DecidableEq, Repr

end Sys2Proof
end

