-- ==== Sys2Proof/Decode.lean ====
section
/-! DEFINITION. The command a table word spells.  The OZ1024 is a block: the opcode table gives no row bits, so no word
spells a command. -/

namespace Sys2Proof

/-- The command of an opcode-table word: no row of the table has bits. -/
def decodeTableWord (_nbits _w : Nat) : Option Instr := none

end Sys2Proof
end

