-- ==== Sys2Proof/Config.lean ====
section
/-! DEFINITION. What the device fixes for itself, and the values the spec leaves open.  A constant without a body is a
free value: nothing in Lean evaluates it, and a statement about it holds whatever it is. -/

namespace Sys2Proof.Config

/-- DESIGN CHOICE (log entry 1): the modelled device is an OZ1024-AF.  false selects the OZ1024-AH of R1. -/
def gradeAF : Bool := true

/-- R519: the 64-bit factory identifier of the device. -/
opaque deviceId : DWord
/-- R519: HIF_REV.SILICON. -/
opaque silicon : Byte
/-- R519: the factory MAC address of network port p, 6 bytes in network order. -/
opaque factoryMac : Nat → BitVec 48
/-- R376, R519: the render revision of a firmware build on this silicon. -/
opaque renderRev : Half → Half
/-- R228: the prototype table T of SEAM, whose values the spec does not list. -/
opaque seamProto : Nat → BitVec 32
/-- R489: whether the trailer's signature over the bytes before it verifies (ECDSA P-384 with SHA-384). -/
opaque signatureOk : List Byte → Bool
/-- R489: SHA-384 of a public key. -/
opaque sha384 : List Byte → List Byte
/-- R489: whether the AES-256-GCM tag verifies under the image key, and the plaintext. -/
opaque gcmOpen : List Byte → List Byte → Option (List Byte)
/-- R48: the servo's increment for an offset in nanoseconds and the increment in force; the model bounds it to
±500 ppm. -/
opaque servo : Int → Nat → Nat
/-- The n-th free value the machine took: a value the spec leaves undefined (log entry 3). -/
opaque freeValue : Nat → DWord
/-- A gain product outside UQ4.28, for which the spec states no result (R122, R134). -/
opaque gainOverflow : Nat → BitVec 32

/-- R251: the level in centi-dB of octave band i that no bin of a transform lies in, from the powers of the transform's bins. -/
opaque bandOpen : Nat → List (BitVec 32) → Int
/-- R251: weight i of the 1,024 points of a tracking transform; the spec names no window. -/
opaque trackWeight : Nat → BitVec 32
/-- R253: delay_change of a speaker from its pairs' transfer functions, each with the reference onset; the spec does not state how an
onset is taken from H_sm, nor how several microphones combine. -/
opaque delayChange : List (List (BitVec 32 × BitVec 32) × Nat) → Int
/-- R248: log2 of the transform length of a design, where it is more than the filter and the responses ask for; the spec gives no
length. -/
opaque designLog : Nat → Nat

/-- R196: the output sample of a sum that is no number. -/
opaque nanSample : BitVec 32 → BitVec 32

/-- R281: the bytes of the tile boot ROM, which the spec does not list. -/
opaque bootRom : Nat → BitVec 8

/-- R43: the cycles that the base image declares for a domain, by window and tile; the spec doesn't list them (log entry 16). -/
opaque baseBudget : Nat → List Nat
/-- R303: which of a domain's built-in instances (numbered as the base image's, log entry 15) a task with a built-in op_id and an args word
is, and how many input edges it takes; the spec gives the built-in operators no numbers (log entry 14). -/
opaque builtinWork : Nat → BitVec 32 → Nat
opaque builtinIns : Nat → BitVec 32 → Nat

/-- R291: where the loader puts the edge-index list of a task, by tile and offset in EDGES; the spec gives no place. -/
opaque edgeListAt : Nat → Nat → BitVec 32

/-- The sample of a source (kind by R331, index, channel) at a count where the device has not stored one when it is read. -/
opaque unread : Nat → Nat → Nat → BitVec 32 → BitVec 32
/-- What a register block of R23 whose registers the spec doesn't list reads as, at an address and a DT (log entry 100). -/
opaque unlistedReg : Nat → BitVec 64 → BitVec 32
/-- Byte i of a reply with an opcode, where the reply's layout has the field and the spec states no value for it with the
status the reply carries (R426). -/
opaque replyOpen : BitVec 16 → Nat → BitVec 8

end Sys2Proof.Config
end

