-- ==== Sys2Proof/Machine/Tab.lean ====
section
/-! DEFINITION. Reads and writes of banks (Tab) and lists, and the canonical byte memory. -/

namespace Sys2Proof.Machine

/-- Entry i of a bank: the listed record, or the reset record. -/
def tabGet {α : Type} [Inhabited α] : Tab α → Nat → α
  | [], _ => default
  | (k, v) :: t, i => if k = i then v else tabGet t i

/-- Bank with entry i replaced; numbers stay rising. -/
def tabSet {α : Type} : Tab α → Nat → α → Tab α
  | [], i, a => [(i, a)]
  | (k, v) :: t, i, a =>
    if i < k then (i, a) :: (k, v) :: t
    else if k = i then (i, a) :: t
    else (k, v) :: tabSet t i a

/-- Entry i changed by f. -/
def tabMod {α : Type} [Inhabited α] (t : Tab α) (i : Nat) (f : α → α) : Tab α :=
  tabSet t i (f (tabGet t i))

/-- Every entry below n changed by f, which also sees the number. -/
def tabModAll {α : Type} [Inhabited α] (t : Tab α) : Nat → (Nat → α → α) → Tab α
  | 0, _ => t
  | n + 1, f => tabModAll (tabMod t n (f n)) n f

/-- Entries f chooses are changed; the rest stay unlisted where they were. -/
def tabMap {α : Type} (t : Tab α) (f : Nat → α → α) : Tab α :=
  t.map (fun kv => (kv.1, f kv.1 kv.2))

/-- Numbers of the listed entries whose record satisfies p. -/
def tabFind {α : Type} (t : Tab α) (p : α → Bool) : List Nat :=
  (t.filter (fun kv => p kv.2)).map Prod.fst

/-- Element i of a list changed by f; out of range changes nothing. -/
def listMod {α : Type} : List α → Nat → (α → α) → List α
  | [], _, _ => []
  | a :: t, 0, f => f a :: t
  | a :: t, i + 1, f => a :: listMod t i f

/-- What a byte no cell lists reads as: RAM is zeroed at boot (R486) and at power-up of its domain (R499). -/
def memDefault : Byte := 0

/-- One byte of memory. -/
def memRead : List Host.Cell → Nat → Byte
  | [], _ => memDefault
  | (k, v) :: t, a => if k = a then v else memRead t a

/-- Memory with one byte written.  The list stays strictly rising and lists no byte equal to memDefault. -/
def memWrite : List Host.Cell → Nat → Byte → List Host.Cell
  | [], a, b => if b = memDefault then [] else [(a, b)]
  | (k, v) :: t, a, b =>
    if a < k then (if b = memDefault then (k, v) :: t else (a, b) :: (k, v) :: t)
    else if k = a then (if b = memDefault then t else (a, b) :: t)
    else (k, v) :: memWrite t a b

/-- Memory with the cells whose address satisfies p removed: those bytes read memDefault again. -/
def memClear (m : List Host.Cell) (p : Nat → Bool) : List Host.Cell :=
  m.filter (fun c => !p c.1)

/-- Bytes written at a, a + 1, … -/
def memWriteBytes (m : List Host.Cell) (a : Nat) : List Byte → List Host.Cell
  | [] => m
  | b :: bs => memWriteBytes (memWrite m a b) (a + 1) bs

/-- n bytes read from a on. -/
def memReadBytes (m : List Host.Cell) (a : Nat) : Nat → List Byte
  | 0 => []
  | n + 1 => memRead m a :: memReadBytes m (a + 1) n

/-- The canonical form: addresses strictly rising above lo, no cell equal to what an unlisted byte reads as. -/
def memWfFrom (lo : Nat) : List Host.Cell → Bool
  | [] => true
  | (k, v) :: t => (decide (lo ≤ k)) && (v != memDefault) && memWfFrom (k + 1) t

/-- Canonical memory. -/
def memWf (m : List Host.Cell) : Bool := memWfFrom 0 m

end Sys2Proof.Machine
end

