-- ==== Sys2Proof/Machine/Bytes.lean ====
section
/-! DEFINITION. Little-endian fields of messages, cells, images and DMA regions (Numeric conventions of
00_scope.md), network-order addresses (R338), and the CRC-32C of R440. -/

namespace Sys2Proof.Machine

/-- n bytes of v, least significant first. -/
def leBytes : Nat → Nat → List Byte
  | 0, _ => []
  | n + 1, v => BitVec.ofNat 8 v :: leBytes n (v / 256)

/-- Value of bytes, least significant first. -/
def leNat : List Byte → Nat
  | [] => 0
  | b :: bs => b.toNat + 256 * leNat bs

/-- Value of bytes, most significant first. -/
def beNat (bs : List Byte) : Nat := leNat bs.reverse

/-- n bytes of v, most significant first. -/
def beBytes (n v : Nat) : List Byte := (leBytes n v).reverse

/-- n bytes from offset o, padded with zeros past the end. -/
def slice (bs : List Byte) (o n : Nat) : List Byte :=
  let s := (bs.drop o).take n
  s ++ List.replicate (n - s.length) 0

/-- Unsigned byte at o. -/
def u8 (bs : List Byte) (o : Nat) : Nat := (bs.getD o 0).toNat
/-- Unsigned 16-bit field at o. -/
def u16 (bs : List Byte) (o : Nat) : Nat := leNat (slice bs o 2)
/-- Unsigned 32-bit field at o. -/
def u32 (bs : List Byte) (o : Nat) : Nat := leNat (slice bs o 4)
/-- Unsigned 64-bit field at o. -/
def u64 (bs : List Byte) (o : Nat) : Nat := leNat (slice bs o 8)

/-- The two's-complement value of an n-bit number. -/
def sext (n v : Nat) : Int := if v % 2 ^ n < 2 ^ (n - 1) then ((v % 2 ^ n : Nat) : Int) else ((v % 2 ^ n : Nat) : Int) - 2 ^ n

/-- Signed byte at o. -/
def i8 (bs : List Byte) (o : Nat) : Int := sext 8 (u8 bs o)
/-- Signed 16-bit field at o. -/
def i16 (bs : List Byte) (o : Nat) : Int := sext 16 (u16 bs o)
/-- Signed 32-bit field at o. -/
def i32 (bs : List Byte) (o : Nat) : Int := sext 32 (u32 bs o)
/-- Signed 64-bit field at o. -/
def i64 (bs : List Byte) (o : Nat) : Int := sext 64 (u64 bs o)

/-- 1-, 2-, 4- and 8-byte little-endian fields of an integer, modulo the field's width. -/
def p8 (v : Nat) : List Byte := leBytes 1 v
def p16 (v : Nat) : List Byte := leBytes 2 v
def p32 (v : Nat) : List Byte := leBytes 4 v
def p64 (v : Nat) : List Byte := leBytes 8 v
/-- The residue of an integer in n bits. -/
def wrapNat (n : Nat) (v : Int) : Nat := (v.emod ((2 : Int) ^ n)).toNat
def s16 (v : Int) : List Byte := leBytes 2 (wrapNat 16 v)
def s32 (v : Int) : List Byte := leBytes 4 (wrapNat 32 v)
def s64 (v : Int) : List Byte := leBytes 8 (wrapNat 64 v)
/-- n reserved bytes of a reply. -/
def zeros (n : Nat) : List Byte := List.replicate n 0

/-- Every byte from o, n of them, is 0: the reserved-byte check of R20. -/
def isZero (bs : List Byte) (o n : Nat) : Bool := (slice bs o n).all (· == 0)

/-- Bit i of a number. -/
def bit (v i : Nat) : Bool := v.testBit i
/-- 1 or 0. -/
def b2n (b : Bool) : Nat := if b then 1 else 0
/-- Bits hi down to lo of a number. -/
def bits (v hi lo : Nat) : Nat := (v / 2 ^ lo) % 2 ^ (hi - lo + 1)

/-- The signed difference a − b of two media times (R13). -/
def mtDiff (a b : MT) : Int := (a - b).toInt
/-- a is later than b (R13). -/
def mtLater (a b : MT) : Bool := decide (0 < mtDiff a b)
/-- a is b or later than b (R13). -/
def mtGe (a b : MT) : Bool := decide (0 ≤ mtDiff a b)

/-- One bit of the reflected CRC-32C of R440. -/
def crcBit (c : BitVec 32) : BitVec 32 :=
  if c.getLsbD 0 then (c >>> 1) ^^^ 0x82F63B78#32 else c >>> 1

/-- One byte of the CRC-32C. -/
def crcByte (c : BitVec 32) (b : Byte) : BitVec 32 :=
  let c := c ^^^ b.setWidth 32
  crcBit (crcBit (crcBit (crcBit (crcBit (crcBit (crcBit (crcBit c)))))))

/-- CRC-32C of R440: reflected, initial value and final XOR 0xFFFF_FFFF. -/
def crc32c (bs : List Byte) : BitVec 32 := (bs.foldl crcByte 0xFFFFFFFF#32) ^^^ 0xFFFFFFFF#32

end Sys2Proof.Machine
end

