-- ==== Sys2Proof/Machine/Num.lean ====
section
/-! DEFINITION. Exact fractions, rounding, saturation, and the correctly rounded elementary functions the spec's
formulas name.  An elementary function is evaluated to 2^-230 in fixed point before it is rounded (log entry 4). -/

namespace Sys2Proof.Machine

/-- A fraction num / den; den is kept positive by every operation below. -/
structure Q where
  num : Int
  den : Nat
  deriving DecidableEq, Repr

def qOfInt (n : Int) : Q := ⟨n, 1⟩
def qFrac (n : Int) (d : Nat) : Q := if d = 0 then ⟨0, 1⟩ else ⟨n, d⟩
/-- Lowest terms, so that long sums stay small. -/
def qNorm (a : Q) : Q :=
  let g := Nat.gcd a.num.natAbs a.den
  if g ≤ 1 then a else ⟨a.num / (g : Int), a.den / g⟩
def qAdd (a b : Q) : Q := if a.den = b.den then ⟨a.num + b.num, a.den⟩ else ⟨a.num * b.den + b.num * a.den, a.den * b.den⟩
def qNeg (a : Q) : Q := ⟨-a.num, a.den⟩
def qSub (a b : Q) : Q := qAdd a (qNeg b)
def qMul (a b : Q) : Q := ⟨a.num * b.num, a.den * b.den⟩
def qInv (a : Q) : Q := if a.num < 0 then ⟨-(a.den : Int), a.num.natAbs⟩ else if a.num = 0 then ⟨0, 1⟩ else ⟨a.den, a.num.natAbs⟩
def qDiv (a b : Q) : Q := qMul a (qInv b)
def qLt (a b : Q) : Bool := decide (a.num * b.den < b.num * a.den)
def qLe (a b : Q) : Bool := decide (a.num * b.den ≤ b.num * a.den)
def qEq (a b : Q) : Bool := decide (a.num * b.den = b.num * a.den)
def qMax (a b : Q) : Q := if qLt a b then b else a
def qMin (a b : Q) : Q := if qLt b a then b else a
def qAbs (a : Q) : Q := ⟨(a.num.natAbs : Int), a.den⟩
def qSum (l : List Q) : Q := l.foldl (fun a b => qNorm (qAdd a b)) ⟨0, 1⟩
def qFloor (a : Q) : Int := a.num / (a.den : Int)
def qCeil (a : Q) : Int := -((-a.num) / (a.den : Int))

/-- n / d rounded to the nearest integer, halves to even. -/
def rne (n : Int) (d : Nat) : Int :=
  let q := n / (d : Int)
  let r := n % (d : Int)
  if 2 * r < d then q else if 2 * r > d then q + 1 else if q % 2 = 0 then q else q + 1

/-- A fraction rounded to the nearest integer, halves to even. -/
def qRne (a : Q) : Int := rne a.num a.den

/-- v / 2^k rounded to the nearest integer, halves to even. -/
def shrRne (v : Int) (k : Nat) : Int := rne v (2 ^ k)

/-- v held within lo … hi. -/
def clampI (lo hi v : Int) : Int := if v < lo then lo else if hi < v then hi else v
/-- v held within lo … hi. -/
def clampN (lo hi v : Nat) : Nat := if v < lo then lo else if hi < v then hi else v

/-- Largest Q1.31 code. -/
def q31Max : Int := 2147483647
/-- Smallest Q1.31 code. -/
def q31Min : Int := -2147483648
/-- Saturation to Q1.31. -/
def sat31 (v : Int) : Int := clampI q31Min q31Max v
/-- Whether saturation to Q1.31 changes v. -/
def clips31 (v : Int) : Bool := decide (v < q31Min) || decide (q31Max < v)

/-! Fixed point at 2^-fxP. -/

def fxP : Nat := 256
def fxOne : Int := 2 ^ fxP
def fxOfQ (a : Q) : Int := (a.num * fxOne) / (a.den : Int)
def fxToQ (v : Int) : Q := ⟨v, 2 ^ fxP⟩
def fxMul (a b : Int) : Int := (a * b) / fxOne
def fxDiv (a b : Int) : Int := if b = 0 then 0 else (a * fxOne).tdiv b
def fxSqrt (a : Int) : Int := (Nat.sqrt (a.toNat * 2 ^ fxP) : Int)

/-- Σ t_k with t_0 = t and t_{k+1} = step k t_k, n terms. -/
def fxSeries (step : Nat → Int → Int) : Nat → Nat → Int → Int → Int
  | 0, _, _, acc => acc
  | n + 1, k, t, acc => fxSeries step n (k + 1) (step k t) (acc + t)

/-- atan(1/m) by its series, m ≥ 2. -/
def fxAtanInv (m : Nat) : Int :=
  (List.range 130).foldl
    (fun acc k =>
      let t := fxOne / ((m : Int) ^ (2 * k + 1) * (2 * k + 1 : Nat))
      if k % 2 = 0 then acc + t else acc - t) 0

/-- π by Machin's formula. -/
def fxPi : Int := 4 * (4 * fxAtanInv 5 - fxAtanInv 239)

/-- ln 2 = 2 atanh(1/3). -/
def fxLn2 : Int :=
  2 * (List.range 90).foldl (fun acc k => acc + fxOne / ((3 : Int) ^ (2 * k + 1) * (2 * k + 1 : Nat))) 0

/-- ln 10 = 3 ln 2 + 2 atanh(1/9). -/
def fxLn10 : Int :=
  3 * fxLn2 + 2 * (List.range 50).foldl (fun acc k => acc + fxOne / ((9 : Int) ^ (2 * k + 1) * (2 * k + 1 : Nat))) 0

/-- e^r for |r| ≤ 1, after halving the argument 16 times. -/
def fxExpSmall (r : Int) : Int :=
  let y := r / 65536
  let e := fxSeries (fun k t => fxMul t y / ((k : Int) + 1)) 24 0 fxOne 0
  (List.range 16).foldl (fun v _ => fxMul v v) e

/-- e^x as m × 2^k with m in fixed point. -/
def fxExp (x : Int) : Int × Int :=
  let k := x / fxLn2
  (fxExpSmall (x - k * fxLn2), k)

/-- m × 2^k as a fraction. -/
def qScale (m k : Int) : Q := if 0 ≤ k then ⟨m * 2 ^ k.toNat, 2 ^ fxP⟩ else ⟨m, 2 ^ (fxP + (-k).toNat)⟩

/-- e^x. -/
def qExp (x : Q) : Q := let e := fxExp (fxOfQ x); qScale e.1 e.2
/-- 10^x. -/
def qPow10 (x : Q) : Q := let e := fxExp (fxMul (fxOfQ x) fxLn10); qScale e.1 e.2
/-- 2^x. -/
def qPow2 (x : Q) : Q :=
  let k := qFloor x
  let e := fxExpSmall (fxMul (fxOfQ (qSub x (qOfInt k))) fxLn2)
  qScale e k

/-- ln m for m in [1, 2): −2 atanh((1−m)/(1+m)), after taking 8 square roots. -/
def fxLnSmall (m : Int) : Int :=
  let s := (List.range 8).foldl (fun v _ => fxSqrt v) m
  let z := fxDiv (s - fxOne) (s + fxOne)
  let z2 := fxMul z z
  let p := (List.range 16).reverse.foldl (fun acc k => fxOne / ((2 * k + 1 : Nat) : Int) + fxMul z2 acc) 0
  fxMul (256 * 2 * p) z

/-- ln x for x > 0; 0 for other x, which no caller passes. -/
def fxLn (x : Q) : Int :=
  if x.num ≤ 0 then 0 else
    let k : Int := (Nat.log2 x.num.toNat : Int) - (Nat.log2 x.den : Int)
    let m := if 0 ≤ k then fxOfQ ⟨x.num, x.den * 2 ^ k.toNat⟩ else fxOfQ ⟨x.num * 2 ^ (-k).toNat, x.den⟩
    fxLnSmall m + k * fxLn2
def qLn (x : Q) : Q := fxToQ (fxLn x)
def qLog2 (x : Q) : Q := qFrac (fxLn x) fxLn2.toNat
def qLog10 (x : Q) : Q := qFrac (fxLn x) fxLn10.toNat

/-- (cos y, sin y) of a fixed-point angle, by halving 12 times and doubling back. -/
def fxCosSinSmall (x : Int) : Int × Int :=
  let y := x / 4096
  let y2 := fxMul y y
  let c := fxSeries (fun k t => -(fxMul t y2 / ((2 * (k : Int) + 1) * (2 * (k : Int) + 2)))) 14 0 fxOne 0
  let s := fxSeries (fun k t => -(fxMul t y2 / ((2 * (k : Int) + 2) * (2 * (k : Int) + 3)))) 14 0 y 0
  (List.range 12).foldl (fun cs _ => (fxMul cs.1 cs.1 - fxMul cs.2 cs.2, 2 * fxMul cs.1 cs.2)) (c, s)

/-- (cos, sin) of an angle in fixed-point radians. -/
def fxCosSin (x : Int) : Int × Int :=
  let q := (2 * x + fxPi / 2) / fxPi
  let r := x - q * fxPi / 2
  let cs := fxCosSinSmall r
  match (q % 4) with
  | 0 => cs
  | 1 => (-cs.2, cs.1)
  | 2 => (-cs.1, -cs.2)
  | _ => (cs.2, -cs.1)

def qCos (x : Q) : Q := fxToQ (fxCosSin (fxOfQ x)).1
def qSin (x : Q) : Q := fxToQ (fxCosSin (fxOfQ x)).2
/-- Radians of an angle given in units of which n make a full turn. -/
def qTurn (v : Q) (n : Nat) : Q := qFrac (2 * fxPi * v.num) (v.den * n * 2 ^ fxP)
def qTan (x : Q) : Q := let cs := fxCosSin (fxOfQ x); if cs.1 = 0 then ⟨0, 1⟩ else qDiv (qOfInt cs.2) (qOfInt cs.1)

/-- atan of a fixed-point value: argument halved 8 times by the half-angle formula. -/
def fxAtan (x : Int) : Int :=
  let y := (List.range 8).foldl (fun v _ => fxDiv v (fxOne + fxSqrt (fxOne + fxMul v v))) x
  let y2 := fxMul y y
  let p := (List.range 20).reverse.foldl
    (fun acc k => (if k % 2 = 0 then 1 else -1) * (fxOne / ((2 * k + 1 : Nat) : Int)) + fxMul y2 acc) 0
  256 * fxMul p y

def qAtan (x : Q) : Q := fxToQ (fxAtan (fxOfQ x))
/-- atan2 of fixed-point arguments; 0 where both are 0. -/
def fxAtan2 (y x : Int) : Int :=
  if x = 0 ∧ y = 0 then 0
  else if y.natAbs ≤ x.natAbs then
    let a := fxAtan (fxDiv y x)
    if 0 < x then a else if 0 ≤ y then a + fxPi else a - fxPi
  else
    let a := fxAtan (fxDiv x y)
    if 0 < y then fxPi / 2 - a else -(fxPi / 2) - a
def qAtan2 (y x : Q) : Q := fxToQ (fxAtan2 (fxOfQ y) (fxOfQ x))
def qSqrt (x : Q) : Q := if x.num ≤ 0 then ⟨0, 1⟩ else fxToQ (fxSqrt (fxOfQ x))
def qAsin (x : Q) : Q :=
  let v := fxOfQ x
  fxToQ (fxAtan2 v (fxSqrt (fxOne - fxMul v v)))
def qAcos (x : Q) : Q :=
  let v := fxOfQ x
  fxToQ (fxAtan2 (fxSqrt (fxOne - fxMul v v)) v)
def qPi : Q := fxToQ fxPi
/-- x^y for x > 0. -/
def qPow (x y : Q) : Q := qExp (qMul y (qLn x))

/-! Binary floating point: p significand bits, exponents up to emax, round to nearest even. -/

/-- Nearest value of the format as its bit pattern (without the width's sign handling for zero: a zero result is +0). -/
def fpRound (p emax : Nat) (a : Q) : Nat :=
  let n := a.num.natAbs
  if n = 0 then 0 else
    let d := a.den
    let e0 : Int := (Nat.log2 n : Int) - (Nat.log2 d : Int)
    let lt := if 0 ≤ e0 then decide (n < d * 2 ^ e0.toNat) else decide (n * 2 ^ (-e0).toNat < d)
    let e := if lt then e0 - 1 else e0
    let emin : Int := 1 - (emax : Int)
    let q := (if e < emin then emin else e) - ((p : Int) - 1)
    let m := if 0 ≤ q then rne n (d * 2 ^ q.toNat) else rne (n * 2 ^ (-q).toNat) d
    let body := if e < emin then m.toNat else ((e + emax).toNat) * 2 ^ (p - 1) + m.toNat - 2 ^ (p - 1)
    let inf := (2 * emax + 1) * 2 ^ (p - 1)
    let body := if inf ≤ body then inf else body
    if a.num < 0 then body + (emax + 1) * 2 ^ p else body

/-- The value of a finite bit pattern. -/
def fpValue (p emax bitsv : Nat) : Q :=
  let sgn := bitsv / ((emax + 1) * 2 ^ p)
  let ex := (bitsv / 2 ^ (p - 1)) % (2 * (emax + 1))
  let fr := bitsv % 2 ^ (p - 1)
  let m : Int := if ex = 0 then fr else (fr + 2 ^ (p - 1) : Nat)
  let e : Int := (if ex = 0 then 1 else (ex : Int)) - emax - (p - 1)
  let m := if sgn % 2 = 1 then -m else m
  if 0 ≤ e then ⟨m * 2 ^ e.toNat, 1⟩ else ⟨m, 2 ^ (-e).toNat⟩

def f32 (a : Q) : F32 := BitVec.ofNat 32 (fpRound 24 127 a)
def f32Val (x : F32) : Q := fpValue 24 127 x.toNat
/-- A binary64 rounding, as the exact value it stands for. -/
def f64 (a : Q) : Q := fpValue 53 1023 (fpRound 53 1023 a)

/-! IEEE 754 binary32 operations with signed zeros, infinities and NaNs (R115, R196).  Every NaN is one pattern. -/

/-- The sign bit. -/
def f32Sign (a : F32) : Bool := a.getLsbD 31
/-- All exponent bits set: an infinity or a NaN. -/
def f32Special (a : F32) : Bool := a &&& 0x7F800000 == 0x7F800000
def f32IsNan (a : F32) : Bool := f32Special a && a &&& 0x7FFFFF != 0
def f32IsZero (a : F32) : Bool := a &&& 0x7FFFFFFF == 0
def f32NaN : F32 := 0x7FC00000
def f32Inf (neg : Bool) : F32 := if neg then 0xFF800000 else 0x7F800000
/-- −a. -/
def f32Neg (a : F32) : F32 := a ^^^ 0x80000000
/-- An exact value rounded; a value of zero carries the sign given. -/
def f32Signed (neg : Bool) (q : Q) : F32 := if q.num = 0 then (if neg then 0x80000000 else 0) else f32 q

def f32Add (a b : F32) : F32 :=
  if f32IsNan a || f32IsNan b then f32NaN
  else if f32Special a then (if f32Special b && f32Sign a != f32Sign b then f32NaN else a)
  else if f32Special b then b
  else f32Signed (f32Sign a && f32Sign b) (qAdd (f32Val a) (f32Val b))
def f32Sub (a b : F32) : F32 := f32Add a (f32Neg b)
def f32Mul (a b : F32) : F32 :=
  let neg := f32Sign a != f32Sign b
  if f32IsNan a || f32IsNan b then f32NaN
  else if f32Special a || f32Special b then (if f32IsZero a || f32IsZero b then f32NaN else f32Inf neg)
  else f32Signed neg (qMul (f32Val a) (f32Val b))
def f32Div (a b : F32) : F32 :=
  let neg := f32Sign a != f32Sign b
  if f32IsNan a || f32IsNan b then f32NaN
  else if f32Special a then (if f32Special b then f32NaN else f32Inf neg)
  else if f32Special b then f32Signed neg ⟨0, 1⟩
  else if f32IsZero b then (if f32IsZero a then f32NaN else f32Inf neg)
  else f32Signed neg (qDiv (f32Val a) (f32Val b))
def f32Sqrt (a : F32) : F32 :=
  if f32IsNan a then f32NaN else if f32IsZero a then a else if f32Sign a then f32NaN else if f32Special a then a else f32 (qSqrt (f32Val a))
def f32Lt (a b : F32) : Bool := !f32IsNan a && !f32IsNan b && qLt (f32Val a) (f32Val b)
/-- An odd function: a zero argument gives the same zero. -/
def f32Odd (f : Q → Q) (a : F32) : F32 := if f32IsNan a then f32NaN else f32Signed (f32Sign a) (f (f32Val a))
def f32OfInt (n : Int) : F32 := f32 (qOfInt n)

/-- Rounded once to binary32 and read back as its value: the spec's r32(·). -/
def r32 (a : Q) : Q := f32Val (f32 a)

end Sys2Proof.Machine
end

