-- ==== Sys2Proof/Machine/Ramp.lean ====
section
/-! DEFINITION. Ramps of R124 and R145, ramp lengths of R86, host gains of R8 and R9. -/

namespace Sys2Proof.Machine

/-- Linear gain 1.0 in UQ4.28. -/
def unity : Int := 268435456

/-- Value of one ramp at landed sample k (R124). -/
def segAt (r : Seg) (k : MT) : Int :=
  if r.n = 0 then r.v1 else
    let d := mtDiff k r.t
    if d < 0 then r.v0
    else if (r.n : Int) - 1 ≤ d then r.v1
    else r.v0 + (d + 1) * (r.v1 - r.v0).tdiv r.n

/-- The ramp that governs sample k: the one in force from its start sample on, those it replaced before it. -/
def segOf (r : Ramp) (k : MT) : Seg :=
  if r.cur.n = 0 ∨ mtGe k r.cur.t = true then r.cur else if r.old.n = 0 ∨ mtGe k r.old.t = true then r.old else r.old2

/-- Value at landed sample k. -/
def rampAt (r : Ramp) (k : MT) : Int := segAt (segOf r k) k

/-- A new ramp to v from sample t over n samples; G₀ is the value applied to sample t − 1. -/
def rampTo (r : Ramp) (v : Int) (t : MT) (n : Nat) : Ramp :=
  { cur := { v0 := rampAt r (t - 1), v1 := v, t := t, n := n }, old := r.cur, old2 := r.old }

/-- A ramp that holds v. -/
def rampHold (v : Int) : Ramp := { cur := { v0 := v, v1 := v } }

/-- A ramp that has reached its end before sample b holds its end value. -/
def rampSettle (r : Ramp) (b : MT) : Ramp :=
  if r.cur.n = 0 then r else if (r.cur.n : Int) ≤ mtDiff b r.cur.t then rampHold r.cur.v1 else r

/-- A ramp set to its end value (R64 step 3). -/
def rampEndNow (r : Ramp) : Ramp := rampHold r.cur.v1

/-- Whether a ramp still moves at sample b or later. -/
def rampRuns (r : Ramp) (b : MT) : Bool := r.cur.n != 0 && decide (mtDiff b r.cur.t < r.cur.n)

/-- Samples of us microseconds at f, halves to even. -/
def usSamples (us f : Nat) : Nat := (rne ((us * f : Nat) : Int) 1000000).toNat

/-- Ramp length of R86: at least 16. -/
def rampLen (us f : Nat) : Nat := max 16 (usSamples us f)

/-- Host gain clamp of R8. -/
def clampCdb (c : Int) : Int := clampI (-14400) 2400 c
/-- Whether R8 clamps c, which GAIN_CLAMP counts. -/
def cdbClamps (c : Int) : Bool := decide (c < -14400) || decide (2400 < c)

/-- Linear gain of a centi-dB value (R9). -/
def cdbGain (c : Int) : Int :=
  if c ≤ -14400 then 0 else qRne (qMul (qOfInt unity) (qPow10 ⟨c, 2000⟩))

/-- round(a × b / 2^28), halves to even; a product outside UQ4.28 has no stated result (log entry 5). -/
def gainMul (a b : Int) : Int :=
  let p := shrRne (a * b) 28
  if p < 4294967296 then p else ((Config.gainOverflow p.toNat).toNat : Int)

/-- g × G rounded with halves to even for a binary32 g. -/
def gainScale (g : F32) (G : Int) : Int := qRne (qMul (f32Val g) (qOfInt G))

end Sys2Proof.Machine
end

