-- ==== Sys2Proof/Machine/Pan.lean ====
section
/-! DEFINITION. The layout compiler of R112–R113 and the coefficient unit of R115–R122, in binary32. -/

namespace Sys2Proof.Machine

/-- binary32 constants. -/
def fZero : F32 := 0
def fOneF : F32 := f32 ⟨1, 1⟩
def fPi : F32 := f32 qPi
def kDeg : F32 := f32 (qDiv (qOfInt 180) qPi)
def kRad : F32 := f32 (qDiv qPi (qOfInt 180))

def f32Sin (a : F32) : F32 := f32Odd qSin a
def f32Cos (a : F32) : F32 := if f32IsNan a then f32NaN else f32 (qCos (f32Val a))
def f32Atan (a : F32) : F32 := if f32Special a && !f32IsNan a then f32Signed false (qMul (qOfInt (if f32Sign a then -1 else 1)) (qDiv qPi (qOfInt 2))) else f32Odd qAtan a
/-- atan2 of IEEE 754: a zero first argument gives its own zero, or ±π where the second has the sign bit. -/
def f32Atan2 (a b : F32) : F32 :=
  if f32IsNan a || f32IsNan b then f32NaN
  else if f32IsZero a then (if f32Sign b then f32 (qMul (qOfInt (if f32Sign a then -1 else 1)) qPi) else a)
  else f32 (qAtan2 (f32Val a) (f32Val b))
def f32Asin (a : F32) : F32 := f32Odd qAsin a
def f32Max (a b : F32) : F32 := if f32Lt a b then b else a
def f32Min (a b : F32) : F32 := if f32Lt b a then b else a

def v3Dot (a b : V3) : F32 := f32Add (f32Add (f32Mul a.x b.x) (f32Mul a.y b.y)) (f32Mul a.z b.z)
def v3Cross (a b : V3) : V3 :=
  ⟨f32Sub (f32Mul a.y b.z) (f32Mul a.z b.y), f32Sub (f32Mul a.z b.x) (f32Mul a.x b.z),
   f32Sub (f32Mul a.x b.y) (f32Mul a.y b.x)⟩
def v3Norm (a : V3) : F32 := f32Sqrt (f32Add (f32Add (f32Mul a.x a.x) (f32Mul a.y a.y)) (f32Mul a.z a.z))
def v3Div (a : V3) (d : F32) : V3 := ⟨f32Div a.x d, f32Div a.y d, f32Div a.z d⟩
def v3Sub (a b : V3) : V3 := ⟨f32Sub a.x b.x, f32Sub a.y b.y, f32Sub a.z b.z⟩
def v3Scale (a : V3) (s : F32) : V3 := ⟨f32Mul a.x s, f32Mul a.y s, f32Mul a.z s⟩

/-- A Q16.16 value in binary32. -/
def f32Q16 (v : Int) : F32 := f32 ⟨v, 65536⟩

/-- 2^-k as a fraction. -/
def qPow2Neg (k : Nat) : Q := ⟨1, 2 ^ k⟩

/-- d and dir of a Q16.16 position (R116). -/
def dirOf (x y z : Int) : F32 × V3 :=
  let p : V3 := ⟨f32Q16 x, f32Q16 y, f32Q16 z⟩
  let d := v3Norm p
  if qLt (f32Val d) (qPow2Neg 16) then (d, ⟨fZero, fOneF, fZero⟩) else (d, v3Div p d)

/-- az_o and el_o of a direction in degrees (R117). -/
def azEl (v : V3) : F32 × F32 :=
  let az := if f32IsZero v.x ∧ f32IsZero v.y then fZero else f32Mul (f32Atan2 (f32Neg v.x) v.y) kDeg
  (az, f32Mul (f32Asin v.z) kDeg)

/-! Exact geometry of the compiler on the binary32 directions. -/

def v3Q (v : V3) : Q × Q × Q := (f32Val v.x, f32Val v.y, f32Val v.z)
def qDot3 (a b : Q × Q × Q) : Q := qAdd (qAdd (qMul a.1 b.1) (qMul a.2.1 b.2.1)) (qMul a.2.2 b.2.2)
def qCross3 (a b : Q × Q × Q) : Q × Q × Q :=
  (qSub (qMul a.2.1 b.2.2) (qMul a.2.2 b.2.1), qSub (qMul a.2.2 b.1) (qMul a.1 b.2.2),
   qSub (qMul a.1 b.2.1) (qMul a.2.1 b.1))
def qSub3 (a b : Q × Q × Q) : Q × Q × Q := (qSub a.1 b.1, qSub a.2.1 b.2.1, qSub a.2.2 b.2.2)

/-- The angle between two directions, in radians. -/
def angleQ (a b : Q × Q × Q) : Q :=
  let c := qCross3 a b
  qAtan2 (qSqrt (qDot3 c c)) (qDot3 a b)

/-- A mesh member of a speaker. -/
def memberOf (s : Spk) : Member :=
  let v := (dirOf s.x s.y s.z).2
  let ae := azEl v
  { no := s.no, virt := s.type == 2, v := v, az := ae.1, el := ae.2, u := {} }

/-- Insertion in ascending order of a key. -/
def insertBy {α : Type} (lt : α → α → Bool) (a : α) : List α → List α
  | [] => [a]
  | b :: t => if lt a b then a :: b :: t else b :: insertBy lt a t
/-- Stable insertion sort. -/
def sortBy {α : Type} (lt : α → α → Bool) (l : List α) : List α := l.foldl (fun acc a => insertBy lt a acc) []

/-- Lexicographic order of triangles. -/
def triLt (a b : Nat × Nat × Nat) : Bool :=
  decide (a.1 < b.1) || (a.1 == b.1 && (decide (a.2.1 < b.2.1) || (a.2.1 == b.2.1 && decide (a.2.2 < b.2.2))))

/-- A triple of numbers in ascending order. -/
def sort3 (a b c : Nat) : Nat × Nat × Nat :=
  let lo := min a (min b c)
  let hi := max a (max b c)
  (lo, a + b + c - lo - hi, hi)

/-- A facet plane: outward normal (not unit) and offset, with the members within 2^-20 of it; none where the triple
is degenerate or another member lies more than 2^-20 outside. -/
def facetOf (ms : List Member) (a b c : Member) : Option ((Q × Q × Q) × Q × List Member) :=
  let n := qCross3 (qSub3 (v3Q b.v) (v3Q a.v)) (qSub3 (v3Q c.v) (v3Q a.v))
  let n2 := qDot3 n n
  if n2.num = 0 then none else
    let off := qDot3 n (v3Q a.v)
    -- a member is off the plane by more than 2^-20 when (n·v − off)² > n² 2^-40
    let side (m : Member) : Int :=
      let e := qSub (qDot3 n (v3Q m.v)) off
      if qLe (qMul e e) (qMul n2 (qPow2Neg 40)) then 0 else if e.num < 0 then -1 else 1
    if ms.any (fun m => side m == 1) then none
    else some (n, off, ms.filter (fun m => side m == 0))

/-- The members of a facet in anticlockwise order seen from outside, from the lowest-numbered on. -/
def facetOrder (n : Q × Q × Q) (vs : List Member) : List Member :=
  match sortBy (fun a b => decide (a.no < b.no)) vs with
  | [] => []
  | v0 :: rest =>
    let e0 := v3Q v0.v
    let lt (a b : Member) : Bool :=
      decide (0 < (qDot3 n (qCross3 (qSub3 (v3Q a.v) e0) (qSub3 (v3Q b.v) e0))).num)
    v0 :: sortBy lt rest

/-- The fan of a facet from its first vertex. -/
def fanOf : List Member → List (Nat × Nat × Nat)
  | v0 :: rest => (rest.zip (rest.drop 1)).map (fun p => sort3 v0.no p.1.no p.2.no)
  | [] => []

/-- All pairs and triples of a list, in order. -/
def pairsOf {α : Type} : List α → List (α × α)
  | [] => []
  | a :: t => t.map (fun b => (a, b)) ++ pairsOf t
def triplesOf {α : Type} : List α → List (α × α × α)
  | [] => []
  | a :: t => (pairsOf t).map (fun p => (a, p.1, p.2)) ++ triplesOf t

/-- Facets of the convex hull with outward normals: each triple that bounds, both orientations, once per vertex set. -/
def hullFacets (ms : List Member) : List ((Q × Q × Q) × Q × List Member) :=
  (triplesOf ms).foldl
    (fun acc t =>
      let add (o : Option ((Q × Q × Q) × Q × List Member)) (acc : List ((Q × Q × Q) × Q × List Member)) :=
        match o with
        | none => acc
        | some f =>
          if acc.any (fun g => (g.2.2.map (·.no) == f.2.2.map (·.no)) && decide (0 < (qDot3 g.1 f.1).num)) then acc
          else acc ++ [f]
      add (facetOf ms t.1 t.2.2 t.2.1) (add (facetOf ms t.1 t.2.1 t.2.2) acc)) []

/-- Signed distance of the origin inside a facet plane exceeds 2^-k. -/
def insideBy (k : Nat) (strict : Bool) (f : (Q × Q × Q) × Q × List Member) : Bool :=
  let n2 := qDot3 f.1 f.1
  let lim := qMul n2 (qPow2Neg (2 * k))
  decide (0 < f.2.1.num) &&
    (if strict then qLt lim (qMul f.2.1 f.2.1) else qLe lim (qMul f.2.1 f.2.1))

/-- Edges of a triangle. -/
def triEdges (t : Nat × Nat × Nat) : List (Nat × Nat) := [(t.1, t.2.1), (t.1, t.2.2), (t.2.1, t.2.2)]

/-- Rim edges: edges of exactly one triangle, with that triangle's number. -/
def rimOf (tris : List (Nat × Nat × Nat)) : List (Nat × Nat × Nat) :=
  let es := tris.zipIdx.flatMap (fun ti => (triEdges ti.1).map (fun e => (e, ti.2)))
  (es.filter (fun e => (es.filter (fun g => g.1 == e.1)).length == 1)).map (fun e => (e.1.1, e.1.2, e.2))

/-- The eigenvector of the smallest eigenvalue of a symmetric 3 × 3 matrix, by inverse iteration on fractions of 2^-160, with what
the iteration leaves below 2^-100 cleared; in binary64, signed as R113 says and rounded to binary32. -/
def ringNormal (ms : List Member) : V3 :=
  let tr (q : Q) : Q := ⟨(q.num * 2 ^ 160) / (q.den : Int), 2 ^ 160⟩
  let vs := ms.map (fun m => v3Q m.v)
  let s (f : Q × Q × Q → Q) : Q := tr (qSum (vs.map f))
  let xx := s (fun v => qMul v.1 v.1); let xy := s (fun v => qMul v.1 v.2.1); let xz := s (fun v => qMul v.1 v.2.2)
  let yy := s (fun v => qMul v.2.1 v.2.1); let yz := s (fun v => qMul v.2.1 v.2.2); let zz := s (fun v => qMul v.2.2 v.2.2)
  -- shifted by 2^-40 so that the matrix is invertible; the adjugate does the inverse iteration
  let e : Q := qPow2Neg 40
  let a := qAdd xx e; let b := qAdd yy e; let c := qAdd zz e
  let adj : (Q × Q × Q) × (Q × Q × Q) × (Q × Q × Q) :=
    ((qSub (qMul b c) (qMul yz yz), qSub (qMul xz yz) (qMul xy c), qSub (qMul xy yz) (qMul xz b)),
     (qSub (qMul xz yz) (qMul xy c), qSub (qMul a c) (qMul xz xz), qSub (qMul xy xz) (qMul a yz)),
     (qSub (qMul xy yz) (qMul xz b), qSub (qMul xy xz) (qMul a yz), qSub (qMul a b) (qMul xy xy)))
  let unit (v : Q × Q × Q) : Q × Q × Q :=
    let l := qSqrt (qDot3 v v)
    if l.num = 0 then v else (tr (qDiv v.1 l), tr (qDiv v.2.1 l), tr (qDiv v.2.2 l))
  let go (v : Q × Q × Q) : Q × Q × Q := unit (qDot3 adj.1 v, qDot3 adj.2.1 v, qDot3 adj.2.2 v)
  let v := (List.range 64).foldl (fun v _ => go v) (unit (⟨1, 3⟩, ⟨1, 2⟩, ⟨2, 3⟩))
  let part (q : Q) : Q := if qLt (qAbs q) (qPow2Neg 100) then ⟨0, 1⟩ else f64 q
  let v := (part v.1, part v.2.1, part v.2.2)
  let neg := if v.2.2.num ≠ 0 then decide (v.2.2.num < 0)
    else if v.2.1.num ≠ 0 then decide (v.2.1.num < 0) else decide (v.1.num < 0)
  let sg (q : Q) : F32 := f32 (if neg then qNeg q else q)
  ⟨sg v.1, sg v.2.1, sg v.2.2⟩

/-- Ring position u_i = normalise(v − (v·n) n). -/
def ringPos (n v : V3) : V3 :=
  let q := v3Sub v (v3Scale n (v3Dot v n))
  let l := v3Norm q
  if l = 0 then q else v3Div q l

/-- Members in ring order: anticlockwise about n from the lowest-numbered member. -/
def ringOrder (n : V3) (ms : List Member) : List Member :=
  match sortBy (fun a b => decide (a.no < b.no)) ms with
  | [] => []
  | m0 :: rest =>
    let ang (m : Member) : Q :=
      let t := qAtan2 (qDot3 (v3Q n) (qCross3 (v3Q m0.u) (v3Q m.u))) (qDot3 (v3Q m0.u) (v3Q m.u))
      if t.num < 0 then qAdd t (qMul (qOfInt 2) qPi) else t
    m0 :: sortBy (fun a b => qLt (ang a) (ang b)) rest

/-- θ_s in degrees (R113): the mean angle from each member to its nearest other member. -/
def thetaQ (ms : List Member) : Q :=
  let near (m : Member) : Q :=
    match (ms.filter (fun o => o.no != m.no)).map (fun o => angleQ (v3Q m.v) (v3Q o.v)) with
    | [] => ⟨0, 1⟩
    | a :: t => t.foldl qMin a
  qDiv (qMul (qDiv (qSum (ms.map near)) (qOfInt ms.length)) (qOfInt 180)) qPi

/-- The mesh of a set of members (R113). -/
def meshOf (ms : List Member) : Mesh :=
  let th := thetaQ ms
  let base : Mesh := { members := ms, thetaS := f32 th, thetaCd := (qRne (qMul th (qOfInt 100))).toNat }
  let n := ringNormal ms
  let lim := qSin (qTurn ⟨50, 1⟩ 36000)
  if ms.all (fun m => qLe (qAbs (qDot3 (v3Q m.v) (v3Q n))) lim) then
    let ms := ms.map (fun m => { m with u := ringPos n m.v })
    let ord := (ringOrder n ms).map (·.no)
    { base with members := ms, ring := true, normal := n,
                arcs := ord.zip (ord.drop 1 ++ ord.take 1) }
  else
    let facets := hullFacets ms
    -- one polygon: every member in one plane off the origin
    let single := facets.filter (fun f => f.2.2.length == ms.length && f.2.1.num ≠ 0)
    let finish (tris : List (Nat × Nat × Nat)) (isOpen : Bool) : Mesh :=
      let tris := sortBy triLt tris
      { base with tris := tris, isOpen := isOpen, rim := if isOpen then rimOf tris else [] }
    match single.filter (fun f => decide (0 < f.2.1.num)) with
    | f :: _ => finish (fanOf (facetOrder f.1 f.2.2)) true
    | [] =>
      if facets.all (insideBy 16 false) then finish (facets.flatMap (fun f => fanOf (facetOrder f.1 f.2.2))) false
      else finish ((facets.filter (insideBy 16 true)).flatMap (fun f => fanOf (facetOrder f.1 f.2.2))) true

/-- Mesh neighbours of member no (R113 step 6). -/
def neighbours (m : Mesh) (no : Nat) : List Nat :=
  let es := if m.ring then m.arcs else m.tris.flatMap triEdges
  ((es.filterMap (fun e => if e.1 = no then some e.2 else if e.2 = no then some e.1 else none)).eraseDups)

/-- Mesh distance in edges of each member to the nearest full-range one; none where there is no path. -/
def meshDist (m : Mesh) : List (Nat × Nat) :=
  let start := (m.members.filter (fun a => !a.virt)).map (fun a => (a.no, 0))
  (List.range m.members.length).foldl
    (fun known d =>
      let fresh := (m.members.filter (fun a => !(known.any (fun k => k.1 == a.no)))).filter
        (fun a => (neighbours m a.no).any (fun b => known.any (fun k => k.1 == b && k.2 == d)))
      known ++ fresh.map (fun a => (a.no, d + 1))) start

/-- |v| of a gain vector: squares summed in ascending member order. -/
def gainNorm (g : List F32) : F32 := f32Sqrt (g.foldl (fun s a => f32Add s (f32Mul a a)) fZero)
/-- normalise of R117. -/
def gainNormalise (g : List F32) : List F32 :=
  let l := gainNorm g
  if l = 0 then g.map (fun _ => fZero) else g.map (fun a => f32Div a l)

/-- Direction of member no. -/
def memberV (m : Mesh) (no : Nat) : V3 := ((m.members.find? (fun a => a.no == no)).map (·.v)).getD {}
def memberU (m : Mesh) (no : Nat) : V3 := ((m.members.find? (fun a => a.no == no)).map (·.u)).getD {}

/-- Gains of a list of (member, gain) over every member. -/
def spread (m : Mesh) (gs : List (Nat × F32)) : List F32 :=
  m.members.map (fun a => ((gs.find? (fun g => g.1 == a.no)).map Prod.snd).getD fZero)

/-- h of a triangle by Cramer's rule (R116). -/
def triSolve (m : Mesh) (dir : V3) (t : Nat × Nat × Nat) : F32 × F32 × F32 :=
  let vi := memberV m t.1; let vj := memberV m t.2.1; let vk := memberV m t.2.2
  let d := v3Dot vi (v3Cross vj vk)
  (f32Div (v3Dot dir (v3Cross vj vk)) d, f32Div (v3Dot dir (v3Cross vk vi)) d, f32Div (v3Dot dir (v3Cross vi vj)) d)

/-- Angle of R116 in binary32. -/
def angleF (a b : V3) : F32 := f32Atan2 (v3Norm (v3Cross a b)) (v3Dot a b)

/-- The pair rule of R116 with Ω and ω. -/
def pairRule (om w : F32) : F32 × F32 :=
  if f32Lt (f32 (qDiv (qMul (qOfInt 2) qPi) (qOfInt 3))) om then
    let a := f32Div (f32Mul fPi w) (f32Mul (f32OfInt 2) om)
    (f32Cos a, f32Sin a)
  else
    let so := f32Sin om
    let hA := f32Div (f32Sin (f32Sub om w)) so
    let hB := f32Div (f32Sin w) so
    let l := f32Sqrt (f32Add (f32Mul hA hA) (f32Mul hB hB))
    (f32Div hA l, f32Div hB l)

/-- The point of arc A–B nearest dir, with its angular distance (log entry 6). -/
def arcNearest (a b dir : V3) : V3 × F32 :=
  let n := v3Cross a b
  let ln := v3Norm n
  let n := if ln = 0 then n else v3Div n ln
  let q := v3Sub dir (v3Scale n (v3Dot dir n))
  let lq := v3Norm q
  let q := if lq = 0 then a else v3Div q lq
  let inside := !(f32Lt (v3Dot (v3Cross a q) n) fZero) && !(f32Lt (v3Dot (v3Cross q b) n) fZero)
  if inside then (q, angleF q dir)
  else
    let da := angleF a dir; let db := angleF b dir
    if f32Lt db da then (b, db) else (a, da)

/-- Point gains of step 1 over the members (R116). -/
def pointGains (m : Mesh) (dir : V3) : List F32 :=
  let h := m.members.length
  if m.ring then
    let q := v3Sub dir (v3Scale m.normal (v3Dot dir m.normal))
    let lq := v3Norm q
    if qLt (f32Val lq) (qPow2Neg 16) then m.members.map (fun _ => f32Div fOneF (f32Sqrt (f32OfInt h)))
    else
      let q := v3Div q lq
      let holds (e : Nat × Nat) : Bool :=
        let a := memberU m e.1; let b := memberU m e.2
        let ang (u v : V3) : Q :=
          let t := qAtan2 (qDot3 (v3Q m.normal) (qCross3 (v3Q u) (v3Q v))) (qDot3 (v3Q u) (v3Q v))
          if t.num < 0 then qAdd t (qMul (qOfInt 2) qPi) else t
        qLe (ang a q) (ang a b)
      match m.arcs.find? holds with
      | none => m.members.map (fun _ => fZero)
      | some e =>
        let a := memberU m e.1; let b := memberU m e.2
        let p := pairRule (angleF a b) (angleF a q)
        spread m [(e.1, p.1), (e.2, p.2)]
  else
    let sols := m.tris.map (fun t => (t, triSolve m dir t))
    let mn (s : F32 × F32 × F32) : F32 := f32Min s.1 (f32Min s.2.1 s.2.2)
    let enc := sols.find? (fun s => qLe ⟨-1, 2 ^ 20⟩ (f32Val (mn s.2)))
    let best : Option ((Nat × Nat × Nat) × (F32 × F32 × F32)) :=
      match enc with
      | some s => some s
      | none =>
        if m.isOpen then none
        else sols.foldl (fun acc s => match acc with
          | none => some s
          | some b => if f32Lt (mn b.2) (mn s.2) then some s else some b) none
    match best with
    | some (t, h) =>
      let pos (a : F32) : F32 := if f32Lt a fZero then fZero else a
      let h := (pos h.1, pos h.2.1, pos h.2.2)
      let l := v3Norm ⟨h.1, h.2.1, h.2.2⟩
      spread m [(t.1, f32Div h.1 l), (t.2.1, f32Div h.2.1 l), (t.2.2, f32Div h.2.2 l)]
    | none =>
      let cands := m.rim.map (fun e => (e, arcNearest (memberV m e.1) (memberV m e.2.1) dir))
      let pick := cands.foldl (fun acc c => match acc with
        | none => some c
        | some b =>
          if f32Lt c.2.2 b.2.2 || (c.2.2 == b.2.2 && decide (c.1.2.2 < b.1.2.2)) then some c else some b) none
      match pick with
      | none => m.members.map (fun _ => fZero)
      | some (e, q) =>
        let a := memberV m e.1; let b := memberV m e.2.1
        let p := pairRule (angleF a b) (angleF a q.1)
        spread m [(e.1, p.1), (e.2.1, p.2)]

/-- The quantities every step of a re-pan shares. -/
structure PanCtx where
  d : F32
  dir : V3
  az : F32
  el : F32
  dPrime : F32
  /-- Half-extents in degrees. -/
  a : F32
  b : F32
  lam : F32
  psi : F32
  deriving DecidableEq, Repr

def fTwo : F32 := f32OfInt 2

/-- Distance, half-extents, λ and ψ (R116–R118). -/
def panCtx (r : ObjRec) (rIn : Nat) : PanCtx :=
  let dd := dirOf r.x r.y r.z
  let d := dd.1
  let rin := f32Q16 rIn
  let dp := f32Max d rin
  let ae := azEl dd.2
  let half (w : Int) : F32 :=
    if r.angular then f32Div (f32OfInt w) (f32OfInt 200)
    else f32Mul (f32Atan (f32Div (f32Q16 w) (f32Mul fTwo dp))) kDeg
  let lam := if f32Lt d rin then f32Sub fOneF (f32Div d rin) else fZero
  let psiRec := f32Div (f32OfInt r.diffuse) (f32OfInt 32767)
  let share := f32Min fOneF (f32Div (f32Q16 r.depth) (f32Mul (f32OfInt 4) dp))
  { d := d, dir := dd.2, az := ae.1, el := ae.2, dPrime := dp, a := half r.width, b := half r.height, lam := lam,
    psi := f32Add psiRec (f32Mul (f32Sub fOneF psiRec) share) }

/-- c(ρ) of R117. -/
def footC (rho : F32) : F32 :=
  if qLe (f32Val rho) ⟨1, 2⟩ then fOneF
  else if f32Lt rho fOneF then
    let c := f32Cos (f32Mul fPi (f32Sub rho (f32 ⟨1, 2⟩)))
    f32Mul c c
  else fZero

/-- Degrees wrapped into (−180, +180]. -/
def wrapDeg (x : F32) : F32 :=
  if f32Lt (f32OfInt 180) x then f32Sub x (f32OfInt 360)
  else if !(f32Lt (f32OfInt (-180)) x) then f32Add x (f32OfInt 360) else x

/-- g₂ of R117. -/
def extentGains (m : Mesh) (c : PanCtx) (g1 : List F32) : List F32 :=
  let half := f32Div m.thetaS fTwo
  let a' := f32Max c.a half
  let b' := f32Max c.b half
  let u := m.members.map (fun mem =>
    let al := f32Mul (wrapDeg (f32Sub mem.az c.az)) (f32Cos (f32Mul (f32Div (f32Add mem.el c.el) fTwo) kRad))
    let ep := f32Sub mem.el c.el
    let x := f32Div al a'
    let y := f32Div ep b'
    footC (f32Sqrt (f32Add (f32Mul x x) (f32Mul y y))))
  let u := u.map (fun v => f32Add (f32Mul (f32Sub fOneF c.lam) v) c.lam)
  let eta := f32Max c.lam (f32Min fOneF (f32Div (f32Mul fTwo (f32Max c.a c.b)) m.thetaS))
  let lu := gainNorm u
  let eta := if lu = 0 then fZero else eta
  let uh := if lu = 0 then u else u.map (fun v => f32Div v lu)
  gainNormalise ((g1.zip uh).map (fun p => f32Add (f32Mul (f32Sub fOneF eta) p.1) (f32Mul eta p.2)))

/-- g₃ of R118 for a given ψ. -/
def diffuseGains (m : Mesh) (psi : F32) (g : List F32) : List F32 :=
  let hh := f32Div fOneF (f32Sqrt (f32OfInt m.members.length))
  gainNormalise (g.map (fun a => f32Add (f32Mul (f32Sub fOneF psi) a) (f32Mul psi hh)))

/-- The virtual fold of R119. -/
def foldVirtual (m : Mesh) (g : List F32) : List F32 :=
  let dist := meshDist m
  let dOf (no : Nat) : Option Nat := (dist.find? (fun k => k.1 == no)).map Prod.snd
  let virt := (m.members.filter (·.virt)).map (fun a => (a.no, (dOf a.no).getD 0))
  let order := sortBy (fun a b => decide (b.2 < a.2) || (a.2 == b.2 && decide (b.1 < a.1))) virt
  order.foldl
    (fun g v =>
      let pairs := m.members.zip g
      let gv := ((pairs.find? (fun p => p.1.no == v.1)).map Prod.snd).getD fZero
      let near := (neighbours m v.1).filter
        (fun k => m.members.any (fun a => a.no == k && (!a.virt || decide ((dOf k).getD 0 < v.2))))
      let share := f32Div (f32Mul gv gv) (f32OfInt near.length)
      pairs.map (fun p =>
        if p.1.no = v.1 then fZero
        else if near.contains p.1.no then f32Sqrt (f32Add (f32Mul p.2 p.2) share)
        else p.2)) g

/-- Associated Legendre function P_n^m of sin e without the Condon–Shortley phase, as an exact recurrence on x = sin e and
y = √(1 − x²). -/
def legendre (n m : Nat) (x y : Q) : Q :=
  let pmm := (List.range m).foldl (fun (p : Q) (i : Nat) => qNorm (qMul p (qMul (qOfInt (2 * (i : Int) + 1)) y))) ⟨1, 1⟩
  if n = m then pmm else
    let step := fun (s : Q × Q) (k : Nat) =>
      -- (k − m) P_k = (2k − 1) x P_{k−1} − (k + m − 1) P_{k−2}
      let pk := qDiv (qSub (qMul (qMul (qOfInt (2 * (k : Int) - 1)) x) s.2) (qMul (qOfInt ((k : Int) + m - 1)) s.1))
        (qOfInt ((k : Int) - m))
      (s.2, qNorm ⟨(pk.num * 2 ^ 200) / (pk.den : Int), 2 ^ 200⟩)
    let p1 := qMul (qMul (qOfInt (2 * (m : Int) + 1)) x) pmm
    if n = m + 1 then p1
    else ((List.range (n - m - 1)).foldl (fun s i => step s (m + 2 + i)) (pmm, p1)).2

def factorial : Nat → Nat
  | 0 => 1
  | n + 1 => (n + 1) * factorial n

/-- Y_n^m of R120, each written operation rounded to binary32 (R115); the Legendre function and a factorial are functions of their
argument, evaluated exactly and rounded once (log entry 7). -/
def haloY (n : Nat) (m : Int) (az el : F32) : F32 :=
  let x := f32Val (f32Sin (f32Mul el kRad))
  let ma := m.natAbs
  let fact (k : Nat) : F32 := f32OfInt (factorial k : Nat)
  let norm := f32Sqrt (f32Div (f32Mul (f32OfInt (if ma = 0 then 1 else 2)) (fact (n - ma))) (fact (n + ma)))
  let p := f32 (legendre n ma x (qSqrt (qSub ⟨1, 1⟩ (qMul x x))))
  let a := f32Mul (f32OfInt ma) (f32Mul az kRad)
  f32Mul (f32Mul norm p) (if 0 ≤ m then f32Cos a else f32Sin a)

/-- HALO coefficients C_k in ACN order (R120). -/
def haloCoefs (order : Nat) (c : PanCtx) : List F32 :=
  let th := f32Max (f32Mul c.a kRad) (f32Max (f32Mul c.b kRad) (f32Mul c.lam fPi))
  let w (n : Nat) : F32 :=
    if n = 0 then fOneF
    else f32Mul (f32Sub fOneF c.psi)
      (f32Max fZero (f32Sub fOneF (f32Div (f32Mul (f32OfInt n) th) fPi)))
  (List.range (order + 1)).flatMap (fun n =>
    (List.range (2 * n + 1)).map (fun (i : Nat) => f32Mul (w n) (haloY n ((i : Int) - n) c.az c.el)))

/-- Speaker gains before G_obj: steps 1–3 (R116–R119), by member number. -/
def speakerGains (m : Mesh) (c : PanCtx) : List (Nat × F32) :=
  let g := foldVirtual m (diffuseGains m c.psi (extentGains m c (pointGains m c.dir)))
  ((m.members.zip g).filter (fun p => !p.1.virt)).map (fun p => (p.1.no, p.2))

/-- Emission gains of a group's mesh (R121): steps 1 and 3 with ψ := max(ψ, λ). -/
def emissionGains (m : Mesh) (c : PanCtx) : List (Nat × F32) :=
  if m.members.isEmpty then [] else
    (m.members.zip (diffuseGains m (f32Max c.psi c.lam) (pointGains m c.dir))).map (fun p => (p.1.no, p.2))

/-- Mix weights (c_dir, c_dec) of R118 and R122, UQ4.28. -/
def mixWeights (decorr : Bool) (psi : F32) : Int × Int :=
  if decorr then
    (gainScale (f32Sqrt (f32Sub fOneF psi)) unity, gainScale (f32Sqrt psi) unity)
  else (unity, 0)

end Sys2Proof.Machine
end

