-- ==== Sys2Proof/Machine/ObjPath.lean ====
section
/-! DEFINITION. The object path of R137–R157: targets, the fractional read, the shelf, trim and decorrelation. -/

namespace Sys2Proof.Machine

/-- Rate multiple m of R58. -/
def rateM (f : Nat) : Nat := if f = 88200 ∨ f = 96000 then 2 else if f = 176400 ∨ f = 192000 then 4 else 1

/-- The integer square root rounded to nearest: round(√n). -/
def sqrtRound (n : Nat) : Nat := let r := Nat.sqrt n; if r * r + r < n then r + 1 else r

/-- d_q of R141. -/
def distQ (r : ObjRec) : Nat := sqrtRound ((r.x * r.x + r.y * r.y + r.z * r.z).toNat)

/-- The layout mean of R141 in Q16.16, summed in binary64. -/
def layoutMean (l : Layout) : Nat :=
  let full := l.spks.filter (fun s => s.type == 0)
  let dist (s : Spk) : Q :=
    let c (v : Int) : Q := ⟨v, 65536⟩
    f64 (qSqrt (f64 (qAdd (f64 (qAdd (f64 (qMul (c s.x) (c s.x))) (f64 (qMul (c s.y) (c s.y))))) (f64 (qMul (c s.z) (c s.z))))))
  if full.isEmpty then 65536
  else
    let sum := full.foldl (fun a s => f64 (qAdd a (dist s))) ⟨0, 1⟩
    (qRne (qMul (f64 (qDiv sum (qOfInt full.length))) (qOfInt 65536))).toNat

/-- r_q of R141. -/
def refDist (c : PathCfg) (lay : Option Layout) (dom : Nat) : Nat :=
  if c.dRef ≠ 0 then c.dRef
  else match lay with
    | some l => if l.dom = dom then layoutMean l else 65536
    | none => 65536

/-- Delay target before the clamp, UQ14.18 (R141). -/
def delayTarget (c : PathCfg) (dq rq f : Nat) : Int :=
  let delta := if c.delayMode = 1 then dq - rq else if c.delayMode = 2 then dq else 0
  let cq := if c.cSound = 0 then 343 * 65536 else c.cSound
  rne ((delta * f * 2 ^ 18 : Nat) : Int) cq

/-- 8,192 samples in UQ14.18 (R142). -/
def delayMax : Int := 8192 * 262144

/-- Distance-gain target (R143). -/
def distGainTarget (c : PathCfg) (dq rq : Nat) : Int :=
  if !c.distGain then unity else
    let d := f32 ⟨dq, 65536⟩
    let r := f32 ⟨rq, 65536⟩
    let dn := if c.dNear = 0 then r else f32 ⟨c.dNear, 65536⟩
    let deff := f32Max d dn
    let k := f32Neg (f32Div (f32OfInt c.rolloff) (f32 ⟨60206, 100⟩))
    let e := f32Mul k (f32 (qLog2 (f32Val (f32Div deff r))))
    clampI 0 4294967295 (qRne (qMul (qOfInt unity) (f32Val (f32 (qPow2 (f32Val e))))))

/-- Air-absorption target in centi-dB (R144). -/
def airTarget (c : PathCfg) (dq rq : Nat) : Int :=
  if !c.air then 0
  else min 2400 (rne ((c.airCoef * (dq - rq) : Nat) : Int) (10 * 65536))

/-- The change of delay active at sample k. -/
def delaySegAt (p : PathState) (k : MT) : DelaySeg :=
  if p.delay.seg.n = 0 ∨ mtGe k p.delay.seg.t = true then p.delay
  else if p.delayOld.seg.n = 0 ∨ mtGe k p.delayOld.seg.t = true then p.delayOld else p.delayOld2

/-- D₀ of a change that starts at t: the delay applied to sample t − 1, or a running crossfade's new read (R147). -/
def delayBefore (p : PathState) (t : MT) : Int :=
  let s := delaySegAt p (t - 1)
  if s.fade then s.seg.v1 else segAt s.seg (t - 1)

/-- The applied delay at sample k, for a crossfade the new read's (R158). -/
def delayAt (p : PathState) (k : MT) : Int :=
  let s := delaySegAt p k
  if s.fade then s.seg.v1 else segAt s.seg k

/-- A(b) of R148 for the block that starts at b. -/
def airAt (s : Seg) (b : MT) : Int :=
  if s.n = 0 then s.v1 else
    let done := clampI 0 s.n (mtDiff b s.t + 16)
    s.v0 + ((s.v1 - s.v0) * done).tdiv s.n

/-- Start of the block a sample lies in. -/
def blockOf (t : MT) : MT := t &&& 0xFFFFFFF0#32

/-- New delay, gain and air targets applied from t over n (R145–R149).  Also whether the delay clamp and the Doppler
limit counted. -/
def pathRetarget (p : PathState) (c : PathCfg) (dq rq f : Nat) (t : MT) (n : Nat) (jump : Bool) :
    PathState × Bool × Bool :=
  let raw := delayTarget c dq rq f
  let clamp := decide (delayMax < raw)
  let d1 := if clamp then delayMax else raw
  let d0 := delayBefore p t
  let fast := !jump && decide ((n : Int) * 131072 < ((d1 - d0).natAbs : Int))
  let air1 := airTarget c dq rq
  ({ p with
      delay := { seg := { v0 := d0, v1 := d1, t := t, n := if jump || fast then 16 else n }, fade := jump || fast },
      delayOld := p.delay, delayOld2 := p.delayOld,
      gdist := rampTo p.gdist (distGainTarget c dq rq) t n,
      air := { v0 := if p.airStart.isSome then 0 else airAt p.air (blockOf (t - 1)), v1 := air1, t := t, n := n }, airOld := p.air
      counted := some (t, clamp, fast) }, clamp, fast)

/-- A change stamped S and not yet applied to a sample is taken back: another change of the same boundary replaces it
(R149). -/
def pathUndo (p : PathState) (S : MT) : PathState :=
  { p with
      delay := if p.delay.seg.n ≠ 0 ∧ p.delay.seg.t = S then p.delayOld else p.delay,
      delayOld := if p.delay.seg.n ≠ 0 ∧ p.delay.seg.t = S then p.delayOld2 else p.delayOld,
      gdist := if p.gdist.cur.n ≠ 0 ∧ p.gdist.cur.t = S then { cur := p.gdist.old, old := p.gdist.old2 } else p.gdist,
      air := if p.air.n ≠ 0 ∧ p.air.t = S then p.airOld else p.air }

/-- Targets taken at once, without a ramp (R157, R521). -/
def pathAtOnce (p : PathState) (c : PathCfg) (dq rq f : Nat) : PathState :=
  let d1 := min delayMax (delayTarget c dq rq f)
  { p with
      delay := { seg := { v0 := d1, v1 := d1 } }, delayOld := {}, delayOld2 := {},
      gdist := rampHold (distGainTarget c dq rq),
      gtrim := rampHold (if c.pathMute then 0 else cdbGain c.trim),
      air := { v1 := airTarget c dq rq }, airNow := airTarget c dq rq, airOn := c.air, airStart := none, counted := none,
      decor := if p.decorStop.isSome then none else p.decor, decorOld := [], decorStart := none, decorStop := none }

/-- Sample state cleared: delay line, guard, shelf and decorrelators (R157). -/
def pathClear (p : PathState) : PathState :=
  { p with line := [], shelfX := 0, shelfY := 0,
           decor := p.decor.map (fun d => { filter := d.filter }), decorOld := [] }

/-- Every path quantity at its end value, crossfades abandoned (R64 step 3, R157). -/
def pathEndNow (p : PathState) : PathState :=
  { p with delay := { seg := { v0 := p.delay.seg.v1, v1 := p.delay.seg.v1 } }, delayOld := {}, delayOld2 := {},
           gdist := rampEndNow p.gdist, gtrim := rampEndNow p.gtrim, air := { v1 := p.air.v1 }, airNow := p.air.v1, counted := none,
           decorOld := [], decorStart := none,
           decor := if p.decorStop.isSome then none else p.decor, decorStop := none }

/-- I₀ of the Kaiser window, in fixed point. -/
def fxBesselI0 (x : Int) : Int :=
  let q := fxMul x x / 4
  fxSeries (fun k t => fxMul t q / (((k : Int) + 1) * ((k : Int) + 1))) 60 0 fxOne 0

/-- h(τ) of R151 for τ = num/64, |τ| < 8, in binary64. -/
def tapH (num : Int) : Q :=
  if num = 0 then ⟨1, 1⟩
  else if 512 ≤ num.natAbs then ⟨0, 1⟩
  else
    let tau := fxOfQ ⟨num, 64⟩
    let s := fxDiv (fxCosSin (fxMul fxPi tau)).2 (fxMul fxPi tau)
    let r := fxSqrt (fxOne - fxMul tau tau / 64)
    f64 (fxToQ (fxMul s (fxDiv (fxBesselI0 (6 * r)) (fxBesselI0 (6 * fxOne)))))

/-- c[p][0] to c[p][15] of R151, Q2.30. -/
def tapRow (p : Nat) : List Int :=
  let hs := (List.range 16).map (fun (j : Nat) => tapH (((j : Int) - 8) * 64 + p))
  let sum := hs.foldl (fun a h => f64 (qAdd a h)) ⟨0, 1⟩
  hs.map (fun h => qRne (qDiv (qMul (qOfInt (2 ^ 30)) h) sum))

/-- The table of R151: rows 0 to 64. -/
def tapTable : List (List Int) := (List.range 65).map tapRow

/-- x(k − j) of a delay line that holds sample k first. -/
def lineAt (line : List Int) (j : Nat) : Int := line.getD j 0

/-- The fractional read of R150 at delay d. -/
def fracRead (line : List Int) (d : Int) : Int :=
  let dn := d.toNat
  let i := dn / 262144
  let phi := dn % 262144
  if 7 ≤ i then
    let p := phi / 4096
    let mu := phi % 4096
    let xs := ((line.drop (i - 7)).take 16).toArray
    let acc (q : Nat) : Int := ((tapTable.getD q []).zipIdx.map (fun c => c.1 * xs.getD (15 - c.2) 0)).sum
    rne (acc p * (4096 - mu : Nat) + acc (p + 1) * mu) (2 ^ 42)
  else
    rne (lineAt line i * (262144 - phi : Nat) + lineAt line (i + 1) * phi) (2 ^ 18)

/-- Saturation to Q1.31 with the number of clips it makes. -/
def satClip (v : Int) : Int × Nat := (sat31 v, if clips31 v then 1 else 0)

/-- The delay stage for sample k (R145–R147, R150). -/
def delayRead (p : PathState) (line : List Int) (k : MT) : Int × Nat :=
  let s := delaySegAt p k
  if s.fade then
    let j := mtDiff k s.seg.t
    if 0 ≤ j ∧ j ≤ 15 then
      let y0 := satClip (fracRead line s.seg.v0)
      let y1 := satClip (fracRead line s.seg.v1)
      (rne ((15 - j) * y0.1 + (j + 1) * y1.1) 16, y0.2 + y1.2)
    else satClip (fracRead line s.seg.v1)
  else satClip (fracRead line (segAt s.seg k))

/-- A product with a UQ4.28 gain, rounded and saturated. -/
def mulGain (x g : Int) : Int × Nat := satClip (shrRne (x * g) 28)

/-- Shelf coefficients b0, b1, a1 in Q2.30 (R151). -/
def shelfCoefs (airCorner : Nat) (a : Int) (f : Nat) : Int × Int × Int :=
  let corner := if airCorner = 0 then 6000000 else airCorner
  let fc := f32 (qMin ⟨corner, 1000⟩ ⟨45 * f, 100⟩)
  let K := f32 (qTan (f32Val (f32Div (f32Mul fPi fc) (f32OfInt f))))
  let V := f32 (qPow10 (f32Val (f32Div (f32OfInt (-a)) (f32OfInt 2000))))
  let d := f32Add fOneF K
  let q (v : F32) : Int := qRne (qMul (f32Val v) (qOfInt (2 ^ 30)))
  (q (f32Div (f32Add V K) d), q (f32Div (f32Sub K V) d), q (f32Div (f32Sub K fOneF) d))

/-- One sample of the shelf. -/
def shelfStep (c : Int × Int × Int) (x x1 y1 : Int) : Int × Nat :=
  satClip (shrRne (c.1 * x + c.2.1 * x1 - c.2.2 * y1) 30)

/-- Delays M₁–M₄ of the sixteen decorrelation filters (R153). -/
def decorM (filter : Nat) : Nat × Nat × Nat × Nat :=
  match filter with
  | 0 => (41, 113, 229, 421) | 1 => (43, 109, 233, 433) | 2 => (47, 127, 239, 419) | 3 => (53, 103, 241, 439)
  | 4 => (59, 131, 251, 409) | 5 => (61, 137, 257, 443) | 6 => (67, 139, 263, 449) | 7 => (71, 149, 269, 457)
  | 8 => (73, 151, 271, 461) | 9 => (79, 157, 277, 463) | 10 => (83, 163, 281, 467) | 11 => (89, 167, 283, 479)
  | 12 => (97, 173, 293, 487) | 13 => (101, 179, 307, 491) | 14 => (107, 181, 311, 499) | _ => (37, 191, 313, 503)

/-- Σ M of a filter. -/
def decorSum (filter : Nat) : Nat := let m := decorM filter; m.1 + m.2.1 + m.2.2.1 + m.2.2.2

/-- Section gains 0.62, 0.58, 0.54, 0.50 at 2^31 (R153). -/
def decorG (i : Nat) : Int :=
  rne (match i with | 0 => 62 * 2 ^ 31 | 1 => 58 * 2 ^ 31 | 2 => 54 * 2 ^ 31 | _ => 50 * 2 ^ 31) 100

/-- One allpass section: output, new history, clips. -/
def allpass (g : Int) (delay : Nat) (hist : List Int) (u : Int) : Int × List Int × Nat :=
  let wm := hist.getD (delay - 1) 0
  let w := satClip (shrRne (u * 2 ^ 31 + g * wm) 31)
  let y := satClip (shrRne (wm * 2 ^ 31 - g * w.1) 31)
  (y.1, (w.1 :: hist).take delay, w.2 + y.2)

/-- One sample of a decorrelation filter at rate multiple m. -/
def decorStep (d : Decor) (m : Nat) (x : Int) : Int × Decor × Nat :=
  let dm := decorM d.filter
  let s1 := allpass (decorG 0) (dm.1 * m) d.w1 x
  let s2 := allpass (decorG 1) (dm.2.1 * m) d.w2 s1.1
  let s3 := allpass (decorG 2) (dm.2.2.1 * m) d.w3 s2.1
  let s4 := allpass (decorG 3) (dm.2.2.2 * m) d.w4 s3.1
  (s4.1, { d with w1 := s1.2.1, w2 := s2.2.1, w3 := s3.2.1, w4 := s4.2.1 }, s1.2.2 + s2.2.2 + s3.2.2 + s4.2.2)

/-- The crossfade of R162 at sample j of L: weight w_j = round((j + 1) 2^31 / L). -/
def xfade (L : Nat) (j : Int) (old new : Int) : Int :=
  if j < 0 then old else if (L : Int) ≤ j then new
  else
    let w := rne ((j + 1) * 2 ^ 31) L
    shrRne (old * (2 ^ 31 - w) + new * w) 31

/-- The value at sample k of crossfades one after another: the value in force, and the values that each crossfade, newest first,
fades from, with its start and length. -/
def fadeOf (k : MT) : Int → List (Int × MT × Nat) → Int
  | now, [] => now
  | now, (v, t, L) :: rest => if mtDiff k t < 0 then fadeOf k v rest else xfade L (mtDiff k t) v now

/-- Crossfades that still matter from sample b on. -/
def fadesLive {α : Type} (b : MT) (fs : List (α × MT × Nat)) : List (α × MT × Nat) :=
  fs.takeWhile (fun f => decide (mtDiff b f.2.1 < (f.2.2 : Int)))

/-- One sample k of the object path with coefficients of the block: the state, x, x_d and the clips (R137, R138). -/
def pathSample (c : PathCfg) (coefs : Int × Int × Int) (m : Nat) (k : MT) (p : PathState) (x : Int) :
    PathState × Int × Int × Nat :=
  let line := (x :: p.line).take 8208
  let y2 := delayRead p line k
  let y3 := if c.distGain || rampRuns p.gdist k then mulGain y2.1 (rampAt p.gdist k) else (y2.1, 0)
  let y4 := if p.airOn then shelfStep coefs y3.1 p.shelfX p.shelfY else (y3.1, 0)
  let y5 := mulGain y4.1 (rampAt p.gtrim k)
  let dn : Int × Option Decor × Nat := if p.decorStart.isSome then (0, p.decor, 0) else match p.decor with
    | some d => let r := decorStep d m y5.1; (r.1, some r.2.1, r.2.2)
    | none => (0, none, 0)
  let olds := p.decorOld.map (fun o => let r := decorStep o.1 m y5.1; ((r.2.1, o.2), r.1, r.2.2))
  let dold : Int × List (Decor × MT × Nat) × Nat :=
    (fadeOf k dn.1 (olds.map (fun r => (r.2.1, r.1.2.1, r.1.2.2))), olds.map (·.1), olds.foldl (fun a r => a + r.2.2) 0)
  ({ p with line := line,
            shelfX := if p.airOn then y3.1 else 0, shelfY := if p.airOn then y4.1 else 0,
            decor := dn.2.1, decorOld := dold.2.1 },
    y5.1, dold.1, y2.2 + y3.2 + y4.2 + y5.2 + dn.2.2 + dold.2.2)

/-- A delay change and an air change that have reached their ends before sample b hold them. -/
def delaySettle (p : PathState) (b : MT) : PathState :=
  if p.delay.seg.n ≠ 0 ∧ (p.delay.seg.n : Int) ≤ mtDiff b p.delay.seg.t then
    { p with delay := { seg := { v0 := p.delay.seg.v1, v1 := p.delay.seg.v1 } }, delayOld := {}, delayOld2 := {} }
  else p
def airSettle (s : Seg) (b : MT) : Seg := if (s.n : Int) ≤ mtDiff b s.t then { v0 := s.v1, v1 := s.v1 } else s

/-- Changes that have run out before the block that starts at b: delays, the shelf's start and bypass (R149), filter stops (R155). -/
def pathSettle (c : PathCfg) (p : PathState) (b : MT) : PathState :=
  let p := delaySettle p b
  let air := if p.air.n = 0 then p.air else airSettle p.air b
  let starts := (p.airStart.map (mtGe b)) == some true
  let on := if c.air then p.airOn || starts || p.airStart.isNone else p.airOn && air.n != 0
  let zero := !on || starts
  { p with
      air := air, airNow := airAt air b, airOn := on, airStart := if starts then none else p.airStart
      counted := p.counted.filter (fun k => mtLater k.1 b)
      decorStart := match p.decorStart with
        | some t => if mtGe b t then none else some t
        | none => none,
      shelfX := if zero then 0 else p.shelfX, shelfY := if zero then 0 else p.shelfY,
      decorOld := fadesLive b p.decorOld,
      decor := match p.decorStop with
        | some t => if mtGe b t then none else p.decor
        | none => p.decor,
      decorStop := match p.decorStop with
        | some t => if mtGe b t then none else some t
        | none => none,
      gdist := rampSettle p.gdist b, gtrim := rampSettle p.gtrim b }

/-- One block of the object path for the samples from b on: the new state, 16 pairs (x, x_d) and the clips. -/
def pathBlock (c : PathCfg) (f : Nat) (p : PathState) (b : MT) (xs : List Int) :
    PathState × List (Int × Int) × Nat :=
  let p := pathSettle c p b
  let coefs := shelfCoefs c.airCorner p.airNow f
  let r := xs.zipIdx.foldl
    (fun (acc : PathState × List (Int × Int) × Nat) (xi : Int × Nat) =>
      let s := pathSample c coefs (rateM f) (b + BitVec.ofNat 32 xi.2) acc.1 xi.1
      (s.1, (s.2.1, s.2.2.1) :: acc.2.1, acc.2.2 + s.2.2.2)) (p, [], 0)
  (r.1, r.2.1.reverse, r.2.2)

/-- A void block (R156): zeros into the delay line, filter state kept, changes advance by MT. -/
def pathVoid (c : PathCfg) (p : PathState) (b : MT) : PathState :=
  let p := pathSettle c p b
  { p with line := (List.replicate 16 0 ++ p.line).take 8208 }

end Sys2Proof.Machine
end

