-- ==== Sys2Proof/Machine/Scene.lean ====
section
/-! DEFINITION. Objects, the metadata and direct queues, selection, entries and ramps (R39, R79–R99, R105, R114,
R122–R134). -/

namespace Sys2Proof.Machine

/-- Numbers of the grade (R1). -/
def nObjects : Nat := if Config.gradeAF then 1024 else 512
def nSpeakers : Nat := if Config.gradeAF then 512 else 256
def nAux : Nat := if Config.gradeAF then 64 else 28
def haloOrder : Nat := if Config.gradeAF then 7 else 5
def nHalo : Nat := (haloOrder + 1) * (haloOrder + 1)
def tapBudget : Nat := if Config.gradeAF then 4194304 else 2097152

/-- A column number of the grade (R1, R2). -/
def colOk (c : Nat) : Bool :=
  decide (c < nSpeakers) || (decide (512 ≤ c) && decide (c < 512 + nHalo)) || (decide (576 ≤ c) && decide (c < 576 + nAux))

/-- 32-bit counters count through wrap. -/
def cInc (c : Word) : Word := c + 1
def cAdd (c : Word) (n : Nat) : Word := c + BitVec.ofNat 32 n

/-! Charges of R39. -/

/-- A column bound to domain d, or still ramping out of a binding to it (R107). -/
def colIn (c : Column) (d : Nat) : Bool := c.bind.mode != 0 && c.bind.dom == d

/-- c_d of R39. -/
def colCount (sc : Scene) (d : Nat) : Nat := (sc.cols.filter (fun kv => colIn kv.2 d)).length

/-- Whether an object is charged: enabled, or ramping off (R83). -/
def objCharged (o : Obj) : Bool := o.enabled || o.disable.isSome

/-- Products per sample an object is charged with cd columns in its domain. -/
def objCharge (o : Obj) (cd : Nat) : Nat := if o.sparse && o.sparseRamp.isNone then min 64 cd else cd

/-- Q_d of R39 with the given rate; inSingle charges everything in D0. -/
def domCharge (sc : Scene) (d f : Nat) : Nat :=
  let cd := colCount sc d
  (sc.objs.foldl (fun a kv => if objCharged kv.2 && kv.2.domain == d then a + objCharge kv.2 cd else a) 0) * f

/-- A scene with the bindings that still wait in force: those at the end of an unbind ramp and those of a compiled layout. -/
def pendingBinds (sc : Scene) : Scene :=
  let cols := sc.cols.map (fun kv => (kv.1, match kv.2.unbind with
    | some u => { kv.2 with bind := u.dest }
    | none => kv.2))
  { sc with cols := match sc.job.bind (·.result) with
    | some (l, _) => l.spks.foldl (fun t s => tabMod t s.no (fun x => { x with bind := { mode := 5, dom := l.dom } })) cols
    | none => cols }

/-- R39: the sum over domains within the render capacity. -/
def chargeLimit : Nat := 31457280000

/-- Charge of all domains; in SINGLE_RATE every object and column at 48,000 Hz. -/
def totalCharge (sc : Scene) (single : Bool) (rate : Nat → Nat) : Nat :=
  if single then
    let cd := (sc.cols.filter (fun kv => kv.2.bind.mode != 0)).length
    (sc.objs.foldl (fun a kv => if objCharged kv.2 then a + objCharge kv.2 cd else a) 0) * 48000
  else domCharge sc 0 (rate 0) + domCharge sc 1 (rate 1) + domCharge sc 2 (rate 2)

/-- Bytes of decorrelator state charged to a tile (R154): the groups of 16 objects run on tiles in turn (R137). -/
def decorCharge (sc : Scene) (rate : Nat → Nat) (tile : Nat) : Nat :=
  sc.objs.foldl (fun a kv => if objCharged kv.2 && kv.2.decorr && kv.1 / 16 % 8 == tile then a + 4 * rateM (rate kv.2.domain) * decorSum kv.2.filter else a) 0

/-- R154 holds on every tile. -/
def decorFits (sc : Scene) (rate : Nat → Nat) : Bool := (List.range 8).all (fun t => decide (decorCharge sc rate t ≤ 1572864))

/-! Judging a ramp-start time (R91). -/

inductive Judge where
  | onTime
  | late (blocks : Nat)
  | stale
  | tooFar
  deriving DecidableEq, Repr

/-- R91 for ramp start t, next selection boundary S and rate f. -/
def judge (t S : MT) (f : Nat) : Judge :=
  let d := mtDiff (blockOf t) S
  if (8 * f : Int) < mtDiff t S then .tooFar
  else if 0 ≤ d then .onTime
  else if -(f : Int) ≤ d then .late ((-d).toNat / 16)
  else .stale

/-! The metadata queue. -/

/-- Fields of an update that its mask sets, over a record (R85, R93). -/
def setFields (mask : Nat) (v r : ObjRec) : ObjRec :=
  let r := if bit mask 0 then { r with x := v.x, y := v.y, z := v.z } else r
  let r := if bit mask 1 then { r with angular := v.angular, width := v.width, height := v.height, depth := v.depth } else r
  let r := if bit mask 2 then { r with gain := v.gain } else r
  let r := if bit mask 3 then { r with mute := v.mute } else r
  let r := if bit mask 4 then { r with diffuse := v.diffuse } else r
  let r := if bit mask 5 then { r with priority := v.priority } else r
  if bit mask 6 then { r with rampUs := v.rampUs } else r

/-- Merge of a newer entry into an older one: the newer fields win, masks are ORed (R93). -/
def mergeEntry (old new : MetaEntry) : MetaEntry :=
  { old with
      mask := old.mask ||| new.mask,
      vals := { setFields new.mask new.vals old.vals with jump := if new.upd then new.vals.jump else old.vals.jump },
      route := match new.route, old.route with
        | none, r => r
        | some n, none => some n
        | some n, some o =>
          some { mode := if n.mode = 0 then o.mode else n.mode, clear := o.clear || n.clear,
                 sends := (if n.clear then [] else o.sends) ++ n.sends },
      rampUs := if new.rampUs.isSome then new.rampUs else if bit new.mask 6 then none else old.rampUs,
      upd := old.upd || new.upd,
      jumps := new.jumps,
      t := new.t,
      late := new.late,
      hold := new.hold }

/-- The capacity of the metadata queue (R90). -/
def metaCap : Nat := 4096
/-- Free entries of the metadata queue. -/
def metaFree (sc : Scene) : Nat := metaCap - sc.queue.length

/-- Domain counters changed. -/
def metaMod (sc : Scene) (d : Nat) (f : MetaCnt → MetaCnt) : Scene := { sc with metaCnt := tabMod sc.metaCnt d f }
def cntMod (sc : Scene) (d : Nat) (f : SceneCnt → SceneCnt) : Scene := { sc with cnt := tabMod sc.cnt d f }
def objMod (sc : Scene) (o : Nat) (f : Obj → Obj) : Scene := { sc with objs := tabMod sc.objs o f }
def getObj (sc : Scene) (o : Nat) : Obj := tabGet sc.objs o
def getCol (sc : Scene) (c : Nat) : Column := tabGet sc.cols c

/-- Replacement of the first element that satisfies p. -/
def replaceFirst {α : Type} (p : α → Bool) (f : α → α) : List α → List α
  | [] => []
  | a :: t => if p a then f a :: t else a :: replaceFirst p f t

/-- META_LATE counts an entry with ramp start t (R91, R92, R96). -/
def countLate (t : MT) (c : MetaCnt) : MetaCnt :=
  { c with late := cInc c.late, evFirst := if c.late = c.baseLate then t else c.evFirst }

/-- An accepted entry enters the queue, and one judged late is counted, once for the entry that holds it (R91, R93, R95); none
where the queue refuses it. -/
def enqueueMeta (sc : Scene) (e : MetaEntry) : Option Scene :=
  let same (q : MetaEntry) : Bool := q.obj == e.obj && q.t == e.t
  let note (counted : Bool) (c : MetaCnt) : MetaCnt := if e.late && !counted then countLate e.t c else c
  if sc.queue.any same then
    some (metaMod { sc with queue := replaceFirst same (fun q => { mergeEntry q e with late := q.late || e.late }) sc.queue } e.dom
      (fun c => note (sc.queue.any (fun q => same q && q.late)) { c with coalesced := cInc c.coalesced }))
  else if sc.queue.length < metaCap then some (metaMod { sc with queue := sc.queue ++ [e] } e.dom (note false))
  else
    -- R95: the latest entry of the same object with a t not later than the arriving t
    let cands := sc.queue.filter (fun q => q.obj == e.obj && mtGe e.t q.t)
    match cands with
    | [] => none
    | c :: cs =>
      let last := cs.foldl (fun a q => if mtGe q.t a.t then q else a) c
      let queue := sc.queue.eraseP (fun q => q == last)
      some (metaMod { sc with queue := queue ++ [{ mergeEntry last e with dom := e.dom }] } e.dom
        (fun c => note last.late { c with coalesced := cInc c.coalesced }))

/-! Entries. -/

/-- A ramp changed at selection S: several changes at one boundary ramp once from the gain in force (R132). -/
def rampAtSel (r : Ramp) (v : Int) (t : MT) (n : Nat) (S : MT) : Ramp :=
  if r.cur.n ≠ 0 ∧ mtGe r.cur.t S = true then
    { cur := { v0 := segAt r.old (t - 1), v1 := v, t := t, n := n }, old := r.old, old2 := r.old2 }
  else rampTo r v t n

/-- G_obj of R122. -/
def gObj (o : Obj) (floor : Nat) : Int := if o.st.mute || decide (o.st.priority < floor) then 0 else cdbGain o.st.gain

/-- A column open to new targets: bound to the domain and not in an unbind ramp (R107). -/
def colOpen (c : Column) (d : Nat) : Bool := colIn c d && c.unbind.isNone

/-- Whether the object is panned by the committed layout. -/
def panLayout (sc : Scene) (o : Obj) : Option Layout :=
  if o.direct then none else
    match sc.layout with
    | some l => if l.dom = o.domain then some l else none
    | none => none

/-- The 64 largest of a list of nonzero targets, ties to the lower column (R127). -/
def largest64 (ts : List (Nat × Int)) : List (Nat × Int) :=
  (sortBy (fun a b => decide (b.2 < a.2) || (a.2 == b.2 && decide (a.1 < b.1))) ts).take 64

/-- Result of a re-pan's arithmetic. -/
structure Targets where
  ents : List (Nat × Int)
  cdir : Int
  cdec : Int
  clamps : Nat
  truncated : Bool
  deriving DecidableEq, Repr

/-- Signed Q4.28 saturation of HALO targets (R122). -/
def haloSat (v : Int) : Int × Nat := (clampI (-2147483648) 2147483647 v, if v < -2147483648 ∨ 2147483647 < v then 1 else 0)

/-- Every target of an object as it stands (R116–R122, R127, R130, R134). -/
def objTargets (sc : Scene) (o : Obj) : Targets :=
  let G := gObj o (tabGet sc.floors o.domain)
  let cOpen (c : Nat) : Bool := colOpen (getCol sc c) o.domain
  let sends : List (Nat × Int) := (o.sends.filter (fun s => cOpen (576 + s.1) && (getCol sc (576 + s.1)).bind.mode == 2)).map
    (fun s => (576 + s.1, gainMul (cdbGain s.2) G))
  match panLayout sc o with
  | some l =>
    let c := panCtx o.st l.rIn
    let spk := (speakerGains l.mesh c).filter (fun g => cOpen g.1)
    let emi := (List.range 4).flatMap (fun g => (emissionGains (tabGet sc.groups g) c).filter
      (fun p => cOpen p.1 && (getCol sc p.1).bind.mode == 3 && (getCol sc p.1).compiled))
    let halo := if !o.sparse && (getCol sc 512).bind.mode == 4
      then ((haloCoefs haloOrder c).zipIdx.map (fun p => (512 + p.2, haloSat (gainScale p.1 G)))).filter
        (fun p => cOpen p.1 && (getCol sc p.1).bind.mode == 4) else []
    let mw := mixWeights o.decorr c.psi
    let aux := emi.map (fun g => (g.1, gainScale g.2 G)) ++ sends
    let all : List (Nat × Int) := spk.map (fun g => (g.1, gainScale g.2 G)) ++ aux
    let nz : List (Nat × Int) := all.filter (fun p => p.2 != 0)
    let clamps := halo.foldl (fun a h => a + h.2.2) 0
    if o.sparse ∧ 64 < nz.length then
      let keep := (largest64 nz).map Prod.fst
      let kept := spk.filter (fun g => keep.contains g.1)
      let gs := gainNormalise (kept.map Prod.snd)
      { ents := (kept.zip gs).map (fun p => (p.1.1, gainScale p.2 G)) ++ aux.filter (fun p => keep.contains p.1),
        cdir := mw.1, cdec := mw.2, clamps := clamps, truncated := true }
    else { ents := all ++ halo.map (fun h => (h.1, h.2.1)), cdir := mw.1, cdec := mw.2, clamps := clamps, truncated := false }
  | none =>
    let psi := f32Div (f32OfInt o.st.diffuse) (f32OfInt 32767)
    let mw := mixWeights o.decorr psi
    let dir : List (Nat × Int) := (o.directs.filter (fun g => cOpen g.1)).map (fun g => (g.1, gainMul (g.2 : Int) G))
    let all := dir ++ sends
    let nz : List (Nat × Int) := all.filter (fun p => p.2 != 0)
    if o.sparse ∧ 64 < nz.length then
      { ents := largest64 nz, cdir := mw.1, cdec := mw.2, clamps := 0, truncated := true }
    else { ents := all, cdir := mw.1, cdec := mw.2, clamps := 0, truncated := false }

/-- Target of column c in a list, 0 where it is not named. -/
def targetOf (ts : List (Nat × Int)) (c : Nat) : Int := ((ts.find? (fun p => p.1 == c)).map Prod.snd).getD 0

/-- Columns named by entries or targets. -/
def entCols (ents : Tab Ramp) (ts : List (Nat × Int)) : List Nat := ((ents.map Prod.fst) ++ (ts.map Prod.fst)).eraseDups

/-- Entries ramped to targets from t over n; frozen columns (in an unbind ramp) keep their ramps; onlyChanged leaves
entries whose end value does not change. -/
def rampEnts (ents : Tab Ramp) (ts : List (Nat × Int)) (frozen : Nat → Bool) (onlyChanged : Bool) (t : MT) (n : Nat)
    (S : MT) : Tab Ramp :=
  (entCols ents ts).foldl
    (fun acc c =>
      let r := tabGet acc c
      let v := targetOf ts c
      if frozen c then acc
      else if r.cur.n = 0 ∧ r.cur.v1 = v then acc
      else if onlyChanged ∧ r.cur.v1 = v then acc
      else tabSet acc c (rampAtSel r v t n S)) ents

/-- Nonzero columns in force: carrying a gain at sample k or later. -/
def liveCols (ents : Tab Ramp) (k : MT) : List Nat :=
  (ents.filter (fun e => rampAt e.2 k ≠ 0 || e.2.cur.v1 ≠ 0 || rampRuns e.2 k)).map Prod.fst

/-- Excess columns e of a transition (R128). -/
def excess (ents : Tab Ramp) (ts : List (Nat × Int)) (k : MT) : Nat :=
  let live := liveCols ents k
  let tgt := (ts.filter (fun p => p.2 ≠ 0)).map Prod.fst
  (live ++ tgt).eraseDups.length - 64

/-- Late handling of a start and length (R94): start, length. -/
def lateStart (t S : MT) (n : Nat) (jump late : Bool) : MT × Nat :=
  if !late then (t, n)
  else if jump then (S, 16)
  else
    let left := mtDiff (t + BitVec.ofNat 32 n) S
    if 32 ≤ left then (S, left.toNat) else (S, 32)

/-- Crossfade reserve X_d of R128. -/
def xReserve (qd f q : Nat) : Nat := if q = 0 ∨ f = 0 then 0 else 8000000000 * 16 * qd / (f * q)

/-- What a selection needs of its domain. -/
structure SelCtx where
  d : Nat
  S : MT
  f : Nat
  allot : Nat
  reserve : Nat
  /-- Firmware runs, so that EV_LATE_META can be raised (R520). -/
  report : Bool
  deriving DecidableEq, Repr

/-- A due item: an entry, or a layout request. -/
structure Due where
  entry : MetaEntry
  layout : Bool
  n : Nat
  deriving DecidableEq, Repr

/-- Lane-cycles in flight in a domain, other than object o's (R129). -/
def inFlight (sc : Scene) (d o : Nat) : Nat :=
  sc.objs.foldl (fun a kv => if kv.1 ≠ o ∧ kv.2.domain = d then a + (match kv.2.trans with | some t => t.cost | none => 0) else a) 0

/-- Targets applied to an object's entries and mix weights. -/
def applyTargets (sc : Scene) (no : Nat) (ts : List (Nat × Int)) (mix : Option (Int × Int)) (onlyChanged : Bool)
    (t : MT) (n : Nat) (S : MT) : Scene :=
  objMod sc no (fun o =>
    { o with
        ents := rampEnts o.ents ts (fun c => (getCol sc c).unbind.isSome) onlyChanged t n S,
        cdir := match mix with | some m => rampAtSel o.cdir m.1 t n S | none => o.cdir,
        cdec := match mix with | some m => rampAtSel o.cdec m.2 t n S | none => o.cdec,
        rampEnd := some (t + BitVec.ofNat 32 n) })

/-- A move as it is made at S: one whose start has passed starts there (R94, R129). -/
def moveAt (S : MT) (m : Move) : Move :=
  let tn := lateStart m.t S m.n m.jump (decide (mtDiff m.t S < 0))
  { m with t := tn.1, n := tn.2 }

/-- The mix weights that a transition still has to set. -/
def mixOf (p : Option Deferred) : Option (Int × Int) := (p.bind (fun p => (p.moves.filterMap (·.mix)).getLast?))

/-- A transition judged against the reserve (R129): made, or deferred. -/
def admitOne (cx : SelCtx) (sc : Scene) (no : Nat) (p : Deferred) : Scene :=
  let o := getObj sc no
  let ms := p.moves.map (moveAt cx.S)
  let make (sc : Scene) : Scene :=
    objMod (ms.foldl (fun sc m => applyTargets sc no m.targets m.mix m.only m.t m.n cx.S) sc) no (fun o => { o with deferred := none })
  match ms.head?, ms.getLast? with
  | some m, some l =>
    if !o.sparse || o.sparseRamp.isSome then make sc
    else
      let e := excess o.ents l.targets (m.t - 1)
      if inFlight sc cx.d no + e * 16 ≤ cx.reserve then
        objMod (make sc) no (fun o => { o with trans := if e = 0 then none else some { cost := e * 16, stop := l.t + BitVec.ofNat 32 l.n } })
      else cntMod sc cx.d (fun c => { c with xfadeDeferred := cInc c.xfadeDeferred })
  | _, _ => make sc

/-- Route changes of an entry over an object (R131, R132). -/
def applyRoute (o : Obj) (r : Route) : Obj :=
  let sends := (if r.clear then [] else o.sends)
  let sends := r.sends.foldl (fun s x => if x.level ≤ -14400 then s.filter (fun p => p.1 != x.bus) else tabSet s x.bus x.level) sends
  let o := { o with sends := sends }
  match r.mode with
  | 1 => { o with direct := false, directs := [] }
  | 2 => if o.direct then o else { o with direct := true, directs := [] }
  | _ => o

/-- Order of R92 between due items: t, then object; queue order is kept by the stable sort. -/
def dueLt (S : MT) (a b : Due) : Bool :=
  let x := mtDiff a.entry.t S
  let y := mtDiff b.entry.t S
  decide (x < y) || (x == y && decide (a.entry.obj < b.entry.obj))

/-- Whether an entry is served late at S: flagged at acceptance, or carried over (R92). -/
def servedLate (e : MetaEntry) (S : MT) : Bool := e.late || decide (mtDiff (blockOf e.t) S < 0)

/-- DELAY_CLAMP and DOPPLER_LIMIT count a retarget; one that it replaces at the same boundary has not been made (R149, R159). -/
def countPath (c : SceneCnt) (undone : Option (Bool × Bool)) (made : Bool × Bool) : SceneCnt :=
  let u := undone.getD (false, false)
  { c with
    delayClamp := cAdd c.delayClamp (b2n made.1) - BitVec.ofNat 32 (b2n u.1)
    doppler := cAdd c.doppler (b2n made.2) - BitVec.ofNat 32 (b2n u.2) }

/-- One served group (R93, R94): the record, the re-pan, the notice to the object path. -/
def serveGroup (cx : SelCtx) (sc : Scene) (no : Nat) (grp : List Due) : Scene :=
  match grp.reverse with
  | [] => sc
  | g0 :: gs =>
    -- e*: the latest t, ties to the latest in queue order
    let es := gs.foldl (fun a g => if 0 < mtDiff g.entry.t a.entry.t then g else a) g0
    let o := getObj sc no
    let st := grp.foldl (fun r g =>
      let r := setFields g.entry.mask g.entry.vals r
      if g.entry.upd then { r with jump := g.entry.vals.jump } else r) o.st
    let jump := !es.layout && es.entry.jumps
    let o' := grp.foldl (fun o g => match g.entry.route with | some r => applyRoute o r | none => o) { o with st := st, layoutReq := none }
    let n := if es.layout then es.n else if jump then 16
      else rampLen ((es.entry.rampUs).getD st.rampUs) cx.f
    let late := if es.layout then decide (mtDiff es.entry.t cx.S < 0) else servedLate es.entry cx.S
    let tn := lateStart es.entry.t cx.S n jump late
    let lates := grp.filter (fun g => !g.layout && servedLate g.entry cx.S)
    let merges := (grp.filter (fun g => !g.layout)).length - 1
    let sc := objMod sc no (fun _ => { o' with lateCount := cAdd o'.lateCount lates.length })
    -- an entry judged late at acceptance has been counted then (R91); one carried over is counted where it is served (R92)
    let sc := metaMod sc cx.d (fun c =>
      let c := (lates.filter (fun g => !g.entry.late)).foldl (fun c g => countLate g.entry.t c) c
      { c with
        coalesced := cAdd c.coalesced merges, evLate := c.evLate + lates.length,
        evMax := max c.evMax (lates.foldl (fun m g => max m ((-(mtDiff (blockOf g.entry.t) cx.S)).toNat / 16)) 0) })
    let tg := objTargets sc (getObj sc no)
    let sc := { sc with sparseTrunc := if tg.truncated then cInc sc.sparseTrunc else sc.sparseTrunc,
                        haloClamp := cAdd sc.haloClamp tg.clamps }
    let o := getObj sc no
    let un := (o.path.counted.filter (fun c => c.1 == cx.S)).map Prod.snd
    let pr := pathRetarget (pathUndo o.path cx.S) o.pathCfg (distQ o.st) (refDist o.pathCfg sc.layout o.domain) cx.f tn.1 tn.2 jump
    let stop := tn.1 + BitVec.ofNat 32 tn.2
    let sc := if grp.any (·.layout) then { sc with layoutEnd := some (match sc.layoutEnd with
      | some e => if mtLater stop e then stop else e
      | none => stop) } else sc
    let sc := cntMod (objMod sc no (fun o => { o with path := pr.1 })) cx.d (fun c => countPath c un pr.2)
    -- the transition is admitted in R129 order below; the newest targets replace those of one that waits
    let m : Move := { t := tn.1, n := tn.2, jump := jump, targets := tg.ents, mix := some (tg.cdir, tg.cdec) }
    objMod sc no (fun o => { o with deferred := some { key := es.entry.t, moves := [m] } })

/-- An entry of block B is due at S, and on a pair its apply boundary has come (R92, R379). -/
def entryDue (t : MT) (hold : Option MT) (S : MT) : Bool :=
  decide (mtDiff (blockOf t) S ≤ 0) && (match hold with | some h => mtGe S h | none => true)

/-- Due items of a domain at S in R92 order: layout requests precede updates of the same object and t (R114). -/
def dueItems (cx : SelCtx) (sc : Scene) : List Due :=
  let reqs := (sc.objs.filter (fun kv => kv.2.enabled && kv.2.domain == cx.d)).filterMap (fun kv => match kv.2.layoutReq with
    | some (t, n) => some { entry := { obj := kv.1, dom := cx.d, t := t, mask := 0, vals := {}, route := none, rampUs := none, late := false }, layout := true, n := n }
    | none => none)
  let es := (sc.queue.filter (fun e => e.dom == cx.d && entryDue e.t e.hold cx.S)).map
    (fun e => { entry := e, layout := false, n := 0 })
  sortBy (dueLt cx.S) (reqs ++ es)

/-- Objects of due items in order of their first item. -/
def dueObjects (ds : List Due) : List Nat := (ds.map (·.entry.obj)).eraseDups

/-- The transitions of the domain admitted or deferred in R129 order: earliest t, then object. -/
def admitAll (cx : SelCtx) (sc : Scene) : Scene :=
  let pend := (sc.objs.filter (fun kv => kv.2.domain == cx.d)).filterMap (fun kv => kv.2.deferred.map (fun p => (kv.1, p)))
  let order := sortBy (fun a b => let x := mtDiff a.2.key cx.S; let y := mtDiff b.2.key cx.S
    decide (x < y) || (x == y && decide (a.1 < b.1))) pend
  order.foldl (fun sc p => admitOne cx sc p.1 p.2) sc

/-- Direct-queue writes due at S, in order of t, object, queue order (R134). -/
def dueDirect (cx : SelCtx) (sc : Scene) : List DirectEntry :=
  sortBy (fun a b => let x := mtDiff a.t cx.S; let y := mtDiff b.t cx.S
    decide (x < y) || (x == y && decide (a.obj < b.obj)))
    (sc.directQ.filter (fun e => e.dom == cx.d && entryDue e.t e.hold cx.S))

/-- One direct write applied, or discarded where its object is PANNED (R134): a move after those that this boundary has given the object,
or in the place of those that wait from earlier ones. -/
def applyDirect (cx : SelCtx) (fresh : Bool) (sc : Scene) (e : DirectEntry) : Scene :=
  let o := getObj sc e.obj
  if !o.direct then { sc with directDiscard := cInc sc.directDiscard }
  else
    let dirs := (if e.clear then [] else o.directs)
    let dirs := e.cols.foldl (fun s p => if p.2 ≤ -14400 then s.filter (fun q => q.1 != p.1) else tabSet s p.1 (cdbGain p.2).toNat) dirs
    let sc := objMod sc e.obj (fun o => { o with directs := dirs })
    let tg := objTargets sc (getObj sc e.obj)
    let sc := if tg.truncated then { sc with sparseTrunc := cInc sc.sparseTrunc } else sc
    let late := e.late || decide (mtDiff (blockOf e.t) cx.S < 0)
    let tn := lateStart e.t cx.S (rampLen e.rampUs cx.f) false late
    let m : Move := { t := tn.1, n := tn.2, targets := tg.ents, only := true }
    objMod sc e.obj (fun o => { o with deferred := some (match o.deferred with
      | some p =>
        if fresh then { key := if mtLater p.key e.t then e.t else p.key, moves := p.moves ++ [m] }
        else { key := e.t, moves := [{ m with mix := mixOf (some p), only := p.moves.all (·.only) }] }
      | none => { key := e.t, moves := [m] }) })

/-- The direct writes of a boundary; objects is what it has served so far. -/
def applyDirects (cx : SelCtx) : List Nat → Scene → List DirectEntry → Scene
  | _, sc, [] => sc
  | objs, sc, e :: es => applyDirects cx (e.obj :: objs) (applyDirect cx (objs.contains e.obj) sc e) es

/-- EV_LATE_META is due (R96): META_LATE has changed, this selection neither found due updates that the one before left unserved nor
leaves any (log entry 101) or has waited for 1,000 blocks, and 1,000 blocks have passed since the last event. -/
def lateMetaDue (c : MetaCnt) (carried : Bool) : Bool :=
  c.late != c.baseLate && (!carried || decide (1000 ≤ c.waited.getD 0)) && c.rest == 0

/-- The blocks that EV_LATE_META waits for, one further. -/
def lateMetaTick (c : MetaCnt) : MetaCnt :=
  { c with rest := c.rest - 1, waited := if c.late = c.baseLate then none else some (match c.waited with | some k => min 1000 (k + 1) | none => 0) }

/-- Payload of EV_LATE_META (R97). -/
def lateMetaPayload (d : Nat) (c : MetaCnt) (b : MT) : List Byte :=
  p8 d ++ zeros 1 ++ p16 (min c.evMax 65535) ++ p32 c.evLate ++ p32 (c.coalesced - c.baseCoalesced).toNat ++
    p32 (c.dropped - c.baseDropped).toNat ++ p32 (c.stale - c.baseStale).toNat ++ p32 c.evFirst.toNat ++ p32 b.toNat

/-- EV_LATE_META raised: its summary begins anew. -/
def lateMetaSent (c : MetaCnt) : MetaCnt :=
  { c with evLate := 0, evMax := 0, waited := none, rest := 1000, baseLate := c.late, baseCoalesced := c.coalesced, baseDropped := c.dropped, baseStale := c.stale }

/-- The selection of a domain at boundary S (R90–R97, R114, R129, R134): scene, and an EV_LATE_META payload. -/
def select (cx : SelCtx) (sc : Scene) : Scene × Option (List Byte) :=
  let due := dueItems cx sc
  let objs := (dueObjects due).take cx.allot
  let sc := { sc with queue := sc.queue.filter (fun e =>
    !(e.dom == cx.d && entryDue e.t e.hold cx.S && objs.contains e.obj)) }
  let sc := objs.foldl (fun sc no => serveGroup cx sc no (due.filter (fun g => g.entry.obj == no))) sc
  let sc := cntMod sc cx.d (fun c => { c with repanUsed := BitVec.ofNat 32 objs.length })
  let dd := dueDirect cx sc
  let sc := { sc with directQ := sc.directQ.filter (fun e => !(dd.contains e)) }
  let sc := admitAll cx (applyDirects cx objs sc dd)
  let sc := cntMod sc cx.d (fun c => { c with xfadeUse := BitVec.ofNat 32 (inFlight sc cx.d 65536) })
  let left := decide (objs.length < (dueObjects due).length)
  let carried := left || (tabGet sc.metaCnt cx.d).carried
  let sc := metaMod sc cx.d (fun c => lateMetaTick { c with carried := left })
  let c := tabGet sc.metaCnt cx.d
  if cx.report && lateMetaDue c carried then
    (metaMod sc cx.d lateMetaSent,
     some (lateMetaPayload cx.d c cx.S))
  else (sc, none)

/-! Boundary housekeeping and discards. -/

/-- Boundary b: ramps that ended before the block to be rendered settle; finished transitions release their slots; zero entries
leave the row. -/
def settleObj (b : MT) (o : Obj) : Obj :=
  { o with
      ents := (o.ents.map (fun e => (e.1, rampSettle e.2 (b - 16)))).filter (fun e => !(e.2.cur.n == 0 && e.2.cur.v1 == 0)),
      cdir := rampSettle o.cdir (b - 16), cdec := rampSettle o.cdec (b - 16),
      trans := match o.trans with
        | some t => if mtGe b t.stop then none else some t
        | none => none,
      rampEnd := match o.rampEnd with
        | some e => if mtGe b e then none else some e
        | none => none,
      srcFade := fadesLive (b - 16) o.srcFade,
      sparseRamp := match o.sparseRamp with
        | some e => if mtGe b e then none else some e
        | none => none }

/-- Queued updates and direct writes of objects p chooses, discarded and counted (R83, R99, R134). -/
def discardQueued (sc : Scene) (p : Nat → Nat → Bool) : Scene :=
  let drop := sc.queue.filter (fun e => p e.obj e.dom)
  let sc := drop.foldl (fun sc e => metaMod sc e.dom (fun c => { c with dropped := cInc c.dropped })) sc
  let dd := sc.directQ.filter (fun e => p e.obj e.dom)
  { sc with queue := sc.queue.filter (fun e => !(p e.obj e.dom)), directQ := sc.directQ.filter (fun e => !(p e.obj e.dom)),
            directDiscard := cAdd sc.directDiscard dd.length }

/-- After a realignment (R99): queued updates judged again against the first selection boundary after lock.  One that lies more than 8 × f
after it stays queued, for R99 discards only stale ones (DESIGN CHOICE, log entry 113). -/
def rejudgeQueue (sc : Scene) (d : Nat) (S : MT) (f : Nat) : Scene :=
  let bad (e : MetaEntry) : Bool := e.dom == d && (match judge e.t S f with | .stale => true | _ => false)
  let late (e : MetaEntry) : Bool := match judge e.t S f with | .late _ => true | _ => false
  let n := (sc.queue.filter bad).length
  let new := sc.queue.filter (fun e => e.dom == d && !bad e && late e && !e.late)
  metaMod { sc with queue := (sc.queue.filter (fun e => !bad e)).map (fun e =>
      if e.dom = d then { e with late := late e } else e) } d
    (fun c => new.foldl (fun c e => countLate e.t c) { c with stale := cAdd c.stale n })

/-- Entries and mix weights of a domain's objects at their end values (R64, R136); the paths end and clear (R157). -/
def realignObj (o : Obj) : Obj :=
  { o with ents := o.ents.map (fun e => (e.1, rampEndNow e.2)), cdir := rampEndNow o.cdir, cdec := rampEndNow o.cdec,
           rampEnd := none, trans := none, srcFade := [], sparseRamp := none, path := pathEndNow o.path }

/-- The object path without sample state, every quantity at its target; a decorrelator that is in use is held at zero (R157, R521). -/
def objPathAtOnce (sc : Scene) (f : Nat) (o : Obj) : PathState :=
  { pathAtOnce (pathClear o.path) o.pathCfg (distQ o.st) (refDist o.pathCfg sc.layout o.domain) f with
      decor := if o.decorr then some { filter := o.filter } else none }

/-- Every rendered quantity of an object takes its target at once (R521). -/
def objAtOnce (sc : Scene) (f : Nat) (o : Obj) : Obj :=
  let tg := objTargets sc o
  { o with ents := tg.ents.filter (fun p => p.2 ≠ 0) |>.foldl (fun t p => tabSet t p.1 (rampHold p.2)) [],
           cdir := rampHold tg.cdir, cdec := rampHold tg.cdec, rampEnd := none, trans := none, deferred := none,
           srcFade := [], sparseRamp := none, layoutReq := none,
           path := objPathAtOnce sc f o }

/-- An object whose domain locks again after a realignment (R136, R157): its entries stand at their end values, and transitions and
re-pan requests that wait are served at the selections to come. -/
def objRelocked (sc : Scene) (f : Nat) (o : Obj) : Obj := { o with path := objPathAtOnce sc f o }

/-- Default record on enabling (R80). -/
def enabledRec (defRamp : Nat) : ObjRec := { rampUs := defRamp }

/-- OBJ_QUERY reply body (R89, R158) at the last boundary b of the domain n that the object is rendered in. -/
def objQueryBody (sc : Scene) (no n : Nat) (b : MT) : List Byte :=
  let o := getObj sc no
  let left := match o.rampEnd with
    | some e => (mtDiff e b).toNat
    | none => 0
  p8 (b2n o.enabled + 2 * b2n o.st.mute + 4 * b2n o.st.jump + 8 * b2n (decide (0 < left)) + 16 * b2n o.sparse +
      32 * b2n (decide (o.st.priority < tabGet sc.floors n)) + 64 * b2n o.st.angular) ++
    p8 o.st.priority ++ p8 o.domain ++ p32 b.toNat ++ s32 o.st.x ++ s32 o.st.y ++ s32 o.st.z ++
    s32 o.st.width ++ s32 o.st.height ++ s32 o.st.depth ++ s16 o.st.gain ++ p16 o.st.diffuse ++
    p16 (sc.queue.filter (fun e => e.obj == no)).length ++ zeros 2 ++ p32 left ++ p32 o.lateCount.toNat ++
    s32 (delayAt o.path b) ++ s32 (rampAt o.path.gdist b)

end Sys2Proof.Machine
end

