-- ==== Sys2Proof/Machine/SpkChain.lean ====
section
/-! DEFINITION. The speaker chain of R160–R187: bass management, EQ, alignment delay, dynamics and the output stage. -/

namespace Sys2Proof.Machine

/-- COL0–COL511 and COL576–COL639 of the grade carry the chain (R160). -/
def chainCol (c : Nat) : Bool := decide (c < nSpeakers) || (decide (576 ≤ c) && decide (c < 576 + nAux))

/-! Sections (R168, R169). -/

/-- Saturation to Q5.27, whose codes are those of 32 bits. -/
def sat527 (v : Int) : Int × Nat := satClip v

/-- One section. -/
def bqStep (c : Coef) (s : Bq) (x : Int) : Int × Bq × Nat :=
  let y := satClip (shrRne (c.b0 * x + c.b1 * s.x1 + c.b2 * s.x2 - c.a1 * s.y1 - c.a2 * s.y2) 27)
  (y.1, { x1 := x, x2 := s.x1, y1 := y.1, y2 := s.y1 }, y.2)

def f32Exp2 (a : F32) : F32 := f32 (qPow2 (f32Val a))
def f32Log2 (a : F32) : F32 := f32 (qLog2 (f32Val a))

/-- A coefficient ratio in Q5.27; none outside its range. -/
def coefQ (v a0 : F32) : Option Int :=
  let c := qRne (qMul (f32Val (f32Div v a0)) (qOfInt (2 ^ 27)))
  if clips31 c then none else some c

/-- Coefficients of a band type with frequency in mHz, gain in centi-dB, Q in UQ8.8 (R169). -/
def designCoef (type : Nat) (f0 : Q) (gain : Int) (q : F32) (f : Nat) : Option Coef :=
  let w := f32Div (f32Mul (f32Mul fTwo fPi) (f32 f0)) (f32OfInt f)
  let c := f32Cos w
  let al := f32Div (f32Sin w) (f32Mul fTwo q)
  let A := f32Exp2 (f32Div (f32OfInt gain) (f32 ⟨120412, 100⟩))
  let one := fOneF
  let m2c := f32Mul (f32OfInt (-2)) c
  let ap := f32Add A one
  let am := f32Sub A one
  let sq := f32Mul (f32Mul fTwo (f32Sqrt A)) al
  let mk (b0 b1 b2 a0 a1 a2 : F32) : Option Coef :=
    match coefQ b0 a0, coefQ b1 a0, coefQ b2 a0, coefQ a1 a0, coefQ a2 a0 with
    | some b0, some b1, some b2, some a1, some a2 => some { b0 := b0, b1 := b1, b2 := b2, a1 := a1, a2 := a2 }
    | _, _, _, _, _ => none
  match type with
  | 1 => mk (f32Add one (f32Mul al A)) m2c (f32Sub one (f32Mul al A)) (f32Add one (f32Div al A)) m2c (f32Sub one (f32Div al A))
  | 2 => mk (f32Mul A (f32Add (f32Sub ap (f32Mul am c)) sq)) (f32Mul (f32Mul fTwo A) (f32Sub am (f32Mul ap c)))
            (f32Mul A (f32Sub (f32Sub ap (f32Mul am c)) sq)) (f32Add (f32Add ap (f32Mul am c)) sq)
            (f32Mul (f32OfInt (-2)) (f32Add am (f32Mul ap c))) (f32Sub (f32Add ap (f32Mul am c)) sq)
  | 3 => mk (f32Mul A (f32Add (f32Add ap (f32Mul am c)) sq)) (f32Mul (f32Mul (f32OfInt (-2)) A) (f32Add am (f32Mul ap c)))
            (f32Mul A (f32Sub (f32Add ap (f32Mul am c)) sq)) (f32Add (f32Sub ap (f32Mul am c)) sq)
            (f32Mul fTwo (f32Sub am (f32Mul ap c))) (f32Sub (f32Sub ap (f32Mul am c)) sq)
  | 4 => let h := f32Div (f32Sub one c) fTwo
         mk h (f32Sub one c) h (f32Add one al) m2c (f32Sub one al)
  | 5 => let h := f32Div (f32Add one c) fTwo
         mk h (f32Neg (f32Add one c)) h (f32Add one al) m2c (f32Sub one al)
  | 6 => mk al fZero (f32Neg al) (f32Add one al) m2c (f32Sub one al)
  | 7 => mk one m2c one (f32Add one al) m2c (f32Sub one al)
  | _ => mk (f32Sub one al) m2c (f32Add one al) (f32Add one al) m2c (f32Sub one al)

/-- Frequency at use: at most 0.45 f (R170). -/
def useFreq (f0mHz f : Nat) : Q := qMin ⟨f0mHz, 1000⟩ ⟨45 * f, 100⟩

/-- Section of a band at rate f; none passes unchanged. -/
def bandCoef (b : Band) (f : Nat) : Option Coef :=
  if b.type = 0 then none
  else if b.type = 9 then some b.raw
  else designCoef b.type (useFreq b.f0 f) b.gain (f32 ⟨b.q, 256⟩) f

/-- Whether a band's coefficients exist and lie in range (R169, R170). -/
def bandOk (b : Band) (f : Nat) : Bool :=
  if b.type = 0 then true
  else if b.type = 9 then
    decide ((b.raw.a2.natAbs : Int) < 2 ^ 27) && decide ((b.raw.a1.natAbs : Int) < 2 ^ 27 + b.raw.a2)
  else (designCoef b.type (useFreq b.f0 f) b.gain (f32 ⟨b.q, 256⟩) f).isSome

/-- The 16 sections of a configuration. -/
def eqCoefs (c : ChainCfg) (f : Nat) : List (Option Coef) := (List.range 16).map (fun i => bandCoef (tabGet c.bands i) f)

/-- One sample of an EQ cascade (R168). -/
def eqStep (e : EqPath) (x : Int) : Int × EqPath × Nat :=
  if !e.on then (x, { e with st := [] }, 0)
  else
    let x0 := shrRne x 4
    let r := (List.range 16).foldl
      (fun (acc : Int × List Bq × Nat) i =>
        match e.coefs.getD i none with
        | none => (acc.1, acc.2.1 ++ [{}], acc.2.2)
        | some c =>
          let s := bqStep c (e.st.getD i {}) acc.1
          (s.1, acc.2.1 ++ [s.2.1], acc.2.2 + s.2.2)) (x0, [], 0)
    let y := satClip (r.1 * 16)
    (y.1, { e with st := r.2.1 }, r.2.2 + y.2)

/-! Bass management (R166, R167). -/

/-- Crossover section of an order: LR4 two sections with Q 0.70710678, LR2 one with Q 0.5. -/
def xoverCoef (order : Nat) (lowPass : Bool) (crossover f : Nat) : Coef :=
  (designCoef (if lowPass then 4 else 5) (useFreq crossover f) 0
    (if order = 2 then f32 ⟨70710678, 100000000⟩ else f32 ⟨1, 2⟩) f).getD {}

/-- −x with −2^31 taken as 2^31 − 1. -/
def negSat (x : Int) : Int := if x = q31Min then q31Max else -x

/-- A crossover filter: one or two sections; order 3 and 0 pass unchanged. -/
def xoverStep (order : Nat) (lowPass : Bool) (crossover f : Nat) (s : Bq × Bq) (x : Int) : Int × (Bq × Bq) × Nat :=
  if order = 1 then
    let r := bqStep (xoverCoef 1 lowPass crossover f) s.1 x
    (r.1, (r.2.1, s.2), r.2.2)
  else if order = 2 then
    let c := xoverCoef 2 lowPass crossover f
    let r := bqStep c s.1 x
    let q := bqStep c s.2 r.1
    (q.1, (r.2.1, q.2.1), r.2.2 + q.2.2)
  else (x, s, 0)

/-- One sample of a column's bass stage; xs gives every column's step-1 input. -/
def bassStep (p : BassPath) (f : Nat) (xs : Nat → Int) (c : Nat) : Int × BassPath × Nat :=
  let x := xs c
  let hp : Int × (Bq × Bq) × Nat := match p.role.hp with
    | some (_, order, xo) =>
      let r := xoverStep order false xo f p.hp x
      (if order = 1 then negSat r.1 else r.1, r.2.1, r.2.2 + b2n (order = 1 ∧ r.1 = q31Min))
    | none => (x, ({}, {}), 0)
  let own : Int × (Bq × Bq) × Nat := match p.role.ownLp with
    | some (_, order, xo) => xoverStep order true xo f p.own x
    | none => (hp.1, ({}, {}), 0)
  let fs := p.role.feeds.foldl
    (fun (acc : Int × Tab (Bq × Bq) × Nat) fd =>
      let s := satClip (shrRne (fd.gain * fd.members.foldl (fun a m => a + xs m) 0) 28)
      let r := xoverStep fd.order true fd.crossover f ((p.feeds.find? (fun q => q.1 == fd.group)).map Prod.snd |>.getD ({}, {})) s.1
      (acc.1 + r.1, tabSet acc.2.1 fd.group r.2.1, acc.2.2 + s.2 + r.2.2)) (own.1, [], 0)
  let y := satClip fs.1
  (y.1, { p with hp := hp.2.1, own := own.2.1, feeds := fs.2.1 }, hp.2.2 + own.2.2 + fs.2.2 + y.2)

/-- What a filter that goes from one order to another keeps: the sections that both run. -/
def xoverKeep (old new : Nat) (s : Bq × Bq) : Bq × Bq :=
  let runs (n o : Nat) : Bool := decide (n ≤ o) && decide (o ≤ 2)
  (if runs 1 old && runs 1 new then s.1 else {}, if runs 2 old && runs 2 new then s.2 else {})

/-- A new bass path that keeps the histories of the filters the old one also ran in the same position for the same group (R167). -/
def bassMove (old : BassPath) (role : BassRole) : BassPath :=
  let keep (a b : Option (Nat × Nat × Nat)) (s : Bq × Bq) : Bq × Bq := match a, b with
    | some (g, o, _), some (g', o', _) => if g = g' then xoverKeep o o' s else ({}, {})
    | _, _ => ({}, {})
  { role := role, hp := keep old.role.hp role.hp old.hp, own := keep old.role.ownLp role.ownLp old.own,
    feeds := role.feeds.filterMap (fun fd => match old.role.feeds.find? (fun o => o.group == fd.group), old.feeds.find? (fun s => s.1 == fd.group) with
      | some o, some s => some (fd.group, xoverKeep o.order fd.order s.2)
      | _, _ => none) }

/-! Dynamics (R174–R178). -/

def f32Us (us : Nat) : F32 := f32 ⟨us, 1000000⟩
def negLog2e : F32 := f32 ⟨-1442695, 1000000⟩
/-- exp2(−1.442695 / (τ × f)). -/
def smoothCoef (us f : Nat) : F32 := f32Exp2 (f32Div negLog2e (f32Mul (f32Us us) (f32OfInt f)))
def db602 : F32 := f32 ⟨60206, 10000⟩
/-- lev(e) of R174. -/
def lev (e : F32) : F32 := f32Mul db602 (f32Log2 (f32Max e (f32 (qPow2Neg 31))))
def q31F (x : Int) : F32 := f32 ⟨x, 2147483648⟩

/-- h(τ) of the true-peak interpolator with τ = num/4 (R175), in binary64. -/
def tpH (num : Int) : Q :=
  if num = 0 then ⟨1, 1⟩
  else if 24 ≤ num.natAbs then ⟨0, 1⟩
  else
    let tau := fxOfQ ⟨num, 4⟩
    let s := fxDiv (fxCosSin (fxMul fxPi tau)).2 (fxMul fxPi tau)
    let r := fxSqrt (fxOne - fxMul tau tau / 36)
    f64 (fxToQ (fxMul s (fxDiv (fxBesselI0 (7 * r)) (fxBesselI0 (7 * fxOne)))))
/-- h[p][i], Q2.30. -/
def tpC (p i : Nat) : Int :=
  let h (j : Nat) : Q := tpH (((j : Int) - 6) * 4 + p)
  let sum := (List.range 12).foldl (fun a j => f64 (qAdd a (h j))) ⟨0, 1⟩
  qRne (qDiv (qMul (qOfInt (2 ^ 30)) (h i)) sum)

/-- Peak level from the detector-tap samples, newest first (R174, R175). -/
def peakOf (tp : Bool) (us : List Int) : F32 :=
  if !tp then f32 ⟨((us.headD 0).natAbs : Int), 2147483648⟩
  else
    (List.range 4).foldl (fun m p =>
      let v := (List.range 12).foldl (fun s i => s + tpC p i * us.getD (11 - i) 0) 0
      f32Max m (f32 ⟨(v.natAbs : Int), 2 ^ 61⟩)) fZero

/-- Static curve of R176; invR is 1/R. -/
def curve (x T W invR : F32) : F32 :=
  let dx := f32Mul fTwo (f32Sub x T)
  let k := f32Sub invR fOneF
  if f32Lt dx (f32Neg W) then fZero
  else if f32Lt W dx then f32Mul k (f32Sub x T)
  else if W = 0 then (if f32Lt fZero dx then f32Mul k (f32Sub x T) else fZero)
  else
    let y := f32Add (f32Sub x T) (f32Div W fTwo)
    f32Div (f32Mul k (f32Mul y y)) (f32Mul fTwo W)

/-- Smoothing of R177. -/
def smooth (aA aR g c : F32) : F32 :=
  let a := if f32Lt c g then aA else aR
  f32Add (f32Mul a g) (f32Mul (f32Sub fOneF a) c)

/-- Centi-dB as binary32 dB. -/
def f32Cdb (c : Int) : F32 := f32 ⟨c, 100⟩

/-- Makeup in dB at sample k (R178 step 2). -/
def makeupAt (s : ChainState) (k : MT) : F32 :=
  if s.mkN = 0 then s.mk1 else
    let d := mtDiff k s.mkT
    if d < 0 then s.mk0 else if (s.mkN : Int) ≤ d + 1 then s.mk1
    else f32Add s.mk0 (f32Mul (f32Sub s.mk1 s.mk0) (f32 ⟨d + 1, s.mkN⟩))

/-- round(−100 g) saturating at 65,535 (R180). -/
def grCdb (g : F32) : Nat := clampN 0 65535 (qRne (qMul (f32Val g) (qOfInt (-100)))).toNat

/-- One sample of the dynamics (R174–R178): new state, gain G_dyn. -/
def dynStep (c : DynCfg) (f : Nat) (s : ChainState) (k : MT) : ChainState × Int :=
  let us := (lineAt s.line s.tapDet :: s.tpHist).take 12
  let u := q31F (us.headD 0)
  let epk := peakOf c.truePeak us
  let arms := f32Sub fOneF (smoothCoef (if c.rmsUs = 0 then 10000 else c.rmsUs) f)
  let p := f32Add s.p (f32Mul arms (f32Sub (f32Mul u u) s.p))
  let xC := if c.rms then lev (f32Sqrt p) else lev epk
  let cC := if c.comp then curve xC (f32Cdb c.compT) (f32Cdb c.compW) (f32Div fOneF (f32 ⟨c.compR, 100⟩)) else fZero
  let gC := smooth (smoothCoef c.compA f) (smoothCoef c.compRel f) s.gC cC
  let m := makeupAt s k
  let xL := f32Add (f32Add (lev epk) gC) m
  let cL := if c.lim then curve xL (f32Cdb c.limT) (f32Cdb c.limW) fZero else fZero
  let gL := smooth (smoothCoef c.limA f) (smoothCoef c.limRel f) s.gL cL
  let G := clampI 0 4294967295
    (qRne (qMul (qOfInt unity) (f32Val (f32Exp2 (f32Div (f32Add (f32Add gC m) gL) db602)))))
  ({ s with tpHist := us.take 11, p := p, gC := gC, gL := gL, grC := max s.grC (grCdb gC), grL := max s.grL (grCdb gL) }, G)

/-! The output stage (R182, R183). -/

/-- w_k of R182 over n samples. -/
def cosW (n : Nat) (k : Int) : Int :=
  let a := f32Div (f32Mul fPi (f32OfInt (k + 1))) (f32OfInt n)
  qRne (qMul (qOfInt unity) (f32Val (f32Div (f32Sub fOneF (f32Cos a)) fTwo)))

/-- A raised-cosine ramp at sample k. -/
def cosSegAt (r : Seg) (k : MT) : Int :=
  if r.n = 0 then r.v1 else
    let d := mtDiff k r.t
    if d < 0 then r.v0
    else if (r.n : Int) - 1 ≤ d then r.v1
    else r.v0 + shrRne ((r.v1 - r.v0) * cosW r.n d) 28

def cosAt (r : Ramp) (k : MT) : Int :=
  cosSegAt (segOf r k) k

def cosTo (r : Ramp) (v : Int) (t : MT) (n : Nat) : Ramp :=
  { cur := { v0 := cosAt r (t - 1), v1 := v, t := t, n := n }, old := r.cur, old2 := r.old }

/-- Ramp length of the output stage (R182). -/
def outLen (us f : Nat) : Nat := max 16 (usSamples us f)

/-- The polarity dips of R183 at sample k after polarity inv: the factor, and the polarity that applies. -/
def flipAt (flips : List Flip) (inv : Bool) (k : MT) : Int × Bool :=
  flips.foldl (fun r x =>
    let d := mtDiff k x.t
    if d < 0 then r
    else if d < 16 then (cosSegAt { v0 := x.v0, v1 := 0, t := x.t, n := 16 } k, r.2)
    else (cosSegAt { v0 := 0, v1 := unity, t := x.t + 16, n := 16 } k, x.inv)) (unity, inv)

/-- One sample of the output stage: value and clips. -/
def outStep (c : Chain1) (k : MT) (y : Int) : Int × Nat :=
  let g := shrRne (cosAt c.gout k * cosAt c.mute k) 28
  let z := satClip (shrRne (y * g) 28)
  let fl := flipAt c.flips c.invertNow k
  let z2 := shrRne (z.1 * fl.1) 28
  if fl.2 then (negSat z2, z.2 + (if z2 = q31Min then 1 else 0)) else (z2, z.2)

/-- Steps 4–6 for one sample that MANTLE delivers at k; inj replaces the input of step 6 (R243). -/
def tailStep (c : Chain1) (f : Nat) (k : MT) (x : Int) (inj : Option Int) : Chain1 × Int × Nat :=
  let s := { c.st with line := (x :: c.st.line).take 4097 }
  let aNew := lineAt s.line s.tapAudio
  let a := match s.tapOld with
    | some o => xfade o.n (mtDiff k o.t) (lineAt s.line o.old) aNew
    | none => aNew
  let run := if s.dynOn then some c.inForce.dyn else s.dynOld.bind (·.old)
  let ds := match run with
    | some p => dynStep p f s k
    | none => ({ s with p := 0, gC := 0, gL := 0, tpHist := [] }, unity)
  let wet := if run.isSome then mulGain a ds.2 else (a, 0)
  let y := match s.dynOld with
    | some o => xfade o.n (mtDiff k o.t) (if o.old.isSome then wet.1 else a) (if s.dynOn then wet.1 else a)
    | none => if s.dynOn then wet.1 else a
  let z := outStep c k (inj.getD y)
  ({ c with st := ds.1 }, z.1, wet.2 + z.2)

/-- Taps of a configuration: D_align and D_a in samples (R172, R179). -/
def lookAhead (d : DynCfg) (f : Nat) : Nat := usSamples d.lookUs f
def tapsOf (c : ChainCfg) (f : Nat) : Nat × Nat :=
  let d := if c.byDelay then 0 else c.align
  (d, d + lookAhead c.dyn f)

/-- A column whose dynamics engine stands still: MANTLE writes its line on (R172, R185). -/
def tailIdle (c : Chain1) (x : Int) : Chain1 := { c with st := { c.st with line := (x :: c.st.line).take 4097 } }

/-- The limit of R172. -/
def tapsOk (c : ChainCfg) (f : Nat) : Bool := decide (c.align + lookAhead c.dyn f ≤ 4096)
/-- TRUE_PEAK has a look-ahead of at least 6 samples (R175). -/
def peakOk (d : DynCfg) (f : Nat) : Bool := !d.truePeak || decide (6 ≤ lookAhead d f)

/-- Makeup target in dB (R178). -/
def makeupTarget (d : DynCfg) : F32 := if d.comp then f32Cdb d.makeup else fZero

/-- A configuration comes into force at boundary b: each stage that changes crossfades from landed sample b − 16
(R31, R162, R187).  The polarity dip of an INVERT change, which R31 puts in neither of its kinds, starts at landed sample b as a ramp
does (DESIGN CHOICE, log entry 120). -/
def chainMove (c : Chain1) (role : BassRole) (f : Nat) (b : MT) : Chain1 :=
  let t := b - 16
  let L := 16 * c.cfg.xfade
  let o := c.inForce
  let n := c.cfg
  let s := c.st
  let s := if s.bass.role = role then s else { s with bass := bassMove s.bass role, bassOld := some { old := s.bass, t := t, n := 64 } }
  let coefs := eqCoefs n f
  let s := if o.byEq = n.byEq ∧ s.eq.coefs = coefs then s
    else { s with eq := { on := !n.byEq, coefs := coefs, st := if o.byEq then [] else s.eq.st },
                  eqOld := some { old := s.eq, t := t, n := L } }
  let s := if s.firOn = !n.byFir then s else { s with firOn := !n.byFir, firOld := some { old := s.firOn, t := t, n := L } }
  let tp := tapsOf n f
  let s := if s.tapAudio = tp.2 ∧ o.dyn.truePeak = n.dyn.truePeak then { s with tapDet := tp.1 }
    else { s with tapDet := tp.1, tapAudio := tp.2, tapOld := some { old := s.tapAudio, t := t, n := L } }
  let s := if s.dynOn = !n.byDyn then s
    else { s with dynOn := !n.byDyn, dynOld := some { old := if s.dynOn then some o.dyn else none, t := t, n := L },
                  p := if s.dynOn then s.p else 0, gC := if s.dynOn then s.gC else 0, gL := if s.dynOn then s.gL else 0,
                  tpHist := if s.dynOn then s.tpHist else [] }
  let s := { s with gC := if !o.dyn.comp ∧ n.dyn.comp then 0 else s.gC, gL := if !o.dyn.lim ∧ n.dyn.lim then 0 else s.gL }
  let mk := makeupTarget n.dyn
  let s := if s.mk1 = mk then s else { s with mk0 := makeupAt s (t - 1), mk1 := mk, mkT := t, mkN := L }
  { c with inForce := n, st := s, flips := if o.invert = n.invert then c.flips
      else c.flips ++ [{ t := b, v0 := (flipAt c.flips c.invertNow (b - 1)).1, inv := n.invert }] }

/-- Crossfades, ramps and dips that have run out before the block at b. -/
def chainSettle (c : Chain1) (b : MT) : Chain1 :=
  let live {α : Type} (o : Option (StageFade α)) : Option (StageFade α) :=
    match o with
    | some x => if (x.n : Int) ≤ mtDiff b x.t then none else some x
    | none => none
  let past (x : Flip) : Bool := decide (32 ≤ mtDiff b x.t)
  { c with
      gout := rampSettle c.gout b, mute := rampSettle c.mute b,
      invertNow := (((c.flips.filter past).map (·.inv)).getLast?).getD c.invertNow, flips := c.flips.filter (fun x => !past x),
      st := { c.st with
        bassOld := live c.st.bassOld, eqOld := live c.st.eqOld, firOld := live c.st.firOld, tapOld := live c.st.tapOld,
        dynOld := live c.st.dynOld, mkN := if (c.st.mkN : Int) ≤ mtDiff b c.st.mkT then 0 else c.st.mkN } }

/-- Sample state cleared (R164, R186): filter histories, line, detectors; changes at their end values. -/
def chainClear (c : Chain1) : Chain1 :=
  { c with
      gout := rampEndNow c.gout, mute := rampEndNow c.mute,
      invertNow := c.inForce.invert, flips := [],
      st := { bass := { role := c.st.bass.role }, eq := { on := c.st.eq.on, coefs := c.st.eq.coefs },
              firOn := c.st.firOn, tapDet := c.st.tapDet, tapAudio := c.st.tapAudio, dynOn := c.st.dynOn,
              mk0 := c.st.mk1, mk1 := c.st.mk1, holdC := c.st.holdC, holdL := c.st.holdL } }

/-- Every chain quantity at its target at once, sample state zero (R521). -/
def chainAtOnce (c : Chain1) (role : BassRole) (f : Nat) : Chain1 :=
  let tp := tapsOf c.cfg f
  { c with inForce := c.cfg, gout := rampHold c.goutSet, mute := rampHold (if c.muteSet then 0 else unity),
           invertNow := c.cfg.invert, flips := [],
           st := { bass := { role := role }, eq := { on := !c.cfg.byEq, coefs := eqCoefs c.cfg f }, firOn := !c.cfg.byFir,
                   tapDet := tp.1, tapAudio := tp.2, dynOn := !c.cfg.byDyn, mk1 := makeupTarget c.cfg.dyn,
                   mk0 := makeupTarget c.cfg.dyn, holdC := c.st.holdC, holdL := c.st.holdL } }

/-- Type of speaker column c in the layout: 0 full-range, 1 subwoofer, 2 virtual; none where the layout lacks it. -/
def spkType (lay : Option Layout) (c : Nat) : Option Nat :=
  match lay with
  | some l => (l.spks.find? (fun s => s.no == c)).map (·.type)
  | none => none

/-- A member of bass group g (R166). -/
def isMember (all : ChainAll) (lay : Option Layout) (bound : Nat → Bool) (g c : Nat) : Bool :=
  let cfg := (tabGet all.cols c).cfg
  (spkType lay c == some 0 || spkType lay c == some 2) && cfg.group == g && !cfg.byBass && bound c

/-- The bass role of column c under the configuration (R166, R167). -/
def bassRole (all : ChainAll) (lay : Option Layout) (bound : Nat → Bool) (c : Nat) : BassRole :=
  let cfg := (tabGet all.cols c).cfg
  let gr := tabGet all.groups cfg.group
  let sub := spkType lay c == some 1
  { hp := if isMember all lay bound cfg.group c ∧ gr.order ≠ 0 then some (cfg.group, gr.order, gr.crossover) else none,
    ownLp := if sub && cfg.ownLp && decide (cfg.group < 16) && !cfg.byBass then some (cfg.group, gr.order, gr.crossover) else none,
    feeds := if !sub || cfg.byBass then [] else
      (List.range 16).filterMap (fun g =>
        let gg := tabGet all.groups g
        if gg.order ≠ 0 ∧ gg.dests.contains c then
          let ms := match lay with
            | some l => (l.spks.map (·.no)).filter (isMember all lay bound g)
            | none => []
          some { group := g, order := gg.order, crossover := gg.crossover, gain := cdbGain gg.gain, members := ms }
        else none) }

/-- A timed gain or mute whose block is at or before the selection at S starts its ramp (R184). -/
def timedStart (c : Chain1) (S : MT) : Chain1 :=
  let due (o : Option Timed) : Option (Timed × MT) := match o with
    | some x => if mtDiff (blockOf x.t) S ≤ 0 then some (x, if mtDiff (blockOf x.t) S < 0 then S else x.t) else none
    | none => none
  let c := match due c.timedGain with
    | some (x, t) => { c with gout := cosTo c.gout x.target t x.n, goutSet := x.target, timedGain := none }
    | none => c
  match due c.timedMute with
  | some (x, t) => { c with mute := cosTo c.mute x.target t x.n, muteSet := x.target == 0, timedMute := none }
  | none => c

end Sys2Proof.Machine
end

