-- ==== Sys2Proof/Machine/Convolve.lean ====
section
/-! DEFINITION. MANTLE convolution and maps (R188–R204, R213) and the HALO rotation and output (R206–R209). -/

namespace Sys2Proof.Machine

/-! Binary32 complex FFT of R196. -/

abbrev C32 := F32 × F32
def cmul (a b : C32) : C32 :=
  (f32Sub (f32Mul a.1 b.1) (f32Mul a.2 b.2), f32Add (f32Mul a.1 b.2) (f32Mul a.2 b.1))
def cadd (a b : C32) : C32 := (f32Add a.1 b.1, f32Add a.2 b.2)
def csub (a b : C32) : C32 := (f32Sub a.1 b.1, f32Sub a.2 b.2)

/-- Elements at even and odd places. -/
def unzipEO {α : Type} : List α → List α × List α
  | [] => ([], [])
  | a :: t => let r := unzipEO t; (a :: r.2, r.1)

/-- Twiddle (cos, sgn sin) of 2πj/len: binary64, then rounded. -/
def twiddle (j len : Nat) (fwd : Bool) : C32 :=
  let a := qTurn ⟨j, 1⟩ len
  let s := f32 (f64 (qSin a))
  (f32 (f64 (qCos a)), if fwd then f32Neg s else s)

/-- The butterflies of R196 in decimation in time: fuel is log2 of the length. -/
def fftGo (fwd : Bool) : Nat → List C32 → List C32
  | 0, a => a
  | n + 1, a =>
    let eo := unzipEO a
    let e := fftGo fwd n eo.1
    let o := fftGo fwd n eo.2
    let len := 2 ^ (n + 1)
    let t := o.zipIdx.map (fun p => cmul (twiddle p.2 len fwd) p.1)
    (e.zip t).map (fun p => cadd p.1 p.2) ++ (e.zip t).map (fun p => csub p.1 p.2)

/-- fft(a, 2^n, sgn). -/
def fft (fwd : Bool) (n : Nat) (a : List C32) : List C32 :=
  let r := fftGo fwd n a
  if fwd then r else r.map (fun c => (f32Mul c.1 (f32 (qPow2Neg n)), f32Mul c.2 (f32 (qPow2Neg n))))

/-! The partition schedule of R191, R194, R195. -/

def schedule : List Nat := [32, 64, 96, 128, 256, 384, 512, 1024, 1536, 2048, 4096, 6144, 8192, 16384, 24576, 32768]
/-- λ(n) of R191; 0 above the longest. -/
def lambdaOf (n : Nat) : Nat := (schedule.find? (fun p => decide (n ≤ p))).getD 0
/-- Class lengths B of classes 1–5. -/
def classB (c : Nat) : Nat := 32 * 4 ^ (c - 1)
/-- Classes present at charged length λ. -/
def classesOf (lam : Nat) : List Nat := [1, 2, 3, 4, 5].filter (fun c => decide (classB c < lam))
/-- Partitions 1–3 of class c present at λ. -/
def partsOf (c lam : Nat) : List Nat := [1, 2, 3].filter (fun p => decide (p * classB c < lam))
/-- B_max + 32 of R200, 16 + 32 for the direct segment alone. -/
def readyAfter (lam : Nat) : Nat := ((classesOf lam).foldl (fun m c => max m (classB c)) 16) + 32

/-- End of the latest input frame of class length B that ended before sample k, for channel m (R195). -/
def frameEnd (B m : Nat) (k : MT) : MT :=
  let off := 16 * (m % (B / 16))
  -- e + 1 + off ≡ 0 mod B, e < k
  let r := (k.toNat + off) % B
  k - BitVec.ofNat 32 r - 1

/-- x̂ of sample j given a history whose newest sample is k0, with input before since taken as silence. -/
def xHat (hist : List Int) (k0 : MT) (since : Option MT) (j : MT) : F32 :=
  let d := mtDiff k0 j
  if d < 0 then fZero
  else if (match since with | some s => decide (mtDiff j s < 0) | none => false) then fZero
  else f32 ⟨hist.getD d.toNat 0, 2147483648⟩

/-- Input spectrum of the frame of 2B samples that ends at e; imaginary parts of bins 0 and B are zero. -/
def inSpectrum (hist : List Int) (k0 : MT) (since : Option MT) (c : Nat) (e : MT) : List C32 :=
  let B := classB c
  let xs := (List.range (2 * B)).map (fun i => (xHat hist k0 since (e - BitVec.ofNat 32 (2 * B - 1) + BitVec.ofNat 32 i), fZero))
  let u := (fft true (2 * c + 4) xs).take (B + 1)
  u.zipIdx.map (fun p => if p.2 = 0 ∨ p.2 = B then (p.1.1, fZero) else p.1)

/-- Partition spectrum H_p. -/
def partSpectrum (taps : List F32) (c p : Nat) : List C32 :=
  let B := classB c
  (fft true (2 * c + 4) ((List.range (2 * B)).map (fun i => (if i < B then taps.getD (p * B + i) fZero else fZero, fZero)))).take (B + 1)

/-! Extents in set memory (R189, R196): the place of tap i is the 8 bytes at 8i, a complex value. -/

/-- The class and partition of tap place i, none in the direct segment. -/
def placeOf (i : Nat) : Option (Nat × Nat) := ([1, 2, 3, 4, 5].find? (fun c => decide (i < 4 * classB c))).bind (fun c =>
  if i < 32 then none else some (c, i / classB c))

/-- The complex value at tap place i, before anything M1 has written: packed spectra where the extent is LOADED, otherwise the taps.
The direct segment holds each tap with an imaginary part of zero (log entry 103). -/
def extPlace (e : Extent) (i : Nat) : C32 :=
  let tap : C32 := (e.taps.getD i fZero, fZero)
  match e.state with
  | .mapped => (fZero, fZero)
  | .loaded => match placeOf i with
    | none => tap
    | some (c, p) =>
      let h := partSpectrum e.taps c p
      if i % classB c = 0 then ((h.getD 0 (fZero, fZero)).1, (h.getD (classB c) (fZero, fZero)).1) else h.getD (i % classB c) (fZero, fZero)
  | _ => tap

/-- One byte of an extent. -/
def extByte (e : Extent) (o : Nat) : Byte :=
  match e.raw.find? (fun kv => kv.1 == o) with
  | some kv => kv.2
  | none => let c := extPlace e (o / 8); (p32 (if o % 8 < 4 then c.1 else c.2).toNat).getD (o % 4) 0

/-- The complex value at tap place i as it stands in memory. -/
def extWord (e : Extent) (i : Nat) : C32 :=
  let at_ (o : Nat) : F32 := BitVec.ofNat 32 (u32 ((List.range 4).map (fun j => extByte e (o + j))) 0)
  (at_ (8 * i), at_ (8 * i + 4))

/-- Tap i of the direct segment. -/
def extTap (e : Extent) (i : Nat) : F32 := if e.raw.isEmpty then e.taps.getD i fZero else (extWord e i).1

/-- The spectrum of partition p of class c. -/
def extSpectrum (e : Extent) (c p : Nat) : List C32 :=
  if e.raw.isEmpty then partSpectrum e.taps c p else
    let B := classB c
    let z := extWord e (p * B)
    (z.1, fZero) :: (List.range (B - 1)).map (fun j => extWord e (p * B + j + 1)) ++ [(z.2, fZero)]

/-- c_B of the 16 samples from k on (R196). -/
def classOut (x : Extent) (c m : Nat) (hist : List Int) (k0 : MT) (since : Option MT) (k : MT) : List F32 :=
  let B := classB c
  let e1 := frameEnd B m k
  let Y := (partsOf c x.lam).foldl
    (fun (acc : List C32) p =>
      let U := inSpectrum hist k0 since c (e1 - BitVec.ofNat 32 ((p - 1) * B))
      let H := extSpectrum x c p
      let prod := (H.zip U).map (fun q => cmul q.1 q.2)
      if acc.isEmpty then prod else (acc.zip prod).map (fun q => cadd q.1 q.2)) []
  let mirror := ((Y.drop 1).take (B - 1)).reverse.map (fun q => (q.1, f32Neg q.2))
  let z := fft false (2 * c + 4) (Y ++ mirror)
  let j0 := (k - (e1 + 1)).toNat
  (List.range 16).map (fun i => (z.getD (B + j0 + i) (fZero, fZero)).1)

/-- y(k) of R196: rounded, saturated, and whether it saturated.  A NaN has no rounding that the rule states: a free value, not counted
(log entry 104). -/
def firOutQ (s : F32) : Int × Nat :=
  if f32IsNan s then (sext 32 (Config.nanSample s).toNat, 0) else satClip (qRne (qMul (f32Val s) (qOfInt (2 ^ 31))))

/-- Output of a filter for the 16 samples from k on; hist holds them already, newest first, its newest being k + 15. -/
def filterBlock (x : Extent) (m : Nat) (hist : List Int) (since : Tab MT) (k : MT) : List (Int × Nat) :=
  let k0 := k + 15
  let cls := (classesOf x.lam).map (fun c =>
    classOut x c m hist k0 ((since.find? (fun p => p.1 == c)).map Prod.snd) k)
  (List.range 16).map (fun i =>
    let kk := k + BitVec.ofNat 32 i
    let sd := (List.range 32).foldl
      (fun a j => f32Add a (f32Mul (extTap x j) (xHat hist k0 none (kk - BitVec.ofNat 32 j)))) fZero
    let s := cls.foldl (fun a c => f32Add a (c.getD i fZero)) sd
    firOutQ s)

/-- The extent of a set. -/
def extOf (c : MChan) (setB : Bool) : Option Extent := if setB then c.b else c.a
def setExt (c : MChan) (setB : Bool) (e : Option Extent) : MChan := if setB then { c with b := e } else { c with a := e }
/-- The role and target a channel serves: in its active set, else in the other (R188, R201). -/
def chanTarget (c : MChan) : Option (Nat × Nat) :=
  match extOf c c.activeB with
  | some e => some (e.role, e.target)
  | none => (extOf c (!c.activeB)).map (fun e => (e.role, e.target))

/-- A path of the FIR stage for a block: a filter, or the input for a chain passthrough, or silence for an absent HRIR.  An extent that
serves another target than the channel's is no filter of this one (log entry 105). -/
def pathBlockOf (c : MChan) (m : Nat) (setB : Bool) (hist : List Int) (k : MT) (xs : List Int) : List (Int × Nat) :=
  match (extOf c setB).filter (fun e => some (e.role, e.target) == chanTarget c) with
  | some e => filterBlock e m hist c.since k
  | none => match chanTarget c with
    | some (0, _) => xs.map (fun x => (x, 0))
    | _ => xs.map (fun _ => (0, 0))

/-- One block of a channel: new state, the 16 outputs of the set in force, of the set a crossfade leaves, and the clips. -/
def chanBlock (c : MChan) (m : Nat) (k : MT) (xs : List Int) : MChan × List Int × Option (List Int) × Nat :=
  let hist := (xs.reverse ++ c.hist).take 49152
  let new := pathBlockOf c m c.activeB hist k xs
  let old := c.fade.map (fun f => pathBlockOf c m f.oldB hist k xs)
  ({ c with hist := hist }, new.map Prod.fst, old.map (fun o => o.map Prod.fst), (new ++ old.getD []).foldl (fun a p => a + p.2) 0)

/-- The output of a channel in a crossfade at sample k (R204). -/
def chanMix (f : Option MFade) (k : MT) (new : Int) (old : Option Int) : Int :=
  match f, old with
  | some f, some o => xfade f.n (mtDiff k (f.b - 16)) o new
  | _, _ => new

/-- A void channel block enters the state as silence (R213). -/
def chanVoid (c : MChan) : MChan := { c with hist := (List.replicate 16 0 ++ c.hist).take 49152 }

/-- Domain of a channel: that of its target's binding; HRIR targets have HALO's (R201); none where unbound. -/
def chanDom (sc : Scene) (c : MChan) : Option Nat :=
  match chanTarget c with
  | some (0, col) => let b := (getCol sc col).bind; if b.mode = 0 then none else some b.dom
  | some (_, _) => let b := (getCol sc 512).bind; if b.mode = 4 then some b.dom else none
  | none => none

/-- Channel bookkeeping at boundary b of its domain (R193, R200, R204): added classes start, and see all of their input once their state
holds 4B samples; transforms latch LOADED, READY; a finished crossfade releases the old set. -/
def chanBoundary (c : MChan) (b : MT) : MChan :=
  let c := { c with since := c.fresh.foldl (fun t k => tabSet t k b) (c.since.filter (fun kv => decide (mtDiff b kv.2 < (4 * classB kv.1 : Nat)))), fresh := [],
                    fade := match c.fade with
                      | some f => if (f.n : Int) ≤ mtDiff b f.b then none else some f
                      | none => none }
  let go (e : Extent) : Extent :=
    if e.done ∧ e.state = .loading then { e with state := .loaded, done := false, latch := some b, ready := false }
    else match e.latch with
      | some l => if e.state = .loaded ∧ (readyAfter e.lam : Int) ≤ mtDiff b l then { e with ready := true } else e
      | none => if e.state = .loaded then { e with latch := some b } else e
  { c with a := c.a.map go, b := c.b.map go }

/-- Latch and READY of a channel whose target is unbound (R200). -/
def chanUnbound (c : MChan) : MChan :=
  let go (e : Extent) : Extent :=
    if e.done ∧ e.state = .loading then { e with state := .loaded, done := false, ready := true }
    else if e.state = .loaded then { e with ready := true } else e
  { c with a := c.a.map go, b := c.b.map go, fade := none }

/-- State cleared by a realignment or stop (R213). -/
def chanRealign (c : MChan) : MChan :=
  let go (e : Extent) : Extent := { e with ready := false, latch := none }
  { c with hist := [], since := [], fresh := [], fade := none, a := c.a.map go, b := c.b.map go }

/-- READY counts from the boundary at which the domain locks (R213). -/
def chanLocked (c : MChan) (b : MT) : MChan :=
  let go (e : Extent) : Extent := if e.state = .loaded ∧ e.latch.isNone then { e with latch := some b } else e
  { c with a := c.a.map go, b := c.b.map go }

/-- R42 for one channel and rate. -/
def lamFits (lam f : Nat) : Bool := decide (lam * f ≤ 32768 * 48000)

/-- Σ max(λ_A, λ_B) of R192. -/
def stateUsed (t : Tab MChan) : Nat :=
  t.foldl (fun a kv => a + max ((kv.2.a.map (·.lam)).getD 0) ((kv.2.b.map (·.lam)).getD 0)) 0

/-- The domain to which a target is bound; HRIR targets are bound with HALO (R201). -/
def targetDom (sc : Scene) (role target : Nat) : Option Nat :=
  let b := (getCol sc (if role = 0 then target else 512)).bind
  if (if role = 0 then b.mode = 0 else b.mode ≠ 4) then none else some b.dom

/-- f_c of an extent; an unbound target keeps the rate it was charged at (R193). -/
def extRate (sc : Scene) (rate : Nat → Nat) (e : Extent) : Nat := ((targetDom sc e.role e.target).map rate).getD e.rate

/-- Σ taps_c × f_c of one set. -/
def chargeIn (sc : Scene) (rate : Nat → Nat) (t : Tab MChan) (setB : Bool) : Nat :=
  t.foldl (fun a kv => match extOf kv.2 setB with
    | some e => a + e.lam * extRate sc rate e
    | none => a) 0

/-- Taps charged in one set, as reported: Σ taps_c × f_c / 48,000 without its fraction (log entry 102). -/
def usedIn (sc : Scene) (rate : Nat → Nat) (t : Tab MChan) (setB : Bool) : Nat := chargeIn sc rate t setB / 48000

/-- Both maps meet R42 under a binding and rates. -/
def mapsFit (sc : Scene) (rate : Nat → Nat) (t : Tab MChan) : Bool :=
  let ok (setB : Bool) : Bool :=
    decide (chargeIn sc rate t setB ≤ tapBudget * 48000) &&
    t.all (fun kv => match extOf kv.2 setB with
      | some e => lamFits e.lam (extRate sc rate e)
      | none => true)
  ok false && ok true

/-- An extent whose target is about to lose its binding keeps the rate f (R193). -/
def keepRate (role target f : Nat) (c : MChan) : MChan :=
  let go (e : Extent) : Extent := if e.role = role ∧ (role ≠ 0 ∨ e.target = target) then { e with rate := f } else e
  { c with a := c.a.map go, b := c.b.map go }

/-- A channel is crossfading. -/
def fading (c : MChan) : Bool := c.fade.isSome
/-- Set X may be mapped: no channel has it active and none crossfades (R192, R212). -/
def mappable (t : Tab MChan) (setB : Bool) : Bool :=
  t.all (fun kv => !(fading kv.2) && (kv.2.activeB != setB || (kv.2.a.isNone && kv.2.b.isNone)))

/-- The channel has an entry in a map. -/
def hasEntry (c : MChan) : Bool := c.a.isSome || c.b.isSome
/-- The channel has set B active (R190, R212). -/
def activeIsB (c : MChan) : Bool := hasEntry c && c.activeB

/-- The extent of a set at an offset from the set's base, with its channel and the offset into it: extents lie in ascending channel
number at 8 bytes per tap (R189). -/
def extentAt (setB : Bool) : Tab MChan → Nat → Option (Nat × Extent × Nat)
  | [], _ => none
  | (m, c) :: t, o => match extOf c setB with
    | some e => if o < 8 * e.lam then some (m, e, o) else extentAt setB t (o - 8 * e.lam)
    | none => extentAt setB t o

/-- M1 reaches an offset of a set (R24, R26, R190): of an extent, while the set is inactive for its channel and the channel does not
crossfade; where no extent lies, while no crossfade reads both sets (log entry 103). -/
def setOpen (t : Tab MChan) (setB : Bool) (o : Nat) : Bool :=
  match extentAt setB t o with
  | some (m, _, _) => (tabGet t m).activeB != setB && !fading (tabGet t m)
  | none => t.all (fun kv => !fading kv.2)

/-- A byte of a set written by M1. -/
def setWrite (t : Tab MChan) (setB : Bool) (o : Nat) (v : Byte) : Tab MChan :=
  match extentAt setB t o with
  | some (m, e, i) => tabMod t m (fun c => setExt c setB (some { e with raw := tabSet e.raw i v }))
  | none => t

/-- A MAP entry (R198). -/
structure MapEntry where
  ch : Nat
  role : Nat
  target : Nat
  taps : Nat
  deriving DecidableEq, Repr

/-- Set replaced by a new map (R190, R193). -/
def applyMap (t : Tab MChan) (setB : Bool) (es : List MapEntry) : Tab MChan :=
  ((List.range 640).foldl
    (fun t m =>
      let c := tabGet t m
      match es.find? (fun e => e.ch == m) with
      | none => if (extOf c setB).isNone then t else tabSet t m (setExt c setB none)
      | some e =>
        let lam := lambdaOf e.taps
        let had := max ((c.a.map (·.lam)).getD 0) ((c.b.map (·.lam)).getD 0)
        let c' := setExt c setB (some { role := e.role, target := e.target, lam := lam })
        let c' := if c.a.isNone ∧ c.b.isNone then { c' with activeB := !setB } else c'
        let added := (classesOf lam).filter (fun k => !((classesOf had).contains k))
        tabSet t m { c' with fresh := (c'.fresh ++ added).eraseDups }) t).filter (fun kv => hasEntry kv.2)

/-! HALO rotation (R206, R207). -/

abbrev Mat := List (List F32)
def matAt (m : Mat) (i j : Nat) : F32 := (m.getD i []).getD j fZero
def matMul3 (a b : Mat) : Mat :=
  (List.range 3).map (fun i => (List.range 3).map (fun j =>
    f32Add (f32Add (f32Mul (matAt a i 0) (matAt b 0 j)) (f32Mul (matAt a i 1) (matAt b 1 j))) (f32Mul (matAt a i 2) (matAt b 2 j))))

def cdRad (cd : Int) : F32 := f32Mul (f32Cdb cd) kRad
/-- H = Rz(yaw) Rx(pitch) Ry(roll). -/
def headMat (o : Orient) : Mat :=
  let cz := f32Cos (cdRad o.yaw); let sz := f32Sin (cdRad o.yaw)
  let cx := f32Cos (cdRad o.pitch); let sx := f32Sin (cdRad o.pitch)
  let cy := f32Cos (cdRad o.roll); let sy := f32Sin (cdRad o.roll)
  let z := fZero; let e := fOneF
  matMul3 (matMul3 [[cz, f32Neg sz, z], [sz, cz, z], [z, z, e]] [[e, z, z], [z, cx, f32Neg sx], [z, sx, cx]])
    [[cy, z, sy], [z, e, z], [f32Neg sy, z, cy]]

/-- Order-1 block P Hᵀ Pᵀ with P mapping (x, y, z) to (−x, z, y). -/
def rotOrder1 (o : Orient) : Mat :=
  let h := headMat o
  let ht (i j : Nat) : F32 := matAt h j i
  -- rows and columns of (ACN1, ACN2, ACN3) are (−x, z, y)
  let ix (i : Nat) : Nat := match i with | 0 => 0 | 1 => 2 | _ => 1
  (List.range 3).map (fun i => (List.range 3).map (fun j =>
    let v := ht (ix i) (ix j)
    if (i = 0) ≠ (j = 0) then f32Neg v else v))

/-- Entry (a, b) of an order-l block, −l ≤ a, b ≤ l. -/
def blkAt (m : Mat) (l : Nat) (a b : Int) : F32 := matAt m (a + l).toNat (b + l).toNat

/-- P of the Ivanic–Ruedenberg recurrence. -/
def irP (r1 prev : Mat) (i : Int) (l : Nat) (a b : Int) : F32 :=
  let r (j : Int) : F32 := blkAt r1 1 i j
  let m (x y : Int) : F32 := blkAt prev (l - 1) x y
  if b = l then f32Sub (f32Mul (r 1) (m a (l - 1))) (f32Mul (r (-1)) (m a (1 - l)))
  else if b = -(l : Int) then f32Add (f32Mul (r 1) (m a (1 - l))) (f32Mul (r (-1)) (m a (l - 1)))
  else f32Mul (r 0) (m a b)

/-- The order-l block from the order-1 block and the order l − 1 block (R207; log entry 8). -/
def rotNext (r1 prev : Mat) (l : Nat) : Mat :=
  let L : Int := l
  let idx := (List.range (2 * l + 1)).map (fun (i : Nat) => (i : Int) - L)
  let sqF (n : Int) (d : Int) : F32 := f32Sqrt (f32Div (f32OfInt n) (f32OfInt d))
  let half := f32 ⟨1, 2⟩
  let s2 := f32Sqrt fTwo
  idx.map (fun m => idx.map (fun m' =>
    let am : Int := m.natAbs
    let d : Int := if m'.natAbs < l then (L + m') * (L - m') else 2 * L * (2 * L - 1)
    let u := sqF ((L + m) * (L - m)) d
    let v0 := f32Mul half (sqF ((if m = 0 then 2 else 1) * (L + am - 1) * (L + am)) d)
    let v := if m = 0 then f32Neg v0 else v0
    let w := if m = 0 then fZero else f32Neg (f32Mul half (sqF ((L - am - 1) * (L - am)) d))
    let P (i a : Int) : F32 := irP r1 prev i l a m'
    let U := if am < L then P 0 m else fZero
    let V :=
      if m = 0 then f32Add (P 1 1) (P (-1) (-1))
      else if 0 < m then
        if m = 1 then f32Mul (P 1 0) s2 else f32Sub (P 1 (m - 1)) (P (-1) (1 - m))
      else
        if m = -1 then f32Mul (P (-1) 0) s2 else f32Add (P 1 (m + 1)) (P (-1) (-m - 1))
    let W :=
      if m = 0 ∨ L ≤ am + 1 then fZero
      else if 0 < m then f32Add (P 1 (m + 1)) (P (-1) (-m - 1))
      else f32Sub (P 1 (m - 1)) (P (-1) (1 - m))
    f32Add (f32Add (f32Mul u U) (f32Mul v V)) (f32Mul w W)))

/-- Blocks of orders 1 to n. -/
def rotBlocks (o : Orient) (n : Nat) : List Mat :=
  let r1 := rotOrder1 o
  ((List.range (n - 1)).foldl (fun acc i => acc ++ [rotNext r1 (acc.getD i []) (i + 2)]) [r1])

/-- T·a for one sample vector in ACN order, with the clips (R206). -/
def rotApply (rot : Bool × Orient) (order : Nat) (a : List Int) : List (Int × Nat) :=
  if !rot.1 then a.map (fun x => (x, 0))
  else
    let q (f : F32) : Int := qRne (qMul (f32Val f) (qOfInt (2 ^ 30)))
    let head := match a with | x :: _ => [(x, 0)] | [] => []
    head ++ (rotBlocks rot.2 order).zipIdx.flatMap (fun bl =>
      let n := bl.2 + 1
      let base := n * n
      (List.range (2 * n + 1)).map (fun i =>
        satClip (shrRne ((List.range (2 * n + 1)).foldl (fun s j => s + q (matAt bl.1 i j) * a.getD (base + j) 0) 0) 30)))

/-- One block of rotation: 16 vectors a″ and the clips. -/
def rotBlock (prev now : Bool × Orient) (order : Nat) (as : List (List Int)) : List (List Int) × Nat :=
  let r := as.zipIdx.map (fun p =>
    let n := rotApply now order p.1
    if prev = now then (n.map Prod.fst, n.foldl (fun s x => s + x.2) 0)
    else
      let o := rotApply prev order p.1
      ((o.zip n).map (fun q => rne ((15 - (p.2 : Int)) * q.1.1 + ((p.2 : Int) + 1) * q.2.1) 16),
       (o.zip n).foldl (fun s q => s + q.1.2 + q.2.2) 0))
  (r.map Prod.fst, r.foldl (fun s x => s + x.2) 0)

/-- The binaural output stage for one ear sample (R209). -/
def halOut (h : Halo) (k : MT) (x : Int) : Int × Nat :=
  satClip (shrRne (x * shrRne (cosAt h.g k * cosAt h.m k) 28) 28)

end Sys2Proof.Machine
end

