-- ==== Sys2Proof/Machine/Seam.lean ====
section
/-! DEFINITION. SEAM bridges, the microphone chain and the tone detectors (R215–R240), and the gate of R32. -/

namespace Sys2Proof.Machine

/-! Lines and gates. -/

/-- Sample k of a line, 0 where the line does not hold it. -/
def lineSample (l : Line) (k : MT) : Int :=
  let d := mtDiff l.next k
  if 0 < d then l.xs.getD (d.toNat - 1) 0 else 0

/-- A line with the samples ys (oldest first) of MT k on; it keeps n samples.  A block pushed again replaces the
one held; a gap or a restart begins the line anew. -/
def linePush (n : Nat) (l : Line) (k : MT) (ys : List Int) : Line :=
  { next := k + BitVec.ofNat 32 ys.length, xs := (ys.reverse ++
    (if l.next = k then l.xs else if l.next = k + BitVec.ofNat 32 ys.length then l.xs.drop ys.length else [])).take n }

/-- One sample put at MT k of a line of n samples: what lies between is zero, a position already held is replaced, and a
position that the line does not adjoin begins it anew. -/
def linePut (n : Nat) (l : Line) (k : MT) (x : Int) : Line :=
  let d := mtDiff k l.next
  if d < 0 ∧ -d ≤ (l.xs.length : Int) then { l with xs := l.xs.set (-d - 1).toNat x }
  else if 0 ≤ d ∧ d ≤ 64 then { next := k + 1, xs := (x :: (List.replicate d.toNat 0 ++ l.xs)).take n }
  else { next := k + 1, xs := [x] }

/-- Samples of MT k on. -/
def lineRead (l : Line) (k : MT) (n : Nat) : List Int :=
  (List.range n).map (fun i => lineSample l (k + BitVec.ofNat 32 i))

/-- Ramp-in length of R32. -/
def rampIn (f : Nat) : Nat := (rne ((5 * f : Nat) : Int) 1000).toNat

/-- The fade to zero over the 16 samples from t (R32). -/
def fadeAt (t k : MT) : Int := cosSegAt { v0 := unity, v1 := 0, t := t, n := 16 } k

/-- Gain of a gate at sample k. -/
def gateAt (g : Gate) (f : Nat) (k : MT) : Int :=
  match g.phase with
  | .zero => 0
  | .passing => unity
  | .ramp => cosSegAt { v0 := 0, v1 := unity, t := g.t, n := rampIn f } k
  | .fade => fadeAt g.t k

/-- The gate for a block that starts at k, after the block before it was complete or not (R32). -/
def gateNext (g : Gate) (f : Nat) (complete : Bool) (k : MT) : Gate :=
  match g.phase with
  | .zero =>
    let c := if complete then g.clean + 1 else 0
    if 4 ≤ c then { phase := .ramp, clean := c, t := k } else { g with clean := c }
  | .passing => g
  | .ramp => if (rampIn f : Int) ≤ mtDiff k g.t then { phase := .passing } else g
  | .fade => { phase := .zero }

/-- A gate that fades from k. -/
def gateFade (k : MT) : Gate := { phase := .fade, t := k }
/-- A gate held at zero with no block counted. -/
def gateZero : Gate := {}
/-- Whether a gate lets anything through. -/
def gateOpen (g : Gate) : Bool := g.phase != .zero

/-! Positions (R219, R222, R223).  A position is an integer modulo 2^64. -/

/-- The residue of a position. -/
def posMod (p : Int) : Int := p.emod (2 ^ 64)
/-- Signed 64-bit difference. -/
def posDiff (a b : Int) : Int := sext 64 (wrapNat 64 (a - b))
/-- Integer part I and fraction φ. -/
def posI (p : Int) : MT := BitVec.ofNat 32 (wrapNat 64 p / 2 ^ 32)
def posPhi (p : Int) : Nat := wrapNat 64 p % 2 ^ 32

/-- Arithmetic shift right, toward −∞. -/
def asr (v : Int) (k : Nat) : Int := v / (2 : Int) ^ k

/-- J of R219: the count congruent to MT j within ±2^31 of floor(DT f / 10^9). -/
def unwrapMt (dt : DT) (f : Nat) (j : MT) : Int :=
  let n : Int := ((dt.toNat * f / 1000000000 : Nat) : Int)
  n + (j - BitVec.ofInt 32 n).toInt

/-- P_j of R219. -/
def exactPos (J : Int) (fIn fOut : Nat) : Int :=
  posMod ((2 ^ 32 * (4000 * J * (fIn : Int) - 3 * (fIn : Int) * (fOut : Int))) / (4000 * (fOut : Int)))

/-- The target position q of R222 from the latched count, its fraction and Δ. -/
def targetPos (count : MT) (frac : Nat) (delta : Int) : Int :=
  posMod (((count.toNat * 2 ^ 32 + frac * 2 ^ 16 : Nat) : Int) - delta)

/-- Δ_in of R222. -/
def deltaIn (fIn : Nat) : Int := rne ((75 * fIn * 2 ^ 32 : Nat) : Int) 100000

/-- ρ_n × 2^32 rounded, for a ratio of rates. -/
def rhoNom (num den : Nat) : Int := rne ((num * 2 ^ 32 : Nat) : Int) den

/-- Initialisation of R223. -/
def loopInit (l : Loop) (q rho0 : Int) : Loop :=
  { l with pos := q, rho := rho0, rhoU := rho0, err := 0, fine := 0, off := 0, blocks := 0 }

/-- Whether a ratio lies beyond 1,500 ppm of nominal (R225). -/
def beyond1500 (rhoU rho0 : Int) : Bool := decide (1500 * rho0.natAbs < 1000000 * (rhoU - rho0).natAbs)

/-- The block update of R222 at a boundary with target q, in ACQUIRE or TRACK. -/
def loopStep (l : Loop) (acq : Bool) (q rho0 : Int) : Loop :=
  let e := posDiff q l.pos
  let rho := if acq then l.rho + asr e 15 else l.rho + asr e 23
  let u := if acq then rho + asr e 9 else rho + asr e 13
  { l with rho := rho, rhoU := u, err := e, fine := if e.natAbs < 2 ^ 30 then l.fine + 1 else 0,
           off := if beyond1500 u rho0 then l.off + 1 else 0, blocks := l.blocks + 1 }

/-- The slip limit of R225. -/
def slipLimit : Nat := 32 * 2 ^ 32

/-! The kernel (R220, R233). -/

/-- One interpolated sample: y before saturation, for table T of half-length reach and scale κ = kn/kd. -/
def kernel (T : Nat → Int) (reach kn kd : Nat) (phi : Nat) (x : Int → Int) : Int :=
  let half := (reach * kd + kn - 1) / kn
  let sum : Int := (List.range (2 * half)).foldl (fun (s : Int) (i : Nat) =>
    let m : Int := (i : Int) - ((half : Int) - 1)
    let a := (m * 2 ^ 32 - (phi : Int)).natAbs * kn / (kd * 2 ^ 10)
    if reach * 2 ^ 22 ≤ a then s else
      let q := a / 2 ^ 16
      let mu : Nat := a % 2 ^ 16
      let t := T q + rne ((T (q + 1) - T q) * (mu : Int)) (2 ^ 16)
      s + rne (t * (kn : Int)) kd * x m) 0
  rne sum (2 ^ 30)

/-- The 48 coefficients that phase p of R220 takes from a table at κ = 1. -/
def protoPhase (T : Nat → Int) (p : Nat) : List Int :=
  (List.range 24).map (fun a => T (64 * a + p)) ++ (List.range 24).map (fun a => T (64 * (a + 1) - p))
/-- The properties that R221 states of the table: its sums, and that it is no Nyquist filter. -/
def protoOk (T : Nat → Int) : Bool :=
  (List.range 64).all (fun p => decide (((protoPhase T p).foldl (· + ·) 0 - 2 ^ 30).natAbs ≤ 4)) && (List.range 23).all (fun k => T (64 * (k + 1)) != 0)
/-- A table with those properties, for a Config value that lacks them. -/
def protoPlain (q : Nat) : Int := if 1536 ≤ q then 0 else 29127 * (1536 - (q : Int)) + (if q < 32 then 4096 else if q = 32 then 2048 else 0)
/-- T of R221: a free value that keeps to what the rule states of it, T[1,536] = 0 among that. -/
def seamT (q : Nat) : Int :=
  let T (q : Nat) : Int := if 1536 ≤ q then 0 else (Config.seamProto q).toInt
  if protoOk T then T q else protoPlain q

/-- κ of a bridge (R220). -/
def bridgeKappa (fIn fOut : Nat) : Nat × Nat := if fOut < fIn then (fOut, fIn) else (1, 1)

/-- U of R233. -/
def micU (q : Nat) : Int :=
  if 1024 ≤ q then 0 else if q = 0 then 2 ^ 30 else
    let x := fxOfQ ⟨q, 64⟩
    let s := fxDiv (fxCosSin (fxMul fxPi x)).2 (fxMul fxPi x)
    let r := fxSqrt (fxOne - fxOfQ ⟨q * q, 1024 * 1024⟩)
    qRne (qMul (qOfInt (2 ^ 30)) (f64 (fxToQ (fxMul s (fxDiv (fxBesselI0 (8 * r)) (fxBesselI0 (8 * fxOne)))))))

/-- The input instant of a position. -/
def readAt (T : Nat → Int) (reach kn kd : Nat) (pos : Int) (x : MT → Int) : Int :=
  kernel T reach kn kd (posPhi pos) (fun m => x (posI pos + BitVec.ofInt 32 m))

/-! Bridges. -/

/-- What a bridge sees of an end: nominal rate, rendering, LOCKED to PTP, latched count and fraction; dom is 3 for a
port clock (R226). -/
structure EndInfo where
  f : Nat
  rendering : Bool
  ptpLocked : Bool
  count : MT
  frac : Nat
  dom : Nat
  deriving DecidableEq, Repr, Inhabited

/-- R219: whether the EXACT conditions hold. -/
def exactHolds (i o : EndInfo) : Bool := decide (i.dom < 3) && i.ptpLocked && o.ptpLocked

/-- The position of output sample j of a block that starts at k with P_k = p. -/
def bridgePos (exact : Bool) (p u : Int) (dt : DT) (fIn fOut : Nat) (k j : MT) : Int :=
  if exact then exactPos (unwrapMt dt fOut j) fIn fOut else posMod (p + mtDiff j k * u)

/-- The 16 output samples of the block that landed from k: samples and saturations. -/
def bridgeBlock (br : Bridge) (i : EndInfo) (fOut : Nat) (dt : DT) (read : SeamCfg → MT → Int) (on : Bool) (k : MT) :
    List (Int × Nat) :=
  let kap := bridgeKappa i.f fOut
  let live := br.state = .exact ∨ br.state = .track
  (List.range 16).map (fun n =>
    let j := k + BitVec.ofNat 32 n
    if !on then (0, 0) else
    match br.fade with
    | some (c, ex, p, u, t) =>
      let y := satClip (readAt seamT 24 kap.1 kap.2 (bridgePos ex p u dt i.f fOut t j) (read c))
      ((mulGain y.1 (fadeAt t j)).1, y.2)
    | none =>
      if ¬live then (0, 0) else
      let p := bridgePos (br.state = .exact) br.loop.pos br.loop.rhoU dt i.f fOut k j
      let new := satClip (readAt seamT 24 kap.1 kap.2 p (read br.cfg))
      let y := match br.oldSrc with
        | some (c, t) =>
          let old := satClip (readAt seamT 24 kap.1 kap.2 p (read c))
          (xfade 16 (mtDiff j t) old.1 new.1, old.2 + new.2)
        | none => new
      ((mulGain y.1 (gateAt br.gate fOut j)).1, y.2))

/-- The bridge after its block that started at k: position advanced while the engine runs its loop, finished fades and crossfades
gone. -/
def bridgeAdvance (br : Bridge) (on : Bool) (fOut : Nat) (k : MT) (ys : List Int) : Bridge :=
  let b := k + 16
  { br with
      loop := { br.loop with pos := if on = true ∧ (br.state = .track ∨ br.state = .acquire) then posMod (br.loop.pos + 16 * br.loop.rhoU) else br.loop.pos },
      gate := gateNext br.gate fOut true b,
      oldSrc := match br.oldSrc with
        | some (c, t) => if 16 ≤ mtDiff b t then none else some (c, t)
        | none => none,
      fade := match br.fade with
        | some (c, e, p, u, t) => if 16 ≤ mtDiff b t then none else some (c, e, p, u, t)
        | none => none,
      out := linePush 512 br.out k ys, mt := b }

/-- The bridge's output fades over 16 samples from b (R225); a source that has only just been replaced fades as it was. -/
def bridgeFade (br : Bridge) (b : MT) : Bridge :=
  let c := match br.oldSrc with
    | some (o, t) => if t = b then o else br.cfg
    | none => br.cfg
  { br with fade := if br.state = .exact ∨ br.state = .track then some (c, br.state == .exact, br.loop.pos, br.loop.rhoU, b) else br.fade,
            gate := gateZero, oldSrc := none }

/-- Whether a state is one of an enabled bridge that has left WAIT. -/
def bridgeRuns (s : BrState) : Bool := s != .disabled && s != .waiting

/-- SEAM's target of a bridge at its boundary (R222, R223). -/
def bridgeTarget (i o : EndInfo) (dt : DT) (b : MT) : Int :=
  if exactHolds i o then exactPos (unwrapMt dt o.f b) i.f o.f else targetPos i.count i.frac (deltaIn i.f)

/-- A bridge at boundary b of its output domain (R222–R225): the loop update, HOLDOVER of an EXACT end, the return to
EXACT, a slip, and an end that stops rendering.  The flag says that a slip is to be reported.  The other transitions of
R225 have steps of their own. -/
def bridgeBoundary (br : Bridge) (i o : EndInfo) (dt : DT) (b : MT) : Bridge × Bool :=
  let rho0 := rhoNom i.f o.f
  if bridgeRuns br.state && !(i.rendering && o.rendering) then
    ({ bridgeFade br b with state := .waiting, loop := { br.loop with timeout := false } }, false)
  else match br.state with
  | .exact =>
    if exactHolds i o then
      ({ br with loop := { br.loop with pos := exactPos (unwrapMt dt o.f b) i.f o.f, rho := rho0, rhoU := rho0, err := 0 } }, false)
    else ({ br with state := .track,
                    loop := { br.loop with pos := exactPos (unwrapMt dt o.f b) i.f o.f, rho := rho0, rhoU := rho0,
                                           fine := 0, off := 0, blocks := 0 } }, false)
  | .acquire =>
    ({ br with follower := false, loop := loopStep br.loop true (targetPos i.count i.frac (deltaIn i.f)) rho0 }, false)
  | .track =>
    let l := loopStep br.loop false (bridgeTarget i o dt b) rho0
    if exactHolds i o && decide (l.err.natAbs ≤ 2 ^ 16) then
      ({ br with state := .exact, follower := false,
                 loop := { l with pos := exactPos (unwrapMt dt o.f b) i.f o.f, rho := rho0, rhoU := rho0 } }, false)
    else if slipLimit < l.err.natAbs ∧ l.off < 64 then
      ({ bridgeFade br b with state := .acquire, follower := false, slips := cInc br.slips,
                              loop := loopInit { l with timeout := false } (targetPos i.count i.frac (deltaIn i.f)) rho0 }, true)
    else ({ br with loop := l, follower := false }, false)
  | _ => (br, false)

/-- A follower's bridge takes the state, P_b and ρ_u that the leader sent for the block from b (R224, R386); the range condition of R225 it
follows by itself on ρ_u. -/
def bridgeLed (br : Bridge) (st : BrState) (p u rho0 : Int) (b : MT) : Bridge :=
  let br := if st = .track ∧ br.state ≠ .track then { br with state := .track, gate := gateZero, loop := { br.loop with timeout := false, off := 0 } }
    else if st = .acquire ∧ br.state ≠ .acquire then { bridgeFade br b with state := .acquire }
    else br
  { br with follower := true, loop := { br.loop with pos := p, rhoU := u, off := if beyond1500 u rho0 then br.loop.off + 1 else 0 } }

/-- A waiting bridge whose ends both render (R225). -/
def bridgeStart (br : Bridge) (i o : EndInfo) (dt : DT) (b : MT) : Bridge :=
  if exactHolds i o then
    { br with state := .exact, gate := gateZero,
              loop := { pos := exactPos (unwrapMt dt o.f b) i.f o.f, rho := rhoNom i.f o.f, rhoU := rhoNom i.f o.f } }
  else { br with state := .acquire, loop := loopInit {} (targetPos i.count i.frac (deltaIn i.f)) (rhoNom i.f o.f) }

/-- Encodings of R225. -/
def brCode : BrState → Nat
  | .disabled => 0 | .waiting => 1 | .acquire => 2 | .track => 3 | .exact => 4 | .range => 5

/-- ρ_u in UQ8.24. -/
def ratio24 (u : Int) : Nat := wrapNat 32 (u / 256)

/-- Position error in nanoseconds of the input. -/
def errNs (e : Int) (f : Nat) : Int := if f = 0 then 0 else rne (e * 1000000000) (f * 2 ^ 32)

/-- SEAM_CFG reply after the status byte (R226). -/
def bridgeReply (br : Bridge) (inDom fIn : Nat) (mt : MT) : List Byte :=
  p8 (brCode br.state) ++ p8 (b2n br.loop.timeout + 2 * b2n br.follower) ++ p8 inDom ++ p32 mt.toNat ++
    p32 (ratio24 br.loop.rhoU) ++ s32 (errNs br.loop.err fIn) ++ p32 br.slips.toNat ++ p32 br.ranges.toNat

/-- A change of an enabled bridge's configuration at b (R227): inside the input domain a crossfade, else WAIT. -/
def bridgeSet (br : Bridge) (c : SeamCfg) (sameDom : Bool) (b : MT) : Bridge :=
  if br.cfg = c then br else
  let x : Bridge := { br with ringOld := if br.ring.xs.isEmpty then br.ringOld else (br.cfg, br.ring), ring := {} }
  if !c.enable then { bridgeFade x b with cfg := c, state := .disabled, loop := { br.loop with timeout := false } }
  else if !br.cfg.enable then { x with cfg := c, state := .waiting, slips := 0, ranges := 0, loop := {}, gate := gateZero }
  else if sameDom && br.cfg.outDom == c.outDom && bridgeRuns br.state then
    { x with cfg := c, oldSrc := some ((match br.oldSrc with | some (o, t) => if t = b then o else br.cfg | none => br.cfg), b) }
  else { bridgeFade x b with cfg := c, state := .waiting, loop := { br.loop with timeout := false } }

/-- Input sample k of the source a configuration names, as far as the bridge's rings hold it (R217). -/
def ringRead (br : Bridge) (c : SeamCfg) (k : MT) : Option Int :=
  let l := if c = br.cfg then br.ring else if c = br.ringOld.1 then br.ringOld.2 else {}
  let n := mtDiff l.next k
  if 0 < n then l.xs[n.toNat - 1]? else none

/-! The decimator (R230–R232). -/

/-- R_c of R230 for a domain rate. -/
def rcOf (f : Nat) : Nat := 16 / rateM f

/-- 22-bit two's complement. -/
def wrap22 (v : Int) : Int := sext 22 (wrapNat 22 v)

/-- Integrators in cascade. -/
def integrate : List Int → Int → List Int × Int
  | [], x => ([], x)
  | r :: rs, x => let y := wrap22 (r + x); let t := integrate rs y; (y :: t.1, t.2)

/-- Combs in cascade: each holds its last input. -/
def combs : List Int → Int → List Int × Int
  | [], x => ([], x)
  | r :: rs, x => let t := combs rs (wrap22 (x - r)); (x :: t.1, t.2)

/-- log₂ R_c. -/
def log2Rc (rc : Nat) : Nat := if rc = 16 then 4 else if rc = 8 then 3 else 2

/-- v of R231 as Q1.31, with its clip. -/
def cicOut (v : Int) (rc : Nat) : Int × Nat :=
  if v = (rc : Int) ^ 5 then (q31Max, 1) else satClip (v * 2 ^ (31 - 5 * log2Rc rc))

/-- r(n) of R232 for odd n. -/
def hbR (K beta : Nat) (n : Nat) : Q :=
  let x := fxMul fxPi (fxOfQ ⟨n, 2⟩)
  let s := fxDiv (fxCosSin x).2 x
  let r := fxSqrt (fxOne - fxOfQ ⟨n * n, (K + 1) * (K + 1)⟩)
  f64 (fxToQ (fxMul s (fxDiv (fxBesselI0 ((beta : Int) * r)) (fxBesselI0 ((beta : Int) * fxOne)))))

/-- c(n) of R232, n ≥ 0. -/
def hbC (K beta : Nat) (n : Nat) : Int :=
  if n = 0 then 2 ^ 29 else if n % 2 = 0 then 0 else
    let odd := (List.range (K + 1)).filter (fun i => i % 2 = 1)
    let sum := odd.foldl (fun a i => qAdd a (qMul (qOfInt 2) (hbR K beta i))) ⟨0, 1⟩
    qRne (qDiv (qMul (qOfInt (2 ^ 29)) (hbR K beta n)) sum)

/-- One half-band output from a history, newest first. -/
def hbOut (K beta : Nat) (hist : List Int) : Int × Nat :=
  satClip (rne ((List.range (2 * K + 1)).foldl (fun (s : Int) (i : Nat) => s + hbC K beta ((i : Int) - K).natAbs * lineAt hist i) 0) (2 ^ 30))

/-- One PDM bit: the decimator, an HB2 output where one falls, and clips. -/
def decimBit (d : Decim) (rc : Nat) (bitv : Bool) : Decim × Option Int × Nat :=
  let i := integrate d.integ (if bitv then 1 else -1)
  let d := { d with integ := i.1 }
  if d.phase + 1 < rc then ({ d with phase := d.phase + 1 }, none, 0) else
    let c := combs d.comb i.2
    let v := cicOut c.2 rc
    let d := { d with phase := 0, comb := c.1, hb1 := (v.1 :: d.hb1).take 15 }
    if !d.hb1Odd then ({ d with hb1Odd := true }, none, v.2) else
      let h1 := hbOut 7 5 d.hb1
      let d := { d with hb1Odd := false, hb2 := (h1.1 :: d.hb2).take 31 }
      if !d.hb2Odd then ({ d with hb2Odd := true }, none, v.2 + h1.2) else
        let h2 := hbOut 15 6 d.hb2
        ({ d with hb2Odd := false }, some h2.1, v.2 + h1.2 + h2.2)

/-- PDM bits since the last HB2 output. -/
def decimPhase (d : Decim) (rc : Nat) : Nat := d.phase + rc * b2n d.hb1Odd + 2 * rc * b2n d.hb2Odd

/-- A block's PDM bits into a microphone (R229–R232, R235); the flag says that STUCK is due. -/
def micBits (m : Mic) (rc : Nat) (bs : List Bool) : Mic :=
  bs.foldl (fun m bt =>
    let r := decimBit m.dec rc bt
    let same := if bt = m.lastBit then m.same + 1 else 1
    { m with dec := r.1, clips := cAdd m.clips r.2.2, lastBit := bt, same := same,
             stuck := if bt = m.lastBit then m.stuck else false,
             bitsRun := if m.state = .start then m.bitsRun + 1 else m.bitsRun,
             outsRun := if m.state = .start ∧ r.2.1.isSome then m.outsRun + 1 else m.outsRun,
             ring := match r.2.1 with
               | some y => { next := m.ring.next + 1, xs := (y :: m.ring.xs).take 512 }
               | none => m.ring }) m

/-- Δ of R234. -/
def micDelta (c : MicCfg) (f : Nat) : Int :=
  let rc := rcOf f
  let fm : Q := ⟨3125000, 4 * rc⟩
  let share := qSub (qFrac ((28 * 64 + c.whole * 64 + c.frac : Nat) : Int) (64 * f)) (qFrac ((5 * (rc - 1) + 74 * rc : Nat) : Int) (2 * 3125000))
  qRne (qMul (qMul share fm) (qOfInt (2 ^ 32)))

/-- ρ_n × 2^32 of a microphone. -/
def micRho (f : Nat) : Int := rhoNom 3125000 (4 * rcOf f * f)

/-- The loop target of a microphone: MC and the fraction of its sample period elapsed. -/
def micTarget (m : Mic) (f : Nat) : Int :=
  let rc := rcOf f
  targetPos (m.ring.next - 1) (decimPhase m.dec rc * 65536 / (4 * rc)) (micDelta m.cfg f)

/-- One read of a microphone's ring. -/
def micRead (m : Mic) (f : Nat) (pos : Int) : Int × Nat :=
  satClip (readAt micU 16 (f * 4 * rcOf f) 3125000 pos (lineSample m.ring))

/-- The 16 output samples from k. -/
def micBlock (m : Mic) (f : Nat) (k : MT) : List (Int × Nat) :=
  (List.range 16).map (fun n =>
    let j := k + BitVec.ofNat 32 n
    let fin (y : Int) (g : Int) : Int × Nat :=
      let z := mulGain (mulGain y g).1 (cosAt m.trim j)
      if m.cfg.invert then (negSat z.1, z.2 + b2n (z.1 == q31Min)) else z
    match m.fade with
    | some (p, u, t) => fin (micRead m f (posMod (p + mtDiff j t * u))).1 (fadeAt t j)
    | none =>
      if m.state ≠ .track then (0, 0) else
      let p := posMod (m.loop.pos + (n : Int) * m.loop.rhoU)
      let new := (micRead m f p).1
      let y := match m.step with
        | some (d, t) => xfade 64 (mtDiff j t) (micRead m f (posMod (p + d))).1 new
        | none => new
      fin y (gateAt m.gate f j))

/-- The microphone after its block from k. -/
def micAdvance (m : Mic) (f : Nat) (k : MT) (ys : List (Int × Nat)) : Mic :=
  let b := k + 16
  { m with
      loop := { m.loop with pos := if m.state = .track ∨ m.state = .acquire then posMod (m.loop.pos + 16 * m.loop.rhoU) else m.loop.pos },
      gate := if m.state = .track then gateNext m.gate f true b else m.gate,
      step := match m.step with
        | some (d, t) => if 64 ≤ mtDiff b t then none else some (d, t)
        | none => none,
      fade := match m.fade with
        | some (p, u, t) => if 16 ≤ mtDiff b t then none else some (p, u, t)
        | none => none,
      trim := rampSettle m.trim b,
      clips := cAdd m.clips (ys.foldl (fun a y => a + y.2) 0),
      out := linePush 2048 m.out k (ys.map Prod.fst), mt := b }

/-- A fade of a microphone's output from b. -/
def micFade (m : Mic) (b : MT) : Mic :=
  { m with fade := if m.state = .track then some (m.loop.pos, m.loop.rhoU, b) else m.fade, gate := gateZero, step := none }

/-- A microphone at boundary b of its domain (R235): the loop, a slip (flag), a domain that stops rendering, and the
start of the decimator. -/
def micBoundary (m : Mic) (f : Nat) (rendering : Bool) (b : MT) : Mic × Bool :=
  match m.state with
  | .disabled => (m, false)
  | .waiting => (if rendering then { m with state := .start, bitsRun := 0, outsRun := 0 } else m, false)
  | .start => (if rendering then m else { m with state := .waiting }, false)
  | .acquire =>
    if !rendering then ({ m with state := .waiting, loop := { m.loop with timeout := false } }, false)
    else ({ m with loop := loopStep m.loop true (micTarget m f) (micRho f) }, false)
  | .track =>
    if !rendering then ({ micFade m b with state := .waiting }, false) else
    let l := loopStep m.loop false (micTarget m f) (micRho f)
    if slipLimit < l.err.natAbs then
      ({ micFade m b with state := .acquire, slips := cInc m.slips,
                          loop := loopInit { l with timeout := false } (micTarget m f) (micRho f) }, true)
    else ({ m with loop := l }, false)

def micCode : MicState → Nat
  | .disabled => 0 | .waiting => 1 | .start => 2 | .acquire => 3 | .track => 4

/-- The total delay of R234 in nanoseconds. -/
def micDelayNs (c : MicCfg) (f : Nat) : Nat :=
  if f = 0 then 0 else (rne (((28 * 64 + c.whole * 64 + c.frac) * 1000000000 : Nat) : Int) (64 * f)).toNat

/-- The frequency offset of R236 from ρ_u. -/
def micOffsetPpb (m : Mic) (f : Nat) : Int :=
  let r := micRho f
  if m.state = .acquire ∨ m.state = .track then rne ((m.loop.rhoU - r) * 1000000000) r.toNat else 0

/-- MIC_CFG reply after the status byte. -/
def micReply (m : Mic) (f : Nat) (mt : MT) : List Byte :=
  p8 (micCode m.state) ++ p8 (b2n m.stuck + 2 * b2n m.loop.timeout) ++ p8 m.cfg.domain ++ p32 mt.toNat ++
    p32 (micDelayNs m.cfg f) ++ s32 (micOffsetPpb m f) ++ p32 m.clips.toNat

/-- MIC_CFG SET in force at b (R236). -/
def micSet (m : Mic) (c : MicCfg) (f : Nat) (b : MT) (atOnce : Bool) : Mic :=
  let g := cdbGain (clampCdb c.trim)
  let d := micDelta c f - micDelta m.cfg f
  let live := m.state = .track ∨ m.state = .acquire
  let m' := { m with cfg := c, trim := if atOnce then rampHold g else if g = m.trim.cur.v1 then m.trim else cosTo m.trim g b (outLen 10000 f) }
  let m' := if d ≠ 0 ∧ live ∧ c.enable then
      { m' with loop := { m'.loop with pos := posMod (m.loop.pos - d) }, step := if m.state = .track then some (d + (match m.step with | some (o, t) => if t = b then o else 0 | none => 0), b) else none }
    else m'
  if !c.enable then { micFade m' b with state := .disabled, loop := { m'.loop with timeout := false } }
  else if !m.cfg.enable then { m' with state := .waiting, bitsRun := 0, outsRun := 0, gate := gateZero, loop := {}, clips := m.clips }
  else m'

/-- Whether the clock of a microphone's pair runs (R229). -/
def clkRuns (t : Tab Mic) (i : Nat) : Bool := (tabGet t (i / 2 * 2)).cfg.enable || (tabGet t (i / 2 * 2 + 1)).cfg.enable

/-! The single-frequency detector (R237, R238). -/

/-- ω of R237, in binary64. -/
def detOmega (freqMHz f : Nat) : Q := f64 (qTurn ⟨freqMHz, 1000⟩ f)

/-- c of R237. -/
def detC (freqMHz f : Nat) : Int := min (2 ^ 31 - 1) (qRne (f64 (qMul (qOfInt (2 ^ 31)) (f64 (qCos (detOmega freqMHz f))))))

/-- One sample of the recursion in 72 bits. -/
def detSample (c : Int) (r : DetRun) (x : Int) : DetRun :=
  { r with n := r.n + 1, s1 := sext 72 (wrapNat 72 (x + rne (c * r.s1) (2 ^ 30) - r.s2)), s2 := r.s1 }

/-- A window that has taken all its samples: its result is due, and with REPEAT the next begins at t₀. -/
def detWindow (d : Det) (r : DetRun) (t0 : MT) : Det :=
  { d with ended := d.ended ++ [r], run := if d.repeats && !d.stopping then some { t0 := t0 } else none }

/-- A detector before sample j: where MT has not counted on from the window's last sample, the samples between are missing, and a window
that they end completes, the next standing on its grid. -/
def detSkip (d : Det) (j : MT) : Det :=
  match d.run with
  | none => d
  | some r =>
    let n := mtDiff j r.t0
    if n = r.n ∨ (n < 0 ∧ r.n = 0) then d
    else if n < 0 then { d with run := some { r with disturbed := true } }
    else if n < d.len then { d with run := some { r with n := n.toNat, disturbed := true } }
    else
      let w := n.toNat / d.len
      let d := detWindow d { r with disturbed := true } (r.t0 + BitVec.ofNat 32 (w * d.len))
      { d with run := d.run.map (fun x => { x with n := n.toNat % d.len, disturbed := decide (n.toNat % d.len ≠ 0) }) }

/-- A block from k of samples (value, produced in TRACK) into a detector. -/
def detBlock (d : Det) (f : Nat) (k : MT) (xs : List (Int × Bool)) : Det :=
  let c := detC d.freq f
  (xs.zipIdx).foldl (fun d p =>
    let j := k + BitVec.ofNat 32 p.2
    let d := detSkip d j
    match d.run with
    | none => d
    | some r =>
      if mtDiff j r.t0 < 0 then d else
      let r := { detSample c r p.1.1 with disturbed := r.disturbed || !p.1.2 }
      if r.n < d.len then { d with run := some r } else detWindow d r (r.t0 + BitVec.ofNat 32 d.len)) d

/-- The result of a completed window, each binary64 operation rounded in the order written (log entry 4). -/
def detResult (d : Det) (f : Nat) (r : DetRun) (old : DetResult) : DetResult :=
  let w := detOmega d.freq f
  let S1 := f64 ⟨r.s1, 2 ^ 31⟩
  let S2 := f64 ⟨r.s2, 2 ^ 31⟩
  let c := f64 (qCos w)
  let s := f64 (qSin w)
  -- S₁ − e^(−jω) S₂
  let re := f64 (qSub S1 (f64 (qMul c S2)))
  let im := f64 (qMul s S2)
  let ph := f64 (qMul w (qOfInt ((d.len : Int) - 1)))
  let cn := f64 (qCos ph)
  let sn := f64 (qSin ph)
  let X := f64 (qAdd (f64 (qMul cn re)) (f64 (qMul sn im)))
  let Y := f64 (qSub (f64 (qMul cn im)) (f64 (qMul sn re)))
  let mag := f64 (qSqrt (f64 (qAdd (f64 (qMul X X)) (f64 (qMul Y Y)))))
  let a := f64 (qDiv (f64 (qMul (qOfInt 2) mag)) (qOfInt d.len))
  let th := f64 (qAtan2 Y X)
  { valid := !r.disturbed, disturbed := r.disturbed,
    level := if qLe (qMul (qPow10 ⟨72, 10⟩) a) (qOfInt 1) then -14400
      else qRne (f64 (qMul (qOfInt 2000) (f64 (qLog10 a)))),
    amp := min (2 ^ 32 - 1) (qRne (qMul (qOfInt (2 ^ 30)) a)).toNat,
    phase := qRne (f64 (qDiv (qMul th (qOfInt 18000)) qPi)),
    mt := r.t0, windows := cInc old.windows }

/-- Detector flags of R238. -/
def detFlags (d : Det) : Nat :=
  b2n (d.run.isSome || !d.ended.isEmpty) + 2 * b2n d.res.valid + 4 * b2n d.res.disturbed + 8 * b2n d.lateStart

/-- TONE_DET_CFG reply after the status byte. -/
def detReply (d : Det) : List Byte :=
  p8 (detFlags d) ++ s16 d.res.level ++ p32 d.res.amp ++ s16 d.res.phase ++ zeros 2 ++ p32 d.res.mt.toNat ++
    p32 d.res.windows.toNat

end Sys2Proof.Machine
end

