-- ==== Sys2Proof/Machine/Measure.lean ====
section
/-! DEFINITION. Calibration, room tracking and sensing (R243–R261, R504, R514, R515). -/

namespace Sys2Proof.Machine

/-! Excitation (R246). -/

/-- A of R246 as a linear gain of UQ4.28. -/
def calAmp (c : CalCfg) : Int := cdbGain (clampCdb c.level)

/-- A rational of a UQ4.28 gain in binary32. -/
def gainF (g : Int) : F32 := f32 ⟨g, 268435456⟩

/-- The raised-cosine window of a sweep at k. -/
def sweepW (n : Nat) (k : Nat) : F32 :=
  if k < 256 then f32 ⟨cosW 256 k, 268435456⟩
  else if n ≤ k + 256 then f32 ⟨cosW 256 ((n : Int) - 1 - k), 268435456⟩
  else fOneF

/-- L_s = N / ln(f_hi / f_lo) in binary32. -/
def sweepL (c : CalCfg) : F32 := f32Div (f32OfInt c.n) (f32 (qLn (f32Val (f32Div (f32OfInt c.fHi) (f32OfInt c.fLo)))))

/-- x(k) of a sweep, Q1.31; each operation rounds to binary32 in the order the formula is written. -/
def sweepAt (c : CalCfg) (f k : Nat) : Int :=
  let ls := sweepL c
  let a := f32Div (f32Mul (f32Mul (f32Mul fTwo fPi) (f32 ⟨c.fLo, 1000⟩)) ls) (f32OfInt f)
  let e := f32Sub (f32 (qExp (f32Val (f32Div (f32OfInt k) ls)))) fOneF
  let x := f32Mul (f32Mul (gainF (calAmp c)) (sweepW c.n k)) (f32Sin (f32Mul a e))
  sat31 (qRne (qMul (qOfInt (2 ^ 31)) (f32Val x)))

/-- Feedback taps of the shift register (R246). -/
def mlsTaps : Nat → List Nat
  | 12 => [12, 6, 4, 1] | 13 => [13, 4, 3, 1] | 14 => [14, 5, 3, 1] | 15 => [15, 14]
  | 16 => [16, 15, 13, 4] | 17 => [17, 14] | _ => [18, 11]

/-- The register's last stage is the output; the feedback enters stage 1 (log entry 9).  Stages are a list, stage 1
first. -/
def mlsGo (order : Nat) : Nat → List Bool → List Bool
  | 0, _ => []
  | n + 1, r => r.getD (order - 1) false ::
      mlsGo order n (((mlsTaps order).foldl (fun a t => a != r.getD (t - 1) false) false) :: r.take (order - 1))

/-- One period of the sequence. -/
def mlsSeq (order : Nat) : List Bool := mlsGo order (2 ^ order - 1) (List.replicate order true)

/-- Excitation length in samples. -/
def excLen (c : CalCfg) : Nat := if c.mls then (c.reps + 1) * (2 ^ c.order - 1) else c.n

/-- Slot length (R245). -/
def slotOf (c : CalCfg) : Nat := (excLen c + c.irTaps + 15) / 16 * 16

/-- Capture length of the store check (R244). -/
def capLen (c : CalCfg) : Nat := if c.mls then 2 ^ c.order - 1 else c.n + c.irTaps

/-- Captured samples the response is computed from. -/
def capSpan (c : CalCfg) : Nat := if c.mls then excLen c else c.n + c.irTaps

/-- Excitation samples k to k + n − 1 of a slot, 0 after the excitation. -/
def excRead (c : CalCfg) (f k n : Nat) : List Int :=
  let a := sat31 (rne (calAmp c * 2 ^ 31) 268435456)
  let q := if c.mls then mlsSeq c.order else []
  (List.range n).map (fun i =>
    let j := k + i
    if excLen c ≤ j then 0
    else if c.mls then (if q.getD (j % (2 ^ c.order - 1)) false then a else negSat a)
    else sweepAt c f j)

/-! Responses (R247). -/

/-- Smallest m with n ≤ 2^m. -/
def log2Up (n : Nat) : Nat := if n ≤ 1 then 0 else Nat.log2 (n - 1) + 1

/-- A signal padded to 2^m complex points. -/
def padC (m : Nat) (xs : List F32) : List C32 := xs.map (fun x => (x, fZero)) ++ List.replicate (2 ^ m - xs.length) (fZero, fZero)

/-- h of a sweep, with the transform of R196 (log entry 10). -/
def sweepIr (c : CalCfg) (exc cap : List F32) : List F32 :=
  let m := log2Up (c.n + c.irTaps)
  let X := fft true m (padC m exc)
  let Y := fft true m (padC m cap)
  let p (z : C32) : F32 := f32Add (f32Mul z.1 z.1) (f32Mul z.2 z.2)
  let eps := f32Mul (f32 ⟨1, 1000000⟩) (X.foldl (fun a z => f32Max a (p z)) fZero)
  let H := (X.zip Y).map (fun q => let w := cmul q.2 (q.1.1, f32Neg q.1.2); let d := f32Add (p q.1) eps; (f32Div w.1 d, f32Div w.2 d))
  ((fft false m H).take c.irTaps).map Prod.fst

/-- a of R247: the periods after the first summed sample by sample. -/
def mlsFold (P : Nat) : List F32 → List F32
  | xs => (List.range P).map (fun k =>
      (List.range (xs.length / P - 1)).foldl (fun s r => f32Add s (xs.getD ((r + 1) * P + k) fZero)) fZero)

/-- h of MLS. -/
def mlsIr (c : CalCfg) (cap : List F32) : List F32 :=
  let P := 2 ^ c.order - 1
  let a := mlsFold P cap
  let q := mlsSeq c.order
  let d := f32Mul (f32Mul (gainF (calAmp c)) (f32OfInt c.reps)) (f32OfInt ((P : Int) + 1))
  (List.range c.irTaps).map (fun n =>
    f32Div ((a.zipIdx).foldl (fun s (p : F32 × Nat) => if q.getD ((p.2 + P - n % P) % P) false then f32Add s p.1 else f32Sub s p.1) fZero) d)

/-- 20 log₁₀ of a positive binary32 in centi-dB; −14,400 for zero. -/
def cdbOf (x : F32) : Int := if qLe (f32Val x) ⟨0, 1⟩ then -14400 else clampI (-32768) 32767 (qRne (qMul (qOfInt 2000) (qLog10 (f32Val x))))

def f32Abs (x : F32) : F32 := x &&& 0x7FFFFFFF#32

/-- The figures of a response (R247). -/
def responseOf (h : List F32) (disturbed : Bool) : Response :=
  let pk := (h.zipIdx).foldl (fun (a : F32 × Nat) p => if f32Lt a.1 (f32Abs p.1) then (f32Abs p.1, p.2) else a) (fZero, 0)
  let thr := f32Mul (f32 ⟨1, 10⟩) pk.1
  let on := (h.findIdx? (fun x => !(f32Lt (f32Abs x) thr))).getD 0
  let tail := h.drop (h.length - h.length / 8)
  let ms := f32Div (tail.foldl (fun s x => f32Add s (f32Mul x x)) fZero) (f32OfInt tail.length)
  { h := h, disturbed := disturbed, peak := pk.2, peakLevel := cdbOf pk.1, onset := on,
    noise := if pk.1 = fZero then 0 else cdbOf (f32Div (f32Sqrt ms) pk.1) }

/-- The response of a capture (oldest first, Q1.31). -/
def captureResponse (c : CalCfg) (f : Nat) (cap : List Int) (disturbed : Bool) : Response :=
  let xs := cap.map q31F
  let h := if c.mls then mlsIr c xs else sweepIr c ((excRead c f 0 c.n).map q31F) xs
  responseOf h disturbed

/-- Index of a speaker–microphone pair. -/
def pairIx (spk mic : Nat) : Nat := spk * 8 + mic

/-! A measurement's progress. -/

/-- Latency in samples from an excitation sample's place in the slot to the microphone's output sample that carries
it (R247): landing to emission, the chain's delays for CHAIN injection, and the 28 samples of R234. -/
def calLat (c : CalCfg) (align look : Nat) : Nat := 32 + (if c.output then 0 else align + look) + 28

/-- Start and end of slot i. -/
def slotStart (r : CalRun) (i : Nat) : MT := r.t0 + BitVec.ofNat 32 (i * r.slotLen)
def slotEnd (r : CalRun) (i : Nat) : MT := slotStart r (i + 1)

/-- The slot that sample k falls in, with the place in it; k is taken against the slot under way, since a measurement may last longer
than 2^31 samples. -/
def slotAt (r : CalRun) (k : MT) : Option (Nat × Nat) :=
  let q : Int := ((r.done * r.slotLen : Nat) : Int) + mtDiff k (slotStart r r.done)
  if q < 0 then none else
    let i := q.toNat / r.slotLen
    if i < r.cfg.spks.length then some (i, q.toNat % r.slotLen) else none

/-- Place of microphone sample k in the capture of slot i, whose column has a latency. -/
def capAt (r : CalRun) (i lat : Nat) (k : MT) : Int := mtDiff k (slotStart r i) - lat

/-! Proposals (R254). -/

/-- The deviation of a proposal at 1/24-octave point i of the reference curve, with bands' centres at points
24 (band + 1): linear between valid bands, held beyond them. -/
def devAt (valid : Nat) (dev : List Int) (i : Nat) : Int :=
  let pts := (List.range 10).filter (fun b => bit valid b)
  let at_ (b : Nat) : Int := dev.getD b 0
  let lo := (pts.filter (fun b => decide (24 * (b + 1) ≤ i))).getLast?
  let hi := (pts.filter (fun b => decide (i < 24 * (b + 1)))).head?
  match lo, hi with
  | some a, some b =>
    at_ a + rne ((at_ b - at_ a) * ((i : Int) - 24 * (a + 1))) (24 * (b - a))
  | some a, none => at_ a
  | none, some b => at_ b
  | none, none => 0

/-! Filter design (R248, R254; log entry 122). -/

/-- |z|². -/
def powC (z : C32) : F32 := f32Add (f32Mul z.1 z.1) (f32Mul z.2 z.2)

def meanF (xs : List F32) : F32 := f32Div (xs.foldl f32Add fZero) (f32OfInt xs.length)

/-- 10 log₁₀ of a power in centi-dB, exact; none for a power of zero. -/
def powLevel (x : F32) : Option Q := if qLe (f32Val x) ⟨0, 1⟩ then none else some (qMul (qOfInt 1000) (qLog10 (f32Val x)))

/-- A level as a whole number of centi-dB, the lowest for none. -/
def roundLevel (l : Option Q) : Int := clampI (-32768) 32767 ((l.map qRne).getD (-32768))

/-- Step 1's average: the powers of bins 0 to 2^(m−1), averaged over the microphones. -/
def powerAverage (m : Nat) (hs : List (List F32)) : List F32 :=
  let ps := hs.map (fun h => ((fft true m (padC m h)).map powC).take (2 ^ (m - 1) + 1))
  (List.range (2 ^ (m - 1) + 1)).map (fun k => meanF (ps.map (fun p => p.getD k fZero)))

/-- Step 1's smoothing: the mean power of the bins within 1/2n octave on either side. -/
def octaveSmooth (n : Nat) (p : List F32) : List F32 :=
  p.zipIdx.map (fun x =>
    if x.2 = 0 then x.1 else
    meanF ((p.zipIdx.filter (fun y => decide (x.2 ^ (2 * n) ≤ 2 * y.2 ^ (2 * n)) && decide (y.2 ^ (2 * n) ≤ 2 * x.2 ^ (2 * n)))).map Prod.fst))

/-- A level read from points (log₂ of the frequency in hertz, level), rising: linear between points, held beyond them. -/
def levelAt (ps : List (Q × Q)) (x : Q) : Q :=
  match (ps.filter (fun p => qLe p.1 x)).getLast?, ps.find? (fun p => qLt x p.1) with
  | some a, some b => qAdd a.2 (qMul (qSub b.2 a.2) (qDiv (qSub x a.1) (qSub b.1 a.1)))
  | some a, none => a.2
  | none, some b => b.2
  | none, none => ⟨0, 1⟩

/-- log₂ of the frequency of bin k of 2^m points at rate f, bin 0 as bin 1. -/
def binOctave (m f k : Nat) : Q := qLog2 (qFrac ((max k 1) * f : Nat) (2 ^ m))

/-- log₂ of the frequency of point i of a reference curve. -/
def curveOctave (i : Nat) : Q := qAdd (qLog2 ⟨15625, 1000⟩) ⟨i, 24⟩

/-- The reference curve of smoothed powers (R251). -/
def curveOf (m f : Nat) (p : List F32) : List Int :=
  let ps := (p.zipIdx.drop 1).filterMap (fun x => (powLevel x.1).map (fun l => (binOctave m f x.2, l)))
  (List.range 256).map (fun i => clampI (-32768) 32767 (qRne (levelAt ps (curveOctave i))))

/-- Steps 2 and 3: the correction of a bin in centi-dB, from its level (none: no power). -/
def correction (c : DesignCfg) (x : Q) (level : Option Q) : Q :=
  let target := qMul (qOfInt c.tilt) (qSub x (qLog2 (qOfInt 1000)))
  let g := match level with
    | some l => qMax (qOfInt (-(c.maxCut : Int))) (qMin (qOfInt c.maxBoost) (qSub target l))
    | none => qOfInt c.maxBoost
  let out : Q := if c.fLo ≠ 0 ∧ qLt x (qLog2 ⟨c.fLo, 1000⟩) then qSub (qLog2 ⟨c.fLo, 1000⟩) x
    else if c.fHi = 0 then ⟨1, 1⟩
    else if qLt (qLog2 ⟨c.fHi, 1000⟩) x then qSub x (qLog2 ⟨c.fHi, 1000⟩) else ⟨0, 1⟩
  qMul g (qMax ⟨0, 1⟩ (qSub ⟨1, 1⟩ (qMul ⟨3, 1⟩ out)))

/-- A half spectrum completed to 2^m points with x(2^m − k) = conj x(k). -/
def hermitian (xs : List C32) : List C32 := xs ++ ((xs.drop 1).dropLast.reverse.map (fun z => (z.1, f32Neg z.2)))

/-- Step 4, minimum phase: the cepstrum of the magnitudes of bins 0 to 2^(m−1) is folded onto its causal side. -/
def minPhase (m : Nat) (mags : List F32) : List F32 :=
  let logs := mags.map (fun a => (f32 (qLn (f32Val a)), fZero))
  let cep := (fft false m (hermitian logs)).map Prod.fst
  let fold := cep.zipIdx.map (fun x =>
    if x.2 = 0 ∨ x.2 = 2 ^ (m - 1) then (x.1, fZero) else if x.2 < 2 ^ (m - 1) then (f32Mul fTwo x.1, fZero) else (fZero, fZero))
  let h := (fft true m fold).map (fun z => let e := f32 (qExp (f32Val z.1)); (f32Mul e (f32Cos z.2), f32Mul e (f32Sin z.2)))
  (fft false m h).map Prod.fst

/-- Step 4, linear phase: symmetric about (taps − 1) / 2. -/
def linPhase (m taps : Nat) (mags : List F32) : List F32 :=
  let h := mags.zipIdx.map (fun x =>
    let a := qTurn ⟨-((x.2 * (taps - 1) : Nat) : Int), 2⟩ (2 ^ m)
    (f32Mul x.1 (f32 (qCos a)), if x.2 = 0 ∨ x.2 = 2 ^ (m - 1) then fZero else f32Mul x.1 (f32 (qSin a))))
  (fft false m (hermitian h)).map Prod.fst

/-- Step 5: the first taps values, the last taps / 8 weighted by the falling half of a Hann window. -/
def tailWindow (taps : Nat) (h : List F32) : List F32 :=
  let l := taps / 8
  (List.range taps).map (fun n =>
    let x := h.getD n fZero
    if n + l < taps then x else
      f32Mul x (f32Div (f32Add fOneF (f32Cos (f32Div (f32Mul fPi (f32OfInt ((n + l - taps : Nat) : Int))) (f32OfInt l)))) fTwo))

/-- Transform length of a design, as a power of two: twice the filter and what a response of len samples asks for, or more. -/
def designLog (taps len : Nat) : Nat := max (max (log2Up taps + 1) (log2Up len)) (Config.designLog taps)

/-- Steps 2 to 5 at rate f, from the level of each bin of 2^m points. -/
def designTaps (c : DesignCfg) (f m : Nat) (level : Nat → Option Q) : List F32 :=
  let mags := (List.range (2 ^ (m - 1) + 1)).map (fun k => f32 (qPow10 (qDiv (correction c (binOctave m f k) (level (max k 1))) (qOfInt 2000))))
  tailWindow c.taps (if c.linear then linPhase m c.taps mags else minPhase m mags)

/-- The design of a speaker from its smoothed powers (R248). -/
def designOf (c : DesignCfg) (f m : Nat) (p : List F32) : List F32 := designTaps c f m (fun k => powLevel (p.getD k fZero))

/-- The curve a proposal is designed from: the reference curve with the band deviations added. -/
def proposalCurve (curve : List Int) (valid : Nat) (dev : List Int) : List Int :=
  curve.zipIdx.map (fun p => p.1 + devAt valid dev p.2)

/-- The design of a proposal: the curve stands for the smoothed response of step 1 (R254). -/
def designCurve (c : DesignCfg) (f : Nat) (curve : List Int) : List F32 :=
  let m := designLog c.taps 0
  let ps := curve.zipIdx.map (fun x => (curveOctave x.2, qOfInt x.1))
  designTaps c f m (fun k => some (levelAt ps (binOctave m f k)))

/-! Octave bands (R251). -/

/-- Bin k of 2^m points at rate f lies in the octave about the centre of band i, 31.5 Hz × 2^i. -/
def inBand (m f i k : Nat) : Bool :=
  let c := 63 * 2 ^ i * 2 ^ m
  decide (c * c ≤ 2 * (2 * k * f) ^ 2) && decide ((2 * k * f) ^ 2 < 2 * (c * c))

/-- What the bins of band i hold. -/
def bandBins {α : Type} (m f i : Nat) (xs : List α) : List α := (xs.zipIdx.filter (fun x => inBand m f i x.2)).map Prod.fst

/-- Level of band i from the powers of bins 0 to 2^(m−1): their mean. -/
def bandLevel (m f : Nat) (p : List F32) (i : Nat) : Int :=
  let xs := bandBins m f i p
  if xs.isEmpty then Config.bandOpen i p else roundLevel (powLevel (meanF xs))

/-- The reference of a response at rate f: its band levels and its onset. -/
def trackRefOf (f : Nat) (h : Response) : TrackRef :=
  let m := log2Up h.h.length
  { levels := (List.range 10).map (bandLevel m f (powerAverage m [h.h])), onset := h.onset }

/-! Tracking spectra (R251). -/

/-- One transform of 1,024 points of a column and a microphone is added to a pair's spectra. -/
def specAdd (a : PairSpec) (xs ys : List Int) : PairSpec :=
  let tr (v : List Int) : List C32 := (fft true 10 (v.zipIdx.map (fun p => (f32Mul (q31F p.1) (Config.trackWeight p.2), fZero)))).take 513
  let X := tr xs
  let Y := tr ys
  let sum (old new : List F32) : List F32 := new.zipIdx.map (fun p => f32Add (old.getD p.2 fZero) p.1)
  let cross := ((X.zip Y).map (fun q => cmul (q.1.1, f32Neg q.1.2) q.2)).zipIdx.map (fun p => cadd (a.xy.getD p.2 (fZero, fZero)) p.1)
  { frames := a.frames + 1, xx := sum a.xx (X.map powC), yy := sum a.yy (Y.map powC), xy := cross }

/-- H_sm by bin; 0 where the column carried nothing. -/
def specH (a : PairSpec) : List C32 :=
  (a.xy.zip a.xx).map (fun q => if f32IsZero q.2 then (fZero, fZero) else (f32Div q.1.1 q.2, f32Div q.1.2 q.2))

/-- γ² by bin. -/
def specCoherence (a : PairSpec) : List F32 :=
  (a.xy.zip (a.xx.zip a.yy)).map (fun q =>
    if f32IsZero q.2.1 || f32IsZero q.2.2 then fZero else f32Div (powC q.1) (f32Mul q.2.1 q.2.2))

/-- The column's mean square in band i against full scale, by Parseval's relation. -/
def specEnergy (a : PairSpec) (f i : Nat) : F32 :=
  let w := (List.range 1024).foldl (fun s k => f32Add s (f32Mul (Config.trackWeight k) (Config.trackWeight k))) fZero
  f32Div (f32Mul fTwo ((bandBins 10 f i a.xx).foldl f32Add fZero)) (f32Mul (f32OfInt (1024 * a.frames)) w)

/-- What a pair's spectra give at the window's end: level and validity by band (R251). -/
def pairMeas (f s mic : Nat) (a : PairSpec) : TrackMeas :=
  let h := specH a
  let co := specCoherence a
  { speaker := s, mic := mic, h := h
    level := (List.range 10).map (bandLevel 10 f (h.map powC))
    valid := (List.range 10).map (fun i =>
      decide (0 < a.frames) && qLe ⟨1, 2⟩ (f32Val (meanF (bandBins 10 f i co))) && qLt ⟨1, 1000000⟩ (f32Val (specEnergy a f i)) &&
        decide (315000 * 2 ^ i ≤ 4500 * f)) }

/-- A power average of levels in centi-dB, rounded. -/
def powerMean (ls : List Int) : Int :=
  if ls.isEmpty then 0 else
    let s := qSum (ls.map (fun l => qPow10 ⟨l, 1000⟩))
    qRne (qMul (qOfInt 1000) (qLog10 (qDiv s (qOfInt ls.length))))

/-! Sensing. -/

/-- Warning and limit ranges of a rail in mV (R504). -/
def railRange (i : Nat) : (Int × Int) × (Int × Int) :=
  if i = 0 ∨ i = 2 then ((728, 772), (705, 795))
  else if i = 1 then ((776, 824), (752, 848))
  else if i = 3 ∨ i = 4 then ((1164, 1236), (1128, 1272))
  else if i = 6 then ((3201, 3399), (3102, 3498))
  else ((1746, 1854), (1692, 1908))

/-- Ranges of a temperature in 0.125 °C (R515): below −40 °C only WARN is set. -/
def tempRange : (Int × Int) × (Int × Int) := ((-320, 880), (-32768, 960))

/-- A sensor's update (R257, R518): three updates in a row outside a range set its state, and the first update inside
the range clears it (log entry 11). -/
def sensorUpdate (s : Sensor) (v : Int) (r : (Int × Int) × (Int × Int)) : Sensor :=
  let outW := decide (v < r.1.1) || decide (r.1.2 < v)
  let outL := decide (v < r.2.1) || decide (r.2.2 < v)
  let w := if outW then s.warnRun + 1 else 0
  let l := if outL then s.faultRun + 1 else 0
  let st := if 3 ≤ l ∨ (outL ∧ s.state = 2) then 2 else if 3 ≤ w ∨ (outW ∧ s.state ≠ 0) then 1 else 0
  { state := st, value := v, warnRun := min w 3, faultRun := min l 3 }

/-- A cable estimate (R257). -/
def cableUpdate (e : Estimate) (locked : Bool) (m : Nat) : Estimate :=
  if !locked then { e with valid := false }
  else { valid := true, value := m, flag := if 200 < m then true else if m < 190 then false else e.flag }

/-- The channel limit of a lane in 0.1 dB (R514): NET lanes by their speed, the Silton lanes, PCIe. -/
def laneLimit (i : Nat) (net10g : Bool) : Nat := if i < 4 then (if net10g then 60 else 100) else if i < 6 then 250 else 280

/-- A loss estimate (R514). -/
def lossUpdate (e : Estimate) (up : Bool) (v lim : Nat) : Estimate :=
  if !up then { e with valid := false }
  else { valid := true, value := v, flag := if lim < v then true else if v + 10 ≤ lim then false else e.flag }

/-- The accessory of R258 from the impedances in ohms. -/
def accessoryOf (tip sleeve : Nat) : Nat :=
  if sleeve ≤ 70 ∧ tip ≤ 1000 then 1
  else if 800 ≤ sleeve ∧ sleeve ≤ 5000 then 2
  else if sleeve ≤ 70 ∧ 5000 < tip then 3
  else 4

/-- The button of an impedance (R258). -/
def buttonOf (ohms : Nat) : Option Nat :=
  if ohms ≤ 70 then some 0 else if 110 ≤ ohms ∧ ohms ≤ 180 then some 1
  else if 210 ≤ ohms ∧ ohms ≤ 290 then some 2 else if 360 ≤ ohms ∧ ohms ≤ 680 then some 3 else none

/-- An entry into the 8-entry button FIFO; an entry that finds it full is lost. -/
def buttonPush (s : Sense) (button : Nat) (long pressed : Bool) : Sense :=
  if s.fifo.length < 8 then
    { s with fifo := s.fifo ++ [{ button := button, long := long, pressed := pressed, overflow := s.lost }], lost := false }
  else { s with lost := true }

/-- SENSE_BUTTON as its oldest entry (R260). -/
def buttonWord (s : Sense) : Word :=
  match s.fifo with
  | [] => 0
  | b :: _ => BitVec.ofNat 32 (2 ^ 31 + 2 ^ 30 * b2n b.overflow + 4 * b.button + 2 * b2n b.long + b2n b.pressed)

/-- Payload of EV_SENSE (R259). -/
def senseEv (kind index new old : Nat) (value : Int) (dt : DT) : List Byte :=
  p8 kind ++ p8 index ++ p8 new ++ p8 old ++ s32 value ++ p64 dt.toNat

/-- SENSE_STATUS. -/
def senseStatus (s : Sense) : Word :=
  let anyS (t : Tab Sensor) (n : Nat) : Bool := t.any (fun kv => kv.2.state == n)
  BitVec.ofNat 32 (b2n (anyS s.rails 1) + 2 * b2n (anyS s.rails 2) + 4 * b2n (anyS s.temps 1) +
    8 * b2n (s.cables.any (fun kv => kv.2.flag)) + 16 * b2n (anyS s.temps 2) + 32 * b2n (s.losses.any (fun kv => kv.2.flag)))

/-- A rail or temperature register. -/
def sensorWord (x : Sensor) : Word := BitVec.ofNat 32 (2 ^ 30 * x.state + wrapNat 16 x.value)
def cableWord (e : Estimate) : Word := BitVec.ofNat 32 (2 ^ 31 * b2n e.valid + 2 ^ 30 * b2n e.flag + e.value)
def lossWord (e : Estimate) : Word := BitVec.ofNat 32 (2 ^ 31 * b2n e.valid + e.value)
def jackWord (s : Sense) : Word := BitVec.ofNat 32 (16 * s.accessory + b2n s.inserted)

end Sys2Proof.Machine
end

