-- ==== Sys2Proof/Machine/Dsp.lean ====
section
/-! DEFINITION. The DSP core: addresses, memory, the slots of a pair, repeats, exceptions (R262–R289).  How an exception
or TDONE ends a task is in Machine/Sched.lean; the instructions are in Machine/DspAlu.lean and Machine/DspRows.lean. -/

namespace Sys2Proof.Machine

/-! The memory a core sees (R281). -/

inductive Target where
  | data (core : Nat) | inst (core : Nat) | rom | shared | pool | stage | netRx | exchange
  deriving DecidableEq, Repr

/-- Device address of tile t's window (R23). -/
def tileBase (t : Nat) : Nat := 0x20000000 + t * 0x00800000

/-- The place of an offset in the own tile window. -/
def windowTarget (t off : Nat) : Option (Target × Nat) :=
  if off < 0x00200000 then some (.data (8 * t + off / 0x40000), tileBase t + off)
  else if off < 0x00280000 then some (.inst (8 * t + (off - 0x00200000) / 0x10000), tileBase t + off)
  else if 0x00400000 ≤ off ∧ off < 0x00600000 then some (.shared, tileBase t + off)
  else none

/-- Target and device address of a core address. -/
def coreTarget (id a : Nat) : Option (Target × Nat) :=
  let t := id / 8
  let n := id % 8
  if 0xE0000000 ≤ a ∧ a < 0xE0040000 then some (.data id, tileBase t + n * 0x40000 + (a - 0xE0000000))
  else if 0xE0100000 ≤ a ∧ a < 0xE0110000 then some (.inst id, tileBase t + 0x00200000 + n * 0x10000 + (a - 0xE0100000))
  else if 0xE0200000 ≤ a ∧ a < 0xE0200400 then some (.rom, a)
  else if 0xE0400000 ≤ a ∧ a < 0xE0600000 then some (.shared, tileBase t + 0x00400000 + (a - 0xE0400000))
  else if tileBase t ≤ a ∧ a < tileBase t + 0x00800000 then windowTarget t (a - tileBase t)
  else if 0x30000000 ≤ a ∧ a < 0x32000000 then some (.pool, a)
  else if 0x34A00000 ≤ a ∧ a < 0x34C00000 then some (.stage, a)
  else if 0x34C00000 ≤ a ∧ a < 0x35000000 then some (.netRx, a)
  else if 0x08780000 ≤ a ∧ a < 0x08800000 then some (.exchange, a)
  else none

/-- Whether an address is core-local and so never reaches the bus matrix. -/
def coreLocal (a : Nat) : Bool := decide (0xE0000000 ≤ a) && decide (a < 0xE1000000)

/-- Targets open to loads. -/
def loadOpen : Target → Bool
  | .exchange => false
  | _ => true

/-- Targets open to stores of a core; a peer's instruction memory answers by R282. -/
def storeOpen (id : Nat) : Target → Bool
  | .data _ | .shared | .pool | .stage | .exchange => true
  | .inst m => m != id
  | .rom | .netRx => false

/-- The mirror of the descriptor table in tile-shared memory (R290): offset in it of a device address. -/
def mirrorOff (d : Nat) : Option Nat :=
  let off := (d - 0x20000000) % 0x00800000
  if 0x20000000 ≤ d ∧ d < 0x24000000 ∧ 0x005E0000 ≤ off ∧ off < 0x00600000 then some (off - 0x005E0000) else none

/-- A descriptor's 32 bytes (R291); one that no image uses holds what DESC_DATA wrote. -/
def descBytes (raw : Tab Word) (i : Nat) (t : Task) : List Byte :=
  if !t.used then (List.range 8).flatMap (fun w => p32 (tabGet raw (8 * i + w)).toNat) else
  p32 t.entry.toNat ++ p32 t.voidEntry.toNat ++ p32 t.args.toNat ++ p32 t.edgesAt.toNat ++ p16 i ++
    p8 t.ins.length ++ p8 t.outs.length ++ p8 t.prio ++ p8 t.tile ++ p8 t.window ++ p8 t.dom ++
    p32 t.sentMt.toNat ++ p16 t.sentVoid ++ zeros 2

/-- One byte a core loads. -/
def coreByte (T : Tiles) (tg : Target × Nat) : Byte :=
  match tg.1 with
  | .rom => Config.bootRom tg.2
  | _ => match mirrorOff tg.2 with
    | some o => (descBytes T.sched.descRaw (o / 32) (tabGet T.sched.tasks (o / 32))).getD (o % 32) 0
    | none => memRead T.mem tg.2

/-- The 32-bit word at a core address, every byte in an open target. -/
def coreWord (T : Tiles) (id : Nat) (a : Word) : Word :=
  BitVec.ofNat 32 (leNat ((List.range 4).map (fun i => match coreTarget id (a + BitVec.ofNat 32 i).toNat with
    | some tg => coreByte T tg
    | none => 0)))

/-- Whether a core takes stores into its instruction memory (R282): blocked in TFETCH, or before its first TFETCH. -/
def coreIdle (c : DspCore) : Bool := c.fetching.isSome || !c.fetched

/-- Words written at core addresses, after the checks; those in the mirror are ignored. -/
def coreWords (T : Tiles) (id : Nat) : List (Word × Word) → Tiles
  | [] => T
  | (a, v) :: r =>
    let T := match coreTarget id a.toNat with
      | some (_, d) => if (mirrorOff d).isSome then T else { T with mem := memWriteBytes T.mem d (p32 v.toNat) }
      | none => T
    coreWords T id r

/-- A core's store; one into the mirror is counted (R290). -/
def coreStore (T : Tiles) (id : Nat) (ws : List (Word × Word)) : Tiles :=
  let T := coreWords T id ws
  if ws.any (fun x => ((coreTarget id x.1.toNat).bind (fun t => mirrorOff t.2)).isSome) then
    { T with sched := { T.sched with mirrorWrite := T.sched.mirrorWrite + 1 } }
  else T

/-! Instruction words (R273). -/

def opc (w : Word) : Nat := bits w.toNat 30 26
def isPair (w : Word) : Bool := bit w.toNat 31
def slotA (w : Word) : Bool := decide (opc w ≤ 0x0B)
def slotM (w : Word) : Bool := decide (0x10 ≤ opc w) && decide (opc w ≤ 0x14)
/-- FN[4:0], FN[3:0] of XF, FN[10:8] of RX. -/
def fn5 (w : Word) : Nat := bits w.toNat 4 0
def fn4 (w : Word) : Nat := bits w.toNat 3 0
def fnRx (w : Word) : Nat := bits w.toNat 10 8
/-- A field of the word. -/
def fld (w : Word) (hi lo : Nat) : Nat := bits w.toNat hi lo
/-- Sign-extended 16-bit immediate. -/
def imm16 (w : Word) : Word := BitVec.ofInt 32 (sext 16 (fld w 15 0))

/-- Registers by file: 0 V, 1 A, 2 S, 3 P, 4 N, 5 L, 6 special. -/
abbrev RegId := Nat × Nat

/-- Registers a slot-A word writes (R264).  TFETCH clears every register (log entry 13). -/
def aWrites (w : Word) : List RegId :=
  if opc w = 0x00 then (if fn5 w = 1 then
      (List.range 32).map (fun i => (0, i)) ++ (List.range 16).map (fun i => (2, i)) ++
      (List.range 8).flatMap (fun i => [(1, i), (3, i), (4, i), (5, i)]) else [])
  else if opc w = 0x01 then [(0, fld w 25 21)]
  else if opc w = 0x02 then [(1, fld w 25 23)]
  else if opc w = 0x03 then [(0, fld w 25 21)]
  else if opc w = 0x04 then (if fn5 w = 11 then [] else if fn5 w = 12 then [(2, 15)] else [(2, fld w 25 22)])
  else if opc w = 0x05 ∨ opc w = 0x06 ∨ opc w = 0x07 then [(2, fld w 25 22)]
  else if opc w = 0x08 then
    (let d := fld w 25 21
     match fn4 w with
     | 0 => [(3, d)] | 1 => [(2, d)] | 2 => [(4, d)] | 3 => [(2, d)] | 4 => [(5, d)] | 5 => [(2, d)]
     | 6 => [(0, d)] | 7 => [(2, d)] | 8 => [(0, d)] | 9 => [(6, d)] | 10 => [(2, d)] | _ => [])
  else if opc w = 0x0A then [(2, 15)]
  else []

/-- Registers a slot-M word writes. -/
def mWrites (w : Word) : List RegId :=
  let r := fld w 25 21
  (if opc w = 0x10 ∨ opc w = 0x14 then [(0, r)] else if opc w = 0x12 then [(2, r)] else []) ++
    (if fld w 17 16 = 1 ∨ fld w 17 16 = 2 then [(3, fld w 20 18)] else [])

/-- Whether a slot-A word is well encoded: reserved functions, reserved bits and fields out of range (R273–R279). -/
def aLegal (w : Word) : Bool :=
  let z (hi lo : Nat) : Bool := fld w hi lo == 0
  match opc w with
  | 0x00 => decide (fn5 w ≤ 4) && z 17 5
  | 0x01 => decide (fn5 w ≤ 0x10)
  | 0x02 => decide (fn5 w ≤ 7)
  | 0x03 => fnRx w == 0 && z 7 0
  | 0x04 => decide (fn5 w ≤ 12) && z 13 5 && (fn5 w != 11 || (z 25 22 && z 17 14))
  | 0x05 => z 17 16
  | 0x06 => z 17 16 && z 21 18
  | 0x07 => z 17 16 && z 21 18
  | 0x08 =>
    z 12 4 && (let d := fld w 25 21; let s := fld w 20 16
      match fn4 w with
      | 0 | 2 | 4 => decide (d < 8) && decide (s < 16)
      | 1 | 3 | 5 => decide (d < 16) && decide (s < 8)
      | 6 | 8 => decide (s < 16)
      | 7 => decide (d < 16)
      | 9 => decide (d ≤ 8) && decide (s < 16)
      | 10 => decide (d < 16) && decide (s ≤ 8)
      | _ => false)
  | 0x09 => z 18 16 && decide (fld w 21 19 ≤ 6)
  | 0x0A => z 18 16
  | 0x0B => decide (1 ≤ fld w 12 0) && (!bit w.toNat 25 || z 24 17)
  | _ => false

/-- Whether a slot-M word is well encoded. -/
def mLegal (w : Word) : Bool := !isPair w && (opc w == 0x10 || opc w == 0x11 || decide (fld w 25 21 < 16) || opc w == 0x14)

/-! Slot M (R268–R270). -/

/-- 2^k of R269. -/
def bufPow (len : Nat) : Nat := if len ≤ 1 then 1 else 2 ^ (Nat.log2 (len - 1) + 1)

/-- a ⊕ δ of R268 and R269 for register Pi = p and length l. -/
def oplus (modulo : Bool) (p l : Word) (a : Word) (delta : Word) : Word :=
  if !modulo ∨ l = 0 then a + delta
  else
    let B : Int := (p.toNat : Int) - ((p.toNat % bufPow l.toNat : Nat) : Int)
    BitVec.ofInt 32 (B + ((a.toNat : Int) + delta.toInt - B).emod (l.toNat : Int))

/-- What a slot-M word computes from the registers: its effective address, lane addresses, and Pi afterwards. -/
structure MAddr where
  ea : Word
  lanes : List Word
  post : Option (Nat × Word)
  deriving DecidableEq, Repr

def mAddr (c : DspCore) (w : Word) : MAddr :=
  let i := fld w 20 18
  let p := tabGet c.p i
  let l := tabGet c.l i
  let m := bit w.toNat 12
  let vec := opc w = 0x10 ∨ opc w = 0x11
  let size : Int := if vec then 32 else 4
  let imm : Word := BitVec.ofInt 32 (sext 12 (fld w 11 0) * size)
  let n := tabGet c.n (fld w 15 13)
  let am := fld w 17 16
  let ea := if am = 0 then oplus m p l p imm else if am = 3 then oplus m p l p n else p
  let post := if am = 1 then some (i, oplus m p l p n) else if am = 2 then some (i, oplus m p l p imm) else none
  { ea := ea, post := post,
    lanes := if vec then (List.range 8).map (fun j => if m then oplus m p l ea (BitVec.ofNat 32 (4 * j)) else ea + BitVec.ofNat 32 (4 * j))
      else [ea] }

/-- Whether a slot-M word stores. -/
def isStore (w : Word) : Bool := opc w == 0x11 || opc w == 0x13

/-- The one target every byte of an access lies in. -/
def oneTarget (id : Nat) (lanes : List Word) : Option Target :=
  let ts := lanes.flatMap (fun a => (List.range 4).map (fun i => (coreTarget id (a + BitVec.ofNat 32 i).toNat).map Prod.fst))
  match ts with
  | [] => none
  | t :: r => if r.all (· == t) then t else none

/-- How an access ends (R270, R281, R282, R286). -/
inductive Access where
  | fine
  /-- A cause known at the pair. -/
  | cause (code : Nat)
  /-- A store whose target answers with an error; matrix: the bus matrix reports it (R25). -/
  | late (matrix : Bool)
  /-- A load that the matrix answers with an error. -/
  | matrixLoad
  deriving DecidableEq, Repr

def mAccess (T : Tiles) (id : Nat) (c : DspCore) (w : Word) (loadBad : Bool) : Access :=
  let a := mAddr c w
  let l := tabGet c.l (fld w 20 18)
  if a.ea.toNat % 4 ≠ 0 ∨ (bit w.toNat 12 ∧ l.toNat % 4 ≠ 0) then .cause 0x05
  else
    let out := a.lanes.any (fun x => (coreTarget id x.toNat).isNone && !coreLocal x.toNat)
    match oneTarget id a.lanes with
    | none => if isStore w then (if out then .late true else .cause 0x08) else if out then .matrixLoad else .cause 0x06
    | some t =>
      if isStore w then
        if storeOpen id t then
          match t with
          | .inst m => if coreIdle (tabGet T.cores m) then .fine else .late false
          | _ => .fine
        else if t = .netRx then .late true else .cause 0x08
      else if loadOpen t then (if loadBad then .cause 0x07 else .fine)
      else .matrixLoad

/-- Vector register lanes. -/
def vGet (c : DspCore) (r : Nat) : List Word := (List.range 8).map (fun j => tabGet c.v (8 * r + j))
def vSet (c : DspCore) (r : Nat) (xs : List Word) : DspCore :=
  { c with v := (xs.zipIdx).foldl (fun t p => tabSet t (8 * r + p.2) p.1) c.v }
def aGet (c : DspCore) (r : Nat) : List (BitVec 80) := (List.range 8).map (fun j => tabGet c.a (8 * r + j))
def aSet (c : DspCore) (r : Nat) (xs : List (BitVec 80)) : DspCore :=
  { c with a := (xs.zipIdx).foldl (fun t p => tabSet t (8 * r + p.2) p.1) c.a }
def sGet (c : DspCore) (r : Nat) : Word := tabGet c.s r
def sSet (c : DspCore) (r : Nat) (x : Word) : DspCore := { c with s := tabSet c.s r x }

/-- Register results of a slot-M word, over the registers as the slot-A word left them. -/
def mRegs (T : Tiles) (id : Nat) (old c : DspCore) (w : Word) : DspCore :=
  let a := mAddr old w
  let r := fld w 25 21
  let c := match a.post with
    | some (i, v) => { c with p := tabSet c.p i v }
    | none => c
  match opc w with
  | 0x10 => vSet c r (a.lanes.map (coreWord T id))
  | 0x12 => sSet c r (coreWord T id a.ea)
  | 0x14 => vSet c r (List.replicate 8 (coreWord T id a.ea))
  | _ => c

/-- Words a slot-M store writes. -/
def mStores (old : DspCore) (w : Word) : List (Word × Word) :=
  let a := mAddr old w
  match opc w with
  | 0x11 => a.lanes.zip (vGet old (fld w 25 21))
  | 0x13 => [(a.ea, sGet old (fld w 25 21))]
  | _ => []

/-! Slot A. -/

/-- What a slot-A word does: the registers after it, a taken branch's target, a repeat level pushed, or a cause. -/
structure AOut where
  core : DspCore
  jump : Option Word := none
  push : Option Rpt := none
  /-- The body is skipped to this address (REP with count 0). -/
  skip : Option Word := none
  cause : Option (Nat × Word) := none
  /-- TDONE: the void mask of the outputs (R296). -/
  done : Option Word := none
  deriving DecidableEq, Repr, Inhabited

/-- Registers only. -/
def aReg (c : DspCore) : AOut := { core := c }

/-! The program counter (R271, R272). -/

/-- Levels left by a taken branch to t (R272): out of the innermost body, it pops every level whose body does not hold t. -/
def popBranch (t : Word) : List Rpt → List Rpt
  | [] => []
  | r :: rs =>
    let holds (x : Rpt) : Bool := decide (x.start.toNat ≤ t.toNat) && decide (t.toNat ≤ x.stop.toNat)
    if holds r then r :: rs else rs.filter holds

/-- The end of a body whose last word is among ws: the address that follows and the levels left. -/
def rptEnd (ws : List Word) (fall : Word) : List Rpt → Word × List Rpt
  | [] => (fall, [])
  | r :: rs =>
    if ws.contains r.stop then
      if 1 < r.count then (r.start, { r with count := r.count - 1 } :: rs) else rptEnd ws fall rs
    else (fall, r :: rs)

/-- PC and repeat stack after a pair whose words lie at ws.  A skipped body that ends an outer one counts as run for it (DESIGN CHOICE, log
entry 125). -/
def nextPc (c : DspCore) (o : AOut) (ws : List Word) (fall : Word) : Word × List Rpt :=
  match o.jump with
  | some t => (t, popBranch t c.rpt)
  | none => match o.push with
    | some r => (fall, r :: c.rpt)
    | none => match o.skip with
      | some a => rptEnd [a - 4] a c.rpt
      | none => rptEnd ws fall c.rpt

/-! Fetching (R281). -/

/-- Whether a word may be fetched from an address. -/
def fetchable (a : Word) : Bool :=
  a.toNat % 4 == 0 && ((decide (0xE0100000 ≤ a.toNat) && decide (a.toNat < 0xE0110000)) ||
    (decide (0xE0200000 ≤ a.toNat) && decide (a.toNat < 0xE0200400)))

/-- Whether the words an issue states are those at the core's PC.  The boot ROM's contents are not in the spec, so any
word may stand there; words that cannot be fetched are not compared. -/
def issueMatches (T : Tiles) (id : Nat) (c : DspCore) (i : Issue) : Bool :=
  let m (a : Word) (w : Word) : Bool :=
    if 0xE0100000 ≤ a.toNat ∧ a.toNat < 0xE0110000 ∧ a.toNat % 4 = 0 then coreWord T id a == w else true
  m c.pc i.w && (!isPair i.w || m (c.pc + 4) i.next)

/-- IFETCH at the pair. -/
def fetchFails (c : DspCore) (i : Issue) : Bool :=
  i.fetchBad || !fetchable c.pc || (isPair i.w && !fetchable (c.pc + 4))

/-- Whether a pair is illegal (R264, R279). -/
def pairIllegal (i : Issue) : Bool :=
  if slotM i.w then !mLegal i.w
  else !aLegal i.w || (isPair i.w && (!slotM i.next || !mLegal i.next ||
    (mWrites i.next).any (fun r => (aWrites i.w).contains r)))

end Sys2Proof.Machine
end

