-- ==== Sys2Proof/Machine/Sched.lean ====
section
/-! DEFINITION. The task scheduler (R290–R300, R306–R308) and how exceptions and cancellations end a task (R285–R289).
The samples of built-in operations are those of their domain's boundary, so a built-in task of an image completes as
soon as its inputs and its window let it (log entry 14). -/

namespace Sys2Proof.Machine

def schedMod (T : Tiles) (f : Sched → Sched) : Tiles := { T with sched := f T.sched }
def taskMod (T : Tiles) (i : Nat) (f : Task → Task) : Tiles := schedMod T (fun s => { s with tasks := tabMod s.tasks i f })
def coreMod (T : Tiles) (i : Nat) (f : DspCore → DspCore) : Tiles := { T with cores := tabMod T.cores i f }
def getTask (T : Tiles) (i : Nat) : Task := tabGet T.sched.tasks i
def getCore (T : Tiles) (i : Nat) : DspCore := tabGet T.cores i

/-- Address of descriptor i in the mirror (R290). -/
def descAddr (i : Nat) : Word := BitVec.ofNat 32 (0xE05E0000 + 32 * i)
/-- Index of a descriptor address. -/
def descIx (a : Word) : Nat := (a.toNat - 0xE05E0000) / 32

/-- Counters and completion FIFO of a non-OK outcome (R294, R307). -/
def noteOutcome (T : Tiles) (i : Nat) (o : Outcome) (core : Nat) : Tiles :=
  let t := getTask T i
  let up (c : Tab Word) : Tab Word := tabMod c t.dom (· + 1)
  schedMod T (fun s =>
    let s := match o with
      | .ok => s
      | .void => { s with cntVoid := up s.cntVoid }
      | .cancelled => { s with cntCancelled := up s.cntCancelled }
      | .faulted => { s with cntFaulted := up s.cntFaulted }
      | .skipped => { s with cntSkipped := up s.cntSkipped }
    if o = .ok then s
    else if s.comp.length < 64 then
      { s with comp := s.comp ++ [{ outcome := o, dom := t.dom, core := core, task := i, mt := t.mt, overflow := s.compLost }], compLost := false }
    else { s with compLost := true })

/-- A task is DONE. -/
def markDone (T : Tiles) (i : Nat) (o : Outcome) (core : Nat) : Tiles :=
  noteOutcome (taskMod T i (fun t => { t with state := .done, outcome := o })) i o core

/-- Tasks of a slot that take edge e, with the input's number. -/
def consumers (s : Sched) (slot e : Nat) : List (Nat × Nat) :=
  (s.tasks.filter (fun kv => kv.2.used && kv.2.slot == slot)).flatMap (fun kv =>
    (kv.2.ins.zipIdx.filter (fun p => p.1 == e)).map (fun p => (kv.1, p.2)))

/-- One token on edge e of a slot: void bits set, counters down. -/
def deliver (T : Tiles) (slot e : Nat) (void : Bool) : Tiles :=
  let T := schedMod T (fun s => { s with slots := tabMod s.slots slot (fun im => { im with edges := tabMod im.edges e (fun x => { x with void := void }) }) })
  (consumers T.sched slot e).foldl (fun T c => taskMod T c.1 (fun t =>
    if t.state = .waiting then
      { t with counter := t.counter - 1, voidIn := if void then t.voidIn ||| 2 ^ c.2 else t.voidIn }
    else t)) T

/-- The tokens of a completed task: each output with its void bit. -/
def publishTask (T : Tiles) (i mask : Nat) : Tiles :=
  let t := getTask T i
  (t.outs.zipIdx).foldl (fun T p => deliver T t.slot p.1 (bit mask p.2)) T

/-- Tasks whose counters have reached 0 leave WAITING (R293, R294): VOID without dispatch, READY, or done at once where
the operation is built in.  Each round may complete tasks; fuel bounds the rounds. -/
def settleReady : Nat → Tiles → Tiles
  | 0, T => T
  | n + 1, T =>
    let at0 := tabFind T.sched.tasks (fun t => t.used && t.state == .waiting && t.counter == 0)
    if at0.isEmpty then T
    else settleReady n (at0.foldl (fun T i =>
      let t := getTask T i
      if t.voidIn ≠ 0 ∧ t.voidEntry = 0 ∧ t.builtin.isNone then publishTask (markDone T i .void 0) i 0xFFFF
      else if t.builtin.isSome then publishTask (markDone T i .ok 0) i 0
      else taskMod T i (fun t => { t with state := .ready, readyAt := T.sched.cycle })) T)

/-- The scheduler cycle of a command: its readiness is settled and the cycle count moves on. -/
def schedTick (T : Tiles) : Tiles :=
  let T := settleReady 4097 T
  schedMod T (fun s => { s with cycle := s.cycle + 1 })

/-- A core taken out of its task: outstanding loads go, the repeat stack empties, PC := XVEC (R285, R287). -/
def coreLeave (c : DspCore) (cause : Nat) (xpc xaddr : Word) : DspCore :=
  { c with cause := cause, xpc := xpc, xaddr := xaddr, rpt := [], pc := c.xvec, task := 0, failed := none }

/-- The task a core runs ends with an outcome, every output void. -/
def endCoreTask (T : Tiles) (core : Nat) (o : Outcome) : Tiles :=
  let a := (getCore T core).task
  if a = 0 then T else
    let i := descIx a
    let t := getTask T i
    if t.used ∧ t.state = .running ∧ t.core = core then
      publishTask (markDone T i o (core % 8)) i 0xFFFF
    else T

/-- An exception (R285, R286): a failed store outstanding is recorded in its place, because it is older. -/
def takeException (T : Tiles) (core code : Nat) (xpc xaddr : Word) : Tiles :=
  let c := getCore T core
  let r : Nat × Word × Word := match c.failed with
    | some (a, p) => (0x08, p, a)
    | none => (code, xpc, xaddr)
  let T := endCoreTask T core .faulted
  let T := coreMod T core (fun c => coreLeave c r.1 r.2.1 r.2.2)
  schedTick { T with notes := T.notes ++ [.coreFault core c.task r.1 r.2.1 r.2.2],
                     sched := { T.sched with coreFault := tabMod T.sched.coreFault (core / 8) (· + 1) } }

/-- Cancellation of the task a core runs (R287): with a failed store outstanding it ends FAULTED instead. -/
def cancelCore (T : Tiles) (core : Nat) : Tiles :=
  let c := getCore T core
  match c.failed with
  | some _ => takeException T core 0x08 c.pc 0
  | none => coreMod (endCoreTask T core .cancelled) core (fun c => coreLeave c 0x10 c.pc 0)

/-- Cancellation of tasks not DONE (R294, R298, R299): every one is marked before any token moves (R300). -/
def cancelTasks (T : Tiles) (is : List Nat) : Tiles :=
  let live := is.filter (fun i => (getTask T i).state != .done && (getTask T i).state != .idle && (getTask T i).used)
  let runs := live.filter (fun i => (getTask T i).state == .running)
  let idle := live.filter (fun i => (getTask T i).state != .running)
  let T := idle.foldl (fun T i => markDone T i .cancelled 0) T
  let T := runs.foldl (fun T i => cancelCore T (getTask T i).core) T
  idle.foldl (fun T i => publishTask T i 0xFFFF) T

/-- The slot a domain runs. -/
def domSlot (s : Sched) (d : Nat) : Option Nat := tabGet s.running d

/-- Tasks of the image a domain runs, in that domain. -/
def domTasks (s : Sched) (d : Nat) : List Nat :=
  match domSlot s d with
  | some sl => tabFind s.tasks (fun t => t.used && t.slot == sl && t.dom == d)
  | none => []

/-- An event of a domain (R292): its edges' tokens. -/
def schedEvent (T : Tiles) (d code : Nat) : Tiles :=
  match domSlot T.sched d with
  | none => T
  | some sl =>
    let es := tabFind (tabGet T.sched.slots sl).edges (fun e => e.producer == code && e.len == 0)
    let ds := domTasks T.sched d
    es.foldl (fun T e => ((consumers T.sched sl e).filter (fun c => ds.contains c.1)).foldl (fun T c =>
      taskMod T c.1 (fun t => if t.state = .waiting then { t with counter := t.counter - 1 } else t)) T) T

/-- Arming at boundary b (R293): a background task still RUNNING is counted and not armed. -/
def armDomain (T : Tiles) (d : Nat) (b : MT) : Tiles :=
  let is := domTasks T.sched d
  let late := is.filter (fun i => (getTask T i).state == .running && (getTask T i).window != 2)
  let T := cancelTasks T late
  let T := is.foldl (fun T i =>
    let t := getTask T i
    if t.state = .running then
      schedMod T (fun s => { s with cntSkipped := tabMod s.cntSkipped d (· + 1) })
    else taskMod T i (fun t => { t with state := .waiting, counter := t.ins.length, voidIn := 0, mt := b, outcome := .ok })) T
  let T := schedMod T (fun s => { s with period := tabSet s.period d b })
  schedEvent T d 0xF000

/-- A domain realigns (R308): its tasks not DONE are cancelled, and none is armed until a boundary after lock. -/
def disarmDomain (T : Tiles) (d : Nat) : Tiles :=
  let is := domTasks T.sched d
  schedTick (is.foldl (fun T i => taskMod T i (fun t => { t with state := .idle })) (cancelTasks T is))

/-- A window's deadline (R298): its tasks not DONE are cancelled; at the chain deadline waiting background tasks are
withdrawn. -/
def windowCut (T : Tiles) (d window : Nat) : Tiles :=
  let is := domTasks T.sched d
  let T := cancelTasks T (is.filter (fun i => (getTask T i).window == window))
  let bg := if window = 1 then is.filter (fun i => let t := getTask T i
      t.window == 2 && (t.state == .waiting || t.state == .ready)) else []
  let T := bg.foldl (fun T i => markDone T i .skipped 0) T
  schedTick (bg.foldl (fun T i => publishTask T i 0xFFFF) T)

/-- Ready tasks of a tile in the order of R295. -/
def readyOrder (s : Sched) (tile : Nat) : List Nat :=
  let is := tabFind s.tasks (fun t => t.used && t.state == .ready && t.tile == tile)
  let key (i : Nat) : Nat × Nat × Nat := let t := tabGet s.tasks i; (t.prio, t.readyAt, i)
  let lt (a b : Nat) : Bool :=
    let x := key a; let y := key b
    decide (x.1 < y.1) || (x.1 == y.1 && (decide (x.2.1 < y.2.1) || (x.2.1 == y.2.1 && decide (x.2.2 < y.2.2))))
  is.foldl (fun acc i => (acc.takeWhile (fun j => lt j i)) ++ [i] ++ (acc.dropWhile (fun j => lt j i))) []

/-- The core PARK withholds from a tile. -/
def parked (s : Sched) (tile n : Nat) : Bool := bit s.ctrl.toNat (8 + tile) && bits s.ctrl.toNat 2 0 == n

/-- Idle cores of a tile that may receive a task, ascending. -/
def idleCores (T : Tiles) (tile : Nat) : List Nat :=
  ((List.range 8).filter (fun n => (getCore T (8 * tile + n)).fetching.isSome && !parked T.sched tile n)).map (fun n => 8 * tile + n)

/-- TFETCH returns (R278): every register other than SD, PC and the special registers is 0, the sticky flags and the
repeat stack are clear, SD holds the descriptor address. -/
def fetchReturn (c : DspCore) (sd : Nat) (desc : Word) : DspCore :=
  { c with v := [], a := [], s := tabSet [] sd desc, p := [], n := [], l := [], rpt := [], satf := false, aovf := false,
           fetching := none, fetched := true, task := desc }

/-- Dispatch on a tile (R294, R295). -/
def dispatch (T : Tiles) (tile : Nat) : Tiles :=
  if !bit T.sched.ctrl.toNat 16 then T else
  match readyOrder T.sched tile, idleCores T tile with
  | i :: _, core :: _ =>
    let c := getCore T core
    let T := taskMod T i (fun t => { t with state := .running, core := core, sentMt := t.mt, sentVoid := t.voidIn })
    schedTick (coreMod T core (fun _ => fetchReturn c (c.fetching.getD 0) (descAddr i)))
  | _, _ => T

/-- TDONE of a core with a void mask (R294, R296). -/
def taskDone (T : Tiles) (core mask : Nat) : Tiles :=
  let a := (getCore T core).task
  let T := coreMod T core (fun c => { c with task := 0 })
  if a = 0 then T else
    let i := descIx a
    let t := getTask T i
    if t.used ∧ t.state = .running ∧ t.core = core then schedTick (publishTask (markDone T i .ok (core % 8)) i mask) else T

/-- Tasks ready in all, and at a level. -/
def readyCount (s : Sched) : Nat := (tabFind s.tasks (fun t => t.used && t.state == .ready)).length
def readyLevel (s : Sched) (l : Nat) : Nat := (tabFind s.tasks (fun t => t.used && t.state == .ready && t.prio == l)).length

/-- A pair of a core (R263–R289): the slot-A effect, or none for a slot-M word alone. -/
def runPair (T : Tiles) (core : Nat) (i : Issue) (eff : Option (DspCore → AOut)) : Tiles :=
  let c0 := getCore T core
  if c0.fetching.isSome then T else
  let c := { c0 with cycle := (c0.cycle + i.cycles) % 2 ^ 64 }
  let T := { coreMod T core (fun _ => c) with sched := { T.sched with eccCorr := tabMod T.sched.eccCorr (core / 8) (· + BitVec.ofNat 32 i.corrected) } }
  if fetchFails c i then takeException T core 0x01 c.pc 0
  else if !issueMatches T core c i then T
  else if pairIllegal i then takeException T core 0x02 c.pc 0
  else
    let pair := isPair i.w
    let mw : Option Word := if slotM i.w then some i.w else if pair then some i.next else none
    let mpc : Word := if slotM i.w then c.pc else c.pc + 4
    let o := match eff with
      | some f => f c
      | none => aReg c
    let acc := match mw with
      | some w => mAccess T core c w i.loadBad
      | none => .fine
    let mcause : Option (Nat × Word) := match mw, acc with
      | some w, .cause n => some (n, (mAddr c w).ea)
      | some w, .matrixLoad => some (0x06, (mAddr c w).ea)
      | _, _ => none
    let T := match mw, acc with
      | some w, .matrixLoad => { T with notes := T.notes ++ [.matrixErr (8 + core / 8) true (mAddr c w).ea] }
      | some w, .late true => if o.cause.isNone then { T with notes := T.notes ++ [.matrixErr (8 + core / 8) false (mAddr c w).ea] } else T
      | _, _ => T
    let cause := match o.cause, mcause with
      | some a, some m => if a.1 ≤ m.1 then some a else some m
      | some a, none => some a
      | none, m => m
    match cause with
    | some (n, x) => takeException T core n (if n = 0x08 then mpc else c.pc) x
    | none =>
      let c' := match mw with
        | some w => mRegs T core c o.core w
        | none => o.core
      let fall := c.pc + (if pair then 8 else 4)
      let np := nextPc c o (if pair then [c.pc, c.pc + 4] else [c.pc]) fall
      let c' := { c' with pc := np.1, rpt := np.2,
                          failed := match mw, acc with
                            | some w, .late _ => if c'.failed.isNone then some ((mAddr c w).ea, mpc) else c'.failed
                            | _, _ => c'.failed }
      let T := coreMod T core (fun _ => c')
      let T := match mw, acc with
        | some w, .fine => coreStore T core (mStores c w)
        | _, _ => T
      match o.done with
      | some m => taskDone T core m.toNat
      | none => T

end Sys2Proof.Machine
end

