-- ==== Sys2Proof/Machine/Graph.lean ====
section
/-! DEFINITION. Graph images: parsing, checks, loading and switching (R301–R306, R43, R137, R154). -/

namespace Sys2Proof.Machine

/-- A refused image: status, error_kind and error of the GRAPH_LOAD reply. -/
structure GErr where
  st : Status
  kind : Nat := 0
  err : Nat := 0xFFFF
  deriving DecidableEq, Repr

/-- A section-table entry (R302). -/
structure Sect where
  type : Nat
  required : Bool
  bytes : List Byte
  tile : Nat
  deriving DecidableEq, Repr

/-- An operator declaration (R303). -/
structure Oper where
  id : Nat
  ins : Nat
  outs : Nat
  window : Nat
  prio : Nat
  hasVoid : Bool
  entry : Nat
  voidEntry : Nat
  shared : Nat
  args : Nat
  deriving DecidableEq, Repr

/-- A task record with its edge lists. -/
structure TaskRec where
  op : Nat
  tile : Nat
  dom : Nat
  args : Nat
  edgesAt : Nat
  oper : Option Oper
  ins : List Nat
  outs : List Nat
  deriving DecidableEq, Repr

/-- A parsed image. -/
structure Parsed where
  id : Word
  opers : List Oper
  tasks : List TaskRec
  edges : List Edge
  ports : List PortRec
  budget : List Nat
  code : List (Nat × List Byte)
  params : List (Nat × Nat × List Byte)
  deriving DecidableEq, Repr

/-- Numbers kept for the built-in instances of a domain, 84: OP_OBJPATH of 64 object groups, OP_CHAIN of 18 column groups, OP_HALOROT and
OP_TRACK (log entry 15). -/
def basePerDomain : Nat := 84
def baseTasks : Nat := 3 * basePerDomain
/-- The column group of chain instance i, and the instance of a column group; HALO's groups 16 and 17 have none. -/
def chainGroup (i : Nat) : Nat := if i < 80 then i - 64 else i - 62
def chainInst (g : Nat) : Nat := if g < 16 then 64 + g else 62 + g
/-- Window and level of built-in instance i (R137, R161, R206, R252). -/
def builtinWindow (i : Nat) : Nat := if i < 64 then 0 else if i < 83 then 1 else 2
def builtinPrio (i : Nat) : Nat := if i < 83 then 1 else 7

/-- Records of n bytes. -/
def records (n : Nat) : Nat → List Byte → List (List Byte)
  | 0, _ => []
  | k + 1, bs => if bs.length < n then [] else bs.take n :: records n k (bs.drop n)
def recordsOf (n : Nat) (bs : List Byte) : List (List Byte) := records n (bs.length / n) bs

/-- Section i of an image. -/
def sectionAt (bs : List Byte) (table i : Nat) : Except GErr (Option Sect) :=
  let e := slice bs (table + 16 * i) 16
  let t := u16 e 0
  let fl := u16 e 2
  let off := u32 e 4
  let len := u32 e 8
  let tile := u8 e 12
  let bad : Except GErr (Option Sect) := .error { st := .badArg, kind := 1, err := i }
  if bs.length < table + 16 * (i + 1) then bad
  else if t = 0 ∨ 7 < t then (if bit fl 0 then .error { st := .version, kind := 1, err := i } else .ok none)
  else if 2 ≤ fl ∨ !isZero e 13 3 ∨ bs.length < off + len then bad
  else if t = 1 ∧ 8 ≤ tile then bad
  else if t ≠ 1 ∧ tile ≠ 0xFF then bad
  else .ok (some { type := t, required := bit fl 0, bytes := slice bs off len, tile := tile })

/-- Every section, in order, with its number. -/
def sectionsOf (bs : List Byte) (table : Nat) : List Nat → Except GErr (List (Nat × Sect))
  | [] => .ok []
  | i :: r =>
    match sectionAt bs table i with
    | .error e => .error e
    | .ok s => match sectionsOf bs table r with
      | .error e => .error e
      | .ok t => .ok (match s with | some x => (i, x) :: t | none => t)

def operOf (e : List Byte) : Oper :=
  { id := u16 e 16, ins := u8 e 18, outs := u8 e 19, window := u8 e 20, prio := u8 e 21, hasVoid := bit (u16 e 22) 0,
    entry := u32 e 24, voidEntry := u32 e 28, shared := u32 e 36, args := u32 e 40 }

/-- Field checks of an operator record. -/
def operOk (e : List Byte) : Bool :=
  decide (u8 e 18 ≤ 16) && decide (u8 e 19 ≤ 16) && decide (u8 e 20 ≤ 2) &&
    (u8 e 21 == 0 || (decide (2 ≤ u8 e 21) && decide (u8 e 21 ≤ 6))) && decide (u16 e 22 < 2) && isZero e 44 20

def edgeOf (e : List Byte) : Edge :=
  { buffer := BitVec.ofNat 32 (u32 e 0), len := u32 e 4, producer := u16 e 8, output := u8 e 10, double := bit (u8 e 11) 0 }

/-- Field checks of an edge record (R292). -/
def edgeOk (e : List Byte) (tasks : Nat) : Bool :=
  decide (u8 e 10 ≤ 15) && decide (u8 e 11 < 2) &&
    (if 0xF000 ≤ u16 e 8 then u32 e 4 == 0 && u8 e 10 == 0 && (u16 e 8 == 0xF000 || (decide (0xF100 ≤ u16 e 8) && decide (u16 e 8 ≤ 0xF113)))
     else decide (u16 e 8 < tasks))

/-- A task's edge lists: of a declared operator from its index list; of a built-in one its inputs from there and its outputs by producer. -/
def taskOf (opers : List Oper) (edges : List Edge) (edgeSect : List Byte) (i : Nat) (e : List Byte) : TaskRec :=
  let op := opers.find? (fun o => o.id == u16 e 0)
  let at_ := u32 e 8
  let idx (k : Nat) : Nat := u16 edgeSect (at_ + 2 * k)
  match op with
  | some o => { op := o.id, tile := u8 e 2, dom := u8 e 3, args := u32 e 4, edgesAt := at_, oper := some o,
                ins := (List.range o.ins).map idx, outs := (List.range o.outs).map (fun k => idx (o.ins + k)) }
  | none => { op := u16 e 0, tile := u8 e 2, dom := u8 e 3, args := u32 e 4, edgesAt := at_, oper := none,
              ins := (List.range (min 16 (Config.builtinIns (u16 e 0) (BitVec.ofNat 32 (u32 e 4))))).map idx
              outs := ((edges.zipIdx).filter (fun p => p.1.producer == i)).map Prod.snd }

/-- PARAMS records (R302): tile, address, data. -/
def paramsOf : Nat → List Byte → List (Nat × Nat × List Byte)
  | 0, _ => []
  | n + 1, bs => if bs.length < 12 then [] else
      let len := u32 bs 8
      (u8 bs 0, u32 bs 4, slice bs 12 len) :: paramsOf n (bs.drop (12 + len))

/-- Whether a PARAMS record lies in tile-shared memory below the mirror. -/
def paramOk (p : Nat × Nat × List Byte) : Bool :=
  decide (p.1 < 8) && decide (0xE0400000 ≤ p.2.1) && decide (p.2.1 + p.2.2.length ≤ 0xE05E0000)

/-- The sections parsed and their fields checked (R302, R303). -/
def parseImage (bs : List Byte) : Except GErr Parsed :=
  let hdr (s : Status) : Except GErr Parsed := .error { st := s, kind := 1 }
  let len := u32 bs 12
  if bs.length < 48 ∨ bs.length < len ∨ len < 48 ∨ 1048576 < len then hdr .badArg
  else
    let bs := bs.take len
    if (crc32c (bs.take 28 ++ zeros 4 ++ bs.drop 32)).toNat ≠ u32 bs 28 then .error { st := .integrity }
    else if u32 bs 0 ≠ 0x444E5747 then hdr .badArg
    else if u16 bs 4 ≠ 1 then hdr .version
    else if u32 bs 8 < 48 ∨ len < u32 bs 8 ∨ u16 bs 16 = 0 ∨ 32 < u16 bs 16 ∨ u16 bs 18 ≠ 0 ∨ 4 ≤ u8 bs 20 ∨
        !isZero bs 21 3 ∨ !isZero bs 36 12 ∨ !bit (u8 bs 20) (if Config.gradeAF then 0 else 1) then hdr .badArg
    else match sectionsOf bs (u32 bs 32) (List.range (u16 bs 16)) with
      | .error e => .error e
      | .ok ss =>
        let all (t : Nat) : List Byte := (ss.filter (fun s => s.2.type == t)).flatMap (·.2.bytes)
        let sectNo (t : Nat) : Nat := ((ss.find? (fun s => s.2.type == t)).map Prod.fst).getD 0xFFFF
        let opBytes := recordsOf 64 (all 2)
        let taskBytes := recordsOf 16 (all 3)
        let ed := all 4
        let nEdges := u32 ed 0
        let edBytes := (recordsOf 12 (slice ed 4 (min nEdges 65536 * 12))).take nEdges
        let bad (t : Nat) : Except GErr Parsed := .error { st := .badArg, kind := 1, err := sectNo t }
        if !opBytes.all operOk then bad 2
        else if !taskBytes.all (fun e => decide (u8 e 2 < 8) && decide (u8 e 3 < 3) && isZero e 12 4) then bad 3
        else if ed.length < 4 + 12 * nEdges ∨ !edBytes.all (fun e => edgeOk e taskBytes.length) then
          (if ed.isEmpty then bad 3 else bad 4)
        else if (all 5).length ≠ 192 then bad 5
        else
          let pts := recordsOf 8 (all 6)
          let prm := paramsOf ((all 7).length) (all 7)
          if !pts.all (fun e => decide (u16 e 0 < 1024) && isZero e 5 3) then bad 6
          else if !prm.all paramOk then bad 7
          else
            let opers := opBytes.map operOf
            let edges := edBytes.map edgeOf
            .ok { id := BitVec.ofNat 32 (u32 bs 24), opers := opers, edges := edges,
                  tasks := (taskBytes.zipIdx).map (fun p => taskOf opers edges ed p.2 p.1),
                  ports := pts.map (fun e => { port := u16 e 0, task := u16 e 2, output := u8 e 4 }),
                  budget := (List.range 48).map (fun k => u32 (all 5) (4 * k)),
                  code := ((ss.filter (fun s => s.2.type == 1)).map (fun s => (s.2.tile, s.2.bytes))),
                  params := prm }

/-- Rounds in which every task whose producers are all placed is placed: a cycle leaves some out. -/
def placeTasks (p : Parsed) : Nat → List Nat → List Nat
  | 0, done => done
  | n + 1, done =>
    let new := (List.range p.tasks.length).filter (fun i => !done.contains i &&
      ((p.tasks[i]?).map (fun t => t.ins.all (fun e => match p.edges[e]? with
        | some x => decide (0xF000 ≤ x.producer) || done.contains x.producer
        | none => true))).getD true)
    if new.isEmpty then done else placeTasks p n (done ++ new)

/-- The task checks of R304: none, or the first task that fails. -/
def taskError (p : Parsed) : Option Nat :=
  let bad (i : Nat) (t : TaskRec) : Bool :=
    (t.oper.isNone && decide (0x100 ≤ t.op)) ||
    t.ins.any (fun e => match p.edges[e]? with
      | none => true
      | some x => decide (x.producer < 0xF000) && (match p.tasks[x.producer]? with
        | none => true
        | some q => q.dom != t.dom ||
            (q.tile != t.tile && !(decide (0x34A00000 ≤ x.buffer.toNat) && decide (x.buffer.toNat + x.len * (if x.double then 2 else 1) ≤ 0x34C00000))))) ||
    (t.oper.isSome && ((t.outs.zipIdx).any (fun o => match p.edges[o.1]? with
      | none => true
      | some x => x.producer != i || x.output != o.2) ||
      (p.edges.filter (fun x => x.producer == i)).length != t.outs.length))
  let builtinDecl := p.opers.any (fun o => decide (o.id < 0x100))
  match (p.tasks.zipIdx).find? (fun q => bad q.2 q.1) with
  | some q => some q.2
  | none =>
    if builtinDecl then some 0xFFFF
    else
      let placed := placeTasks p (p.tasks.length + 1) []
      match (List.range p.tasks.length).find? (fun i => !placed.contains i) with
      | some i => some i
      | none =>
        let dup := (p.ports.zipIdx).find? (fun q => (p.ports.take q.2).any (fun x => x.port == q.1.port) ||
          (match p.tasks[q.1.task]? with
            | none => true
            | some t => decide (t.outs.length ≤ q.1.output) || (match t.oper with | some o => o.window == 2 | none => false)))
        dup.map (fun q => q.1.task)

/-- Blocks per second × 16 of a domain: its rate. -/
abbrev Rates := List Nat

/-- Declared cycles of one domain, window and tile. -/
def budgetAt (b : List Nat) (d w t : Nat) : Nat := b.getD (d * 16 + w * 8 + t) 0

/-- R43 for a choice of budgets by domain: cycles × rate against 0.8 × 64 × 1.2e9 × share × 16. -/
def r43Ok (bud : Nat → List Nat) (rate : Nat → Nat) : Bool :=
  (List.range 2).all (fun w =>
    let s := (List.range 3).foldl (fun a d => a + (List.range 8).foldl (fun a t => a + budgetAt (bud d) d w t) 0 * rate d) 0
    decide (s * 100 ≤ (if w = 0 then 15 else 75) * (16 * 61440000000)))

/-- The first tile whose declared cycles break the per-tile limit of R304. -/
def tileOver (bud : Nat → List Nat) (rate : Nat → Nat) : Option Nat :=
  (List.range 8).find? (fun t => (List.range 2).any (fun w =>
    let s := (List.range 3).foldl (fun a d => a + budgetAt (bud d) d w t * rate d) 0
    decide ((if w = 0 then 15 else 75) * (16 * 6720000000) < s * 100)))

/-- Tile-shared need of an image's tile: state, parameters and token buffers (log entry 16). -/
def sharedNeed (p : Parsed) (tile : Nat) : Nat :=
  (p.tasks.zipIdx).foldl (fun a q =>
    if q.1.tile ≠ tile then a else
      a + (match q.1.oper with | some o => o.shared + o.args | none => 0) +
        (p.edges.filter (fun x => x.producer == q.2 && decide (0xE0400000 ≤ x.buffer.toNat))).foldl (fun s x => s + x.len * (if x.double then 2 else 1)) 0) 0

/-- Code bytes of a tile. -/
def codeLen (p : Parsed) (tile : Nat) : Nat := ((p.code.filter (fun c => c.1 == tile)).flatMap (·.2)).length

/-- Descriptor indices free for n tasks: the lowest run above the base image's and clear of the other slot's. -/
def firstIndex (other : Image) (n : Nat) : Option Nat :=
  let used := other.state != .empty && other.count != 0
  let a := baseTasks
  let b := other.first + other.count
  if !used ∨ a + n ≤ other.first then (if a + n ≤ 4096 then some a else none)
  else if b + n ≤ 4096 then some b else none

/-- Code offset of a tile, clear of the other slot's code. -/
def codeOffset (other : Image) (tile n : Nat) : Option Nat :=
  let o := tabGet other.codeAt tile
  let l := (tabGet other.code tile).length
  if other.state = .empty ∨ l = 0 ∨ n ≤ o then (if n ≤ 49152 then some 0 else none)
  else if (o + l + 3) / 4 * 4 + n ≤ 49152 then some ((o + l + 3) / 4 * 4) else none

/-- All checks of R304 after the CRCs, with the image and its tasks where they pass. -/
def checkImage (p : Parsed) (other : Image) (rate : Nat → Nat) (decorCharge : Nat → Nat) : Except GErr (Nat × List Nat) :=
  match taskError p with
  | some i => .error { st := .badArg, kind := 2, err := i }
  | none =>
    let bud : Nat → List Nat := fun _ => p.budget
    if !r43Ok bud rate then .error { st := .noResource }
    else match tileOver bud rate with
      | some t => .error { st := .noResource, kind := 3, err := t }
      | none => match firstIndex other p.tasks.length with
        | none => .error { st := .noResource, kind := 3, err := 0 }
        | some f =>
          let offs := (List.range 8).map (fun t => codeOffset other t (codeLen p t))
          match (List.range 8).find? (fun t => (offs.getD t none).isNone ||
              decide (2097152 < 131072 + decorCharge t + tabGet other.shared t + sharedNeed p t)) with
          | some t => .error { st := .noResource, kind := 3, err := t }
          | none => .ok (f, offs.map (fun o => o.getD 0))

/-- The descriptor of task i of a parsed image. -/
def descOf (slot : Nat) (offs : List Nat) (i : Nat) (t : TaskRec) : Task :=
  let base := 0xE0104000 + offs.getD t.tile 0
  let inst := Config.builtinWork t.op (BitVec.ofNat 32 t.args) % basePerDomain
  { used := true, slot := slot, localIx := i, entry := (match t.oper with | some o => BitVec.ofNat 32 (base + o.entry) | none => 0),
    voidEntry := (match t.oper with | some o => if o.hasVoid then BitVec.ofNat 32 (base + o.voidEntry) else 0 | none => 0),
    args := BitVec.ofNat 32 t.args, edgesAt := Config.edgeListAt t.tile t.edgesAt, ins := t.ins, outs := t.outs,
    prio := (match t.oper with | some o => o.prio | none => builtinPrio inst), tile := t.tile,
    window := (match t.oper with | some o => o.window | none => builtinWindow inst), dom := t.dom,
    builtin := if t.oper.isNone then some inst else none }

/-- A slot's descriptors leave the table (R305). -/
def dropSlot (T : Tiles) (slot : Nat) : Tiles :=
  schedMod T (fun s => { s with tasks := s.tasks.filter (fun kv => kv.2.slot != slot), slots := tabSet s.slots slot {} })

/-- An accepted image enters its slot as LOADING: descriptors, edges, ports, PARAMS (R305). -/
def loadImage (T : Tiles) (slot : Nat) (p : Parsed) (first : Nat) (offs : List Nat) : Tiles :=
  let T := dropSlot T slot
  let im : Image := {
    state := .loading, id := p.id, first := first, count := p.tasks.length,
    edges := (p.edges.zipIdx).foldl (fun t e => tabSet t e.2 e.1) [], ports := p.ports, budget := p.budget,
    code := (List.range 8).foldl (fun t k => tabSet t k ((p.code.filter (fun c => c.1 == k)).flatMap (·.2))) [],
    codeAt := (offs.zipIdx).foldl (fun t o => tabSet t o.2 o.1) [],
    shared := (List.range 8).foldl (fun t k => tabSet t k (sharedNeed p k)) [] }
  let T := schedMod T (fun s => { s with
    slots := tabSet s.slots slot im,
    tasks := (p.tasks.zipIdx).foldl (fun t q => tabSet t (first + q.2) (descOf slot offs q.2 q.1)) s.tasks })
  { T with mem := p.params.foldl (fun m q => memWriteBytes m (tileBase q.1 + 0x00400000 + (q.2.1 - 0xE0400000)) q.2.2) T.mem }

/-- Loading ends: the code stands in every instruction memory of its tile and the slot is LOADED (R305). -/
def finishLoad (T : Tiles) (slot : Nat) : Tiles :=
  let im := tabGet T.sched.slots slot
  let mem := (List.range 8).foldl (fun m t => (List.range 8).foldl (fun m n =>
    memWriteBytes m (tileBase t + 0x00200000 + n * 0x10000 + 0x4000 + tabGet im.codeAt t) (tabGet im.code t)) m) T.mem
  schedMod { T with mem := mem } (fun s => { s with slots := tabMod s.slots slot (fun im => { im with state := .loaded }) })

/-- Whether any domain runs a slot. -/
def slotRuns (s : Sched) (slot : Nat) : Bool := (List.range 3).any (fun d => domSlot s d == some slot)

/-- Budgets of a choice of images by domain. -/
def runBudget (s : Sched) (run : Nat → Option Nat) (d : Nat) : List Nat :=
  match run d with
  | some sl => (tabGet s.slots sl).budget
  | none => Config.baseBudget d

/-- A choice of images keeps to R43 and R304; the base image in every domain does, for it runs there after power-on (R301). -/
def runsFit (s : Sched) (run : Nat → Option Nat) (rate : Nat → Nat) : Bool :=
  (List.range 3).all (fun n => (run n).isNone) || (r43Ok (runBudget s run) rate && (tileOver (runBudget s run) rate).isNone)

/-- The image a domain would run once its pending switch has taken effect. -/
def toRun (s : Sched) (d : Nat) : Option Nat :=
  match tabGet s.switches d with
  | some w => w.dest
  | none => domSlot s d

/-- A switch of domain d at boundary b (R306): tasks of the old image are disarmed; a background task still running
goes on. -/
def switchDomain (T : Tiles) (d : Nat) (dest : Option Nat) : Tiles :=
  let T := (domTasks T.sched d).foldl (fun T i => taskMod T i (fun t => if t.state = .running then t else { t with state := .idle })) T
  schedMod T (fun s => { s with running := tabSet s.running d dest, switches := tabSet s.switches d none })

/-- Tile output ports of the image a domain runs, for this domain: port, task index, edge. -/
def domPorts (s : Sched) (d : Nat) : List (Nat × Nat × Option Edge) :=
  match domSlot s d with
  | none => []
  | some sl =>
    let im := tabGet s.slots sl
    (im.ports.filter (fun p => (tabGet s.tasks (im.first + p.task)).dom == d)).map (fun p =>
      let t := tabGet s.tasks (im.first + p.task)
      (p.port, im.first + p.task, (t.outs[p.output]?).map (fun e => tabGet im.edges e)))

/-- The 16 samples a tile output port publishes for the period that began at b: its token, or zeros where it is void
(R292, R303).  An odd block reads the second buffer of a DOUBLE edge. -/
def portSamples (T : Tiles) (task : Nat) (e : Option Edge) (b : MT) : List Int :=
  match e with
  | none => List.replicate 16 0
  | some x =>
    let t := getTask T task
    if x.void ∨ t.state ≠ .done ∨ t.outcome ≠ .ok then List.replicate 16 0
    else
      let a := x.buffer + (if x.double ∧ bit b.toNat 4 then BitVec.ofNat 32 x.len else 0)
      (List.range 16).map (fun k => if 4 * k + 4 ≤ x.len then (coreWord T (8 * t.tile) (a + BitVec.ofNat 32 (4 * k))).toInt else 0)

/-- A loaded slot that declares tile output port p, and the domain of its task; the slot a domain runs comes first. -/
def portSlotDom (s : Sched) (p : Nat) : Option Nat :=
  let inSlot (k : Nat) : Option Nat :=
    let im := tabGet s.slots k
    if im.state != .loaded then none
    else (im.ports.find? (fun r => r.port == p)).map (fun r => (tabGet s.tasks (im.first + r.task)).dom)
  let runs := (List.range 2).filter (slotRuns s)
  ((runs ++ List.range 2).filterMap inSlot).head?

/-- Global indices a cancel names in the slot its domain runs. -/
def cancelNames (s : Sched) (c : Cancel) : List Nat :=
  match c.slot with
  | none => []
  | some sl =>
    if c.instance_ then domTasks s c.dom else [(tabGet s.slots sl).first + c.task]

/-- A cancel applied in its period (R299): counts and cancellations; base is the instances that the base image runs there. -/
def applyCancel (T : Tiles) (base : List Nat) (c : Cancel) : Tiles × Cancel :=
  let is := cancelNames T.sched c
  match c.slot with
  | some _ =>
    let cnt (p : TaskState → Bool) : Nat := (is.filter (fun i => p (getTask T i).state)).length
    (cancelTasks T is, { c with applied := true, notDispatched := cnt (fun s => s == .waiting || s == .ready),
                                running := cnt (· == .running), finished := cnt (· == .done) })
  | none =>
    let names := if c.instance_ then base else [c.task]
    (schedMod T (fun s => { s with baseCancel := tabMod s.baseCancel c.dom (fun l => (l ++ names).eraseDups) }),
      { c with applied := true, notDispatched := names.length })

/-- TASK_CANCEL reply (R299) after the status. -/
def cancelReply (c : Cancel) : List Byte :=
  zeros 1 ++ p16 c.notDispatched ++ p16 c.running ++ p16 c.finished ++ p32 c.mt.toNat

/-- COMP_LO of the oldest completion. -/
def compWord (s : Sched) : Word :=
  match s.comp with
  | [] => 0
  | c :: _ => BitVec.ofNat 32 (2 ^ 31 + 2 ^ 30 * b2n c.overflow +
      2 ^ 27 * (match c.outcome with | .ok => 0 | .void => 1 | .cancelled => 2 | .faulted => 3 | .skipped => 4) +
      2 ^ 25 * c.dom + 2 ^ 16 * c.core + c.task)

end Sys2Proof.Machine
end

