-- ==== Sys2Proof/Machine/State.lean ====
section
/-! DEFINITION. The state of the machine: the device, and the queue of commands that wait. -/

namespace Sys2Proof.Machine

/-- The device.  Every bank is a Tab: a number not listed holds its record's default, which is its reset value. -/
structure Dev where
  /-- PD_AON, straps and supplies (R481–R493, R500, R507, R509). -/
  aon : Aon := {}
  power : Power := {}
  flash : Flash := {}
  /-- Firmware: mode, sessions, event queue, log, waiting replies (chapters 15, 16, 18). -/
  fw : Fw := {}
  hif : Hif := {}
  mbx : Tab Mailbox := []
  /-- DT, PTP, pulses, captures (chapter 02). -/
  time : TimeUnit := {}
  /-- Rate domains D0–D2. -/
  dom : Tab Domain := []
  /-- Objects, metadata, layout, matrix (chapters 03–05). -/
  scene : Scene := {}
  /-- Speaker chain (chapter 06). -/
  chain : ChainAll := {}
  /-- Convolution and HALO (chapter 07). -/
  mantle : Mantle := {}
  /-- Bridges; microphones and detectors (chapter 08). -/
  seam : Seam := {}
  mics : Mics := {}
  /-- Calibration, tracking, sensing, self-test (chapter 09). -/
  cal : Cal := {}
  track : Track := {}
  sense : Sense := {}
  selftest : Selftest := {}
  /-- Audio ports (chapter 12). -/
  ports : Ports := {}
  /-- Network flow engine (chapter 13). -/
  net : Net := {}
  /-- Silton link and pair (chapter 14). -/
  twin : Twin := {}
  /-- Render periods and output stage buffers (R28, R32). -/
  render : Render := {}
  /-- Cores, byte-addressed RAM, scheduler (chapters 10, 11). -/
  tiles : Tiles := {}
  /-- DMA engine and bus matrix (chapter 17). -/
  dma : Dma := {}
  mtx : Matrix := {}
  /-- Host memory the last command wrote: bus address, bytes. -/
  hostWrites : List (Nat × List Byte) := []
  /-- The model's own: free values taken so far (log entry 3). -/
  free : Nat := 0
  deriving DecidableEq, Repr, Inhabited

/-- The machine: the device and the commands that wait, first in first out. -/
structure State where
  dev : Dev := {}
  pending : List Instr := []
  deriving DecidableEq, Repr, Inhabited

/-- What stops the machine for good. -/
inductive Fault where
  /-- Raised by a row whose operand spells another row of the table: a request payload with another row's action, a core
  or DMA word of another instruction.  Hardware takes such an operand under that other row.  Safe. -/
  | otherRow
  deriving DecidableEq, Repr

/-- What the model has no meaning for. -/
inductive Refusal where
  /-- Raised by an arm of exec that has no meaning yet.  Safe. -/
  | notModelled (mnemonic : String)
  deriving DecidableEq, Repr

/-- Domains after power-on reset (R65): D0 started on INTERNAL with an allotment of 256, D1 and D2 stopped. -/
def State.resetDoms : Tab Domain := [(0, { state := .acquire, cfg := { allot := 256 }, started := true })]

/-- The boot record of the flash (R488): copy 0 names slot A, which is VALID; DESIGN CHOICE, log entry 22. -/
def State.resetRec : BootRec :=
  [0x4F, 0x5A, 0x42, 0x54, 0, 0, 0, 0, 0, 2, 0, 0, 0, 0, 0, 0, 0, 0, 0, 0, 0, 0, 0, 0, 0, 0, 0, 0, 0x7C, 0x99, 0xFB, 0x67]

/-- The flash as the device finds it at power-on: an external part that already holds an image (log entry 22). -/
def State.resetFlash : Flash := { slots := [(0, { state := .valid })], rec0 := State.resetRec }

/-- The device after power-on reset. -/
def State.resetDev : Dev := { dom := State.resetDoms, flash := State.resetFlash }

/-- The machine right after power-on reset: BOOT, nothing queued, memory with nothing listed. -/
def State.reset : State := { dev := State.resetDev }

end Sys2Proof.Machine
end

