-- ==== Sys2Proof/Machine/Hatre.lean ====
section
/-! DEFINITION. What every Hatre request shares: codes, versions, the log, replies and events in the event queue, modes,
and small readings of the device (chapters 15, 16 and 18). -/

namespace Sys2Proof.Machine

/-! Codes (R429, R451, R477). -/

def statusByte : Status → Nat
  | .ok => 0 | .busy => 1 | .badArg => 2 | .badMode => 3 | .noResource => 4 | .version => 5 | .stale => 6 | .timeout => 7
  | .late => 8 | .notFound => 9 | .integrity => 10 | .denied => 11 | .cancelled => 12

/-- The opcode index of R451. -/
def opTable : List (Nat × Op) :=
  [(0x0001, .hello), (0x0002, .version), (0x0003, .caps), (0x0004, .ping), (0x0005, .bye),
   (0x0100, .modeSet), (0x0101, .modeGet), (0x0102, .resetReq), (0x0103, .telemetryGet), (0x0104, .logRead), (0x0105, .outLatencyGet),
   (0x0200, .domainCfg), (0x0201, .ptpCfg), (0x0202, .pulseCfg), (0x0203, .captureCfg),
   (0x0300, .layoutBegin), (0x0301, .layoutSpk), (0x0302, .layoutCommit)] ++
  [(0x0400, .objCfg), (0x0401, .objUpdate), (0x0402, .objUpdateBatch), (0x0403, .objQuery),
   (0x0500, .routeSet), (0x0501, .busCfg), (0x0502, .matrixDirect),
   (0x0600, .chainCfg), (0x0601, .eqSet), (0x0602, .delaySet), (0x0603, .dynCfg), (0x0604, .outGain), (0x0605, .outMute),
   (0x0700, .firLoad), (0x0701, .firCommit), (0x0702, .firStatus), (0x0703, .haloCfg)] ++
  [(0x0800, .seamCfg), (0x0801, .micCfg), (0x0802, .toneDetCfg),
   (0x0900, .calStart), (0x0901, .calResult), (0x0902, .trackCfg), (0x0903, .trackProposal),
   (0x0A00, .portCfg), (0x0A01, .slotMask), (0x0A02, .alignGroup),
   (0x0B00, .netPortCfg), (0x0B01, .flowRxCfg), (0x0B02, .flowTxCfg), (0x0B03, .flowState), (0x0B04, .gateList)] ++
  [(0x0C00, .twinCfg), (0x0C01, .twinState), (0x0C02, .twinSwap),
   (0x0D00, .graphLoad), (0x0D01, .graphStart), (0x0D02, .graphStop), (0x0D03, .taskCancel),
   (0x0E00, .fwUpdateBegin), (0x0E01, .fwChunk), (0x0E02, .fwCommit), (0x0E03, .fwSlotInfo), (0x0F00, .selftestRun)]

def opCode (o : Op) : Nat := ((opTable.find? (fun p => p.2 == o)).map Prod.fst).getD 0
def opOf (n : Nat) : Option Op := (opTable.find? (fun p => p.1 == n)).map Prod.snd

def modeCode : Mode → Nat
  | .off => 0 | .retain => 1 | .boot => 2 | .safe => 3 | .config => 4 | .service => 5 | .twin => 6 | .singleRate => 7
  | .calibrate => 8 | .selftest => 9 | .update => 10 | .factory => 11

def modeOf : Nat → Option Mode
  | 0 => some .off | 1 => some .retain | 2 => some .boot | 3 => some .safe | 4 => some .config | 5 => some .service
  | 6 => some .twin | 7 => some .singleRate | 8 => some .calibrate | 9 => some .selftest | 10 => some .update
  | 11 => some .factory | _ => none

/-- Modes 4–11 (R422). -/
def hatreRuns (m : Mode) : Bool := decide (4 ≤ modeCode m)
/-- CONFIG, or FACTORY, which runs as CONFIG (R477, R485). -/
def inConfig (m : Mode) : Bool := m == .config || m == .factory
/-- Modes whose data path renders objects (R477). -/
def rendersObjects (m : Mode) : Bool := m == .service || m == .twin || m == .singleRate
/-- Modes whose speaker chains render (R477, R243). -/
def rendersChains (m : Mode) : Bool := rendersObjects m || m == .calibrate

def fw (d : Dev) (f : Fw → Fw) : Dev := { d with fw := f d.fw }
def hif (d : Dev) (f : Hif → Hif) : Dev := { d with hif := f d.hif }
def mode (d : Dev) : Mode := d.fw.mode
def now (d : Dev) : DT := d.time.dt

/-! Domains as every chapter reads them. -/

def getDom (d : Dev) (n : Nat) : Domain := tabGet d.dom n
def domMod (d : Dev) (n : Nat) (f : Domain → Domain) : Dev := { d with dom := tabMod d.dom n f }
/-- The rate of domain n in force. -/
def rateOf (d : Dev) (n : Nat) : Nat := (getDom d n).cfg.rate
/-- LOCKED or HOLDOVER. -/
def domRuns (s : DomState) : Bool := s == .locked || s == .holdover
/-- The mode whose data path runs: that of a transition from its acceptance on (R480). -/
def pathMode (d : Dev) : Mode :=
  match d.fw.changing with
  | some c => c.target
  | none => mode d
/-- Whether domain n renders: it runs, and the data path renders in the mode (R61, R477). -/
def domRenders (d : Dev) (n : Nat) : Bool :=
  domRuns (getDom d n).state && rendersChains (pathMode d) && (pathMode d != .singleRate || n == 0)
/-- Domain n emits: it renders, or its closing period has blocks to emit (R61, R64, R480). -/
def domEmits (d : Dev) (n : Nat) : Bool :=
  domRenders d n || ((getDom d n).closing.map (·.counts)) == some true || (tabGet d.render.dom n).closing
/-- The domain whose rules govern a thing bound to n: D0 in SINGLE_RATE (R77). -/
def effDom (d : Dev) (n : Nat) : Nat := if pathMode d == .singleRate then 0 else n
/-- MT of the last boundary of domain n. -/
def mtOf (d : Dev) (n : Nat) : MT := (getDom d n).mt
/-- MT after the boundary that ends the block under way: 16 samples on, or the first boundary after a lock. -/
def nextMt (mt : MT) : MT := (mt &&& 0xFFFFFFF0#32) + 16
/-- The next selection boundary of domain n (R90), or on a pair the apply boundary S_t (R379). -/
def selBoundary (d : Dev) (n : Nat) : MT :=
  d.twin.applyAt.getD (nextMt (mtOf d n) + (if mode d == .twin then 32 else 0))

/-! The log (R446). -/

/-- One log entry made; the 8,192 newest are kept. -/
def addLog (d : Dev) (code severity ch : Nat) (args : List Byte) : Dev :=
  let e : LogEntry := { dt := now d, seq := d.fw.logSeq, code := BitVec.ofNat 16 code, severity := severity,
                        ch := BitVec.ofNat 8 ch, args := slice args 0 16 }
  fw d (fun f => { f with log := (if 8192 ≤ f.log.length then f.log.drop 1 else f.log) ++ [e], logSeq := f.logSeq + 1 })

/-! Mailboxes and sessions. -/

def getMbx (d : Dev) (ch : Nat) : Mailbox := tabGet d.mbx ch
def mbxMod (d : Dev) (ch : Nat) (f : Mailbox → Mailbox) : Dev := { d with mbx := tabMod d.mbx ch f }
def getSession (d : Dev) (ch : Nat) : Session := tabGet d.fw.sessions ch
def sessionMod (d : Dev) (ch : Nat) (f : Session → Session) : Dev := fw d (fun w => { w with sessions := tabMod w.sessions ch f })

/-- A session's version as the minor of major 3 whose layouts it uses: 2.x is served as 3.0 (R432). -/
def verOf (major minor : Nat) : Nat := if major = 3 then minor else 0

/-! Replies (R426, R433). -/

/-- Reply length in an older version: none where it is the layout's own. -/
def replyCut (o : Op) (ver : Nat) : Option Nat :=
  match o with
  | .flowState => if ver < 2 then some 40 else none
  | .objQuery => if ver < 3 then some 48 else none
  | .twinState => if ver < 4 then some 44 else none
  | _ => none

/-- Bytes that every reply of an opcode has by the layout of its reply; 1, the status, where the layout belongs to one
action or to a reply that grants (log entry 29). -/
def replyLen (o : Op) : Nat :=
  match o with
  | .hello => 40
  | .ping => 12
  | .flowState => 56
  | .outLatencyGet => 8
  | .version => 20
  | .caps => 56
  | .modeSet | .modeGet => 16
  | .domainCfg => 32
  | .layoutCommit => 20
  | .objCfg | .objUpdate | .routeSet | .busCfg | .matrixDirect | .chainCfg | .eqSet | .delaySet | .dynCfg | .outGain | .outMute => 8
  | .objUpdateBatch | .firLoad => 12
  | .objQuery => 56
  | .haloCfg => 14
  | .seamCfg => 24
  | .micCfg | .toneDetCfg => 20
  | _ => 1

/-- A reply's payload filled to its opcode's layout with free bytes. -/
def replyFill (o : Op) (p : List Byte) : List Byte :=
  p ++ (List.range (replyLen o - p.length)).map (fun i => Config.replyOpen (BitVec.ofNat 16 (opCode o)) (p.length + i))

/-- The reply message of a request. -/
def replyMsg (t : Taken) (st : Status) (body : List Byte) (bulk : Bool) : OutMsg :=
  let p := replyFill t.op (BitVec.ofNat 8 (statusByte st) :: body)
  let p := match replyCut t.op (verOf t.major t.minor) with
    | some n => p.take n
    | none => p
  { ch := t.req.ch.val, opcode := BitVec.ofNat 16 (opCode t.op + 0x8000), tag := t.req.tag, bulk := bulk, payload := p.take 56, isReply := true }

/-- Whether a reply is sent: always with REPLY_REQ; otherwise only where the status is neither OK nor LATE. -/
def replies (t : Taken) (st : Status) : Bool := t.req.replyReq || !(st == .ok || st == .late)

/-- A message placed in the event queue. -/
def queueMsg (d : Dev) (m : OutMsg) : Dev := fw d (fun f => { f with queue := f.queue ++ [m] })

/-- A reply message placed in the event queue, or discarded and counted where its sender epoch has passed (R416); the reply of
a request whose command ticket the partner has not acknowledged is withheld (R378). -/
def queueReply (d : Dev) (t : Taken) (m : OutMsg) : Dev :=
  let ch := t.req.ch.val
  if (getMbx d ch).epoch ≠ t.epoch then mbxMod d ch (fun m => { m with staleOut := m.staleOut + 1 })
  else if d.twin.issued.any (fun i => i.taken == some t) then
    { d with twin := { d.twin with issued := d.twin.issued.map (fun i => if i.taken == some t then { i with reply := some m } else i) } }
  else queueMsg d m

/-- What a log entry carries of a reply; for HELLO, client_id and the version (R446). -/
def logArgs (t : Taken) (payload : List Byte) : List Byte :=
  if t.op == .hello then slice t.req.payload 24 8 ++ slice payload 1 2 else payload

/-- The request answered: logged where refused, replied to where R426 says so. -/
def reply (d : Dev) (t : Taken) (st : Status) (body : List Byte) (bulk : Bool := false) : Dev :=
  let m := replyMsg t st body bulk
  let d := if st == .ok || st == .late then d else addLog d (opCode t.op) 1 t.req.ch.val (logArgs t m.payload)
  if replies t st then queueReply d t m else d

/-! Events (R415, R430, R449, R450). -/

/-- Entries of the event queue beyond those kept for replies: 1,024 less 32 for each channel. -/
def eventCap : Nat := 768
/-- Those in use: by events, and by the replies of a channel past its 32. -/
def eventUse (q : List OutMsg) : Nat :=
  (q.filter (fun m => !m.isReply)).length + ((List.range 8).map (fun ch => (q.filter (fun m => m.isReply && m.ch == ch)).length - 32)).sum

/-- One event for one channel: merged into a waiting EV_FAULT of the same kind and index, queued, or dropped. -/
def eventTo (d : Dev) (n : Nat) (payload : List Byte) (ch : Nat) : Dev :=
  let code := BitVec.ofNat 16 (0xC000 + n)
  let same (m : OutMsg) : Bool :=
    m.ch == ch && m.opcode == code && n == 2 && u8 m.payload 0 == u8 payload 0 && u16 m.payload 2 == u16 payload 2
  if d.fw.queue.any same then
    fw d (fun f => { f with queue := (f.queue.foldl (fun (a : Bool × List OutMsg) m =>
      if same m && !a.1 then (true, a.2 ++ [{ m with payload := m.payload.take 8 ++ slice payload 8 16 ++ p32 (u32 m.payload 24 + 1) ++ slice payload 28 8 }])
      else (a.1, a.2 ++ [m])) (false, [])).2 })
  else if eventCap ≤ eventUse d.fw.queue then
    fw d (fun f => { f with evqDrop := tabMod f.evqDrop ch (· + 1) })
  else fw d (fun f => { f with queue := f.queue ++ [{ ch := ch, opcode := code, tag := 0, bulk := false, payload := payload, isReply := false }] })

/-- Whether an event goes to a session: open, masked in, and known to its version (R430, R432). -/
def eventWanted (s : Session) (n : Nat) (payload : List Byte) : Bool :=
  s.isOpen && bit s.mask.toNat n && !(n == 5 && s.major == 2) && !(n == 11 && decide (5 ≤ u8 payload 0) && decide (verOf s.major s.minor < 4))

/-- Severity of an event's log entry: EV_FAULT is an error, EV_UNDERRUN, EV_LATE_META and EV_CTRL_RESTART are warnings
(DESIGN CHOICE, log entry 21). -/
def eventSeverity (n : Nat) : Nat := if n = 2 then 2 else if n = 3 ∨ n = 4 ∨ n = 9 then 1 else 0

/-- Event 0xC000 + n produced: logged, and queued for every session that requests it.  Nothing is produced while
firmware does not run (R417, R520). -/
def event (d : Dev) (n : Nat) (payload : List Byte) : Dev :=
  if !d.hif.ctrlUp then d else
  let d := addLog d (0xC000 + n) (eventSeverity n) 0xFF payload
  (List.range 8).foldl (fun d ch => if eventWanted (getSession d ch) n payload then eventTo d n payload ch else d) d

/-- EV_FAULT (R450). -/
def evFault (d : Dev) (kind code index domain : Nat) (mt : MT) (a0 a1 a2 : Nat) : Dev :=
  event d 2 (p8 kind ++ p8 code ++ p16 index ++ p8 domain ++ zeros 3 ++ p32 mt.toNat ++ p32 a0 ++ p32 a1 ++ p32 a2 ++ p32 0 ++ p64 (now d).toNat)

/-- EV_PORT_CLOCK (R73). -/
def evPortClock (d : Dev) (kind index new old flags : Nat) (mt : MT) (dt : DT) : Dev :=
  event d 10 (p8 kind ++ p8 index ++ p8 new ++ p8 old ++ p8 flags ++ zeros 3 ++ p32 mt.toNat ++ p64 dt.toNat)

/-! Requests as rules answer them. -/

/-- How a judged request goes on: answered now, a shadow commit of a domain (R35), a reply that waits, a bulk region to
fetch first (R441), a reply already given. -/
inductive Ans where
  | now (st : Status) (body : List Byte) (bulk : Bool := false)
  | commit (dom : Nat)
  | wait (w : WaitFor)
  | fetch (addr len : Nat) (crc : Word)
  | done
  deriving DecidableEq, Repr

abbrev Judge1 := Dev → Taken → Option (List Byte) → Dev × Ans

def bad (d : Dev) : Dev × Ans := (d, .now .badArg [])
def ans (d : Dev) (st : Status) : Dev × Ans := (d, .now st [])
def ansB (d : Dev) (st : Status) (body : List Byte) : Dev × Ans := (d, .now st body)

/-- GAIN_CLAMP counts a centi-dB value that R8 clamps. -/
def countClamps (d : Dev) (cs : List Int) : Dev :=
  fw d (fun f => { f with gainClamp := f.gainClamp + BitVec.ofNat 32 ((cs.filter cdbClamps).length) })

/-- The bulk reference at o of a payload (R440), and whether its address and length are in range (R441). -/
def bulkRef (p : List Byte) (o : Nat) : Nat × Nat × Word := (u64 p o, u32 p (o + 8), BitVec.ofNat 32 (u32 p (o + 12)))
def bulkOk (r : Nat × Nat × Word) : Bool := r.1 % 4 == 0 && decide (1 ≤ r.2.1) && decide (r.2.1 ≤ 33554432)

/-- A region written to the host (R441). -/
def deposit (d : Dev) (addr : Nat) (bytes : List Byte) : Dev := { d with hostWrites := d.hostWrites ++ [(addr, bytes)] }

/-- A taken free value (log entry 3): the next of the sequence. -/
def takeFree (d : Dev) : DWord × Dev := (Config.freeValue d.free, { d with free := d.free + 1 })

/-! Power domains (R498). -/

/-- Domains that are on and being reset: asked for, and switching all the same (R495, R500). -/
def pdResets (p : Power) : Half := p.on &&& p.en &&& p.switching
/-- Whether power domain i is on and works: its targets answer. -/
def pdOn (d : Dev) (i : Nat) : Bool := d.power.on.getLsbD i && !(pdResets d.power).getLsbD i
/-- The power domain of network port p. -/
def netPd (p : Nat) : Nat := if p < 2 then 3 else 4

end Sys2Proof.Machine
end

