-- ==== Sys2Proof/Machine/Ports.lean ====
section
/-! DEFINITION. AES3, TDM and alignment groups (R309–R335). -/

namespace Sys2Proof.Machine

/-! Words and dither (R311, R312). -/

/-- A received word of w bits as Q1.31. -/
def wordIn (v w : Nat) : Int := sext w v * 2 ^ (32 - w)

def m32 (v : Nat) : Nat := v % 2 ^ 32

/-- u₁ − u₂ of R312 for Q. -/
def dither (mt : MT) (c q : Nat) : Int :=
  let z := m32 (mt.toNat * 0x9E3779B9 + c * 0x85EBCA6B)
  let z := z ^^^ (z / 2 ^ 16)
  let z := m32 (z * 0x7FEB352D)
  let z := z ^^^ (z / 2 ^ 15)
  ((z % q : Nat) : Int) - (((z / 2 ^ 16) % q : Nat) : Int)

/-- A transmitted word of w bits, as a w-bit two's-complement number, with its clip (R311). -/
def wordOut (x : Int) (w : Nat) (dith : Bool) (mt : MT) (c : Nat) : Nat × Nat :=
  let q : Nat := 2 ^ (32 - w)
  let a := (if dith ∧ w < 32 then x + dither mt c q else x) / (q : Int)
  let hi : Int := 2 ^ (w - 1) - 1
  let lo : Int := -2 ^ (w - 1)
  (wrapNat w (clampI lo hi a), if a < lo ∨ hi < a then 1 else 0)

/-! Channel status (R317, R318). -/

/-- CRCC of bytes 0–22, bits in transmission order (log entry 19). -/
def csCrc (bs : List Byte) : Byte :=
  (bs.take 23).foldl (fun (c : Byte) b => (List.range 8).foldl (fun (c : Byte) i =>
    let x := c.getLsbD 0 != b.getLsbD i
    if x then (c >>> 1) ^^^ 0xB8#8 else c >>> 1) c) 0xFF#8

/-- 192 bits (newest first) as 24 bytes, the first bit in bit 0 of byte 0. -/
def bitsBytes (newest : List Bool) : List Byte :=
  let bs := newest.reverse
  (List.range 24).map (fun i => BitVec.ofNat 8 ((List.range 8).foldl (fun a j => a + 2 ^ j * b2n (bs.getD (8 * i + j) false)) 0))

/-- Bit n of a 24-byte block. -/
def blockBit (bs : List Byte) (n : Nat) : Bool := (bs.getD (n / 8) 0).getLsbD (n % 8)

/-- Byte 0 and byte 4 rate codes and the byte 2 word length of an AUTO block (log entry 19). -/
def autoCs (rate wl : Nat) : List Byte :=
  let b0 : Nat := 1 + 4 + (if rate = 48000 then 128 else if rate = 44100 then 64 else if rate = 32000 then 192 else 0)
  let b2 : Nat := if wl = 24 then 4 + 8 * 5 else 8 * 5
  let b4 : Nat := 8 * (if rate = 96000 then 2 else if rate = 192000 then 3 else if rate = 88200 then 10 else if rate = 176400 then 11 else 0)
  let bs : List Byte := [BitVec.ofNat 8 b0, 0, BitVec.ofNat 8 b2, 0, BitVec.ofNat 8 b4] ++ zeros 18
  bs ++ [csCrc bs]

/-- The block a transmitter sends. -/
def txCs (c : AesTxCfg) (rate : Nat) (written : List Byte) : List Byte :=
  if c.fixed then let bs := slice written 0 23; bs ++ [csCrc bs] else autoCs rate c.wl

/-! The slip gate (R324). -/

def slipFadeLen (f : Nat) : Nat := (rne (f : Int) 1000).toNat

/-- A slip or clock fault from sample k with the last good samples. -/
def slipStart (g : SlipGate) (k : MT) (last : List Int) : SlipGate :=
  match g.phase with
  | .passing | .ramp => { phase := .fade, t := k, clean := 0, ok := false, last := last }
  | _ => { g with clean := 0, ok := false }

/-- Whether a new slip counts: one during the fade or the silence does not (R324). -/
def slipCounts (g : SlipGate) : Bool := g.phase == .passing || g.phase == .ramp

/-- Sample k of channel i through the gate. -/
def slipAt (g : SlipGate) (f : Nat) (k : MT) (i : Nat) (x : Int) : Int :=
  match g.phase with
  | .passing => x
  | .zero => 0
  | .ramp => (mulGain x (cosSegAt { v0 := 0, v1 := unity, t := g.t, n := rampIn f } k)).1
  | .fade =>
    if mtDiff k g.t < 0 then x else (mulGain (g.last.getD i 0) (cosSegAt { v0 := unity, v1 := 0, t := g.t, n := slipFadeLen f } k)).1

/-- The gate at a block end b of its domain: a finished fade is silence, clean blocks are counted and the boundary
after the fourth starts the ramp where SLIP_RAMP_IN has not, a finished ramp passes. -/
def slipBlock (g : SlipGate) (f : Nat) (b : MT) : SlipGate :=
  match g.phase with
  | .passing => { g with ok := true }
  | .fade => if (slipFadeLen f : Int) ≤ mtDiff b g.t then { g with phase := .zero, clean := 0, ok := true } else { g with ok := true }
  | .zero => if g.ok ∧ 4 ≤ g.clean then { g with phase := .ramp, t := b } else { g with clean := if g.ok then g.clean + 1 else 0, ok := true }
  | .ramp => if (rampIn f : Int) ≤ mtDiff b g.t then { phase := .passing } else { g with ok := true }

/-- SLIP_RAMP_IN: after four clean blocks, from boundary b. -/
def slipRampIn (g : SlipGate) (b : MT) : SlipGate :=
  if g.phase = .zero ∧ 4 ≤ g.clean then { g with phase := .ramp, t := b } else g

/-! Elastic mappings (R315, R320). -/

/-- An instant at 2^-16 samples, relative to an MT: how far MT n lies after it. -/
def delay16 (n mt : MT) (frac : Half) : Int := mtDiff n mt * 65536 - (frac.toNat : Int)

/-- The mapping set at an instant: the smallest δ of at least lo sample periods. -/
def elasticSet (mt : MT) (frac : Half) (lo : Nat) : Elastic :=
  let n := mt + BitVec.ofNat 32 (if frac = 0 then lo else lo + 1)
  { next := n, ref := (delay16 n mt frac).toNat, refZ := 0, has := true }

/-- The mapping of transmitted frames: the sample of the latest MT whose δ, from its instant to the FS edge, is at least
1 frame (R320). -/
def elasticSetT (mt : MT) (frac : Half) : Elastic := { next := mt - 1, ref := 65536 + frac.toNat, refZ := 0, has := true }

/-- The reference kept, with the mapping where the domain's MT has taken it: the frame at the instant lies nearest δ_ref
(R328). -/
def elasticKeep (e : Elastic) (mt : MT) (frac : Half) : Elastic :=
  { e with next := mt + BitVec.ofNat 32 ((frac.toNat + e.ref + 32768) / 65536) }

/-- The same for transmitted frames. -/
def elasticKeepT (e : Elastic) (mt : MT) (frac : Half) : Elastic :=
  { e with next := mt + BitVec.ofInt 32 (((frac.toNat : Int) - e.ref + 32768) / 65536) }

/-- δ within δ_ref ± 1.5 samples. -/
def elasticIn (e : Elastic) (mt : MT) (frac : Half) : Bool :=
  decide ((delay16 e.next mt frac - (e.ref : Int)).natAbs ≤ 98304)

/-- The same for transmitted frames. -/
def elasticInT (e : Elastic) (mt : MT) (frac : Half) : Bool :=
  decide ((-(delay16 e.next mt frac) - (e.ref : Int)).natAbs ≤ 98304)

/-- Whole frames missing between two instants: a grouped member's mapping advances with MT through them (R328). -/
def gapLost (mt0 : MT) (frac0 : Half) (mt : MT) (frac : Half) : Nat :=
  let g := mtDiff mt mt0 * 65536 + (frac.toNat : Int) - (frac0.toNat : Int)
  if g < 98304 then 0 else ((g + 32768) / 65536 - 1).toNat

/-- A mapping carried on by n frames. -/
def elasticSkip (e : Elastic) (n : Nat) : Elastic := { e with next := e.next + BitVec.ofNat 32 n }

/-- δ_ref's fraction in UQ0.16. -/
def refFrac (e : Elastic) : Nat := e.ref % 65536

/-! AES3 reception. -/

def aesCode : AesState → Nat
  | .absent => 0 | .locking => 1 | .locked => 2 | .clockFault => 3

/-- The Q1.31 sample of a subframe: the previous good one on a line error, zero where NONAUDIO or VALIDITY_MUTE says so. -/
def subSample (r : AesRx) (nonAudio : Bool) (s : AesSub) (prev : Int) : Int :=
  if s.parity || s.biphase then prev
  else if nonAudio || (r.cfg.vmute && s.v) then 0
  else if r.wl20 then wordIn (s.word.toNat / 16) 20 else wordIn s.word.toNat 24

/-- A stored block of a subframe (R317): the block, whether it changed in bytes 0–22, and a CRCC error. -/
def storeBlock (old : Option CsBlock) (cs us : List Bool) : CsBlock × Bool × Bool :=
  let bs := bitsBytes cs
  let pro := blockBit bs 0
  let bad := pro && (csCrc bs != bs.getD 23 0)
  ({ cs := bs, user := bitsBytes us, crcBad := bad },
    (match old with | some o => o.cs.take 23 != bs.take 23 | none => false), bad)

/-- At a Z preamble the completed blocks are stored and a change of non-audio or word length takes effect. -/
def zStore (r : AesRx) : AesRx :=
  let r := if r.csA.length = 192 then
      let a := storeBlock r.blkA r.csA r.usA
      let b := storeBlock r.blkB r.csB r.usB
      { r with blkA := some a.1, blkB := some b.1,
               changed := [r.changed.getD 0 false || a.2.1, r.changed.getD 1 false || b.2.1],
               csCrcErr := cAdd r.csCrcErr (b2n a.2.2 + b2n b.2.2),
               nonA := blockBit a.1.cs 1, nonB := blockBit b.1.cs 1 }
    else r
  { r with csA := [], csB := [], usA := [], usB := [], wl20 := r.cfg.wl20, sinceZ := 0 }

/-- Causes of a slip, as EV_UNDERRUN numbers them. -/
abbrev SlipCause := Nat

/-- A gate at a boundary b, once its block [b − 16, b) is known to be clean or not. -/
def slipLand (g : SlipGate) (f : Nat) (b : MT) (clean : Bool) : SlipGate := slipBlock { g with ok := clean } f b

/-- A channel buffer at boundary b: silent up to b where nothing is received, and the block [b − 16, b) gated. -/
def bufLand (g : SlipGate) (f : Nat) (i : Nat) (receiving : Bool) (l : Line) (b : MT) : Line :=
  let l := if receiving ∧ mtDiff b l.next ≤ 64 then l
    else
      let n := mtDiff b l.next
      if n ≤ 0 ∧ -64 ≤ n then l else if 0 < n ∧ n ≤ 64 then linePush 512 l l.next (List.replicate n.toNat 0) else linePush 512 l (b - 16) (List.replicate 16 0)
  { l with xs := l.xs.zipIdx.map (fun p =>
      let k := l.next - 1 - BitVec.ofNat 32 p.2
      if mtDiff k b < 0 ∧ mtDiff (b - 17) k < 0 then slipAt g f k i p.1 else p.1) }

/-- No position of [b − 16, b) is bad. -/
def blockClean (bad : List MT) (b : MT) : Bool := bad.all (fun k => !(decide (mtDiff k b < 0) && decide (mtDiff (b - 17) k < 0)))

/-- Whether a frequency error lies within 200 ppm. -/
def epsOk (e : Int) : Bool := decide (e.natAbs ≤ 200000)

/-- Whether a receiver's frequency is right: within 200 ppm of its domain; in SINGLE_RATE, where it runs on its own clock, a
rate identified within 1,000 ppm (R310, R314). -/
def aesFreqOk (own : Bool) (c : AesRxCfg) (eps : Int) (rate : Nat) : Bool :=
  if own then rate != 0 && (c.nominal == 0 || rate == c.nominal) else epsOk eps

/-- The place of the last Z preamble is that of the reference, for a frame taken at k (R328). -/
def zAtRef (r : AesRx) (k : MT) : Bool := (k - BitVec.ofNat 32 r.sinceZ).toNat % 192 == r.map.refZ

/-- A frame received (R311–R317, R324, R328); own says that the receiver runs on its own clock.  The result names a slip's
cause and its first position. -/
def aesFrameRx (r : AesRx) (grouped own : Bool) (dmt : MT) (fr : AesFrame) : AesRx × Option (SlipCause × MT) :=
  let lost := if grouped ∧ r.state = .locked then gapLost r.lastMt r.lastFrac fr.mt fr.frac else 0
  let r := if fr.z then { zStore r with seenZ := true } else { r with sinceZ := r.sinceZ + lost + 1 }
  let err := fr.a.parity || fr.a.biphase || fr.b.parity || fr.b.biphase
  let errs := (err :: r.errs).take 64
  let r := { r with
    lastMt := fr.mt, lastFrac := fr.frac, eps := fr.epsPpb, rateHz := fr.rateHz,
    frames := if r.state = .absent ∨ aesFreqOk own r.cfg fr.epsPpb fr.rateHz then r.frames + 1 else 0, errs := errs,
    csA := (fr.a.c :: r.csA).take 193, csB := (fr.b.c :: r.csB).take 193, usA := (fr.a.u :: r.usA).take 193, usB := (fr.b.u :: r.usB).take 193,
    vCount := cAdd r.vCount (b2n fr.a.v + b2n fr.b.v), parityErr := cAdd r.parityErr (b2n fr.a.parity + b2n fr.b.parity),
    biphaseErr := cAdd r.biphaseErr (b2n fr.a.biphase + b2n fr.b.biphase) }
  if r.state ≠ .locked then (r, none)
  else
    let e := elasticSkip r.map lost
    let k := e.next
    let inside := elasticIn e fr.mt fr.frac && (!grouped || slipCounts r.gate || zAtRef r k)
    let dense := err && decide (8 ≤ (errs.filter (·)).length)
    let ovr := decide (64 ≤ mtDiff k dmt)
    let xs := [subSample r r.nonA fr.a (r.good.getD 0 0), subSample r r.nonB fr.b (r.good.getD 1 0)]
    let cause : Option Nat := if !inside then some 0 else if ovr then some 1 else if dense then some 3 else none
    let counts := cause.isSome && slipCounts r.gate
    let g := match cause with
      | some _ => slipStart r.gate k r.good
      | none => r.gate
    -- a slip recentres an ungrouped port; a grouped one keeps its mapping (R324, R328)
    let recenter := !grouped && (!inside || ovr || counts)
    let map := if recenter then elasticSet fr.mt fr.frac 4 else e
    let q := map.next
    let map := if grouped then map else { map with refZ := (q - BitVec.ofNat 32 r.sinceZ).toNat % 192 }
    let good := if cause.isNone then xs else r.good
    let gap := (List.range (clampI 0 64 (mtDiff q k)).toNat).map (fun i => k + BitVec.ofNat 32 i)
    let skipped := (List.range (min lost 64)).map (fun i => k - 1 - BitVec.ofNat 32 i)
    ({ r with
        map := { map with next := q + 1 }, gate := g, good := good,
        bad := (if cause.isSome then k :: q :: gap else if err then [q] else []) ++ skipped ++ r.bad,
        miss := if grouped && !inside then r.miss + 1 else 0,
        outA := linePut 512 r.outA q (good.getD 0 0), outB := linePut 512 r.outB q (good.getD 1 0),
        slips := if counts then cInc r.slips else r.slips },
      if counts then cause.map (fun c => (c, k)) else none)

/-- R314: lock, with the reference delay (kept by R328 where the member is grouped and has one). -/
def aesLock (r : AesRx) (grouped : Bool) : AesRx :=
  let e := if grouped ∧ r.map.has then elasticKeep r.map r.lastMt r.lastFrac
    else let e := elasticSet r.lastMt r.lastFrac 4
      -- the Z preamble sinceZ frames ago fell at this MT
      { e with refZ := ((e.next - BitVec.ofNat 32 r.sinceZ).toNat) % 192 }
  { r with state := .locked, map := { e with next := e.next + 1 }, gate := { phase := .zero }, errs := [], frames := 0, miss := 0 }

/-- A grouped member recentres as an ungrouped port would (R328). -/
def aesRecenter (r : AesRx) : AesRx :=
  let e := elasticSet r.lastMt r.lastFrac 4
  { r with map := { e with refZ := ((e.next - BitVec.ofNat 32 r.sinceZ).toNat) % 192, next := e.next + 1 }, mappingLost := true, miss := 0 }

/-- Loss of the signal, or of its frequency: the channels fade. -/
def aesFade (r : AesRx) (st : AesState) : AesRx :=
  { r with state := st, gate := if r.state = .locked then slipStart r.gate r.outA.next r.good else r.gate, frames := 0 }

/-- A receiver at boundary b of its domain: the block [b − 16, b) lands. -/
def aesLand (r : AesRx) (f : Nat) (b : MT) : AesRx :=
  let rec_ := r.state == .locked
  let clean := rec_ && blockClean r.bad b && decide (0 ≤ mtDiff r.outA.next b)
  { r with outA := bufLand r.gate f 0 rec_ r.outA b, outB := bufLand r.gate f 1 rec_ r.outB b, landed := b
           bad := r.bad.filter (fun k => decide (0 ≤ mtDiff k b)), gate := slipLand r.gate f b clean }

/-- AES_RX_STATUS. -/
def aesStatus (r : AesRx) : Word :=
  BitVec.ofNat 32 (65536 * refFrac r.map + 128 * b2n (r.nonA || r.nonB) +
    64 * b2n (match r.blkA with | some b => !blockBit b.cs 0 | none => false) +
    32 * b2n (r.changed.any (·)) + 16 * b2n r.mappingLost + aesCode r.state)

/-! AES3 transmission. -/

/-- One frame of a transmitter (R318): A and B samples with their validity at emission MT next. -/
def aesFrameTx (t : AesTx) (i rate : Nat) (a b : Int × Bool) : AesTx × Nat :=
  let atZ := t.frame = 0
  let t := if atZ then { t with nowCsA := txCs t.cfg rate t.csA, nowCsB := txCs t.cfg rate t.csB, nowUsA := t.userA, nowUsB := t.userB } else t
  let quiet := match t.phase with
    | .running => false
    | _ => true
  let wa := if quiet then (0, 0) else wordOut a.1 t.cfg.wl t.cfg.dither t.next (2 * i)
  let wb := if quiet then (0, 0) else wordOut b.1 t.cfg.wl t.cfg.dither t.next (2 * i + 1)
  let sh := 2 ^ (24 - t.cfg.wl)
  let o : AesOut := {
    z := atZ, a := wa.1 * sh, b := wb.1 * sh, va := t.cfg.forceV || quiet || !a.2, vb := t.cfg.forceV || quiet || !b.2,
    ua := blockBit t.nowUsA t.frame, ub := blockBit t.nowUsB t.frame,
    ca := blockBit t.nowCsA t.frame, cb := blockBit t.nowCsB t.frame }
  let phase := match t.phase with
    | .starting (n + 1) => if n = 0 then TxPhase.running else .starting n
    | .starting 0 => .running
    | .stopping (n + 1) => if n = 0 then .off else .stopping n
    | .stopping 0 => .off
    | p => p
  ({ t with frame := (t.frame + 1) % 192, next := t.next + 1, phase := phase, sent := some o }, wa.2 + wb.2)

/-! TDM (R319–R322). -/

def tdmCode : TdmState → Nat
  | .stopped => 0 | .noClock => 1 | .starting => 2 | .running => 3 | .stopping => 4 | .clockFault => 5

/-- Largest slot count at a rate (R319). -/
def maxSlots (rate : Nat) : Nat := if rate ≤ 48000 then 32 else if rate ≤ 96000 then 16 else 8

/-- Whether a format is in the table of R319. -/
def tdmOk (c : TdmCfg) (rate : Nat) : Bool :=
  let w (n : Nat) : Bool := n == 16 || n == 24 || n == 32
  decide (c.format ≤ 2) && decide (1 ≤ c.slots) && decide (c.slots ≤ maxSlots rate) && (c.format == 2 || c.slots == 2) &&
    w c.slotBits && w c.dataBits && decide (c.dataBits ≤ c.slotBits) &&
    decide (c.slots * c.slotBits * rate ≤ 49152000) && decide (c.fsOffset ≤ 7) && (c.format == 2 || c.fsOffset == 0)

/-- The shadows become active at the frame carrying MT m (R322). -/
def copyMasks (t : Tdm) (m : MT) : Tdm :=
  let new (old sh : Word) (tab : Tab MT) : Tab MT :=
    (List.range 32).foldl (fun tb s => if sh.getLsbD s && !old.getLsbD s then tabSet tb s m else tb) tab
  { t with
      rxMask := t.rxShadow, txMask := t.txShadow, slotRx := new t.rxMask t.rxShadow t.slotRx,
      slotTx := new t.txMask t.txShadow t.slotTx, startCopy := false, maskMt := m, maskCopies := cInc t.maskCopies }

/-- The mask copy due at the FS edge of the frame carrying MT m (R322): shadows stored for the start; an arm complete at
least 2 APLL cycles before, and for a timed copy at or after its frame.  The flag says that an armed copy was made. -/
def maskCopy (t : Tdm) (m : MT) (lead : Nat) : Tdm × Bool :=
  let t := if t.startCopy && (t.state == .starting || t.state == .running) then copyMasks t m else t
  let reached := !t.atMt || mtGe m t.maskAt
  if !t.armed || lead < 2 || !reached then (t, false)
  else ({ copyMasks t m with armed := false, lateBit := if t.atMt then m != t.maskAt else t.lateBit }, true)

/-- Fade-in of a slot enabled at t, over 64 samples. -/
def slotGain (tab : Tab MT) (s : Nat) (k : MT) : Int :=
  match tab.find? (fun p => p.1 == s) with
  | some (_, t) => cosSegAt { v0 := 0, v1 := unity, t := t, n := 64 } k
  | none => unity

/-- Fades of slots that are over at k. -/
def slotSettle (tab : Tab MT) (k : MT) : Tab MT := tab.filter (fun p => decide (mtDiff k p.2 < 64))

/-- What a gate repeats of a slot that the mask disables is zero (R322). -/
def maskLast (m : Word) (xs : List Int) : List Int := xs.zipIdx.map (fun p => if m.getLsbD p.2 then p.1 else 0)

/-- Whether a port carries frames, and with that takes mask copies. -/
def tdmLive (s : TdmState) : Bool := s == .starting || s == .running || s == .stopping

/-- A frame at an FS edge (R320–R322, R324): gr and gt say which directions are grouped, both which direction an event names
where both slip, and tx gives the sample of a slot at an emission MT and whether it was published.  The results: the port, a
slip (kind, cause and first position), whether an armed mask copy was made, clips. -/
def tdmFrame (t : Tdm) (n f : Nat) (gr gt inhibit : Bool) (both : Nat) (tx : Nat → MT → Int × Bool) (fr : TdmIn) :
    Tdm × Option (Nat × SlipCause × MT) × Bool × Nat :=
  let target := t.cfg.target
  let lost := gapLost t.lastMt t.lastFrac fr.mt fr.frac
  let eR := if target then elasticSkip t.map (if gr then lost else 0) else { t.map with next := fr.mt + 1 }
  let eT := if target then elasticSkip t.mapT (if gt then lost else 0) else { t.mapT with next := fr.mt }
  let k := eR.next
  let m := eT.next
  let mc := if tdmLive t.state then maskCopy t m fr.armLead else (t, false)
  let t := mc.1
  let watch := t.state = .noClock ∨ t.state = .clockFault
  let fading := t.state = .stopping ∧ t.gateT.phase = .fade ∧ mtDiff m t.gateT.t < (slipFadeLen f : Int)
  let t := { t with
    lastMt := fr.mt, lastFrac := fr.frac, eps := fr.epsPpb, rateHz := fr.rateHz,
    frames := if watch then (if fr.bclkOk && epsOk fr.epsPpb then t.frames + 1 else 0) else if fading then 0 else t.frames + 1 }
  if !tdmLive t.state then ({ t with map := { eR with next := k + 1 }, mapT := { eT with next := m + 1 } }, none, mc.2, 0) else
  let carry := t.state = .running
  let slots := List.range t.cfg.slots
  let samp := slots.map (fun s => if t.txMask.getLsbD s then tx s m else (0, true))
  let winR := carry && target && !elasticIn eR fr.mt fr.frac
  let winT := carry && target && !elasticInT eT fr.mt fr.frac
  let under := carry && !inhibit && samp.any (fun x => !x.2)
  let rxs := slots.map (fun s => if t.rxMask.getLsbD s then wordIn ((fr.words.getD s 0).toNat % 2 ^ t.cfg.dataBits) t.cfg.dataBits else 0)
  let txs := samp.map Prod.fst
  let cR := winR && slipCounts t.gate
  let cT := (winT || under) && slipCounts t.gateT
  let gR := if winR then slipStart t.gate k t.goodR else t.gate
  let gT := if winT || under then slipStart t.gateT m t.goodT else { t.gateT with ok := t.gateT.ok && carry }
  let gR := { gR with last := maskLast t.rxMask gR.last }
  let gT := { gT with last := maskLast t.txMask gT.last }
  -- a slip recentres the mapping of an ungrouped direction; a grouped one keeps it (R324, R328)
  let eR' := if winR && !gr then elasticSet fr.mt fr.frac 1 else eR
  let eT' := if target && (winT || cT) && !gt then elasticSetT fr.mt fr.frac else eT
  let q := eR'.next
  let xr := if winR then t.goodR else rxs
  let rxOut (s : Nat) : Int :=
    if carry ∧ t.rxMask.getLsbD s then (mulGain (xr.getD s 0) (slotGain t.slotRx s q)).1 else 0
  let txWord (s : Nat) : Option Nat × Nat :=
    if !t.txMask.getLsbD s then (if t.cfg.doutHiz then none else some 0, 0)
    else if t.state = .starting ∨ inhibit then (some 0, 0)
    else
      let x := (mulGain (slipAt gT f m s (txs.getD s 0)) (slotGain t.slotTx s m)).1
      let w := wordOut x t.cfg.dataBits t.cfg.dither m (32 + 32 * n + s)
      (some w.1, w.2)
  let ws := slots.map txWord
  let kind := if cR && cT then both else if cT then 3 else 2
  ({ t with
      gate := gR, gateT := gT, goodR := if carry ∧ !winR then rxs else t.goodR, goodT := if carry ∧ !winT ∧ !under then txs else t.goodT,
      bad := (if winR then [k, q] else []) ++ (if gr then (List.range (min lost 64)).map (fun i => k - 1 - BitVec.ofNat 32 i) else []) ++ t.bad,
      miss := if gr && winR then t.miss + 1 else 0, missT := if gt && winT then t.missT + 1 else 0,
      map := { eR' with next := q + 1 }, mapT := { eT' with next := eT'.next + 1 },
      slotRx := slotSettle t.slotRx (k + 1), slotTx := slotSettle t.slotTx (m + 1),
      rx := slots.foldl (fun tb s => tabMod tb s (fun l => linePut 512 l q (rxOut s))) t.rx,
      dout := ws.map Prod.fst,
      slips := if cR || cT then cInc t.slips else t.slips },
    (if cR || cT then some (kind, if kind = 3 && !winT then 2 else 0, if kind = 3 then m else k) else none), mc.2, ws.foldl (fun a w => a + w.2) 0)

/-- A TDM port at boundary b of its domain: the block [b − 16, b) of every slot lands. -/
def tdmLand (t : Tdm) (f : Nat) (b : MT) : Tdm :=
  let rec_ := tdmLive t.state
  let next := match t.rx with
    | kv :: _ => kv.2.next
    | [] => b
  let clean := t.state == .running && blockClean t.bad b && decide (0 ≤ mtDiff next b)
  { t with rx := t.rx.map (fun kv => (kv.1, bufLand t.gate f kv.1 rec_ kv.2 b)), landed := b, bad := t.bad.filter (fun k => decide (0 ≤ mtDiff k b))
           gate := slipLand t.gate f b clean, gateT := slipBlock t.gateT f b }

/-- Both directions fade (R324), each from its next position. -/
def tdmFade (t : Tdm) : Tdm :=
  if t.state = .running then
    { t with gate := slipStart t.gate t.map.next t.goodR, gateT := slipStart t.gateT (if t.cfg.target then t.mapT.next else t.lastMt + 1) t.goodT }
  else t

/-- The receive direction's reference set, or kept by R328; the next frame follows the last. -/
def tdmReferR (t : Tdm) (gr : Bool) : Tdm :=
  let e := if gr ∧ t.map.has then elasticKeep t.map t.lastMt t.lastFrac else elasticSet t.lastMt t.lastFrac 1
  { t with map := { e with next := e.next + 1 }, miss := 0 }

/-- The transmit direction's. -/
def tdmReferT (t : Tdm) (gt : Bool) : Tdm :=
  let e := if gt ∧ t.mapT.has then elasticKeepT t.mapT t.lastMt t.lastFrac else elasticSetT t.lastMt t.lastFrac
  { t with mapT := { e with next := e.next + 1 }, missT := 0 }

def tdmRefer (t : Tdm) (gr gt : Bool) : Tdm := tdmReferT (tdmReferR t gr) gt

/-- TDM_STATUS. -/
def tdmStatus (t : Tdm) (inhibit : Bool) : Word :=
  BitVec.ofNat 32 ((if t.cfg.target then 65536 * refFrac t.map else 0) + 32 * b2n inhibit + 16 * b2n t.cfg.target + tdmCode t.state)

/-- TDM_MASK_CTRL. -/
def maskCtrl (t : Tdm) : Word := BitVec.ofNat 32 (4 * b2n t.lateBit + 2 * b2n t.atMt + b2n t.armed)

/-- The group a member is in, and its record. -/
def memberGroup (p : Ports) (kind index : Nat) : Option Nat :=
  (p.groups.find? (fun g => g.2.members.any (fun m => m.kind == kind && m.index == index))).map Prod.fst

/-- ALIGN_STATUS bits of a group. -/
def groupLost (g : AlignGroup) : Nat := (g.members.zipIdx).foldl (fun a m => a + 2 ^ m.2 * b2n m.1.lost) 0

end Sys2Proof.Machine
end

