-- ==== Sys2Proof/Machine/RegFile.lean ====
section
/-! DEFINITION. The registers as they read, without the effect of reading (R406, R412, R419, R420, R469 and the register
tables of the other chapters).  An offset a register table does not define reads 0 (R20, log entry 100). -/

namespace Sys2Proof.Machine

/-- A word of bit fields: each value at its bit, summed. -/
def fields (l : List (Nat × Nat)) : Word := BitVec.ofNat 32 (l.foldl (fun a p => a + p.2 * 2 ^ p.1) 0)

/-- Index of a register in an array of n words at base, stride s. -/
def arrIx (o base s n : Nat) : Option Nat :=
  if base ≤ o ∧ (o - base) % s = 0 ∧ (o - base) / s < n then some ((o - base) / s) else none

/-! The HIF block (R406). -/

def hifRev (d : Dev) : Word :=
  fields [(28, 3), (24, 4), (8, d.flash.fwVersion.toNat), (0, Config.silicon.toNat)]

def hifCap : Word := if Config.gradeAF then 0x01E00400 else 0x09500200

def hifStatus (d : Dev) : Word :=
  fields [(3, b2n d.hif.hostBoot), (2, b2n d.hif.fwSlot), (1, b2n d.hif.restarting), (0, b2n d.hif.ctrlUp)]

def hifMode (d : Dev) : Word :=
  fields [(8, b2n (d.fw.changing.isSome || d.fw.commits.any (fun c => c.taken.op == .modeSet))), (4, modeCode d.fw.prevMode), (0, modeCode d.fw.mode)]

/-- IRQ_HOLDOFF of a ring is over at t. -/
def ringFree (t : DT) (r : Ring) : Bool :=
  match r.irqDt with
  | some u => decide (bits r.ctrl.toNat 15 8 * 1000 ≤ (t - u).toNat)
  | none => true

/-- A ring whose held interrupt has been raised where its hold-off is over (R360). -/
def ringMature (t : DT) (r : Ring) : Ring :=
  if r.irqHeld && ringFree t r then
    { r with irqHeld := false, irqPend := true, irqDt := r.irqDt.map (fun u => u + BitVec.ofNat 64 (bits r.ctrl.toNat 15 8 * 1000)) }
  else r

/-- MBXn_IRQ AND MBXn_IRQ_EN is nonzero. -/
def mbxPends (d : Dev) (n : Nat) : Bool := (getMbx d n).irq &&& (getMbx d n).irqEn != 0

/-- A host DMA channel has an enabled interrupt source (R469). -/
def dmaPends (d : Dev) : Bool :=
  (List.range 8).any (fun n => (tabGet d.dma.ch n).irq &&& (tabGet d.dma.ch n).irqEn != 0)

/-- HIF_IRQ_STATUS: the pending source of each vector (R406, R407). -/
def irqStatus (d : Dev) : Word :=
  fields ([(14, b2n d.hif.irqMode), (13, b2n (d.hif.fault != 0)), (12, b2n (d.time.irq &&& 0xFFF != 0)),
    (11, b2n ((List.range 4).any (fun p => let x := tabGet d.net.ports p; x.halfRx != 0 || x.halfTx != 0))),
    (10, b2n ((List.range 8).any (fun r => (tabGet d.net.rings r).irqPend))), (9, b2n (dmaPends d)),
    (8, b2n (d.hif.dblD2H &&& d.hif.dblD2HEn != 0))] ++ (List.range 8).map (fun n => (n, b2n (mbxPends d n))))

def hifWord (d : Dev) (o : Nat) : Word :=
  if o = 0 then 0x4F5A1024 else if o = 4 then hifRev d else if o = 8 then hifCap else if o = 0xC then hifStatus d
  else if o = 0x10 then hifMode d else if o = 0x18 then irqStatus d else if o = 0x1C then d.hif.irqEn
  else if o = 0x20 then d.aon.bootcnt.setWidth 32 else if o = 0x24 then d.aon.safeReason.setWidth 32
  else if o = 0x28 then d.hif.mbxLost else if o = 0x2C then d.hif.ctrlRestarts else if o = 0x30 then d.hif.spiIrqEn
  else if o = 0x34 then d.hif.fault else if o = 0x38 then d.hif.accessErr else 0

/-! Mailboxes (R401, R405, R412). -/

/-- The mailbox channels an interface owns. -/
def ownsMbx (v : Via) (n : Nat) : Bool :=
  match v with
  | .pcie => n != 4 && n != 5
  | .spi => n == 4
  | .bar2 | .ctrl => false

/-- Firmware takes cells of a channel. -/
def takesCells (d : Dev) : Bool := d.hif.ctrlUp

def mbxStatus (d : Dev) (n : Nat) : Word :=
  let m := getMbx d n
  fields [(24, d.hif.deviceEpoch.toNat), (16, m.epoch.toNat), (8, m.outFifo.length), (7, b2n (!takesCells d)),
    (6, b2n (decide (8 ≤ m.inFifo.length))), (0, m.inFifo.length)]

/-- A word of a cell. -/
def cellWord (c : List Byte) (o : Nat) : Word := BitVec.ofNat 32 (u32 c o)

/-- IN_CELL as it reads back: bytes 6–7 are 0. -/
def inCellRead (c : List Byte) : List Byte := slice c 0 6 ++ zeros 2 ++ slice c 8 56

def mbxWord (d : Dev) (n o : Nat) : Word :=
  let m := getMbx d n
  if o < 0x40 then cellWord (inCellRead m.inCell) o
  else if o < 0x80 then cellWord (m.outFifo.headD (zeros 64)) (o - 0x40)
  else if o = 0x84 then mbxStatus d n else if o = 0x90 then m.irq else if o = 0x94 then m.irqEn
  else if o = 0x98 then fields [(16, m.staleOut.toNat), (0, m.staleIn.toNat)] else if o = 0x9C then m.refused else 0

/-! Doorbells and TIME (R419, R420). -/

def dblWord (d : Dev) (o : Nat) : Word :=
  if o = 4 then d.hif.dblH2D else if o = 8 then d.hif.dblD2H else if o = 0xC then d.hif.dblD2HEn else 0

def ptpCode : PtpState → Nat
  | .disabled => 0 | .freerun => 1 | .acquiring => 2 | .synced => 3 | .holdover => 4 | .grandmaster => 5
def domCode : DomState → Nat
  | .stopped => 0 | .acquire => 1 | .locked => 2 | .holdover => 3 | .realign => 4

def slavePort (p : Ptp) : Option Nat := (List.range 4).find? (fun i => (tabGet p.ports i).role == .slave)

def ptpStatus (p : Ptp) : Word :=
  fields [(6, b2n (slavePort p).isSome), (4, (slavePort p).getD 0), (0, ptpCode p.state)]

/-- The oldest record of a capture input as its four words (R72, R420). -/
def capWord (c : Capture) (w : Nat) : Word :=
  match c.fifo with
  | [] => 0
  | r :: _ => if w = 0 then r.dt.setWidth 32 else if w = 1 then (r.dt >>> 32).setWidth 32 else if w = 2 then r.mt
    else fields [(24, r.input.toNat), (16, r.flags.toNat), (0, r.frac.toNat)]

def timeWord (d : Dev) (o : Nat) : Word :=
  let s := d.time.snap
  if o = 8 then s.dt.setWidth 32 else if o = 0xC then (s.dt >>> 32).setWidth 32
  else if 0x10 ≤ o ∧ o < 0x28 then
    (let n := (o - 0x10) / 8
     if (o - 0x10) % 8 = 0 then s.mt.getD n 0 else fields [(16, b2n (s.valid.getD n false)), (0, (s.frac.getD n 0).toNat)])
  else if o = 0x30 then ptpStatus d.time.ptp
  else if o = 0x34 then BitVec.ofInt 32 (clampI (-2147483648) 2147483647 d.time.ptp.offset)
  else if o = 0x38 then fields [(8, domCode (getDom d 2).state), (4, domCode (getDom d 1).state), (0, domCode (getDom d 0).state)]
  else if o = 0x40 then d.time.irq
  else if 0x100 ≤ o ∧ o < 0x180 then
    (let c := tabGet d.time.caps ((o - 0x100) / 0x20)
     let w := (o - 0x100) % 0x20 / 4
     if w < 4 then capWord c w else if w = 4 then BitVec.ofNat 32 c.fifo.length else 0)
  else 0

/-! Network statistics (R370) and host rings (R367). -/

/-- The entry of a gate list that DT falls in (R345). -/
def gateIxAt (g : GateList) (dt : Nat) : Nat :=
  let pos := if g.cycle = 0 then 0 else (((dt : Int) - g.start).emod g.cycle).toNat
  let r := g.entries.foldl (fun (a : Nat × Nat × Bool) e =>
    if a.2.2 then a else if pos < a.2.1 + e.2 then (a.1, a.2.1, true) else (a.1 + 1, a.2.1 + e.2, false)) (0, 0, false)
  if r.2.2 then r.1 else 0

/-- Gates open now: every gate without a list in force. -/
def gatesOpen (p : NetPort) : Nat :=
  match p.gates with
  | none => 0xFF
  | some g => (g.entries.getD p.gateIx (0xFF, 0)).1

def nstatWord (d : Dev) (n o : Nat) : Word :=
  let p := tabGet d.net.ports n
  if !pdOn d (netPd n) then 0
  else match arrIx o 0 4 28, arrIx o 0x80 4 21 with
  | some i, _ => tabGet p.rx i
  | _, some i => tabGet p.tx i
  | _, _ =>
    if o = 0x100 then fields [(8, p.tsq.length), (6, p.cfg.fec), (4, p.cfg.speed), (3, b2n p.remoteFault), (2, b2n p.blockLock),
      (1, b2n p.cfg.jumbo), (0, b2n p.up)]
    else if o = 0x104 then p.status else if o = 0x108 then BitVec.ofNat 32 p.thresh
    else if o = 0x110 then p.halfRx else if o = 0x114 then p.halfTx
    else if o = 0x118 then fields [(9, b2n p.gatePend.isSome), (8, b2n p.gates.isSome), (0, gatesOpen p)] else 0

def ringWord (d : Dev) (r o : Nat) : Word :=
  let x := tabGet d.net.rings r
  if o = 0 then x.baseLo else if o = 4 then x.baseHi else if o = 8 then x.size else if o = 0xC then x.ctrl
  else if o = 0x10 then x.head else if o = 0x14 then x.tail
  else if o = 0x18 then fields [(1, b2n x.stalled), (0, b2n x.dropping)] else if o = 0x1C then x.dropped else 0

/-! DMA channels (R469, R470). -/

def dmaCode : DmaState → Nat
  | .idle => 0 | .running => 1 | .waiting => 2 | .paused => 3 | .stalledCq => 4 | .error => 5 | .aborted => 6

def dmaStatus (c : DmaChan) : Word :=
  fields [(31, b2n c.act1.isSome), (30, b2n c.act0.isSome), (16, c.lastCode), (3, c.pc % 8192), (0, dmaCode c.state)]

def loW (v : DWord) : Word := v.setWidth 32
def hiW (v : DWord) : Word := (v >>> 32).setWidth 32

def dmaWord (c : DmaChan) (o : Nat) : Word :=
  if o = 4 then dmaStatus c else if o = 8 then loW c.progBase else if o = 0xC then hiW c.progBase
  else if o = 0x10 then loW c.cqBase else if o = 0x14 then hiW c.cqBase else if o = 0x18 then c.cqSize
  else if o = 0x1C then c.head else if o = 0x20 then c.tail else if o = 0x24 then loW c.src else if o = 0x28 then hiW c.src
  else if o = 0x2C then loW c.dst else if o = 0x30 then hiW c.dst else if o = 0x34 then c.lc0 else if o = 0x38 then c.lc1
  else if o = 0x3C then c.irq else if o = 0x40 then c.irqEn else if o = 0x44 then c.bytes else if o = 0x48 then c.dropped
  else if o = 0x4C then c.zeroed else 0

/-! The sense unit (R260). -/

def senseWord (d : Dev) (o : Nat) : Word :=
  let s := d.sense
  match arrIx o 0x10 4 8, arrIx o 0x40 4 8, arrIx o 0x60 4 16, arrIx o 0xA0 4 10 with
  | some i, _, _, _ => sensorWord (tabGet s.rails i)
  | _, some i, _, _ => sensorWord (tabGet s.temps i)
  | _, _, some i, _ => cableWord (tabGet s.cables i)
  | _, _, _, some i => lossWord (tabGet s.losses i)
  | _, _, _, _ =>
    if o = 0 then senseStatus s else if o = 0xD0 then jackWord s else if o = 0xD4 then buttonWord s
    else if o = 0xE0 then d.track.skip else if o = 0xE4 then d.track.postSkip else 0

/-! The host window (R401). -/

/-- A word of the window as interface v reads it; a block whose power domain is off reads 0 (R499). -/
def windowWord (d : Dev) (v : Via) (o : Nat) : Word :=
  if o < 0x1000 then hifWord d o
  else if o < 0x3000 then
    (let n := (o - 0x1000) / 0x400
     let r := (o - 0x1000) % 0x400
     if ownsMbx v n || v == .ctrl then mbxWord d n r else if r = 0x84 then mbxStatus d n else 0)
  else if o < 0x4000 then dblWord d (o - 0x3000)
  else if o < 0x4800 then (if pdOn d 1 then dmaWord (tabGet d.dma.ch ((o - 0x4000) / 0x100)) ((o - 0x4000) % 0x100) else 0)
  else if o < 0x4A00 then ringWord d ((o - 0x4800) / 0x40) ((o - 0x4800) % 0x40)
  else if o < 0x5000 then 0
  else if o < 0x6000 then (if pdOn d 1 then timeWord d (o - 0x5000) else 0)
  else if o < 0x7000 then nstatWord d ((o - 0x6000) / 0x400) ((o - 0x6000) % 0x400)
  else if o < 0x7100 then senseWord d (o - 0x7000)
  else 0

/-! Device-internal blocks. -/

/-- A bank swap is requested and not taken (R135). -/
def swapWanted (sc : Scene) : Bool := (sc.job.bind (·.result)).isSome || sc.prismCtrl.getLsbD 1

def prismStatus (sc : Scene) : Word :=
  let m := (sc.layout.map (·.mesh)).getD {}
  fields [(16, m.tris.length), (3, b2n m.ring), (2, b2n m.isOpen), (1, b2n (swapWanted sc)), (0, b2n sc.activeBank)]

/-- PRISM_CTRL as written; a commit that waits for its swap has set BANK_SWAP. -/
def prismCtrlWord (sc : Scene) : Word := sc.prismCtrl ||| BitVec.ofNat 32 (2 * b2n (swapWanted sc))

def prismWord (d : Dev) (o : Nat) : Word :=
  let sc := d.scene
  match arrIx o 0x10 4 3, arrIx o 0x20 4 3, arrIx o 0x30 4 3, arrIx o 0x100 4 640 with
  | some i, _, _, _ => (tabGet sc.cnt i).repanUsed
  | _, some i, _, _ => (tabGet sc.cnt i).xfadeUse
  | _, _, some i, _ => (tabGet sc.cnt i).xfadeDeferred
  | _, _, _, some i => (getCol sc i).clip
  | _, _, _, _ =>
    if o = 0 then prismCtrlWord sc else if o = 4 then prismStatus sc else if o = 0x40 then sc.sparseTrunc
    else if o = 0x44 then sc.haloClamp else if o = 0x48 then sc.objmixClip else if o = 0x4C then sc.directDiscard else 0

/-- 32 bits of a property of channels 32w … 32w + 31. -/
def chanBits (t : Tab MChan) (p : MChan → Bool) (w : Nat) : Word :=
  fields ((List.range 32).map (fun i => (i, b2n (p (tabGet t (32 * w + i))))))

/-- The inactive extent of a channel is READY. -/
def inactiveReady (c : MChan) : Bool := ((extOf c (!c.activeB)).map (·.ready)).getD false

/-- A load is in progress: fetching, or being written and transformed. -/
def firBusy (d : Dev) : Bool := d.mantle.load.isSome || d.fw.bulks.any (fun b => b.taken.op == .firLoad)

def mantleStatus (m : Mantle) (busy : Bool) : Word :=
  fields [(16, (m.ch.filter (fun kv => fading kv.2)).length), (3, b2n (!m.commits.isEmpty)), (2, b2n (mappable m.ch true)),
    (1, b2n (mappable m.ch false)), (0, b2n busy)]

def mantleWord (d : Dev) (o : Nat) : Word :=
  let m := d.mantle
  match arrIx o 0x10 4 3, arrIx o 0x20 4 3, arrIx o 0x100 4 20, arrIx o 0x180 4 20, arrIx o 0x200 4 20 with
  | some i, _, _, _, _ => tabGet m.clip i
  | _, some i, _, _, _ => tabGet m.void i
  | _, _, some w, _, _ => chanBits m.ch activeIsB w
  | _, _, _, some w, _ => chanBits m.ch fading w
  | _, _, _, _, some w => chanBits m.ch inactiveReady w
  | _, _, _, _, _ =>
    if o = 0 then m.ctrl else if o = 4 then mantleStatus m (firBusy d) else if o = 0x30 then m.binClip else if o = 0x34 then m.loadErr else 0

/-- The input domain BR_STATE shows: 3 where the source has a port clock or a flow timebase (R226, R78). -/
def srcDomain (d : Dev) (c : SeamCfg) : Nat :=
  if !c.enable then 0 else if pathMode d == .singleRate then 3 else
  if c.kind = 1 then (tabGet d.net.rxFlows c.index).cfg.domain
  else if c.kind = 2 then (tabGet d.ports.aesRx c.index).cfg.domain
  else if c.kind = 3 then (tabGet d.ports.tdm c.index).cfg.domain
  else if c.kind = 4 then (getCol d.scene c.index).bind.dom
  else if c.kind = 5 then (getCol d.scene 512).bind.dom
  else if c.kind = 6 then (portSlotDom d.tiles.sched c.index).getD 0
  else if c.kind = 7 then (tabGet d.mics.mic c.index).cfg.domain
  else 0

def brWord (d : Dev) (n : Nat) : Word :=
  let b := tabGet d.seam.br n
  fields [(8, b2n b.loop.timeout), (6, srcDomain d b.cfg), (4, effDom d b.cfg.outDom), (0, brCode b.state)]

def seamWord (d : Dev) (o : Nat) : Word :=
  let s := d.seam
  match arrIx o 0x10 4 3, arrIx o 0x20 4 3, arrIx o 0x30 4 3, arrIx o 0x100 4 256, arrIx o 0x800 4 256, arrIx o 0x8000 4 1537 with
  | some i, _, _, _, _, _ => tabGet s.clip i
  | _, some i, _, _, _, _ => tabGet s.slip i
  | _, _, some i, _, _, _ => tabGet s.range i
  | _, _, _, some n, _, _ => brWord d n
  | _, _, _, _, some n, _ => BitVec.ofNat 32 (ratio24 (tabGet s.br n).loop.rhoU)
  | _, _, _, _, _, some q => BitVec.ofInt 32 (seamT q)
  | _, _, _, _, _, _ =>
    if o = 0 then s.ctrl
    else if o = 4 then fields [(16, (tabFind s.br (fun b => b.state == .track)).length), (0, (tabFind s.br (fun b => b.state == .exact)).length)]
    else 0

/-- GR and GR_HOLD of a column: a HALO column reads 0 (R185). -/
def grWord (d : Dev) (c : Nat) (hold : Bool) : Word :=
  if !chainCol c then 0 else
  let s := (tabGet d.chain.cols c).st
  if hold then fields [(16, s.holdL), (0, s.holdC)] else fields [(16, s.grL), (0, s.grC)]

def dynWord (d : Dev) (o : Nat) : Word :=
  match arrIx o 0x10 4 3, arrIx o 0x100 4 640, arrIx o 0xC00 4 640 with
  | some i, _, _ => tabGet d.chain.outClip i
  | _, some c, _ => grWord d c false
  | _, _, some c => grWord d c true
  | _, _, _ => if o = 0 then d.chain.dynCtrl else 0

/-- R310: a port whose rate is not D0's does not transmit in SINGLE_RATE. -/
def txInhibit (d : Dev) (rate : Nat) : Bool := pathMode d == .singleRate && rate != 48000 && rate != 0

/-- The microphone and detector registers (R239), from offset 0x8000 on. -/
def micWord (d : Dev) (o : Nat) : Word :=
  let m (i : Nat) : Mic := tabGet d.mics.mic i
  match arrIx o 0 4 8, arrIx o 0x20 4 8, arrIx o 0x40 4 8, arrIx o 0x60 4 8, arrIx o 0x100 4 32 with
  | some i, _, _, _, _ =>
    fields [(6, effDom d (m i).cfg.domain), (5, b2n (m i).loop.timeout), (4, b2n (m i).stuck), (3, b2n (clkRuns d.mics.mic i)), (0, micCode (m i).state)]
  | _, some i, _, _, _ => (m i).clips
  | _, _, some i, _, _ => (m i).slips
  | _, _, _, some i, _ => BitVec.ofNat 32 (ratio24 (m i).loop.rhoU)
  | _, _, _, _, some k =>
    (let x := tabGet d.mics.det (k / 4)
     if k % 4 = 0 then BitVec.ofNat 32 x.res.amp
     else if k % 4 = 1 then fields [(16, detFlags x), (0, wrapNat 16 x.res.phase)]
     else if k % 4 = 2 then x.res.mt else x.res.windows)
  | _, _, _, _, _ => 0

def aioWord (d : Dev) (o : Nat) : Word :=
  if 0x8000 ≤ o then micWord d (o - 0x8000) else
  let p := d.ports
  let t (n : Nat) : Tdm := tabGet p.tdm n
  match arrIx o 0x10 4 3, arrIx o 0x100 4 16, arrIx o 0x200 4 64, arrIx o 0x300 4 16, arrIx o 0x400 4 16, arrIx o 0x500 4 80, arrIx o 0x700 4 8 with
  | some i, _, _, _, _, _, _ => tabGet p.clip i
  | _, some i, _, _, _, _, _ => aesStatus (tabGet p.aesRx i)
  | _, _, some i, _, _, _, _ =>
    (let r := tabGet p.aesRx (i / 4)
     if i % 4 = 0 then r.parityErr else if i % 4 = 1 then r.biphaseErr else if i % 4 = 2 then r.csCrcErr else r.slips)
  | _, _, _, some i, _, _, _ => (tabGet p.aesRx i).clkFault
  | _, _, _, _, some i, _, _ => (tabGet p.aesTx i).slips
  | _, _, _, _, _, some j, _ =>
    (let n := j % 8
     if j / 8 = 0 then tdmStatus (t n) (pathMode d == .singleRate && (t n).cfg.target) else if j / 8 = 1 then (t n).rxMask
     else if j / 8 = 2 then (t n).txMask else if j / 8 = 3 then (t n).rxShadow else if j / 8 = 4 then (t n).txShadow
     else if j / 8 = 5 then (t n).maskMt else if j / 8 = 6 then (t n).maskCopies else if j / 8 = 7 then maskCtrl (t n)
     else if j / 8 = 8 then (t n).maskAt else (t n).slips)
  | _, _, _, _, _, _, some g => BitVec.ofNat 32 (groupLost (tabGet p.groups g))
  | _, _, _, _, _, _, _ => if o = 0 then p.ctrl else 0

def schedStatus (d : Dev) : Word :=
  let s := d.tiles.sched
  fields [(31, b2n (bit s.ctrl.toNat 16)), (30, b2n ((List.range 2).any (fun i => (tabGet s.slots i).state == .loading) || d.fw.bulks.any (fun b => b.taken.op == .graphLoad))),
    (16, (List.range 8).foldl (fun a t => a + 2 ^ t * b2n (bit s.ctrl.toNat (8 + t) &&
      (getCore d.tiles (8 * t + bits s.ctrl.toNat 2 0)).fetching.isSome)) 0), (0, readyCount s)]

/-- A descriptor word by DESC_INDEX (R307). -/
def descWord (T : Tiles) (ix : Nat) : Word :=
  BitVec.ofNat 32 (u32 (descBytes T.sched.descRaw (ix / 8) (tabGet T.sched.tasks (ix / 8))) (ix % 8 * 4))

def schedWord (d : Dev) (o : Nat) : Word :=
  let s := d.tiles.sched
  match arrIx o 0x10 4 3, arrIx o 0x20 4 3, arrIx o 0x30 4 3, arrIx o 0x40 4 3, arrIx o 0x80 4 8 with
  | some i, _, _, _, _ => tabGet s.cntCancelled i
  | _, some i, _, _, _ => tabGet s.cntVoid i
  | _, _, some i, _, _ => tabGet s.cntFaulted i
  | _, _, _, some i, _ => tabGet s.cntSkipped i
  | _, _, _, _, some l => BitVec.ofNat 32 (readyLevel s l)
  | _, _, _, _, _ =>
    if o = 0 then s.ctrl else if o = 4 then schedStatus d else if o = 0x50 then s.mirrorWrite
    else if o = 0x100 then compWord s else if o = 0x104 then s.compHi else if o = 0x200 then s.descIndex
    else if o = 0x204 then descWord d.tiles s.descIndex.toNat else 0

/-- The default master of each target at reset (R471). -/
def parkReset (i : Nat) : Nat :=
  if i = 0 then 0 else if i = 1 then 5 else if i < 10 then 8 + (i - 2) else if i = 10 then 8 else if i = 11 then 4
  else if i = 12 then 3 else 0
def parkOf (d : Dev) (i : Nat) : Nat := ((d.mtx.park.find? (fun p => p.1 == i)).map Prod.snd).getD (parkReset i)

def mtxWord (d : Dev) (o : Nat) : Word :=
  match arrIx o 0 4 15 with
  | some i => BitVec.ofNat 32 (parkOf d i)
  | none => if o = 0x40 then d.mtx.err else if o = 0x44 then d.mtx.errInfo else if o = 0x48 then d.mtx.errAddr
    else if o = 0x4C then d.mtx.isolated.setWidth 32 else 0

def pairCode : PairState → Nat
  | .off => 0 | .linking => 1 | .leader => 2 | .leaderSolo => 3 | .resync => 4 | .verify => 5 | .synced => 6 | .isolated => 7

/-- The link is UP: a lane holds lock and the handshake is complete (R376). -/
def linkUp (t : Twin) : Bool := t.lanes != 0 && t.handshake
def linkDegraded (t : Twin) : Bool := t.lanes == 1 || t.lanes == 2

def linkWord (d : Dev) (o : Nat) : Word :=
  let t := d.twin
  match arrIx o 0x100 4 21, arrIx o 0x180 4 21 with
  | some g, _ => t.sigLocalRegs.getD g 0
  | _, some g => t.sigPartnerRegs.getD g 0
  | _, _ =>
    if o = 0 then t.linkCtrl
    else if o = 4 then fields [(12, t.major), (8, t.minor), (4, b2n (linkDegraded t)), (3, b2n t.handshake), (2, b2n (linkUp t)), (0, t.lanes.toNat)]
    else if o = 8 then fields [(8, t.partner), (0, pairCode t.state)]
    else if o = 0x10 then t.retry else if o = 0x14 then t.downCnt else if o = 0x18 then t.diverge else if o = 0x1C then t.resyncs
    else if o = 0x20 then t.resyncTimeouts else if o = 0x24 then t.ticketLate else if o = 0x28 then t.loopLate
    else if o = 0x2C then t.hbMiss else if o = 0x30 then t.lastMt else if o = 0x34 then t.lastGroups else 0

def pwrWord (d : Dev) (o : Nat) : Word :=
  let a := d.aon
  if o = 0 then fields [(0, (d.power.en ||| 3).toNat)]
  else if o = 4 then fields [(16, d.power.switching.toNat), (0, d.power.on.toNat)]
  else if o = 0xC then fields [(10, a.i2cAddr.toNat), (9, b2n a.factoryEn), (8, b2n a.bootSrc), (0, a.cause.toNat)]
  else if o = 0x10 then fields [(16, a.attempt.toNat), (8, a.lastFail.toNat), (2, b2n a.fallback), (0, a.bootSource.toNat)]
  else if o = 0x14 then fields [(9, b2n a.wokeDbl), (8, b2n a.wokePin), (0, a.wakeEn.toNat)] else 0

/-- The power domain a device-internal register block lies in (R22, R498). -/
def blockPd (a : Nat) : Nat :=
  let b := a / 65536
  if b = 0x4001 ∨ b = 0x4003 ∨ b = 0x4004 then 7 else if b = 0x4002 then 8 else if b = 0x4005 then 6
  else if b = 0x4006 then 3 else if b = 0x400B then 15 else if b = 0x400C then 5 else if b = 0x4010 ∨ b = 0x4011 ∨ b = 0x4000 then 2 else 1

/-- A register word at a device-internal address; a block whose power domain is off reads 0 (R499). -/
def deviceWord (d : Dev) (v : Via) (a : Nat) : Word :=
  let o := a % 65536
  let b := a / 65536
  if !pdOn d (blockPd a) then 0
  else if b = 0x4000 then windowWord d v o
  else if b = 0x4001 then prismWord d o else if b = 0x4002 then mantleWord d o else if b = 0x4003 then seamWord d o
  else if b = 0x4004 then dynWord d o else if b = 0x4005 then aioWord d o
  else if b = 0x4008 then
    (if o < 0x2000 then dmaWord (tabGet d.dma.ch (o / 0x100)) (o % 0x100) else if o = 0x2000 then d.dma.flags else 0)
  else if b = 0x4009 then schedWord d o else if b = 0x400A then mtxWord d o else if b = 0x400B then senseWord d o
  else if b = 0x400C then linkWord d o else if b = 0x400D then pwrWord d o
  else if 0x40000000 ≤ a ∧ a < 0x40120000 then Config.unlistedReg a (now d) else 0

end Sys2Proof.Machine
end

