-- ==== Sys2Proof/Machine/Ops.lean ====
section
/-! DEFINITION. What every command shares: how a meaning on the device becomes a step, what is settled after each
command (link frames, matrix errors, core faults, interrupt messages), and the raising of faults. -/

namespace Sys2Proof.Machine

/-! The Silton link's sending side (R373–R375). -/

/-- The link can carry frames: enabled, and a lane holds lock. -/
def linkCarries (t : Twin) : Bool := t.linkCtrl.getLsbD 0 && t.lanes != 0

/-- A body given to the link: LINK_HELLO needs a lane, every other class a link that is UP. -/
def linkSend (d : Dev) (cls : Nat) (body : List Byte) : Dev :=
  if linkCarries d.twin && (cls == 7 || linkUp d.twin) then { d with twin := { d.twin with waiting := d.twin.waiting ++ [(cls, body)] } } else d

/-- One frame of R375. -/
def linkFrame (cls flags : Nat) (seq ack : Word) (body : List Byte) : List Byte :=
  let h := p8 cls ++ p8 flags ++ p16 body.length ++ p32 seq.toNat ++ p32 ack.toNat ++ zeros 4 ++ body
  h ++ p32 (crc32c h).toNat

/-- A body cut into pieces of 8,192 bytes; an empty body is one piece. -/
def linkPieces : Nat → List Byte → List (List Byte)
  | 0, b => [b]
  | n + 1, b => if b.length ≤ 8192 then [b] else b.take 8192 :: linkPieces n (b.drop 8192)

/-- The frames of one body put on the link and kept until acknowledged. -/
def linkPut (t : Twin) (cls : Nat) (body : List Byte) : Twin :=
  let ps := linkPieces (body.length / 8192) body
  (List.range ps.length).foldl (fun (t : Twin) i =>
    let f := linkFrame cls (if i + 1 < ps.length then 2 else 0) t.txSeq t.rxSeq (ps.getD i [])
    { t with txSeq := t.txSeq + 1, sent := t.sent ++ [f], unacked := t.unacked ++ [{ seq := t.txSeq, bytes := f, tries := 1 }] }) t

/-- Waiting frames sent in the order of the table of R374. -/
def linkFlush (t : Twin) : Twin :=
  let t' := (List.range 8).foldl (fun (t : Twin) c =>
    (t.waiting.filter (fun w => w.1 == c)).foldl (fun t w => linkPut t w.1 w.2) t) t
  { t' with waiting := [] }

/-! Matrix errors and core faults (R25, R285, R473). -/

/-- An access that the default target answers: counted, recorded, reported. -/
def matrixError (d : Dev) (master : Nat) (read : Bool) (addr : Word) : Dev :=
  evFault { d with mtx := { d.mtx with err := d.mtx.err + 1, errAddr := addr,
                                       errInfo := fields [(31, 1), (8, b2n read), (0, master)] } }
    2 (b2n read) master 0xFF 0 addr.toNat 0 0

def noteOne (d : Dev) (n : DspNote) : Dev :=
  match n with
  | .matrixErr m r a => matrixError d m r a
  | .coreFault core task cause xpc xaddr => evFault d 3 cause core 0xFF 0 (descIx task) xpc.toNat xaddr.toNat

def settleNotes (d : Dev) : Dev :=
  d.tiles.notes.foldl noteOne { d with tiles := { d.tiles with notes := [] } }

/-! Interrupt messages (R407, R408). -/

/-- Vector v is pending. -/
def vecPends (d : Dev) (v : Nat) : Bool := v != 5 && decide (v < 15) && (irqStatus d).getLsbD v && d.hif.irqEn.getLsbD v

/-- Messages sent, or pending bits set, where a vector's condition has become true. -/
def settleMsix (d : Dev) : Dev :=
  let d := (List.range 15).foldl (fun d v =>
    if vecPends d v && !d.hif.msixCond.getLsbD v then
      hif d (fun h => if h.msixMask.getLsbD v then { h with msixPend := h.msixPend ||| BitVec.ofNat 16 (2 ^ v) }
                      else { h with msixSent := h.msixSent ++ [v] })
    else d) d
  hif d (fun h => { h with msixCond := BitVec.ofNat 16 ((List.range 15).foldl (fun a v => a + 2 ^ v * b2n (vecPends d v)) 0) })

/-- IRQ_N asserted (R409). -/
def irqN (d : Dev) : Bool := irqStatus d &&& d.hif.spiIrqEn != 0

/-! A command as a step. -/

/-- What the last command put on the buses is no longer there. -/
def clearOut (d : Dev) : Dev :=
  { d with hostWrites := [], net := { d.net with wire := [] }, hif := { d.hif with msixSent := [], readData := [] }, twin := { d.twin with sent := [] } }

/-- What follows from every command before the next. -/
def settle (d : Dev) : Dev :=
  let d := settleNotes d
  settleMsix { d with twin := linkFlush d.twin }

/-- A meaning on the device as a meaning on the state. -/
def run (f : Dev → Dev) (s : State) : Host.Outcome State Fault Refusal :=
  .next { s with dev := settle (f (clearOut s.dev)) }

/-- A change of a part of the device where p holds, else no effect. -/
def onlyIf (p : Bool) (f : Dev → Dev) (d : Dev) : Dev := if p then f d else d

/-! Small record updates shared by the chapters. -/

def twinMod (d : Dev) (f : Twin → Twin) : Dev := { d with twin := f d.twin }
def timeMod (d : Dev) (f : TimeUnit → TimeUnit) : Dev := { d with time := f d.time }
def netMod (d : Dev) (f : Net → Net) : Dev := { d with net := f d.net }
def portsMod (d : Dev) (f : Ports → Ports) : Dev := { d with ports := f d.ports }
def sceneMod (d : Dev) (f : Scene → Scene) : Dev := { d with scene := f d.scene }
def tilesMod (d : Dev) (f : Tiles → Tiles) : Dev := { d with tiles := f d.tiles }
def dmaMod (d : Dev) (n : Nat) (f : DmaChan → DmaChan) : Dev := { d with dma := { d.dma with ch := tabMod d.dma.ch n f } }
def getDma (d : Dev) (n : Nat) : DmaChan := tabGet d.dma.ch n
def ringMod (d : Dev) (r : Nat) (f : Ring → Ring) : Dev := netMod d (fun n => { n with rings := tabMod n.rings r f })
def capMod (d : Dev) (i : Nat) (f : Capture → Capture) : Dev := timeMod d (fun t => { t with caps := tabMod t.caps i f })
def netPortMod (d : Dev) (p : Nat) (f : NetPort → NetPort) : Dev := netMod d (fun n => { n with ports := tabMod n.ports p f })
def getNet (d : Dev) (p : Nat) : NetPort := tabGet d.net.ports p

/-- HIF_ACCESS_ERR counts an access that is ignored. -/
def accessErr (d : Dev) : Dev := hif d (fun h => { h with accessErr := h.accessErr + 1 })

end Sys2Proof.Machine
end

