-- ==== Sys2Proof/Machine/Cancel.lean ====
section
/-! DEFINITION. Requests that wait, and their cancelling (R416, R428, R434, R439). -/

namespace Sys2Proof.Machine

/-- CONFIG, SERVICE, TWIN, SINGLE_RATE, and with CALIBRATE. -/
def modes4 : List Mode := [.config, .service, .twin, .singleRate]
def modes5 : List Mode := modes4 ++ [.calibrate]
def modesAll : List Mode := modes5 ++ [.selftest, .update]

/-- Modes in which an opcode is accepted, FACTORY counting as CONFIG (R485): where its actions differ, those of the actions whose replies can
wait; the rules of each chapter. -/
def opModes : Op → List Mode
  | .hello | .version | .caps | .ping | .bye | .telemetryGet | .logRead | .fwSlotInfo => .safe :: modesAll
  | .modeSet | .modeGet | .resetReq | .outLatencyGet | .objQuery | .firStatus | .flowState | .twinState => modesAll
  | .pulseCfg | .captureCfg | .trackCfg | .trackProposal | .ptpCfg | .calResult => modesAll
  | .selftestRun => [.selftest, .service, .twin]
  | .twinCfg => [.config, .service, .twin]
  | .domainCfg | .dynCfg | .haloCfg | .seamCfg | .micCfg | .toneDetCfg | .portCfg | .netPortCfg | .alignGroup
  | .layoutBegin | .layoutSpk | .layoutCommit | .objCfg | .objUpdate | .objUpdateBatch | .routeSet | .busCfg | .matrixDirect => modes4
  | .chainCfg | .eqSet | .delaySet | .outGain | .outMute | .firLoad | .firCommit | .calStart | .slotMask | .flowRxCfg | .flowTxCfg
  | .gateList | .graphLoad | .graphStart | .graphStop | .taskCancel => modes5
  | .twinSwap => [.twin]
  | .fwUpdateBegin | .fwChunk | .fwCommit => [.safe, .update]

/-- The mode as requests are judged by: FACTORY accepts every request of CONFIG. -/
def asMode (m : Mode) : Mode := if m == .factory then .config else m

def opAccepted (o : Op) (m : Mode) : Bool := (opModes o).contains (asMode m)

/-! What a waiting request holds, and how it is withdrawn. -/

/-- A load in progress ends: its extents are INVALID, as after a failed transfer (R199). -/
def dropLoad (m : Mantle) : Mantle :=
  let f (e : Option Extent) : Option Extent := e.map (fun x => if x.state == .loading then { x with state := .invalid, done := false } else x)
  { m with load := none, ch := m.ch.map (fun kv => (kv.1, { kv.2 with a := f kv.2.a, b := f kv.2.b })) }

def dropWait (d : Dev) (w : WaitFor) : Dev :=
  match w with
  | .graphLoad s => tilesMod d (fun T => dropSlot T s)
  | .selftest => { d with selftest := { mask := none } }
  | .slotMask p => portsMod d (fun x => { x with tdm := tabMod x.tdm p (fun t => { t with armed := false }) })
  | .slotErase _ | .powerOn _ _ => d

def dropCommit (d : Dev) (c : Commit) : Dev := fw d (fun f => { f with commits := f.commits.filter (fun x => x != c) })
def dropWaits (d : Dev) (w : Wait) : Dev := dropWait (fw d (fun f => { f with waits := f.waits.filter (fun x => x != w) })) w.what

def dropSwitch (d : Dev) (r : SwitchReq) : Dev :=
  tilesMod d (fun T => schedMod T (fun s =>
    { s with switchReqs := s.switchReqs.filter (fun x => x.no != r.no),
             switches := s.switches.map (fun kv => (kv.1, kv.2.bind (fun w => if w.reqNo = r.no then none else some w))) }))

def dropCancel (d : Dev) (c : Cancel) : Dev :=
  tilesMod d (fun T => schedMod T (fun s => { s with cancels := s.cancels.filter (fun x => x != c) }))

/-- A MODE_SET that does not take effect: the transition ends where it stands. -/
def dropMode (d : Dev) : Dev :=
  match d.fw.changing with
  | some c =>
    let d := fw d (fun f => { f with changing := none })
    if c.target == .twin then twinMod d (fun t => { t with state := .off }) else d
  | none => d

/-- Every request that has been accepted and whose reply waits, with how it is withdrawn. -/
def pendingWork (d : Dev) : List (Taken × (Dev → Dev)) :=
  d.fw.commits.map (fun c => (c.taken, fun d => dropCommit d c)) ++
  d.fw.waits.map (fun w => (w.taken, fun d => dropWaits d w)) ++
  (d.fw.changing.bind (·.asked)).toList.map (fun t => (t, fun d => dropMode d)) ++
  d.scene.job.toList.map (fun j => (j.taken, fun d => sceneMod d (fun s => { s with job := none }))) ++
  d.mantle.commits.map (fun c => (c.taken, fun d => { d with mantle := { d.mantle with commits := d.mantle.commits.filter (fun x => x != c) } })) ++
  (d.mantle.load.bind (·.asked)).toList.map (fun t => (t, fun d => { d with mantle := dropLoad d.mantle })) ++
  (List.range 4).flatMap (fun p => (getNet d p).gatePend.toList.map (fun g =>
    (g.2.2, fun (d : Dev) => netPortMod d p (fun x => { x with gatePend := none })))) ++
  d.twin.swap.toList.map (fun w => (w.1, fun d => twinMod d (fun t => { t with swap := none }))) ++
  d.tiles.sched.switchReqs.map (fun r => (r.taken, fun d => dropSwitch d r)) ++
  (d.tiles.sched.cancels.filter (fun c => !c.applied)).map (fun c => (c.taken, fun d => dropCancel d c))

/-- Requests that p names are answered CANCELLED and do not take effect (R428). -/
def cancelWhere (d : Dev) (p : Taken → Bool) : Dev :=
  (pendingWork d).foldl (fun d w => if p w.1 then reply (w.2 d) w.1 .cancelled [] else d) d

/-- A request whose setting stands and whose reply waits for power alone has taken effect: it is answered OK (log entry 131). -/
def answerStanding (d : Dev) (p : Taken → Bool) : Dev :=
  let due (w : Wait) : Option (List Byte) := match w.what with
    | .powerOn _ body => if p w.taken then some body else none
    | _ => none
  let ws := d.fw.waits.filter (fun w => (due w).isSome)
  ws.foldl (fun d w => reply d w.taken .ok ((due w).getD [])) (fw d (fun f => { f with waits := f.waits.filter (fun w => (due w).isNone) }))

/-- Bulk fetches of a channel complete and are not judged (R452). -/
def dropBulks (d : Dev) (ch : Nat) : Dev :=
  fw d (fun f => { f with bulks := f.bulks.map (fun b => if b.taken.req.ch.val = ch then { b with live := false } else b) })

/-- What waits on a channel when its session closes (R428, R434, R439). -/
def cancelChannel (d : Dev) (ch : Nat) : Dev :=
  let bs := d.fw.bulks.filter (fun b => b.live && b.taken.req.ch.val == ch)
  let d := bs.foldl (fun d b => reply d b.taken .cancelled []) d
  let own (t : Taken) : Bool := t.req.ch.val == ch
  dropBulks (cancelWhere (answerStanding d own) own) ch

/-- A mode change leaves every mode in which a waiting request is accepted (R428). -/
def cancelForMode (d : Dev) (m : Mode) : Dev :=
  let left (t : Taken) : Bool := !opAccepted t.op m && t.op != .modeSet
  cancelWhere (answerStanding d left) left

/-- The sender epoch of a channel increments (R411, R416, R434): its outbound FIFO is flushed, what waits in the event queue
for it is discarded, its chain is lost, a region being fetched for it is not judged (R452), its session ends. -/
def newSenderEpoch (d : Dev) (ch : Nat) : Dev :=
  let m := getMbx d ch
  let q := d.fw.queue.filter (fun o => o.ch == ch)
  let held := (d.twin.issued.filter (fun i => (i.reply.map (·.ch)) == some ch)).length
  let chainCells := ((tabGet d.fw.chains ch).map (·.cells)).getD 0
  let d := mbxMod d ch (fun x => { x with epoch := x.epoch + 1, outFifo := [], staleOut := x.staleOut + BitVec.ofNat 16 (m.outFifo.length + q.length + held),
                                          staleIn := x.staleIn + BitVec.ofNat 16 chainCells })
  let d := fw d (fun f => { f with queue := f.queue.filter (fun o => o.ch != ch), chains := tabSet f.chains ch none })
  let d := twinMod d (fun t => { t with issued := t.issued.map (fun i => if (i.reply.map (·.ch)) == some ch then { i with reply := none } else i) })
  let d := cancelChannel (dropBulks d ch) ch
  sessionMod d ch (fun _ => {})

end Sys2Proof.Machine
end

