-- ==== Sys2Proof/Machine/Stage.lean ====
section
/-! DEFINITION. The sample state of a domain as a whole: taken at once when a stage begins to render (R521), ended and
cleared by a closing period (R64), and lost with data-path content (R478). -/

namespace Sys2Proof.Machine

/-- The domain a column is rendered in. -/
def colDom (d : Dev) (c : Nat) : Nat := effDom d (getCol d.scene c).bind.dom
/-- A column bound to domain n. -/
def colOf (d : Dev) (n c : Nat) : Bool := (getCol d.scene c).bind.mode != 0 && colDom d c == n
def objOf (d : Dev) (n : Nat) (o : Obj) : Bool := effDom d o.domain == n
def chainOf (d : Dev) (n c : Nat) : Bool := chainCol c && colOf d n c
def boundCol (d : Dev) (c : Nat) : Bool := (getCol d.scene c).bind.mode != 0
/-- The speakers that take part in bass management: those of the layout, and of an old one that are still bound (R114, R187). -/
def bassLayout (d : Dev) : Option Layout := d.scene.layout.map (fun l => { l with spks := l.spks ++ d.scene.oldSpks })
def roleOf (d : Dev) (c : Nat) : BassRole := bassRole d.chain (bassLayout d) (boundCol d) c
/-- A MANTLE channel rendered in domain n. -/
def mchanOf (d : Dev) (n : Nat) (c : MChan) : Bool := (chanDom d.scene c).map (effDom d) == some n
def haloDom (d : Dev) : Option Nat := let b := (getCol d.scene 512).bind; if b.mode = 4 then some (effDom d b.dom) else none

def colDomOf (d : Dev) (c : Nat) : Option Nat := if boundCol d c then some (colDom d c) else none

def objsWhere (d : Dev) (p : Obj → Bool) (f : Obj → Obj) : Dev :=
  sceneMod d (fun s => { s with objs := s.objs.map (fun kv => if p kv.2 then (kv.1, f kv.2) else kv) })
def chainsWhere (d : Dev) (p : Nat → Bool) (f : Nat → Chain1 → Chain1) : Dev :=
  { d with chain := { d.chain with cols := d.chain.cols.map (fun kv => if p kv.1 then (kv.1, f kv.1 kv.2) else kv) } }
def mchansWhere (d : Dev) (p : MChan → Bool) (f : MChan → MChan) : Dev :=
  { d with mantle := { d.mantle with ch := d.mantle.ch.map (fun kv => if p kv.2 then (kv.1, f kv.2) else kv) } }

/-! SINGLE_RATE (R77): what every domain names is rendered in D0, and the stored domains are kept. -/

/-- The scene as the data path sees it. -/
def sceneView (d : Dev) : Scene :=
  if pathMode d == .singleRate then
    { d.scene with
      objs := d.scene.objs.map (fun kv => (kv.1, { kv.2 with domain := 0 }))
      cols := d.scene.cols.map (fun kv => (kv.1, { kv.2 with bind := { kv.2.bind with dom := 0 } }))
      layout := d.scene.layout.map (fun l => { l with dom := 0 }) }
  else d.scene

/-- A scene that was changed in that view, with the domains stored before it. -/
def sceneBack (old new : Scene) : Scene :=
  { new with
    objs := new.objs.map (fun kv => let o := getObj old kv.1; (kv.1, if objCharged o then { kv.2 with domain := o.domain } else kv.2))
    cols := new.cols.map (fun kv => let c := getCol old kv.1
      (kv.1, if c.bind.mode ≠ 0 then { kv.2 with bind := { kv.2.bind with dom := c.bind.dom } } else kv.2))
    layout := match new.layout, old.layout with
      | some l, some m => some { l with dom := m.dom }
      | l, _ => l }

/-- A change made in the data path's view. -/
def sceneRun (d : Dev) (f : Scene → Scene) : Dev :=
  { d with scene := if pathMode d == .singleRate then sceneBack d.scene (f (sceneView d)) else f d.scene }

/-- The rate at which things of domain n are rendered. -/
def rateIn (d : Dev) (n : Nat) : Nat := rateOf d (effDom d n)

/-- Every chain column of domain n has a listed record. -/
def listChains (d : Dev) (n : Nat) : Dev :=
  { d with chain := { d.chain with cols := (d.scene.cols.filter (fun kv => chainOf d n kv.1)).foldl (fun t kv => tabMod t kv.1 id) d.chain.cols } }

/-- HALO's ramps at their targets and no rotation to interpolate from. -/
def haloAtOnce (h : Halo) : Halo :=
  { h with g := rampHold (cdbGain (clampCdb h.gain)), m := rampHold (if h.muted then 0 else unity), rotOld := none, oriOld := none, prev := none }

/-- The objects of domain n whose stored domain q holds of begin to be rendered: every quantity at its target (R521), but for what a
realignment leaves to the selections after lock (R136). -/
def objsAtOnce (d : Dev) (n : Nat) (q : Nat → Bool) : Dev :=
  let relock := (getDom d n).relock
  let f := rateOf d n
  let raw := d.scene
  sceneRun d (fun sc => { sc with
    objs := sc.objs.map (fun kv => if kv.2.domain ≠ n ∨ !q (getObj raw kv.1).domain then kv else
      (kv.1, if kv.2.enabled then (if relock then objRelocked sc f kv.2 else objAtOnce sc f kv.2) else { kv.2 with ents := [], trans := none, deferred := none, layoutReq := none })) })

/-- What domain n renders begins to be rendered, as far as q holds of its stored domain: every quantity takes its target at once and
sample state starts at zero (R521). -/
def stageAtOnce (d : Dev) (n : Nat) (q : Nat → Bool) : Dev :=
  let f := rateOf d n
  let own (c : Nat) : Bool := q (getCol d.scene c).bind.dom
  let d := sceneMod (objsAtOnce d n q) (fun s => { s with layoutEnd := none })
  let d := listChains d n
  let d := chainsWhere d (fun c => chainOf d n c && own c) (fun c x => chainAtOnce x (roleOf d c) f)
  let d := mchansWhere d (fun c => mchanOf d n c && ((chanDom d.scene c).map q) == some true) (fun c => { c with hist := [], fade := none })
  let halo := haloDom d == some n && own 512
  let d := if halo then { d with mantle := { d.mantle with halo := haloAtOnce d.mantle.halo } } else d
  { d with render := { d.render with gates := d.render.gates.filter (fun kv =>
      !(if kv.1 < 640 then colOf d n kv.1 && own kv.1 else kv.1 < 642 && halo)) } }

/-- Crossfades of chains and MANTLE in domain n at their end values (R64 step 3): as chain changes they act on the closing block
(R31). -/
def stageEndNow (d : Dev) (n : Nat) : Dev :=
  let d := chainsWhere d (chainOf d n) (fun _ x =>
    { x with st := { x.st with bassOld := none, eqOld := none, firOld := none, tapOld := none, dynOld := none, mk0 := x.st.mk1, mkN := 0 } })
  mchansWhere d (mchanOf d n) (fun c => { c with fade := none })

/-- Ramps, glides and crossfades of domain n that start at a sample's MT are at their end values (R64 step 3): from the sample that
lands from b on (R31), so after the closing block. -/
def stageRampsEnd (d : Dev) (n : Nat) : Dev :=
  let d := objsWhere d (objOf d n) realignObj
  let d := chainsWhere d (chainOf d n) (fun _ x =>
    { x with gout := rampEndNow x.gout, mute := rampEndNow x.mute, invertNow := x.inForce.invert, flips := [] })
  if haloDom d = some n then
    { d with mantle := { d.mantle with halo := { d.mantle.halo with g := rampEndNow d.mantle.halo.g, m := rampEndNow d.mantle.halo.m } } }
  else d

/-- A line whose samples are cleared reads zero (R64). -/
def lineClear (l : Line) : Line := { l with xs := [] }

/-- The channel buffers of domain n: what its ports, bridges and microphones have landed in it. -/
def buffersClear (d : Dev) (n : Nat) : Dev :=
  let own (k : Nat) : Bool := effDom d k == n
  let d := portsMod d (fun x =>
    { x with
      aesRx := x.aesRx.map (fun kv => if own kv.2.cfg.domain then (kv.1, { kv.2 with outA := lineClear kv.2.outA, outB := lineClear kv.2.outB }) else kv)
      tdm := x.tdm.map (fun kv => if own kv.2.cfg.domain then (kv.1, { kv.2 with rx := kv.2.rx.map (fun l => (l.1, lineClear l.2)) }) else kv) })
  { d with
    seam := { d.seam with br := d.seam.br.map (fun kv => if own kv.2.cfg.outDom then (kv.1, { kv.2 with out := lineClear kv.2.out }) else kv) }
    mics := { d.mics with mic := d.mics.mic.map (fun kv => if own kv.2.cfg.domain then (kv.1, { kv.2 with out := lineClear kv.2.out }) else kv) } }

/-- Ramps ended and sample state of domain n cleared (R64 steps 2 and 3): delay lines, MANTLE state, alignment, detectors, channel buffers and the
receive buffers of its flows. -/
def stageClear (d : Dev) (n : Nat) : Dev :=
  let d := buffersClear d n
  let d := stageRampsEnd d n
  let d := objsWhere d (objOf d n) (fun o => { o with path := pathClear o.path })
  let d := chainsWhere d (chainOf d n) (fun _ x => chainClear x)
  let d := mchansWhere d (mchanOf d n) chanRealign
  let d := if haloDom d = some n then { d with mantle := { d.mantle with halo := { d.mantle.halo with prev := none } } } else d
  netMod d (fun x => { x with rxFlows := x.rxFlows.map (fun kv =>
    if effDom d kv.2.cfg.domain = n then (kv.1, { kv.2 with ring := [], receiving := false, gate := { phase := .passing }, out := [], adm := none }) else kv) })

/-- A receiver without sample state. -/
def aesRxBare (r : AesRx) : AesRx :=
  { r with
    state := .absent, gate := {}, good := [0, 0], outA := {}, outB := {}, map := {}, frames := 0, seenZ := false }
/-- A TDM port without sample state. -/
def tdmBare (t : Tdm) : Tdm :=
  { t with
    cfg := t.pend.getD t.cfg, pend := none, state := if (t.pend.getD t.cfg).enable && (t.pend.getD t.cfg).target then .noClock else .stopped
    gate := {}, gateT := {}, goodR := [], goodT := [], rx := [], map := {}, mapT := {}, frames := 0, dout := [] }
/-- A bridge and a microphone without sample state. -/
def bridgeBare (b : Bridge) : Bridge :=
  { cfg := b.cfg, state := if b.cfg.enable then .waiting else .disabled, slips := b.slips, ranges := b.ranges }
def micBare (m : Mic) : Mic :=
  { cfg := m.cfg, state := if m.cfg.enable then .waiting else .disabled, trim := rampEndNow m.trim, clips := m.clips, slips := m.slips }
def micsBare (m : Mics) : Mics :=
  { m with
    mic := m.mic.map (fun kv => (kv.1, micBare kv.2)), det := m.det.map (fun kv => (kv.1, { kv.2 with run := none, ended := [] })) }
/-- A chain column without sample state. -/
def chainBare (c : Chain1) : Chain1 := { c with st := {}, timedGain := none, timedMute := none }
/-- An object without sample state. -/
def objBare (o : Obj) : Obj :=
  { o with
    ents := [], cdir := {}, cdec := {}, rampEnd := none, disable := none, srcFade := [], sparseRamp := none, trans := none,
    deferred := none, layoutReq := none
    path := { airOn := o.pathCfg.air, decor := if o.decorr then some { filter := o.filter } else none } }

/-- PRISM's content lost: the layout and both banks, the queues, every object's gains and transitions; a binding change under way is
made. -/
def sceneBare (s : Scene) : Scene :=
  { s with
    layout := none, groups := [], bankOther := ({}, []), prismCtrl := s.prismCtrl &&& 1, build := none, job := none, oldCols := [], oldSpks := []
    layoutEnd := none, queue := [], directQ := []
    objs := s.objs.map (fun kv => (kv.1, { objBare kv.2 with path := kv.2.path }))
    cols := s.cols.map (fun kv => (kv.1, match kv.2.unbind with
      | some u => { kv.2 with bind := u.dest, unbind := none }
      | none => kv.2)) }

/-- Data-path content lost (R478): MANTLE maps EMPTY, no layout, both slots EMPTY and the base image everywhere, queues empty,
every sample state gone.  Configuration is kept. -/
def loseContent (d : Dev) : Dev :=
  let d := (List.range 2).foldl (fun d s => tilesMod d (fun T => dropSlot T s)) d
  let d := tilesMod d (fun T => { T with mem := memClear T.mem (fun a => decide (0x00400000 ≤ a)), cores := [], sched := { T.sched with
      switches := [], switchReqs := [], cancels := [], running := [], period := [], comp := [], compLost := false } })
  let d := sceneMod d (fun s => { sceneBare s with objs := s.objs.map (fun kv => (kv.1, objBare kv.2)) })
  let d : Dev := { d with mantle := { d.mantle with ch := [], load := none, commits := [] }, render := {} }
  let d : Dev := { d with chain := { d.chain with cols := d.chain.cols.map (fun kv => (kv.1, chainBare kv.2)) } }
  let d : Dev := { d with seam := { d.seam with br := d.seam.br.map (fun kv => (kv.1, bridgeBare kv.2)) } }
  let d : Dev := { d with mics := micsBare d.mics }
  let d := netMod d (fun x => { x with rxFlows := x.rxFlows.map (fun kv =>
      (kv.1, { kv.2 with ring := [], receiving := false, gate := { phase := .passing }, good := [], out := [], adm := none })) })
  portsMod d (fun x =>
    { x with aesRx := x.aesRx.map (fun kv => (kv.1, aesRxBare kv.2)), aesTx := x.aesTx.map (fun kv => (kv.1, { kv.2 with phase := .off, sent := none })),
             tdm := x.tdm.map (fun kv => (kv.1, tdmBare kv.2)) })

end Sys2Proof.Machine
end

