-- ==== Sys2Proof/Machine/Reset.lean ====
section
/-! DEFINITION. Resets, power domains, control-plane faults and the automatic entry to SAFE (R417, R474, R481, R493–R499).
What happens when firmware runs again is in Machine/Boot.lean. -/

namespace Sys2Proof.Machine

/-! Events of modes. -/

/-- EV_MODE (R449). -/
def evMode (d : Dev) (new old : Mode) (cause ch : Nat) : Dev :=
  event d 1 (p8 (modeCode new) ++ p8 (modeCode old) ++ p8 cause ++ p8 (if new = .safe then d.aon.safeReason.toNat else 0) ++ p8 ch ++
    zeros 3 ++ p64 (now d).toNat)

/-- HIF_MODE changes: the previous mode is kept and HIF_IRQ_STATUS.MODE set (R406); a log entry is made (R446). -/
def setMode (d : Dev) (m : Mode) : Dev :=
  hif (fw d (fun f => { f with prevMode := f.mode, mode := m, changing := none, modeDt := now d })) (fun h => { h with irqMode := true })

/-! Power domains (R474, R498, R499). -/

/-- What keeps a power domain on in a mode that leaves it to use (R498). -/
def pdUsed (d : Dev) (i : Nat) : Bool :=
  let sp (p : Nat) : Bool := (getNet d p).cfg.speed != 0
  if i = 3 then sp 0 || sp 1 else if i = 4 then sp 2 || sp 3 else if i = 5 then d.twin.cfg.enable
  else if i = 6 then d.ports.aesRx.any (fun kv => kv.2.cfg.enable) || d.ports.aesTx.any (fun kv => kv.2.cfg.enable) ||
    d.ports.tdm.any (fun kv => kv.2.cfg.enable) || d.mics.mic.any (fun kv => kv.2.cfg.enable)
  else if i = 9 then d.mantle.ch.any (fun kv => decide (320 ≤ kv.1) && (kv.2.a.isSome || kv.2.b.isSome)) else true

/-- Domains a mode keeps on (R477). -/
def pdWanted (d : Dev) (m : Mode) : Half :=
  if m == .off || m == .boot then 0x8007 else if m == .retain then 0x8005 else if m == .safe || m == .update then 0x8007
  else if m == .selftest || m == .factory then 0xFFFF
  else BitVec.ofNat 16 ((List.range 16).foldl (fun a i => a + 2 ^ i * b2n (pdUsed d i)) 0)

/-- The controller asked for the domains w: those that differ begin to switch, and a reset under way goes on (R501). -/
def powerAsk (d : Dev) (w : Half) : Dev :=
  { d with power := { d.power with en := w, switching := (w ^^^ d.power.on) ||| (pdResets d.power &&& w) } }

/-- The controller asked for the domains that are wanted. -/
def powerPlan (d : Dev) : Dev := powerAsk d (pdWanted d (pathMode d))

/-- Domain pd is asked to be on. -/
def needPd (d : Dev) (pd : Nat) : Dev :=
  if d.power.on.getLsbD pd then d else
  let b : Half := BitVec.ofNat 16 (2 ^ pd)
  { d with power := { d.power with en := d.power.en ||| b, switching := d.power.switching ||| b } }

/-- Master ports in a power domain (R22, R474). -/
def pdMasters (i : Nat) : List Nat :=
  if i = 2 then [2] else if i = 3 ∨ i = 4 then [3] else if i = 6 then [4] else if i = 7 then [5, 7] else if i = 8 ∨ i = 9 then [6]
  else if 10 ≤ i ∧ i ≤ 13 then [8 + 2 * (i - 10), 9 + 2 * (i - 10)] else []

/-- Isolation of master ports while domain i is off or being reset; a port with blocks in two domains stays open while one
of them is on. -/
def isolate (d : Dev) (i : Nat) (on : Bool) : Dev :=
  let other (i : Nat) : Nat := if i = 3 then 4 else if i = 4 then 3 else if i = 8 then 9 else if i = 9 then 8 else i
  let held := other i != i && pdOn d (other i)
  if on && held then d else
  { d with mtx := { d.mtx with isolated := (pdMasters i).foldl (fun m k =>
      if on then m ||| BitVec.ofNat 16 (2 ^ k) else m &&& ~~~(BitVec.ofNat 16 (2 ^ k))) d.mtx.isolated } }

/-- A network port whose domain has lost its state: counters cleared, CLEARED set, the link gone; configuration is
written back (R368, R478). -/
def netPortBare (p : NetPort) : NetPort := { cfg := p.cfg, members := p.members }

/-- A tile's cores, memory and image code cleared. -/
def tileBare (T : Tiles) (t : Nat) : Tiles :=
  let T := (List.range 2).foldl (fun T s => if (tabGet T.sched.slots s).code.any (fun kv => kv.1 == t && kv.2 != []) then dropSlot T s else T) T
  { T with
    cores := T.cores.filter (fun kv => kv.1 / 8 != t)
    mem := memClear T.mem (fun a => decide (tileBase t ≤ a) && decide (a < tileBase t + 0x00800000)) }

/-- Counters of block registers return to their reset values with the logic of their power domain (R495). -/
def pdCounters (d : Dev) (i : Nat) : Dev :=
  if i = 5 then
    twinMod d (fun t =>
      { t with retry := 0, downCnt := 0, diverge := 0, resyncs := 0, resyncTimeouts := 0, ticketLate := 0, loopLate := 0, hbMiss := 0, lastMt := 0, lastGroups := 0 })
  else if i = 6 then
    portsMod { d with mics := { d.mics with mic := d.mics.mic.map (fun kv => (kv.1, { kv.2 with clips := 0, slips := 0 })) } } (fun x =>
      { x with
        clip := []
        aesRx := x.aesRx.map (fun kv => (kv.1, { kv.2 with parityErr := 0, biphaseErr := 0, csCrcErr := 0, slips := 0, vCount := 0, clkFault := 0 }))
        aesTx := x.aesTx.map (fun kv => (kv.1, { kv.2 with slips := 0 }))
        tdm := x.tdm.map (fun kv => (kv.1, { kv.2 with slips := 0, maskCopies := 0 })) })
  else if i = 7 then
    let d := sceneMod d (fun s =>
      { s with
        cnt := s.cnt.map (fun kv => (kv.1, { kv.2 with repanUsed := 0, xfadeUse := 0, xfadeDeferred := 0 }))
        cols := s.cols.map (fun kv => (kv.1, { kv.2 with clip := 0 }))
        activeBank := false, sparseTrunc := 0, haloClamp := 0, objmixClip := 0, directDiscard := 0 })
    { d with seam := { d.seam with clip := [], slip := [], range := [] }, chain := { d.chain with outClip := [] } }
  else if i = 8 then { d with mantle := { d.mantle with clip := [], void := [], binClip := 0, loadErr := 0 } }
  else if i = 15 then { d with track := { d.track with skip := 0, postSkip := 0 } } else d

/-- Logic of a power domain reset and its memories zeroed (R495, R499).  Of PD_CTRL, which RETAIN keeps in retention, the DMA engine and
the matrix start anew (R483). -/
def pdClear (d : Dev) (i : Nat) : Dev :=
  let d := pdCounters d i
  if i = 1 then { d with dma := { ch := d.dma.ch.map (fun kv => (kv.1, { bytes := kv.2.bytes })) }, mtx := { isolated := d.mtx.isolated } }
  else if i = 2 then
    { d with mbx := d.mbx.map (fun kv => (kv.1, { epoch := kv.2.epoch })),
             hif := { ctrlUp := d.hif.ctrlUp, restarting := d.hif.restarting, fwSlot := d.hif.fwSlot, hostBoot := d.hif.hostBoot,
                      ctrlRestarts := d.hif.ctrlRestarts, deviceEpoch := d.hif.deviceEpoch } }
  else if i = 3 ∨ i = 4 then
    (List.range 2).foldl (fun d k => netPortMod d (2 * (i - 3) + k) netPortBare) d
  else if i = 5 then twinMod d (fun t => { t with lanes := 0, handshake := false, hello := none, helloSent := false, unacked := [], waiting := [] })
  else if i = 6 then
    portsMod { d with mics := micsBare d.mics } (fun x =>
      { x with aesRx := x.aesRx.map (fun kv => (kv.1, aesRxBare kv.2)), aesTx := x.aesTx.map (fun kv => (kv.1, { kv.2 with phase := .off, sent := none })),
               tdm := x.tdm.map (fun kv => (kv.1, tdmBare kv.2)) })
  else if i = 7 then
    { sceneMod d sceneBare with
      seam := { d.seam with br := d.seam.br.map (fun kv => (kv.1, bridgeBare kv.2)) } }
  else if i = 8 then { d with mantle := { d.mantle with ch := d.mantle.ch.filter (fun kv => decide (320 ≤ kv.1)) } }
  else if i = 9 then { d with mantle := { d.mantle with ch := d.mantle.ch.filter (fun kv => decide (kv.1 < 320)) } }
  else if 10 ≤ i ∧ i ≤ 13 then tilesMod d (fun T => tileBare (tileBare T (2 * (i - 10))) (2 * (i - 10) + 1))
  else if i = 14 then
    let d := objsWhere d (fun _ => true) (fun o => { o with path := pathClear o.path })
    let d := chainsWhere d (fun _ => true) (fun _ x => { x with st := { x.st with line := [] } })
    tilesMod { d with render := {} } (fun T => { T with mem := memClear T.mem (fun a => decide (0x30000000 ≤ a) && decide (a < 0x35000000)) })
  else if i = 15 then { d with sense := {} } else d

/-- Requests that hold what a domain loses are answered CANCELLED. -/
def pdCancel (d : Dev) (i : Nat) : Dev :=
  if i = 3 ∨ i = 4 then
    (List.range 2).foldl (fun d k =>
      let p := 2 * (i - 3) + k
      match (getNet d p).gatePend with
      | some g => reply (netPortMod d p (fun x => { x with gatePend := none })) g.2.2 .cancelled []
      | none => d) d
  else if i = 7 then cancelWhere d (fun t => t.op == .layoutCommit)
  else if i = 8 ∨ i = 9 then cancelWhere d (fun t => (t.op == .firLoad && !(d.fw.waits.any (fun w => w.taken == t))) || t.op == .firCommit)
  else if 10 ≤ i ∧ i ≤ 13 then cancelWhere d (fun t => t.op == .graphLoad || t.op == .graphStart || t.op == .graphStop)
  else d

/-- A power-domain reset begins (R495): a domain that is off is switched on for it. -/
def pdResetBegin (d : Dev) (i : Nat) : Dev :=
  if i < 2 ∨ 15 < i then d else
  let b : Half := BitVec.ofNat 16 (2 ^ i)
  let d := isolate (pdClear (pdCancel d i) i) i true
  { d with power := { d.power with en := d.power.en ||| b, switching := d.power.switching ||| b } }

/-- Requests that waited for a domain to be on are answered (R499). -/
def answerPower (d : Dev) (i : Nat) : Dev :=
  let bodyOf (w : Wait) : Option (List Byte) := match w.what with
    | .powerOn pd body => if pd = i then some body else none
    | _ => none
  let ws := d.fw.waits.filter (fun w => (bodyOf w).isSome)
  ws.foldl (fun d w => reply d w.taken .ok ((bodyOf w).getD [])) (fw d (fun f => { f with waits := f.waits.filter (fun w => (bodyOf w).isNone) }))

/-- A switching domain is on, its memories zeroed, or off; a reset ends (R474, R499). -/
def pdSwitched (d : Dev) (i : Nat) : Dev :=
  if !d.power.switching.getLsbD i then d else
  let b : Half := BitVec.ofNat 16 (2 ^ i)
  let d := { d with power := { d.power with switching := d.power.switching &&& ~~~b } }
  if d.power.en.getLsbD i then
    let d := if d.power.on.getLsbD i then d else pdClear d i
    answerPower (isolate { d with power := { d.power with on := d.power.on ||| b } } i false) i
  else isolate (pdClear { d with power := { d.power with on := d.power.on &&& ~~~b } } i) i true

/-! Resets (R493). -/

/-- The flash keeps its contents through a reset; a slot being written reads INCOMPLETE with nothing received (R497). -/
def flashKept (f : Flash) : Flash :=
  { slots := f.slots.map (fun kv => (kv.1, if kv.2.state = .incomplete then { kv.2 with received := 0, bytes := [] } else kv.2)),
    rec0 := f.rec0, rec1 := f.rec1, keyHash := f.keyHash, revoked := f.revoked, imageKey := f.imageKey, lock := f.lock }

/-- The device after a reset of every domain but PD_AON, before the boot: RESET_N, a warm reset, a boot retry. -/
def domainsReset (d : Dev) (epochUp : Bool) : Dev :=
  { State.resetDev with
    aon := d.aon, flash := flashKept d.flash,
    hif := { ctrlRestarts := d.hif.ctrlRestarts, msixMask := d.hif.msixMask, msixTable := d.hif.msixTable, deviceEpoch := if epochUp then d.hif.deviceEpoch + 1 else d.hif.deviceEpoch },
    mbx := d.mbx.map (fun kv => (kv.1, { epoch := kv.2.epoch })),
    dma := { ch := d.dma.ch.map (fun kv => (kv.1, { bytes := kv.2.bytes })) }, free := d.free }

/-- A start begins (R491): the attempt index is HIF_BOOTCNT, the cause is kept. -/
def startBoot (d : Dev) (cause : Nat) : Dev :=
  { d with aon := { d.aon with cause := BitVec.ofNat 3 cause, attempt := d.aon.bootcnt, fallback := false } }

/-- A warm reset of R493 with its RESET_CAUSE; HIF_BOOTCNT is set to 0. -/
def warmResetOp (d : Dev) (cause : Nat) : Dev :=
  let d := domainsReset d true
  startBoot { d with aon := { d.aon with bootcnt := 0 } } cause

/-- Straps sampled (R484). -/
def sampleStraps (d : Dev) (s : Straps) : Dev :=
  { d with aon := { d.aon with bootSrc := s.bootSrc, factoryEn := s.factoryEn, i2cAddr := s.i2cAddr } }

/-- The recovery firmware serves SAFE (R481, R482). -/
def recoverySafe (d : Dev) (reason : Byte) : Dev :=
  let d := domainsReset d false
  let d := { d with aon := { d.aon with bootcnt := 3, safeReason := reason, lastFail := reason },
                    flash := { d.flash with recovery := true, running := 2 },
                    hif := { d.hif with ctrlUp := true, fault := d.hif.fault ||| 2 } }
  evMode (fw (setMode d .safe) (fun f => { f with recoveryBoot := true })) .safe .boot 1 0xFF

/-- A start fails with a reason code (R481, R491). -/
def startFails (d : Dev) (reason : Byte) : Dev :=
  if d.aon.bootcnt.toNat + 1 < 3 then
    let d := domainsReset d false
    startBoot { d with aon := { d.aon with bootcnt := d.aon.bootcnt + 1, lastFail := reason } } 4
  else recoverySafe d reason

/-! The control-plane restart (R417). -/

/-- Requests of a channel that have been taken and not answered. -/
def unansweredOf (d : Dev) (ch : Nat) : Nat :=
  min 255 (((pendingWork d).filter (fun w => w.1.req.ch.val == ch)).length + (d.fw.bulks.filter (fun b => b.taken.req.ch.val == ch)).length +
    (d.fw.queue.filter (fun m => m.isReply && m.ch == ch)).length)

/-- Every waiting request is lost with what it waited for. -/
def dropPending (d : Dev) : Dev := (pendingWork d).foldl (fun d w => w.2 d) d

/-- The states and counters firmware's events were based on (R520): kind, index, value. -/
def reportStates (d : Dev) : List (Nat × Nat × Nat) :=
  (List.range 3).map (fun n => (160, n, domCode (getDom d n).state)) ++
  [(161, 0, ptpCode d.time.ptp.state)] ++
  (List.range 3).map (fun n => (162, n, b2n (tabGet d.time.wcPresent n))) ++
  (List.range 16).map (fun n => (163, n, aesCode (tabGet d.ports.aesRx n).state)) ++
  (List.range 8).map (fun n => (164, n, tdmCode (tabGet d.ports.tdm n).state)) ++
  (List.range 8).map (fun n => (176, n, (tabGet d.sense.rails n).state)) ++
  (List.range 8).map (fun n => (177, n, (tabGet d.sense.temps n).state)) ++
  (List.range 16).map (fun n => (178, n, b2n (tabGet d.sense.cables n).flag)) ++
  [(179, 0, b2n d.sense.inserted), (180, 0, d.sense.accessory)] ++
  (List.range 10).map (fun n => (181, n, b2n (tabGet d.sense.losses n).flag)) ++
  [(80, 0, pairCode d.twin.state)]

/-- Counters that feed EV_FAULT, EV_UNDERRUN, EV_LATE_META (kind = event × 16 + sub-kind), with their values. -/
def reportCounts (d : Dev) : List (Nat × Nat × Nat) :=
  (List.range 3).map (fun n => (33, n, (tabGet d.fw.stageOverrun n).toNat)) ++ [(34, 0, d.mtx.err.toNat)] ++
  (List.range 8).map (fun t => (35, t, (tabGet d.tiles.sched.coreFault t).toNat)) ++
  d.seam.br.flatMap (fun kv => [(36, kv.1, kv.2.slips.toNat), (44, kv.1, kv.2.ranges.toNat)]) ++
  d.mics.mic.map (fun kv => (37, kv.1, kv.2.slips.toNat)) ++
  d.ports.aesRx.map (fun kv => (48, kv.1, kv.2.slips.toNat)) ++ d.ports.aesTx.map (fun kv => (49, kv.1, kv.2.slips.toNat)) ++
  d.ports.tdm.map (fun kv => (50, kv.1, kv.2.slips.toNat)) ++ d.net.rxFlows.map (fun kv => (51, kv.1, kv.2.slips.toNat)) ++
  d.net.txFlows.map (fun kv => (52, kv.1, kv.2.drops.toNat)) ++
  (List.range 3).map (fun n => (64, n, (tabGet d.scene.metaCnt n).late.toNat))

/-- What EV_CAL_DONE says of a measurement: speakers whose slot is complete, the end of the last of them, and its pairs flagged
DISTURBED. -/
def calMeasured (r : CalRun) : Nat × MT × Nat :=
  (r.done, if r.done = 0 then 0 else slotEnd r (r.done - 1), r.cfg.mics.length * (r.disturbed.filter (fun i => decide (i < r.done))).length)

/-- A running measurement ends before its time (R250): the excitation fades, the completed slots' captures are still taken. -/
def calStop (d : Dev) : Dev :=
  match d.cal.run with
  | none => d
  | some r =>
    { d with cal := { d.cal with
      run := none, fade := some (r, mtOf d r.dom), ended := some (calMeasured r)
      tail := some { r with cfg := { r.cfg with spks := r.cfg.spks.take r.done }, aborted := true } } }

/-- The control processor stops (R417): inbound FIFOs flushed, and with them the cells of chains in progress (R452); what waits is lost.  A fault while a restart runs changes
nothing (R421); firmware that does not run cannot fault. -/
def controlFault (d : Dev) (cause : Nat) : Dev :=
  if d.hif.restarting || !d.hif.ctrlUp then d else
  let flushed := (List.range 8).map (fun n => (getMbx d n).inFifo.length + ((tabGet d.fw.chains n).map (·.cells)).getD 0)
  let r : Restart := { cause := cause, dt := now d, flushed := flushed, unanswered := (List.range 8).map (unansweredOf d),
                       eventsLost := d.fw.queue.length, openBefore := (List.range 8).map (fun n => (getSession d n).isOpen) }
  let rep : Reported := { states := reportStates d, counts := reportCounts d }
  let d := calStop (dropPending d)
  let d := (List.range 8).foldl (fun d n => mbxMod d n (fun m => { m with inFifo := [] })) d
  let d := fw d (fun f => { f with queue := [], chains := [], bulks := [], commits := [], waits := [], restart := some r, reported := rep,
                                   resetPending := [] })
  let d := twinMod d (fun t => { t with issued := t.issued.map (fun i => { i with reply := none }) })
  let d := { d with mtx := { d.mtx with isolated := d.mtx.isolated ||| 1 } }
  hif d (fun h => { h with ctrlUp := false, restarting := true, fault := h.fault ||| 1, mbxLost := h.mbxLost + BitVec.ofNat 32 flushed.sum })

end Sys2Proof.Machine
end

