-- ==== Sys2Proof/Machine/Regs.lean ====
section
/-! DEFINITION. Register writes, and the reads that have an effect (R19, R20, R401–R421, R469 and the register tables of the
other chapters). -/

namespace Sys2Proof.Machine

/-! Mailboxes (R412–R416). -/

/-- IN_CELL with the bytes of a write that its enables choose. -/
def cellWrite (c : List Byte) (o : Nat) (v : Word) (be : BitVec 4) : List Byte :=
  (List.range 4).foldl (fun c i => if be.getLsbD i then c.set (o + i) (v.extractLsb' (8 * i) 8) else c) c

/-- A post (R413): the cell with its stamps is queued, or the post is refused and counted. -/
def postCell (d : Dev) (n : Nat) : Dev :=
  if (getMbx d n).inFifo.length < 8 ∧ takesCells d then
    mbxMod d n (fun m => { m with inFifo := m.inFifo ++ [slice m.inCell 0 6 ++ [BitVec.ofNat 8 n, m.epoch] ++ slice m.inCell 8 56] })
  else mbxMod d n (fun m => { m with refused := m.refused + 1, irq := m.irq ||| 8 })

/-- The oldest outbound cell removed. -/
def popCell (d : Dev) (n : Nat) : Dev := mbxMod d n (fun m => { m with outFifo := m.outFifo.drop 1 })

/-- Bits of a W1C register cleared. -/
def w1c (old v : Word) : Word := old &&& ~~~v

/-- A write to a mailbox channel by an interface that owns it. -/
def mbxWrite (d : Dev) (n o : Nat) (v : Word) (be : BitVec 4) : Dev :=
  if o < 0x40 then mbxMod d n (fun m => { m with inCell := cellWrite m.inCell o v be })
  else if o = 0x80 then (if v.getLsbD 0 then newSenderEpoch d n else d)
  else if o = 0x88 then (if v.getLsbD 0 then postCell d n else d)
  else if o = 0x8C then (if v.getLsbD 0 then popCell d n else d)
  else if o = 0x90 then mbxMod d n (fun m => { m with irq := w1c m.irq v })
  else if o = 0x94 then mbxMod d n (fun m => { m with irqEn := v &&& 0xF }) else d

/-! HIF (R406). -/

/-- HIF_RESET: a write without the key is ignored (R406). -/
def hifReset (d : Dev) (v : Word) : Dev :=
  if v >>> 16 ≠ 0xC3D2 then d
  else if v.getLsbD 0 then warmResetOp d 2
  else if v.getLsbD 1 then controlFault d 5 else d

def hifWrite (d : Dev) (o : Nat) (v : Word) : Dev :=
  if o = 0x14 then hifReset d v
  else if o = 0x18 then hif d (fun h => { h with irqMode := h.irqMode && !v.getLsbD 14 })
  else if o = 0x1C then hif d (fun h => { h with irqEn := v &&& 0xFFFF })
  else if o = 0x2C then hif d (fun h => { h with ctrlRestarts := v })
  else if o = 0x30 then hif d (fun h => { h with spiIrqEn := v &&& 0x7FFF })
  else if o = 0x34 then hif d (fun h => { h with fault := w1c h.fault v }) else d

/-! Doorbells and TIME (R419, R420). -/

def dblWrite (d : Dev) (o : Nat) (v : Word) : Dev :=
  if o = 0 then hif d (fun h => { h with dblH2D := h.dblH2D ||| v })
  else if o = 8 then hif d (fun h => { h with dblD2H := w1c h.dblD2H v })
  else if o = 0xC then hif d (fun h => { h with dblD2HEn := v }) else d

/-- Whether a domain has a valid MT (R50): it runs, or its closing period does. -/
def mtValid (d : Dev) (n : Nat) : Bool := domRuns (getDom d n).state || ((getDom d n).closing.map (·.counts)) == some true

/-- MT and fraction of domain n now, from the time elapsed since its last boundary; zero without a valid MT. -/
def mtNow (d : Dev) (el : Elapsed) (n : Nat) : MT × Half :=
  if mtValid d n then (mtOf d n + BitVec.ofNat 32 (el.getD n (0, 0)).1, (el.getD n (0, 0)).2) else (0, 0)

/-- A snapshot (R50): DT, and the media time and fraction of each domain that has one. -/
def snapshotOf (d : Dev) (el : Elapsed) : Snapshot :=
  { dt := now d, mt := (List.range 3).map (fun n => (mtNow d el n).1), frac := (List.range 3).map (fun n => (mtNow d el n).2),
    valid := (List.range 3).map (mtValid d) }

/-- The samples and the fraction elapsed since each domain's last boundary, at its nominal rate and within the block (DEDUCED, log entry
111): what a register write, which carries no measured count, latches (R50). -/
def elapsedNow (d : Dev) : Elapsed :=
  (List.range 3).map (fun n =>
    let x := getDom d n
    let q := (now d - x.dt).toNat * x.cfg.rate
    if q < 16 * 1000000000 then (q / 1000000000, BitVec.ofNat 16 (q % 1000000000 * 65536 / 1000000000)) else (15, 65535))

def timeWrite (d : Dev) (o : Nat) (v : Word) : Dev :=
  if o = 0 then (if v.getLsbD 0 then timeMod d (fun t => { t with snap := snapshotOf d (elapsedNow d) }) else d)
  else if o = 0x40 then timeMod d (fun t => { t with irq := w1c t.irq v }) else d

/-! DMA channels (R455, R469). -/

def dmaStopped (s : DmaState) : Bool := s == .idle || s == .error || s == .aborted
def cqSizeOk (n : Nat) : Bool := [16, 32, 64, 128, 256, 512, 1024, 2048, 4096].contains n

/-- 32 bytes of a completion record (R466). -/
def dmaRecord (c : DmaChan) (code flags : Nat) (moved dropped zeroed : Nat) (dt : DT) : List Byte :=
  p32 c.seq.toNat ++ p16 c.pc ++ p8 code ++ p8 flags ++ p32 moved ++ p16 (min 65535 dropped) ++ p16 (min 65535 zeroed) ++ p64 dt.toNat ++ zeros 8

/-- A write of the engine to its queue: host memory for a host-owned channel, control SRAM for a device-owned one. -/
def dmaPut (d : Dev) (n : Nat) (addr : Nat) (bs : List Byte) : Dev :=
  if n < 8 then deposit d addr bs else tilesMod d (fun T => { T with mem := memWriteBytes T.mem (addr % 2 ^ 32) bs })

/-- The queue has room for a record. -/
def cqRoom (c : DmaChan) : Bool := decide ((c.head.toNat + 1) % c.cqSize.toNat ≠ c.tail.toNat)

/-- A record written at CQ_HEAD. -/
def cqPut (d : Dev) (n : Nat) (bs : List Byte) (irq : Bool) : Dev :=
  let c := getDma d n
  let d := dmaPut d n (c.cqBase.toNat + 32 * c.head.toNat) bs
  dmaMod d n (fun c => { c with head := BitVec.ofNat 32 ((c.head.toNat + 1) % c.cqSize.toNat), seq := c.seq + 1,
                                irq := if irq then c.irq ||| 1 else c.irq })

/-- A record that is due: written, or the channel stalls; disabled records go on without one (R466, R469). -/
def dmaRecordDue (d : Dev) (n : Nat) (r : DmaRecord) : Dev :=
  let c := getDma d n
  let irq : Word := if r.next = .idle then 4 else if r.next = .error then 2 else 0
  let fin (d : Dev) : Dev := dmaMod d n (fun c => { c with state := r.next, pc := r.pc, stalled := none, irq := c.irq ||| irq })
  if !cqSizeOk c.cqSize.toNat then fin d
  else if cqRoom c then fin (cqPut d n r.bytes r.irq)
  else dmaMod d n (fun c => { c with state := .stalledCq, stalled := some r })

/-- A write of CQ_TAIL: one that passes CQ_HEAD is ignored and counted; a stalled record is written (R455, R469). -/
def cqTail (d : Dev) (n : Nat) (v : Word) : Dev :=
  let c := getDma d n
  let z := c.cqSize.toNat
  let steps (t : Nat) : Nat := (t + z - c.tail.toNat) % z
  if z ≠ 0 ∧ (z ≤ v.toNat ∨ steps c.head.toNat < steps v.toNat) then accessErr d
  else
    let d := dmaMod d n (fun c => { c with tail := v })
    match (getDma d n).stalled with
    | some r => if (getDma d n).state = .stalledCq then dmaRecordDue d n r else d
    | none => d

/-- A boundary of domain i (kind 3) or a rising edge of TPO i (kind 4) comes: every WAIT under way for it holds (R462). -/
def dmaEdge (d : Dev) (kind i : Nat) : Dev :=
  { d with dma := { d.dma with ch := d.dma.ch.map (fun kv => (kv.1, if kv.2.state = .waiting then
      { kv.2 with wait := kv.2.wait.map (fun w => if w.kind = kind ∧ w.index = i then { w with edge := true } else w) } else kv.2)) } }

/-- DMA_CMD.ABORT (R455): the record ABORTED if the queue has room. -/
def dmaAbort (d : Dev) (n : Nat) : Dev :=
  let c := getDma d n
  if dmaStopped c.state then d else
  let mv := c.move.getD {}
  let d := if cqSizeOk c.cqSize.toNat ∧ cqRoom c then cqPut d n (dmaRecord c 0 16 mv.moved mv.dropped mv.zeroed (now d)) false else d
  dmaMod d n (fun c => { c with state := .aborted, move := none, wait := none, stalled := none })

def dmaStart (d : Dev) (n : Nat) : Dev :=
  dmaMod d n (fun c => if dmaStopped c.state then
    { c with state := .running, pc := 0, act0 := none, act1 := none, seq := 0, move := none, wait := none, stalled := none } else c)

/-- An instruction ends: its record if RECORD is set, then state and PC. -/
def dmaEnds (d : Dev) (n flags recFlags : Nat) (mv : DmaMove) (pc : Nat) (next : DmaState) : Dev :=
  let c := getDma d n
  let d := dmaMod d n (fun c => { c with move := none, wait := none })
  if bit flags 1 then
    dmaRecordDue d n { bytes := dmaRecord c 0 recFlags mv.moved mv.dropped mv.zeroed (now d), irq := bit flags 2, next := next, pc := pc }
  else dmaMod d n (fun c => { c with state := next, pc := pc, irq := if next = .idle then c.irq ||| 4 else c.irq })

/-- An instruction ends and the program goes on with the next. -/
def dmaNext (d : Dev) (n flags recFlags : Nat) (mv : DmaMove) : Dev := dmaEnds d n flags recFlags mv ((getDma d n).pc + 1) .running

/-- A line is asserted.  The flash controller's are known only outside: `flash` says. -/
def dmaLineUp (d : Dev) (line : Nat) (flash : Bool) : Bool :=
  if 1 ≤ line ∧ line ≤ 4 then !(tabGet d.time.caps (line - 1)).fifo.isEmpty
  else if line = 5 then !d.sense.fifo.isEmpty
  else if line = 16 then !d.tiles.sched.comp.isEmpty else flash

/-- The condition of a WAIT holds (R462); of two channels that wait on one flag the lower takes it (R476). -/
def waitHolds (d : Dev) (n : Nat) (w : DmaWait) (flash : Bool) : Bool :=
  if w.kind = 1 then dmaLineUp d w.index flash
  else if w.kind = 2 then d.hif.dblH2D.getLsbD w.index
  else if w.kind = 5 then
    d.dma.flags.getLsbD w.index && !(List.range n).any (fun m => let c := getDma d m; c.state == .waiting && c.wait.any (fun x => x.kind == 5 && x.index == w.index))
  else w.edge

/-- A WAIT ends: the doorbell bit or the flag it waited for is cleared. -/
def waitEnds (d : Dev) (n : Nat) (w : DmaWait) : Dev :=
  let b : Word := BitVec.ofNat 32 (2 ^ w.index)
  let d := if w.kind = 2 then hif d (fun h => { h with dblH2D := w1c h.dblH2D b })
    else if w.kind = 5 then { d with dma := { d.dma with flags := w1c d.dma.flags b } } else d
  dmaNext d n w.flags 1 {}

/-- PAUSE halts a WAIT's timeout (R455); a WAIT whose condition holds ends first (R476). -/
def dmaPause (d : Dev) (n : Nat) : Dev :=
  let x := getDma d n
  let d := match x.wait with
    | some w => if x.state = .waiting ∧ waitHolds d n w false then waitEnds d n w else d
    | none => d
  dmaMod d n (fun c => if c.state = .running ∨ c.state = .waiting then
    { c with state := .paused, prev := c.state, remain := ((c.wait.bind (·.stop)).map (fun t => t.toNat - (now d).toNat)).getD 0 } else c)

def dmaResume (d : Dev) (n : Nat) : Dev :=
  dmaMod d n (fun c => if c.state = .paused then
    { c with state := c.prev, wait := c.wait.map (fun w => { w with stop := w.stop.map (fun _ => now d + BitVec.ofNat 64 c.remain) }) } else c)

/-- DMA_CMD: one command bit per write, otherwise ignored (R469). -/
def dmaCmd (d : Dev) (n : Nat) (v : Word) : Dev :=
  let b := v &&& 0xF
  if b = 1 then dmaStart d n else if b = 2 then dmaAbort d n else if b = 4 then dmaPause d n else if b = 8 then dmaResume d n else d

def dmaWrite (d : Dev) (n o : Nat) (v : Word) : Dev :=
  let idle (f : DmaChan → DmaChan) : Dev := dmaMod d n (fun c => if dmaStopped c.state then f c else c)
  let lo (x : DWord) (v : Word) : DWord := (x &&& 0xFFFFFFFF00000000) ||| v.setWidth 64
  let hi (x : DWord) : DWord := (x &&& 0xFFFFFFFF) ||| (v.setWidth 64 <<< 32)
  if o = 0 then dmaCmd d n v
  else if o = 8 then idle (fun c => { c with progBase := lo c.progBase (v &&& 0xFFFFFFE0) })
  else if o = 0xC then idle (fun c => { c with progBase := hi c.progBase })
  else if o = 0x10 then idle (fun c => { c with cqBase := lo c.cqBase (v &&& 0xFFFFFFE0) })
  else if o = 0x14 then idle (fun c => { c with cqBase := hi c.cqBase })
  else if o = 0x18 then idle (fun c => { c with cqSize := v })
  else if o = 0x20 then cqTail d n v
  else if o = 0x3C then dmaMod d n (fun c => { c with irq := w1c c.irq v })
  else if o = 0x40 then dmaMod d n (fun c => { c with irqEn := v &&& 7 }) else d

/-! Host rings (R367). -/

def ringSizeOk (n : Nat) : Bool := [64, 128, 256, 512, 1024, 2048, 4096].contains n
/-- A ring runs: enabled with a legal size. -/
def ringRuns (r : Ring) : Bool := r.ctrl.getLsbD 0 && ringSizeOk r.size.toNat

/-- RING_TAIL: indices count descriptors through wrap (log entry 23); a write that passes RING_HEAD by RING_SIZE or more is
ignored and counted. -/
def ringTail (d : Dev) (r : Nat) (v : Word) : Dev :=
  let x := tabGet d.net.rings r
  if x.size.toNat ≤ (v - x.head).toNat ∧ v ≠ x.head then netMod d (fun n => { n with tailErr := tabMod n.tailErr r (· + 1) })
  else ringMod d r (fun x => { ringMature (now d) x with tail := v, irqPend := false, irqHeld := false })

/-- RING_CTRL: clearing ENABLE stops the ring and keeps its indices. -/
def ringCtrl (d : Dev) (r : Nat) (v : Word) : Dev :=
  ringMod d r (fun x => { ringMature (now d) x with ctrl := v &&& 0xFF03, irqPend := false, irqHeld := false, dropping := x.dropping && v.getLsbD 0, stalled := x.stalled && v.getLsbD 0 })

def ringWrite (d : Dev) (r o : Nat) (v : Word) : Dev :=
  let off (f : Ring → Ring) : Dev := ringMod d r (fun x => if x.ctrl.getLsbD 0 then x else f x)
  if o = 0 then off (fun x => { x with baseLo := v &&& 0xFFFFFFE0 }) else if o = 4 then off (fun x => { x with baseHi := v })
  else if o = 8 then off (fun x => { x with size := v }) else if o = 0xC then ringCtrl d r v
  else if o = 0x14 then ringTail d r v else d

/-! The window as a host interface writes it (R401, R405). -/

/-- A dword write to window offset o.  A PCIe write that does not cover the dword is ignored and counted, except in IN_CELL;
so is one to a channel the interface does not own. -/
def windowWrite (d : Dev) (v : Via) (o : Nat) (x : Word) (be : BitVec 4) : Dev :=
  let inCell := decide (0x1000 ≤ o) && decide (o < 0x3000) && decide (o % 0x400 < 0x40)
  if be ≠ 15 ∧ !inCell then accessErr d
  else if o < 0x1000 then hifWrite d o x
  else if o < 0x3000 then
    (if ownsMbx v ((o - 0x1000) / 0x400) then mbxWrite d ((o - 0x1000) / 0x400) (o % 0x400) x be else accessErr d)
  else if o < 0x4000 then dblWrite d (o - 0x3000) x
  else if o < 0x4800 then (if pdOn d 1 then dmaWrite d ((o - 0x4000) / 0x100) (o % 0x100) x else d)
  else if o < 0x4A00 then ringWrite d ((o - 0x4800) / 0x40) ((o - 0x4800) % 0x40) x
  else if 0x5000 ≤ o ∧ o < 0x6000 ∧ pdOn d 1 then timeWrite d (o - 0x5000) x else d

/-- MSI-X table of BAR2: word 3 of an entry holds its mask bit (log entry 24). -/
def msixMaskWrite (d : Dev) (vec : Nat) (masked : Bool) : Dev :=
  let b : Half := BitVec.ofNat 16 (2 ^ vec)
  if masked then hif d (fun h => { h with msixMask := h.msixMask ||| b })
  else
    let d' := hif d (fun h => { h with msixMask := h.msixMask &&& ~~~b, msixPend := h.msixPend &&& ~~~b })
    if d.hif.msixMask.getLsbD vec ∧ d.hif.msixPend.getLsbD vec ∧ vecPends d vec then
      hif d' (fun h => { h with msixSent := h.msixSent ++ [vec] }) else d'

/-- A write of BAR2: the table's 16 entries; the pending bits are read-only (R402, log entry 24). -/
def msixWrite (d : Dev) (addr : Nat) (x : Word) : Dev :=
  if 0x100 ≤ addr ∨ addr % 4 ≠ 0 then d
  else if addr % 16 = 12 then msixMaskWrite d (addr / 16) (x.getLsbD 0)
  else hif d (fun h => { h with msixTable := tabSet h.msixTable (addr / 4) x })

/-- A read of BAR2. -/
def msixWord (d : Dev) (addr : Nat) : Word :=
  if addr = 0x800 then d.hif.msixPend.setWidth 32
  else if 0x100 ≤ addr ∨ addr % 4 ≠ 0 then 0
  else if addr % 16 = 12 then fields [(0, b2n (d.hif.msixMask.getLsbD (addr / 16)))]
  else tabGet d.hif.msixTable (addr / 4)

/-! Device-internal registers, written by the control processor (R23). -/

/-- A default master that does not reach the target is ignored (R471, R475). -/
def parkReach (i m : Nat) : Bool :=
  if i = 0 ∨ i = 13 then decide (m < 3) else if i = 1 then m == 5 || decide (8 ≤ m) else if i < 10 then m == 1 || m == 8 + (i - 2)
  else if i = 10 then m == 1 || decide (8 ≤ m) else if i = 11 then decide (3 ≤ m) else if i = 12 then m == 3 || decide (7 ≤ m)
  else m == 0 || m == 1

/-- TDM_MASK_CTRL: ARM set arms a copy; hardware clears it at the copy (R322, R334). -/
def maskCtrlWrite (t : Tdm) (v : Word) : Tdm := { t with armed := v.getLsbD 0, atMt := v.getLsbD 1 }

def aioWrite (d : Dev) (o : Nat) (v : Word) : Dev :=
  let tdm (n : Nat) (f : Tdm → Tdm) : Dev := portsMod d (fun p => { p with tdm := tabMod p.tdm n f })
  match arrIx o 0x560 4 8, arrIx o 0x580 4 8, arrIx o 0x5E0 4 8, arrIx o 0x600 4 8 with
  | some n, _, _, _ => tdm n (fun t => { t with rxShadow := v })
  | _, some n, _, _ => tdm n (fun t => { t with txShadow := v })
  | _, _, some n, _ => tdm n (fun t => maskCtrlWrite t v)
  | _, _, _, some n => tdm n (fun t => { t with maskAt := v })
  | _, _, _, _ => if o = 0 then portsMod d (fun p => { p with ctrl := v &&& 1 }) else d

/-- DESC_DATA: a write enters the descriptor word, and each access advances DESC_INDEX (R307).  The index and the edge counts of a
descriptor in use follow its image's edge lists (DESIGN CHOICE, log entry 126). -/
def descWrite (T : Tiles) (v : Word) : Tiles :=
  let ix := T.sched.descIndex.toNat
  let i := ix / 8
  let bs := descBytes T.sched.descRaw i (getTask T i)
  let bs := bs.take (ix % 8 * 4) ++ p32 v.toNat ++ bs.drop (ix % 8 * 4 + 4)
  let T := if !(getTask T i).used then schedMod T (fun s => { s with descRaw := tabSet s.descRaw ix v }) else taskMod T i (fun t =>
    { t with entry := BitVec.ofNat 32 (u32 bs 0), voidEntry := BitVec.ofNat 32 (u32 bs 4), args := BitVec.ofNat 32 (u32 bs 8),
             edgesAt := BitVec.ofNat 32 (u32 bs 12), prio := u8 bs 20 % 8, tile := u8 bs 21 % 8, window := u8 bs 22, dom := u8 bs 23 % 4,
             sentMt := BitVec.ofNat 32 (u32 bs 24), sentVoid := u16 bs 28 })
  schedMod T (fun s => { s with descIndex := BitVec.ofNat 32 ((ix + 1) % 32768) })

/-- A write by the control processor to a device-internal block; a block whose domain is off answers with the default
target's error (R25, R499). -/
def deviceWrite (d : Dev) (a : Nat) (v : Word) (be : BitVec 4) : Dev :=
  let o := a % 65536
  let b := a / 65536
  if b < 0x4000 ∨ 0x4011 < b then matrixError d 0 false (BitVec.ofNat 32 a)
  else if !pdOn d (blockPd a) then matrixError d 0 false (BitVec.ofNat 32 a)
  else if b = 0x4000 then windowWrite d .ctrl o v be
  else if b = 0x4001 then (if o = 0 then sceneMod d (fun s => { s with prismCtrl := v &&& 0xF }) else d)
  else if b = 0x4002 then (if o = 0 then { d with mantle := { d.mantle with ctrl := v &&& 3 } } else d)
  else if b = 0x4003 then (if o = 0 then { d with seam := { d.seam with ctrl := v &&& 1 } } else d)
  else if b = 0x4004 then (if o = 0 then { d with chain := { d.chain with dynCtrl := v &&& 1 } } else d)
  else if b = 0x4005 then aioWrite d o v
  else if b = 0x4008 then
    (if o < 0x2000 then (if o / 0x100 < 8 ∧ o % 0x100 = 0 then d else dmaWrite d (o / 0x100) (o % 0x100) v) else d)
  else if b = 0x4009 then
    tilesMod d (fun T => if o = 0 then schedMod T (fun s => { s with ctrl := v &&& 0x1FF07 })
      else if o = 0x200 then schedMod T (fun s => { s with descIndex := v &&& 0x7FFF })
      else if o = 0x204 then descWrite T v else T)
  else if b = 0x400A then
    (match arrIx o 0 4 15 with
     | some i => if parkReach i (v.toNat % 16) then { d with mtx := { d.mtx with park := tabSet d.mtx.park i (v.toNat % 16) } } else d
     | none => d)
  else if b = 0x400C then (if o = 0 then twinMod d (fun t => { t with linkCtrl := v &&& 7 }) else d)
  else if b = 0x400D then
    (if o = 0 then powerAsk d ((v.setWidth 16 &&& 0xFFFC) ||| 3)
     else if o = 8 then (List.range 14).foldl (fun d i => if v.getLsbD (i + 2) then pdResetBegin d (i + 2) else d) d
     else if o = 0x14 then { d with aon := { d.aon with wakeEn := v.setWidth 2 } } else d)
  else d

/-- A register write by the control processor.  Firmware takes doorbells of the host by writing 1 to their bits of DBL_H2D, and sets those
to the host by writing 1 to bits of DBL_D2H (DESIGN CHOICE, log entry 130). -/
def ctrlWrite (d : Dev) (a : Nat) (x : Word) (be : BitVec 4) : Dev :=
  if a = 0x40003004 ∧ pdOn d 2 then hif d (fun h => { h with dblH2D := w1c h.dblH2D x })
  else if a = 0x40003008 ∧ pdOn d 2 then hif d (fun h => { h with dblD2H := h.dblD2H ||| x })
  else deviceWrite d a x be

/-- A register write by an interface: a window offset, a BAR2 offset, a device-internal address. -/
def regWrite (d : Dev) (v : Via) (addr : Nat) (x : Word) (be : BitVec 4) : Dev :=
  match v with
  | .pcie | .spi => if pdOn d 2 then windowWrite d v addr x be else d
  | .bar2 => msixWrite d addr x
  | .ctrl => ctrlWrite d addr x be

/-! Reads that have an effect (R19 RC, R307, R370, R420, R260, R185). -/

/-- The record a read of CAP_W3 removes. -/
def capPop (d : Dev) (i : Nat) : Dev := capMod d i (fun c => { c with fifo := c.fifo.drop 1 })
def buttonPop (d : Dev) : Dev := { d with sense := { d.sense with fifo := d.sense.fifo.drop 1 } }

/-- A window read with its effect: the word and the device after it.  One of a mailbox channel that the interface does not own is counted
(R405). -/
def windowRead (d : Dev) (v : Via) (o : Nat) : Word × Dev :=
  let w := windowWord d v o
  let d := if 0x1000 ≤ o ∧ o < 0x3000 ∧ v ≠ .ctrl ∧ ownsMbx v ((o - 0x1000) / 0x400) = false then accessErr d else
    match arrIx o 0x510C 0x20 4 with
    | some i => if pdOn d 1 then capPop d i else d
    | none =>
      if 0x6000 ≤ o ∧ o < 0x7000 ∧ pdOn d (netPd ((o - 0x6000) / 0x400)) then
        (let p := (o - 0x6000) / 0x400
         let r := o % 0x400
         if r = 0x104 then netPortMod d p (fun n => { n with status := 0 })
         else if r = 0x110 then netPortMod d p (fun n => { n with halfRx := 0 })
         else if r = 0x114 then netPortMod d p (fun n => { n with halfTx := 0 }) else d)
      else if o = 0x70D4 then buttonPop d else d
  (w, d)

/-- A device-internal read with its effect. -/
def deviceRead (d : Dev) (v : Via) (a : Nat) : Word × Dev :=
  let o := a % 65536
  let b := a / 65536
  if !pdOn d (blockPd a) then (0, matrixError d 0 true (BitVec.ofNat 32 a))
  else if b = 0x4000 then windowRead d v o
  else
    let w := deviceWord d v a
    let d := if b = 0x4004 then
        (match arrIx o 0xC00 4 640 with
         | some c => { d with chain := { d.chain with cols := tabMod d.chain.cols c (fun x => { x with st := { x.st with holdC := 0, holdL := 0 } }) } }
         | none => d)
      else if b = 0x400B ∧ o = 0xD4 then buttonPop d
      else if b = 0x4009 ∧ o = 0x100 then
        tilesMod d (fun T => schedMod T (fun s =>
          { s with compHi := (s.comp.head?.map (·.mt)).getD 0, comp := s.comp.drop 1 }))
      else if b = 0x4009 ∧ o = 0x204 then
        tilesMod d (fun T => schedMod T (fun s => { s with descIndex := BitVec.ofNat 32 ((s.descIndex.toNat + 1) % 32768) }))
      else d
    (w, d)

/-- The word a read returns to its reader. -/
def giveRead (w : Word) (d : Dev) : Dev := hif d (fun h => { h with readData := h.readData ++ [w] })

/-- A read by an interface. -/
def regRead (d : Dev) (v : Via) (addr : Nat) : Dev :=
  match v with
  | .pcie | .spi => if pdOn d 2 then let r := windowRead d v addr; giveRead r.1 r.2 else d
  | .bar2 => giveRead (msixWord d addr) d
  | .ctrl => let r := deviceRead d v addr; giveRead r.1 r.2

end Sys2Proof.Machine
end

