-- ==== Sys2Proof/Machine/HostCmd.lean ====
section
/-! DEFINITION. The register accesses of the host and of the control processor, and the events of the host interfaces
(chapter 15). -/

namespace Sys2Proof.Machine

/-- A write of all four bytes at an offset of mailbox channel ch. -/
def mbxReg (via : Via) (ch o : Nat) (v : Word) (d : Dev) : Dev :=
  match via with
  | .bar2 => d
  | .ctrl => deviceWrite d (0x40001000 + 0x400 * ch + o) v 15
  | _ => regWrite d via (0x1000 + 0x400 * ch + o) v 15

/-- A write of all four bytes at a window offset by an interface. -/
def winReg (via : Via) (o : Nat) (v : Word) (d : Dev) : Dev :=
  match via with
  | .bar2 => d
  | .ctrl => deviceWrite d (0x40000000 + o) v 15
  | _ => regWrite d via o v 15

/-- A read of a window offset by an interface. -/
def winRead (via : Via) (o : Nat) (d : Dev) : Dev :=
  match via with
  | .bar2 => d
  | .ctrl => regRead d .ctrl (0x40000000 + o)
  | _ => regRead d via o

/-- IN_POST (R413). -/
def execInPost (via : Via) (ch : Fin 8) (v : Word) (s : State) : Host.Outcome State Fault Refusal := run (mbxReg via ch.val 0x88 v) s
/-- OUT_POP (R415). -/
def execOutPop (via : Via) (ch : Fin 8) (v : Word) (s : State) : Host.Outcome State Fault Refusal := run (mbxReg via ch.val 0x8C v) s
/-- SENDER_RESET (R416). -/
def execSenderReset (via : Via) (ch : Fin 8) (v : Word) (s : State) : Host.Outcome State Fault Refusal := run (mbxReg via ch.val 0x80 v) s
/-- MBX_IRQ_WRITE (R412). -/
def execMbxIrqWrite (via : Via) (ch : Fin 8) (v : Word) (s : State) : Host.Outcome State Fault Refusal := run (mbxReg via ch.val 0x90 v) s

/-- WARM_RESET: a keyed write of HIF_RESET bit 0 (R406). -/
def execWarmReset (via : Via) (v : Word) (s : State) : Host.Outcome State Fault Refusal := run (winReg via 0x14 (v ||| 1)) s
/-- CTRL_RESTART: a keyed write of HIF_RESET bit 1 (R417). -/
def execCtrlRestart (via : Via) (v : Word) (s : State) : Host.Outcome State Fault Refusal := run (winReg via 0x14 ((v &&& 0xFFFFFFFE) ||| 2)) s
/-- HIF_IRQ_STATUS_WRITE (R406). -/
def execHifIrqStatusWrite (via : Via) (v : Word) (s : State) : Host.Outcome State Fault Refusal := run (winReg via 0x18 v) s
/-- HIF_FAULT_WRITE (R406). -/
def execHifFaultWrite (via : Via) (v : Word) (s : State) : Host.Outcome State Fault Refusal := run (winReg via 0x34 v) s
/-- MSI_X_UNMASK (R408). -/
def execMsiXUnmask (vector : Fin 16) (s : State) : Host.Outcome State Fault Refusal := run (fun d => msixMaskWrite d vector.val false) s
/-- DBL_H2D_SET (R419). -/
def execDblH2dSet (via : Via) (v : Word) (s : State) : Host.Outcome State Fault Refusal := run (winReg via 0x3000 v) s
/-- DBL_D2H_WRITE (R419). -/
def execDblD2hWrite (via : Via) (v : Word) (s : State) : Host.Outcome State Fault Refusal := run (winReg via 0x3008 v) s

/-- TIME_SNAPSHOT: a write of SNAP (R50, R420); the operand says how far each domain is past its last boundary. -/
def execTimeSnapshot (via : Via) (now : Elapsed) (s : State) : Host.Outcome State Fault Refusal :=
  run (fun d => if via == .bar2 then d else if pdOn d 1 && pdOn d 2 then timeMod d (fun t => { t with snap := snapshotOf d now }) else d) s
/-- TIME_IRQ_WRITE (R420). -/
def execTimeIrqWrite (via : Via) (v : Word) (s : State) : Host.Outcome State Fault Refusal := run (winReg via 0x5040 v) s

/-- CAP_W3_READ (R420). -/
def execCapW3Read (via : Via) (i : Fin 4) (s : State) : Host.Outcome State Fault Refusal := run (winRead via (0x510C + 0x20 * i.val)) s
/-- SENSE_BUTTON_READ (R260). -/
def execSenseButtonRead (via : Via) (s : State) : Host.Outcome State Fault Refusal := run (winRead via 0x70D4) s
/-- GR_HOLD_READ (R185): a register of the dynamics engine, which only the control processor reads. -/
def execGrHoldRead (column : Nat) (s : State) : Host.Outcome State Fault Refusal :=
  run (fun d => if column < 640 then regRead d .ctrl (0x40040C00 + 4 * column) else d) s
/-- COMP_LO_READ (R307). -/
def execCompLoRead (s : State) : Host.Outcome State Fault Refusal := run (fun d => regRead d .ctrl 0x40090100) s
/-- DESC_DATA_ACCESS (R307). -/
def execDescDataAccess (write : Option Word) (s : State) : Host.Outcome State Fault Refusal :=
  run (fun d => match write with
    | some v => deviceWrite d 0x40090204 v 15
    | none => regRead d .ctrl 0x40090204) s
/-- NET_STATUS_READ (R370). -/
def execNetStatusRead (via : Via) (port : Fin 4) (s : State) : Host.Outcome State Fault Refusal := run (winRead via (0x6104 + 0x400 * port.val)) s
/-- HALF_RX_READ (R370). -/
def execHalfRxRead (via : Via) (port : Fin 4) (s : State) : Host.Outcome State Fault Refusal := run (winRead via (0x6110 + 0x400 * port.val)) s
/-- HALF_TX_READ (R370). -/
def execHalfTxRead (via : Via) (port : Fin 4) (s : State) : Host.Outcome State Fault Refusal := run (winRead via (0x6114 + 0x400 * port.val)) s

/-- RING_TAIL_WRITE (R367). -/
def execRingTailWrite (via : Via) (ring : Fin 8) (v : Word) (s : State) : Host.Outcome State Fault Refusal := run (winReg via (0x4814 + 0x40 * ring.val) v) s
/-- RING_CTRL_WRITE (R367). -/
def execRingCtrlWrite (via : Via) (ring : Fin 8) (v : Word) (s : State) : Host.Outcome State Fault Refusal := run (winReg via (0x480C + 0x40 * ring.val) v) s
/-- TDM_MASK_ARM (R322, R334): written by the control processor. -/
def execTdmMaskArm (port : Fin 8) (v : Word) (s : State) : Host.Outcome State Fault Refusal :=
  run (fun d => deviceWrite d (0x400505E0 + 4 * port.val) (v ||| 1) 15) s

/-- A register of DMA channel n: the host reaches DMA0–DMA7, the control processor every channel (R469, R470). -/
def dmaReg (via : Via) (n o : Nat) (v : Word) (d : Dev) : Dev :=
  match via with
  | .ctrl => deviceWrite d (0x40080000 + 0x100 * n + o) v 15
  | _ => if n < 8 then winReg via (0x4000 + 0x100 * n + o) v d else d

/-- DMA_CMD_START (R455). -/
def execDmaCmdStart (via : Via) (ch : Fin 32) (s : State) : Host.Outcome State Fault Refusal := run (dmaReg via ch.val 0 1) s
/-- DMA_CMD_ABORT (R455). -/
def execDmaCmdAbort (via : Via) (ch : Fin 32) (s : State) : Host.Outcome State Fault Refusal := run (dmaReg via ch.val 0 2) s
/-- DMA_CMD_PAUSE (R455). -/
def execDmaCmdPause (via : Via) (ch : Fin 32) (s : State) : Host.Outcome State Fault Refusal := run (dmaReg via ch.val 0 4) s
/-- DMA_CMD_RESUME (R455). -/
def execDmaCmdResume (via : Via) (ch : Fin 32) (s : State) : Host.Outcome State Fault Refusal := run (dmaReg via ch.val 0 8) s
/-- DMA_IRQ_WRITE (R469). -/
def execDmaIrqWrite (via : Via) (ch : Fin 32) (v : Word) (s : State) : Host.Outcome State Fault Refusal := run (dmaReg via ch.val 0x3C v) s
/-- CQ_TAIL_WRITE (R455, R469). -/
def execCqTailWrite (via : Via) (ch : Fin 32) (v : Word) (s : State) : Host.Outcome State Fault Refusal := run (dmaReg via ch.val 0x20 v) s

/-- REGISTER_WRITE (R19, R405). -/
def execRegisterWrite (via : Via) (addr : Word) (v : Word) (be : BitVec 4) (s : State) : Host.Outcome State Fault Refusal :=
  run (fun d => regWrite d via addr.toNat v be) s

/-! The SPI and I²C targets (R403, R404). -/

/-- Words of a SPI write, in order; an incomplete word is discarded. -/
def spiWrites : Nat → Nat → List Byte → Dev → Dev
  | 0, _, _, d => d
  | n + 1, a, bs, d => if bs.length < 4 then d else spiWrites n ((a + 4) % 65536) (bs.drop 4) (regWrite d .spi a (BitVec.ofNat 32 (u32 bs 0)) 15)

/-- Words of a SPI read. -/
def spiReads : Nat → Nat → Dev → Dev
  | 0, _, d => d
  | n + 1, a, d => spiReads n ((a + 4) % 65536) (regRead d .spi a)

/-- SPI_TRANSACTION (R403): a reserved bit of the command byte or an offset that is not a multiple of 4 makes the whole
transaction ignored and counted. -/
def execSpiTransaction (t : SpiIn) (s : State) : Host.Outcome State Fault Refusal :=
  run (fun d =>
    if !pdOn d 2 then d
    else if t.cmd &&& 0x3F ≠ 0 ∨ t.addr.toNat % 4 ≠ 0 then accessErr d
    else if t.cmd.getLsbD 7 then spiWrites (t.data.length / 4) t.addr.toNat t.data d
    else spiReads t.words t.addr.toNat d) s

/-- Offsets the I²C target reads (R401). -/
def i2cRange (a : Nat) : Bool := decide (a < 0x30) || (decide (0x7000 ≤ a) && decide (a < 0x7100))

/-- Bytes of an I²C read (R404): byte 0 of a register latches it; a byte of a register that is not latched is a free value
(log entry 3). -/
def i2cBytes : Nat → Nat → Dev → Dev
  | 0, _, d => d
  | n + 1, a, d =>
    let d' : Dev :=
      if !i2cRange a then giveRead 0 d
      else
        let reg := a / 4 * 4
        let d := if a % 4 = 0 then hif d (fun h => { h with i2cLatch := some (reg, windowWord d .pcie reg) }) else d
        match d.hif.i2cLatch with
        | some (r, w) => if r = reg then giveRead ((w >>> (8 * (a % 4))) &&& 0xFF) d
            else (let f := takeFree d; giveRead (f.1.setWidth 32 &&& 0xFF) f.2)
        | none => let f := takeFree d; giveRead (f.1.setWidth 32 &&& 0xFF) f.2
    i2cBytes n ((a + 1) % 65536) d'

/-- I2C_READ (R404): the target runs while PD_HIF and PD_SENSE are up; no RC register is cleared. -/
def execI2cRead (off : Half) (n : Nat) (s : State) : Host.Outcome State Fault Refusal :=
  run (fun d => if pdOn d 2 && pdOn d 15 then i2cBytes n off.toNat d else d) s

/-! Resets of the PCIe endpoint (R402, R468) and faults of the control processor (R417). -/

/-- The effects of R402: host-owned DMA channels aborted without a record and their registers reset, host rings stopped,
sender epochs of the PCIe channels up, HIF_IRQ_ENABLE and DBL_D2H_EN clear. -/
def pcieResetOp (d : Dev) : Dev :=
  let d := (List.range 8).foldl (fun d n => dmaMod d n (fun _ => { state := .aborted })) d
  let d := (List.range 8).foldl (fun d r => ringMod d r (fun x => { x with ctrl := x.ctrl &&& 0xFFFFFFFE, dropping := false, stalled := false })) d
  let d := [0, 1, 2, 3, 6, 7].foldl newSenderEpoch d
  hif d (fun h => { h with irqEn := 0, dblD2HEn := 0 })

/-- PCIE_RESET: a hot reset, a link-down reset or an FLR (R402). -/
def execPcieReset (s : State) : Host.Outcome State Fault Refusal := run (fun d => onlyIf (pdOn d 2) pcieResetOp d) s
/-- PERST_N: also the endpoint's configuration space and tables return to their defaults (R493). -/
def execPerstN (s : State) : Host.Outcome State Fault Refusal :=
  run (fun d => onlyIf (pdOn d 2) (fun d => hif (pcieResetOp d) (fun h => { h with msixMask := 0xFFFF, msixPend := 0, msixTable := [] })) d) s
/-- CONTROL_PROCESSOR_FAULT with the cause of R418 (1 lockstep, 3 firmware exception, 4 SRAM error). -/
def execControlProcessorFault (cause : Nat) (s : State) : Host.Outcome State Fault Refusal := run (fun d => controlFault d cause) s
/-- WATCHDOG: a control-plane restart with cause 2 (R493). -/
def execWatchdog (s : State) : Host.Outcome State Fault Refusal := run (fun d => controlFault d 2) s

end Sys2Proof.Machine
end

