-- ==== Sys2Proof/Machine/Request.lean ====
section
/-! DEFINITION. How a Hatre request is taken, judged and answered (R424, R426–R434, R441) and, on a pair, ticketed
(R377–R379). -/

namespace Sys2Proof.Machine

/-- A request as taken: under its session's version, the channel's epoch and the mode in force. -/
def takenOf (d : Dev) (op : Op) (r : Req) (epoch : Byte) : Taken :=
  let s := getSession d r.ch.val
  { op := op, req := r, epoch := epoch, major := if s.isOpen then s.major else 3, minor := if s.isOpen then s.minor else 4, mode := mode d }

/-- An opcode that a version lacks (R432). -/
def verLacks (o : Op) (major minor : Nat) : Bool :=
  let hi := opCode o / 256
  (major == 2 && (hi == 0x0C || hi == 0x0D)) || ((o == .taskCancel || o == .outLatencyGet) && (major == 2 || minor < 1))

/-- Opcodes of the reduced protocol of SAFE (R422). -/
def safeOp (o : Op) : Bool := opCode o / 256 == 0 || o == .telemetryGet || o == .logRead || opCode o / 256 == 0x0E

/-! Pairs (R377). -/

/-- A request that reads: its action byte says so. -/
def readAction (o : Op) (p : List Byte) : Bool :=
  match o with
  | .domainCfg => u8 p 1 == 4
  | .seamCfg => u8 p 2 == 1
  | .haloCfg => u8 p 0 == 2
  | .dynCfg => u8 p 2 == 1
  | .portCfg => u8 p 2 == 1 || u8 p 2 == 3
  | .alignGroup => u8 p 1 == 1
  | .objQuery | .firStatus | .calResult => true
  | _ => false

/-- Opcodes that are pair-wide (R377). -/
def pairWideOp (o : Op) : Bool :=
  match o with
  | .domainCfg | .layoutBegin | .layoutSpk | .layoutCommit | .objCfg | .objUpdate | .objUpdateBatch | .objQuery | .routeSet | .busCfg
  | .matrixDirect | .chainCfg | .eqSet | .delaySet | .dynCfg | .outGain | .outMute | .firLoad | .firCommit | .firStatus | .haloCfg
  | .seamCfg | .calStart | .portCfg | .slotMask | .alignGroup | .flowRxCfg | .flowTxCfg | .graphLoad | .graphStart | .graphStop
  | .taskCancel | .modeSet => true
  | _ => false

def pairWide (o : Op) (p : List Byte) : Bool := pairWideOp o && !readAction o p

/-- Requests whose effect on the metadata or direct queue is ticketed by hardware (R381), not as a command. -/
def queueOp (o : Op) : Bool := o == .objUpdate || o == .objUpdateBatch || o == .routeSet || o == .matrixDirect

def isFollower (d : Dev) : Bool :=
  mode d == .twin && (d.twin.state == .resync || d.twin.state == .verify || d.twin.state == .synced || d.twin.state == .isolated)
/-- A follower whose domains and port inputs are the leader's (R382, R384). -/
def slaved (d : Dev) : Bool :=
  mode d == .twin && (d.twin.state == .resync || d.twin.state == .verify || d.twin.state == .synced)
/-- A leader whose partner is on the link issues tickets (R378, R393). -/
def isLeader (d : Dev) : Bool := mode d == .twin && d.twin.state == .leader

/-- The heartbeat domain (R391): the lowest that is LOCKED or HOLDOVER. -/
def hbDom (d : Dev) : Option Nat := (List.range 3).find? (fun n => domRuns (getDom d n).state)

/-- The domain at whose boundaries a ticket is applied: the request's own, or where that does not run the heartbeat domain. -/
def ticketDom (d : Dev) (dom : Nat) : Nat := if domRuns (getDom d dom).state then dom else (hbDom d).getD dom

/-- A ticket enters the ledger of those still to be applied; where no domain runs it is applied at once. -/
def ledgerAdd (d : Dev) (no : Word) (dom : Nat) (st : MT) : Dev :=
  twinMod d (fun t => if domRuns (getDom d dom).state then { t with ledger := t.ledger ++ [(no, dom, st)] } else { t with applied := no })

/-- A ticket put on the link: its number, and the number kept until the partner acknowledges it. -/
def sendTicket (d : Dev) (kind queue dom : Nat) (st : MT) (taken : Option Taken) (rest : List Byte) : Dev :=
  let no := d.twin.nextTicket
  let d := twinMod d (fun t => { t with nextTicket := no + 1, issued := t.issued ++ [{ no := no, taken := taken }] })
  linkSend (ledgerAdd d no dom st) 1 (p32 no.toNat ++ p8 kind ++ p8 queue ++ p8 dom ++ zeros 1 ++ p32 st.toNat ++ rest)

/-- A command ticket of an accepted pair-wide request (R375 kind 3, R378). -/
def commandTicket (d : Dev) (t : Taken) (dom : Nat) (bulk : Option (List Byte)) (works : Bool := false) : Dev :=
  if isLeader d && pairWide t.op t.req.payload && !queueOp t.op && t.req.ch.val != 5 then
    let n := ticketDom d dom
    sendTicket (if works then twinMod d (fun x => { x with working := x.working ++ [(t, x.nextTicket)] }) else d) 3 0 n (selBoundary d n) (some t)
      (p16 (opCode t.op) ++ p16 t.req.payload.length ++ t.req.payload ++ bulk.getD [])
  else d

/-- The second ticket of R380: the work of a ticketed request is complete, and takes effect at the boundaries given by domain
(0 where a domain is not concerned). -/
def completionTicket (d : Dev) (t : Taken) (mts : List MT) : Dev :=
  match d.twin.working.find? (fun w => w.1 == t) with
  | some w =>
    let d := twinMod d (fun x => { x with working := x.working.filter (fun y => y.1 != t) })
    let n := ticketDom d 0
    if isLeader d then sendTicket d 4 0 n (selBoundary d n) (some t) (p32 w.2.toNat ++ (List.range 3).flatMap (fun n => p32 (mts.getD n 0).toNat)) else d
  | none => d

/-! The checks before a request's own rules. -/

/-- The first check that fails (R424 steps 4 and 5, R422, R441, R377, R378). -/
def gate (d : Dev) (t : Taken) : Option Status :=
  let s := getSession d t.req.ch.val
  if !s.isOpen && !(t.op == .hello || t.op == .version) then some .denied
  else if s.isOpen && verLacks t.op s.major s.minor then some .version
  else if mode d == .safe && !safeOp t.op then some .badMode
  else if t.req.bulk && t.req.ch.val == 4 then some .denied
  else if isFollower d && pairWide t.op t.req.payload && t.req.ch.val != 5 then some .denied
  else if isLeader d && pairWide t.op t.req.payload && d.twin.partnerRestarting then some .busy
  else none

/-! What a judgement leads to. -/

/-- The judgement carried out (R426, R428, R35, R441). -/
def finish (d : Dev) (t : Taken) (bulk : Option (List Byte)) (a : Ans) : Dev :=
  match a with
  | .now st body b =>
    let d := if st == .ok || st == .late then commandTicket d t 0 bulk else d
    reply d t st body b
  | .commit dom =>
    let dom := effDom d dom
    let d' := commandTicket d t dom bulk
    fw d' (fun f => { f with commits := f.commits ++ [{ taken := t, dom := dom, st := if mode d == .twin then some (selBoundary d dom) else none }] })
  | .wait w => fw (commandTicket d t 0 bulk true) (fun f => { f with waits := f.waits ++ [{ taken := t, what := w }] })
  | .fetch addr len crc => fw d (fun f => { f with bulks := f.bulks ++ [{ taken := t, addr := addr, len := len, crc := crc }] })
  | .done => commandTicket d t 0 bulk true

/-- A request judged by its rule and carried out. -/
def judgeReq (j : Judge1) (d : Dev) (t : Taken) (bulk : Option (List Byte)) : Dev :=
  match gate d t with
  | some st => reply d t st []
  | none => let r := j d t bulk; finish r.1 t bulk r.2

/-- A request row on the device: taken while firmware takes cells. -/
def takeReq (op : Op) (j : Judge1) (r : Req) (d : Dev) : Dev :=
  if takesCells d then judgeReq j d (takenOf d op r (getMbx d r.ch.val).epoch) none else d

/-- A request row whose opcode has several rows: `others` holds, at byte i of the payload, for the actions of the others. -/
def reqRow (op : Op) (i : Nat) (others : List Nat) (j : Judge1) (r : Req) (s : State) : Host.Outcome State Fault Refusal :=
  if i < r.payload.length ∧ others.contains (u8 r.payload i) then .fault .otherRow else run (takeReq op j r) s

/-- A request row whose opcode is its own. -/
def reqRow1 (op : Op) (j : Judge1) (r : Req) (s : State) : Host.Outcome State Fault Refusal := run (takeReq op j r) s

/-! Small checks that every rule uses. -/

/-- The mode a request is judged under, FACTORY as CONFIG. -/
def tMode (t : Taken) : Mode := asMode t.mode
def inModes (t : Taken) (ms : List Mode) : Bool := ms.contains (tMode t)
/-- CONFIG applies at once (R521). -/
def atOnceMode (t : Taken) : Bool := tMode t == .config
/-- The payload's length reaches n. -/
def longEnough (t : Taken) (n : Nat) : Bool := decide (n ≤ t.req.payload.length)

/-- How a shadow commit takes effect: at a boundary of its domain, or at once in CONFIG (none); status and reply body. -/
abbrev Apply1 := Dev → Taken → Option MT → Dev × Status × List Byte

/-- An accepted change: applied at once in CONFIG (R521), otherwise a shadow commit of the domain (R35). -/
def commitOr (d : Dev) (t : Taken) (dom : Nat) (f : Apply1) : Dev × Ans :=
  if atOnceMode t then let r := f d t none; (r.1, .now r.2.1 r.2.2) else (d, .commit dom)

/-- The reply body that most shadow commits share: 3 reserved bytes and the MT of the boundary, 0 where at once. -/
def mtBody (b : Option MT) : List Byte := zeros 3 ++ p32 (b.getD 0).toNat

/-- A region to fetch: BULK set, address and length in range (R441). -/
def needFetch (d : Dev) (t : Taken) (o : Nat) : Dev × Ans :=
  let r := bulkRef t.req.payload o
  if !t.req.bulk || !bulkOk r then bad d else (d, .fetch r.1 r.2.1 r.2.2)

end Sys2Proof.Machine
end

