-- ==== Sys2Proof/Machine/Sources.lean ====
section
/-! DEFINITION. The sources of SEAM_CFG, PORT_CFG, FLOW_TX_CFG and OBJ_CFG: ranges and the domain a source is bound to
(R82, R226, R310, R331). -/

namespace Sys2Proof.Machine

/-- A source's index and channel are in range and in the grade (R226, R331). -/
def srcRange (s : Src) : Bool :=
  match s.kind with
  | 1 => decide (s.index < 256) && decide (s.chan < 64)
  | 2 => decide (s.index < 16) && decide (s.chan < 2)
  | 3 => decide (s.index < 8) && decide (s.chan < 32)
  | 4 => chainCol s.index && s.chan == 0
  | 5 => decide (s.index < 2) && s.chan == 0
  | 6 => decide (s.index < 1024) && s.chan == 0
  | 7 => decide (s.index < 8) && s.chan == 0
  | 8 => decide (s.index < 256) && s.chan == 0
  | _ => false

/-- The domain a source of R226 and R331 is bound to: that of an enabled flow, port, microphone or bridge output, of a
bound column, of HALO, of a declared tile port. -/
def srcDom (d : Dev) (s : Src) : Option Nat :=
  let on (e : Bool) (n : Nat) : Option Nat := if e then some (effDom d n) else none
  match s.kind with
  | 1 => let c := (tabGet d.net.rxFlows s.index).cfg; on (c.enable && !c.metadata) c.domain
  | 2 => let c := (tabGet d.ports.aesRx s.index).cfg; on c.enable c.domain
  | 3 => let c := (tabGet d.ports.tdm s.index).cfg; on c.enable c.domain
  | 4 => let b := (getCol d.scene s.index).bind; on (b.mode != 0) b.dom
  | 5 => haloDom d
  | 6 => (portSlotDom d.tiles.sched s.index).map (effDom d)
  | 7 => let c := (tabGet d.mics.mic s.index).cfg; on c.enable c.domain
  | 8 => let c := (tabGet d.seam.br s.index).cfg; on c.enable c.outDom
  | _ => none

/-- OBJ_CFG numbers its sources apart from the rest (R82): 4 is a bridge output and 5 a tile port. -/
def objSrc (s : Src) : Src :=
  { s with kind := if s.kind = 4 then 8 else if s.kind = 5 then 6 else s.kind }

/-- A source entry of R331 at o. -/
def srcEntry (p : List Byte) (o : Nat) : Src := { kind := u8 p o, chan := u8 p (o + 1), index := u16 p (o + 2) }

/-- A source entry that a transmit channel of domain n may take: none, or bound to that domain. -/
def srcFits (d : Dev) (n : Nat) (s : Src) : Bool :=
  s.kind == 0 || (srcRange s && srcDom d s == some (effDom d n))

/-- Two sources name the same thing, object numbering taken apart. -/
def sameSrc (a b : Src) : Bool := a.kind == b.kind && a.index == b.index && a.chan == b.chan

end Sys2Proof.Machine
end

