-- ==== Sys2Proof/Machine/Modes.lean ====
section
/-! DEFINITION. Domain states and their reports (R60, R65, R73), and what a mode transition does at its acceptance
(R75–R77, R250, R393, R480). -/

namespace Sys2Proof.Machine

def single (d : Dev) : Bool := pathMode d == .singleRate

/-! Domain states. -/

/-- MT is valid while the domain counts it (R50, R65): running, or in the closing period. -/
def mtRuns (x : Domain) : Bool := domRuns x.state || (x.closing.map (·.counts)) == some true

/-- Byte 3 of the DOMAIN_CFG reply (R65). -/
def domFlags (x : Domain) : Nat :=
  b2n x.realignPending + 2 * b2n x.holdoverExpired + 4 * b2n x.slewing + 8 * b2n x.acquireTimeout + 16 * b2n (mtRuns x)

/-- A domain in a new state: the flags that clear with it (R60, R63), and the word-clock output, which is low outside LOCKED and HOLDOVER
(R68). -/
def domEnter (x : Domain) (new : DomState) : Domain :=
  let waits := new == .holdover || new == .acquire
  { x with
    state := new, slewing := x.slewing && new == .locked, acquireTimeout := x.acquireTimeout && new == .acquire
    realignPending := x.realignPending && waits, holdoverExpired := x.holdoverExpired && waits, wcRuns := x.wcRuns && domRuns new }

/-- A domain's state changes and the change is reported (R60, R73). -/
def domState (d : Dev) (n : Nat) (new : DomState) (mt : MT) (dt : DT) : Dev :=
  let old := (getDom d n).state
  let d := domMod d n (fun x => domEnter x new)
  if new = old then d else evPortClock d 0 n (domCode new) (domCode old) (domFlags (getDom d n)) mt dt

/-- Whether the reference of a domain with this configuration is valid (R60). -/
def refValid (d : Dev) (n : Nat) (c : DomCfg) : Bool :=
  if c.source = 0 then true
  else if c.source = 1 then d.time.ptp.state == .synced || d.time.ptp.state == .grandmaster
  else tabGet d.time.wcPresent n

/-- START of a stopped domain: to ACQUIRE (R60). -/
def domStart (d : Dev) (n : Nat) (c : DomCfg) : Dev :=
  let d := domMod d n (fun x =>
    { x with
      cfg := c, started := true, within := 0, acquireTimeout := false, nextCfg := none, stopReq := false, realignReq := false, relock := false
      validSince := if refValid d n c then some (now d) else none })
  domState d n .acquire 0 (now d)

/-- A configuration that governs a domain as if START had been issued (R75): a stopped domain starts; a running one changes
its reference at its next boundary, or realigns there where its rate changes. -/
def domFollow (d : Dev) (n : Nat) (c : DomCfg) : Dev :=
  let x := getDom d n
  if x.state = .stopped then domStart d n c
  else if !domRuns x.state && x.closing.isNone then
    domMod d n (fun x => { x with cfg := c, within := 0, validSince := if refValid d n c then some (now d) else none, started := true })
  else domMod d n (fun x =>
    { x with nextCfg := some c, realignReq := x.realignReq || (domRuns x.state && c.rate != x.cfg.rate), started := true, stopReq := false })

def domClearFlags (x : Domain) : Domain := { x with realignPending := false, holdoverExpired := false, slewing := false, acquireTimeout := false, within := 0 }

/-- Queues of a stopped domain (R99). -/
def stopQueues (d : Dev) (n : Nat) : Dev := sceneMod d (fun s => discardQueued s (fun _ k => k == n))

/-- STOP of a domain that has no boundary to come: its sample state is cleared at once. -/
def stopNow (d : Dev) (n : Nat) : Dev :=
  let d := stopQueues (domMod d n (fun x => { domClearFlags x with started := false, stopReq := false, realignReq := false, nextCfg := none, validSince := none })) n
  let d := if (getDom d n).closing.isSome then d else stageClear d n
  domState d n .stopped 0 (now d)

/-- A domain realigns and has boundaries of its closing period to come. -/
def realignCounts (d : Dev) (n : Nat) : Bool :=
  let x := getDom d n
  x.state == .realign && (x.closing.map (fun c => c.counts && !mtGe x.mt (c.b + 32))) == some true

/-- A STOP that no request waits for (R75): at the next boundary, where one is to come. -/
def stopSoon (d : Dev) (n : Nat) : Dev :=
  if domRuns (getDom d n).state || realignCounts d n then domMod d n (fun x => { x with stopReq := true })
  else if (getDom d n).state = .stopped then d else stopNow d n

/-! SINGLE_RATE (R75, R76). -/

/-- The reference D0 takes (R75): PTP, WCIN0 at 48 kHz, INTERNAL.  The model's WCIN0 is judged at D0's settings; it counts as
48 kHz where those give it 48,000 Hz or the base rate of that family. -/
def singleSource (d : Dev) : Nat :=
  let c := (getDom d 0).cfg
  let wcRate := if bit c.flags.toNat 1 then (if c.rate % 44100 = 0 then 44100 else 48000) else c.rate
  if d.time.ptp.state == .synced || d.time.ptp.state == .grandmaster then 1
  else if tabGet d.time.wcPresent 0 && wcRate == 48000 then 2 else 0

/-- The input channels SINGLE_RATE bridges, in the order of R76: kind, index, channel. -/
def singleInputs (d : Dev) : List Src :=
  (List.range 16).flatMap (fun i => [{ kind := 2, index := i, chan := 0 }, { kind := 2, index := i, chan := 1 }]) ++
  (List.range 8).flatMap (fun n => let c := (tabGet d.ports.tdm n).cfg
    if c.enable then ((List.range c.slots).filter (tabGet d.ports.tdm n).rxMask.getLsbD).map (fun s => { kind := 3, index := n, chan := s }) else []) ++
  (List.range 256).flatMap (fun n => let c := (tabGet d.net.rxFlows n).cfg
    if c.enable && !c.metadata then (List.range c.channels).map (fun s => { kind := 1, index := n, chan := s }) else [])

/-- The assignment of the 256 bridges (R76); bridges past the inputs are unused. -/
def singleCfg (ins : List Src) (b : Nat) : SeamCfg :=
  match ins[b]? with
  | some s => { enable := true, kind := s.kind, outDom := 0, index := s.index, chan := s.chan }
  | none => {}

/-- The bridge that serves an input channel in SINGLE_RATE; none where it is unbridged. -/
def singleBridge (d : Dev) (s : Src) : Option Nat := ((singleInputs d).take 256).findIdx? (fun x => sameSrc x s)

/-- The bridges take their assignment; one whose assignment changes passes through WAIT, and each further input that falls past BR255 is
counted. -/
def singleAssign (d : Dev) : Dev :=
  let ins := singleInputs d
  let k := mtOf d 0 + 16
  let ovr := ins.length - 256
  let d := fw d (fun f => { f with srUnbridged := f.srUnbridged + BitVec.ofNat 32 (ovr - d.seam.unbridged) })
  { d with seam := { d.seam with unbridged := ovr, br := (List.range 256).foldl (fun t b =>
      let c := singleCfg ins b
      if (tabGet t b).cfg = c then t else tabMod t b (fun x => bridgeSet x c false k)) d.seam.br } }

/-- The assignment follows the inputs that are enabled, a slot mask's copy among them. -/
def singleRefresh (d : Dev) : Dev :=
  let ins := singleInputs d
  if (List.range 256).all (fun b => decide ((tabGet d.seam.br b).cfg = singleCfg ins b)) && d.seam.unbridged == ins.length - 256 then d else singleAssign d

/-- A microphone whose stored domain is not the one it is rendered in moves to that domain: it passes through WAIT (R77, R235). -/
def micRehome (m : Mic) : Mic :=
  if m.cfg.enable && m.cfg.domain != 0 then { micBare m with dec := m.dec, ring := m.ring } else m

/-- Entry to SINGLE_RATE (R75–R77). -/
def enterSingle (d : Dev) : Dev :=
  let d := (List.range 3).foldl (fun d n => domMod d n (fun x => { x with stored := some (x.stored.getD x.cfg) })) d
  let d := stopSoon (stopSoon d 1) 2
  let x := getDom d 0
  let c := { x.cfg with source := singleSource d, rate := 48000, flags := x.cfg.flags ||| 1 }
  let d := if c.source = x.cfg.source ∧ c.rate = x.cfg.rate ∧ x.state ≠ .stopped then domMod d 0 (fun x => { x with cfg := c }) else domFollow d 0 c
  let d := singleAssign { d with seam := { d.seam with stored := d.seam.br.map (fun kv => (kv.1, kv.2.cfg)), unbridged := 0 },
                                 mics := { d.mics with mic := d.mics.mic.map (fun kv => (kv.1, micRehome kv.2)) } }
  if d.seam.unbridged = 0 then d else evFault d 6 0 0 0xFF 0 d.seam.unbridged 0 0

/-- The stored configurations of domains apply (R75). -/
def applyStored (d : Dev) : Dev :=
  (List.range 3).foldl (fun d n => match (getDom d n).stored with
    | some c => domFollow (domMod d n (fun x => { x with stored := none })) n c
    | none => d) d

/-- A locked receiver locks anew against its domain, from LOCKING (R335). -/
def aesRelock (d : Dev) (i : Nat) : Dev :=
  let r := tabGet d.ports.aesRx i
  if r.state != .locked then d else
  let r' := { r with state := .locking, gate := slipStart r.gate r.outA.next r.good, frames := 0, seenZ := false, sinceZ := 0 }
  evPortClock (portsMod d (fun p => { p with aesRx := tabSet p.aesRx i r' })) 2 i (aesCode .locking) (aesCode .locked) 0 0 (now d)

/-- SINGLE_RATE left: host-configured bridges and microphones take their stored configurations (R227, R236). -/
def leaveSingle (d : Dev) : Dev :=
  let k := mtOf d 0 + 16
  let br := (List.range 256).foldl (fun t b =>
    let c := tabGet d.seam.stored b
    if (tabGet t b).cfg = c then t else tabMod t b (fun x => bridgeSet x c false k)) d.seam.br
  let d : Dev := { d with seam := { d.seam with br := br, stored := [] }, mics := { d.mics with mic := d.mics.mic.map (fun kv => (kv.1, micRehome kv.2)) } }
  let d := (List.range 16).foldl aesRelock d
  sceneMod d (fun s => discardQueued s (fun o k => k == 0 && (getObj s o).domain != 0))

/-! Calibration (R250). -/

/-- EV_CAL_DONE. -/
def evCalDone (d : Dev) (st : Status) (measured : Nat) (mt : MT) (disturbed : Nat) : Dev :=
  event d 6 (p8 (statusByte st) ++ zeros 1 ++ p16 measured ++ p32 mt.toNat ++ p16 disturbed ++ zeros 2)

/-- EV_CAL_DONE of a measurement that ended before its time. -/
def calReport (d : Dev) : Dev :=
  match d.cal.ended with
  | none => d
  | some q => evCalDone { d with cal := { d.cal with ended := none } } .cancelled q.1 q.2.1 q.2.2

def calAbort (d : Dev) : Dev := calReport (calStop d)

/-- References of the pairs captured replace the earlier ones (R251). -/
def calRefs (d : Dev) (r : CalRun) : Dev :=
  if r.aborted then d else { d with cal := { d.cal with refs := r.refs.foldl (fun t kv => tabSet t kv.1 kv.2) d.cal.refs } }

/-- CALIBRATE left: both stores are discarded, with what is still to be captured (R243). -/
def leaveCal (d : Dev) : Dev :=
  let d := calAbort d
  let d := match d.cal.tail with
    | some r => calRefs d r
    | none => d
  { d with cal := { d.cal with tail := none, resp := [], skipped := [] } }

/-! The pair (R393, R397). -/

/-- EV_TWIN. -/
def evTwin (d : Dev) (kind : Nat) (new old : PairState) (detail : Nat) (mt : MT) (groups : Nat) : Dev :=
  event d 5 (p8 kind ++ p8 (pairCode new) ++ p8 (pairCode old) ++ p8 detail ++ p32 mt.toNat ++ p32 groups ++ p64 (now d).toNat)

/-- The pair state changes and the change is reported under a kind of R397. -/
def pairEv (d : Dev) (kind : Nat) (new : PairState) (mt : MT) (groups : Nat) : Dev :=
  evTwin (twinMod d (fun t => { t with state := new })) kind new d.twin.state 0 mt groups

/-- The pair state changes and the change is reported. -/
def pairTo (d : Dev) (new : PairState) (mt : MT) : Dev :=
  if new = d.twin.state then d else pairEv d 0 new mt 0

/-- TWIN entered with ENABLE set: LINKING (R393). -/
def enterTwin (d : Dev) : Dev :=
  if !d.twin.cfg.enable then d else
  pairTo (twinMod d (fun t =>
    { t with
      linkCtrl := 7, helloSent := false, hello := none, handshake := false, unacked := [], parts := [], lost := false, markerMiss := 0, hbMissed := [], hbSeen := false, matched := 0
      tickets := [], ledger := [], sigs := [], sigPartner := [], markers := [], loops := [], portBlks := [], b0 := none,
      txStart := none, partnerStart := none, partner := 255, partnerRestarting := false })) .linking 0

/-- A domain whose references were the leader's takes its own (R382): LOCKED while the reference is valid, with what phase
error there is slewed; else HOLDOVER, at its next boundary. -/
def ownReferences (d : Dev) (mt : MT) : Dev :=
  (List.range 3).foldl (fun d n =>
    let x := getDom d n
    if !domRuns x.state then d
    else if refValid d n x.cfg then
      domState (domMod d n (fun x => { x with slewing := true, within := 0, refLost := false })) n .locked mt (now d)
    else domState (domMod d n (fun x => { x with slewing := false, within := 0, holdoverSince := now d })) n .holdover mt (now d)) d

/-- A device's own AES3 and TDM receive channels take over from the leader's, each as a slip (R384, R324). -/
def ownInputs (d : Dev) : Dev :=
  let d := (List.range 16).foldl (fun d i =>
    let r := tabGet d.ports.aesRx i
    if !r.cfg.enable || !slipCounts r.gate then d else
    let k := r.landed
    let d := portsMod d (fun p => { p with aesRx := tabMod p.aesRx i (fun r => { r with gate := slipStart r.gate k r.good, slips := r.slips + 1 }) })
    event d 3 (p8 0 ++ p8 i ++ zeros 1 ++ p8 (b2n (memberGroup d.ports 0 i).isSome) ++ p32 k.toNat ++ p32 (tabGet d.ports.aesRx i).slips.toNat)) d
  (List.range 8).foldl (fun d i =>
    let t := tabGet d.ports.tdm i
    if !t.cfg.enable || t.rxMask == 0 || !slipCounts t.gate then d else
    let k := t.landed
    let d := portsMod d (fun p => { p with tdm := tabMod p.tdm i (fun t => { t with gate := slipStart t.gate k t.goodR, slips := t.slips + 1 }) })
    event d 3 (p8 2 ++ p8 i ++ zeros 1 ++ p8 (b2n (memberGroup d.ports 2 i).isSome) ++ p32 k.toNat ++ p32 (tabGet d.ports.tdm i).slips.toNat)) d

/-- Replies that a lost partner can no longer acknowledge are given (R378). -/
def releaseIssued (d : Dev) : Dev :=
  let ms := d.twin.issued.filterMap (·.reply)
  ms.foldl queueMsg (twinMod d (fun t => { t with issued := [] }))

/-- TWIN left (R393, R480): the pair state is OFF, tickets stop. -/
def leaveTwin (d : Dev) : Dev :=
  let d := releaseIssued d
  let d := match d.twin.swap with
    | some w => reply (twinMod d (fun t => { t with swap := none })) w.1 .cancelled []
    | none => d
  let own := slaved d
  let d : Dev := if isFollower d && d.twin.state != .synced then
      { d with render := { d.render with mutes := (List.range 3).foldl (fun t n => tabSet t n (some {})) d.render.mutes } } else d
  let d := pairTo (twinMod d (fun t => { t with tickets := [], ledger := [], working := [], handshake := false, hello := none, helloSent := false })) .off 0
  ownInputs (if own then ownReferences d 0 else d)

/-! A transition begins (R480). -/

def beginMode (d : Dev) (target : Mode) (cause : Nat) (asked : Option Taken) : Dev :=
  let old := pathMode d
  let d := fw d (fun f => { f with changing := some { target := target, cause := cause, asked := asked } })
  let d : Dev := if target = .safe then { d with aon := { d.aon with safeReason := 8 } } else d
  let d := if old = .calibrate ∧ target ≠ .calibrate then leaveCal d else d
  let d := if old = .singleRate ∧ target ≠ .singleRate then leaveSingle d else d
  let d := if target = .service then applyStored d else d
  let d := if target = .singleRate ∧ old ≠ .singleRate then enterSingle d else d
  let d := if old = .twin ∧ target ≠ .twin then leaveTwin d else d
  let d := if target = .twin then enterTwin d else d
  powerPlan d

/-! The automatic entry to SAFE (R481, R501). -/

/-- A transition to SAFE begins and its reason is recorded; a MODE_SET in progress is answered CANCELLED.  One that is already
under way to SAFE by itself keeps its first reason; OFF, BOOT and SAFE are not left so. -/
def toSafe (d : Dev) (reason : Byte) : Dev :=
  let auto := (d.fw.changing.map (fun c => c.target == .safe && c.cause == 1)) == some true
  if auto || mode d == .safe || mode d == .boot || mode d == .off then d else
  let d := match d.fw.changing.bind (·.asked) with
    | some t => reply d t .cancelled []
    | none => d
  let d := beginMode d .safe 1 none
  { d with aon := { d.aon with safeReason := reason } }

end Sys2Proof.Machine
end

