-- ==== Sys2Proof/Machine/Session.lean ====
section
/-! DEFINITION. The session, system and firmware-update requests (chapter 16, R435–R448). -/

namespace Sys2Proof.Machine

/-! Session group. -/

/-- The version an offer is served as (R431). -/
def servedAs (major minor : Nat) : Option (Nat × Nat) :=
  if major = 3 then some (3, min minor 4) else if major = 2 then some (2, min minor 6) else none

def laterVer (a b : Nat × Nat) : Bool := decide (a.1 < b.1) || (a.1 == b.1 && decide (a.2 < b.2))

/-- The highest served version of the offers (R431). -/
def bestVer (p : List Byte) : Option (Nat × Nat) :=
  (List.range (u8 p 0)).foldl (fun (best : Option (Nat × Nat)) i =>
    match servedAs (u8 p (8 + 2 * i)) (u8 p (9 + 2 * i)), best with
    | some v, some b => if laterVer b v then some v else some b
    | some v, none => some v
    | none, b => b) none

def supportedVers : List Byte := [4, 3, 6, 2]

/-- The HELLO reply after its status, with the session as it stands. -/
def helloBody (d : Dev) (ch : Nat) : List Byte :=
  let s := getSession d ch
  p8 s.major ++ p8 s.minor ++ p8 ch ++ p32 s.mask.toNat ++ p64 Config.deviceId.toNat ++ p8 (modeCode (mode d)) ++
    p8 d.hif.deviceEpoch.toNat ++ p8 (getMbx d ch).epoch.toNat ++ zeros 1 ++ p16 448 ++ zeros 2 ++ supportedVers ++ zeros 12

/-- HELLO (R431, R434, R435). -/
def judgeHello (d : Dev) (t : Taken) (_ : Option (List Byte)) : Dev × Ans :=
  let p := t.req.payload
  let ch := t.req.ch.val
  if !longEnough t 32 || !isZero p 1 3 || u8 p 0 == 0 || decide (8 < u8 p 0) then bad d else
  match bestVer p with
  | none => ansB d .version (helloBody d ch)
  | some v =>
    let d := sessionMod d ch (fun _ => { isOpen := true, major := v.1, minor := v.2, mask := BitVec.ofNat 32 (u32 p 4) &&& 0xFFE })
    let body := helloBody d ch
    ansB (addLog d 1 0 ch (logArgs t (0 :: body))) .ok body

/-- VERSION (R436, R519). -/
def judgeVersion (d : Dev) (t : Taken) (_ : Option (List Byte)) : Dev × Ans :=
  let s := getSession d t.req.ch.val
  let f := d.flash
  let rr := (Config.renderRev f.renderRev).toNat
  ansB d .ok (p8 (if s.isOpen then s.major else 0) ++ p8 (if s.isOpen then s.minor else 0) ++ p8 Config.silicon.toNat ++
    p8 (f.fwVersion.toNat / 256) ++ p8 f.fwVersion.toNat ++ p16 f.fwBuild.toNat ++ p8 f.running ++ p16 rr ++ [1, 2] ++ zeros 3 ++ supportedVers)

/-- CAPS (R437). -/
def judgeCaps (d : Dev) (_ : Taken) (_ : Option (List Byte)) : Dev × Ans :=
  let g (a h : Nat) : Nat := if Config.gradeAF then a else h
  ansB d .ok (p8 (g 0 1) ++ p8 (g 7 5) ++ p8 3 ++ p16 (g 1024 512) ++ p16 (g 512 256) ++ p16 (g 640 320) ++ p16 (g 64 28) ++
    p32 (g 4194304 2097152) ++ p32 768000 ++ p64 31457280000 ++ p16 256 ++ p16 256 ++ p16 256 ++ p16 4096 ++ [4, 16, 16, 8, 8, 16] ++
    p16 640 ++ p64 Config.deviceId.toNat ++ p32 7)

/-- PING (R438). -/
def judgePing (d : Dev) (t : Taken) (_ : Option (List Byte)) : Dev × Ans :=
  ansB d .ok (zeros 3 ++ p64 (now d).toNat ++ t.req.payload.take 44)

/-- BYE (R434, R439): what waits on the channel is answered CANCELLED, then BYE. -/
def judgeBye (d : Dev) (t : Taken) (_ : Option (List Byte)) : Dev × Ans :=
  let ch := t.req.ch.val
  let d := addLog (cancelChannel d ch) 5 0 ch [0]
  (sessionMod (reply d t .ok []) ch (fun _ => {}), .done)

def execHello (r : Req) (s : State) : Host.Outcome State Fault Refusal := reqRow1 .hello judgeHello r s
def execVersion (r : Req) (s : State) : Host.Outcome State Fault Refusal := reqRow1 .version judgeVersion r s
def execCaps (r : Req) (s : State) : Host.Outcome State Fault Refusal := reqRow1 .caps judgeCaps r s
def execPing (r : Req) (s : State) : Host.Outcome State Fault Refusal := reqRow1 .ping judgePing r s
def execBye (r : Req) (s : State) : Host.Outcome State Fault Refusal := reqRow1 .bye judgeBye r s

/-! Modes and resets. -/

/-- Targets MODE_SET accepts from a mode (R479). -/
def modeTargets : Mode → List Mode
  | .config => [.retain, .safe, .service, .twin, .singleRate, .calibrate, .selftest, .update]
  | .service => [.config, .safe, .twin, .singleRate, .calibrate]
  | .twin | .singleRate | .calibrate => [.config, .service, .safe]
  | .selftest | .update => [.config, .safe]
  | _ => []

/-- The MODE_SET reply after its status (R442). -/
def modeBody (new prev : Mode) (dt : DT) : List Byte := p8 (modeCode new) ++ p8 (modeCode prev) ++ zeros 5 ++ p64 dt.toNat

/-- MODE_SET (R442, R479, R480).  On a pair that renders, the transition waits for S_t in D0 (R379). -/
def judgeModeSet (d : Dev) (t : Taken) (_ : Option (List Byte)) : Dev × Ans :=
  let p := t.req.payload
  if !longEnough t 4 || !isZero p 1 3 then bad d else
  match modeOf (u8 p 0) with
  | none => bad d
  | some m =>
    if m == .off || m == .boot || m == .factory then bad d
    else if d.fw.changing.isSome || d.fw.commits.any (fun c => c.taken.op == .modeSet) then ans d .busy
    else if m == mode d then ansB d .ok (modeBody m d.fw.prevMode (now d))
    else if !(modeTargets (mode d)).contains m then ans d .badMode
    else if mode d == .twin && domRenders d 0 then (d, .commit 0)
    else (beginMode d m 0 (some t), .done)

/-- MODE_GET (R442). -/
def judgeModeGet (d : Dev) (_ : Taken) (_ : Option (List Byte)) : Dev × Ans :=
  ansB d .ok (p8 (modeCode (mode d)) ++ p8 (modeCode d.fw.prevMode) ++ p8 ((hifMode d).toNat / 256) ++ p8 d.aon.safeReason.toNat ++
    p8 d.aon.bootcnt.toNat ++ zeros 2 ++ p64 d.fw.modeDt.toNat)

/-- RESET_REQ (R443, R495). -/
def judgeResetReq (d : Dev) (t : Taken) (_ : Option (List Byte)) : Dev × Ans :=
  let p := t.req.payload
  let kind := u8 p 0
  let pd := u8 p 1
  if !longEnough t 4 || decide (2 < kind) then bad d
  else if u16 p 2 ≠ 0xC3D2 then ans d .denied
  else if kind == 2 && !(t.mode == .config || t.mode == .selftest || t.mode == .factory) then ans d .badMode
  else if kind == 2 && (decide (pd < 2) || decide (15 < pd)) then bad d
  else
    let r : DeferredReset := if kind = 0 then .warm 2 else if kind = 1 then .ctrlRestart else .domain pd
    (fw d (fun f => { f with resetPending := f.resetPending ++ [r] }), .now .ok [])

def execModeSet (r : Req) (s : State) : Host.Outcome State Fault Refusal := reqRow1 .modeSet judgeModeSet r s
def execModeGet (r : Req) (s : State) : Host.Outcome State Fault Refusal := reqRow1 .modeGet judgeModeGet r s
def execResetReq (r : Req) (s : State) : Host.Outcome State Fault Refusal := reqRow1 .resetReq judgeResetReq r s

/-! Telemetry and the log. -/

/-- How many indices a firmware counter has (R445); none where the id is unknown. -/
def counterRange (id : Nat) : Option Nat :=
  if id = 1 ∨ id = 3 ∨ id = 4 ∨ id = 9 then some 1
  else if id = 2 ∨ (0x10 ≤ id ∧ id ≤ 0x13) ∨ (0x20 ≤ id ∧ id ≤ 0x23) ∨ id = 0x28 ∨ id = 0x29 then some 3
  else if id = 5 ∨ id = 6 ∨ id = 0x30 ∨ id = 0x31 ∨ id = 0x3C ∨ id = 0x40 ∨ id = 0x41 ∨ id = 0x50 then some 8
  else if id = 7 ∨ id = 8 then some 4
  else if 0x38 ≤ id ∧ id ≤ 0x3B then some 256 else none

/-- The value of a firmware counter (R445). -/
def counterVal (d : Dev) (id ix : Nat) : Word :=
  let m := tabGet d.scene.metaCnt ix
  let c := tabGet d.scene.cnt ix
  let r := tabGet d.net.rxFlows ix
  if id = 1 then d.fw.gainClamp else if id = 2 then tabGet d.fw.stageOverrun ix else if id = 3 then d.time.steps
  else if id = 4 then d.time.ptp.ignored else if id = 5 then (tabGet d.time.pulses ix).suppressed
  else if id = 6 then (tabGet d.time.pulses ix).skipped else if id = 7 then (tabGet d.time.caps ix).filtered
  else if id = 8 then (tabGet d.time.caps ix).lostCount else if id = 9 then d.fw.srUnbridged
  else if id = 0x10 then m.late else if id = 0x11 then m.coalesced else if id = 0x12 then m.dropped else if id = 0x13 then m.stale
  else if id = 0x20 then c.pathClip else if id = 0x21 then c.delayClamp else if id = 0x22 then c.doppler else if id = 0x23 then c.pathVoid
  else if id = 0x28 then tabGet d.chain.chainClip ix else if id = 0x29 then tabGet d.chain.chainVoid ix
  else if id = 0x30 then tabGet d.tiles.sched.eccCorr ix else if id = 0x31 then tabGet d.tiles.sched.coreFault ix
  else if id = 0x38 then r.badLen else if id = 0x39 then r.badPt else if id = 0x3A then r.badSsrc else if id = 0x3B then r.ssrcChanges
  else if id = 0x3C then tabGet d.net.tailErr ix else if id = 0x40 then tabGet d.fw.evqDrop ix else if id = 0x41 then tabGet d.fw.discard ix
  else BitVec.ofNat 32 (u32 d.time.ptp.tlv (4 * ix))

/-- TELEMETRY_GET, action COUNTERS (R444). -/
def judgeCounters (d : Dev) (t : Taken) (_ : Option (List Byte)) : Dev × Ans :=
  let p := t.req.payload
  let n := u8 p 1
  if !longEnough t 4 || u8 p 0 != 0 || n == 0 || decide (12 < n) || !isZero p 2 2 || !longEnough t (4 + 4 * n) then bad d else
  let es := (List.range n).map (fun i => (u16 p (4 + 4 * i), u16 p (6 + 4 * i)))
  if es.any (fun e => (counterRange e.1).isNone) then ans d .notFound
  else if es.any (fun e => decide ((counterRange e.1).getD 0 ≤ e.2)) then bad d
  else ansB d .ok (p8 n ++ zeros 2 ++ p32 (mtOf d 0).toNat ++ es.flatMap (fun e => p32 (counterVal d e.1 e.2).toNat))

/-- A region for n bytes that a request deposits: BULK set, the reference in range and long enough. -/
def depositOk (t : Taken) (o n : Nat) : Bool :=
  let r := bulkRef t.req.payload o
  t.req.bulk && bulkOk r && decide (n ≤ r.2.1)

/-- TELEMETRY_GET, action BLOCK (R444). -/
def judgeBlock (d : Dev) (t : Taken) (_ : Option (List Byte)) : Dev × Ans :=
  let p := t.req.payload
  let n := u16 p 2
  let a := u32 p 4
  if !longEnough t (if t.req.bulk then 24 else 8) || u8 p 0 != 1 || n == 0 || decide ((if t.req.bulk then 16384 else 11) < n) || a % 4 != 0 ||
      decide (a < 0x40000000) || decide (0x4011FFFF < a) || decide (65536 < a % 65536 + 4 * n) then bad d else
  let off := b2n (!pdOn d (blockPd a))
  let ws := (List.range n).flatMap (fun i => p32 (deviceWord d .ctrl (a + 4 * i)).toNat)
  if t.req.bulk then
    if !depositOk t 8 (4 * n) then bad d else (deposit d (u64 p 8) ws, .now .ok (p8 off) true)
  else ansB d .ok (p8 off ++ zeros 6 ++ ws)

def execTelemetryGetCounters (r : Req) (s : State) : Host.Outcome State Fault Refusal := reqRow .telemetryGet 0 [1] judgeCounters r s
def execTelemetryGetBlock (r : Req) (s : State) : Host.Outcome State Fault Refusal := reqRow .telemetryGet 0 [0] judgeBlock r s

/-- A log entry's 32 bytes (R446). -/
def logBytes (e : LogEntry) : List Byte :=
  p64 e.dt.toNat ++ p32 e.seq.toNat ++ p16 e.code.toNat ++ p8 e.severity ++ p8 e.ch.toNat ++ slice e.args 0 16

/-- LOG_READ (R446). -/
def judgeLogRead (d : Dev) (t : Taken) (_ : Option (List Byte)) : Dev × Ans :=
  let p := t.req.payload
  let max := u16 p 4
  if !longEnough t (if t.req.bulk then 24 else 6) || max == 0 || decide ((if t.req.bulk then 8192 else 1) < max) then bad d else
  let next := d.fw.logSeq
  let oldest := next - BitVec.ofNat 32 d.fw.log.length
  let asked := BitVec.ofNat 32 (u32 p 0)
  let start := if mtLater oldest asked then oldest else asked
  let es := if mtGe start next then [] else (d.fw.log.drop (start - oldest).toNat).take max
  let body := zeros 3 ++ p32 start.toNat ++ p16 es.length ++ zeros 2 ++ p32 next.toNat ++ p32 (start - asked).toNat
  if t.req.bulk then
    let bs := es.flatMap logBytes
    if !depositOk t 8 bs.length then bad d else (deposit d (u64 p 8) bs, .now .ok body true)
  else ansB d .ok (body ++ es.flatMap logBytes)

def execLogRead (r : Req) (s : State) : Host.Outcome State Fault Refusal := reqRow1 .logRead judgeLogRead r s

/-! OUT_LATENCY_GET (R45, R447). -/

/-- A segment of a path: its domain (3 for a port clock or a flow timebase), rate, samples, what is added in ns (as a
rational). -/
structure PathSeg where
  dom : Nat
  rate : Nat
  n : Nat
  extra : Q := ⟨0, 1⟩

/-- Samples an input adds (R45), with the 16 of R384 on a pair. -/
def inSamples (d : Dev) (s : Src) : Nat :=
  let pair := if mode d == .twin then 16 else 0
  if s.kind = 2 then 4 + pair else if s.kind = 3 then 1 + pair else if s.kind = 7 then 28
  else if s.kind = 1 then 16 * (((tabGet d.net.rxFlows s.index).cfg.depth + 15) / 16) else 0

/-- Samples and nanoseconds an output adds (R45). -/
def outSamples (kind : Nat) : Nat × Nat := if kind = 1 then (4, 0) else if kind = 2 then (1, 0) else (16, 16700)

/-- The source of an output channel: kinds of R447. -/
def outSource (d : Dev) (kind ch ix : Nat) : Src :=
  if kind = 1 then (if ch = 0 then (tabGet d.ports.aesTx ix).chA.src else (tabGet d.ports.aesTx ix).chB.src)
  else if kind = 2 then (tabGet (tabGet d.ports.tdm ix).tx ch).src
  else (tabGet (tabGet d.net.txFlows ix).chans ch).src

def outDomain (d : Dev) (kind ix : Nat) : Nat :=
  effDom d (if kind = 1 then (tabGet d.ports.aesTx ix).cfg.domain else if kind = 2 then (tabGet d.ports.tdm ix).cfg.domain
    else (tabGet d.net.txFlows ix).cfg.domain)

def outEnabled (d : Dev) (kind ix : Nat) : Bool :=
  if kind = 1 then (tabGet d.ports.aesTx ix).cfg.enable else if kind = 2 then (tabGet d.ports.tdm ix).cfg.enable
  else (tabGet d.net.txFlows ix).cfg.enable

/-- What a source reads in the end: itself, or through a bridge its source; and whether a bridge is passed.  In SINGLE_RATE a
port or flow input always passes one (R76, R77). -/
def throughBridge (d : Dev) (s : Src) : Src × Bool :=
  let inner := if s.kind = 8 then
      let c := if pathMode d == .singleRate then tabGet d.seam.stored s.index else (tabGet d.seam.br s.index).cfg
      ({ kind := c.kind, index := c.index, chan := c.chan }, true)
    else (s, false)
  if pathMode d == .singleRate then (inner.1, inner.1.kind == 1 || inner.1.kind == 2 || inner.1.kind == 3) else inner

/-- The rate of an input in its own segment. -/
def inRate (d : Dev) (s : Src) : Nat :=
  if pathMode d == .singleRate then
    (if s.kind = 1 then rateOf d (tabGet d.net.rxFlows s.index).cfg.domain
     else if s.kind = 2 then (tabGet d.ports.aesRx s.index).rateHz else (tabGet d.ports.tdm s.index).rateHz)
  else rateOf d ((srcDom d s).getD 0)

def inDom (d : Dev) (s : Src) : Nat := if pathMode d == .singleRate then 3 else (srcDom d s).getD 3

/-- The segments of a path; none where it does not trace. -/
def pathSegs (d : Dev) (input : Src) (obj col : Option Nat) (outKind outCh outIx : Nat) : Option (List PathSeg) :=
  let src := outSource d outKind outCh outIx
  let od := outDomain d outKind outIx
  let out := outSamples outKind
  let tail (n : Nat) (x : Q) : PathSeg := { dom := od, rate := rateOf d od, n := n + out.1, extra := qAdd x ⟨out.2, 1⟩ }
  let seam : Q := ⟨750000, 1⟩
  if !outEnabled d outKind outIx || (srcDom d input).isNone then none else
  match obj, col with
  | some o, some c =>
    let ob := getObj d.scene o
    let a := throughBridge d (objSrc ob.src)
    let b := throughBridge d src
    let x := tabGet d.chain.cols c
    let f := rateOf d (colDom d c)
    let core := 32 + (tapsOf x.cfg f).1
    let look : Q := qFrac ((lookAhead x.cfg.dyn f * 1000000000 : Nat) : Int) f
    if !ob.enabled || !sameSrc a.1 input || !chainCol c || !boundCol d c || effDom d ob.domain != colDom d c ||
        !sameSrc b.1 { kind := 4, index := c } then none
    else
      let first := if a.2 then [({ dom := inDom d input, rate := inRate d input, n := inSamples d input, extra := seam } : PathSeg)] else []
      let n0 := if a.2 then 0 else inSamples d input
      if b.2 then some (first ++ [{ dom := colDom d c, rate := f, n := n0 + core, extra := qAdd look seam }, tail 0 ⟨0, 1⟩])
      else some (first ++ [tail (n0 + core) look])
  | _, _ => if sameSrc src input then some [tail (inSamples d input) ⟨0, 1⟩] else none

/-- OUT_LATENCY_GET. -/
def judgeOutLatency (d : Dev) (t : Taken) (_ : Option (List Byte)) : Dev × Ans :=
  let p := t.req.payload
  let input : Src := { kind := u8 p 0, chan := u8 p 1, index := u16 p 2 }
  let o := u16 p 4
  let c := u16 p 6
  let k := u8 p 8
  let outCh := u8 p 9
  let outIx := u16 p 10
  let outOk := (k == 1 && decide (outCh < 2) && decide (outIx < 16)) || (k == 2 && decide (outCh < 32) && decide (outIx < 8)) ||
    (k == 3 && decide (outCh < 64) && decide (outIx < 256))
  let inOk := srcRange input && (input.kind == 1 || input.kind == 2 || input.kind == 3 || input.kind == 7)
  if !longEnough t 12 || !outOk || !inOk || !(o == 0xFFFF && c == 0xFFFF || decide (o < nObjects) && colOk c) then bad d else
  match pathSegs d input (if o = 0xFFFF then none else some o) (if c = 0xFFFF then none else some c) k outCh outIx with
  | none => ans d .notFound
  | some segs =>
    let ns := segs.foldl (fun (a : Q) s => qAdd a (qAdd (qFrac ((s.n * 1000000000 : Nat) : Int) s.rate) s.extra)) ⟨0, 1⟩
    ansB d .ok (p8 segs.length ++ zeros 2 ++ p32 (qRne ns).toNat ++ segs.flatMap (fun s => p8 s.dom ++ zeros 1 ++ p16 s.n))

def execOutLatencyGet (r : Req) (s : State) : Host.Outcome State Fault Refusal := reqRow1 .outLatencyGet judgeOutLatency r s

end Sys2Proof.Machine
end

