-- ==== Sys2Proof/Machine/Flash.lean ====
section
/-! DEFINITION. The flash, its boot record and images, and the firmware group (R448, R488–R491, R496, R497). -/

namespace Sys2Proof.Machine

def slotCode : SlotState → Nat
  | .empty => 0 | .incomplete => 1 | .valid => 2 | .invalid => 3
def slotStateOf : Nat → SlotState
  | 1 => .incomplete | 2 => .valid | 3 => .invalid | _ => .empty

/-- A valid boot record copy (R488). -/
def recOk (r : BootRec) : Bool :=
  r.length == 32 && u32 r 0 == 0x54425A4F && u32 r 28 == (crc32c (slice r 0 28)).toNat && decide (u8 r 8 ≤ 1) && decide (u8 r 9 ≤ 3) &&
    decide (u8 r 10 ≤ 3)

def recBuild (seq next a b : Nat) : BootRec :=
  let h := p32 0x54425A4F ++ p32 seq ++ p8 next ++ p8 a ++ p8 b ++ zeros 17
  h ++ p32 (crc32c h).toNat

/-- Whether copy 1 is the one in force; none where neither is valid. -/
def recPick (f : Flash) : Option Bool :=
  match recOk f.rec0, recOk f.rec1 with
  | true, true => some (mtLater (BitVec.ofNat 32 (u32 f.rec1 4)) (BitVec.ofNat 32 (u32 f.rec0 4)))
  | true, false => some false
  | false, true => some true
  | false, false => none

def recNow (f : Flash) : Option BootRec := (recPick f).map (fun one => if one then f.rec1 else f.rec0)
/-- The next-boot slot. -/
def nextBoot (f : Flash) : Nat := ((recNow f).map (fun r => u8 r 8)).getD 0
/-- A slot's state as the boot record has it: EMPTY where neither copy is valid. -/
def recState (f : Flash) (slot : Nat) : SlotState := slotStateOf (((recNow f).map (fun r => u8 r (9 + slot))).getD 0)

/-- The boot record written (R488): over the other copy, with the next sequence number. -/
def recWrite (f : Flash) (next : Nat) (state : Nat → SlotState) : Flash :=
  let seq := (((recNow f).map (fun r => u32 r 4)).getD 0 + 1) % 2 ^ 32
  let r := recBuild seq next (slotCode (state 0)) (slotCode (state 1))
  if recPick f = some false then { f with rec1 := r } else { f with rec0 := r }

/-- A slot takes a new record, its state entered in the boot record. -/
def slotPut (f : Flash) (k : Nat) (s : Slot) (next : Nat) : Flash :=
  recWrite { f with slots := tabSet f.slots k s } next (fun j => if j = k then s.state else recState f j)

/-! Images (R489). -/

def imageFlags (b : List Byte) : Nat := u16 b 6
def imageKey (b : List Byte) : Nat := u8 b 18
def imageSections (b : List Byte) : Nat := u16 b 20

/-- Header and CRC, as boot step 4 checks them. -/
def imageCrcOk (b : List Byte) : Bool :=
  decide (64 + 16 * imageSections b + 192 ≤ b.length) && u32 b 0 == 0x57465A4F && u16 b 4 == 1 && u32 b 8 == b.length &&
    decide (1 ≤ imageSections b) && decide (imageSections b ≤ 16) &&
    u32 b 24 == (crc32c (b.take 24 ++ zeros 4 ++ b.drop 28)).toNat

/-- Key, signature, decryption, as boot step 5 checks them. -/
def imageSigned (f : Flash) (b : List Byte) : Bool :=
  let k := imageKey b
  let key := slice b (b.length - 192) 96
  decide (k ≤ 3) && (tabGet f.keyHash k == Config.sha384 key) && !f.revoked.getLsbD k && Config.signatureOk b &&
    (!bit (imageFlags b) 0 || (Config.gcmOpen f.imageKey b).isSome)

/-- Section entries: type, offset, length, destination. -/
def imageTable (b : List Byte) : List (Nat × Nat × Nat × Nat) :=
  (List.range (imageSections b)).map (fun i => let o := 64 + 16 * i; (u16 b o, u32 b (o + 4), u32 b (o + 8), u32 b (o + 12)))

/-- Sections fit where step 6 places them (R37, R489): code in the firmware code region, a host image's data in its region. -/
def imagePlaced (b : List Byte) (host : Bool) : Bool :=
  let code := (imageTable b).filter (fun e => e.1 == 1)
  let data := (imageTable b).filter (fun e => e.1 == 2)
  decide ((code.map (fun e => e.2.2.1)).sum ≤ 1572864) && code.all (fun e => decide (e.2.2.2 + e.2.2.1 ≤ 1572864)) &&
    (!host || decide ((data.map (fun e => e.2.2.1)).sum ≤ 458752))

/-- Revocations an accepted image asks for: keys above its own (R490). -/
def imageRevokes (b : List Byte) : BitVec 4 :=
  BitVec.ofNat 4 ((List.range 4).foldl (fun a k => a + 2 ^ k * b2n (bit (imageFlags b) (2 + k) && decide (imageKey b < k))) 0)

/-! The firmware group (R448). -/

/-- The slot of the update a channel owns. -/
def ownUpdate (d : Dev) (ch : Nat) : Option Nat := d.flash.update.bind (fun u => if u.1 = ch then some u.2 else none)
def otherUpdate (d : Dev) (ch : Nat) : Bool := d.flash.update.isSome && (ownUpdate d ch).isNone
def erasing (d : Dev) (slot : Nat) : Bool := d.fw.waits.any (fun w => w.what == .slotErase slot)
def updateMode (t : Taken) : Bool := t.mode == .update || t.mode == .safe

/-- FW_UPDATE_BEGIN (R448, R496). -/
def judgeUpdateBegin (d : Dev) (t : Taken) (_ : Option (List Byte)) : Dev × Ans :=
  let p := t.req.payload
  let slot := u8 p 0
  let ch := t.req.ch.val
  if !updateMode t then ans d .badMode
  else if !longEnough t 12 || decide (1 < slot) || !isZero p 1 3 || u32 p 4 == 0 || decide (33554432 < u32 p 4) then bad d
  else if otherUpdate d ch then ans d .busy
  else if d.flash.running = slot then ans d .denied
  else
    let s : Slot := { state := .incomplete, length := u32 p 4, crc := BitVec.ofNat 32 (u32 p 8) }
    ({ d with flash := { slotPut d.flash slot s (nextBoot d.flash) with update := some (ch, slot) } }, .wait (.slotErase slot))

/-- SLOT_ERASE_COMPLETE: the requests that began updates are answered, each with its slot. -/
def slotErased (d : Dev) : Dev :=
  let slot (w : Wait) : Option Nat := match w.what with
    | .slotErase k => some k
    | _ => none
  let ws := d.fw.waits.filter (fun w => (slot w).isSome)
  let d := fw d (fun f => { f with waits := f.waits.filter (fun w => (slot w).isNone) })
  ws.foldl (fun d w => reply d w.taken .ok (p8 ((slot w).getD 0))) d

/-- Bytes programmed at an offset into the slot of an update. -/
def programChunk (d : Dev) (slot off : Nat) (bs : List Byte) : Dev × Ans :=
  let s := tabGet d.flash.slots slot
  if erasing d slot then ans d .busy
  else if off ≠ s.received ∨ s.length < off + bs.length then bad d
  else
    let s := { s with received := off + bs.length, bytes := s.bytes ++ bs }
    ({ d with flash := { d.flash with slots := tabSet d.flash.slots slot s } }, .now .ok (zeros 3 ++ p32 s.received))

/-- FW_CHUNK (R448). -/
def judgeChunk (d : Dev) (t : Taken) (bulk : Option (List Byte)) : Dev × Ans :=
  let p := t.req.payload
  let n := u16 p 4
  if !updateMode t then ans d .badMode
  else if !longEnough t (if t.req.bulk then 20 else 8) then bad d
  else if otherUpdate d t.req.ch.val then ans d .denied
  else match ownUpdate d t.req.ch.val with
    | none => ans d .notFound
    | some slot =>
      if t.req.bulk then
        match bulk with
        | none => needFetch d t 4
        | some bs => programChunk d slot (u32 p 0) bs
      else if n == 0 || decide (48 < n) || !isZero p 6 2 || !longEnough t (8 + n) then bad d
      else programChunk d slot (u32 p 0) (slice p 8 n)

/-- FW_COMMIT (R448, R490, R496). -/
def judgeFwCommit (d : Dev) (t : Taken) (_ : Option (List Byte)) : Dev × Ans :=
  let p := t.req.payload
  let slot := u8 p 0
  let fl := u8 p 1
  if !updateMode t then ans d .badMode
  else if !longEnough t 4 || decide (1 < slot) || decide (3 < fl) || !isZero p 2 2 then bad d
  else if otherUpdate d t.req.ch.val then ans d .denied
  else if ownUpdate d t.req.ch.val ≠ some slot then ans d .notFound
  else
    let s := tabGet d.flash.slots slot
    if erasing d slot then ans d .busy
    else if s.received < s.length then ans d .notFound
    else if crc32c s.bytes != s.crc || !imageCrcOk s.bytes || !imageSigned d.flash s.bytes then
      ({ d with flash := { slotPut d.flash slot { s with state := .invalid } (nextBoot d.flash) with update := none } },
        .now .integrity (p8 slot ++ p8 (slotCode .invalid)))
    else
      let s := { s with state := .valid, version := BitVec.ofNat 16 (u16 s.bytes 12), encrypted := bit (imageFlags s.bytes) 0 }
      let f := slotPut d.flash slot s (if bit fl 0 then slot else nextBoot d.flash)
      let d : Dev := { d with flash := { f with update := none, revoked := f.revoked ||| imageRevokes s.bytes } }
      let d := if bit fl 1 then fw d (fun f => { f with resetPending := f.resetPending ++ [.warm 3] }) else d
      (d, .now .ok (p8 slot ++ p8 (slotCode .valid)))

/-- FW_SLOT_INFO (R448). -/
def judgeSlotInfo (d : Dev) (_ : Taken) (_ : Option (List Byte)) : Dev × Ans :=
  let f := d.flash
  ansB d .ok (p8 f.running ++ zeros 2 ++ (List.range 2).flatMap (fun k =>
    let s := tabGet f.slots k
    p8 (slotCode s.state) ++ p8 (b2n s.encrypted + 2 * b2n (f.running == k) + 4 * b2n (nextBoot f == k)) ++ p16 s.version.toNat ++
      p32 s.length ++ p32 s.received ++ p32 s.crc.toNat))

def execFwUpdateBegin (r : Req) (s : State) : Host.Outcome State Fault Refusal := reqRow1 .fwUpdateBegin judgeUpdateBegin r s
def execFwChunk (r : Req) (s : State) : Host.Outcome State Fault Refusal := reqRow1 .fwChunk judgeChunk r s
def execFwCommit (r : Req) (s : State) : Host.Outcome State Fault Refusal := reqRow1 .fwCommit judgeFwCommit r s
def execFwSlotInfo (r : Req) (s : State) : Host.Outcome State Fault Refusal := reqRow1 .fwSlotInfo judgeSlotInfo r s
/-- SLOT_ERASE_COMPLETE (R496). -/
def execSlotEraseComplete (s : State) : Host.Outcome State Fault Refusal := run slotErased s

end Sys2Proof.Machine
end

