-- ==== Sys2Proof/Machine/Sample.lean ====
section
/-! DEFINITION. The sample a source gives at an instant: what objects, bridges, ports and transmit flows read
(R77, R82, R216, R226, R326, R331). -/

namespace Sys2Proof.Machine

/-- A line's sample, none where the line has not reached it. -/
def lineGet (l : Line) (k : MT) : Option Int := if 0 < mtDiff l.next k then some (lineSample l k) else none

/-! The rates of input ends: in SINGLE_RATE a flow keeps the rate its configuration names, and a receiver runs on its recovered clock
(R76, R78). -/

/-- The rate of the domain that a configuration names, whatever SINGLE_RATE runs it at. -/
def storedRate (d : Dev) (n : Nat) : Nat := ((getDom d n).stored.getD (getDom d n).cfg).rate
def flowRate (d : Dev) (n : Nat) : Nat := if single d then storedRate d n else rateOf d n
/-- The nominal rate of a port end (R310). -/
def portNominal (nominal seen : Nat) : Nat := if nominal ≠ 0 then nominal else if seen ≠ 0 then seen else 48000
def aesRate (d : Dev) (i : Nat) : Nat :=
  let r := tabGet d.ports.aesRx i
  if single d then portNominal r.cfg.nominal r.rateHz else rateOf d r.cfg.domain
def tdmRate (d : Dev) (n : Nat) : Nat :=
  let t := tabGet d.ports.tdm n
  if single d then (if t.cfg.target then portNominal t.cfg.nominal t.rateHz else 48000) else rateOf d t.cfg.domain

/-- A receive flow's sample of play-out MT k: landed, or read from the network receive buffer (R216). -/
def flowRead (d : Dev) (i c : Nat) (k : MT) : Option Int :=
  let x := tabGet d.net.rxFlows i
  let f := flowRate d x.cfg.domain
  match lineGet (tabGet x.out c) k with
  | some v => some v
  | none =>
    if !x.cfg.enable || !x.receiving then some (slipAt x.gate f k c 0)
    else (x.ring.find? (fun e => e.1 == k)).map (fun e =>
      slipAt x.gate f k c (wordIn (wrapNat 32 (e.2.getD c 0)) (if x.cfg.l24 then 24 else 16)))

/-- A microphone's output sample k: of a computed block, or of the block under way where every input it needs has come. -/
def micReadAt (d : Dev) (i : Nat) (k : MT) : Option Int :=
  let m := tabGet d.mics.mic i
  let f := rateIn d m.cfg.domain
  match lineGet m.out k with
  | some v => some v
  | none =>
    let n := mtDiff k m.mt
    if m.state ≠ .track ∧ m.fade.isNone then some 0
    else if n < 0 ∨ 16 ≤ n then none
    else
      let reach := (16 * 3125000) / (4 * rcOf f * f) + 1
      if mtDiff m.ring.next (posI (m.loop.pos + n * m.loop.rhoU)) ≤ (reach : Int) then none
      else ((micBlock m f m.mt)[n.toNat]?).map Prod.fst

/-- On a pair, receive channels of AES3 and TDM land 16 samples later, and a follower's are the leader's (R384): what the device
holds of instant k. -/
def pairInput (d : Dev) (s : Src) (k : MT) (own : MT → Option Int) : Option Int :=
  if mode d != .twin then own k
  else if slaved d then
    (d.twin.portBlks.find? (fun p => p.kind == (if s.kind = 2 then 0 else 2) && p.index == s.index && p.chan == s.chan && p.block == blockOf k)).bind
      (fun p => p.xs[k.toNat % 16]?)
  else own (k - 16)

/-- Sample at instant k of a source numbered by R331, as the device holds it: chain columns, binaural outputs and tile ports
are at the instant of their emission MT, landed MT + 32. -/
def srcRaw (d : Dev) (s : Src) (k : MT) : Option Int :=
  match s.kind with
  | 1 => flowRead d s.index s.chan k
  | 2 => pairInput d s k (fun k =>
    let r := tabGet d.ports.aesRx s.index
    let g (v : Int) : Int := if mtDiff k r.landed < 0 then v else slipAt r.gate (aesRate d s.index) k s.chan v
    match lineGet (if s.chan = 0 then r.outA else r.outB) k with
    | some v => some (g v)
    | none => if r.state = .locked then none else some (g 0))
  | 3 => pairInput d s k (fun k =>
    let t := tabGet d.ports.tdm s.index
    let g (v : Int) : Int := if mtDiff k t.landed < 0 then v else slipAt t.gate (tdmRate d s.index) k s.chan v
    match lineGet (tabGet t.rx s.chan) k with
    | some v => some (g v)
    | none => if t.state = .running then none else some (g 0))
  | 4 => some (lineSample (tabGet d.render.cols s.index) (k - 32))
  | 5 => some (lineSample (tabGet d.render.hb s.index) (k - 32))
  | 6 => some (lineSample (tabGet d.render.tile s.index) (k - 32))
  | 7 => micReadAt d s.index k
  | 8 =>
    let b := tabGet d.seam.br s.index
    match lineGet b.out k with
    | some v => some v
    | none => if b.state = .exact ∨ b.state = .track ∨ b.fade.isSome then none else some 0
  | _ => some 0

/-- A source as SINGLE_RATE reads it (R77): inputs through the bridges of R76. -/
def srcSingle (d : Dev) (s : Src) : Src :=
  if s.kind = 1 ∨ s.kind = 2 ∨ s.kind = 3 then
    match singleBridge d s with
    | some b => { kind := 8, index := b }
    | none => {}
  else s

/-- What a configured source is in the mode: in SINGLE_RATE a bridge output is the bridge's own configured source. -/
def srcNow (d : Dev) (s : Src) : Src :=
  if pathMode d != .singleRate then s
  else if s.kind = 8 then
    let c := tabGet d.seam.stored s.index
    if c.enable then srcSingle d { kind := c.kind, index := c.index, chan := c.chan } else {}
  else srcSingle d s

/-- The sample at instant k of a configured source; a free value where the device holds none yet (log entry 3). -/
def srcAt (d : Dev) (s : Src) (k : MT) : Int :=
  (srcRaw d (srcNow d s) k).getD (sext 32 (Config.unread s.kind s.index s.chan k).toNat)

/-- A source is bound and its domain emits (R326). -/
def srcLive (d : Dev) (s : Src) : Bool :=
  match srcDom d s with
  | some n => domEmits d n
  | none => false

/-- A source's sample at emission MT m.  Columns and binaural outputs have gates of their own; the rest start and close with their
domain (R60, R64).  What a column, an ear or a tile port has published before it is unbound is emitted. -/
def srcEmitted (d : Dev) (s : Src) (m : MT) : Int :=
  match srcDom d s with
  | some n =>
    if !domEmits d n then 0
    else if s.kind = 4 ∨ s.kind = 5 then srcAt d s m
    else (mulGain (srcAt d s m) (gateAt (tabGet d.render.dom n).outGate (rateOf d n) (m - 32))).1
  | none => if s.kind = 4 ∨ s.kind = 5 ∨ s.kind = 6 then srcAt d s m else 0

/-- The sample and validity of a transmit channel at emission MT m (R318, R326). -/
def txSample (d : Dev) (c : TxChan) (m : MT) : Int × Bool :=
  let one (s : Src) : Int := srcEmitted d s m
  let new := one c.src
  let x := match c.old, c.older with
    | none, _ => new
    | some (o, t), none => if mtDiff m t < 0 then one o else xfade 64 (mtDiff m t) (one o) new
    | some (o, t), some (p, u) =>
      if 0 ≤ mtDiff m t then xfade 64 (mtDiff m t) (one o) new
      else if mtDiff m u < 0 then one p else xfade 64 (mtDiff m u) (one p) (one o)
  (x, srcLive d c.src)

/-- A transmit channel's source changes: the crossfade of R326 starts at emission MT b + 16 (R31), or at once. -/
def txChanSet (c : TxChan) (s : Src) (b : Option MT) : TxChan :=
  match b with
  | none => { src := s }
  | some b =>
    if sameSrc c.src s then c
    else match c.old with
      | none => { src := s, old := some (c.src, b + 16) }
      | some (o, t) => if mtDiff (b + 16) t ≤ 0 then { c with src := s, old := some (o, b + 16) }
        else { src := s, old := some (c.src, b + 16), older := some (o, t) }

/-! The rings of the bridges (R217). -/

def seamSrc (c : SeamCfg) : Src := { kind := c.kind, index := c.index, chan := c.chan }

/-- f_in of a bridge. -/
def bridgeRate (d : Dev) (c : SeamCfg) : Nat :=
  if pathMode d == .singleRate then
    (if c.kind = 1 then flowRate d (tabGet d.net.rxFlows c.index).cfg.domain
     else if c.kind = 2 then aesRate d c.index else if c.kind = 3 then tdmRate d c.index else 48000)
  else match srcDom d (seamSrc c) with
    | some n => rateOf d n
    | none => 48000

/-- FT of R78 and its fraction at dt. -/
def ftAt (dt : DT) (f : Nat) : MT × Half :=
  (BitVec.ofNat 32 (dt.toNat * f / 1000000000), BitVec.ofNat 16 (dt.toNat * f % 1000000000 * 65536 / 1000000000))

/-- A source's sample k, where it is in memory. -/
def srcHeld (d : Dev) (s : Src) (k : MT) : Option Int :=
  match s.kind with
  | 4 => lineGet (tabGet d.render.cols s.index) (k - 32)
  | 5 => lineGet (tabGet d.render.hb s.index) (k - 32)
  | 6 => lineGet (tabGet d.render.tile s.index) (k - 32)
  | _ => srcRaw d s k

/-- The count of a bridge's input end (R222). -/
def bridgeCount (d : Dev) (c : SeamCfg) : MT :=
  if single d then
    (if c.kind = 1 then (ftAt (getDom d (effDom d c.outDom)).dt (bridgeRate d c)).1
     else if c.kind = 2 then (tabGet d.ports.aesRx c.index).lastMt else (tabGet d.ports.tdm c.index).lastMt)
  else ((srcDom d (seamSrc c)).map (mtOf d)).getD 0

/-- Samples of a source that have come since a ring was filled, up to a count. -/
def ringTake (d : Dev) (s : Src) (stop : MT) : Nat → Line → Line
  | 0, l => l
  | n + 1, l =>
    if mtDiff stop l.next < 0 then l else
    match srcHeld d s l.next with
    | some v => ringTake d s stop n { next := l.next + 1, xs := (v :: l.xs).take 512 }
    | none => l

/-- The ring of bridge i takes what its source has in memory. -/
def bridgeFill (d : Dev) (i : Nat) : Dev :=
  let x := tabGet d.seam.br i
  if !x.cfg.enable then d else
  let stop := bridgeCount d x.cfg
  let gap := mtDiff stop x.ring.next
  let l : Line := if x.ring.xs.isEmpty || decide (512 < gap) || decide (gap < -64) then { next := stop - 511 } else x.ring
  { d with seam := { d.seam with br := tabSet d.seam.br i { x with ring := ringTake d (seamSrc x.cfg) stop 512 l } } }

/-- Every ring takes what is in memory, before samples of domain n are cleared. -/
def bridgesFill (d : Dev) (n : Nat) : Dev :=
  (tabFind d.seam.br (fun x => x.cfg.enable && srcDom d (seamSrc x.cfg) == some n)).foldl bridgeFill d

end Sys2Proof.Machine
end

