-- ==== Sys2Proof/Machine/Domains.lean ====
section
/-! DEFINITION. Rate domains: DOMAIN_CFG, the state machine of R60, realignment and closing (R64), word clocks (R65–R68,
R75, R99). -/

namespace Sys2Proof.Machine

/-! Time seen by commands. -/

/-- A command that carries a later device time than DT brings DT to it. -/
def dtTo (d : Dev) (dt : DT) : Dev := if d.time.dt.toNat < dt.toNat then timeMod d (fun t => { t with dt := dt }) else d

/-! Pulse trains (R15, R71). -/

/-- The signed 48-bit difference of two device times (R15). -/
def dtDiff (a b : DT) : Int := sext 48 (a - b).toNat

/-- The first device time at or after k of the grid start + j × period. -/
def dtGrid (start k : DT) (period : Nat) : DT :=
  start + BitVec.ofNat 64 (((dtDiff k start).toNat + period - 1) / period * period)

/-- The first media time at or after k whose signed difference from start is zero or a positive multiple of the period; past the half
range of R13 that is start again. -/
def mtGrid (start k : MT) (period : Nat) : MT :=
  let u := (k - start).toNat
  let v := (u + period - 1) / period * period
  if 2 ^ 31 ≤ u ∨ 2 ^ 31 ≤ v then start else start + BitVec.ofNat 32 v

/-- Trains on the media time of domain n go on from MT k, which has been seeded. -/
def pulsesReseat (d : Dev) (n : Nat) (k : MT) : Dev :=
  timeMod d (fun t => { t with pulses := t.pulses.map (fun kv =>
    (kv.1, if kv.2.running && kv.2.cfg.timebase == n + 1 && kv.2.cfg.mode == 2 then
        { kv.2 with next := (mtGrid (kv.2.cfg.start.setWidth 32) k kv.2.cfg.period).setWidth 64 } else kv.2)) })

/-! The DOMAIN_CFG reply (R65). -/

/-- The reply after its status.  A domain without valid MT reports the last MT it counted (DESIGN CHOICE, log entry 110). -/
def domBody (d : Dev) (n : Nat) : List Byte :=
  let x := getDom d n
  p8 (domCode x.state) ++ p8 (if slaved d then (tabGet d.twin.markers n).source else x.cfg.source) ++ p8 (domFlags x) ++ p32 x.cfg.rate ++ p32 x.mt.toNat ++ p64 x.dt.toNat ++ s32 x.phase ++
    s32 x.freqPpb ++ p32 x.realigns.toNat

/-! Rates and capacities (R39, R41, R58, R218). -/

def rateOk (f : Nat) : Bool := f == 44100 || f == 48000 || f == 88200 || f == 96000 || f == 176400 || f == 192000

/-- ρ_n = f_in/f_out lies in the range of R218. -/
def ratioOk (fIn fOut : Nat) : Bool := decide (fOut ≤ 4 * fIn) && decide (fIn ≤ 4 * fOut)

/-- Rates as they would be with domain n at rate f. -/
def rateWith (d : Dev) (n f : Nat) : Nat → Nat := fun k => if k = n then f else rateOf d k

/-- R39 holds of a scene at given rates, now and when its waiting bindings are in force. -/
def chargeFitsAt (d : Dev) (sc : Scene) (rate : Nat → Nat) : Bool :=
  let ok (s : Scene) : Bool := decide (totalCharge s (pathMode d == .singleRate) rate ≤ chargeLimit)
  ok sc && ok (pendingBinds sc)

/-- The allotment that domain n will have when the DOMAIN_CFG SETs that wait are in force. -/
def allotWaiting (d : Dev) (n : Nat) : Nat :=
  d.fw.commits.foldl (fun (a : Nat) w =>
    let p := w.taken.req.payload
    if w.taken.op = .domainCfg ∧ u8 p 0 = n ∧ u8 p 1 = 0 then u16 p 8 else a) (getDom d n).cfg.allot

/-- R39, R41, R42 and R154 with domain n at rate f and allotment a. -/
def domFits (d : Dev) (n f a : Nat) : Bool :=
  let allot (k : Nat) : Nat := if k = n then a else allotWaiting d k
  chargeFitsAt d d.scene (rateWith d n f) &&
    decorFits d.scene (if pathMode d == .singleRate then fun _ => 48000 else rateWith d n f) &&
    mapsFit d.scene (if pathMode d == .singleRate then fun _ => 48000 else rateWith d n f) d.mantle.ch &&
    decide (allot 0 * rateWith d n f 0 + allot 1 * rateWith d n f 1 + allot 2 * rateWith d n f 2 ≤ 768000 * 16)

/-- Every chain column bound to domain n keeps D_align + L_ahead within its line at rate f (R172). -/
def domChainsOk (d : Dev) (n f : Nat) : Bool := d.chain.cols.all (fun kv => !chainOf d n kv.1 || tapsOk kv.2.cfg f)

/-- The device as its stored configuration names domains: not in the view of SINGLE_RATE (R77, R227). -/
def storedView (d : Dev) : Dev :=
  if pathMode d == .singleRate then
    { d with dom := d.dom.map (fun kv => (kv.1, { kv.2 with cfg := kv.2.stored.getD kv.2.cfg })), fw := { d.fw with mode := .service, changing := none } }
  else d

/-- Enabled bridges stay within R218 with domain n at rate f. -/
def domBridgesOk (d : Dev) (n f : Nat) : Bool :=
  let cs := if pathMode d == .singleRate then d.seam.stored.map (·.2) else d.seam.br.map (fun kv => kv.2.cfg)
  let v := storedView d
  cs.all (fun c => !c.enable || match srcDom v { kind := c.kind, index := c.index, chan := c.chan } with
    | some i => ratioOk (rateWith v n f i) (rateWith v n f c.outDom)
    | none => true)

/-! Realignment, stopping and the closing period (R60, R61, R64). -/

/-- A domain enters REALIGN or STOPPED at boundary b: the closing period begins where it renders, and its tasks not DONE are cancelled (R64,
R308; log entry 127). -/
def beginClosing (d : Dev) (n : Nat) (b : MT) (dt : DT) (stop : Bool) : Dev :=
  let renders := (getDom d n).rendered || domRenders d n
  let d := tilesMod (stageEndNow d n) (fun T => disarmDomain T n)
  let d := domMod d n (fun x =>
    { domClearFlags x with
      closing := some { b := b, cleared := false, counts := renders }, stopReq := false, realignReq := false
      realigns := if stop then x.realigns else x.realigns + 1, started := x.started && !stop })
  let d : Dev := if (d.scene.layout.map (fun l => effDom d l.dom)) == some n then { d with track := { d.track with broken := true } } else d
  let d := if stop then stopQueues d n else d
  let d := if renders || !stop then d else domMod (stageClear (bridgesFill d n) n) n (fun x => { x with closing := none })
  domState d n (if stop then .stopped else .realign) b dt

/-- CLOSING_STATE_CLEAR (R64 step 2). -/
def closingClear (d : Dev) (n : Nat) : Dev :=
  match (getDom d n).closing with
  | none => d
  | some c =>
    if c.cleared || (c.counts && !mtGe (mtOf d n) (c.b + 16)) then d
    else domMod (stageClear (bridgesFill d n) n) n (fun x => { x with closing := some { c with cleared := true }, rendered := false })

/-- REALIGN_COMPLETE (R64 step 4): the period ends; a realigning domain enters ACQUIRE with its settings to come. -/
def closingEnd (d : Dev) (n : Nat) : Dev :=
  match (getDom d n).closing with
  | none => d
  | some c =>
    if c.counts && !mtGe (mtOf d n) (c.b + 32) then d else
    let d := if c.cleared then d else stageClear (bridgesFill d n) n
    let d := domMod d n (fun x => { x with closing := none, rendered := false, refLost := false })
    if (getDom d n).state = .realign then
      let d := domMod d n (fun x => { x with cfg := x.nextCfg.getD x.cfg, nextCfg := none, relock := true })
      let d := domMod d n (fun x => { x with validSince := if refValid d n x.cfg then some (now d) else none })
      domState d n .acquire (if c.counts then c.b + 32 else 0) (now d)
    else d

/-! Validity of references. -/

/-- The references of all domains after a change of what they depend on: one that has become invalid is remembered to the
next boundary (R74); ACQUIRE measures from the return of its reference. -/
def refsChanged (d : Dev) : Dev :=
  (List.range 3).foldl (fun d n =>
    let v := refValid d n (getDom d n).cfg
    domMod d n (fun x => { x with refLost := x.refLost || !v,
                                  validSince := if v then (if x.validSince.isSome then x.validSince else some (now d)) else none,
                                  within := if v || x.state != .acquire then x.within else 0 })) d

/-! A boundary's judgement (R60, R63, R74). -/

/-- |e| exceeds 16 samples. -/
def beyond16 (e : Int) (f : Nat) : Bool := decide (16 * 1000000000 < e.natAbs * f)

/-- The state of a running domain judged at boundary b, after the commits of that boundary. -/
def judgeDomain (d : Dev) (n : Nat) (b : MT) (dt : DT) (phase : Int) : Dev :=
  let x := getDom d n
  let f := x.cfg.rate
  let near := decide (phase.natAbs ≤ 100)
  let auto := x.cfg.flags.getLsbD 0
  let valid := refValid d n x.cfg && !x.refLost
  let d := domMod d n (fun x => { x with refLost := false, within := if near then x.within + 1 else 0 })
  if x.stopReq then beginClosing d n b dt true
  else if x.realignReq then beginClosing d n b dt false
  else if slaved d then d
  else if x.state = .locked then
    if !valid then domState (domMod d n (fun x => { x with slewing := false, holdoverSince := dt })) n .holdover b dt
    else if !beyond16 phase f then d
    else if auto then beginClosing d n b dt false
    else domState (domMod d n (fun x => { x with slewing := false, holdoverSince := dt, realignPending := true })) n .holdover b dt
  else if x.state = .holdover then
    if !valid then d
    else if !beyond16 phase f then
      domState (domMod d n (fun x => { x with realignPending := false, holdoverExpired := false, slewing := true, within := 0 })) n .locked b dt
    else if auto then beginClosing d n b dt false
    else domMod d n (fun x => { x with realignPending := true })
  else d

/-- Settings that come into force at boundary b (R61, R66): a change of source is a loss of the old reference. -/
def takeCfg (d : Dev) (n : Nat) (c : DomCfg) : Dev :=
  domMod d n (fun x => { x with cfg := c, nextCfg := none, refLost := x.refLost || c.source != x.cfg.source })

/-- Settings that wait for a boundary of a domain that runs on (R62, R75). -/
def takeNext (d : Dev) (n : Nat) : Dev :=
  let x := getDom d n
  match x.nextCfg with
  | some c => if domRuns x.state && !x.stopReq && !x.realignReq && c.rate == x.cfg.rate then takeCfg d n c else d
  | none => d

/-- STOP of a domain that realigns: it is STOPPED, and its closing period goes on (R61, R66). -/
def stopClosing (d : Dev) (n : Nat) (b : MT) (dt : DT) : Dev :=
  let d := stopQueues (domMod d n (fun x => { domClearFlags x with started := false, stopReq := false, realignReq := false, nextCfg := none })) n
  domState d n .stopped b dt

/-- The domain's state at boundary b. -/
def judgeBoundary (d : Dev) (n : Nat) (b : MT) (dt : DT) (phase : Int) : Dev :=
  let x := getDom d n
  if domRuns x.state then judgeDomain d n b dt phase
  else if x.state == .realign && x.stopReq then stopClosing d n b dt else d

/-- DOMAIN_LOCK (R59, R60): MT is seeded for the sample instant at dt. -/
def domLock (d : Dev) (n : Nat) (dt : DT) : Dev :=
  let x := getDom d n
  if x.state ≠ .acquire ∨ x.within < 64 ∨ slaved d then d else
  let d := dtTo d dt
  let f := x.cfg.rate
  let m := rateM f
  let m' := if x.cfg.source = 2 ∧ x.cfg.flags.getLsbD 1 then m else 1
  let mt := BitVec.ofNat 32 (m' * (dt.toNat * f / (m' * 1000000000)))
  let d := domMod d n (fun x => { x with mt := mt, dt := dt, acquireTimeout := false, rendered := false, refLost := false, within := 0, freqHist := [] })
  let d := sceneMod d (fun s => rejudgeQueue s n (nextMt mt) f)
  let d := mchansWhere d (mchanOf d n) (fun c => chanLocked c mt)
  domState (pulsesReseat d n mt) n .locked mt dt

/-! DOMAIN_CFG (R65, R66, R75). -/

def domCfgOf (p : List Byte) : DomCfg :=
  { source := u8 p 2, flags := BitVec.ofNat 8 (u8 p 3), rate := u32 p 4, allot := u16 p 8, holdoverS := u16 p 10 }

/-- Modes in which the actions other than GET are accepted. -/
def domModes : List Mode := [.config, .service, .twin, .calibrate, .singleRate]

/-- A field of SET out of range. -/
def domCfgBad (p : List Byte) : Bool :=
  decide (2 < u8 p 2) || decide (31 < u8 p 3) || !rateOk (u32 p 4) || decide (256 < u16 p 8) || u16 p 10 == 0 || decide (3600 < u16 p 10)

def domAns (d : Dev) (n : Nat) (st : Status) : Dev × Ans := (d, .now st (domBody d n))

/-- A refused DOMAIN_CFG: every reply describes the domain it names (R65). -/
def domRefuse (d : Dev) (n : Nat) (st : Status) : Dev × Ans := (d, .now st (if n ≤ 2 then domBody d n else []))

/-- The rate of domain n changes while it is STOPPED: its receivers look for their signal anew, and its TDM ports stop and start at
the new rate (R314, R321).  The domain emits zero already, so nothing is left to fade. -/
def ratePorts (d : Dev) (n : Nat) : Dev :=
  let d := (List.range 16).foldl (fun d i =>
    let r := tabGet d.ports.aesRx i
    if !r.cfg.enable || r.cfg.domain != n || r.state == .absent then d
    else evPortClock (portsMod d (fun p => { p with aesRx := tabSet p.aesRx i { r with state := .absent, gate := {}, frames := 0, seenZ := false } }))
      2 i (aesCode .absent) (aesCode r.state) 0 0 (now d)) d
  (List.range 8).foldl (fun d i =>
    let t := tabGet d.ports.tdm i
    if t.cfg.domain != n || !(t.state == .starting || t.state == .running || t.state == .clockFault) then d
    else evPortClock (portsMod d (fun p => { p with tdm := tabSet p.tdm i { t with state := .stopping, pend := some t.cfg, frames := 0, gate := {}, gateT := {} } }))
      3 i (tdmCode .stopping) (tdmCode t.state) 0 0 (now d)) d

/-- DOMAIN_CFG SET. -/
def judgeDomSet (d : Dev) (t : Taken) (_ : Option (List Byte)) : Dev × Ans :=
  let p := t.req.payload
  let n := u8 p 0
  let c := domCfgOf p
  if !inModes t domModes then domRefuse d n .badMode
  else if !longEnough t 12 || decide (2 < n) || u8 p 1 != 0 || domCfgBad p then domRefuse d n .badArg
  else
    let x := getDom d n
    let single := tMode t == .singleRate
    if !single && x.state != .stopped && c.rate != x.cfg.rate then domRefuse d n .busy
    else if !domBridgesOk d n c.rate || !domChainsOk (storedView d) n c.rate then domRefuse d n .badArg
    else if !domFits d n c.rate c.allot then domRefuse d n .noResource
    else if single then let d := domMod d n (fun x => { x with stored := some c }); domAns d n .ok
    else if domRuns x.state then (d, .commit n)
    else
      let d := if c.rate = x.cfg.rate then d else ratePorts d n
      let d := domMod d n (fun x =>
        { x with
          cfg := c, nextCfg := none, stored := none, within := if c.source = x.cfg.source then x.within else 0
          validSince := if refValid d n c then some ((if c.source = x.cfg.source then x.validSince else none).getD (now d)) else none })
      domAns d n .ok

/-- DOMAIN_CFG START. -/
def judgeDomStart (d : Dev) (t : Taken) (_ : Option (List Byte)) : Dev × Ans :=
  let p := t.req.payload
  let n := u8 p 0
  if !inModes t domModes then domRefuse d n .badMode
  else if !longEnough t 2 || decide (2 < n) || u8 p 1 != 1 then domRefuse d n .badArg
  else if tMode t == .singleRate then (if n = 0 then domAns d n .ok else domRefuse d n .badMode)
  else if (getDom d n).state != .stopped then domAns d n .ok
  else
    let d := domStart d n (getDom d n).cfg
    domAns d n .ok

/-- DOMAIN_CFG STOP. -/
def judgeDomStop (d : Dev) (t : Taken) (_ : Option (List Byte)) : Dev × Ans :=
  let p := t.req.payload
  let n := u8 p 0
  let s := (getDom d n).state
  if !inModes t domModes then domRefuse d n .badMode
  else if !longEnough t 2 || decide (2 < n) || u8 p 1 != 2 then domRefuse d n .badArg
  else if tMode t == .singleRate then (if n = 0 then domRefuse d n .badMode else domAns d n .ok)
  else if s == .stopped then domAns d n .ok
  else if domRuns s || realignCounts d n then (d, .commit n)
  else let d := stopNow d n; domAns d n .ok

/-- DOMAIN_CFG REALIGN.  On a STOPPED domain it is BUSY: there is no reference in use.  Of the two bullets of R66 that meet on a domain in
ACQUIRE whose reference is invalid, the model takes the one that answers OK (DESIGN CHOICE, log entry 112). -/
def judgeDomRealign (d : Dev) (t : Taken) (_ : Option (List Byte)) : Dev × Ans :=
  let p := t.req.payload
  let n := u8 p 0
  let x := getDom d n
  if !inModes t domModes then domRefuse d n .badMode
  else if !longEnough t 2 || decide (2 < n) || u8 p 1 != 3 then domRefuse d n .badArg
  else if tMode t == .singleRate && n != 0 then domRefuse d n .badMode
  else if x.state == .acquire || x.state == .realign then domAns d n .ok
  else if x.state == .stopped || !refValid d n x.cfg then domRefuse d n .busy
  else (d, .commit n)

/-- DOMAIN_CFG GET. -/
def judgeDomGet (d : Dev) (t : Taken) (_ : Option (List Byte)) : Dev × Ans :=
  let n := u8 t.req.payload 0
  if !longEnough t 2 || decide (2 < n) || u8 t.req.payload 1 != 4 then domRefuse d n .badArg else domAns d n .ok

/-- A STOP of the domain is among the commits of this boundary. -/
def stopDue (d : Dev) (n : Nat) : Bool :=
  (getDom d n).stopReq || d.fw.commits.any (fun c => c.dom == n && c.taken.op == .domainCfg && u8 c.taken.req.payload 1 == 2)

/-- DOMAIN_CFG takes effect at a boundary; a STOP and a REALIGN are carried out when the boundary is judged. -/
def applyDomCfg (d : Dev) (t : Taken) : Dev :=
  let p := t.req.payload
  let n := u8 p 0
  let x := getDom d n
  if u8 p 1 = 0 then
    (if domRuns x.state then takeCfg d n (domCfgOf p) else domMod d n (fun x => { x with cfg := { domCfgOf p with rate := x.cfg.rate } }))
  else if u8 p 1 = 2 then
    (if domRuns x.state || x.state == .realign then domMod d n (fun x => { x with stopReq := true }) else if x.state = .stopped then d else stopNow d n)
  else if stopDue d n || !domRuns x.state || !refValid d n x.cfg || x.refLost then d
  else domMod d n (fun x => { x with realignReq := true })

/-- DOMAIN_CFG answered at its boundary, when the domain has been judged: a REALIGN that was not made is CANCELLED (R66). -/
def domCfgReply (d : Dev) (t : Taken) : Dev :=
  let n := u8 t.req.payload 0
  reply d t (if u8 t.req.payload 1 = 3 ∧ (getDom d n).state ≠ .realign then .cancelled else .ok) (domBody d n)

def execDomainCfgSet (r : Req) (s : State) : Host.Outcome State Fault Refusal := reqRow .domainCfg 1 [1, 2, 3, 4] judgeDomSet r s
def execDomainCfgStart (r : Req) (s : State) : Host.Outcome State Fault Refusal := reqRow .domainCfg 1 [0, 2, 3, 4] judgeDomStart r s
def execDomainStop (r : Req) (s : State) : Host.Outcome State Fault Refusal := reqRow .domainCfg 1 [0, 1, 3, 4] judgeDomStop r s
def execDomainCfgRealign (r : Req) (s : State) : Host.Outcome State Fault Refusal := reqRow .domainCfg 1 [0, 1, 2, 4] judgeDomRealign r s
def execDomainCfgGet (r : Req) (s : State) : Host.Outcome State Fault Refusal := reqRow .domainCfg 1 [0, 1, 2, 3] judgeDomGet r s

/-! Events of domains. -/

/-- DOMAIN_LOCK (R60). -/
def execDomainLock (d : Fin 3) (dt : DT) (s : State) : Host.Outcome State Fault Refusal := run (fun x => domLock x d.val dt) s

/-- ACQUIRE_TIMEOUT (R60). -/
def execAcquireTimeout (d : Fin 3) (s : State) : Host.Outcome State Fault Refusal :=
  run (fun x => if (getDom x d.val).state = .acquire ∧ refValid x d.val (getDom x d.val).cfg then domMod x d.val (fun y => { y with acquireTimeout := true }) else x) s

/-- HOLDOVER_EXPIRED (R60, R62): in SINGLE_RATE D0's reference is chosen again. -/
def holdoverExpire (d : Dev) (n : Nat) : Dev :=
  if (getDom d n).state ≠ .holdover then d else
  let d := domMod d n (fun x => { x with holdoverExpired := true })
  let c := (getDom d 0).cfg
  if pathMode d == .singleRate && n == 0 && singleSource d != c.source then domMod d 0 (fun x => { x with nextCfg := some { c with source := singleSource d } }) else d

def execHoldoverExpired (d : Fin 3) (s : State) : Host.Outcome State Fault Refusal := run (fun x => holdoverExpire x d.val) s

/-- SLEWING_CLEAR (R63). -/
def execSlewingClear (d : Fin 3) (s : State) : Host.Outcome State Fault Refusal :=
  run (fun x => if (getDom x d.val).state = .locked ∧ 64 ≤ (getDom x d.val).within then domMod x d.val (fun y => { y with slewing := false }) else x) s

/-- CLOSING_STATE_CLEAR (R64). -/
def execClosingStateClear (d : Fin 3) (s : State) : Host.Outcome State Fault Refusal := run (fun x => closingClear x d.val) s
/-- REALIGN_COMPLETE (R64). -/
def execRealignComplete (d : Fin 3) (s : State) : Host.Outcome State Fault Refusal := run (fun x => closingEnd x d.val) s

/-- A word-clock input's state changes (R67, R73). -/
def wordClock (d : Dev) (i : Nat) (present : Bool) : Dev :=
  if tabGet d.time.wcPresent i = present then d else
  let d := timeMod d (fun t => { t with wcPresent := tabSet t.wcPresent i present })
  refsChanged (evPortClock d 1 i (b2n present) (b2n !present) 0 0 (now d))

def execWordClockAbsent (input : Fin 3) (s : State) : Host.Outcome State Fault Refusal := run (fun d => wordClock d input.val false) s
def execWordClockPresent (input : Fin 3) (s : State) : Host.Outcome State Fault Refusal := run (fun d => wordClock d input.val true) s

end Sys2Proof.Machine
end

