-- ==== Sys2Proof/Machine/GraphReq.lean ====
section
/-! DEFINITION. The graph requests: GRAPH_LOAD, GRAPH_START, GRAPH_STOP, TASK_CANCEL, and what a boundary does with the
switches and cancels that wait (R299, R305, R306). -/

namespace Sys2Proof.Machine

def graphModes : List Mode := [.config, .service, .twin, .singleRate, .calibrate]

/-- The rate a domain's tasks are charged at. -/
def graphRate (d : Dev) (n : Nat) : Nat := if pathMode d == .singleRate then 48000 else rateOf d n

/-! GRAPH_LOAD (R305). -/

def graphBody (slot tasks kind err : Nat) (id : Word) (first : Nat) : List Byte :=
  p8 slot ++ p16 tasks ++ p8 kind ++ p8 0 ++ p16 err ++ p32 id.toNat ++ p16 first ++ zeros 2

/-- The reply after the status of an image in a slot. -/
def graphLoaded (d : Dev) (slot : Nat) : List Byte :=
  let im := tabGet d.tiles.sched.slots slot
  graphBody slot im.count 0 0xFFFF im.id im.first

def graphErr (d : Dev) (slot : Nat) (e : GErr) : Dev × Ans := ansB d e.st (graphBody slot 0 e.kind e.err 0 0)

/-- A load is in progress: an image being fetched or placed. -/
def graphBusy (d : Dev) : Bool :=
  d.fw.bulks.any (fun b => b.taken.op == .graphLoad) || (List.range 2).any (fun i => (tabGet d.tiles.sched.slots i).state == .loading)

/-- The image staged in control SRAM (R37, R305). -/
def stageImage (T : Tiles) (bs : List Byte) : Tiles := { T with mem := memWriteBytes T.mem 0x00290000 (bs.take 0x00100000) }

def judgeGraphLoad (d : Dev) (t : Taken) (bulk : Option (List Byte)) : Dev × Ans :=
  let p := t.req.payload
  let slot := u8 p 16
  if !inModes t graphModes then ans d .badMode
  else if !longEnough t 20 || decide (1 < slot) || !isZero p 17 3 || !t.req.bulk || !bulkOk (bulkRef p 0) then bad d
  else if slotRuns d.tiles.sched slot || graphBusy d then ans d .busy
  else
    let d := tilesMod d (fun T => dropSlot T slot)
    match bulk with
    | none => needFetch d t 0
    | some bs =>
      let d := tilesMod d (fun T => stageImage T bs)
      match parseImage bs with
      | .error e => graphErr d slot e
      | .ok im => match checkImage im (tabGet d.tiles.sched.slots (1 - slot)) (graphRate d) (decorCharge d.scene (graphRate d)) with
        | .error e => graphErr d slot e
        | .ok (first, offs) => (tilesMod d (fun T => loadImage T slot im first offs), .wait (.graphLoad slot))

/-- GRAPH_LOAD (R305). -/
def execGraphLoad (r : Req) (s : State) : Host.Outcome State Fault Refusal := reqRow1 .graphLoad judgeGraphLoad r s

/-- GRAPH_LOAD_COMPLETE: the code stands in the instruction memories and the slot is LOADED. -/
def graphLoadDone (d : Dev) (slot : Nat) : Dev :=
  if (tabGet d.tiles.sched.slots slot).state ≠ .loading then d else
  let d := tilesMod d (fun T => finishLoad T slot)
  let ws := d.fw.waits.filter (fun w => w.what == .graphLoad slot)
  let d := fw d (fun f => { f with waits := f.waits.filter (fun w => w.what != .graphLoad slot) })
  ws.foldl (fun d w => reply (completionTicket d w.taken []) w.taken .ok (graphLoaded d slot)) d

def execGraphLoadComplete (slot : Fin 2) (s : State) : Host.Outcome State Fault Refusal := run (fun d => graphLoadDone d slot.val) s

/-! GRAPH_START and GRAPH_STOP (R306). -/

/-- Reply after the status: the slot and the boundaries at which the domains switched. -/
def switchBody (slot : Nat) (mts : Tab MT) : List Byte :=
  p8 slot ++ zeros 2 ++ (List.range 3).flatMap (fun n => p32 (tabGet mts n).toNat)

/-- Domain n runs image `to` from boundary b (R306): ports the new image lacks fade, its own ramp in. -/
def graphSwitch (d : Dev) (n : Nat) (dest : Option Nat) (b : MT) : Dev :=
  let old := (domPorts d.tiles.sched n).map (·.1)
  let d := tilesMod d (fun T => switchDomain T n dest)
  let new := (domPorts d.tiles.sched n).map (·.1)
  let g := (old.filter (fun p => !new.contains p)).foldl (fun g p => tabSet g (1024 + p) (gateFade b)) d.render.gates
  { d with render := { d.render with gates := new.foldl (fun g p => tabSet g (1024 + p) { phase := .ramp, t := b }) g } }

/-- A switch whose domains have all switched is answered. -/
def switchAnswer (d : Dev) (no : Nat) : Dev :=
  match d.tiles.sched.switchReqs.find? (fun r => r.no == no) with
  | some r =>
    if r.left.isEmpty then
      reply (tilesMod d (fun T => schedMod T (fun s => { s with switchReqs := s.switchReqs.filter (fun x => x.no != no) }))) r.taken
        (if r.late then .late else .ok) (switchBody r.slot r.mts)
    else d
  | none => d

/-- The switch that waits in domain n and is due at boundary b. -/
def graphBoundary (d : Dev) (n : Nat) (b : MT) : Dev :=
  match tabGet d.tiles.sched.switches n with
  | none => d
  | some w =>
    if (w.atMt.map (fun a => mtGe b a)) == some false then d else
    let d := graphSwitch d n w.dest b
    let d := tilesMod d (fun T => schedMod T (fun s => { s with switchReqs := s.switchReqs.map (fun r =>
      if r.no = w.reqNo ∧ r.left.contains n then { r with left := r.left.filter (· != n), mts := tabSet r.mts n b } else r) }))
    switchAnswer d w.reqNo

/-- GRAPH_START and GRAPH_STOP, of the named domains to an image. -/
def graphChange (d : Dev) (t : Taken) (slotByte : Nat) (dest : Option Nat) : Dev × Ans :=
  let p := t.req.payload
  let s := d.tiles.sched
  let names := (List.range 3).filter (fun n => bit (u8 p 1) n)
  let atMt := bit (u8 p 2) 0 && tMode t != .config
  let mt : MT := BitVec.ofNat 32 (u32 p 4)
  let live := names.filter (fun n => domRuns (getDom d n).state)
  let run (n : Nat) : Option Nat := if names.contains n then dest else toRun s n
  let late := atMt && live.any (fun n => !mtGe mt (selBoundary d n))
  if atMt && u32 p 4 % 16 != 0 then bad d
  else if atMt && live.any (fun n => decide ((8 * rateOf d n : Int) < mtDiff mt (selBoundary d n))) then bad d
  else if dest.isSome && (tabGet s.slots (dest.getD 0)).state != .loaded then ans d .notFound
  else if names.any (fun n => (tabGet s.switches n).isSome) then ans d .busy
  else if !runsFit s run (graphRate d) then ans d .noResource
  else if tMode t == .config then
    let d := names.foldl (fun d n => graphSwitch d n dest (mtOf d n + 16)) d
    ansB d .ok (switchBody slotByte [])
  else
    let no := s.nextReq
    let left := names.filter (fun n => (getDom d n).state != .stopped)
    let at_ (n : Nat) : Option MT := if !live.contains n then none else if atMt && mtGe mt (selBoundary d n) then some mt else some (selBoundary d n)
    let d := tilesMod d (fun T => schedMod T (fun s =>
      { s with nextReq := no + 1,
               switches := names.foldl (fun w n => tabSet w n (some { dest := dest, reqNo := no, atMt := at_ n })) s.switches
               switchReqs := s.switchReqs ++ [{ no := no, taken := t, slot := slotByte, left := left, late := late }] }))
    if left.isEmpty then
      (tilesMod d (fun T => schedMod T (fun s => { s with switchReqs := s.switchReqs.filter (fun x => x.no != no) })), .now .ok (switchBody slotByte []))
    else (d, .done)

def switchShort (t : Taken) : Bool :=
  let p := t.req.payload
  !longEnough t 8 || decide (7 < u8 p 1) || decide (1 < u8 p 2) || u8 p 3 != 0

def judgeGraphStart (d : Dev) (t : Taken) (_ : Option (List Byte)) : Dev × Ans :=
  let slot := u8 t.req.payload 0
  if !inModes t graphModes then ans d .badMode
  else if switchShort t || decide (1 < slot) then bad d
  else graphChange d t slot (some slot)

def judgeGraphStop (d : Dev) (t : Taken) (_ : Option (List Byte)) : Dev × Ans :=
  if !inModes t graphModes then ans d .badMode
  else if switchShort t then bad d
  else graphChange d t 0xFF none

/-- GRAPH_START (R306). -/
def execGraphStart (r : Req) (s : State) : Host.Outcome State Fault Refusal := reqRow1 .graphStart judgeGraphStart r s
/-- GRAPH_STOP (R306). -/
def execGraphStop (r : Req) (s : State) : Host.Outcome State Fault Refusal := reqRow1 .graphStop judgeGraphStop r s

/-! TASK_CANCEL (R299). -/

/-- The image a cancel names runs in its domain. -/
def cancelRuns (s : Sched) (c : Cancel) : Bool := domSlot s c.dom == c.slot

/-- The built-in instances that the base image runs in domain n (R137, R161, R206, R301): a group has one where it has an enabled object or
a bound chain column. -/
def baseRuns (d : Dev) (n : Nat) : List Nat :=
  (List.range basePerDomain).filter (fun i =>
    if i < 64 then d.scene.objs.any (fun kv => kv.1 / 16 == i && kv.2.enabled && objOf d n kv.2)
    else if i < 82 then d.scene.cols.any (fun kv => kv.1 / 32 == chainGroup i && chainOf d n kv.1)
    else if i = 82 then haloDom d == some n else true)

/-- Tasks of the base image in a domain are numbered from 84 × domain; within a slot, from 0. -/
def cancelIndex (d : Dev) (slot : Option Nat) (dom task : Nat) : Option Nat :=
  match slot with
  | none =>
    if basePerDomain * dom ≤ task ∧ (baseRuns d dom).contains (task - basePerDomain * dom) then some (task - basePerDomain * dom) else none
  | some sl =>
    let im := tabGet d.tiles.sched.slots sl
    if task < im.count ∧ (tabGet d.tiles.sched.tasks (im.first + task)).dom = dom then some task else none

def judgeTaskCancel (d : Dev) (t : Taken) (_ : Option (List Byte)) : Dev × Ans :=
  let p := t.req.payload
  let s := d.tiles.sched
  let dom := u8 p 2
  let slot : Option Nat := if u8 p 1 = 0xFF then none else some (u8 p 1)
  let mt : MT := BitVec.ofNat 32 (u32 p 8)
  let c : Cancel := { instance_ := u8 p 0 == 1, slot := slot, dom := dom, task := 0, mt := mt, taken := t }
  let next := selBoundary d dom
  if !inModes t graphModes then ans d .badMode
  else if !longEnough t 12 || decide (1 < u8 p 0) || !(decide (u8 p 1 ≤ 1) || u8 p 1 == 0xFF) || decide (2 < dom) || u8 p 3 != 0 || !isZero p 6 2 ||
      decide (u32 p 8 % 16 ≠ 0) then bad d
  else if decide ((8 * rateOf d dom : Int) < mtDiff mt next) then bad d
  else match (if c.instance_ then some 0 else cancelIndex d slot dom (u16 p 4)) with
    | none => ansB d .notFound (cancelReply c)
    | some k =>
      let c := { c with task := k }
      if !domRuns (getDom d dom).state then ansB d .notFound (cancelReply c)
      else if mtLater (mtOf d dom) mt then ansB d .late (cancelReply c)
      else if mt = mtOf d dom then
        (if cancelRuns s c then
          let r := applyCancel d.tiles (baseRuns d c.dom) c
          (tilesMod d (fun _ => schedTick (schedMod r.1 (fun s => { s with cancels := s.cancels ++ [r.2] }))), .done)
         else ansB d .notFound (cancelReply c))
      else if 64 ≤ (s.cancels.filter (fun x => !x.applied)).length then ansB d .noResource (cancelReply c)
      else (tilesMod d (fun T => schedMod T (fun s => { s with cancels := s.cancels ++ [c] })), .done)

/-- TASK_CANCEL (R299). -/
def execTaskCancel (r : Req) (s : State) : Host.Outcome State Fault Refusal := reqRow1 .taskCancel judgeTaskCancel r s

/-- Cancels of domain n at boundary b: those of the period that ends are answered, those of the period that begins are
applied, or answered NOT_FOUND where their image does not run. -/
def cancelBoundary (d : Dev) (n : Nat) (b : MT) : Dev :=
  d.tiles.sched.cancels.foldl (fun d c =>
    if c.dom ≠ n then d
    else if c.applied then
      (if mtLater b c.mt then reply (dropCancel d c) c.taken .ok (cancelReply c) else d)
    else if mtLater c.mt b then d
    else if c.mt = b ∧ cancelRuns d.tiles.sched c then
      let r := applyCancel d.tiles (baseRuns d c.dom) c
      tilesMod d (fun _ => schedMod r.1 (fun s => { s with cancels := s.cancels.map (fun x => if x = c then r.2 else x) }))
    else reply (dropCancel d c) c.taken (if c.mt = b then .notFound else .late) (cancelReply c)) d

end Sys2Proof.Machine
end

