-- ==== Sys2Proof/Machine/Adm.lean ====
section
/-! DEFINITION. The S-ADM documents of R100 and R101 read from their bytes: UTF-8, XML, and the subset of elements.  XML is the
grammar of XML 1.0 without external entities, and the documents' own grammar is that of ITU-R BS.2125 and BS.2076 (PRESUMED, log
entry 123). -/

namespace Sys2Proof.Machine

abbrev Str := List Char
def nm (s : String) : Str := s.toList

/-! UTF-8. -/

def utf8Cont (b : Byte) : Bool := b &&& 0xC0 == 0x80

/-- Well-formed UTF-8: no overlong form, no surrogate, nothing above U+10FFFF. -/
def utf8Ok : List Byte → Bool
  | [] => true
  | a :: t =>
    if a.toNat < 0x80 then utf8Ok t
    else if a.toNat < 0xC2 then false
    else if a.toNat < 0xE0 then (match t with
      | b :: r => utf8Cont b && utf8Ok r
      | _ => false)
    else if a.toNat < 0xF0 then (match t with
      | b :: c :: r => utf8Cont b && utf8Cont c && !(a == 0xE0 && b.toNat < 0xA0) && !(a == 0xED && 0xA0 ≤ b.toNat) && utf8Ok r
      | _ => false)
    else if a.toNat < 0xF5 then (match t with
      | b :: c :: e :: r => utf8Cont b && utf8Cont c && utf8Cont e && !(a == 0xF0 && b.toNat < 0x90) && !(a == 0xF4 && 0x90 ≤ b.toNat) && utf8Ok r
      | _ => false)
    else false

/-! XML. -/

def xmlSpace (c : Char) : Bool := c == ' ' || c == '\t' || c == '\n' || c == '\r'
def xmlNameStart (c : Char) : Bool := c.isAlpha || c == '_' || c == ':' || decide (128 ≤ c.toNat)
def xmlNameChar (c : Char) : Bool := xmlNameStart c || c.isDigit || c == '-' || c == '.'
def xmlChar (c : Char) : Bool := decide (32 ≤ c.toNat) || c == '\t' || c == '\n' || c == '\r'
def skipSpace (cs : Str) : Str := cs.dropWhile xmlSpace
def trimSpace (cs : Str) : Str := (skipSpace (skipSpace cs).reverse).reverse

/-- The text before the first occurrence of p, and what follows p. -/
def cutAt (p : Str) : Str → Option (Str × Str)
  | [] => none
  | c :: t => if p.isPrefixOf (c :: t) then some ([], (c :: t).drop p.length) else (cutAt p t).map (fun q => (c :: q.1, q.2))

def decDigits (cs : Str) : Option Nat :=
  if cs.isEmpty || !cs.all Char.isDigit then none else some (cs.foldl (fun a c => 10 * a + (c.toNat - 48)) 0)

def hexDigit (c : Char) : Option Nat :=
  if c.isDigit then some (c.toNat - 48) else if 'a' ≤ c ∧ c ≤ 'f' then some (c.toNat - 87) else if 'A' ≤ c ∧ c ≤ 'F' then some (c.toNat - 55) else none

def hexDigits (cs : Str) : Option Nat :=
  if cs.isEmpty then none else cs.foldl (fun a c => a.bind (fun n => (hexDigit c).map (fun h => 16 * n + h))) (some 0)

/-- The character of a reference between & and ;. -/
def xmlRef (r : Str) : Option Char :=
  if r == nm "lt" then some '<' else if r == nm "gt" then some '>' else if r == nm "amp" then some '&'
  else if r == nm "apos" then some '\'' else if r == nm "quot" then some '"'
  else match r with
    | '#' :: 'x' :: h => (hexDigits h).map Char.ofNat
    | '#' :: n => (decDigits n).map Char.ofNat
    | _ => none

/-- Text with its references replaced; the fuel is its length and one more. -/
def xmlText : Nat → Str → Option Str
  | 0, _ => none
  | _, [] => some []
  | n + 1, c :: t =>
    if c == '<' || !xmlChar c then none
    else if c == '&' then
      (cutAt [';'] t).bind (fun q => (xmlRef q.1).bind (fun x => (xmlText n q.2).map (fun r => x :: r)))
    else (xmlText n t).map (fun r => c :: r)

/-- Attributes up to the end of a tag: with whether the tag is empty, and what follows it.  No name stands twice. -/
def xmlAttrs : Nat → Str → Option (List (Str × Str) × Bool × Str)
  | 0, _ => none
  | n + 1, cs =>
    let t := skipSpace cs
    match t with
    | '>' :: r => some ([], false, r)
    | '/' :: '>' :: r => some ([], true, r)
    | _ =>
      let name := t.takeWhile xmlNameChar
      if t.length = cs.length || !((name.head?.map xmlNameStart).getD false) then none else
      match skipSpace (t.drop name.length) with
      | '=' :: v =>
        match skipSpace v with
        | q :: w =>
          if q != '"' && q != '\'' then none else
          (cutAt [q] w).bind (fun x => (xmlText (x.1.length + 1) x.1).bind (fun val => (xmlAttrs n x.2).bind (fun r =>
            if r.1.any (fun a => a.1 == name) then none else some ((name, val) :: r.1, r.2))))
        | [] => none
      | _ => none

/-- The end of a document type declaration, with an internal subset in brackets. -/
def xmlDoctype (cs : Str) : Option Str :=
  (cutAt ['>'] cs).bind (fun q => if q.1.contains '[' then (cutAt [']'] cs).bind (fun r => (cutAt ['>'] r.2).map Prod.snd) else some q.2)

/-- Tags and text in document order; comments and processing instructions are dropped. -/
def xmlToks : Nat → Str → Option (List XmlTok)
  | 0, _ => none
  | _, [] => some []
  | n + 1, cs =>
    if (nm "<!--").isPrefixOf cs then
      (cutAt (nm "--") (cs.drop 4)).bind (fun q => match q.2 with
        | '>' :: t => xmlToks n t
        | _ => none)
    else if (nm "<![CDATA[").isPrefixOf cs then
      (cutAt (nm "]]>") (cs.drop 9)).bind (fun q => if q.1.all xmlChar then (xmlToks n q.2).map (fun r => .text q.1 :: r) else none)
    else if (nm "<?xml").isPrefixOf cs then none
    else if (nm "<?").isPrefixOf cs then (cutAt (nm "?>") cs).bind (fun q => xmlToks n q.2)
    else if (nm "<!DOCTYPE").isPrefixOf cs then (xmlDoctype cs).bind (xmlToks n)
    else if (nm "</").isPrefixOf cs then
      let name := (cs.drop 2).takeWhile xmlNameChar
      match skipSpace (cs.drop (2 + name.length)) with
      | '>' :: t => (xmlToks n t).map (fun r => .close name :: r)
      | _ => none
    else if (nm "<").isPrefixOf cs then
      let name := (cs.drop 1).takeWhile xmlNameChar
      if !((name.head?.map xmlNameStart).getD false) then none else
      (xmlAttrs cs.length (cs.drop (1 + name.length))).bind (fun a =>
        (xmlToks n a.2.2).map (fun r => .start name a.1 :: (if a.2.1 then .close name :: r else r)))
    else
      let t := cs.takeWhile (fun c => c != '<')
      (xmlText (t.length + 1) t).bind (fun x => (xmlToks n (cs.drop t.length)).map (fun r => .text x :: r))

/-- The tree of a token list, with the elements still open and what the innermost of them holds so far, newest first. -/
def xmlTree : List XmlTok → List (Str × List (Str × Str) × List Xml) → List Xml → Option (List Xml)
  | [], [], acc => some acc.reverse
  | [], _ :: _, _ => none
  | .text x :: r, st, acc => xmlTree r st (.text x :: acc)
  | .start n a :: r, st, acc => xmlTree r ((n, a, acc) :: st) []
  | .close n :: r, (m, a, out) :: st, acc => if m == n then xmlTree r st (.node m a acc.reverse :: out) else none
  | .close _ :: _, [], _ => none

def xmlName : Xml → Str
  | .node n _ _ => n
  | .text _ => []
def xmlAttrList : Xml → List (Str × Str)
  | .node _ a _ => a
  | .text _ => []
def xmlKids : Xml → List Xml
  | .node _ _ k => k.filter (fun x => !(xmlName x).isEmpty)
  | .text _ => []
def xmlContent : Xml → Str
  | .node _ _ k => trimSpace (k.flatMap (fun x => match x with
    | .text t => t
    | .node _ _ _ => []))
  | .text t => t
def xmlAttr (x : Xml) (a : String) : Option Str := ((xmlAttrList x).find? (fun p => p.1 == nm a)).map Prod.snd

/-- An XML declaration at the start is skipped; one that names another encoding than UTF-8 is refused. -/
def xmlHead (cs : Str) : Option Str :=
  if !(nm "<?xml").isPrefixOf cs then some cs else
  (cutAt (nm "?>") (cs.drop 5)).bind (fun q =>
    (xmlAttrs (q.1.length + 2) (q.1 ++ ['>'])).bind (fun a =>
      match a.1.find? (fun p => p.1 == nm "encoding") with
      | some e => if e.2.map Char.toLower == nm "utf-8" then some q.2 else none
      | none => some q.2))

/-- Bytes without the zeros that fill the last 32-bit word of the data item. -/
def unpadded (bs : List Byte) : List Byte :=
  let z := min 3 (bs.reverse.takeWhile (· == 0)).length
  bs.take (bs.length - z)

/-- The root element of a document; none where it is no well-formed XML in UTF-8. -/
def xmlDoc (bs : List Byte) : Option Xml :=
  if !utf8Ok bs then none else
  let bs := if bs.take 3 == [0xEF, 0xBB, 0xBF] then bs.drop 3 else bs
  (xmlHead (bs.map (fun b => Char.ofNat b.toNat))).bind (fun cs => (xmlToks (cs.length + 1) cs).bind (fun ts => (xmlTree ts [] []).bind (fun xs =>
    match xs.filter (fun x => !(xmlName x).isEmpty) with
    | [x] => if xs.all (fun y => !(xmlName y).isEmpty || (xmlContent y).all xmlSpace) then some x else none
    | _ => none)))

/-! Numbers and times. -/

/-- A decimal number, with an exponent or not. -/
def admNum (cs : Str) : Option Frac :=
  let t := trimSpace cs
  let neg := t.head? == some '-'
  let u := if neg || t.head? == some '+' then t.drop 1 else t
  let a := u.takeWhile Char.isDigit
  let v := u.drop a.length
  let f := if v.head? == some '.' then (v.drop 1).takeWhile Char.isDigit else []
  let w := if v.head? == some '.' then v.drop (1 + f.length) else v
  (decDigits (a ++ f)).bind (fun m =>
    let m : Int := if neg then -(m : Int) else m
    match w with
    | [] => some { num := m, den := 10 ^ f.length }
    | e :: x =>
      if e != 'e' && e != 'E' then none else
      let s := x.head? == some '-'
      (decDigits (if s || x.head? == some '+' then x.drop 1 else x)).map (fun k =>
        if s then { num := m, den := 10 ^ (f.length + k) } else { num := m * 10 ^ k, den := 10 ^ f.length }))

/-- Seconds and their fraction: decimal places, or a count of a stated number to the second. -/
def admSeconds (cs : Str) : Option Frac :=
  match cutAt ['.'] cs with
  | none => (decDigits cs).map (fun s => { num := s, den := 1 })
  | some (s, f) =>
    (decDigits s).bind (fun s => match cutAt ['S'] f with
      | none => (decDigits f).map (fun k => { num := s * 10 ^ f.length + k, den := 10 ^ f.length })
      | some (n, r) => (decDigits n).bind (fun n => (decDigits r).bind (fun r => if r = 0 then none else some { num := s * r + n, den := r })))

/-- A time in seconds: hh:mm:ss with a fraction, or a number. -/
def admTime (cs : Str) : Option Frac :=
  let t := trimSpace cs
  match cutAt [':'] t with
  | none => admNum t
  | some (h, r) => (cutAt [':'] r).bind (fun q =>
      (decDigits h).bind (fun h => (decDigits q.1).bind (fun m => (admSeconds q.2).map (fun s => { s with num := s.num + (3600 * h + 60 * m) * s.den }))))

/-! The subset (R101). -/

/-- Attributes and elements of x outside the named ones. -/
def admExtra (x : Xml) (attrs kids : List String) : Nat :=
  ((xmlAttrList x).filter (fun a => !attrs.any (fun n => nm n == a.1))).length + ((xmlKids x).filter (fun k => !kids.any (fun n => nm n == xmlName k))).length

def isRefName (n : Str) : Bool := (nm "FeRDI").isPrefixOf n.reverse || (nm "ferDI").isPrefixOf n.reverse || (nm "fRDI").isPrefixOf n.reverse

/-- Own identifier of a content element. -/
def admId (x : Xml) : Option Str := ((xmlAttrList x).find? (fun p => p.1 == xmlName x ++ nm "ID" || p.1 == nm "UID")).map Prod.snd

/-- ID references of an element. -/
def admRefs (x : Xml) : List Str := ((xmlKids x).filter (fun k => isRefName (xmlName k))).map xmlContent

/-- What an element of which only ID references are used holds beside them. -/
def refsExtra (x : Xml) : Nat :=
  ((xmlAttrList x).filter (fun p => !(p.1 == xmlName x ++ nm "ID" || p.1 == nm "UID"))).length + ((xmlKids x).filter (fun k => !isRefName (xmlName k))).length

def kidsNamed (x : Xml) (n : String) : List Xml := (xmlKids x).filter (fun k => xmlName k == nm n)
def kidNamed (x : Xml) (n : String) : Option Xml := (kidsNamed x n).head?

/-- A value that may be absent; none where it is there and cannot be read. -/
def admVal (read : Str → Option Frac) (v : Option Str) : Option (Option Frac) :=
  match v with
  | none => some none
  | some s => (read s).map some

/-- The first position element of a coordinate. -/
def coordOf (x : Xml) (c : String) : Option Str :=
  ((kidsNamed x "position").find? (fun k => xmlAttr k "coordinate" == some (nm c))).map xmlContent

/-- 0 or 1. -/
def admFlag (v : Option Str) : Option (Option Bool) :=
  match v with
  | none => some none
  | some s => if s == nm "0" then some (some false) else if s == nm "1" then some (some true) else none

def blockKids : List String := ["position", "cartesian", "width", "height", "depth", "gain", "diffuse", "jumpPosition", "importance"]

/-- Elements and attributes of an audioBlockFormat outside the subset. -/
def blockExtra (x : Xml) (cartesian : Bool) : Nat :=
  let coords : List String := if cartesian then ["X", "Y", "Z"] else ["azimuth", "elevation", "distance"]
  admExtra x ["audioBlockFormatID", "rtime", "duration"] blockKids +
    ((xmlKids x).map (fun k =>
      let n := xmlName k
      if n == nm "position" then
        (if coords.any (fun c => xmlAttr k "coordinate" == some (nm c)) then admExtra k ["coordinate"] [] else 1)
      else if n == nm "gain" then admExtra k ["gainUnit"] []
      else if n == nm "jumpPosition" then admExtra k ["interpolationLength"] []
      else if blockKids.any (fun b => nm b == n) then admExtra k [] [] else 0)).sum

/-- An audioBlockFormat; none where a value of the subset cannot be read. -/
def admBlock (x : Xml) : Option AdmBlock := do
  let kid (n : String) : Option Str := (kidNamed x n).map xmlContent
  let cart ← admFlag (kid "cartesian")
  let cartesian := cart.getD false
  let coord (p c : String) : Option (Option Frac) := admVal admNum (coordOf x (if cartesian then c else p))
  let a ← coord "azimuth" "X"
  let b ← coord "elevation" "Y"
  let c ← coord "distance" "Z"
  let rtime ← admVal admTime (xmlAttr x "rtime")
  let duration ← admVal admTime (xmlAttr x "duration")
  let width ← admVal admNum (kid "width")
  let height ← admVal admNum (kid "height")
  let depth ← admVal admNum (kid "depth")
  let gain ← admVal admNum (kid "gain")
  let diffuse ← admVal admNum (kid "diffuse")
  let importance ← admVal admNum (kid "importance")
  let jump ← admFlag (kid "jumpPosition")
  let interp ← admVal admTime ((kidNamed x "jumpPosition").bind (fun k => xmlAttr k "interpolationLength"))
  let unit := (kidNamed x "gain").bind (fun k => xmlAttr k "gainUnit")
  let gainDb ← match unit with
    | none => some false
    | some u => if u == nm "dB" then some true else if u == nm "linear" then some false else none
  some { rtime := rtime, duration := duration, cartesian := cartesian, coord1 := a, coord2 := b, coord3 := c, width := width, height := height,
         depth := depth, gain := gain, gainDb := gainDb, diffuse := diffuse, jump := jump, interp := interp, importance := importance }

/-- xxxx of an Objects channel AC_0003xxxx; none for a channel of another type. -/
def objectsChan (x : Xml) : Option Nat :=
  let id := (xmlAttr x "audioChannelFormatID").getD []
  if !(nm "AC_0003").isPrefixOf id || id.length ≠ 11 || ((xmlAttr x "typeLabel").getD (nm "0003") != nm "0003") ||
      ((xmlAttr x "typeDefinition").getD (nm "Objects") != nm "Objects") then none
  else hexDigits (id.drop 7)

def refElems : List String := ["audioProgramme", "audioContent", "audioPackFormat", "audioTrackUID", "audioTrackFormat", "audioStreamFormat"]
def contentElems : List String := refElems ++ ["audioObject", "audioChannelFormat"]
def isElem (x : Xml) (ns : List String) : Bool := ns.any (fun n => nm n == xmlName x)

/-- Identifiers that ID references lead to from a set of them, over the elements of a document. -/
def admReach (es : List Xml) : Nat → List Str → List Str
  | 0, ids => ids
  | n + 1, ids =>
    admReach es n (ids ++ (es.filter (fun e => isElem e refElems && ((admId e).map ids.contains).getD false)).flatMap admRefs)

/-- Start of the first audioObject whose references lead to a channel. -/
def objStart (es : List Xml) (chan : Str) : Option (Option Frac) :=
  match es.find? (fun e => xmlName e == nm "audioObject" &&
      (admReach es (min es.length 8) (((kidsNamed e "audioPackFormatIDRef") ++ (kidsNamed e "audioTrackUIDRef")).map xmlContent)).contains chan) with
  | none => some none
  | some o => admVal admTime (xmlAttr o "start")

/-- An Objects channel with its blocks. -/
def admChan (es : List Xml) (x : Xml) (xxxx : Nat) : Option AdmChan := do
  let st ← objStart es ((xmlAttr x "audioChannelFormatID").getD [])
  let bs ← (kidsNamed x "audioBlockFormat").mapM admBlock
  some { chan := xxxx, objStart := st, blocks := bs }

/-- What a content element holds outside the subset. -/
def contentExtra (x : Xml) : Nat :=
  if isElem x refElems then refsExtra x
  else if xmlName x == nm "audioObject" then admExtra x ["audioObjectID", "start"] ["audioPackFormatIDRef", "audioTrackUIDRef"]
  else match objectsChan x with
    | none => 1
    | some _ => admExtra x ["audioChannelFormatID", "typeDefinition", "typeLabel"] ["audioBlockFormat"] +
        ((kidsNamed x "audioBlockFormat").map (fun b => blockExtra b (((kidNamed b "cartesian").map xmlContent) == some (nm "1")))).sum

/-- The document of a frame (R100, R101): none where it is malformed.  audioFormatExtended is the wrapping of the elements that R101
lists. -/
def admRead (bs : List Byte) : Option AdmDoc := do
  let x ← xmlDoc (unpadded bs)
  if xmlName x != nm "frame" then none else
  let h ← kidNamed x "frameHeader"
  let ff ← kidNamed h "frameFormat"
  let ty ← xmlAttr ff "type"
  let start ← (xmlAttr ff "start").bind admTime
  let _ ← admVal admTime (xmlAttr ff "duration")
  if ty == nm "header" || ty == nm "divided" then some { whole := false } else
  if ty != nm "full" && ty != nm "intermediate" then none else
  let wraps := kidsNamed x "audioFormatExtended"
  let es := ((xmlKids x).flatMap (fun k => if xmlName k == nm "audioFormatExtended" then xmlKids k else [k])).filter (fun k => isElem k contentElems)
  let chans ← es.mapM (fun e => if xmlName e == nm "audioChannelFormat" then (match objectsChan e with
    | some n => (admChan es e n).map (fun c => [c])
    | none => some []) else some [])
  some { start := start, chans := chans.flatten
         ignored := admExtra x [] (["frameHeader", "audioFormatExtended"] ++ contentElems) + admExtra h [] ["frameFormat"] +
           admExtra ff ["frameFormatID", "start", "duration", "type"] [] + (wraps.map (fun w => admExtra w [] contentElems)).sum + (es.map contentExtra).sum }

end Sys2Proof.Machine
end

