-- ==== Sys2Proof/Machine/NetFrame.lean ====
section
/-! DEFINITION. Ethernet, IP, UDP and RTP as bytes: what received frames say, and how media packets and segments are built
(R336, R346, R354, R362, R364, R365).  Their headers are in network byte order. -/

namespace Sys2Proof.Machine

/-! Checksums. -/

def sum16 : List Byte → Nat
  | [] => 0
  | [a] => a.toNat * 256
  | a :: b :: t => a.toNat * 256 + b.toNat + sum16 t

/-- The ones'-complement sum of big-endian 16-bit words; 0xFFFF where a checksum among them is right. -/
def inetSum (bs : List Byte) : Nat :=
  let f (n : Nat) : Nat := n % 65536 + n / 65536
  f (f (f (sum16 bs)))

def be16 (bs : List Byte) (o : Nat) : Nat := beNat (slice bs o 2)
def be32 (bs : List Byte) (o : Nat) : Nat := beNat (slice bs o 4)

/-- Bytes replaced from offset o on. -/
def patch (bs : List Byte) (o : Nat) (xs : List Byte) : List Byte := bs.take o ++ xs ++ bs.drop (o + xs.length)

/-! Received frames. -/

/-- An Ethernet header with its 802.1Q tag, and what follows it. -/
structure Eth where
  dst : List Byte
  src : List Byte
  tci : Option Nat
  etype : Nat
  body : List Byte
  deriving DecidableEq, Repr

/-- Length of the Ethernet header. -/
def ethLen (bs : List Byte) : Nat := if be16 bs 12 = 0x8100 then 18 else 14

def ethOf (bs : List Byte) : Eth :=
  let n := ethLen bs
  { dst := slice bs 0 6, src := slice bs 6 6, tci := if n = 18 then some (be16 bs 14) else none, etype := be16 bs (n - 2), body := bs.drop n }

/-- An IP header: version, addresses of 4 or 16 bytes, protocol, whether a header checksum is there and right, and the payload. -/
structure Ip where
  v6 : Bool
  src : List Byte
  dst : List Byte
  proto : Nat
  hdrOk : Option Bool
  body : List Byte
  deriving DecidableEq, Repr

def ipOf (e : Eth) : Option Ip :=
  let b := e.body
  if e.etype = 0x0800 then
    (let n := u8 b 0 % 16 * 4
     let len := be16 b 2
     if u8 b 0 / 16 = 4 ∧ 20 ≤ n ∧ n ≤ len ∧ len ≤ b.length then
       some { v6 := false, src := slice b 12 4, dst := slice b 16 4, proto := u8 b 9, hdrOk := some (inetSum (b.take n) == 65535)
              body := (b.take len).drop n }
     else none)
  else if e.etype = 0x86DD then
    (let len := 40 + be16 b 4
     if u8 b 0 / 16 = 6 ∧ len ≤ b.length then
       (let hop := u8 b 6 = 0
        let n := if hop then 40 + (u8 b 41 + 1) * 8 else 40
        some { v6 := true, src := slice b 8 16, dst := slice b 24 16, proto := if hop then u8 b 40 else u8 b 6, hdrOk := none
               body := (b.take len).drop n })
     else none)
  else none

/-- The sum of a transport segment with its pseudo-header. -/
def l4Sum (src dst : List Byte) (proto : Nat) (seg : List Byte) : Nat :=
  inetSum (src ++ dst ++ beBytes 4 seg.length ++ [0, 0, 0, BitVec.ofNat 8 proto] ++ seg)

/-- Whether the TCP or UDP checksum is right; none where there is none (R362). -/
def l4Ok (i : Ip) : Option Bool :=
  if i.proto = 17 then (if !i.v6 && be16 i.body 6 == 0 then none else some (l4Sum i.src i.dst 17 i.body == 65535))
  else if i.proto = 6 then some (l4Sum i.src i.dst 6 i.body == 65535)
  else none

/-- UDP destination port and payload. -/
def udpOf (i : Ip) : Option (Nat × List Byte) :=
  if i.proto = 17 ∧ 8 ≤ i.body.length then some (be16 i.body 2, (i.body.take (max 8 (be16 i.body 4))).drop 8) else none

/-- An RTP packet (R346): payload without padding, CSRC list and extension. -/
structure Rtp where
  pt : Nat
  seq : Nat
  ts : MT
  ssrc : Word
  payload : List Byte
  deriving DecidableEq, Repr

def rtpOf (u : List Byte) : Option Rtp :=
  let b0 := u8 u 0
  let cc := 12 + 4 * (b0 % 16)
  let n := if bit b0 4 then cc + 4 + 4 * be16 u (cc + 2) else cc
  let pad := if bit b0 5 then u8 u (u.length - 1) else 0
  if b0 / 64 = 2 ∧ n + pad ≤ u.length then
    some { pt := u8 u 1 % 128, seq := be16 u 2, ts := BitVec.ofNat 32 (be32 u 4), ssrc := BitVec.ofNat 32 (be32 u 8)
           payload := (u.take (u.length - pad)).drop n }
  else none

/-- RTCP on a flow's port: packet types 200 to 204 (PRESUMED, log entry 90). -/
def isRtcp (u : List Byte) : Bool := decide (200 ≤ u8 u 1) && decide (u8 u 1 ≤ 204)

/-- An IPv4 or IPv6 address as the 16-byte fields of R338 hold it. -/
def addr16 (a : List Byte) : List Byte := slice a 0 16

/-- A 16-byte address field is a multicast address. -/
def isMcast (v6 : Bool) (a : List Byte) : Bool := if v6 then u8 a 0 == 0xFF else decide (224 ≤ u8 a 0) && decide (u8 a 0 ≤ 239)

/-- The group MAC address that a multicast address maps to. -/
def mcastMac (v6 : Bool) (a : List Byte) : List Byte :=
  if v6 then [0x33, 0x33] ++ slice a 12 4 else [0x01, 0x00, 0x5E, BitVec.ofNat 8 (u8 a 1 % 128)] ++ slice a 2 2

/-! Checksums inserted and segments cut (R364, R365). -/

/-- The IPv4 header checksum inserted. -/
def putIpSum (bs : List Byte) : List Byte :=
  let o := ethLen bs
  if be16 bs (o - 2) ≠ 0x0800 then bs
  else
    let n := u8 bs o % 16 * 4
    let z := patch bs (o + 10) [0, 0]
    patch z (o + 10) (beBytes 2 (65535 - inetSum ((z.drop o).take n)))

/-- The TCP or UDP checksum inserted; a UDP checksum that comes out 0 is sent as 0xFFFF. -/
def putL4Sum (bs : List Byte) : List Byte :=
  let o := ethLen bs
  let v4 := be16 bs (o - 2) = 0x0800
  let n := if v4 then u8 bs o % 16 * 4 else 40
  let proto := if v4 then u8 bs (o + 9) else u8 bs (o + 6)
  let at_ := o + n + (if proto = 6 then 16 else 6)
  if (be16 bs (o - 2) ≠ 0x0800 ∧ be16 bs (o - 2) ≠ 0x86DD) ∨ (proto ≠ 6 ∧ proto ≠ 17) then bs
  else
    let z := patch bs at_ [0, 0]
    let end_ := if v4 then o + be16 bs (o + 2) else o + 40 + be16 bs (o + 4)
    let seg := (z.take end_).drop (o + n)
    let src := if v4 then slice bs (o + 12) 4 else slice bs (o + 8) 16
    let dst := if v4 then slice bs (o + 16) 4 else slice bs (o + 24) 16
    let c := 65535 - l4Sum src dst proto seg
    patch z at_ (beBytes 2 (if c = 0 then 65535 else c))

/-- Segment k of a segmentation request: template, payload piece, RTP timestamp increment. -/
def segFrame (tmpl piece : List Byte) (k inc : Nat) : List Byte :=
  let o := ethLen tmpl
  let h := tmpl.length
  let bs := tmpl ++ piece
  let v4 := be16 bs (o - 2) = 0x0800
  let l4 := o + (if v4 then u8 bs o % 16 * 4 else 40)
  let bs := if v4 then patch (patch bs (o + 2) (beBytes 2 (bs.length - o))) (o + 4) (beBytes 2 (be16 bs (o + 4) + k))
    else patch bs (o + 4) (beBytes 2 (bs.length - o - 40))
  let bs := patch bs (l4 + 4) (beBytes 2 (bs.length - l4))
  let bs := patch bs (h - 10) (beBytes 2 (be16 bs (h - 10) + k))
  let bs := patch bs (h - 8) (beBytes 4 (be32 bs (h - 8) + k * inc))
  putL4Sum (putIpSum bs)

/-- A request's segments. -/
def segFrames (data : List Byte) (hdr mss inc : Nat) : List (List Byte) :=
  let pay := data.drop hdr
  (List.range ((pay.length + mss - 1) / mss)).map (fun k => segFrame (data.take hdr) ((pay.drop (k * mss)).take mss) k inc)

/-! Media packets (R346–R348, R354). -/

/-- Samples per packet at m = 1 by packet-time code (R347). -/
def ptimeBase : Nat → Nat
  | 0 => 3 | 1 => 6 | 2 => 12 | 3 => 16 | _ => 48

/-- s of a packet-time code at a rate. -/
def packetSamples (code rate : Nat) : Nat := ptimeBase code * (rate / 44100)

/-- Bytes per sample word. -/
def wordBytes (l24 : Bool) : Nat := if l24 then 3 else 2

/-- The ports of a flow's legs, leg 0 first (R349). -/
def flowPorts (code : Nat) : List Nat :=
  if code = 0 then [0, 1] else if code = 1 then [2, 3] else [code - 2]

/-- Channels that fit a packet (R347). -/
def chanLimit (s : Nat) (l24 jumbo : Bool) : Nat := min 64 ((if jumbo then 8960 else 1440) / (s * wordBytes l24))

/-- One media packet from its header fields. -/
def mediaFrame (c : TxFlowCfg) (l : TxLeg) (dstMac srcMac srcIp : List Byte) (ts : MT) (seq : Nat) (payload : List Byte) : List Byte :=
  let rtp := [0x80, BitVec.ofNat 8 c.pt] ++ beBytes 2 seq ++ beBytes 4 ts.toNat ++ beBytes 4 c.ssrc.toNat ++ payload
  let udp := beBytes 2 l.srcUdp ++ beBytes 2 l.dstUdp ++ beBytes 2 (8 + rtp.length) ++ [0, 0] ++ rtp
  let dst := if c.ipv6 then l.dst else l.dst.take 4
  let ip := if c.ipv6 then
      beBytes 4 (6 * 2 ^ 28 + c.dscp * 2 ^ 22) ++ beBytes 2 udp.length ++ [17, BitVec.ofNat 8 c.ttl] ++ srcIp ++ dst
    else
      [0x45, BitVec.ofNat 8 (4 * c.dscp)] ++ beBytes 2 (20 + udp.length) ++ beBytes 2 seq ++ [0x40, 0, BitVec.ofNat 8 c.ttl, 17, 0, 0] ++ srcIp ++ dst
  let eth := dstMac ++ srcMac ++ (if c.vlan then [0x81, 0x00] ++ beBytes 2 c.tci else []) ++ (if c.ipv6 then [0x86, 0xDD] else [0x08, 0x00])
  let bs := putIpSum (eth ++ ip ++ udp)
  if c.udpZero && !c.ipv6 then bs else putL4Sum bs

end Sys2Proof.Machine
end

