-- ==== Sys2Proof/Machine/MantleOps.lean ====
section
/-! DEFINITION. The channels of MANTLE outside a request: their bindings, the swap of a commit, and what is held (R190, R200–R204,
R214). -/

namespace Sys2Proof.Machine

def mantleMod (d : Dev) (f : Mantle → Mantle) : Dev := { d with mantle := f d.mantle }
def getMch (d : Dev) (m : Nat) : MChan := tabGet d.mantle.ch m

/-- The inactive extent of a channel. -/
def inactive (c : MChan) : Option Extent := extOf c (!c.activeB)

/-- Domain of an extent's target; none where it is unbound. -/
def extDom (d : Dev) (e : Extent) : Option Nat := if e.role = 0 then colDomOf d e.target else haloDom d

/-- Domains of a channel's targets, that of the set in force first. -/
def chanDoms (d : Dev) (m : Nat) : List Nat :=
  let c := getMch d m
  ((extOf c c.activeB).toList ++ (inactive c).toList).filterMap (extDom d)

/-- Latches of channels whose target is unbound, which wait for no boundary (R200). -/
def unboundChans (d : Dev) : Dev := mchansWhere d (fun c => (chanDom d.scene c).isNone) chanUnbound

/-- A held commit names channel m (R203). -/
def heldCommit (d : Dev) (m : Nat) : Bool := d.mantle.commits.any (fun c => c.chans.contains m)

/-- FIR_COMMIT reply after the status. -/
def commitBody (n : Nat) (mt : MT) (err : Nat) : List Byte := zeros 1 ++ p16 n ++ p32 mt.toNat ++ p16 err ++ zeros 2

/-- The domain whose boundaries a commit of some channels takes effect at: the one scope DOMAIN names, while a target is bound to it,
else that of the first channel with a bound target. -/
def commitDomOf (d : Dev) (named : Option Nat) (cs : List Nat) : Option Nat :=
  let ns := cs.flatMap (chanDoms d)
  match named.map (effDom d) with
  | some n => if ns.contains n then some n else ns.head?
  | none => ns.head?

/-- Channels of a held commit that have not swapped. -/
def openChans (c : MCommit) : List Nat := c.chans.filter (fun m => !c.swapped.contains m)
def commitDom (d : Dev) (c : MCommit) : Option Nat := commitDomOf d c.named (openChans c)

/-- The first failing row of R202 for the named channels; held says which channels another commit holds. -/
def commitFaultBy (d : Dev) (held : Nat → Bool) (cs : List Nat) : Option (Status × Nat) :=
  let first (p : MChan → Bool) (st : Status) : Option (Status × Nat) := (cs.find? (fun m => p (getMch d m))).map (fun m => (st, m))
  let is (x : ExtState) (c : MChan) : Bool := ((inactive c).map (·.state)) == some x
  (first (fun c => !hasEntry c) .notFound).or <| (first (is .mapped) .notFound).or <| (first (is .invalid) .integrity).or <|
    (first (is .loading) .busy).or <| (cs.find? (fun m => fading (getMch d m) || held m)).map (fun m => (.busy, m))
def commitFault (d : Dev) (cs : List Nat) : Option (Status × Nat) := commitFaultBy d (heldCommit d) cs

/-- A channel's sets swapped; the crossfade where it has one.  A channel that comes to serve another target starts without history
(log entry 105). -/
def swapChan (sc : Scene) (fade : Option (MT × Nat)) (c : MChan) : MChan :=
  let x := { c with activeB := !c.activeB,
                    fade := (fade.filter (fun _ => (chanDom sc c).isSome)).map (fun f => { b := f.1, n := f.2, oldB := c.activeB }) }
  if chanTarget x == chanTarget c then x else { x with hist := [], since := [] }

/-- Channels swap; fade is the boundary and the length of the crossfade, none where there is none. -/
def swapChans (d : Dev) (cs : List Nat) (fade : Option (MT × Nat)) : Dev :=
  let d : Dev := { d with track := { d.track with posted := d.track.posted.filter (fun m => !cs.contains m) } }
  mantleMod d (fun m => { m with ch := cs.foldl (fun t k => tabMod t k (swapChan d.scene fade)) m.ch })

/-- A channel is READY to swap, or passes to no filter. -/
def chanReady (c : MChan) : Bool := match inactive c with | some e => e.ready | none => true
def commitReady (d : Dev) (c : MCommit) : Bool := (openChans c).all (fun m => chanReady (getMch d m))

/-- A held commit replaced, or removed. -/
def commitPut (d : Dev) (c : MCommit) (x : Option MCommit) : Dev :=
  mantleMod d (fun m => { m with commits := m.commits.flatMap (fun y => if y = c then x.toList else [y]) })

/-- A held commit is over: its channels that are left swap, and it is answered. -/
def commitEnd (d : Dev) (c : MCommit) (fade : Option (MT × Nat)) (st : Status) (mt : MT) : Dev :=
  reply (swapChans (commitPut d c none) (openChans c) fade) c.taken st (commitBody c.chans.length mt 0xFFFF)

/-- The checks of R202 on a commit that was taken since the last boundary: it is refused, or held (R203, R214). -/
def commitJudge (d : Dev) (c : MCommit) : Dev :=
  if c.judged then d else
  let held (m : Nat) : Bool := (d.mantle.commits.takeWhile (fun x => x != c)).any (fun x => x.chans.contains m)
  match commitFaultBy d held c.chans with
  | some (st, m) =>
    let d := twinMod (commitPut d c none) (fun x => { x with working := x.working.filter (fun w => w.1 != c.taken) })
    reply d c.taken st (commitBody 0 0 m)
  | none => commitPut d c (some { c with judged := true })

/-- A held commit at boundary b of its domain (R203, R380). -/
def commitTry (d : Dev) (c : MCommit) (b : MT) : Dev :=
  if !c.judged || !commitReady d c then d
  else if mode d == .twin && d.twin.working.any (fun w => w.1 == c.taken) && isLeader d then
    let n := (commitDom d c).getD 0
    let S := selBoundary d n
    commitPut (completionTicket d c.taken ((List.range 3).map (fun i => if i = n then S else 0))) c (some { c with st := some S })
  else if (c.st.map (fun s => mtLater s b)) == some true || (c.st.isNone && isFollower d) || (c.atMt.map (fun s => mtLater s b)) == some true then d
  else commitEnd d c (some (b, c.n)) (if (c.atMt.map (fun s => mtLater b s)) == some true then .late else .ok) b

/-- A held commit's channels without a bound target, each of which swaps as soon as it is READY; with the last channel the commit is
over (R203). -/
def commitUnbound (d : Dev) (c : MCommit) : Dev :=
  if !c.judged then d else
  let us := (openChans c).filter (fun m => (chanDoms d m).isEmpty && chanReady (getMch d m))
  if us.isEmpty then d
  else if us.length = (openChans c).length then commitEnd (completionTicket d c.taken []) c none .ok 0
  else commitPut (swapChans d us none) c (some { c with swapped := c.swapped ++ us })

/-- Held commits as far as no boundary is waited for. -/
def commitsUnbound (d : Dev) : Dev :=
  let d := d.mantle.commits.foldl (fun d c => if (commitDom d c).isNone then commitJudge d c else d) d
  d.mantle.commits.foldl commitUnbound d

/-- Channels whose targets have just lost their binding (R200, R203). -/
def chansFreed (d : Dev) : Dev := commitsUnbound (unboundChans d)

end Sys2Proof.Machine
end

