-- ==== Sys2Proof/Machine/Objects.lean ====
section
/-! DEFINITION. Objects, timed metadata, routing and direct entries: OBJ_CFG, OBJ_UPDATE, OBJ_UPDATE_BATCH, OBJ_QUERY,
ROUTE_SET, MATRIX_DIRECT (R79–R104, R130–R140, R149–R158). -/

namespace Sys2Proof.Machine

/-! Positions (R17, R18, R81). -/

/-- An azimuth in centidegrees reduced into −17,999 to +18,000 (R18). -/
def reduceAz (az : Int) : Int := if -18000 < az ∧ az ≤ 18000 then az else 18000 - (18000 - az) % 36000

/-- A polar position in Q16.16, in the binary64 steps of R81. -/
def polarXyz (az el dist : Int) : Option (Int × Int × Int) :=
  if el < -9000 ∨ 9000 < el ∨ dist < 0 then none else
  let rad (c : Int) : Q := f64 (qDiv (f64 (qMul (qOfInt c) (f64 qPi))) (qOfInt 18000))
  let a := rad (reduceAz az)
  let e := rad el
  let d : Q := ⟨dist, 65536⟩
  let mul (x y : Q) : Q := f64 (qMul x y)
  let ce := f64 (qCos e)
  let q (v : Q) : Int := qRne (qMul v (qOfInt 65536))
  let x := q (mul (mul (qNeg d) (f64 (qSin a))) ce)
  let y := q (mul (mul d (f64 (qCos a))) ce)
  let z := q (mul d (f64 (qSin e)))
  let inR (v : Int) : Bool := decide (-2147483648 ≤ v) && decide (v ≤ 2147483647)
  if inR x && inR y && inR z then some (x, y, z) else none

/-- The position of bytes o to o + 11: polar or Cartesian (R85). -/
def posAt (p : List Byte) (o : Nat) (polar : Bool) : Option (Int × Int × Int) :=
  if polar then (if isZero p (o + 8) 4 then polarXyz (i16 p o) (i16 p (o + 2)) (i32 p (o + 4)) else none)
  else some (i32 p o, i32 p (o + 4), i32 p (o + 8))

/-! Update records (R85). -/

/-- An update record converted: object, mask, t, values, and the gains that R8 clamps. -/
structure Update where
  obj : Nat
  mask : Nat
  t : MT
  vals : ObjRec
  clamps : List Int
  deriving DecidableEq, Repr, Inhabited

/-- The extent fields are in range (R79, R81). -/
def extentOk (r : List Byte) (angular : Bool) : Bool :=
  decide (0 ≤ i32 r 36) && (if angular then decide (u32 r 28 ≤ 36000) && decide (u32 r 32 ≤ 18000) else decide (0 ≤ i32 r 28) && decide (0 ≤ i32 r 32))

/-- The 44-byte record, none where a field it sets or a reserved bit is wrong. -/
def updOf (r : List Byte) (common : Option MT) : Option Update :=
  let mask := u16 r 2
  let fl := u8 r 8
  let ang := bit fl 1
  if nObjects ≤ u16 r 0 ∨ 127 < mask ∨ 15 < fl ∨ isZero r 14 2 = false then none
  else if bit mask 1 && !extentOk r ang then none
  else if (bit mask 4 && decide (32767 < u16 r 12)) || (bit mask 5 && decide (10 < u8 r 9)) || (bit mask 6 && decide (2000000 < u32 r 40)) then none
  else match (if bit mask 0 then posAt r 16 (bit fl 0) else some (0, 0, 0)) with
    | none => none
    | some (x, y, z) => some
      { obj := u16 r 0, mask := mask, t := common.getD (BitVec.ofNat 32 (u32 r 4))
        vals := { x := x, y := y, z := z, angular := ang, width := i32 r 28, height := i32 r 32, depth := i32 r 36, gain := clampCdb (i16 r 10),
                  mute := bit fl 3, diffuse := u16 r 12, jump := bit fl 2, rampUs := u32 r 40, priority := u8 r 9 }
        clamps := if bit mask 2 then [i16 r 10] else [] }

/-! Entering the queues. -/

/-- The queue operation a ticket tells a partner of (R375, R381): kind and entry. -/
def metaOp (sc : Scene) (e : MetaEntry) : Nat × Nat :=
  match sc.queue.findIdx? (fun q => q.obj == e.obj && q.t == e.t) with
  | some i => (1, i)
  | none =>
    if sc.queue.length < metaCap then (0, sc.queue.length)
    else (2, (sc.queue.findIdx? (fun q => q.obj == e.obj && mtGe e.t q.t &&
      (sc.queue.all (fun r => !(r.obj == e.obj && mtGe e.t r.t) || mtGe q.t r.t)))).getD 0)

/-- A leader tells its partner of a queue operation. -/
def queueTicket (d : Dev) (op : Nat × Nat) (queue dom obj : Nat) (t : MT) (late : Bool) (record : List Byte) (taken : Option Taken) : Dev :=
  if isLeader d then
    sendTicket d op.1 queue dom (selBoundary d dom) taken
      (p16 op.2 ++ p16 obj ++ p32 t.toNat ++ p8 (if late then 8 else 0) ++ zeros 3 ++ record)
  else d

/-- How an entry for time t in domain n is judged now (R91, R379). -/
def judgeAt (d : Dev) (n : Nat) (t : MT) : Judge := judge t (selBoundary d n) (rateOf d n)

/-- The boundary before which an entry is not served: S_t on a pair. -/
def applyHold (d : Dev) (n : Nat) : Option MT := if mode d == .twin then some (selBoundary d n) else none

/-- One entry judged and queued, as an OBJ_UPDATE or a ROUTE_SET is: the status and whether it is late. -/
def acceptMeta (d : Dev) (e : MetaEntry) (record : List Byte) (taken : Option Taken) : Dev × Status :=
  match judgeAt d e.dom e.t with
  | .tooFar => (d, .badArg)
  | .stale => (sceneMod d (fun s => metaMod s e.dom (fun c => { c with stale := cInc c.stale })), .stale)
  | j =>
    let late := match j with | .late _ => true | _ => false
    let e := { e with late := late, hold := applyHold d e.dom }
    match enqueueMeta d.scene e with
    | none => (d, .noResource)
    | some sc => (queueTicket { d with scene := sc } (metaOp d.scene e) 0 e.dom e.obj e.t late record taken, if late then .late else .ok)

/-- The entry of an update. -/
def updEntry (d : Dev) (u : Update) : MetaEntry :=
  { obj := u.obj, dom := effDom d (getObj d.scene u.obj).domain, t := u.t, mask := u.mask, vals := u.vals, route := none, rampUs := none, late := false,
    upd := true, jumps := u.vals.jump }

/-- An update applied to the record at once (R87). -/
def updNow (o : Obj) (u : Update) : Obj := { o with st := { setFields u.mask u.vals o.st with jump := u.vals.jump } }

/-- Reply after the status: queue_free and selection_mt (R87).  A request refused before it is judged, and one in CONFIG, names no selection
boundary: it reports 0 (DESIGN CHOICE, log entry 116). -/
def updBody (d : Dev) (sel : MT) : List Byte := zeros 1 ++ p16 (metaFree d.scene) ++ p32 sel.toNat
def updAns (d : Dev) (st : Status) (sel : MT) : Dev × Ans := (d, .now st (updBody d sel))

/-- OBJ_UPDATE (R85–R87). -/
def judgeObjUpdate (d : Dev) (t : Taken) (_ : Option (List Byte)) : Dev × Ans :=
  let p := t.req.payload
  if !inModes t modes4 then updAns d .badMode 0
  else if !longEnough t 44 then updAns d .badArg 0
  else match updOf (slice p 0 44) none with
    | none => updAns d .badArg 0
    | some u =>
      let o := getObj d.scene u.obj
      let e := updEntry d u
      let sel := selBoundary d e.dom
      if !o.enabled then updAns d .notFound 0
      else if atOnceMode t then updAns (sceneMod (countClamps d u.clamps) (fun s => objMod s u.obj (fun o => updNow o u))) .ok 0
      else if !domRuns (getDom d e.dom).state then updAns d .busy 0
      else
        let r := acceptMeta d e (slice p 0 44) (some t)
        updAns (if r.2 == .ok || r.2 == .late then countClamps r.1 u.clamps else r.1) r.2 sel

def execObjUpdate (r : Req) (s : State) : Host.Outcome State Fault Refusal := reqRow1 .objUpdate judgeObjUpdate r s

/-! OBJ_UPDATE_BATCH (R88). -/

def batchBody (d : Dev) (sel : MT) (first late : Nat) : List Byte := updBody d sel ++ p16 first ++ p16 late

/-- What a batch has done so far: the device, late records, the first late one, the last selection boundary, or the refused
record's status. -/
structure BatchRun where
  d : Dev
  late : Nat := 0
  first : Nat := 0xFFFF
  sel : MT := 0
  refused : Option (Status × Nat) := none

/-- One record of a batch judged as an OBJ_UPDATE.  A batch over several domains reports the selection boundary of the last record judged
(DESIGN CHOICE, log entry 117). -/
def batchStep (t : Taken) (n : Nat) (acc : BatchRun) (i : Nat) (r : List Byte) (common : Option MT) : BatchRun :=
  if acc.refused.isSome then acc else
  let d := acc.d
  match updOf r common with
  | none => { acc with refused := some (.badArg, i) }
  | some u =>
    let e := updEntry d u
    if !(getObj d.scene u.obj).enabled then { acc with refused := some (.notFound, i) }
    else if atOnceMode t then { acc with d := sceneMod (countClamps d u.clamps) (fun s => objMod s u.obj (fun o => updNow o u)) }
    else if !domRuns (getDom d e.dom).state then { acc with refused := some (.busy, i) }
    else
      let sel := selBoundary d e.dom
      let q := acceptMeta d e r (if i + 1 = n then some t else none)
      if q.2 == .ok then { acc with d := countClamps q.1 u.clamps, sel := sel }
      else if q.2 == .late then
        { acc with d := countClamps q.1 u.clamps, sel := sel, late := acc.late + 1, first := if acc.first = 0xFFFF then i else acc.first }
      else { acc with sel := sel, refused := some (q.2, i) }

def judgeObjBatch (d : Dev) (t : Taken) (bulk : Option (List Byte)) : Dev × Ans :=
  let refuse (d : Dev) (st : Status) : Dev × Ans := (d, .now st (batchBody d 0 0xFFFF 0))
  if !inModes t modes4 then refuse d .badMode
  else if !longEnough t 16 || !t.req.bulk || !bulkOk (bulkRef t.req.payload 0) then refuse d .badArg
  else match bulk with
    | none => needFetch d t 0
    | some bs =>
      let n := u16 bs 0
      if bs.length < 8 ∨ n = 0 ∨ 1024 < n ∨ bs.length ≠ 8 + 44 * n ∨ 1 < u16 bs 2 then refuse d .badArg
      else
        let common : Option MT := if bit (u16 bs 2) 0 then some (BitVec.ofNat 32 (u32 bs 4)) else none
        let r := (List.range n).foldl (fun acc i => batchStep t n acc i (slice bs (8 + 44 * i) 44) common) { d := d }
        match r.refused with
        | some (st, i) =>
          let d' := if st == .stale then sceneMod d (fun s => metaMod s (updEntry d ((updOf (slice bs (8 + 44 * i) 44) common).getD default)).dom
            (fun c => { c with stale := cInc c.stale })) else d
          (d', .now st (batchBody d' r.sel i 0))
        | none => (r.d, .now (if 0 < r.late then .late else .ok) (batchBody r.d r.sel r.first r.late))

/-- OBJ_UPDATE_BATCH (R88). -/
def execObjUpdateBatch (r : Req) (s : State) : Host.Outcome State Fault Refusal := reqRow1 .objUpdateBatch judgeObjBatch r s

/-! OBJ_QUERY (R89, R158). -/

def judgeObjQuery (d : Dev) (t : Taken) (_ : Option (List Byte)) : Dev × Ans :=
  let no := u16 t.req.payload 0
  if !longEnough t 2 || decide (nObjects ≤ no) then bad d
  else ansB d .ok (let n := effDom d (getObj d.scene no).domain; objQueryBody d.scene no n (mtOf d n))

def execObjQuery (r : Req) (s : State) : Host.Outcome State Fault Refusal := reqRow1 .objQuery judgeObjQuery r s

/-! ROUTE_SET (R131, R132). -/

def routeOf (p : List Byte) : Route :=
  { mode := u8 p 2, clear := bit (u8 p 3) 0
    sends := (List.range (u8 p 12)).map (fun i => { bus := u8 p (16 + 4 * i), level := clampCdb (i16 p (18 + 4 * i)) }) }

def routeClamps (p : List Byte) : List Int := (List.range (u8 p 12)).map (fun i => i16 p (18 + 4 * i))

/-- The layout that pans objects of domain n. -/
def layoutIn (d : Dev) (n : Nat) : Bool := (d.scene.layout.map (fun l => effDom d l.dom)) == some n

/-- A column of domain n that takes new work (R107). -/
def colTakes (d : Dev) (n c : Nat) : Bool := colOf d n c && (getCol d.scene c).unbind.isNone

def routeShapeBad (p : List Byte) : Bool :=
  decide (p.length < 16) || decide (nObjects ≤ u16 p 0) || decide (2 < u8 p 2) || decide (1 < u8 p 3) || decide (2000000 < u32 p 8) ||
    decide (8 < u8 p 12) || !isZero p 13 3 || decide (p.length < 16 + 4 * u8 p 12) || (List.range (u8 p 12)).any (fun i => u8 p (17 + 4 * i) != 0)

def judgeRouteSet (d : Dev) (t : Taken) (_ : Option (List Byte)) : Dev × Ans :=
  let p := t.req.payload
  let no := u16 p 0
  let o := getObj d.scene no
  let n := effDom d o.domain
  let rt := routeOf p
  if !inModes t modes4 then updAns d .badMode 0
  else if routeShapeBad p then updAns d .badArg 0
  else if !o.enabled then updAns d .notFound 0
  else if (rt.mode == 1 && !layoutIn d n) ||
      rt.sends.any (fun s => !(decide (s.bus < nAux) && colTakes d n (576 + s.bus) && (getCol d.scene (576 + s.bus)).bind.mode == 2)) then updAns d .badArg 0
  else if atOnceMode t then
    updAns (sceneMod (countClamps d (routeClamps p)) (fun s => objMod s no (fun o => applyRoute o rt))) .ok 0
  else if !domRuns (getDom d n).state then updAns d .busy 0
  else
    let e : MetaEntry := { obj := no, dom := n, t := BitVec.ofNat 32 (u32 p 4), mask := 0, vals := {}, route := some rt,
                           rampUs := some (if u32 p 8 = 0 then o.defRampUs else u32 p 8), late := false }
    let sel := selBoundary d n
    let r := acceptMeta d e (slice p 0 (16 + 4 * u8 p 12) ++ (if u8 p 12 = 7 then zeros 4 else [])) (some t)
    updAns (if r.2 == .ok || r.2 == .late then countClamps r.1 (routeClamps p) else r.1) r.2 sel

def execRouteSet (r : Req) (s : State) : Host.Outcome State Fault Refusal := reqRow1 .routeSet judgeRouteSet r s

/-! MATRIX_DIRECT (R133, R134). -/

def directCap : Nat := 256
def directBody (d : Dev) (sel : MT) : List Byte := zeros 1 ++ p16 (directCap - d.scene.directQ.length) ++ p32 sel.toNat
def directAns (d : Dev) (st : Status) (sel : MT) : Dev × Ans := (d, .now st (directBody d sel))

def directCols (p : List Byte) : List (Nat × Int) := (List.range (u8 p 2)).map (fun i => (u16 p (12 + 4 * i), clampCdb (i16 p (14 + 4 * i))))
def directClamps (p : List Byte) : List Int := (List.range (u8 p 2)).map (fun i => i16 p (14 + 4 * i))

def directShapeBad (p : List Byte) : Bool :=
  decide (p.length < 12) || decide (nObjects ≤ u16 p 0) || u8 p 2 == 0 || decide (11 < u8 p 2) || decide (1 < u8 p 3) ||
    decide (2000000 < u32 p 8) || decide (p.length < 12 + 4 * u8 p 2)

/-- A write merged into one of the same object and t, column by column. -/
def mergeDirect (q e : DirectEntry) : DirectEntry :=
  { e with clear := q.clear || e.clear, cols := e.cols.foldl (fun s p => tabSet s p.1 p.2) q.cols }

/-- A direct write enters its queue, or is refused where the queue is full. -/
def enqueueDirect (sc : Scene) (e : DirectEntry) : Option Scene :=
  let same (q : DirectEntry) : Bool := q.obj == e.obj && q.t == e.t
  if sc.directQ.any same then some { sc with directQ := replaceFirst same (fun q => mergeDirect q e) sc.directQ }
  else if sc.directQ.length < directCap then some { sc with directQ := sc.directQ ++ [e] }
  else none

/-- Direct entries that a write leaves (R134). -/
def directWrite (o : Obj) (clear : Bool) (cols : List (Nat × Int)) : Obj :=
  { o with directs := cols.foldl (fun s p => if p.2 ≤ -14400 then s.filter (fun q => q.1 != p.1) else tabSet s p.1 (cdbGain p.2).toNat)
                        (if clear then [] else o.directs) }

def judgeMatrixDirect (d : Dev) (t : Taken) (_ : Option (List Byte)) : Dev × Ans :=
  let p := t.req.payload
  let no := u16 p 0
  let o := getObj d.scene no
  let n := effDom d o.domain
  let sel := selBoundary d n
  let mt : MT := BitVec.ofNat 32 (u32 p 4)
  if !inModes t modes4 then directAns d .badMode 0
  else if directShapeBad p then directAns d .badArg 0
  else if !o.enabled then directAns d .notFound 0
  else if (directCols p).any (fun c => !(colOk c.1 && colTakes d n c.1) || (getCol d.scene c.1).bind.mode == 2) then directAns d .badArg 0
  else if !o.direct then directAns d .denied 0
  else if atOnceMode t then
    directAns (sceneMod (countClamps d (directClamps p)) (fun s => objMod s no (fun o => directWrite o (bit (u8 p 3) 0) (directCols p)))) .ok 0
  else if !domRuns (getDom d n).state then directAns d .busy 0
  else match judgeAt d n mt with
    | .tooFar => directAns d .badArg sel
    | .stale => directAns (sceneMod d (fun s => metaMod s n (fun c => { c with stale := cInc c.stale }))) .stale sel
    | j =>
      let late := match j with | .late _ => true | _ => false
      let e : DirectEntry := { obj := no, dom := n, t := mt, rampUs := if u32 p 8 = 0 then o.defRampUs else u32 p 8, clear := bit (u8 p 3) 0,
                               cols := directCols p, late := late, hold := applyHold d n }
      let op := match d.scene.directQ.findIdx? (fun q => q.obj == no && q.t == mt) with
        | some i => (1, i)
        | none => (0, d.scene.directQ.length)
      match enqueueDirect d.scene e with
      | none => directAns d .noResource sel
      | some sc =>
        let d := queueTicket (countClamps { d with scene := sc } (directClamps p)) op 1 n no mt late (slice p 0 (12 + 4 * u8 p 2)) (some t)
        directAns d (if late then .late else .ok) sel

def execMatrixDirect (r : Req) (s : State) : Host.Outcome State Fault Refusal := reqRow1 .matrixDirect judgeMatrixDirect r s

/-! OBJ_CFG (R82–R84, R139, R140). -/

/-- The payload length that the session's version knows: byte 16 on are of 3.3 (R432). -/
def objCfgLen (t : Taken) : Nat := if verOf t.major t.minor < 3 then min 16 t.req.payload.length else t.req.payload.length

def pathCfgOf (p : List Byte) : PathCfg :=
  { trim := clampCdb (i16 p 16), delayMode := u8 p 18, pathMute := bit (u8 p 19) 0, distGain := bit (u8 p 19) 1, air := bit (u8 p 19) 2
    dRef := u32 p 20, dNear := u32 p 24, rolloff := u16 p 28, airCoef := u16 p 30, airCorner := u32 p 32, cSound := u32 p 36 }

/-- 0, or a distance of 0.01 to 32,767.0 m. -/
def distOk (v : Nat) : Bool := v == 0 || (decide (656 ≤ v) && decide (v ≤ 32767 * 65536))

def pathCfgOk (c : PathCfg) (f : Nat) : Bool :=
  decide (c.delayMode ≤ 2) && distOk c.dRef && distOk c.dNear && decide (c.rolloff ≤ 2400) && decide (c.airCoef ≤ 1000) &&
    (c.airCorner == 0 || (decide (1000000 ≤ c.airCorner) && decide (c.airCorner ≤ 450 * f))) &&
    (c.cSound == 0 || (decide (100 * 65536 ≤ c.cSound) && decide (c.cSound ≤ 2000 * 65536)))

/-- What OBJ_CFG asks of an object. -/
structure ObjCfg where
  obj : Nat
  dom : Nat
  src : Src
  enable : Bool
  sparse : Bool
  decorr : Bool
  filter : Nat
  rampUs : Nat
  path : Option PathCfg
  deriving DecidableEq, Repr, Inhabited

def objCfgOf (t : Taken) : ObjCfg :=
  let p := t.req.payload
  { obj := u16 p 0, dom := u8 p 2, src := { kind := u8 p 3, index := u16 p 4, chan := u8 p 6 }, enable := bit (u8 p 7) 0, sparse := bit (u8 p 7) 1
    decorr := bit (u8 p 7) 2, filter := u8 p 8, rampUs := if u32 p 12 = 0 then 10000 else u32 p 12
    path := if 40 ≤ objCfgLen t then some (pathCfgOf p) else none }

/-- A field of the object form out of range. -/
def objCfgBad (d : Dev) (t : Taken) : Bool :=
  let p := t.req.payload
  let c := objCfgOf t
  decide (nObjects ≤ c.obj) || (decide (16 < objCfgLen t) && decide (objCfgLen t < 40)) || decide (7 < u8 p 7) || decide (15 < c.filter) || u8 p 9 != 0 ||
    !isZero p 10 2 || decide (2000000 < u32 p 12) || decide (5 < c.src.kind) || (if c.src.kind = 0 then c.src.chan != 0 else !srcRange (objSrc c.src)) ||
    (match c.path with
     | some q => decide (7 < u8 p 19) || !pathCfgOk q (rateOf d (effDom d c.dom))
     | none => false)

/-- The object as it would be charged under a configuration (R39, R154). -/
def objTrial (d : Dev) (c : ObjCfg) : Scene :=
  objMod d.scene c.obj (fun o => { o with enabled := true, domain := if o.enabled then o.domain else c.dom, sparse := c.sparse, decorr := c.decorr, filter := c.filter })

def chargeFits (d : Dev) (sc : Scene) : Bool := chargeFitsAt d sc (rateOf d)

/-- The capacity checks of an enabling or changing OBJ_CFG. -/
def objFits (d : Dev) (c : ObjCfg) : Bool :=
  let o := getObj d.scene c.obj
  let sc := objTrial d c
  ((o.enabled && (o.sparse == c.sparse || c.sparse)) || chargeFits d sc) &&
    ((o.enabled && o.decorr == c.decorr && o.filter == c.filter) || !c.decorr || decorFits sc (rateIn d))

/-- The boundary values of one change: the stamp b, n_c. -/
def cfgLen (us f : Nat) : Nat := max 16 (usSamples us f)

/-- An object whose matrix charge and path state are released (R83, R157). -/
def releaseObj (o : Obj) : Obj :=
  { o with enabled := false, disable := none, ents := [], cdir := {}, cdec := {}, rampEnd := none, srcFade := [], sparseRamp := none, trans := none,
           deferred := none, layoutReq := none, path := {} }

/-- Whether path fields that move D, G_dist or A differ (R149). -/
def pathMoves (a b : PathCfg) : Bool :=
  { a with trim := 0, pathMute := false, airCorner := 0 } != { b with trim := 0, pathMute := false, airCorner := 0 }

def trimGain (c : PathCfg) : Int := if c.pathMute then 0 else cdbGain c.trim

/-- The decorrelator's changes (R155) stamped b over n. -/
def decorChange (o : Obj) (c : ObjCfg) (b : MT) (n : Nat) : PathState :=
  let p := o.path
  if c.decorr && !o.decorr then { p with decor := some { filter := c.filter }, decorStart := some b, decorStop := none, decorOld := [] }
  else if !c.decorr && o.decorr then { p with decorStop := some (b + BitVec.ofNat 32 n) }
  else if c.decorr && c.filter != o.filter then
    { p with decor := some { filter := c.filter }, decorStart := some b, decorOld := (p.decor.map (fun w => (w, b, n))).toList ++ p.decorOld }
  else p

/-- An object newly enabled (R80, R130, R140, R157): default record, zero state, D₀ = D₁. -/
def enableObj (sc : Scene) (c : ObjCfg) (f : Nat) (b : MT) : Obj :=
  let pc := c.path.getD {}
  let st := enabledRec c.rampUs
  let direct := (sc.layout.map (·.dom)) != some c.dom
  let mw := (objTargets sc { domain := c.dom, decorr := c.decorr, st := st, direct := direct })
  let path := pathAtOnce {} pc (distQ st) (refDist pc sc.layout c.dom) f
  { enabled := true, domain := c.dom, src := c.src, srcFade := [({}, b, 0)], sparse := c.sparse, decorr := c.decorr, filter := c.filter, defRampUs := c.rampUs, st := st
    direct := direct, pathCfg := pc, cdir := rampTo {} mw.cdir b (cfgLen c.rampUs f), cdec := rampTo {} mw.cdec b (cfgLen c.rampUs f)
    path := if c.decorr then { path with decor := some { filter := c.filter }, decorStart := some b } else path }

/-- A change of SPARSE from b over n (R83): a DIRECT object keeps its entries, but for HALO entries and those past the 64 of a sparse one. -/
def sparseChange (sc : Scene) (no : Nat) (b : MT) (n : Nat) : Scene :=
  let sc := objMod sc no (fun o => { o with directs := if o.sparse then o.directs.filter (fun q => (getCol sc q.1).bind.mode != 4) else o.directs })
  let o := getObj sc no
  let tg := objTargets sc o
  let sc := { sc with sparseTrunc := if tg.truncated then cInc sc.sparseTrunc else sc.sparseTrunc, haloClamp := cAdd sc.haloClamp tg.clamps }
  let sc := applyTargets sc no tg.ents none o.direct b n b
  objMod sc no (fun o => { o with
    sparseRamp := some (b + BitVec.ofNat 32 n), deferred := none, trans := none
    directs := if tg.truncated then o.directs.filter (fun q => tg.ents.any (fun e => e.1 == q.1)) else o.directs })

/-- A configuration of an enabled object takes effect at b (R83, R149, R152, R155). -/
def changeObj (sc : Scene) (c : ObjCfg) (f : Nat) (b : MT) : Scene :=
  let o := getObj sc c.obj
  let n := cfgLen c.rampUs f
  let pc := c.path.getD o.pathCfg
  let newSrc := !sameSrc o.src c.src
  let sparse := o.sparse != c.sparse
  let mixes := o.decorr != c.decorr
  let path := decorChange o c b n
  let moves := pathMoves o.pathCfg pc
  let un := if moves then (path.counted.filter (fun k => k.1 == b)).map Prod.snd else none
  let path := if pc.air && !o.pathCfg.air then { path with airStart := some b } else if pc.air then path else { path with airStart := none }
  let pr := if moves then pathRetarget (pathUndo path b) pc (distQ o.st) (refDist pc sc.layout o.domain) f b n false else (path, false, false)
  let path := if trimGain o.pathCfg = trimGain pc then pr.1 else { pr.1 with gtrim := rampTo pr.1.gtrim (trimGain pc) b n }
  let o' : Obj := { o with
    src := c.src, srcFade := if newSrc then (o.src, b, n) :: o.srcFade else o.srcFade, sparse := c.sparse, decorr := c.decorr, filter := c.filter
    defRampUs := c.rampUs, pathCfg := pc, path := path }
  let sc := cntMod (objMod sc c.obj (fun _ => o')) o.domain (fun k =>
    countPath k un pr.2)
  let sc := if sparse then sparseChange sc c.obj b n else sc
  if mixes then
    let tg := objTargets sc o'
    objMod sc c.obj (fun o => { o with
      cdir := rampAtSel o.cdir tg.cdir b n b, cdec := rampAtSel o.cdec tg.cdec b n b
      deferred := o.deferred.map (fun p => { p with moves := p.moves.map (fun m => { m with mix := none }) }) })
  else sc

/-- A disable takes effect at b: the object ramps off over the default ramp in force and counts as not enabled (R83). -/
def disableObj (sc : Scene) (no f : Nat) (b : MT) : Scene :=
  let n := cfgLen (getObj sc no).defRampUs f
  let sc := discardQueued sc (fun o _ => o == no)
  let sc := applyTargets sc no [] none false b n b
  let stop := b + BitVec.ofNat 32 n
  objMod sc no (fun o => { o with
    enabled := false, disable := some stop, deferred := none, layoutReq := none
    trans := o.trans.map (fun t => { t with stop := stop }) })

/-- A priority floor takes effect at b (R84): objects that cross it change over their ramp, 16 samples where their motion is jump.  Like a
change of SPARSE it uses no re-pan of the allotment (DESIGN CHOICE, log entry 114). -/
def floorChange (sc : Scene) (n floor f : Nat) (b : Option MT) : Scene :=
  let old := tabGet sc.floors n
  let sc := { sc with floors := tabSet sc.floors n floor }
  match b with
  | none => sc
  | some b =>
    sc.objs.foldl (fun (s : Scene) kv =>
      let o := kv.2
      if o.enabled ∧ o.domain = n ∧ decide (o.st.priority < old) ≠ decide (o.st.priority < floor) then
        objMod s kv.1 (fun o => { o with deferred := some { key := b, moves := [
          { t := b, n := if o.st.jump then 16 else rampLen o.st.rampUs f, jump := o.st.jump, targets := (objTargets s o).ents, mix := mixOf o.deferred }] } })
      else s) sc

/-- OBJ_CFG takes effect at boundary b, or at once. -/
def applyObjCfg : Apply1 := fun d t b =>
  let p := t.req.payload
  if u16 p 0 = 0xFFFF then
    (sceneRun d (fun sc => floorChange sc (u8 p 2) (u8 p 9) (rateIn d (u8 p 2)) b), .ok, mtBody b)
  else
    let c := objCfgOf t
    let o := getObj d.scene c.obj
    let f := rateIn d c.dom
    let clamps (d : Dev) : Dev := match c.path with
      | some _ => countClamps d [i16 p 16]
      | none => d
    match b with
    | none =>
      let d := sceneRun (clamps d) (fun sc =>
        if !c.enable then objMod (discardQueued sc (fun o _ => o == c.obj)) c.obj releaseObj
        else
          let sc := if o.enabled then changeObj sc c f 0 else objMod sc c.obj (fun _ => enableObj sc c f 0)
          objMod sc c.obj (objAtOnce sc f))
      (d, .ok, mtBody none)
    | some b =>
      if !c.enable then
        (if o.enabled then sceneRun (clamps d) (fun sc => disableObj sc c.obj (rateIn d o.domain) b) else clamps d, .ok, mtBody (some b))
      else if o.disable.isSome || (o.enabled && effDom d o.domain != c.dom) then (d, .busy, mtBody none)
      else if !objFits d c then (d, .noResource, mtBody none)
      else (sceneRun (clamps d) (fun sc => if o.enabled then changeObj sc c f b else objMod sc c.obj (fun _ => enableObj sc c f b)), .ok, mtBody (some b))

/-- OBJ_CFG judged.  One that disables its object reads neither the source, a tile port's declaration nor the domain byte (DESIGN CHOICE,
log entry 115). -/
def judgeObjCfg (d : Dev) (t : Taken) (_ : Option (List Byte)) : Dev × Ans :=
  let p := t.req.payload
  let dom := u8 p 2
  if !inModes t modes4 then ansB d .badMode (mtBody none)
  else if !longEnough t 16 || decide (2 < dom) || (tMode t == .singleRate && dom != 0) then ansB d .badArg (mtBody none)
  else if u16 p 0 = 0xFFFF then
    (if 10 < u8 p 9 then ansB d .badArg (mtBody none) else commitOr d t dom applyObjCfg)
  else
    let c := objCfgOf t
    let o := getObj d.scene c.obj
    if objCfgBad d t then ansB d .badArg (mtBody none)
    else if o.disable.isSome && !atOnceMode t then ansB d .busy (mtBody none)
    else if !c.enable then commitOr d t (if o.enabled then effDom d o.domain else c.dom) applyObjCfg
    else if o.enabled && effDom d o.domain != c.dom then ansB d .busy (mtBody none)
    else if c.src.kind = 5 ∧ (portSlotDom d.tiles.sched c.src.index).isNone then ansB d .notFound (mtBody none)
    else if c.src.kind ≠ 0 ∧ srcDom d (objSrc c.src) ≠ some (effDom d c.dom) then ansB d .badArg (mtBody none)
    else if !objFits d c then ansB d .noResource (mtBody none)
    else commitOr d t c.dom applyObjCfg

/-- OBJ_CFG (R82–R84, R139). -/
def execObjCfg (r : Req) (s : State) : Host.Outcome State Fault Refusal := reqRow1 .objCfg judgeObjCfg r s

/-- OBJECT_DISABLE_RELEASE (R83): at the first boundary after the disable ramp. -/
def execObjectDisableRelease (object : Nat) (s : State) : Host.Outcome State Fault Refusal :=
  run (fun d =>
    let o := getObj d.scene object
    match o.disable with
    | some e =>
      if mtGe (mtOf d (effDom d o.domain)) e || !domRenders d (effDom d o.domain) then sceneMod d (fun s => objMod s object releaseObj) else d
    | none => d) s

end Sys2Proof.Machine
end

