-- ==== Sys2Proof/Machine/Layout.lean ====
section
/-! DEFINITION. Column bindings and the layout: BUS_CFG, LAYOUT_BEGIN, LAYOUT_SPK, LAYOUT_COMMIT, compilation, the swap and
the unbinding of old columns (R105–R114). -/

namespace Sys2Proof.Machine

/-! Binding columns. -/

/-- The FIR channel that serves column c loses its state with the column's (R164). -/
def columnFirClear (d : Dev) (c : Nat) : Dev :=
  mchansWhere d (fun m => match chanTarget m with
    | some (role, target) => if role = 0 then target == c else c == 512
    | none => false) chanRealign

/-- Extents of column c's target, which is about to lose its binding, keep their charge (R193). -/
def columnKeepRate (d : Dev) (c : Nat) (old : Binding) : Dev :=
  let f := rateIn d old.dom
  mchansWhere d (fun _ => true) (fun m => if c = 512 then keepRate 1 0 f (keepRate 2 0 f m) else keepRate 0 c f m)

/-- Chain configurations of domain n in force from boundary b: every stage a changed binding or layout moves crossfades. -/
def chainsMoved (d : Dev) (n : Nat) (b : MT) : Dev :=
  let f := rateOf d n
  chainsWhere d (chainOf d n) (fun c x => chainMove x (roleOf d c) f b)

/-- Groups with members that lose destination c (R187). -/
def bassOrphans (d : Dev) (c : Nat) : List Nat :=
  (List.range 16).filter (fun g => (tabGet d.chain.groups g).order != 0 && (tabGet d.chain.groups g).dests.contains c &&
    (match bassLayout d with
     | some l => l.spks.any (fun s => isMember d.chain (some l) (boundCol d) g s.no)
     | none => false))

/-- The output gate of a column that is bound: an output joins as its domain's outputs stand; with COL512 bound as HALO the ears
join. -/
def joinGate (d : Dev) (c : Nat) (dest : Binding) : Dev :=
  let n := effDom d dest.dom
  let own (k : Nat) : Bool := k == c || (c == 512 && dest.mode == 4 && (k == 640 || k == 641))
  let rest := d.render.gates.filter (fun kv => !own kv.1)
  let g := (tabGet d.render.dom n).outGate
  let joins := dest.mode != 0 && (getDom d n).rendered
  { d with render := { d.render with gates := if joins then ((List.range 642).filter own).foldl (fun t k => tabSet t k g) rest else rest } }

/-- One column takes a binding: its entries go, its sample state is cleared where it is unbound or moves to another domain,
and taken at once where it begins to be rendered (R107, R164). -/
def bindColumn (d : Dev) (c : Nat) (dest : Binding) : Dev :=
  let old := (getCol d.scene c).bind
  let moved := old.mode = 0 ∨ dest.mode = 0 ∨ old.dom ≠ dest.dom
  let frees := old.mode ≠ 0 ∧ (dest.mode = 0 ∨ (old.mode = 4 ∧ dest.mode ≠ 4))
  let d := if frees then columnKeepRate d c old else d
  let d := sceneMod d (fun s =>
    { s with cols := tabMod s.cols c (fun x => { x with bind := dest, unbind := none, compiled := x.compiled && !decide moved })
             job := if moved then s.job.map (fun j => { j with live := j.live.filter (· != c) }) else s.job
             objs := if moved then s.objs.map (fun kv => (kv.1, { kv.2 with ents := kv.2.ents.filter (fun e => e.1 != c) })) else s.objs })
  if ¬ moved then d else
  let d := if dest.mode = 0 ∧ old.mode ≠ 0 then (bassOrphans d c).foldl (fun d g => evFault d 8 0 c (effDom d old.dom) (mtOf d (effDom d old.dom)) g 0 0) d else d
  let d := columnFirClear d c
  let d := if frees then chansFreed d else d
  let d := joinGate d c dest
  if c = 512 ∧ dest.mode = 4 then mantleMod d (fun m => { m with halo := haloAtOnce m.halo }) else
  if chainCol c then
    { d with chain := { d.chain with cols := tabMod d.chain.cols c (fun x =>
        if dest.mode = 0 then chainClear x else chainAtOnce x (roleOf d c) (rateIn d dest.dom)) } }
  else d

def haloCols : List Nat := (List.range nHalo).map (· + 512)

/-- Columns that BUS_CFG names: COL512 going to mode 4 binds every HALO column, and leaving it releases those in it (R107). -/
def busCols (sc : Scene) (c mode : Nat) : List Nat :=
  if c = 512 ∧ (mode = 4 ∨ (getCol sc 512).bind.mode = 4) then haloCols.filter (fun k => k == c || mode == 4 || (getCol sc k).bind.mode == 4) else [c]

/-- The binding that a BUS_CFG of column c gives column k: its own, but for a HALO column that COL512 releases. -/
def busDest (dest : Binding) (c k : Nat) : Binding := if k = c ∨ dest.mode = 4 then dest else {}

/-- An entry of column c is or may become nonzero at sample b or later. -/
def carries (o : Obj) (c : Nat) (b : MT) : Bool := let r := tabGet o.ents c; rampAt r b != 0 || r.cur.v1 != 0 || rampRuns r b

/-! BUS_CFG (R106, R107). -/

def busCfgOf (sc : Scene) (p : List Byte) : Binding :=
  let old := (getCol sc (u16 p 0)).bind
  { mode := u8 p 2, dom := if u8 p 2 = 0 ∧ old.mode ≠ 0 then old.dom else u8 p 3, az := reduceAz (i16 p 4), el := i16 p 6, group := u8 p 8 }

/-- Capacity with a binding: R39, and R42 where a mapped column moves (R193). -/
def bindingFits (d : Dev) (sc : Scene) : Bool :=
  chargeFits d sc && mapsFit sc (rateIn d) d.mantle.ch && mapsFit (pendingBinds sc) (rateIn d) d.mantle.ch

/-- A scene with columns bound as dest. -/
def busTrial (sc : Scene) (cols : List Nat) (dest : Nat → Binding) : Scene :=
  { sc with cols := cols.foldl (fun t k => tabMod t k (fun x => { x with bind := dest k })) sc.cols }

/-- The unbind ramps of a change that begins at boundary b of domain n (R107 step 1): every column of it waits for the longest; a column of
another domain ramps from that domain's next boundary. -/
def busRamps (d : Dev) (cols : List Nat) (dest : Nat → Binding) (n : Nat) (b : MT) (c : Nat) (ts : List Taken) : Dev :=
  let old (k : Nat) : Nat := (getCol d.scene k).bind.dom
  let start (k : Nat) : MT := if effDom d (old k) = n then b else nextMt (mtOf d (effDom d (old k)))
  let len (k : Nat) : Nat := usSamples 10000 (rateIn d (old k))
  let ramp (e : Nat × Ramp) : Nat × Ramp := if cols.contains e.1 then (e.1, rampAtSel e.2 0 (start e.1) (len e.1) b) else e
  let wait (k : Nat) (x : Column) : Column :=
    { x with unbind := some { dest := dest k, stop := start k + BitVec.ofNat 32 (len k), group := decide (1 < cols.length), replies := if k = c then ts else [] } }
  sceneMod d (fun s =>
    { s with objs := s.objs.map (fun kv => (kv.1, { kv.2 with ents := kv.2.ents.map ramp }))
             cols := cols.foldl (fun t k => tabMod t k (wait k)) s.cols })

/-- Several BUS_CFG of one column at boundary b: the net change from the binding in force to the last one's.  What other requests have
taken up since acceptance is charged here. -/
def applyBus (d : Dev) (ts : List Taken) (b : Option MT) : Dev :=
  match ts.getLast? with
  | none => d
  | some t =>
    let p := t.req.payload
    let c := u16 p 0
    let old := (getCol d.scene c).bind
    let dest := busDest (busCfgOf d.scene p) c
    let cols := busCols d.scene c (dest c).mode
    let bindAll (d : Dev) (cols : List Nat) : Dev := cols.foldl (fun d k => bindColumn d k (dest k)) d
    match b with
    | none => bindAll d cols
    | some b =>
      if (dest c).mode ≠ 0 ∧ bindingFits d (busTrial d.scene cols dest) = false then ts.foldl (fun d t => reply d t .noResource (mtBody none)) d else
      let shifts (k : Nat) : Bool := let x := (getCol d.scene k).bind; x.mode != (dest k).mode || x.dom != (dest k).dom
      let carried (k : Nat) : Bool := (getCol d.scene k).bind.mode != 0 && d.scene.objs.any (fun kv => carries kv.2 k b)
      let moving := cols.filter shifts
      let n := effDom d (if old.mode ≠ 0 then old.dom else (dest c).dom)
      if moving.any carried = true then busRamps (bindAll d (cols.filter (fun k => !shifts k))) moving dest n b (if shifts c then c else moving.headD c) ts
      else
        let d := chainsMoved (bindAll d cols) (effDom d (dest c).dom) b
        ts.foldl (fun d t => reply d t .ok (mtBody (some (if effDom d (dest c).dom = n then b else mtOf d (effDom d (dest c).dom))))) d

def applyBusCfg : Apply1 := fun d t b => (applyBus d [t] b, .ok, mtBody b)

def busShapeBad (p : List Byte) : Bool :=
  decide (p.length < 12) || !colOk (u16 p 0) || decide (4 < u8 p 2) || decide (2 < u8 p 3) || decide (3 < u8 p 8) || !isZero p 9 3 ||
    decide (i16 p 6 < -9000) || decide (9000 < i16 p 6)

def judgeBusCfg (d : Dev) (t : Taken) (_ : Option (List Byte)) : Dev × Ans :=
  let p := t.req.payload
  let c := u16 p 0
  let m := u8 p 2
  let n := u8 p 3
  let col := getCol d.scene c
  let sc := d.scene
  let named (s : List Spk) : Bool := s.any (fun x => x.no == c)
  let refuse (st : Status) : Dev × Ans := ansB d st (mtBody none)
  if !inModes t modes4 then refuse .badMode
  else if busShapeBad p then refuse .badArg
  else if ((m == 2 || m == 3) && decide (c < 576)) || (m == 4 && c != 512) || ((m == 3 || m == 4) && !layoutIn d (effDom d n)) ||
      (tMode t == .singleRate && n != 0) || (sc.layout.map (fun l => named l.spks)) == some true then refuse .badArg
  else if (!atOnceMode t && (sc.oldCols.contains c || (busCols sc c m).any (fun k => (getCol sc k).unbind.isSome))) || (sc.job.isSome && (sc.build.map (fun b => named b.spks)) == some true) then
    refuse .busy
  else
    if m ≠ 0 ∧ bindingFits d (busTrial sc (busCols sc c m) (busDest (busCfgOf sc p) c)) = false then refuse .noResource
    else commitOr d t (if col.bind.mode ≠ 0 then effDom d col.bind.dom else n) applyBusCfg

def execBusCfg (r : Req) (s : State) : Host.Outcome State Fault Refusal := reqRow1 .busCfg judgeBusCfg r s

/-- Column k's unbind ramp has ended. -/
def unbindEnded (d : Dev) (k : Nat) : Bool :=
  let x := getCol d.scene k
  let n := effDom d x.bind.dom
  match x.unbind with
  | some u => x.bind.mode == 0 || !domRenders d n || mtGe (mtOf d n) u.stop
  | none => true

/-- BUS_UNBIND_RAMP_END (R107 step 2): HALO columns that change together do so when the last of them has ramped down. -/
def busUnbindEnd (d : Dev) (c : Nat) : Dev :=
  match (getCol d.scene c).unbind with
  | none => d
  | some u =>
    let grouped (k : Nat) : Bool := ((getCol d.scene k).unbind.map (·.group)).getD false
    let cols := if u.group then haloCols.filter grouped else [c]
    if cols.all (unbindEnded d) then
      let ends := cols.filterMap (fun k => (getCol d.scene k).unbind.map (fun u => (k, u)))
      let n := effDom d u.dest.dom
      let d := ends.foldl (fun d e => bindColumn d e.1 e.2.dest) d
      let d := chainsMoved d n (mtOf d n)
      (ends.flatMap (·.2.replies)).foldl (fun d t => reply d t .ok (mtBody (some (mtOf d n)))) d
    else d

def execBusUnbindRampEnd (column : Nat) (s : State) : Host.Outcome State Fault Refusal := run (fun d => busUnbindEnd d column) s

/-! LAYOUT_BEGIN, LAYOUT_SPK (R109, R110). -/

def judgeLayoutBegin (d : Dev) (t : Taken) (_ : Option (List Byte)) : Dev × Ans :=
  let p := t.req.payload
  let n := u8 p 0
  let sc := d.scene
  if !inModes t modes4 then ans d .badMode
  else if !longEnough t 16 || decide (2 < n) || u8 p 1 != 0 || decide (u16 p 2 < 3) || decide (nSpeakers < u16 p 2) || decide (2147483647 < u32 p 4) ||
      decide (2000000 < u32 p 8) || (tMode t == .singleRate && n != 0) then bad d
  else if sc.job.isSome || ((sc.layout.map (fun l => effDom d l.dom != n)) == some true && sc.objs.any (fun kv => kv.2.enabled && !kv.2.direct)) then ans d .busy
  else
    let b : Build := { dom := n, count := u16 p 2, rIn := u32 p 4, rampUs := if u32 p 8 = 0 then 100000 else u32 p 8, id := BitVec.ofNat 32 (u32 p 12) }
    ans (sceneMod d (fun s => { s with build := some b })) .ok

def execLayoutBegin (r : Req) (s : State) : Host.Outcome State Fault Refusal := reqRow1 .layoutBegin judgeLayoutBegin r s

/-- Speaker entry i of LAYOUT_SPK; none where a field is out of range or the distance is zero. -/
def spkEntry (p : List Byte) (i : Nat) : Option Spk :=
  let o := 4 + 16 * i
  if nSpeakers ≤ u16 p o ∨ 2 < u8 p (o + 2) ∨ 1 < u8 p (o + 3) then none else
  match posAt p (o + 4) (bit (u8 p (o + 3)) 0) with
  | some (x, y, z) => if x = 0 ∧ y = 0 ∧ z = 0 then none else some { no := u16 p o, type := u8 p (o + 2), x := x, y := y, z := z }
  | none => none

/-- A column bound by BUS_CFG. -/
def busBound (sc : Scene) (c : Nat) : Bool := let m := (getCol sc c).bind.mode; m != 0 && m != 5

def judgeLayoutSpk (d : Dev) (t : Taken) (_ : Option (List Byte)) : Dev × Ans :=
  let p := t.req.payload
  let k := u8 p 0
  if !inModes t modes4 then ans d .badMode
  else if !longEnough t 4 || k == 0 || decide (3 < k) || !longEnough t (4 + 16 * k) || !isZero p 1 3 then bad d
  else match d.scene.build with
    | none => ans d .notFound
    | some b =>
      let es := (List.range k).filterMap (spkEntry p)
      let nos := es.map (·.no)
      if (d.scene.job.map (fun j => !j.busesOnly)) == some true then ans d .notFound
      else if es.length ≠ k ∨ nos.eraseDups.length ≠ k ∨ nos.any (fun c => b.spks.any (fun s => s.no == c) || busBound d.scene c) then bad d
      else if b.count < b.spks.length + k then ans d .noResource
      else ans (sceneMod d (fun s => { s with build := some { b with spks := b.spks ++ es } })) .ok

def execLayoutSpk (r : Req) (s : State) : Host.Outcome State Fault Refusal := reqRow1 .layoutSpk judgeLayoutSpk r s

/-! LAYOUT_COMMIT and compilation (R111–R113). -/

/-- Reply after the status (R111). -/
def layoutBody (l : Option Layout) (mt : MT) (err : Nat) (id : Word) : List Byte :=
  let m := (l.map (·.mesh)).getD {}
  p8 (b2n m.ring + 2 * b2n m.isOpen) ++ p16 (if m.ring then 0 else m.tris.length) ++ p32 mt.toNat ++ p16 m.thetaCd ++ p16 err ++ p32 id.toNat ++
    p32 ((l.map (·.rIn)).getD 0)

/-- A commit whose compilation starts with the bindings as they are (R112). -/
def layoutJob (sc : Scene) (t : Taken) (buses : Bool) (atMt : Option MT) : LayoutJob :=
  let dom := if buses then (sc.layout.map (·.dom)).getD 0 else (sc.build.map (·.dom)).getD 0
  { taken := t, busesOnly := buses, atMt := atMt, binds := sc.cols.map (fun kv => (kv.1, kv.2.bind)),
    live := (sc.cols.filter (fun kv => kv.2.bind.mode == 3 && kv.2.bind.dom == dom)).map Prod.fst }

def judgeLayoutCommit (d : Dev) (t : Taken) (_ : Option (List Byte)) : Dev × Ans :=
  let p := t.req.payload
  let sc := d.scene
  let buses := bit (u8 p 4) 1
  let atMt := bit (u8 p 4) 0 && !atOnceMode t
  let mt : MT := BitVec.ofNat 32 (u32 p 0)
  let id := if buses then (sc.layout.map (·.id)).getD 0 else (sc.build.map (·.id)).getD 0
  let n := effDom d (if buses then (sc.layout.map (·.dom)).getD 0 else (sc.build.map (·.dom)).getD 0)
  let refuse (d : Dev) (st : Status) : Dev × Ans := ansB d st (layoutBody none 0 0xFFFF id)
  if !inModes t modes4 then refuse d .badMode
  else if !longEnough t 8 || decide (3 < u8 p 4) || !isZero p 5 3 then refuse d .badArg
  else if sc.job.isSome then refuse d .busy
  else if buses && sc.build.isSome then refuse d .badArg
  else if (buses && sc.layout.isNone) || (!buses && sc.build.isNone) then refuse d .notFound
  else if atMt && (u32 p 0 % 16 != 0 || decide ((8 * rateOf d n : Int) < mtDiff mt (selBoundary d n))) then
    refuse (sceneMod d (fun s => { s with build := none })) .badArg
  else (sceneMod d (fun s => { s with job := some (layoutJob s t buses (if atMt then some mt else none)) }), .done)

def execLayoutCommit (r : Req) (s : State) : Host.Outcome State Fault Refusal := reqRow1 .layoutCommit judgeLayoutCommit r s

/-- An emission bus as a mesh member: its direction at 1.0 m. -/
def busMember (c : Nat) (b : Binding) : Member :=
  let v := (polarXyz b.az b.el 65536).getD (0, 65536, 0)
  memberOf { no := c, type := 0, x := v.1, y := v.2.1, z := v.2.2 }

/-- Members of emission group g in domain n. -/
def groupMembers (sc : Scene) (n g : Nat) : List Member :=
  ((List.range nAux).map (· + 576)).filterMap (fun c =>
    let b := (getCol sc c).bind
    if b.mode = 3 ∧ b.dom = n ∧ b.group = g then some (busMember c b) else none)

/-- Half the smallest full-range distance (R109), in binary64. -/
def defaultRIn (ss : List Spk) : Nat :=
  let dist (s : Spk) : Q :=
    let c (v : Int) : Q := ⟨v, 65536⟩
    f64 (qSqrt (f64 (qAdd (f64 (qAdd (f64 (qMul (c s.x) (c s.x))) (f64 (qMul (c s.y) (c s.y))))) (f64 (qMul (c s.z) (c s.z))))))
  match (ss.filter (fun s => s.type == 0)).map dist with
  | [] => 0
  | a :: t => (qRne (qMul (f64 (qDiv (t.foldl qMin a) (qOfInt 2))) (qOfInt 65536))).toNat

/-- Mesh members in ascending speaker number. -/
def meshSpks (ss : List Spk) : List Member := (sortBy (fun a b => decide (a.no < b.no)) (ss.filter (fun s => s.type != 1))).map memberOf

/-- Lowest of a list. -/
def lowest : List Nat → Option Nat
  | [] => none
  | a :: t => some (t.foldl min a)

/-- Higher numbers of the pairs of members within 0.10° of each other. -/
def tooNear (ms : List Member) : List Nat :=
  let lim := qTurn ⟨10, 1⟩ 36000
  (pairsOf ms).filterMap (fun pr => if qLe (angleQ (v3Q pr.1.v) (v3Q pr.2.v)) lim then some (max pr.1.no pr.2.no) else none)

/-- Columns of a scene with a layout's speakers bound. -/
def bindSpks (sc : Scene) (l : Layout) : Scene :=
  { sc with cols := l.spks.foldl (fun t s => tabMod t s.no (fun x => { x with bind := { mode := 5, dom := l.dom } })) sc.cols }

/-- What compilation gives of the bindings with which it started: the layout and the emission groups, or the first failing row of R112. -/
def compileLayout (d : Dev) (j : LayoutJob) : Except (Status × Nat) (Layout × Tab Mesh) :=
  let sc := d.scene
  let was : Scene := { sc with cols := j.binds.map (fun kv => (kv.1, { bind := kv.2 })) }
  let groupsOf (n : Nat) : Except (Status × Nat) (Tab Mesh) :=
    match lowest ((List.range 4).filterMap (fun g => match groupMembers was n g with | [m] => some m.no | _ => none)) with
    | some c => .error (.badArg, c)
    | none => .ok ((List.range 4).filterMap (fun g => let ms := groupMembers was n g; if ms.isEmpty then none else some (g, meshOf ms)))
  if j.busesOnly then
    match sc.layout with
    | none => .error (.notFound, 0xFFFF)
    | some l => match groupsOf l.dom with
      | .error e => .error e
      | .ok gs => .ok (l, gs)
  else match sc.build with
    | none => .error (.notFound, 0xFFFF)
    | some b =>
      let ss := sortBy (fun x y => decide (x.no < y.no)) b.spks
      let ms := meshSpks ss
      if ss.length ≠ b.count ∨ (ss.filter (fun s => s.type == 0)).length < 3 then .error (.badArg, 0xFFFF)
      else match lowest ((ss.map (·.no)).filter (busBound was)) with
        | some c => .error (.badArg, c)
        | none => match lowest (tooNear ms) with
          | some c => .error (.badArg, c)
          | none =>
            let mesh := meshOf ms
            let reach := (meshDist mesh).map Prod.fst
            match lowest ((ms.filter (fun m => m.virt && !reach.contains m.no)).map (·.no)) with
            | some c => .error (.badArg, c)
            | none => match groupsOf b.dom with
              | .error e => .error e
              | .ok gs =>
                let l : Layout := { dom := b.dom, spks := ss, rIn := if b.rIn = 0 then defaultRIn ss else b.rIn, rampUs := b.rampUs, id := b.id, mesh := mesh }
                if bindingFits d (bindSpks sc l) then .ok (l, gs) else .error (.noResource, 0xFFFF)

/-! The swap (R114). -/

/-- The compiled layout takes effect at boundary b, or at once. -/
def applyLayout (d : Dev) (j : LayoutJob) (l : Layout) (gs : Tab Mesh) (b : Option MT) : Dev :=
  let n := effDom d l.dom
  let old := ((d.scene.layout.map (fun x => x.spks.map (·.no))).getD []) ++ d.scene.oldCols
  let gone := (old.filter (fun c => !(l.spks.any (fun s => s.no == c)))).eraseDups
  let was := d.scene
  let d := sceneMod d (fun s =>
    { s with layout := some l, groups := gs, job := none, build := none, activeBank := !s.activeBank, layoutEnd := none
             bankOther := ((s.layout.map (·.mesh)).getD {}, s.groups), prismCtrl := (s.prismCtrl &&& 1) ||| BitVec.ofNat 32 (4 * l.dom)
             cols := s.cols.map (fun kv => (kv.1, { kv.2 with compiled := j.live.contains kv.1 })) })
  let d := l.spks.foldl (fun d s => if (getCol was s.no).bind = { mode := 5, dom := l.dom } then d else bindColumn d s.no { mode := 5, dom := l.dom }) d
  match b with
  | none => gone.foldl (fun d c => bindColumn d c {}) (sceneMod d (fun s => { s with oldCols := [], oldSpks := [] }))
  | some b =>
    let olds := (((was.layout.map (·.spks)).getD []) ++ was.oldSpks).filter (fun s => gone.contains s.no)
    let d := chainsMoved (sceneMod d (fun s => { s with oldCols := gone, oldSpks := olds })) n b
    let k := rampLen l.rampUs (rateOf d n)
    objsWhere d (fun o => o.enabled && !o.direct && effDom d o.domain == n) (fun o => { o with layoutReq := some (b, k) })

/-- The reply of a layout that took effect. -/
def layoutDone (d : Dev) (j : LayoutJob) (l : Layout) (gs : Tab Mesh) (b : Option MT) (st : Status) : Dev :=
  reply (applyLayout d j l gs b) j.taken st (layoutBody (some l) (b.getD 0) 0xFFFF l.id)

/-- LAYOUT_COMPILE_COMPLETE (R112): a failed check discards the build; success waits for a boundary, which a leader names to its
partner (R380), or takes effect at once in CONFIG. -/
def layoutCompiled (d : Dev) : Dev :=
  match d.scene.job with
  | none => d
  | some j =>
    if j.result.isSome then d else
    match compileLayout d j with
    | .error e =>
      let id := (if j.busesOnly then d.scene.layout.map (·.id) else d.scene.build.map (·.id)).getD 0
      reply (completionTicket (sceneMod d (fun s => { s with job := none, build := if j.busesOnly then s.build else none })) j.taken []) j.taken e.1
        (layoutBody none 0 e.2 id)
    | .ok (l, gs) =>
      if inConfig (mode d) then layoutDone d j l gs none .ok
      else
        let n := effDom d l.dom
        let S := selBoundary d n
        let d := if d.twin.working.any (fun w => w.1 == j.taken) then completionTicket d j.taken ((List.range 3).map (fun i => if i = n then S else 0)) else d
        sceneMod d (fun s => { s with job := some { j with result := some (l, gs), st := if mode d == .twin && !isFollower d then some (j.st.getD S) else j.st } })

def execLayoutCompileComplete (s : State) : Host.Outcome State Fault Refusal := run layoutCompiled s

/-- A swap that a written BANK_SWAP requests, with no commit that waits for one (R135): the engine renders from the bank that was
inactive, and the bit clears (log entry 118). -/
def bankSwap (s : Scene) : Scene :=
  { s with
    activeBank := !s.activeBank, prismCtrl := s.prismCtrl &&& 0xD, bankOther := ((s.layout.map (·.mesh)).getD {}, s.groups)
    layout := s.layout.map (fun l => { l with mesh := s.bankOther.1 }), groups := s.bankOther.2 }

/-- The swap that is due at boundary b of domain n: not before mt, LATE where mt had passed (R112, R379, R380). -/
def layoutBoundary (d : Dev) (n : Nat) (b : MT) : Dev :=
  match d.scene.job with
  | some j => match j.result with
    | some (l, gs) =>
      if effDom d l.dom ≠ n ∨ (j.st.map (fun m => mtLater m b)) = some true ∨ (j.st.isNone ∧ isFollower d) then d
      else match j.atMt with
        | some m => if mtLater m b then d else layoutDone d j l gs (some b) (if mtLater b m then .late else .ok)
        | none => layoutDone d j l gs (some b) .ok
    | none => d
  | none => if d.scene.prismCtrl.getLsbD 1 && effDom d (d.scene.prismCtrl.toNat / 4 % 4) == n then sceneMod d bankSwap else d

/-- OLD_LAYOUT_UNBIND (R114 step 4): every layout ramp has ended. -/
def oldLayoutUnbind (d : Dev) : Dev :=
  match d.scene.layout with
  | none => d
  | some l =>
    let n := effDom d l.dom
    let busy := d.scene.objs.any (fun kv => effDom d kv.2.domain == n && (kv.2.layoutReq.isSome || kv.2.deferred.isSome)) ||
      (d.scene.layoutEnd.map (fun e => mtLater e (mtOf d n))) == some true
    if busy && domRenders d n then d
    else
      let d := d.scene.oldCols.foldl (fun d c => bindColumn d c {}) d
      chainsMoved (sceneMod d (fun s => { s with oldCols := [], oldSpks := [], layoutEnd := none })) n (mtOf d n)

def execOldLayoutUnbind (s : State) : Host.Outcome State Fault Refusal := run oldLayoutUnbind s

end Sys2Proof.Machine
end

