-- ==== Sys2Proof/Machine/ChainReq.lean ====
section
/-! DEFINITION. The speaker-chain messages: CHAIN_CFG, EQ_SET, DELAY_SET, DYN_CFG, OUT_GAIN, OUT_MUTE, and GR_READ
(R163–R187). -/

namespace Sys2Proof.Machine

def chainCfgMod (d : Dev) (c : Nat) (f : ChainCfg → ChainCfg) : Dev :=
  { d with chain := { d.chain with cols := tabMod d.chain.cols c (fun x => { x with cfg := f x.cfg }) } }
def chainMod (d : Dev) (c : Nat) (f : Chain1 → Chain1) : Dev := { d with chain := { d.chain with cols := tabMod d.chain.cols c f } }
def getChain (d : Dev) (c : Nat) : Chain1 := tabGet d.chain.cols c

def chainRefuse (d : Dev) (st : Status) : Dev × Ans := ansB d st (mtBody none)

/-- The rate a column's messages are judged at; that of D0 while it is unbound. -/
def colRate (d : Dev) (c : Nat) : Nat := rateOf d (if boundCol d c then colDom d c else effDom d 0)

/-- A chain message of a column (R164): stored at once where the column is unbound or its domain does not run, or in
CONFIG; otherwise a shadow commit of its domain. -/
def chainCommit (d : Dev) (t : Taken) (dom : Option Nat) (f : Apply1) : Dev × Ans :=
  let runs := match dom with
    | some n => domRuns (getDom d n).state
    | none => false
  if atOnceMode t || !runs then let r := f d t none; (r.1, .now r.2.1 r.2.2) else (d, .commit (dom.getD 0))

/-! CHAIN_CFG (R163, R166). -/

def applyChainColumn : Apply1 := fun d t b =>
  let p := t.req.payload
  let by_ := u8 p 4
  let fl := u8 p 5
  (chainCfgMod d (u16 p 2) (fun c =>
    { c with
      byBass := bit by_ 0, byEq := bit by_ 1, byFir := bit by_ 2, byDelay := bit by_ 3, byDyn := bit by_ 4, invert := bit fl 0, ownLp := bit fl 1
      group := u8 p 6, xfade := if u8 p 7 = 0 then 1 else u8 p 7 }), .ok, mtBody b)

def judgeChainColumn (d : Dev) (t : Taken) (_ : Option (List Byte)) : Dev × Ans :=
  let p := t.req.payload
  let c := u16 p 2
  let g := u8 p 6
  let gr := tabGet d.chain.groups g
  if !inModes t modes5 then chainRefuse d .badMode
  else if !longEnough t 8 || u8 p 0 != 0 || u8 p 1 != 0 || !chainCol c || decide (31 < u8 p 4) || decide (3 < u8 p 5) || (decide (15 < g) && g != 255) ||
      decide (64 < u8 p 7) || (decide (576 ≤ c) && g != 255) || (decide (g < 16) && gr.order != 0 && gr.dests.isEmpty) then chainRefuse d .badArg
  else chainCommit d t (colDomOf d c) applyChainColumn

def bassGroupOf (p : List Byte) : BassGroup :=
  { order := u8 p 1, crossover := u32 p 4, gain := clampCdb (i16 p 8), dests := (List.range (u8 p 10)).map (fun i => u16 p (12 + 2 * i)) }

def applyBassGroup : Apply1 := fun d t b =>
  let p := t.req.payload
  ({ countClamps d [i16 p 8] with chain := { d.chain with groups := tabSet d.chain.groups (u16 p 2) (bassGroupOf p) } }, .ok, mtBody b)

/-- A bass group with members. -/
def groupHasMembers (d : Dev) (g : Nat) : Bool :=
  match d.scene.layout with
  | some l => l.spks.any (fun s => isMember d.chain (bassLayout d) (boundCol d) g s.no)
  | none => false

def judgeBassGroup (d : Dev) (t : Taken) (_ : Option (List Byte)) : Dev × Ans :=
  let p := t.req.payload
  let g := u16 p 2
  let b := bassGroupOf p
  if !inModes t modes5 then chainRefuse d .badMode
  else if !longEnough t 12 || u8 p 0 != 1 || decide (3 < b.order) || decide (15 < g) || decide (b.crossover < 20000) || decide (300000 < b.crossover) ||
      decide (8 < u8 p 10) || u8 p 11 != 0 || !longEnough t (12 + 2 * u8 p 10) || b.dests.any (fun c => spkType d.scene.layout c != some 1) ||
      b.dests.eraseDups.length != b.dests.length || (b.order != 0 && b.dests.isEmpty) then chainRefuse d .badArg
  else if (b.order == 0 || b.dests.isEmpty) && groupHasMembers d g then chainRefuse d .busy
  else chainCommit d t (d.scene.layout.map (fun l => effDom d l.dom)) applyBassGroup

def execChainCfgColumn (r : Req) (s : State) : Host.Outcome State Fault Refusal := reqRow .chainCfg 0 [1] judgeChainColumn r s
def execChainCfgBassGroup (r : Req) (s : State) : Host.Outcome State Fault Refusal := reqRow .chainCfg 0 [0] judgeBassGroup r s

/-! EQ_SET (R170). -/

/-- Band entry i: number and band. -/
def eqEntry (p : List Byte) (i : Nat) : Nat × Band :=
  let o := 4 + 12 * i
  (u8 p o, if u8 p (o + 1) = 0 then {}
    else if u8 p (o + 1) = 9 then { type := 9, raw := { b0 := i32 p 8, b1 := i32 p 12, b2 := i32 p 16, a1 := i32 p 20, a2 := i32 p 24 } }
    else { type := u8 p (o + 1), gain := i16 p (o + 2), f0 := u32 p (o + 4), q := u16 p (o + 8) })

/-- A band entry out of range, at rate f in a message of n bands: the fields of a band of type off keep to their ranges as well
(DEDUCED, log entry 121). -/
def eqEntryBad (p : List Byte) (f n i : Nat) : Bool :=
  let o := 4 + 12 * i
  let b := eqEntry p i
  decide (15 < b.1) || decide (9 < u8 p (o + 1)) ||
    (if u8 p (o + 1) = 9 then n != 1 || decide (p.length < 28) || u16 p 6 != 0 else !isZero p (o + 10) 2) ||
    (decide (u8 p (o + 1) ≤ 8) && (decide (i16 p (o + 2) < -2400) || decide (2400 < i16 p (o + 2)) || decide (u32 p (o + 4) < 10000) ||
      decide (450 * f < u32 p (o + 4)) || decide (u16 p (o + 8) < 0x20) || decide (0x2800 < u16 p (o + 8)))) || !bandOk b.2 f

def applyEqSet : Apply1 := fun d t b =>
  let p := t.req.payload
  (chainCfgMod d (u16 p 0) (fun c => { c with bands := (List.range (u8 p 2)).foldl (fun bs i => let e := eqEntry p i; tabSet bs e.1 e.2) c.bands }), .ok, mtBody b)

def judgeEqSet (d : Dev) (t : Taken) (_ : Option (List Byte)) : Dev × Ans :=
  let p := t.req.payload
  let c := u16 p 0
  let n := u8 p 2
  let nos := (List.range n).map (fun i => (eqEntry p i).1)
  if !inModes t modes5 then chainRefuse d .badMode
  else if !longEnough t 4 || !chainCol c || n == 0 || decide (4 < n) || u8 p 3 != 0 || !longEnough t (4 + 12 * n) ||
      (List.range n).any (eqEntryBad p (colRate d c) n) || nos.eraseDups.length != n then chainRefuse d .badArg
  else chainCommit d t (colDomOf d c) applyEqSet

def execEqSet (r : Req) (s : State) : Host.Outcome State Fault Refusal := reqRow1 .eqSet judgeEqSet r s

/-! DELAY_SET (R173), DYN_CFG (R179, R180). -/

def delayPairs (p : List Byte) : List (Nat × Nat) := (List.range (u8 p 0)).map (fun i => (u16 p (4 + 4 * i), u16 p (6 + 4 * i)))

def dynCfgOf (p : List Byte) : DynCfg :=
  { comp := bit (u8 p 3) 0, lim := bit (u8 p 3) 1, rms := bit (u8 p 3) 2, truePeak := bit (u8 p 3) 3, compT := i16 p 4, compR := u16 p 6, compW := u16 p 8
    makeup := u16 p 10, compA := u32 p 12, compRel := u32 p 16, rmsUs := if u32 p 20 = 0 then 10000 else u32 p 20, limT := i16 p 24, limW := u16 p 26
    limA := u32 p 28, limRel := u32 p 32, lookUs := u32 p 36 }

/-- A chain message's change of the delay and dynamics of column c. -/
def tapChange (c : Nat) (x : ChainCfg) (t : Taken) : ChainCfg :=
  let p := t.req.payload
  match t.op with
  | .delaySet => (((delayPairs p).find? (fun e => e.1 == c)).map (fun e => { x with align := e.2 })).getD x
  | .dynCfg => if u16 p 0 = c ∧ u8 p 2 = 0 then { x with dyn := dynCfgOf p } else x
  | _ => x

/-- R172 for column c under message t: with what else its boundary takes, which t is then part of, or by itself (R187). -/
def tapsFit (d : Dev) (t : Taken) (b : Option MT) (c : Nat) : Bool :=
  let now := (getChain d c).cfg
  let due : List Taken := match b with
    | some k => (d.fw.commits.filter (fun (w : Commit) => some w.dom == colDomOf d c && (w.st.map (fun s => mtGe k s)).getD true)).map (·.taken)
    | none => []
  let ok (x : ChainCfg) : Bool := tapsOk x (colRate d c)
  (due.contains t && ok (due.foldl (tapChange c) now)) || ok (tapChange c now t)

def applyDelaySet : Apply1 := fun d t b =>
  let ps := delayPairs t.req.payload
  if ps.all (fun x => tapsFit d t b x.1) then
    (ps.foldl (fun d x => chainCfgMod d x.1 (fun c => { c with align := x.2 })) d, .ok, mtBody b)
  else (d, .badArg, mtBody none)

/-- DELAY_SET: R172 is judged where it takes effect, on the final values of that boundary (R187). -/
def judgeDelaySet (d : Dev) (t : Taken) (_ : Option (List Byte)) : Dev × Ans :=
  let p := t.req.payload
  let n := u8 p 0
  let ps := delayPairs p
  if !inModes t modes5 then chainRefuse d .badMode
  else if !longEnough t 4 || n == 0 || decide (12 < n) || !isZero p 1 3 || !longEnough t (4 + 4 * n) || ps.any (fun x => !chainCol x.1 || decide (4096 < x.2)) ||
      (ps.map Prod.fst).eraseDups.length != n then chainRefuse d .badArg
  else
    -- one boundary for every pair: that of the first column named that is bound
    chainCommit d t ((ps.filterMap (fun x => colDomOf d x.1)).head?) applyDelaySet

def execDelaySet (r : Req) (s : State) : Host.Outcome State Fault Refusal := reqRow1 .delaySet judgeDelaySet r s

def inRange (lo hi v : Nat) : Bool := decide (lo ≤ v) && decide (v ≤ hi)
def inRangeI (lo hi v : Int) : Bool := decide (lo ≤ v) && decide (v ≤ hi)

def dynOk (c : DynCfg) : Bool :=
  inRangeI (-6000) 0 c.compT && inRange 100 10000 c.compR && inRange 0 2400 c.compW && inRange 0 2400 c.makeup && inRange 50 500000 c.compA &&
    inRange 5000 5000000 c.compRel && inRange 1000 300000 c.rmsUs && inRangeI (-6000) 0 c.limT && inRange 0 600 c.limW && inRange 50 500000 c.limA &&
    inRange 5000 5000000 c.limRel && inRange 0 2000 c.lookUs

def applyDynSet : Apply1 := fun d t b =>
  let c := u16 t.req.payload 0
  if tapsFit d t b c then
    (chainCfgMod d c (fun x => { x with dyn := dynCfgOf t.req.payload }), .ok, mtBody b)
  else (d, .badArg, mtBody none)

def judgeDynSet (d : Dev) (t : Taken) (_ : Option (List Byte)) : Dev × Ans :=
  let p := t.req.payload
  let c := u16 p 0
  if !inModes t modes5 then chainRefuse d .badMode
  else if !longEnough t 40 || !chainCol c || u8 p 2 != 0 || decide (15 < u8 p 3) || !dynOk (dynCfgOf p) ||
      !peakOk (dynCfgOf p) (colRate d c) then chainRefuse d .badArg
  else chainCommit d t (colDomOf d c) applyDynSet

def execDynCfgSet (r : Req) (s : State) : Host.Outcome State Fault Refusal := reqRow .dynCfg 2 [1] judgeDynSet r s

/-- GR_READ (R180): the hold values of consecutive columns, cleared by the read. -/
def judgeGrRead (d : Dev) (t : Taken) (_ : Option (List Byte)) : Dev × Ans :=
  let p := t.req.payload
  let c := u16 p 0
  let n := u8 p 3
  let cs := (List.range n).map (c + ·)
  if !longEnough t 4 || u8 p 2 != 1 || n == 0 || decide (12 < n) || cs.any (fun k => !chainCol k) then chainRefuse d .badArg
  else
    let body := mtBody (some (mtOf d (if boundCol d c then colDom d c else effDom d 0))) ++
      cs.flatMap (fun k => p16 (getChain d k).st.holdC ++ p16 (getChain d k).st.holdL)
    (cs.foldl (fun d k => chainMod d k (fun x => { x with st := { x.st with holdC := 0, holdL := 0 } })) d, .now .ok body)

def execGrRead (r : Req) (s : State) : Host.Outcome State Fault Refusal := reqRow .dynCfg 2 [0] judgeGrRead r s

/-! OUT_GAIN and OUT_MUTE (R181–R184). -/

/-- Columns a message names: one, or every chain column bound to its domain. -/
def outCols (d : Dev) (p : List Byte) : List Nat :=
  let c := u16 p 0
  if bit (u8 p 12) 1 ∧ boundCol d c then (d.scene.cols.map Prod.fst).filter (chainOf d (colDom d c)) else [c]

def outUs (p : List Byte) : Nat := if u32 p 8 = 0 then 10000 else u32 p 8

/-- The gain or mute target of a message. -/
def outTarget (p : List Byte) (mute : Bool) : Int := if mute then (if u8 p 2 = 1 then 0 else unity) else cdbGain (clampCdb (i16 p 2))

/-- A target set, ramped from t over n samples, or stored. -/
def outSet (x : Chain1) (mute : Bool) (v : Int) (ramp : Option (MT × Nat)) : Chain1 :=
  if mute then { x with muteSet := v == 0, mute := match ramp with | some (t, n) => cosTo x.mute v t n | none => x.mute }
  else { x with goutSet := v, gout := match ramp with | some (t, n) => cosTo x.gout v t n | none => x.gout }

def applyOut (mute : Bool) : Apply1 := fun d t b =>
  let p := t.req.payload
  let d := if mute then d else countClamps d [i16 p 2]
  let cs := outCols d p
  (cs.foldl (fun d c => chainMod d c (fun x => outSet x mute (outTarget p mute) (b.map (fun k => (k, outLen (outUs p) (colRate d c)))))) d, .ok, mtBody b)

def judgeOut (mute : Bool) (d : Dev) (t : Taken) (_ : Option (List Byte)) : Dev × Ans :=
  let p := t.req.payload
  let c := u16 p 0
  let n := colDom d c
  let f := colRate d c
  let mt : MT := BitVec.ofNat 32 (u32 p 4)
  let S := selBoundary d n
  if !inModes t modes5 then chainRefuse d .badMode
  else if !longEnough t 16 || !chainCol c || (mute && (decide (1 < u8 p 2) || u8 p 3 != 0)) || decide (2000000 < u32 p 8) || decide (3 < u8 p 12) ||
      !isZero p 13 3 then chainRefuse d .badArg
  else if atOnceMode t || !boundCol d c || !domRuns (getDom d n).state || !bit (u8 p 12) 0 then chainCommit d t (colDomOf d c) (applyOut mute)
  else if (8 * f : Int) < mtDiff mt S then chainRefuse d .badArg
  else
    let late := decide (mtDiff (blockOf mt) S < 0)
    let t0 := if late then S else mt
    let x : Timed := { t := t0, n := outLen (outUs p) f, target := outTarget p mute }
    let d := if mute then d else countClamps d [i16 p 2]
    ((outCols d p).foldl (fun d k => chainMod d k (fun y => if mute then { y with timedMute := some x } else { y with timedGain := some x })) d,
     .now (if late then .late else .ok) (mtBody (some t0)))

def execOutGain (r : Req) (s : State) : Host.Outcome State Fault Refusal := reqRow1 .outGain (judgeOut false) r s
def execOutMute (r : Req) (s : State) : Host.Outcome State Fault Refusal := reqRow1 .outMute (judgeOut true) r s

end Sys2Proof.Machine
end

