-- ==== Sys2Proof/Machine/MantleReq.lean ====
section
/-! DEFINITION. The convolution and HALO messages: FIR_LOAD, FIR_COMMIT, FIR_STATUS, HALO_CFG, FIR_LOAD_COMPLETE, and what a
boundary does with loads and held commits (R190–R213). -/

namespace Sys2Proof.Machine

/-- FIR_LOAD reply after the status. -/
def firBody (d : Dev) (err : Nat) (setB : Bool) : List Byte :=
  zeros 1 ++ p16 err ++ p32 (usedIn d.scene (rateIn d) d.mantle.ch setB) ++ p32 (stateUsed d.mantle.ch)

/-! MAP (R192, R193, R198). -/

def mapEntryOf (r : List Byte) (i : Nat) : MapEntry := { ch := u16 r (4 + 8 * i), role := u8 r (6 + 8 * i), target := u16 r (8 + 8 * i), taps := u16 r (10 + 8 * i) }

/-- Whether entry i of a MAP breaks a rule that names its channel. -/
def mapEntryBad (d : Dev) (setB : Bool) (es : List MapEntry) (i : Nat) (e : MapEntry) : Bool :=
  let before := es.take i
  decide (639 < e.ch) || decide (2 < e.role) || e.taps == 0 || decide (32768 < e.taps) || (e.role != 0 && decide (1024 < e.taps)) ||
    before.any (fun x => x.ch == e.ch || (x.role == e.role && x.target == e.target)) ||
    (if e.role = 0 then !chainCol e.target || !boundCol d e.target else decide (nHalo ≤ e.target) || (haloDom d).isNone) ||
    d.mantle.ch.any (fun kv => kv.1 != e.ch && (match extOf kv.2 (!setB) with
      | some x => x.role == e.role && x.target == e.target
      | none => false))

def judgeMap (d : Dev) (setB : Bool) (r : List Byte) : Dev × Ans :=
  let n := u16 r 0
  let es := (List.range n).map (mapEntryOf r)
  let held := d.mantle.commits.any (fun c => c.chans.any (fun m => (getMch d m).activeB != setB))
  if r.length < 4 ∨ 640 < n ∨ r.length ≠ 4 + 8 * n ∨ u16 r 2 ≠ 0 ∨ (List.range n).any (fun i => u8 r (7 + 8 * i) != 0) then ansB d .badArg (firBody d 0xFFFF setB)
  else if !mappable d.mantle.ch setB || held then ansB d .busy (firBody d 0xFFFF setB)
  else match (es.zipIdx.find? (fun e => mapEntryBad d setB es e.2 e.1)) with
    | some e => ansB d .badArg (firBody d e.1.ch setB)
    | none =>
      let ch := applyMap d.mantle.ch setB es
      if !mapsFit d.scene (rateIn d) ch || decide (4194304 < stateUsed ch) then ansB d .noResource (firBody d 0xFFFF setB)
      else
        let d := powerPlan (mantleMod d (fun m => { m with ch := ch }))
        if es.any (fun e => decide (320 ≤ e.ch)) && !pdOn d 9 then (needPd d 9, .wait (.powerOn 9 (firBody d 0xFFFF setB)))
        else ansB d .ok (firBody d 0xFFFF setB)

/-! DATA (R199). -/

/-- The records of a DATA region: channel, taps; none where the region's length does not match. -/
def dataRecs : Nat → List Byte → Option (List (Nat × List F32))
  | 0, r => if r.isEmpty then some [] else none
  | n + 1, r =>
    let t := u32 r 4
    if r.length < 8 ∨ u16 r 2 ≠ 0 ∨ r.length < 8 + 4 * t then none
    else (dataRecs n (r.drop (8 + 4 * t))).map (fun rest =>
      (u16 r 0, (List.range t).map (fun i => BitVec.ofNat 32 (u32 r (8 + 4 * i)))) :: rest)

def notFinite (x : F32) : Bool := (x.toNat / 2 ^ 23) % 256 == 255

/-- The first failing row of R199 for the records, with its channel. -/
def dataFault (d : Dev) (rs : List (Nat × List F32)) : Option (Status × Nat) :=
  let nos := rs.map Prod.fst
  let first (p : Nat → Nat × List F32 → Bool) : Option Nat := (rs.zipIdx.find? (fun x => p x.2 x.1)).map (fun x => x.1.1)
  match first (fun i x => decide (639 < x.1) || (nos.take i).contains x.1 || x.2.isEmpty ||
      (match inactive (getMch d x.1) with | some e => decide (e.lam < x.2.length) | none => false)) with
  | some c => some (.badArg, c)
  | none => match first (fun _ x => (inactive (getMch d x.1)).isNone) with
    | some c => some (.notFound, c)
    | none => match first (fun _ x => fading (getMch d x.1) || heldCommit d x.1) with
      | some c => some (.busy, c)
      | none => (first (fun _ x => x.2.any notFinite)).map (fun c => (.badArg, c))

/-- Taps enter the inactive extents, which read LOADING. -/
def beginLoad (d : Dev) (asked : Option Taken) (rs : List (Nat × List F32)) : Dev :=
  let d : Dev := { d with track := { d.track with posted := d.track.posted.filter (fun m => !(rs.any (fun x => x.1 == m))) } }
  mantleMod d (fun m =>
    { m with
      load := some { asked := asked, chans := rs.map Prod.fst }
      ch := rs.foldl (fun t x => tabMod t x.1 (fun c => setExt c (!c.activeB) ((inactive c).map (fun e =>
        { e with state := .loading, done := false, taps := x.2, latch := none, ready := false, raw := [] })))) m.ch })

def loadSet (d : Dev) (rs : List (Nat × List F32)) : Bool := match rs with | x :: _ => !(getMch d x.1).activeB | [] => false

def judgeData (d : Dev) (t : Taken) (r : List Byte) : Dev × Ans :=
  let n := u16 r 0
  match (if 4 ≤ r.length ∧ 1 ≤ n ∧ n ≤ 640 ∧ u16 r 2 = 0 then dataRecs n (r.drop 4) else none) with
  | none => ansB d .badArg (firBody d 0xFFFF false)
  | some rs =>
    match dataFault d rs with
    | some (st, c) => ansB d st (firBody d c (loadSet d rs))
    | none => if d.mantle.load.isSome then ansB d .busy (firBody d 0xFFFF (loadSet d rs)) else (beginLoad d (some t) rs, .done)

/-- FIR_LOAD before and after its region is fetched. -/
def judgeFirLoad (d : Dev) (t : Taken) (bulk : Option (List Byte)) : Dev × Ans :=
  let p := t.req.payload
  let setB := u8 p 17 == 1
  if !inModes t modes5 then ansB d .badMode (firBody d 0xFFFF false)
  else if !longEnough t 20 || !t.req.bulk || decide (1 < u8 p 16) || decide (1 < u8 p 17) || (u8 p 16 == 1 && u8 p 17 != 0) || u16 p 18 != 0 ||
      !bulkOk (bulkRef p 0) then ansB d .badArg (firBody d 0xFFFF false)
  else if firBusy d then ansB d .busy (firBody d 0xFFFF setB)
  else match bulk with
    | none => needFetch d t 0
    | some r => if u8 p 16 = 0 then judgeMap d setB r else judgeData d t r

def execFirLoadMap (r : Req) (s : State) : Host.Outcome State Fault Refusal := reqRow .firLoad 16 [1] judgeFirLoad r s
def execFirLoadData (r : Req) (s : State) : Host.Outcome State Fault Refusal := reqRow .firLoad 16 [0] judgeFirLoad r s

/-- A load whose extents are all LOADED is over, and answered (R199). -/
def loadFinish (d : Dev) : Dev :=
  match d.mantle.load with
  | none => d
  | some l =>
    if l.chans.all (fun m => ((inactive (getMch d m)).map (fun e => e.state != .loading)) != some false) then
      let d := mantleMod d (fun m => { m with load := none })
      match l.asked with
      | some t =>
        if t.op == .calStart then
          let d : Dev := { d with cal := { d.cal with
            designPend := none, lastDesign := (d.cal.designPend.map Prod.fst).orElse (fun _ => d.cal.lastDesign)
            curves := (d.cal.designPend.map Prod.snd).getD d.cal.curves } }
          reply d t .ok (zeros 1 ++ p16 0xFFFF)
        else reply (completionTicket d t []) t .ok (firBody d 0xFFFF (match l.chans with | m :: _ => !(getMch d m).activeB | [] => false))
      | none => d
    else d

/-! FIR_COMMIT (R201–R204). -/

/-- Channels a commit names. -/
def commitChans (d : Dev) (p : List Byte) : List Nat :=
  if u8 p 0 = 0 then [u16 p 2]
  else (d.mantle.ch.filter (fun kv => hasEntry kv.2 && ((chanDoms d kv.1).contains (effDom d (u8 p 1)) || (chanDoms d kv.1).isEmpty))).map Prod.fst

/-- A commit outside CONFIG: its channels are judged at the next boundary of its domain (R214), or at once where no boundary comes. -/
def commitHold (d : Dev) (t : Taken) (cs : List Nat) (named : Option Nat) (atMt : Option MT) (n : Nat) : Dev × Ans :=
  let dom := commitDomOf d named cs
  let runs := (dom.map (fun k => domRuns (getDom d k).state)) == some true
  let c : MCommit := { taken := t, chans := cs, atMt := atMt, n := n, named := named, judged := runs,
                       st := if mode d == .twin && !isFollower d then some (selBoundary d (dom.getD 0)) else none }
  let put (d : Dev) (c : MCommit) : Dev := mantleMod d (fun m => { m with commits := m.commits ++ [c] })
  if runs then (put d { c with judged := false }, .done)
  else match commitFault d cs with
    | some (st, m) => ansB d st (commitBody 0 0 m)
    | none =>
      if mode d != .twin && dom.isNone && cs.all (fun m => chanReady (getMch d m)) then ansB (swapChans d cs none) .ok (commitBody cs.length 0 0xFFFF)
      else (put d { c with judged := true }, .done)

def judgeFirCommit (d : Dev) (t : Taken) (_ : Option (List Byte)) : Dev × Ans :=
  let p := t.req.payload
  let cs := commitChans d p
  let named := if u8 p 0 = 1 then some (u8 p 1) else none
  let dom := (commitDomOf d named cs).getD 0
  let atMt := bit (u8 p 8) 0 && !atOnceMode t
  let mt : MT := BitVec.ofNat 32 (u32 p 4)
  let refuse (st : Status) (err : Nat) : Dev × Ans := ansB d st (commitBody 0 0 err)
  if !inModes t modes5 then refuse .badMode 0xFFFF
  else if !longEnough t 12 || decide (1 < u8 p 0) || (u8 p 0 == 1 && decide (2 < u8 p 1)) || (u8 p 0 == 0 && decide (639 < u16 p 2)) || decide (1 < u8 p 8) ||
      decide (64 < u8 p 9) || u16 p 10 != 0 then refuse .badArg 0xFFFF
  else if atOnceMode t then
    match commitFault d cs with
    | some (st, m) => refuse st m
    | none => (swapChans d cs none, .now .ok (commitBody cs.length 0 0xFFFF))
  else if atMt && (u32 p 4 % 16 != 0 || decide ((8 * rateOf d dom : Int) < mtDiff mt (selBoundary d dom))) then refuse .badArg 0xFFFF
  else commitHold d t cs named (if atMt then some mt else none) (16 * (if u8 p 9 = 0 then 8 else u8 p 9))

/-- FIR_COMMIT (R201). -/
def execFirCommit (r : Req) (s : State) : Host.Outcome State Fault Refusal :=
  reqRow1 .firCommit judgeFirCommit r s

/-! HALO at a boundary. -/

def haloMod (d : Dev) (f : Halo → Halo) : Dev := mantleMod d (fun m => { m with halo := f m.halo })

/-- A pending orientation is sampled at boundary b: it is in force, and applies from its own block (R31, R211). -/
def haloSample (h : Halo) (b : MT) : Halo :=
  match h.pending with
  | some (o, t) => if mtGe b t then { h with orient := o, oriOld := some (h.orient, t), pending := none } else h
  | none => h

/-- ROTATE_EN and orientation for the block that starts at k. -/
def haloAt (h : Halo) (k : MT) : Bool × Orient :=
  ((match h.rotOld with | some (r, t) => if mtLater t k then r else h.rotate | none => h.rotate),
   (match h.oriOld with | some (o, t) => if mtLater t k then o else h.orient | none => h.orient))

/-- Changes that apply to the block at k and all that follow. -/
def haloSettle (h : Halo) (k : MT) : Halo :=
  { h with rotOld := h.rotOld.filter (fun o => mtLater o.2 k), oriOld := h.oriOld.filter (fun o => mtLater o.2 k) }

/-- FIR_LOAD_COMPLETE (R199): the taps are written and transformed. -/
def firLoadDone (d : Dev) : Dev :=
  match d.mantle.load with
  | none => d
  | some l =>
    let d := mantleMod d (fun m => { m with ch := l.chans.foldl (fun t k => tabMod t k (fun c =>
      setExt c (!c.activeB) ((inactive c).map (fun e => { e with done := true })))) m.ch })
    commitsUnbound (loadFinish (unboundChans d))

/-- The transfer of a load's taps fails with a bus error: its extents are INVALID and it is answered (R199).  A design or a proposal gets
the same status. -/
def firLoadFailed (d : Dev) (st : Status) : Dev :=
  match d.mantle.load with
  | none => d
  | some l =>
    let d := mantleMod d (fun m => { m with load := none, loadErr := m.loadErr + 1, ch := l.chans.foldl (fun t k => tabMod t k (fun c =>
      setExt c (!c.activeB) ((inactive c).map (fun e => if e.state = .loading then { e with state := .invalid, done := false, taps := [], raw := [] } else e)))) m.ch })
    match l.asked with
    | some t =>
      if t.op == .calStart then reply { d with cal := { d.cal with designPend := none } } t st (zeros 1 ++ p16 0xFFFF)
      else
        let d := twinMod d (fun x => { x with working := x.working.filter (fun w => w.1 != t) })
        reply d t st (firBody d 0xFFFF (match l.chans with | m :: _ => !(getMch d m).activeB | [] => false))
    | none => d

/-- FIR_LOAD_COMPLETE (R199): the transfer and the transform end, LOADED, or INVALID where the transfer met a bus error. -/
def firLoadEnd (d : Dev) : Dev :=
  match d.mantle.load.bind (·.busErr) with
  | some st => firLoadFailed d st
  | none => firLoadDone d

def execFirLoadComplete (s : State) : Host.Outcome State Fault Refusal := run firLoadEnd s

/-- What boundary b of domain n does in MANTLE: latches, READY, released sets, finished loads, held commits. -/
def mantleBoundary (d : Dev) (n : Nat) (b : MT) : Dev :=
  let d := if haloDom d == some n then haloMod d (fun h => haloSample h b) else d
  if !domRuns (getDom d n).state then commitsUnbound (loadFinish (unboundChans d)) else
  let d := mchansWhere d (mchanOf d n) (fun c => chanBoundary c b)
  let d := loadFinish (unboundChans d)
  let here (d : Dev) : List MCommit := d.mantle.commits.filter (fun c => commitDom d c == some n)
  let d := (here d).foldl commitJudge d
  commitsUnbound ((here d).foldl (fun d c => commitTry d c b) d)

/-! FIR_STATUS (R205). -/

def extCode (e : Option Extent) : Nat :=
  match e with
  | none => 0
  | some x => match x.state with
    | .mapped => 1 | .loading => 2 | .loaded => 3 | .invalid => 4

def extLam (e : Option Extent) : Nat := (e.map (·.lam)).getD 0

def firChanBytes (d : Dev) (m : Nat) : List Byte :=
  let c := getMch d m
  let es := c.a.toList ++ c.b.toList
  p8 (b2n (activeIsB c) + 2 * b2n (fading c) + 4 * b2n (heldCommit d m) + 8 * b2n (((inactive c).map (·.ready)) == some true) +
      16 * b2n (!es.isEmpty && es.all (fun e => (extDom d e).isNone))) ++
    p8 (extCode c.a) ++ p8 (extCode c.b) ++ zeros 1 ++ p16 (extLam c.a) ++ p16 (extLam c.b)

/-- SUMMARY's fields before and after mt. -/
def firSummary (d : Dev) : List Byte × List Byte :=
  (p8 (b2n (mappable d.mantle.ch false) + 2 * b2n (mappable d.mantle.ch true) + 4 * b2n (firBusy d)) ++ p16 (d.mantle.ch.filter (fun kv => fading kv.2)).length,
   p32 (usedIn d.scene (rateIn d) d.mantle.ch false) ++ p32 (usedIn d.scene (rateIn d) d.mantle.ch true) ++ p32 (stateUsed d.mantle.ch))

/-- MANTLE as FIR_STATUS describes it: as it is now, at an MT. -/
def firSnapOf (d : Dev) (mt : MT) : FirSnap :=
  let s := firSummary d
  { mt := mt, chans := d.mantle.ch.map (fun kv => (kv.1, firChanBytes d kv.1)), head := s.1, tail := s.2 }

/-- At the last boundary of D0, or now where D0 does not run (R205). -/
def firSnap (d : Dev) : FirSnap :=
  match d.mantle.firSnap with
  | some s => if domRuns (getDom d 0).state then s else firSnapOf d 0
  | none => firSnapOf d (if domRuns (getDom d 0).state then mtOf d 0 else 0)

/-- What boundary b of domain n leaves for FIR_STATUS. -/
def firSnapTake (d : Dev) (n : Nat) (b : MT) : Dev :=
  if n = 0 then mantleMod d (fun m => { m with firSnap := if domRuns (getDom d 0).state then some (firSnapOf d b) else none }) else d

def judgeFirStatus (d : Dev) (t : Taken) (_ : Option (List Byte)) : Dev × Ans :=
  let p := t.req.payload
  let s := firSnap d
  if !longEnough t 1 || decide (1 < u8 p 0) then bad d
  else if u8 p 0 = 1 then ansB d .ok (s.head ++ p32 s.mt.toNat ++ s.tail ++ p32 tapBudget)
  else if !longEnough t 5 || u8 p 1 != 0 || u8 p 4 == 0 || decide (6 < u8 p 4) then bad d
  else if 640 < u16 p 2 + u8 p 4 then ansB d .notFound (mtBody (some s.mt))
  else ansB d .ok (mtBody (some s.mt) ++ (List.range (u8 p 4)).flatMap (fun i => ((s.chans.find? (fun kv => kv.1 == u16 p 2 + i)).map Prod.snd).getD (zeros 8)))

def execFirStatus (r : Req) (s : State) : Host.Outcome State Fault Refusal := reqRow1 .firStatus judgeFirStatus r s

/-! HALO_CFG (R210, R211). -/

/-- HRIR targets served in the active sets. -/
def hrirCount (d : Dev) : Nat :=
  (d.mantle.ch.filter (fun kv => match extOf kv.2 kv.2.activeB with | some e => e.role != 0 | none => false)).length

def haloBody (d : Dev) (mt : MT) : List Byte :=
  let h := d.mantle.halo
  p8 (b2n h.rotate + 2 * b2n h.muted + 4 * b2n h.pending.isSome) ++ p16 (hrirCount d) ++ p32 mt.toNat ++ s16 h.orient.yaw ++ s16 h.orient.pitch ++ s16 h.orient.roll

def haloAns (d : Dev) (st : Status) (mt : MT) : Dev × Ans := (d, .now st (haloBody d mt))

/-- SET at boundary b, or stored. -/
def applyHaloSet : Apply1 := fun d t b =>
  let p := t.req.payload
  let d := countClamps d [i16 p 2]
  let n := outLen (if u32 p 4 = 0 then 10000 else u32 p 4) (rateOf d ((haloDom d).getD (effDom d 0)))
  let g := clampCdb (i16 p 2)
  let muted := bit (u8 p 1) 1
  let rot := bit (u8 p 1) 0
  let d := haloMod d (fun h =>
    { h with
      rotate := rot, gain := g, muted := muted
      rotOld := match b with | some k => if rot = h.rotate then h.rotOld else some (((h.rotOld.filter (fun o => o.2 == k)).map Prod.fst).getD h.rotate, k) | none => none
      g := match b with | some k => cosTo h.g (cdbGain g) k n | none => h.g
      m := match b with | some k => cosTo h.m (if muted then 0 else unity) k n | none => h.m })
  (d, .ok, haloBody d (b.getD 0))

def judgeHaloSet (d : Dev) (t : Taken) (_ : Option (List Byte)) : Dev × Ans :=
  let p := t.req.payload
  if !inModes t modes5 then haloAns d .badMode 0
  else if !longEnough t 8 || decide (2 < u8 p 0) || decide (3 < u8 p 1) || decide (2000000 < u32 p 4) then haloAns d .badArg 0
  else match haloDom d with
    | some n => commitOr d t n applyHaloSet
    | none => let r := applyHaloSet d t none; (r.1, .now r.2.1 r.2.2)

def orientOf (p : List Byte) : Orient := { yaw := reduceAz (i16 p 2), pitch := i16 p 4, roll := reduceAz (i16 p 6) }

def judgeHaloOrient (d : Dev) (t : Taken) (_ : Option (List Byte)) : Dev × Ans :=
  let p := t.req.payload
  let mt : MT := BitVec.ofNat 32 (u32 p 8)
  if !inModes t modes5 then haloAns d .badMode 0
  else if !longEnough t 12 || decide (1 < u8 p 1) || decide (i16 p 4 < -9000) || decide (9000 < i16 p 4) then haloAns d .badArg 0
  else match haloDom d with
    | none => haloAns d .notFound 0
    | some n =>
      if atOnceMode t || !domRuns (getDom d n).state then haloAns (haloMod d (fun h => { h with orient := orientOf p, pending := none })) .ok 0
      else
        let S := selBoundary d n
        let pend (k : MT) : Dev := haloMod d (fun h => { h with pending := some (orientOf p, k) })
        if !bit (u8 p 1) 0 then haloAns (pend S) .ok S
        else if (8 * rateOf d n : Int) < mtDiff mt S then haloAns d .badArg 0
        else if 0 ≤ mtDiff (blockOf mt) S then haloAns (pend (blockOf mt)) .ok (blockOf mt)
        else haloAns (pend S) .late S

def judgeHaloGet (d : Dev) (t : Taken) (_ : Option (List Byte)) : Dev × Ans :=
  if !inModes t modes5 then haloAns d .badMode 0
  else if !longEnough t 1 || u8 t.req.payload 0 != 2 then haloAns d .badArg 0
  else haloAns d .ok 0

def execHaloCfgSet (r : Req) (s : State) : Host.Outcome State Fault Refusal := reqRow .haloCfg 0 [1, 2] judgeHaloSet r s
def execHaloCfgOrient (r : Req) (s : State) : Host.Outcome State Fault Refusal := reqRow .haloCfg 0 [0, 2] judgeHaloOrient r s
def execHaloCfgGet (r : Req) (s : State) : Host.Outcome State Fault Refusal := reqRow .haloCfg 0 [0, 1] judgeHaloGet r s

end Sys2Proof.Machine
end

