-- ==== Sys2Proof/Machine/Clock.lean ====
section
/-! DEFINITION. The PTP time unit (R48, R52–R57), pulse outputs (R69–R71) and capture inputs (R72). -/

namespace Sys2Proof.Machine

def ptpMod (d : Dev) (f : Ptp → Ptp) : Dev := timeMod d (fun t => { t with ptp := f t.ptp })
def ptpPortMod (d : Dev) (i : Nat) (f : PtpPort → PtpPort) : Dev := ptpMod d (fun p => { p with ports := tabMod p.ports i f })
def getPtpPort (d : Dev) (i : Nat) : PtpPort := tabGet d.time.ptp.ports i

/-- A PTP timestamp in nanoseconds, and the timestamp of a device time (R12). -/
def ptpNs (t : PtpTime) : Int := ((t.sec.toNat * 1000000000 + t.ns.toNat : Nat) : Int)
def ptpTimeOf (t : DT) : PtpTime := { sec := BitVec.ofNat 48 (t.toNat / 1000000000), ns := BitVec.ofNat 32 (t.toNat % 1000000000) }

/-- The time unit's state changes and the change is reported (R54, R73). -/
def ptpTo (d : Dev) (new : PtpState) : Dev :=
  let old := d.time.ptp.state
  if new = old then d
  else refsChanged (evPortClock (ptpMod d (fun p => { p with state := new, within := 0 })) 4 0 (ptpCode new) (ptpCode old) 0 0 (now d))

/-! The default best master clock algorithm (R52): the data set comparison and the state decision of IEEE 1588-2019 (PRESUMED, log
entry 66).  An Announce operand is that of a qualified foreign master. -/

/-- A data set heard on a port: its sender, and the port that received it. -/
structure Heard where
  data : Announce
  src : PortId
  rcv : PortId
  deriving DecidableEq, Repr

/-- Data sets compared field by field, lower first. -/
def announceKey (a : Announce) : List Nat :=
  [a.priority1, a.clockClass, a.accuracy, a.variance, a.priority2, a.gm.toNat]

def lexLt : List Nat → List Nat → Bool
  | a :: as, b :: bs => decide (a < b) || (a == b && lexLt as bs)
  | _, _ => false

def portIdLt (a b : PortId) : Bool := lexLt [a.clock.toNat, a.port] [b.clock.toNat, b.port]

/-- Data sets of one grandmaster compared by distance, then by ports: 2 where a is better, 1 where it is better by topology, −1 and −2
the other way round. -/
def topoCmp (a b : Heard) : Int :=
  let x := a.data.stepsRemoved
  let y := b.data.stepsRemoved
  if y + 1 < x then -2 else if x + 1 < y then 2
  else if y < x then (if portIdLt a.rcv a.src then -2 else if portIdLt a.src a.rcv then -1 else 0)
  else if x < y then (if portIdLt b.rcv b.src then 2 else if portIdLt b.src b.rcv then 1 else 0)
  else if portIdLt a.src b.src then 1 else if portIdLt b.src a.src then -1
  else if a.rcv.port < b.rcv.port then 1 else if b.rcv.port < a.rcv.port then -1 else 0

/-- The data set comparison. -/
def dataCmp (a b : Heard) : Int :=
  if a.data.gm = b.data.gm then topoCmp a b else if lexLt (announceKey a.data) (announceKey b.data) then 2 else -2

/-- The port's own identity: ports number from 1. -/
def ownPort (i : Nat) : PortId := { clock := Config.deviceId, port := i + 1 }

/-- This clock's own data set; accuracy and variance are those of IEEE 1588 for an unknown clock (PRESUMED, log entry 66). -/
def ownAnnounce (c : PtpCfg) : Announce :=
  { gm := Config.deviceId, priority1 := c.priority1, clockClass := if c.clockType = 1 then 255 else c.clockClass, accuracy := 0xFE,
    variance := 0xFFFF, priority2 := c.priority2, stepsRemoved := 0 }
def ownHeard (c : PtpCfg) : Heard :=
  { data := ownAnnounce c, src := { clock := Config.deviceId }, rcv := { clock := Config.deviceId } }

def ptpEnabled (d : Dev) (i : Nat) : Bool := d.time.ptp.cfg.clockType != 0 && bit d.time.ptp.cfg.portMask i && (getNet d i).up

/-- The better of two. -/
def heardBest (best : Option (Nat × Heard)) (x : Nat × Heard) : Option (Nat × Heard) :=
  match best with
  | some b => if 0 < dataCmp x.2 b.2 then some x else some b
  | none => some x

/-- The masters heard on a port that is enabled. -/
def heardOn (d : Dev) (i : Nat) : List (Nat × Heard) :=
  if ptpEnabled d i then (getPtpPort d i).foreign.map (fun f => (i, { data := f.2, src := f.1, rcv := ownPort i })) else []

/-- The best master heard on a port. -/
def portBest (d : Dev) (i : Nat) : Option Heard := ((heardOn d i).foldl heardBest none).map Prod.snd

/-- The port with the best foreign master, and its data set, among those that q holds of. -/
def bestWhere (d : Dev) (q : Nat → Heard → Bool) : Option (Nat × Heard) :=
  (((List.range 4).flatMap (heardOn d)).filter (fun x => q x.1 x.2)).foldl heardBest none
def bestForeign (d : Dev) : Option (Nat × Heard) := bestWhere d (fun _ _ => true)

/-- A clock of class 1 to 127 is never a slave. -/
def neverSlave (c : PtpCfg) : Bool := c.clockType != 1 && decide (1 ≤ c.clockClass) && decide (c.clockClass ≤ 127)

/-- The clock is its own best against the best foreign master. -/
def ownBest (c : PtpCfg) (b : Heard) : Bool := c.clockType != 1 && (neverSlave c || decide (0 < dataCmp (ownHeard c) b))

/-- A role for each port. -/
def putRoles (d : Dev) (r : Nat → PtpRole) : Dev :=
  (List.range 4).foldl (fun d i => ptpPortMod d i (fun p => { p with role := if ptpEnabled d i then r i else .disabled })) d

/-- A port that has heard no master listens until its announce receipt timeout. -/
def unheardRole (d : Dev) (i : Nat) : PtpRole := if (getPtpPort d i).role = .listening then .listening else .master

/-- Roles of the ports where port sp follows the foreign master b: the other ports of an ordinary clock are PASSIVE (R53); those of a
boundary clock follow the default BMCA. -/
def slaveRoles (d : Dev) (sp : Nat) (b : Heard) : Dev :=
  putRoles d (fun i =>
    if i = sp then .slave else if d.time.ptp.cfg.clockType ≠ 3 then .passive
    else match portBest d i with
      | some e => if dataCmp b e = 1 then .passive else .master
      | none => unheardRole d i)

/-- Roles of the ports of a clock that is its own best.  Each enabled port of an ordinary clock is a master, for R53 speaks only of one
that has a slave port (DESIGN CHOICE, log entry 107); a port of a clock of class 1 to 127 that hears a better master is PASSIVE; a port of
a boundary clock that has heard nothing listens on. -/
def ownRoles (d : Dev) : Dev :=
  let c := d.time.ptp.cfg
  putRoles d (fun i => match portBest d i with
    | some e => if neverSlave c && !decide (0 < dataCmp (ownHeard c) e) then .passive else .master
    | none => if c.clockType = 3 then unheardRole d i else .master)

/-- A foreign master is selected (R53, R54); switch says that it is by the switch of R53. -/
def selectForeign (d : Dev) (sp : Nat) (b : Heard) (switch : Bool) : Dev :=
  let p : PtpParent := { gm := b.data.gm, src := b.src, port := sp }
  let same := d.time.ptp.parent == some p
  let d := slaveRoles (ptpMod d (fun x => { x with parent := some p })) sp b
  match d.time.ptp.state with
  | .disabled => d
  | .freerun | .holdover | .grandmaster => ptpTo d .acquiring
  | .acquiring => if same then d else ptpMod d (fun p => { p with within := 0 })
  | .synced => if same then d else if switch then ptpMod d (fun p => { p with switched := true }) else ptpTo d .acquiring

/-- This clock is its own best, or there is no master (R54): a master-capable clock in FREERUN or HOLDOVER becomes
GRANDMASTER; one that follows a master goes to HOLDOVER first. -/
def selectOwn (d : Dev) : Dev :=
  let d := ptpMod d (fun p => { p with parent := none })
  let st := d.time.ptp.state
  if st = .disabled then d
  else if st = .acquiring ∨ st = .synced then putRoles (ptpTo d .holdover) (fun _ => .listening)
  else if d.time.ptp.cfg.clockType = 1 then putRoles d (fun _ => .listening)
  else ownRoles (ptpTo d .grandmaster)

/-- The state decision after an Announce. -/
def bmca (d : Dev) : Dev :=
  match bestForeign d with
  | none => d
  | some b => if ownBest d.time.ptp.cfg b.2 then selectOwn d else selectForeign d b.1 b.2 false

/-- The state decision where a master is lost. -/
def masterLost (d : Dev) : Dev := if (bestForeign d).isNone then selectOwn d else bmca d

/-! The servo (R48, R54). -/

/-- The increment stays within ±500 ppm of 1 ns. -/
def servoBound (v : Nat) : Nat := clampN (4294967296 - 2147483) (4294967296 + 2147483) v

/-- Edges that a DT step passes (R15, R71): a train resumes at the next point of its grid, a single pulse that was passed fires. -/
def pulseStep (forward : Bool) (new : DT) (p : Pulse) : Pulse :=
  if !p.running || p.cfg.timebase != 0 then p
  else if forward then
    (if 0 ≤ dtDiff p.next new then p
     else if p.cfg.mode = 1 then { p with running := false, produced := p.produced + 1, highUntil := some (new + BitVec.ofNat 64 p.cfg.width) }
     else
       let missed := (dtDiff new p.next).toNat / p.cfg.period + 1
       { p with next := p.next + BitVec.ofNat 64 (missed * p.cfg.period), skipped := p.skipped + BitVec.ofNat 32 missed })
  else if p.cfg.mode = 1 then p
  else { p with next := dtGrid p.cfg.start new p.cfg.period }

/-- A single pulse that a forward step to a device time passes. -/
def pulsePassed (new : DT) (p : Pulse) : Bool := p.running && p.cfg.timebase == 0 && p.cfg.mode == 1 && decide (dtDiff p.next new < 0)

/-- DT stepped by a signed number of nanoseconds (R48): counted, seen by pulses, captures and gate lists (R345). -/
def stepDt (d : Dev) (by_ : Int) : Dev :=
  let to_ := (now d).toNat + wrapNat 64 by_
  let d := netMod d (fun n => { n with ports := n.ports.map (fun kv => (kv.1, match kv.2.gates with
    | some g => { kv.2 with gateIx := gateIxAt g (to_ % 2 ^ 64) }
    | none => kv.2)) })
  let new := now d + BitVec.ofNat 64 (wrapNat 64 by_)
  let fired := (List.range 8).filter (fun i => decide (0 < by_) && pulsePassed new (tabGet d.time.pulses i))
  let d := timeMod d (fun t =>
    { t with
      dt := new, steps := t.steps + 1
      irq := (fired.filter (fun i => (tabGet t.pulses i).cfg.flags.getLsbD 1)).foldl (fun w i => w ||| BitVec.ofNat 32 (2 ^ i)) t.irq
      pulses := t.pulses.map (fun kv => (kv.1, pulseStep (decide (0 < by_)) new kv.2))
      caps := (List.range 4).foldl (fun c i => tabMod c i (fun x => { x with step := true })) t.caps })
  fired.foldl (fun d i => dmaEdge d 4 i) d

/-- A measured offset from the master (R53, R54): positive where DT is ahead. -/
def takeOffset (d : Dev) (o : Int) : Dev :=
  let c := d.time.ptp.cfg
  let st := d.time.ptp.state
  let first := d.time.ptp.switched
  let d := ptpMod d (fun p => { p with offset := o, switched := false })
  if st ≠ .acquiring ∧ st ≠ .synced then d
  else if c.stepThreshold ≠ 0xFFFFFFFF ∧ c.stepThreshold < o.natAbs then
    ptpMod (ptpTo (stepDt d (-o)) .acquiring) (fun p => { p with within := 0 })
  else
    let near := decide (o.natAbs ≤ c.syncThreshold)
    let d := timeMod d (fun t => { t with incr := servoBound (Config.servo o t.incr) })
    if first && st == .synced && !near then ptpTo d .acquiring
    else
      let k := if near then d.time.ptp.within + 1 else 0
      let d := ptpMod d (fun p => { p with within := k })
      if st = .acquiring ∧ 8 ≤ k then ptpTo d .synced else d

/-- A Sync completed on the slave port: the master-to-slave difference, less the path delay, is the offset. -/
def syncDone (d : Dev) (port : Nat) (ms : Int) : Dev :=
  let d := ptpPortMod d port (fun p => { p with pendingSync := none, msDiff := ms })
  takeOffset d (ms - (getPtpPort d port).pathDelay)

/-- A message counted in PTP_IGNORED. -/
def ptpIgnore (d : Dev) : Dev := ptpMod d (fun p => { p with ignored := p.ignored + 1 })

/-- How the port sends a message (R52, R55): version 2.1, its domain and transport. -/
def ptpHead (d : Dev) (port : Nat) (unicast : Bool) : PtpHeader :=
  { domainNumber := d.time.ptp.cfg.domainNumber, v6 := d.time.ptp.cfg.transport == 1, unicast := unicast, src := ownPort port }

/-- A PTP message given to the MAC, under the DSCP of R55. -/
def ptpSend (d : Dev) (port : Nat) (m : PtpOut) : Dev :=
  let m : PtpOut := { m with dscp := d.time.ptp.cfg.dscp }
  let d := ptpPortMod d port (fun p => { p with sent := (p.sent ++ [m]).drop (p.sent.length - 15) })
  netPortMod d port (fun p => { p with queue := p.queue ++ [{ kind := .ptp m.kind m.seq, queue := 7, dt := now d }] })

/-- The data set that a master port announces: this clock's, or that of the boundary clock's parent one step further. -/
def announced (d : Dev) : Announce :=
  match d.time.ptp.parent.bind (fun p => (heardOn d p.port).find? (fun x => x.2.src == p.src)) with
  | some x => { x.2.data with stepsRemoved := x.2.data.stepsRemoved + 1 }
  | none => ownAnnounce d.time.ptp.cfg

/-- A message of the parent of the slave port. -/
def fromParent (d : Dev) (port : Nat) (h : PtpHeader) : Bool :=
  (getPtpPort d port).role == .slave && (d.time.ptp.parent.map (fun p => p.src == h.src && p.port == port)) == some true

/-- A message that the time unit serves (R53, R54). -/
def ptpServe (d : Dev) (port : Nat) (h : PtpHeader) (m : PtpMsg) : Dev :=
  let pp := getPtpPort d port
  match m with
  | .announce a => if h.unicast then ptpIgnore d else
      bmca (ptpPortMod d port (fun p => { p with foreign := p.foreign.filter (fun f => f.1 != h.src) ++ [(h.src, a)] }))
  | .sync seq two origin corr rx =>
    if h.unicast then ptpIgnore d
    else if !fromParent d port h then d
    else if two then ptpPortMod d port (fun p => { p with pendingSync := some (seq, corr, rx) })
    else syncDone d port ((rx.toNat : Int) - ptpNs origin - corr)
  | .followUp seq origin corr =>
    if h.unicast then ptpIgnore d
    else (match pp.pendingSync with
     | some s => if fromParent d port h && s.1 == seq then syncDone d port ((s.2.2.toNat : Int) - ptpNs origin - s.2.1 - corr) else d
     | none => d)
  | .delayReq seq rx =>
    if pp.role == .master then
      ptpSend d port { kind := 4, seq := seq, time := ptpTimeOf rx, head := ptpHead d port h.unicast, requester := some h.src }
    else d
  | .delayResp seq receive corr requester =>
    (match pp.delayTx with
     | some tx =>
       if fromParent d port h && pp.delaySeq == seq && requester == ownPort port then
         ptpPortMod d port (fun p => { p with pathDelay := (p.msDiff + (ptpNs receive - corr - (tx.toNat : Int))) / 2, delayTx := none })
       else d
     | none => d)
  | .management (some tlv) => ptpMod d (fun p => { p with tlv := tlv })
  | .management none => ptpIgnore d
  | .unsupported => ptpIgnore d

/-- PTP_MESSAGE_RX (R51, R52): firmware that does not run takes no message, and a port hears only its transport and its domain; a
message of another version is counted. -/
def ptpRx (d : Dev) (port : Nat) (h : PtpHeader) (m : PtpMsg) : Dev :=
  let c := d.time.ptp.cfg
  if !ptpEnabled d port || !d.hif.ctrlUp || h.v6 != (c.transport == 1) then d
  else if h.major ≠ 2 ∨ 1 < h.minor then ptpIgnore d
  else if h.domainNumber ≠ c.domainNumber then d
  else ptpServe d port h m

def execPtpMessageRx (port : Fin 4) (m : PtpRx) (s : State) : Host.Outcome State Fault Refusal :=
  run (fun d => ptpRx d port.val m.head m.msg) s

/-- ANNOUNCE_RECEIPT_TIMEOUT (R53, R54): the master that the port followed is heard no more.  Another port with a master of the same
grandmaster takes over from an ordinary clock's slave port. -/
def announceTimeout (d : Dev) (port : Nat) : Dev :=
  if !ptpEnabled d port || !d.hif.ctrlUp then d else
  let old := d.time.ptp.parent.filter (fun p => p.port == port)
  let gone := match old with
    | some p => some p.src
    | none => (portBest d port).map (·.src)
  let d := ptpPortMod d port (fun p => { p with foreign := p.foreign.filter (fun f => some f.1 != gone) })
  let d := if d.time.ptp.cfg.clockType = 3 ∧ (portBest d port).isNone then ptpPortMod d port (fun p => { p with role := .master }) else d
  match (if d.time.ptp.cfg.clockType = 3 then none else old.bind (fun p => bestWhere d (fun i h => i != port && h.data.gm == p.gm))) with
  | some b => selectForeign d b.1 b.2 true
  | none => masterLost d

def execAnnounceReceiptTimeout (port : Fin 4) (s : State) : Host.Outcome State Fault Refusal := run (fun d => announceTimeout d port.val) s

/-- PTP_MESSAGE_TX (R51, R54): a master port sends an Announce, a Sync, or the Follow_Up of the last Sync. -/
def ptpTx (d : Dev) (port kind : Nat) : Dev :=
  let p := getPtpPort d port
  let h := ptpHead d port false
  if !ptpEnabled d port || p.role != .master || !d.hif.ctrlUp then d
  else if kind = 0 then
    ptpPortMod (ptpSend d port { kind := 0, seq := p.announceSeq, head := h, data := some (announced d) }) port
      (fun p => { p with announceSeq := (p.announceSeq + 1) % 65536 })
  else if kind = 1 then
    ptpPortMod (ptpSend d port { kind := 1, seq := p.syncSeq, head := h }) port (fun p => { p with syncSeq := (p.syncSeq + 1) % 65536, syncTx := none })
  else match p.syncTx with
    | some t =>
      ptpPortMod (ptpSend d port { kind := 2, seq := (p.syncSeq + 65535) % 65536, time := ptpTimeOf t, head := h }) port (fun p => { p with syncTx := none })
    | none => d

def execPtpMessageTx (port : Fin 4) (kind : Fin 3) (s : State) : Host.Outcome State Fault Refusal := run (fun d => ptpTx d port.val kind.val) s

/-- DELAY_REQ_TX (R52, R55): multicast, or unicast to the parent where the flag of R55 says so. -/
def delayReqTx (d : Dev) (port : Nat) : Dev :=
  let p := getPtpPort d port
  if !ptpEnabled d port || p.role != .slave || !d.hif.ctrlUp then d
  else
    let k := (p.delaySeq + 1) % 65536
    ptpPortMod (ptpSend d port { kind := 3, seq := k, head := ptpHead d port (bit d.time.ptp.cfg.flags 0) }) port
      (fun p => { p with delaySeq := k, delayTx := none })

def execDelayReqTx (port : Fin 4) (s : State) : Host.Outcome State Fault Refusal := run (fun d => delayReqTx d port.val) s

/-! PTP_CFG (R55–R57). -/

/-- Profile defaults (R56): log_announce, log_sync, log_min_delay_req, announce_timeout. -/
def ptpDefaults (profile : Nat) : Int × Int × Int × Nat :=
  if profile = 1 then (-2, -3, -3, 3) else if profile = 2 then (1, -3, 0, 3) else (1, 0, 0, 3)

def ptpCfgOf (p : List Byte) : PtpCfg :=
  let df := ptpDefaults (u8 p 1)
  let lg (o : Nat) (v : Int) : Int := if u8 p o = 0x7F then v else i8 p o
  { clockType := u8 p 0, profile := u8 p 1, domainNumber := u8 p 2, portMask := u8 p 3, transport := u8 p 4, priority1 := u8 p 5,
    priority2 := u8 p 6, clockClass := u8 p 7, logSync := lg 8 df.2.1, logAnnounce := lg 9 df.1, logMinDelayReq := lg 10 df.2.2.1,
    announceTimeout := if u8 p 11 = 0 then df.2.2.2 else u8 p 11, flags := u8 p 12, dscp := u8 p 13, stepThreshold := u32 p 16,
    syncThreshold := u32 p 20 }

def ptpCfgBad (p : List Byte) : Bool :=
  let lgBad (o : Nat) (lo hi : Int) : Bool := u8 p o != 0x7F && (decide (i8 p o < lo) || decide (hi < i8 p o))
  let st := u32 p 16
  decide (3 < u8 p 0) || decide (2 < u8 p 1) || decide (127 < u8 p 2) || decide (15 < u8 p 3) || decide (1 < u8 p 4) || lgBad 8 (-7) 1 ||
    lgBad 9 (-3) 4 || lgBad 10 (-7) 5 || (u8 p 11 != 0 && (decide (u8 p 11 < 2) || decide (10 < u8 p 11))) || decide (1 < u8 p 12) ||
    decide (63 < u8 p 13) || !isZero p 14 2 || (st != 0xFFFFFFFF && (decide (st < 1000) || decide (1000000000 < st))) ||
    decide (u32 p 20 < 10) || decide (100000 < u32 p 20) ||
    (u8 p 0 == 3 && decide (((List.range 4).filter (fun i => bit (u8 p 3) i)).length < 2))

/-- Ports in the mask that are up begin to listen; the others are closed.  Firmware does it, when it runs (R51). -/
def ptpListen (d : Dev) : Dev :=
  if !d.hif.ctrlUp then d else
  (List.range 4).foldl (fun d i =>
    let on := ptpEnabled d i
    ptpPortMod d i (fun p => if on && p.role != .disabled then p else { sent := p.sent, role := if on then .listening else .disabled })) d

/-- The ports follow their links; the loss of the slave port is a loss of its master (R54, R57). -/
def ptpLinks (d : Dev) : Dev :=
  let e := ptpListen d
  if d.hif.ctrlUp && (d.time.ptp.parent.map (fun p => !ptpEnabled d p.port)) == some true then masterLost e else e

/-- A time unit at its settings (R54, R57): opened, closed, or begun anew. -/
def ptpTake (d : Dev) (c : PtpCfg) : Dev :=
  let o := d.time.ptp.cfg
  let fresh := o.clockType != c.clockType || o.profile != c.profile || o.domainNumber != c.domainNumber || o.transport != c.transport
  let d := ptpMod d (fun p => { p with cfg := c })
  if c.clockType = 0 then ptpTo (ptpMod d (fun p => { p with ports := [], parent := none, switched := false })) .disabled
  else if d.time.ptp.state = .disabled ∨ fresh then
    ptpTo (ptpListen (ptpMod d (fun p => { p with ports := [], parent := none, switched := false }))) .freerun
  else ptpListen d

/-- PTP_CFG. -/
def judgePtpCfg (d : Dev) (t : Taken) (_ : Option (List Byte)) : Dev × Ans :=
  let p := t.req.payload
  if !inModes t [.config, .service, .twin, .singleRate] then ans d .badMode
  else if !longEnough t 24 || ptpCfgBad p then bad d
  else (ptpTake d (ptpCfgOf p), .now .ok [])

def execPtpCfg (r : Req) (s : State) : Host.Outcome State Fault Refusal := reqRow1 .ptpCfg judgePtpCfg r s

/-! Pulse outputs (R69–R71). -/

def pulseMod (d : Dev) (i : Nat) (f : Pulse → Pulse) : Dev := timeMod d (fun t => { t with pulses := tabMod t.pulses i f })
def getPulse (d : Dev) (i : Nat) : Pulse := tabGet d.time.pulses i

def pulseCfgOf (p : List Byte) : PulseCfg :=
  { mode := u8 p 1, timebase := u8 p 2, flags := BitVec.ofNat 8 (u8 p 3), start := BitVec.ofNat 64 (u64 p 4), period := u32 p 12,
    width := u32 p 16, count := u32 p 20 }

/-- A field of PULSE_CFG out of range; mode 0 reads no timing. -/
def pulseBad (d : Dev) (c : PulseCfg) : Bool :=
  let f := rateOf d (c.timebase - 1)
  decide (2 < c.mode) || decide (3 < c.timebase) || decide (3 < c.flags.toNat) ||
  (c.mode != 0 && (
    (c.timebase != 0 && decide (2 ^ 32 ≤ c.start.toNat)) || decide (c.width < 10) ||
    (c.mode == 1 && (c.period != 0 || decide (1000000000 < c.width))) ||
    (c.mode == 2 && (
      if c.timebase = 0 then decide (c.period < 100) || decide (c.period < c.width + 10)
      else c.period == 0 || decide (2 ^ 31 < c.period) || decide (c.period * 1000000000 < (c.width + 10) * f)))))

/-- The first media time of domain n whose sample instant lies at a device time or later, from the last boundary at the nominal rate. -/
def mtFrom (d : Dev) (n : Nat) (at_ : DT) : MT :=
  let x := getDom d n
  let ns := (dtDiff at_ x.dt).toNat
  x.mt + BitVec.ofNat 32 ((ns * x.cfg.rate + 999999999) / 1000000000)

/-- An output under new settings whose edges lie at a device time or later (R71).  A train whose start lies before that time, passed or
still ahead, begins at the first point of its grid from there (DESIGN CHOICE for a start that has not passed, log entry 108). -/
def pulseStart (d : Dev) (c : PulseCfg) (p : Pulse) (from_ : DT) : Pulse :=
  let next : DWord :=
    if c.mode ≠ 2 then c.start
    else if c.timebase = 0 then dtGrid c.start from_ c.period
    else (mtGrid (c.start.setWidth 32) (mtFrom d (c.timebase - 1) from_) c.period).setWidth 64
  { p with cfg := c, next := next, running := c.mode != 0, produced := 0, pending := none }

/-- The output is in the high phase of a pulse; and the level at its pin, inverted where it is active low (R70). -/
def pulseHigh (d : Dev) (p : Pulse) : Bool := (p.highUntil.map (fun h => decide (0 < dtDiff h (now d)))) == some true
def pulsePin (d : Dev) (i : Nat) : Bool := pulseHigh d (getPulse d i) != (getPulse d i).cfg.flags.getLsbD 0

/-- DT of the next rising edge as the reply gives it (R70): 0 while an MT timebase is suppressed. -/
def pulseEdgeDt (d : Dev) (p : Pulse) : Nat :=
  if !p.running then 0 else if p.cfg.timebase = 0 then p.next.toNat
  else
    let n := p.cfg.timebase - 1
    let x := getDom d n
    if !domRuns x.state || x.cfg.rate == 0 then 0
    else x.dt.toNat + ((p.next.setWidth 32 - x.mt).toNat * 1000000000 + x.cfg.rate - 1) / x.cfg.rate

/-- An edge of the configuration in force is due by a device time (R15). -/
def pulseDue (d : Dev) (p : Pulse) (t : DT) : Bool :=
  p.running && (if p.cfg.timebase = 0 then decide (dtDiff p.next t ≤ 0)
    else mtRuns (getDom d (p.cfg.timebase - 1)) && decide ((mtFrom d (p.cfg.timebase - 1) (t + 1) - 1 - p.next.setWidth 32).toNat < 2 ^ 20))

/-- When new settings given now take effect, as far as the high phase now under way goes: when it has ended and 20,000 ns have passed. -/
def pulseAfter (p : Pulse) (t : DT) : DT := match p.highUntil with
  | some h => if 0 < dtDiff h t then h else t
  | none => t

/-- PULSE_CFG. -/
def judgePulseCfg (d : Dev) (t : Taken) (_ : Option (List Byte)) : Dev × Ans :=
  let p := t.req.payload
  let i := u8 p 0
  let c := pulseCfgOf p
  let diff := sext 64 (wrapNat 64 ((c.start.toNat : Int) - (now d).toNat))
  if !longEnough t 24 || decide (7 < i) || pulseBad d c then bad d
  else if c.mode != 0 && c.timebase == 0 && decide (2 ^ 47 ≤ diff.natAbs) then bad d
  else if c.mode == 1 && c.timebase == 0 && decide (diff < 20000) then ans d .late
  else
    let old := getPulse d i
    let t0 := now d + 20000
    let busy := old.running || pulseHigh d old
    let fresh := pulseStart d c old (if busy then pulseAfter old t0 else t0)
    let first := if busy && pulseDue d old t0 then old else fresh
    let d := pulseMod d i (fun p => if busy then { p with pending := some (c, t0) } else { fresh with highUntil := none })
    ansB d .ok (p64 (pulseEdgeDt d first))

def execPulseCfg (r : Req) (s : State) : Host.Outcome State Fault Refusal := reqRow1 .pulseCfg judgePulseCfg r s

/-- PULSE_EDGE (R69, R71): the compare matches; the edge is produced, or suppressed on an MT timebase that does not run. -/
def pulseEdge (d : Dev) (i : Nat) : Dev :=
  let p := getPulse d i
  if !p.running then d else
  let at_ := if p.cfg.timebase = 0 then now d + BitVec.ofNat 64 (dtDiff p.next (now d)).toNat else BitVec.ofNat 64 (pulseEdgeDt d p)
  let d := dtTo d at_
  let suppressed := p.cfg.timebase != 0 && !domRuns (getDom d (p.cfg.timebase - 1)).state
  let k := p.produced + 1
  let last := p.cfg.mode == 1 || (p.cfg.count != 0 && decide (p.cfg.count ≤ k))
  let step (x : DWord) : DWord :=
    if p.cfg.timebase = 0 then x + BitVec.ofNat 64 p.cfg.period else (mtGrid (p.cfg.start.setWidth 32) (x.setWidth 32 + 1) p.cfg.period).setWidth 64
  let d := pulseMod d i (fun p =>
    if suppressed then { p with suppressed := p.suppressed + 1, next := step p.next, running := p.cfg.mode != 1 }
    else { p with produced := k, running := !last, next := step p.next, highUntil := some (now d + BitVec.ofNat 64 p.cfg.width) })
  let d := if suppressed then d else dmaEdge d 4 i
  if p.cfg.flags.getLsbD 1 && !suppressed then timeMod d (fun t => { t with irq := t.irq ||| BitVec.ofNat 32 (2 ^ i) }) else d

def execPulseEdge (output : Fin 8) (s : State) : Host.Outcome State Fault Refusal := run (fun d => pulseEdge d output.val) s

/-- Edges of the old configuration due by a device time, which are still produced. -/
def pulseOld (d : Dev) (i : Nat) (t : DT) : Nat → Dev
  | 0 => d
  | k + 1 => if pulseDue d (getPulse d i) t then pulseOld (pulseEdge d i) i t k else d

/-- PULSE_CFG_TAKE_EFFECT (R71, R74): 20,000 ns hold at most 201 edges of a train. -/
def pulseTake (d : Dev) (i : Nat) : Dev :=
  match (getPulse d i).pending with
  | none => d
  | some q =>
    let d := pulseOld d i q.2 201
    let at_ := pulseAfter (getPulse d i) q.2
    let d := dtTo d at_
    pulseMod d i (fun p => { pulseStart d q.1 p at_ with highUntil := none })

def execPulseCfgTakeEffect (output : Fin 8) (s : State) : Host.Outcome State Fault Refusal := run (fun d => pulseTake d output.val) s

/-! Capture inputs (R72). -/

/-- CAPTURE_CFG.  An input switched off discards the records it holds (R459). -/
def judgeCaptureCfg (d : Dev) (t : Taken) (_ : Option (List Byte)) : Dev × Ans :=
  let p := t.req.payload
  if !longEnough t 8 || decide (3 < u8 p 0) || decide (3 < u8 p 1) || decide (3 < u8 p 2) || decide (2 < u8 p 3) || decide (u32 p 4 < 100) ||
      decide (1000000000 < u32 p 4) then bad d
  else (capMod d (u8 p 0) (fun c =>
      { c with
        edge := u8 p 1, flags := BitVec.ofNat 8 (u8 p 2), domain := u8 p 3, minInterval := u32 p 4,
        fifo := if u8 p 1 = 0 then [] else c.fifo }), .now .ok [])

def execCaptureCfg (r : Req) (s : State) : Host.Outcome State Fault Refusal := reqRow1 .captureCfg judgeCaptureCfg r s

/-- CAPTURE_EDGE (R72). -/
def captureEdge (d : Dev) (i : Nat) (falling : Bool) (e : EdgeIn) : Dev :=
  let c := tabGet d.time.caps i
  let soon := match c.prev with
    | some p => decide ((now d - p).toNat < c.minInterval)
    | none => false
  if !bit c.edge (b2n falling) || decide (e.width < 4) then d
  else if soon then capMod d i (fun c => { c with filtered := c.filtered + 1 })
  else if 16 ≤ c.fifo.length then
    timeMod (capMod d i (fun c => { c with prev := some (now d), lost := true, lostCount := c.lostCount + 1 }))
      (fun t => { t with irq := t.irq ||| BitVec.ofNat 32 (2 ^ (16 + i)) })
  else
    let m := if c.flags.getLsbD 0 then mtNow d e.now c.domain else (0, 0)
    let r : CapRec :=
      { dt := now d, mt := m.1, frac := m.2, input := BitVec.ofNat 8 i,
        flags := BitVec.ofNat 8 (b2n (!falling) + 2 * b2n (c.flags.getLsbD 0 && mtValid d c.domain) + 4 * b2n c.lost + 8 * b2n c.step) }
    let d := capMod d i (fun c => { c with prev := some (now d), fifo := c.fifo ++ [r], lost := false, step := false })
    if c.flags.getLsbD 1 then timeMod d (fun t => { t with irq := t.irq ||| BitVec.ofNat 32 (2 ^ (8 + i)) }) else d

def execCaptureEdge (input : Fin 4) (falling : Bool) (e : EdgeIn) (s : State) : Host.Outcome State Fault Refusal :=
  run (fun d => captureEdge d input.val falling e) s

end Sys2Proof.Machine
end

