-- ==== Sys2Proof/Machine/SeamReq.lean ====
section
/-! DEFINITION. SEAM_CFG, MIC_CFG and TONE_DET_CFG, and the bridges, microphones and detectors of a domain at its boundary
(R215–R240). -/

namespace Sys2Proof.Machine

def brMod (d : Dev) (i : Nat) (f : Bridge → Bridge) : Dev := { d with seam := { d.seam with br := tabMod d.seam.br i f } }
def getBr (d : Dev) (i : Nat) : Bridge := tabGet d.seam.br i
def micMod (d : Dev) (i : Nat) (f : Mic → Mic) : Dev := { d with mics := { d.mics with mic := tabMod d.mics.mic i f } }
def getMic (d : Dev) (i : Nat) : Mic := tabGet d.mics.mic i
def detMod (d : Dev) (i : Nat) (f : Det → Det) : Dev := { d with mics := { d.mics with det := tabMod d.mics.det i f } }
def getDet (d : Dev) (i : Nat) : Det := tabGet d.mics.det i

/-! Power domains that a request needs (R499). -/

/-- A change that may need a power domain: in CONFIG it is stored at once and its reply waits for the domain; otherwise the
commit is held while the domain is off. -/
def commitPd (d : Dev) (t : Taken) (dom pd : Nat) (needs : Bool) (f : Apply1) : Dev × Ans :=
  if atOnceMode t then
    let r := f d t none
    let d := powerPlan r.1
    if needs && !pdOn d pd && r.2.1 == .ok then (needPd d pd, .wait (.powerOn pd r.2.2)) else (d, .now r.2.1 r.2.2)
  else (if needs then needPd d pd else d, .commit dom)

/-! The ends of a bridge (R216, R218, R222, R226, R76, R78). -/

/-- The input domain: 3 for a port clock or a flow timebase. -/
def bridgeInDom (d : Dev) (c : SeamCfg) : Nat :=
  if !c.enable then 0 else if pathMode d == .singleRate then 3 else (srcDom d (seamSrc c)).getD 0

/-- The count latched for an end at a boundary, and its fraction. -/
def endCount (ends : List EndCount) (kind index : Nat) (dflt : MT × Half) : MT × Half :=
  match ends.find? (fun e => e.kind == kind && e.index == index) with
  | some e => (e.count, e.frac)
  | none => dflt

def domPtpLocked (d : Dev) (n : Nat) : Bool := (getDom d n).state == .locked && (getDom d n).cfg.source == 1

/-- The input end at a boundary whose DT is dt. -/
def bridgeIn (d : Dev) (c : SeamCfg) (dt : DT) (ends : List EndCount) : EndInfo :=
  let f := bridgeRate d c
  if pathMode d == .singleRate then
    if c.kind = 1 then
      let x := tabGet d.net.rxFlows c.index
      let k := ftAt dt f
      { f := f, rendering := x.cfg.enable, ptpLocked := d.time.ptp.state == .synced || d.time.ptp.state == .grandmaster,
        count := k.1, frac := k.2.toNat, dom := 0 }
    else if c.kind = 2 then
      let r := tabGet d.ports.aesRx c.index
      let k := endCount ends 1 c.index (r.lastMt, r.lastFrac)
      { f := f, rendering := r.state == .locked, ptpLocked := false, count := k.1, frac := k.2.toNat, dom := 3 }
    else
      let t := tabGet d.ports.tdm c.index
      let k := endCount ends 2 c.index (t.lastMt, t.lastFrac)
      { f := f, rendering := t.state == .running, ptpLocked := false, count := k.1, frac := k.2.toNat, dom := 3 }
  else match srcDom d (seamSrc c) with
    | some n =>
      let k := endCount ends 0 n (mtOf d n, 0)
      { f := f, rendering := domRenders d n, ptpLocked := domPtpLocked d n, count := k.1, frac := k.2.toNat, dom := n }
    | none => { f := f, rendering := false, ptpLocked := false, count := 0, frac := 0, dom := 3 }

/-- The output end. -/
def bridgeOut (d : Dev) (c : SeamCfg) : EndInfo :=
  let n := effDom d c.outDom
  { f := rateOf d n, rendering := domRenders d n, ptpLocked := domPtpLocked d n, count := mtOf d n, frac := 0, dom := n }

/-- Both ends as they stood at the last boundary of the output domain. -/
def bridgeEnds (d : Dev) (i : Nat) : EndInfo × EndInfo :=
  let br := getBr d i
  ({ bridgeIn d br.cfg (getDom d (effDom d br.cfg.outDom)).dt [] with count := br.lc, frac := br.lf.toNat }, bridgeOut d br.cfg)

/-- The reply of SEAM_CFG (R226). -/
def seamBody (d : Dev) (i : Nat) (mt : MT) : List Byte :=
  let br := getBr d i
  bridgeReply br (bridgeInDom d br.cfg) (bridgeRate d br.cfg) mt

/-! SEAM_CFG (R226, R227). -/

def seamCfgOf (p : List Byte) : SeamCfg :=
  { enable := bit (u8 p 3) 0, kind := u8 p 4, outDom := u8 p 5, index := u16 p 6, chan := u8 p 8 }

/-- A bridge's configuration takes effect at boundary b, or at once. -/
def applySeam : Apply1 := fun d t b =>
  let i := u16 t.req.payload 0
  let c := seamCfgOf t.req.payload
  let old := getBr d i
  let same := bridgeInDom d old.cfg == bridgeInDom d c
  let k := b.getD (mtOf d (effDom d c.outDom))
  let d := brMod d i (fun x => bridgeSet x c same k)
  (d, .ok, seamBody d i (b.getD 0))

def seamRefuse (d : Dev) (i : Nat) (st : Status) : Dev × Ans := ansB d st (seamBody d i 0)

/-- SEAM_CFG SET. -/
def judgeSeamSet (d : Dev) (t : Taken) (_ : Option (List Byte)) : Dev × Ans :=
  let p := t.req.payload
  let i := u16 p 0
  let c := seamCfgOf p
  let v := storedView d
  if !longEnough t 12 || decide (255 < i) || u8 p 2 != 0 then bad d
  else if !inModes t modes5 then seamRefuse d i .badMode
  else if decide (1 < u8 p 3) || c.kind == 0 || decide (7 < c.kind) || decide (2 < c.outDom) || (slice p 9 3).any (· != 0) || !srcRange (seamSrc c) then
    seamRefuse d i .badArg
  else match srcDom v (seamSrc c) with
    | none => seamRefuse d i .badArg
    | some n =>
      if n == c.outDom || !ratioOk (rateOf v n) (rateOf v c.outDom) then seamRefuse d i .badArg
      else if mode d == .twin && c.kind == 7 then seamRefuse d i .denied
      else if tMode t == .singleRate then
        let d : Dev := { d with seam := { d.seam with stored := tabSet d.seam.stored i c } }
        ansB d .ok (seamBody d i 0)
      else commitOr d t (if (getBr d i).cfg.enable then (getBr d i).cfg.outDom else c.outDom) applySeam

/-- SEAM_CFG GET. -/
def judgeSeamGet (d : Dev) (t : Taken) (_ : Option (List Byte)) : Dev × Ans :=
  let p := t.req.payload
  let i := u16 p 0
  if !longEnough t 3 || decide (255 < i) || u8 p 2 != 1 then bad d
  else ansB d .ok (seamBody d i (mtOf d (effDom d (getBr d i).cfg.outDom)))

def execSeamCfgSet (r : Req) (s : State) : Host.Outcome State Fault Refusal := reqRow .seamCfg 2 [1] judgeSeamSet r s
def execSeamCfgGet (r : Req) (s : State) : Host.Outcome State Fault Refusal := reqRow .seamCfg 2 [0] judgeSeamGet r s

/-! MIC_CFG (R236). -/

def micCfgOf (p : List Byte) : MicCfg :=
  { enable := bit (u8 p 3) 0, domain := u8 p 2, invert := bit (u8 p 3) 1, whole := u8 p 4, frac := u8 p 5, trim := i16 p 6 }

def micBody (d : Dev) (i : Nat) (mt : MT) : List Byte :=
  let m := getMic d i
  micReply m (rateIn d m.cfg.domain) mt

/-- A microphone's configuration takes effect at boundary b, or at once.  In SINGLE_RATE an enabled microphone keeps its stored
domain (R77). -/
def applyMic : Apply1 := fun d t b =>
  let i := u8 t.req.payload 0
  let c := micCfgOf t.req.payload
  let m := getMic d i
  let c := if pathMode d == .singleRate && m.cfg.enable then { c with domain := m.cfg.domain } else c
  let k := b.getD (mtOf d (effDom d c.domain))
  let d := countClamps d [c.trim]
  let d := micMod d i (fun m => micSet m c (rateIn d c.domain) k b.isNone)
  (powerPlan d, .ok, micBody d i (b.getD 0))

def micRefuse (d : Dev) (i : Nat) (st : Status) : Dev × Ans := ansB d st (micBody d i 0)

/-- MIC_CFG SET. -/
def judgeMicSet (d : Dev) (t : Taken) (_ : Option (List Byte)) : Dev × Ans :=
  let p := t.req.payload
  let i := u8 p 0
  let c := micCfgOf p
  let m := getMic d i
  let single := tMode t == .singleRate
  if !longEnough t 8 || decide (7 < i) || u8 p 1 != 0 then bad d
  else if !inModes t modes5 then micRefuse d i .badMode
  else if decide (2 < c.domain) || (single && c.domain != 0) || decide (3 < u8 p 3) || decide (63 < c.frac) then micRefuse d i .badArg
  else if m.cfg.enable && c.domain != effDom d m.cfg.domain then micRefuse d i .busy
  else commitPd d t c.domain 6 c.enable applyMic

/-- MIC_CFG GET. -/
def judgeMicGet (d : Dev) (t : Taken) (_ : Option (List Byte)) : Dev × Ans :=
  let p := t.req.payload
  let i := u8 p 0
  if !longEnough t 2 || decide (7 < i) || u8 p 1 != 1 then bad d
  else ansB d .ok (micBody d i (mtOf d (effDom d (getMic d i).cfg.domain)))

def execMicCfgSet (r : Req) (s : State) : Host.Outcome State Fault Refusal := reqRow .micCfg 1 [1] judgeMicSet r s
def execMicCfgGet (r : Req) (s : State) : Host.Outcome State Fault Refusal := reqRow .micCfg 1 [0] judgeMicGet r s

/-! TONE_DET_CFG (R238). -/

/-- A detector set: its window starts at t0. -/
def detSet (x : Det) (p : List Byte) (t0 : MT) (late : Bool) : Det :=
  { x with
    repeats := bit (u8 p 2) 0, freq := u32 p 4, len := u32 p 8, lateStart := late, stopping := false
    run := some { t0 := t0 }, ended := [], res := { x.res with windows := 0 } }

def detRefuse (d : Dev) (i : Nat) (st : Status) : Dev × Ans := ansB d st (detReply (getDet d i))

/-- An untimed SET takes effect: t₀ is the boundary; in CONFIG, the next one. -/
def applyDet : Apply1 := fun d t b =>
  let i := u8 t.req.payload 0
  let n := effDom d (getMic d i).cfg.domain
  if !(getMic d i).cfg.enable then (d, .notFound, detReply (getDet d i)) else
  let d := detMod d i (fun x => detSet x t.req.payload (b.getD (nextMt (mtOf d n))) false)
  (d, .ok, detReply (getDet d i))

/-- TONE_DET_CFG SET. -/
def judgeDetSet (d : Dev) (t : Taken) (_ : Option (List Byte)) : Dev × Ans :=
  let p := t.req.payload
  let i := u8 p 0
  let n := effDom d (getMic d i).cfg.domain
  let f := rateOf d n
  let t0 : MT := BitVec.ofNat 32 (u32 p 12)
  let s := selBoundary d n
  if !longEnough t 16 || decide (7 < i) || u8 p 1 != 0 then bad d
  else if !inModes t modes5 then detRefuse d i .badMode
  else if decide (3 < u8 p 2) || u8 p 3 != 0 || decide (u32 p 4 < 1000) || decide (450 * f < u32 p 4) || decide (u32 p 8 < 16) ||
      decide (65536 < u32 p 8) || (bit (u8 p 2) 1 && u32 p 12 % 16 != 0) then detRefuse d i .badArg
  else if !(getMic d i).cfg.enable then detRefuse d i .notFound
  else if atOnceMode t || !bit (u8 p 2) 1 then commitOr d t n applyDet
  else if (8 * f : Int) < mtDiff t0 s then detRefuse d i .badArg
  else
    let late := decide (mtDiff t0 s < 0)
    let d := detMod d i (fun x => detSet x p (if late then s else t0) late)
    ansB d (if late then .late else .ok) (detReply (getDet d i))

/-- TONE_DET_CFG STOP: no window follows the current one. -/
def judgeDetStop (d : Dev) (t : Taken) (_ : Option (List Byte)) : Dev × Ans :=
  let p := t.req.payload
  let i := u8 p 0
  if !longEnough t 2 || decide (7 < i) || u8 p 1 != 1 then bad d
  else if !inModes t modes5 then detRefuse d i .badMode
  else if !(getMic d i).cfg.enable then detRefuse d i .notFound
  else
    let d := detMod d i (fun x => { x with stopping := true })
    ansB d .ok (detReply (getDet d i))

/-- TONE_DET_CFG GET. -/
def judgeDetGet (d : Dev) (t : Taken) (_ : Option (List Byte)) : Dev × Ans :=
  let p := t.req.payload
  let i := u8 p 0
  if !longEnough t 2 || decide (7 < i) || u8 p 1 != 2 then bad d
  else if !(getMic d i).cfg.enable then detRefuse d i .notFound
  else ansB d .ok (detReply (getDet d i))

def execToneDetCfgSet (r : Req) (s : State) : Host.Outcome State Fault Refusal := reqRow .toneDetCfg 1 [1, 2] judgeDetSet r s
def execToneDetCfgStop (r : Req) (s : State) : Host.Outcome State Fault Refusal := reqRow .toneDetCfg 1 [0, 2] judgeDetStop r s
def execToneDetCfgGet (r : Req) (s : State) : Host.Outcome State Fault Refusal := reqRow .toneDetCfg 1 [0, 1] judgeDetGet r s

/-- DETECTOR_WINDOW_END (R237): the oldest complete window's result. -/
def detEnd (d : Dev) (i : Nat) : Dev :=
  let f := rateIn d (getMic d i).cfg.domain
  detMod d i (fun x => match x.ended with
    | r :: rest => { x with ended := rest, res := detResult x f r x.res }
    | [] => x)

def execDetectorWindowEnd (det : Fin 8) (s : State) : Host.Outcome State Fault Refusal := run (fun d => detEnd d det.val) s

/-! Bridges between boundaries (R225).  A follower's bridge takes the transitions of ACQUIRE from the leader (R224).  While SEAM_CTRL.ENABLE is
0 every loop is held (R228). -/

abbrev seamOn (d : Dev) : Prop := d.seam.ctrl.getLsbD 0 = true

/-- BRIDGE_ACQUIRE_LOCK. -/
def bridgeLock (d : Dev) (i : Nat) : Dev :=
  brMod d i (fun x => if seamOn d ∧ x.state = .acquire ∧ 64 ≤ x.loop.fine ∧ !x.follower then
    { x with state := .track, gate := gateZero, loop := { x.loop with timeout := false, off := 0 } } else x)

/-- BRIDGE_ACQUIRE_TIMEOUT. -/
def bridgeTimeout (d : Dev) (i : Nat) : Dev :=
  let e := bridgeEnds d i
  brMod d i (fun x => if seamOn d ∧ x.state = .acquire ∧ 2000 ≤ x.loop.blocks ∧ x.loop.fine < 64 ∧ !x.follower then
    { x with loop := loopInit { x.loop with timeout := true } (targetPos e.1.count e.1.frac (deltaIn e.1.f)) (rhoNom e.1.f e.2.f) } else x)

/-- BRIDGE_RANGE. -/
def bridgeRange (d : Dev) (i : Nat) : Dev :=
  let x := getBr d i
  if seamOn d ∧ x.state = .track ∧ 64 ≤ x.loop.off then
    let n := effDom d x.cfg.outDom
    let d := brMod d i (fun x => { bridgeFade x x.mt with state := .range, ranges := cInc x.ranges, since := x.mt })
    let d : Dev := { d with seam := { d.seam with range := tabMod d.seam.range n cInc } }
    evFault d 4 1 i n x.mt 0 0 0
  else d

/-- BRIDGE_RANGE_EXPIRY. -/
def bridgeExpiry (d : Dev) (i : Nat) : Dev :=
  let e := bridgeEnds d i
  brMod d i (fun x => if seamOn d ∧ x.state = .range ∧ (e.2.f : Int) ≤ mtDiff x.mt x.since then
    { x with state := .acquire, loop := loopInit {} (targetPos e.1.count e.1.frac (deltaIn e.1.f)) (rhoNom e.1.f e.2.f) } else x)

/-- BRIDGE_ENDS_RENDERING. -/
def bridgeEndsRender (d : Dev) (i : Nat) : Dev :=
  let e := bridgeEnds d i
  brMod d i (fun x => if seamOn d ∧ x.state = .waiting ∧ x.cfg.enable ∧ e.1.rendering ∧ e.2.rendering then
    bridgeStart x e.1 e.2 (getDom d e.2.dom).dt x.mt else x)

def execBridgeAcquireLock (bridge : Fin 256) (s : State) : Host.Outcome State Fault Refusal := run (fun d => bridgeLock d bridge.val) s
def execBridgeAcquireTimeout (bridge : Fin 256) (s : State) : Host.Outcome State Fault Refusal := run (fun d => bridgeTimeout d bridge.val) s
def execBridgeRange (bridge : Fin 256) (s : State) : Host.Outcome State Fault Refusal := run (fun d => bridgeRange d bridge.val) s
def execBridgeRangeExpiry (bridge : Fin 256) (s : State) : Host.Outcome State Fault Refusal := run (fun d => bridgeExpiry d bridge.val) s
def execBridgeEndsRendering (bridge : Fin 256) (s : State) : Host.Outcome State Fault Refusal := run (fun d => bridgeEndsRender d bridge.val) s

/-! Microphones between boundaries (R235). -/

/-- MIC_START_COMPLETE: 20 ms of MICCLK are 62,500 bits. -/
def micStarted (d : Dev) (i : Nat) : Dev :=
  let f := rateIn d (getMic d i).cfg.domain
  micMod d i (fun m => if m.state = .start ∧ 62500 ≤ m.bitsRun ∧ 64 ≤ m.outsRun then
    { m with state := .acquire, loop := loopInit {} (micTarget m f) (micRho f) } else m)

/-- MIC_LOCK. -/
def micLocked (d : Dev) (i : Nat) : Dev :=
  micMod d i (fun m => if m.state = .acquire ∧ 64 ≤ m.loop.fine then
    { m with state := .track, gate := gateZero, loop := { m.loop with timeout := false } } else m)

/-- MIC_ACQUIRE_TIMEOUT. -/
def micTimeout (d : Dev) (i : Nat) : Dev :=
  let f := rateIn d (getMic d i).cfg.domain
  micMod d i (fun m => if m.state = .acquire ∧ 2000 ≤ m.loop.blocks ∧ m.loop.fine < 64 then
    { m with loop := loopInit { m.loop with timeout := true } (micTarget m f) (micRho f) } else m)

/-- MIC_STUCK. -/
def micStick (d : Dev) (i : Nat) : Dev :=
  let m := getMic d i
  if 65536 ≤ m.same ∧ !m.stuck ∧ clkRuns d.mics.mic i then
    evFault (micMod d i (fun m => { m with stuck := true })) 5 1 i (effDom d m.cfg.domain) m.mt 0 0 0
  else d

def execMicStartComplete (mic : Fin 8) (s : State) : Host.Outcome State Fault Refusal := run (fun d => micStarted d mic.val) s
def execMicLock (mic : Fin 8) (s : State) : Host.Outcome State Fault Refusal := run (fun d => micLocked d mic.val) s
def execMicAcquireTimeout (mic : Fin 8) (s : State) : Host.Outcome State Fault Refusal := run (fun d => micTimeout d mic.val) s
def execMicStuck (mic : Fin 8) (s : State) : Host.Outcome State Fault Refusal := run (fun d => micStick d mic.val) s

/-! A domain's boundary. -/

/-- PDM bits given at a boundary enter the decimators whose clock runs (R229–R232). -/
def takePdm (d : Dev) (pdm : List (Nat × List Bool)) : Dev :=
  pdm.foldl (fun d x =>
    if 8 ≤ x.1 ∨ !clkRuns d.mics.mic x.1 then d
    else micMod d x.1 (fun m => micBits m (rcOf (rateIn d m.cfg.domain)) x.2)) d

/-- The block [b − 16, b) of a microphone of domain n, and the detector on it. -/
def micLand (d : Dev) (n : Nat) (b : MT) (i : Nat) : Dev :=
  let m := getMic d i
  if effDom d m.cfg.domain != n then d else
  let f := rateOf d n
  let k := b - 16
  let ys := micBlock m f k
  let good := m.state == .track && m.fade.isNone && m.step.isNone
  let d := if m.cfg.enable || m.fade.isSome then micMod d i (fun m => micAdvance m f k ys) else d
  detMod d i (fun x => detBlock x f k (ys.map (fun y => (y.1, good))))

def micsLand (d : Dev) (n : Nat) (b : MT) : Dev := (List.range 8).foldl (fun d i => micLand d n b i) d

/-- The block [b − 16, b) of the bridges whose output is domain n. -/
def bridgeLand (d : Dev) (n : Nat) (b : MT) (dt : DT) (i : Nat) : Dev :=
  let br := getBr d i
  if !br.cfg.enable && br.fade.isNone || effDom d br.cfg.outDom != n then d else
  let d := bridgeFill d i
  let br := getBr d i
  let on := d.seam.ctrl.getLsbD 0
  let c := match br.fade with
    | some (c, _) => c
    | none => br.cfg
  let e := bridgeIn d c dt []
  let f := rateOf d n
  let ys := bridgeBlock br e f dt (fun c k =>
    ((ringRead br c k).or (srcRaw d (seamSrc c) k)).getD (sext 32 (Config.unread c.kind c.index c.chan k).toNat)) on (b - 16)
  let d := brMod d i (fun x => bridgeAdvance x on f (b - 16) (ys.map Prod.fst))
  { d with seam := { d.seam with clip := tabMod d.seam.clip n (fun w => cAdd w (ys.foldl (fun a y => a + y.2) 0)) } }

def bridgesLand (d : Dev) (n : Nat) (b : MT) (dt : DT) : Dev :=
  (d.seam.br.map Prod.fst).foldl (fun d i => bridgeLand d n b dt i) d

/-- Loops and states of the microphones of domain n at boundary b. -/
def micsBoundary (d : Dev) (n : Nat) (b : MT) : Dev :=
  (List.range 8).foldl (fun d i =>
    let m := getMic d i
    if !m.cfg.enable || effDom d m.cfg.domain != n then d else
    let r := micBoundary m (rateOf d n) (domRuns (getDom d n).state) b
    let d := micMod d i (fun _ => r.1)
    if r.2 then evFault d 5 0 i n b 0 0 0 else d) d

def brOf : Nat → BrState
  | 1 => .waiting | 2 => .acquire | 3 => .track | 4 => .exact | 5 => .range | _ => .disabled

/-- A follower's bridges of output domain n take the leader's values for the block that landed from k (R224, R386).  The flag says
that some are missing. -/
def bridgesLed (d : Dev) (n : Nat) (k : MT) : Dev × Bool :=
  if !d.seam.ctrl.getLsbD 0 then (d, false) else
  (d.seam.br.map Prod.fst).foldl (fun (a : Dev × Bool) i =>
    let d := a.1
    let x := getBr d i
    if !x.cfg.enable || effDom d x.cfg.outDom != n || !(x.state == .acquire || x.state == .track) then a else
    match d.twin.loops.find? (fun l => l.bridge == i && l.block == k) with
    | some l => (brMod d i (fun x => bridgeLed x (brOf l.state) l.pos l.rho (rhoNom (bridgeRate d x.cfg) (rateOf d n)) k), a.2)
    | none => (twinMod d (fun t => { t with loopLate := t.loopLate + 1 }), true)) (d, false)

/-- Loops and states of the bridges of output domain n at boundary b.  A follower's bridge between ACQUIRE and TRACK takes no steps of
its own; a return to EXACT it finds by itself. -/
def bridgesBoundary (d : Dev) (n : Nat) (b : MT) (dt : DT) (ends : List EndCount) : Dev :=
  if !d.seam.ctrl.getLsbD 0 then d else
  (d.seam.br.map Prod.fst).foldl (fun d i =>
    let x := getBr d i
    if !x.cfg.enable || effDom d x.cfg.outDom != n then d else
    let e := bridgeIn d x.cfg dt ends
    let d := brMod d i (fun x => { x with lc := e.count, lf := BitVec.ofNat 16 e.frac })
    let x := getBr d i
    let o := bridgeOut d x.cfg
    let r := bridgeBoundary x e o dt b
    if slaved d && (x.state == .acquire || x.state == .track) && e.rendering && o.rendering && r.1.state != .exact then
      brMod d i (fun x => { x with follower := true })
    else
      let d := brMod d i (fun _ => r.1)
      if r.2 then evFault { d with seam := { d.seam with slip := tabMod d.seam.slip n cInc } } 4 0 i n b 0 0 0 else d) d

end Sys2Proof.Machine
end

