-- ==== Sys2Proof/Machine/CalReq.lean ====
section
/-! DEFINITION. CAL_START, CAL_RESULT, TRACK_CFG, TRACK_PROPOSAL and SELFTEST_RUN, and what a measurement does at a boundary
(R241–R255). -/

namespace Sys2Proof.Machine

def calMod (d : Dev) (f : Cal → Cal) : Dev := { d with cal := f d.cal }
def trackMod (d : Dev) (f : Track → Track) : Dev := { d with track := f d.track }

/-- Microphones of a mask. -/
def micsOf (mask : Nat) : List Nat := (List.range 8).filter (fun i => bit mask i)

/-- The layout's domain. -/
def layDom (d : Dev) : Option Nat := d.scene.layout.map (fun l => effDom d l.dom)

/-- Every speaker of a range stands in the committed layout. -/
def spksIn (d : Dev) (first count : Nat) : Bool :=
  decide (1 ≤ count) && decide (count ≤ 512) && (List.range count).all (fun i => (spkType d.scene.layout (first + i)).isSome)

/-- The speakers of a range that are not virtual, and those that are. -/
def spksOf (d : Dev) (first count : Nat) (virt : Bool) : List Nat :=
  (List.range count).filterMap (fun i => match spkType d.scene.layout (first + i) with
    | some ty => if (ty == 2) == virt then some (first + i) else none
    | none => none)

/-- Every selected microphone is enabled and bound to the layout's domain. -/
def micsBound (d : Dev) (mask : Nat) : Bool :=
  (micsOf mask).all (fun i => (getMic d i).cfg.enable && some (effDom d (getMic d i).cfg.domain) == layDom d)

/-! CAL_START MEASURE (R244, R245). -/

def calCfgOf (d : Dev) (p : List Byte) : CalCfg :=
  let f := rateOf d ((layDom d).getD 0)
  { mls := u8 p 1 == 1, spks := spksOf d (u16 p 2) (u16 p 4) false, mics := micsOf (u8 p 6), output := u8 p 7 == 1, level := i16 p 8,
    order := u8 p 10, reps := u8 p 11, fLo := u32 p 12, fHi := u32 p 16, n := usSamples (u32 p 20) f, irTaps := u32 p 24 }

/-- CAL_START reply after the status of MEASURE. -/
def calBody (mt : MT) : List Byte := zeros 3 ++ p32 mt.toNat

/-- A field of MEASURE out of range, and the other conditions of BAD_ARG. -/
def measureBad (d : Dev) (p : List Byte) : Bool :=
  let f := rateOf d ((layDom d).getD 0)
  let c := calCfgOf d p
  decide (1 < u8 p 1) || !spksIn d (u16 p 2) (u16 p 4) || decide (1 < u8 p 7) || decide (c.level < -6000) || decide (0 < c.level) ||
    (if c.mls then decide (c.order < 12) || decide (18 < c.order) || decide (c.reps < 1) || decide (16 < c.reps) || decide (2 ^ c.order - 1 < c.irTaps)
     else decide (c.fLo < 10000) || decide (c.fHi < 2 * c.fLo) || decide (450 * f < c.fHi) || decide (u32 p 20 < 100000) || decide (5000000 < u32 p 20) ||
       decide (262144 < c.n)) ||
    decide (c.irTaps < 256) || decide (32768 < c.irTaps) || c.irTaps % 16 != 0 || decide (1 < u8 p 32) || (bit (u8 p 32) 0 && u32 p 28 % 16 != 0) ||
    (slice p 33 3).any (· != 0) || !micsBound d (u8 p 6)

/-- A measurement runs, or is held for its start. -/
def measuring (d : Dev) : Bool :=
  d.cal.run.isSome || d.fw.commits.any (fun c => c.taken.op == .calStart)

def judgeMeasure (d : Dev) (t : Taken) (_ : Option (List Byte)) : Dev × Ans :=
  let p := t.req.payload
  let c := calCfgOf d p
  let refuse (st : Status) : Dev × Ans := ansB d st (calBody 0)
  if !inModes t [.calibrate] then refuse .badMode
  else if !longEnough t 36 || u8 p 0 != 0 || measureBad d p then refuse .badArg
  else if decide (6291456 < c.spks.length * c.mics.length * c.irTaps) || decide (2097152 < c.mics.length * capLen c) then refuse .noResource
  else if c.mics.any (fun i => (getMic d i).state != .track) || measuring d then refuse .busy
  else (d, .commit ((layDom d).getD 0))

/-- Whether a held MEASURE starts at boundary b: its mt is reached (R245). -/
def measureDue (p : List Byte) (b : MT) : Bool := !bit (u8 p 32) 0 || mtGe b (BitVec.ofNat 32 (u32 p 28))

/-- A measurement starts at boundary b: its responses take over the store.  Captures of the one before that are still under way give
references only. -/
def applyMeasure : Apply1 := fun d t b =>
  let p := t.req.payload
  let c := calCfgOf d p
  let t0 := b.getD 0
  let late := bit (u8 p 32) 0 && t0 != BitVec.ofNat 32 (u32 p 28)
  let d := calMod d (fun x =>
    { x with run := some { cfg := c, dom := (layDom d).getD 0, t0 := t0, slotLen := slotOf c }
             tail := x.tail.map (fun r => { r with stored := false }), resp := [], skipped := spksOf d (u16 p 2) (u16 p 4) true })
  (d, if late then .late else .ok, calBody t0)

/-! A measurement at boundaries (R245–R247, R250). -/

/-- Latency of a speaker's excitation at rate f. -/
def spkLat (d : Dev) (c : CalCfg) (f s : Nat) : Nat :=
  let cfg := (getChain d s).cfg
  calLat c (if cfg.byDelay then 0 else cfg.align) (if cfg.byDyn then 0 else lookAhead cfg.dyn f)

/-- The selected microphones' samples from k enter the captures of the slots they belong to. -/
def calCapture (d : Dev) (f : Nat) (k : MT) (read : Nat → List Int) (r : CalRun) : CalRun :=
  let one (r : CalRun) (slot : Nat) : CalRun :=
    match r.cfg.spks[slot]? with
    | none => r
    | some s =>
      let lat := spkLat d r.cfg f s
      let inside (i : Nat) : Bool := let q := capAt r slot lat (k + BitVec.ofNat 32 i); decide (0 ≤ q) && decide (q < (capSpan r.cfg : Int))
      if !(List.range 16).any inside then r else
      { r with caps := r.cfg.mics.foldl (fun t i =>
          tabMod t (slot * 8 + i) (fun c => (((read i).zipIdx.filter (fun x => inside x.2)).map Prod.fst).reverse ++ c)) r.caps }
  one (one r r.captured) (r.captured + 1)

/-- Microphone samples of domain n that landed in [b − 16, b): they enter the captures, and the slot they fall in is marked where a
selected microphone's were not produced in TRACK (`good` names those that were). -/
def calLand (d : Dev) (n : Nat) (b : MT) (good : List Nat) : Dev :=
  let read (i : Nat) : List Int := lineRead (getMic d i).out (b - 16) 16
  let take (r : CalRun) : CalRun :=
    if r.dom ≠ n then r else
    let r := calCapture d (rateOf d n) (b - 16) read r
    match slotAt r (b - 16) with
    | some (i, _) => if r.cfg.mics.all good.contains || r.disturbed.contains i then r else { r with disturbed := r.disturbed ++ [i] }
    | none => r
  calMod d (fun x => { x with run := x.run.map take, tail := x.tail.map take })

/-- The responses of a slot whose captures are complete, with their references. -/
def calRespond (d : Dev) (r : CalRun) (f slot s : Nat) : Dev × CalRun :=
  r.cfg.mics.foldl (fun a i =>
    let h := captureResponse r.cfg f (tabGet r.caps (slot * 8 + i)).reverse (r.disturbed.contains slot)
    (if r.stored then calMod a.1 (fun x => { x with resp := tabSet x.resp (pairIx s i) h }) else a.1,
     { a.2 with refs := tabSet a.2.refs (pairIx s i) (trackRefOf f h) })) (d, r)

/-- At boundary b the capture of the oldest slot still to be captured may be complete. -/
def calTake (d : Dev) (f : Nat) (b : MT) (r : CalRun) : Dev × CalRun :=
  match r.cfg.spks[r.captured]? with
  | none => (d, r)
  | some s =>
    if r.captured < r.done ∧ (capSpan r.cfg : Int) ≤ capAt r r.captured (spkLat d r.cfg f s) b then
      let q := calRespond d r f r.captured s
      (q.1, { q.2 with captured := r.captured + 1, caps := r.caps.filter (fun kv => decide (8 * (r.captured + 1) ≤ kv.1)) })
    else (d, r)

/-- A slot of the measurement ends at boundary b; after the last, EV_CAL_DONE is raised and only captures remain. -/
def calSlot (d : Dev) (b : MT) : Dev :=
  match d.cal.run with
  | none => d
  | some r =>
    if !mtGe b (slotEnd r r.done) then d else
    let r := { r with done := r.done + 1 }
    if r.done < r.cfg.spks.length then calMod d (fun x => { x with run := some r }) else
    let q := calMeasured r
    evCalDone (calMod d (fun x => { x with run := none, tail := some r })) .ok q.1 q.2.1 q.2.2

/-- A measurement of domain n at boundary b. -/
def calBoundary (d : Dev) (n : Nat) (b : MT) : Dev :=
  if pathMode d != .calibrate then d else
  let f := rateOf d n
  let d := if (d.cal.run.map (·.dom)) = some n then calSlot d b else d
  let d := match d.cal.run with
    | some r => if r.dom = n then (let q := calTake d f b r; calMod q.1 (fun x => { x with run := some q.2 })) else d
    | none => d
  match d.cal.tail with
  | some r =>
    if r.dom ≠ n then d else
    let q := calTake d f b r
    if q.2.captured < q.2.cfg.spks.length then calMod q.1 (fun x => { x with tail := some q.2 })
    else calRefs (calMod q.1 (fun x => { x with tail := none })) q.2
  | none => d

/-- The excitation of column c at landed sample k: none where the column carries none; R243, R250. -/
def calExc (d : Dev) (c f : Nat) (k : MT) (output : Bool) : Option Int :=
  let of (r : CalRun) : Option Int :=
    if r.cfg.output != output then none else
    match slotAt r k with
    | some (i, q) => if r.cfg.spks.getD i 65535 = c then some ((excRead r.cfg f q 1).getD 0 0) else none
    | none => none
  match d.cal.run.bind of, d.cal.fade with
  | some x, _ => some x
  | none, some (r, t) => if mtDiff k t < 16 then (of r).map (fun x => (mulGain x (fadeAt t k)).1) else none
  | none, none => none

/-! CAL_START DESIGN (R248). -/

def designCfgOf (p : List Byte) : DesignCfg :=
  { mics := micsOf (u8 p 6), linear := u8 p 7 == 1, taps := u32 p 8, fLo := u32 p 12, fHi := u32 p 16, maxBoost := u16 p 20, maxCut := u16 p 22,
    tilt := i16 p 24, smoothing := u8 p 26 }

def designBody (err : Nat) : List Byte := zeros 1 ++ p16 err

/-- The MANTLE channel of a chain column: that of an extent of either set whose target it is. -/
def spkChan (d : Dev) (s : Nat) : Option Nat :=
  (d.mantle.ch.find? (fun kv => (kv.2.a.toList ++ kv.2.b.toList).any (fun e => e.role == 0 && e.target == s))).map Prod.fst

/-- The inactive extent of a speaker's channel, where it is the speaker's. -/
def spkExtent (d : Dev) (s : Nat) : Option (Nat × Extent) :=
  (spkChan d s).bind (fun m => (inactive (getMch d m)).bind (fun e => if e.role = 0 ∧ e.target = s then some (m, e) else none))

/-- The speakers of a range that a design takes: all but the layout's virtual ones. -/
def designSpks (d : Dev) (first count : Nat) : List Nat :=
  (List.range count).filterMap (fun i => if spkType d.scene.layout (first + i) = some 2 then none else some (first + i))

/-- A speaker's smoothed powers of step 1 over the stored responses of the selected microphones, with the transform's length. -/
def spkPowers (d : Dev) (c : DesignCfg) (s : Nat) : Option (Nat × List F32) :=
  let hs := c.mics.filterMap (fun i => let h := (tabGet d.cal.resp (pairIx s i)).h; if h.isEmpty then none else some h)
  let m := designLog c.taps ((hs.map List.length).foldl max 0)
  if hs.isEmpty then none else some (m, octaveSmooth c.smoothing (powerAverage m hs))

/-- A design's fields out of range. -/
def designBad (d : Dev) (p : List Byte) : Bool :=
  let f := rateOf d ((layDom d).getD 0)
  let c := designCfgOf p
  decide (1 < u8 p 1) || decide (1 < u8 p 7) || u16 p 4 == 0 || decide (nSpeakers < u16 p 2 + u16 p 4) || decide (c.taps < 256) || decide (32768 < c.taps) || decide (450 * f < c.fHi) ||
    decide (1200 < c.maxBoost) || decide (2400 < c.maxCut) || decide (c.tilt < -600) || decide (600 < c.tilt) ||
    !([1, 3, 6, 12, 24].contains c.smoothing) || u8 p 27 != 0

def judgeDesign (d : Dev) (t : Taken) (_ : Option (List Byte)) : Dev × Ans :=
  let p := t.req.payload
  let c := designCfgOf p
  let f := rateOf d ((layDom d).getD 0)
  let ss := designSpks d (u16 p 2) (u16 p 4)
  let refuse (st : Status) (err : Nat) : Dev × Ans := ansB d st (designBody err)
  if !inModes t [.calibrate] then refuse .badMode 0xFFFF
  else if !longEnough t 28 || u8 p 0 != 1 || designBad d p then refuse .badArg 0xFFFF
  else if ss.isEmpty then refuse .notFound 0xFFFF
  else match ss.find? (fun s => (spkExtent d s).isNone || (spkPowers d c s).isNone) with
    | some s => refuse .notFound ((spkChan d s).getD 0xFFFF)
    | none =>
      let es := ss.filterMap (fun s => (spkExtent d s).map (fun e => (s, e)))
      match es.find? (fun x => decide (x.2.2.lam < c.taps)) with
      | some x => refuse .badArg x.2.1
      | none => match es.find? (fun x => fading (getMch d x.2.1) || heldCommit d x.2.1) with
        | some x => refuse .busy x.2.1
        | none =>
          if firBusy d then refuse .busy 0xFFFF else
          let ps := es.filterMap (fun x => (spkPowers d c x.1).map (fun q => (x.1, x.2.1, q)))
          let rs := ps.map (fun x => (x.2.1, designOf c f x.2.2.1 x.2.2.2))
          let d := calMod d (fun x =>
            { x with designPend := some (c, ps.foldl (fun t q => tabSet t q.1 (curveOf q.2.2.1 f q.2.2.2)) x.curves), design := rs })
          (beginLoad d (some t) rs, .done)

/-- CAL_START ABORT (R250); with no measurement it does nothing. -/
def judgeAbort (d : Dev) (t : Taken) (_ : Option (List Byte)) : Dev × Ans :=
  if !inModes t [.calibrate, .service, .twin] then ans d .badMode
  else if !longEnough t 1 || u8 t.req.payload 0 != 2 then bad d
  else
    let d := cancelWhere d (fun x => x.op == .calStart && u8 x.req.payload 0 == 0)
    ans (calAbort d) .ok

def execCalStartMeasure (r : Req) (s : State) : Host.Outcome State Fault Refusal := reqRow .calStart 0 [1, 2] judgeMeasure r s
def execCalStartDesign (r : Req) (s : State) : Host.Outcome State Fault Refusal := reqRow .calStart 0 [0, 2] judgeDesign r s
def execCalStartAbort (r : Req) (s : State) : Host.Outcome State Fault Refusal := reqRow .calStart 0 [0, 1] judgeAbort r s

/-! CAL_RESULT (R249). -/

/-- A DATA region of R198. -/
def firRegion (rs : List (Nat × List F32)) : List Byte :=
  p16 rs.length ++ zeros 2 ++ rs.flatMap (fun x => p16 x.1 ++ zeros 2 ++ p32 x.2.length ++ x.2.flatMap (fun v => p32 v.toNat))

/-- A region deposited, with the reply that carries its CRC in bytes 4–7. -/
def depositReply (d : Dev) (t : Taken) (o : Nat) (bs : List Byte) : Dev × Ans :=
  (deposit d (u64 t.req.payload o) bs, .now .ok (zeros 3 ++ p32 (crc32c bs).toNat) true)

def judgeCalResult (d : Dev) (t : Taken) (_ : Option (List Byte)) : Dev × Ans :=
  let p := t.req.payload
  let a := u8 p 0
  let first := u16 p 2
  let n := u16 p 4
  let mic := u8 p 6
  let body (fl : Nat) (h : Response) : List Byte := p8 fl ++ s16 h.peakLevel ++ p32 h.peak ++ p32 h.onset ++ s16 h.noise ++ zeros 2
  if !inModes t [.calibrate, .service, .twin] then ansB d .badMode (body 0 {})
  else if !longEnough t 7 || decide (2 < a) || u8 p 1 != 0 || decide (7 < mic) then bad d
  else if a = 0 then
    let h := tabGet d.cal.resp (pairIx first mic)
    if n != 1 || decide (nSpeakers ≤ first) then bad d
    else if d.cal.skipped.contains first then ansB d .notFound (body 2 {})
    else if h.h.isEmpty then ansB d .notFound (body 0 {})
    else ansB d .ok (body (b2n h.disturbed) h)
  else if !longEnough t 24 || !t.req.bulk || !bulkOk (bulkRef p 8) then bad d
  else if a = 1 then
    let hs := (List.range n).map (fun i => (tabGet d.cal.resp (pairIx (first + i) mic)).h)
    if n == 0 || decide (nSpeakers < first + n) then bad d
    else if hs.any (·.isEmpty) then ans d .notFound
    else
      let bs := hs.flatMap (fun h => h.flatMap (fun v => p32 v.toNat))
      if bs.length ≠ (bulkRef p 8).2.1 then bad d else depositReply d t 8 bs
  else
    if d.cal.design.isEmpty then ans d .notFound
    else if !depositOk t 8 (firRegion d.cal.design).length then bad d
    else depositReply d t 8 (firRegion d.cal.design)

def execCalResult (r : Req) (s : State) : Host.Outcome State Fault Refusal := reqRow1 .calResult judgeCalResult r s

/-! Room tracking: TRACK_CFG (R253). -/

def trackCfgOf (p : List Byte) : TrackCfg :=
  { enable := bit (u8 p 1) 0, propose := bit (u8 p 1) 1, post := bit (u8 p 1) 2, spkFirst := u16 p 2, spkCount := u16 p 4, mics := u8 p 6,
    windowMs := u16 p 8, threshold := u16 p 10 }

/-- The rotation starts again at the first group. -/
def trackRestart (d : Dev) : Dev :=
  trackMod d (fun x => { x with group := 0, start := mtOf d ((layDom d).getD 0), acc := [], skips := 0, late := false, since := mtOf d ((layDom d).getD 0), broken := false })

def judgeTrackSet (d : Dev) (t : Taken) (_ : Option (List Byte)) : Dev × Ans :=
  let p := t.req.payload
  let c := trackCfgOf p
  if !inModes t [.service, .twin] then ans d .badMode
  else if !longEnough t 12 || u8 p 0 != 0 || decide (7 < u8 p 1) || !spksIn d c.spkFirst c.spkCount || !micsBound d c.mics || u8 p 7 != 0 ||
      decide (c.windowMs < 1000) || decide (60000 < c.windowMs) || decide (c.threshold < 50) || decide (1200 < c.threshold) then bad d
  else if c.propose && d.cal.lastDesign.isNone then ans d .notFound
  else ans (trackRestart (trackMod d (fun x => { x with cfg := c }))) .ok

def judgeTrackGet (d : Dev) (t : Taken) (_ : Option (List Byte)) : Dev × Ans :=
  let c := d.track.cfg
  if !longEnough t 1 || u8 t.req.payload 0 != 1 then bad d
  else ansB d .ok (p8 (b2n c.enable + 2 * b2n c.propose + 4 * b2n c.post) ++ p16 c.spkFirst ++ p16 c.spkCount ++ p8 c.mics ++ zeros 1 ++
    p16 c.windowMs ++ p16 c.threshold ++ p16 d.track.group ++ p32 d.track.skip.toNat)

def judgeTrackRead (d : Dev) (t : Taken) (_ : Option (List Byte)) : Dev × Ans :=
  let p := t.req.payload
  if !longEnough t 4 || u8 p 0 != 2 || decide (nSpeakers ≤ u16 p 2) then bad d
  else match tabGet d.track.reps (u16 p 2) with
    | none => ans d .notFound
    | some r =>
      ansB d .ok (p8 (b2n r.incomplete + 2 * b2n (tabGet d.track.props (u16 p 2)).isSome) ++ p16 r.valid ++ p32 r.mt.toNat ++
        (List.range 10).flatMap (fun i => s16 (clampI (-32768) 32767 (r.dev.getD i 0))) ++ s32 r.delay)

def execTrackCfgSet (r : Req) (s : State) : Host.Outcome State Fault Refusal := reqRow .trackCfg 0 [1, 2] judgeTrackSet r s
def execTrackCfgGet (r : Req) (s : State) : Host.Outcome State Fault Refusal := reqRow .trackCfg 0 [0, 2] judgeTrackGet r s
def execTrackCfgRead (r : Req) (s : State) : Host.Outcome State Fault Refusal := reqRow .trackCfg 0 [0, 1] judgeTrackRead r s

/-! Proposals (R254, R255). -/

/-- A proposal's coefficients. -/
def proposalTaps (d : Dev) (s : Nat) (q : Proposal) : List F32 :=
  match d.cal.lastDesign with
  | some c => designCurve c (rateOf d ((layDom d).getD 0)) (proposalCurve (tabGet d.cal.curves s) q.valid q.dev)
  | none => []

def propDeviation (q : Proposal) : Nat := (List.range 10).foldl (fun a i => if bit q.valid i then max a (q.dev.getD i 0).natAbs else a) 0

/-- EV_TRACK_PROPOSAL. -/
def evProposal (d : Dev) (s : Nat) (posted skipped : Bool) (q : Proposal) : Dev :=
  event d 7 (p16 s ++ p8 (b2n posted + 2 * b2n skipped) ++ zeros 1 ++ p16 (propDeviation q) ++ p16 ((spkChan d s).getD 0xFFFF) ++ p32 q.mt.toNat)

/-- A proposal is posted where R254 allows it, and reported; while a load is in progress it waits. -/
def postProposal (d : Dev) (s : Nat) : Dev :=
  match tabGet d.track.props s with
  | none => d
  | some q =>
    let put (d : Dev) (q : Proposal) : Dev := trackMod d (fun x => { x with props := tabSet x.props s (some q) })
    let skip (d : Dev) : Dev := evProposal (put (trackMod d (fun x => { x with postSkip := x.postSkip + 1 })) { q with waiting := false }) s false true q
    match spkExtent d s with
    | none => evProposal (put d { q with waiting := false }) s false false q
    | some (m, e) =>
      if firBusy d then put d { q with waiting := true }
      else if fading (getMch d m) || heldCommit d m then skip d
      else if e.state == .mapped || (e.state == .loaded && d.track.posted.contains m) then
        let taps := proposalTaps d s q
        if e.lam < taps.length then evProposal (put d { q with waiting := false }) s false false q
        else
          let d := beginLoad d none [(m, taps)]
          let d := trackMod (put d { q with waiting := false, posted := true }) (fun x => { x with posted := x.posted ++ [m] })
          evProposal d s true false q
      else if e.state == .loaded then skip d
      else evProposal (put d { q with waiting := false }) s false false q

/-- PROPOSAL_POST (R254, R261): a post that waited. -/
def proposalPost (d : Dev) (s : Nat) : Dev :=
  match tabGet d.track.props s with
  | some q => if q.waiting && !firBusy d && mode d != .twin then postProposal d s else d
  | none => d

def execProposalPost (speaker : Nat) (s : State) : Host.Outcome State Fault Refusal := run (fun d => proposalPost d speaker) s

/-- TRACK_PROPOSAL LIST. -/
def judgePropList (d : Dev) (t : Taken) (_ : Option (List Byte)) : Dev × Ans :=
  let p := t.req.payload
  if !longEnough t 24 || u8 p 0 != 0 || u8 p 1 != 0 || !depositOk t 8 64 then bad d
  else
    let bs := (List.range 64).map (fun i => BitVec.ofNat 8 ((List.range 8).foldl (fun a j => a + 2 ^ j * b2n (tabGet d.track.props (8 * i + j)).isSome) 0))
    depositReply d t 8 bs

def judgePropRead (d : Dev) (t : Taken) (_ : Option (List Byte)) : Dev × Ans :=
  let p := t.req.payload
  let s := u16 p 2
  if !longEnough t 24 || u8 p 0 != 1 || u8 p 1 != 0 || decide (nSpeakers ≤ s) || !t.req.bulk || !bulkOk (bulkRef p 8) then bad d
  else match tabGet d.track.props s with
    | none => ans d .notFound
    | some q =>
      let bs := firRegion [((spkChan d s).getD 0xFFFF, proposalTaps d s q)]
      if !depositOk t 8 bs.length then bad d else depositReply d t 8 bs

def judgePropDiscard (d : Dev) (t : Taken) (_ : Option (List Byte)) : Dev × Ans :=
  let p := t.req.payload
  let s := u16 p 2
  if !longEnough t 4 || u8 p 0 != 2 || u8 p 1 != 0 || decide (nSpeakers ≤ s) then bad d
  else if (tabGet d.track.props s).isNone then ans d .notFound
  else ans (trackMod d (fun x => { x with props := tabSet x.props s none })) .ok

def execTrackProposalList (r : Req) (s : State) : Host.Outcome State Fault Refusal := reqRow .trackProposal 0 [1, 2] judgePropList r s
def execTrackProposalRead (r : Req) (s : State) : Host.Outcome State Fault Refusal := reqRow .trackProposal 0 [0, 2] judgePropRead r s
def execTrackProposalDiscard (r : Req) (s : State) : Host.Outcome State Fault Refusal := reqRow .trackProposal 0 [0, 1] judgePropDiscard r s

/-! TRACK_WINDOW_END (R251–R254). -/

/-- Speakers of the group in progress. -/
def trackGroup (d : Dev) : List Nat :=
  ((spksOf d d.track.cfg.spkFirst d.track.cfg.spkCount false).drop (32 * d.track.group)).take 32

/-- The domain whose speakers are being tracked. -/
def trackDom (d : Dev) : Option Nat :=
  if d.track.cfg.enable && (mode d == .service || mode d == .twin) && d.fw.changing.isNone then layDom d else none

def hasRef (d : Dev) (s i : Nat) : Bool := d.cal.refs.any (fun kv => kv.1 == pairIx s i)

/-- Samples kept of a column's or an ear's output: those of a tracked speaker reach back over the onset and a transform. -/
def trackLine (d : Dev) (c : Nat) : Nat := if d.track.cfg.enable && (List.range 8).any (hasRef d c) then 34000 else 512

/-- The transform of a pair that ends at MT e: the microphone's 1,024 samples before e, without the 28 samples of R234, with the column's
output at emission, 32 samples after it landed, shifted by the reference onset.  None while the column's line does not reach back. -/
def trackFrame (d : Dev) (s i : Nat) (e : MT) : Option (List Int × List Int) :=
  let x0 := e - BitVec.ofNat 32 (1024 + 28 + 32 + (tabGet d.cal.refs (pairIx s i)).onset)
  let l := tabGet d.render.cols s
  if mtDiff l.next x0 ≤ (l.xs.length : Int) then some (lineRead l x0 1024, lineRead (getMic d i).out (e - 1024) 1024) else none

/-- OP_TRACK at boundary b of domain n takes the block [b − 32, b − 16), unless that was skipped; every 512 samples of the window a
transform ends. -/
def trackLand (d : Dev) (n : Nat) (b : MT) : Dev :=
  if trackDom d ≠ some n then d else
  let k := b - 32
  if mtDiff k d.track.start < 0 then trackMod d (fun x => { x with late := false })
  else if d.track.late then trackMod d (fun x => { x with late := false, skips := x.skips + 1, skip := x.skip + 1, since := k + 16 })
  else
    let past := (mtDiff (k + 16) d.track.start - 1024).toNat
    let e := k + 16 - BitVec.ofNat 32 (past % 512)
    if mtDiff (k + 16) d.track.start < 1024 ∨ 16 ≤ past % 512 ∨ mtDiff (e - 1024) d.track.since < 0 then d else
    let pairs := (trackGroup d).flatMap (fun s => ((micsOf d.track.cfg.mics).filter (hasRef d s)).map (fun i => (s, i)))
    let add (t : Tab PairSpec) (p : Nat × Nat) : Tab PairSpec := match trackFrame d p.1 p.2 e with
      | some q => tabMod t (pairIx p.1 p.2) (fun a => specAdd a q.1 q.2)
      | none => t
    trackMod d (fun x => { x with acc := pairs.foldl add x.acc })

/-- What the window under way gives of the group's pairs. -/
def trackMeasured (d : Dev) (f : Nat) : List TrackMeas :=
  d.track.acc.filterMap (fun kv => if hasRef d (kv.1 / 8) (kv.1 % 8) then some (pairMeas f (kv.1 / 8) (kv.1 % 8) kv.2) else none)

/-- A speaker's report at the end of a window. -/
def trackReport (d : Dev) (s : Nat) (ms : List TrackMeas) (incomplete : Bool) (mt : MT) : TrackRep :=
  if incomplete then { incomplete := true, mt := mt, dev := List.replicate 10 0 } else
  let mine := ms.filter (fun m => m.speaker == s)
  let vs := (List.range 10).map (fun i => mine.filter (fun m => m.valid.getD i false))
  let ref (m : TrackMeas) : TrackRef := tabGet d.cal.refs (pairIx s m.mic)
  let valid := (vs.zipIdx).foldl (fun a v => a + 2 ^ v.2 * b2n (!v.1.isEmpty)) 0
  let dev := vs.zipIdx.map (fun v => powerMean (v.1.map (fun m => m.level.getD v.2 0 - (ref m).levels.getD v.2 0)))
  let ovr := (List.range 10).any (fun i => bit valid i && decide (d.track.cfg.threshold < (dev.getD i 0).natAbs))
  { valid := valid, dev := dev, delay := Config.delayChange (mine.map (fun m => (m.h, (ref m).onset))), mt := mt, ovr := ovr }

/-- One speaker of the group: its report, and a proposal after two rotations over the threshold. -/
def trackSpeaker (d : Dev) (s : Nat) (ms : List TrackMeas) (incomplete : Bool) (mt : MT) : Dev :=
  let before := match tabGet d.track.reps s with | some r => r.ovr | none => false
  let r := trackReport d s ms incomplete mt
  let d := trackMod d (fun x => { x with reps := tabSet x.reps s (some r) })
  if !(d.track.cfg.propose && before && r.ovr) then d else
  let q : Proposal := { valid := r.valid, dev := r.dev, mt := mt }
  let d := trackMod d (fun x => { x with props := tabSet x.props s (some q) })
  if d.track.cfg.post && mode d != .twin then postProposal d s else evProposal d s false false q

/-- The window ends: its length has passed, or its domain has realigned. -/
def trackEnd (d : Dev) : Dev :=
  match trackDom d with
  | none => d
  | some n =>
    let f := rateOf d n
    let mt := mtOf d n
    let w := d.track.cfg.windowMs * f / 1000
    if !(d.track.broken || decide ((w : Int) ≤ mtDiff mt d.track.start)) then d else
    let incomplete := d.track.broken || decide (w < 32 * d.track.skips)
    let ms := trackMeasured d f
    let d := (trackGroup d).foldl (fun d s => trackSpeaker d s ms incomplete mt) d
    let groups := ((spksOf d d.track.cfg.spkFirst d.track.cfg.spkCount false).length + 31) / 32
    trackMod d (fun x =>
      { x with group := if groups ≤ x.group + 1 then 0 else x.group + 1, start := mt, acc := [], skips := 0, since := mt, broken := false })

/-- TRACK_WINDOW_END (R251): the window under way ends at boundary b of domain n; at another boundary than the last nothing does. -/
def execTrackWindowEnd (n : Fin 3) (b : MT) (s : State) : Host.Outcome State Fault Refusal :=
  run (fun d => if trackDom d = some n.val ∧ mtOf d n.val = b then trackEnd d else d) s

/-! SELFTEST_RUN (R242). -/

def selfBody (r : TestResult) : List Byte :=
  zeros 3 ++ p32 r.passed.toNat ++ p32 r.failed.toNat ++ p32 r.corrected.toNat ++ p16 r.marginMui.toNat ++ p16 r.marginMv.toNat

def judgeSelftest (d : Dev) (t : Taken) (_ : Option (List Byte)) : Dev × Ans :=
  let m := u32 t.req.payload 0
  let offline := decide (m % 16 ≠ 0)
  if !longEnough t 4 then bad d
  else if offline && tMode t != .selftest || !inModes t [.selftest, .service, .twin] then ansB d .badMode (selfBody {})
  else if decide (m / 16 % 16 ≠ 0) || decide (2048 ≤ m) then ansB d .badArg (selfBody {})
  else if d.selftest.mask.isSome then ansB d .busy (selfBody {})
  else if m = 0 then ansB d .ok (selfBody {})
  else ({ d with selftest := { mask := some m } }, .wait .selftest)

def execSelftestRun (r : Req) (s : State) : Host.Outcome State Fault Refusal := reqRow1 .selftestRun judgeSelftest r s

/-- SELFTEST_COMPLETE: what was found, of the tests requested. -/
def selftestDone (d : Dev) (r : TestResult) : Dev :=
  match d.selftest.mask with
  | none => d
  | some m =>
    let w : Word := BitVec.ofNat 32 m
    let r : TestResult := { passed := r.passed &&& w, failed := r.failed &&& w, corrected := if bit m 8 then r.corrected else 0
                            marginMui := if bit m 10 then r.marginMui else 0, marginMv := if bit m 10 then r.marginMv else 0 }
    let ws := d.fw.waits.filter (fun x => x.what == .selftest)
    let d := fw { d with selftest := {} } (fun f => { f with waits := f.waits.filter (fun x => x.what != .selftest) })
    ws.foldl (fun d x => reply d x.taken .ok (selfBody r)) d

def execSelftestComplete (res : TestResult) (s : State) : Host.Outcome State Fault Refusal := run (fun d => selftestDone d res) s

end Sys2Proof.Machine
end

