-- ==== Sys2Proof/Machine/SenseReq.lean ====
section
/-! DEFINITION. The sense unit's events: rails, temperatures, cables, lanes, the headphone jack and its buttons (R256–R259). -/

namespace Sys2Proof.Machine

def senseMod (d : Dev) (f : Sense → Sense) : Dev := { d with sense := f d.sense }

/-- EV_SENSE. -/
def evSense (d : Dev) (kind index new old : Nat) (value : Int) : Dev := event d 11 (senseEv kind index new old value (now d))

/-! Outputs that a fault stops (R257): classes 0 transmit flows, 1 AES3 and TDM outputs, 2 every output. -/

/-- The class of outputs a rail's fault stops. -/
def railClass (i : Nat) : Nat := if i = 2 ∨ i = 3 then 0 else if i = 6 then 1 else 2

/-- Outputs of a class fade over the 16 samples of emission from the next boundary of each domain. -/
def muteClass (d : Dev) (cls : Nat) : Dev :=
  (List.range 3).foldl (fun d n => { d with render := { d.render with mutes := tabMod d.render.mutes (cls * 4 + n) (fun g =>
    match g with
    | some g => if g.phase = .fade ∨ g.phase = .zero then some { g with clean := 0 } else some (gateFade (mtOf d n + 16))
    | none => some (gateFade (mtOf d n + 16))) } }) d

/-- A rail of a class is in FAULT, or for every output a temperature is above its limit; the local outputs of a follower that is not
SYNCED emit zero (R389, R390, R393). -/
def classHeld (d : Dev) (cls : Nat) : Bool :=
  (cls == 1 && mode d == .twin && (d.twin.state == .resync || d.twin.state == .verify || d.twin.state == .isolated)) ||
  (List.range 8).any (fun i => railClass i == cls && (tabGet d.sense.rails i).state == 2) ||
    (cls == 2 && d.sense.temps.any (fun kv => kv.2.state == 2))

/-- The gain of the fault gates of a class for domain n at emission MT m. -/
def muteGain (d : Dev) (cls n : Nat) (m : MT) : Int :=
  let one (c : Nat) : Int := match tabGet d.render.mutes (c * 4 + n) with
    | some g => gateAt g (rateOf d n) m
    | none => unity
  min (one cls) (one 2)

/-- The fault gates of domain n at its boundary b, once a block has been rendered: four clean blocks, then the ramp (R257). -/
def mutesBoundary (d : Dev) (n : Nat) (b : MT) : Dev :=
  (List.range 3).foldl (fun d cls =>
    match tabGet d.render.mutes (cls * 4 + n) with
    | none => d
    | some g =>
      let g' := gateNext g (rateOf d n) (!classHeld d cls) (b + 16)
      { d with render := { d.render with mutes := tabSet d.render.mutes (cls * 4 + n) (if g'.phase = .passing then none else some g') } }) d

/-- One measurement: a rail, a temperature, a cable, a lane. -/
def senseOne (d : Dev) (m : Sensed) : Dev :=
  match m with
  | .rail i mv =>
    if 8 ≤ i then d else
    let o := tabGet d.sense.rails i
    let x := sensorUpdate o mv (railRange i)
    let d := senseMod d (fun s => { s with rails := tabSet s.rails i x })
    if x.state = o.state then d
    else
      let d := evSense d 0 i x.state o.state mv
      if x.state = 2 then muteClass d (railClass i) else d
  | .temp i v =>
    if 8 ≤ i then d else
    let o := tabGet d.sense.temps i
    let x := sensorUpdate o v tempRange
    let d := senseMod d (fun s => { s with temps := tabSet s.temps i x })
    if x.state = o.state then d
    else
      let d := evSense d 1 i x.state o.state v
      if x.state = 2 then muteClass d 2 else d
  | .cable i locked v =>
    if 16 ≤ i then d else
    let o := tabGet d.sense.cables i
    let x := cableUpdate o locked v
    let d := senseMod d (fun s => { s with cables := tabSet s.cables i x })
    if x.flag = o.flag then d else evSense d 2 i (b2n x.flag) (b2n o.flag) v
  | .loss i up v =>
    if 10 ≤ i then d else
    let o := tabGet d.sense.losses i
    let x := lossUpdate o up v (laneLimit i ((getNet d i).cfg.speed == 1))
    let d := senseMod d (fun s => { s with losses := tabSet s.losses i x })
    if x.flag = o.flag then d else evSense d 3 i (b2n x.flag) (b2n o.flag) v

/-- A sensor beyond its limit. -/
def tempFault (d : Dev) : Bool := d.sense.temps.any (fun kv => kv.2.state == 2)
def railFault (d : Dev) : Bool := d.sense.rails.any (fun kv => kv.2.state == 2)

/-- Firmware that begins to run finds the faults that lead to SAFE: a rail's that has outlasted its 100 ms, a temperature (R257). -/
def faultsFound (d : Dev) : Dev :=
  let stale := d.sense.overdue && railFault d
  let d := senseMod d (fun s => { s with overdue := false })
  if stale then toSafe d 6 else if tempFault d then toSafe d 9 else d

/-- SENSE_UPDATE: the unit runs while PD_SENSE is on.  A temperature above its limit enters SAFE with reason 0x09, or with 0x06
where a rail faults in the same update; in RETAIN a rail beyond its limit enters SAFE too (R481). -/
def senseUpdate (d : Dev) (ms : List Sensed) : Dev :=
  if !pdOn d 15 then d else
  let bad (d : Dev) : Nat := ((List.range 8).filter (fun i => (tabGet d.sense.rails i).state == 2)).length
  let d' := ms.foldl senseOne d
  if mode d == .retain then (if bad d < bad d' then toSafe d' 6 else if tempFault d' && !tempFault d then toSafe d' 9 else d')
  else if tempFault d' && !tempFault d && d'.hif.ctrlUp then toSafe d' (if bad d < bad d' then 6 else 9) else d'

def execSenseUpdate (ms : List Sensed) (s : State) : Host.Outcome State Fault Refusal := run (fun d => senseUpdate d ms) s

/-- RAIL_FAULT_TIMEOUT: a rail still in FAULT; where firmware doesn't run, it acts when it does. -/
def execRailFaultTimeout (s : State) : Host.Outcome State Fault Refusal :=
  run (fun d => onlyIf (railFault d) (fun d => if d.hif.ctrlUp then toSafe d 6 else senseMod d (fun s => { s with overdue := true })) d) s

/-! The headphone jack (R258). -/

/-- SENSE_BUTTON bits 3:0. -/
def buttonCode (b : Nat) (long pressed : Bool) : Nat := 4 * b + 2 * b2n long + b2n pressed

/-- The held button's release is reported. -/
def buttonRelease (d : Dev) : Dev :=
  match d.sense.held with
  | none => d
  | some (b, l) =>
    let d := senseMod d (fun s => { buttonPush s b l false with held := none })
    evSense d 6 0 (buttonCode b l false) (buttonCode b l true) 0

/-- JACK_INSERTION. -/
def jackMove (d : Dev) (ins : Bool) : Dev :=
  if ins = d.sense.inserted then d else
  let d := if ins then d else buttonRelease d
  let d := senseMod d (fun s => { s with inserted := ins, accessory := 0 })
  evSense d 4 0 (b2n ins) (b2n (!ins)) 0

/-- ACCESSORY_JUDGED. -/
def accessoryJudge (d : Dev) (tip sleeve : Nat) : Dev :=
  if !d.sense.inserted || d.sense.accessory != 0 then d else
  let a := accessoryOf tip sleeve
  evSense (senseMod d (fun s => { s with accessory := a })) 5 0 a 0 0

/-- BUTTON_PRESS: a headset is inserted. -/
def buttonMove (d : Dev) (ohms : Nat) (pressed : Bool) : Dev :=
  if !d.sense.inserted || d.sense.accessory != 2 then d
  else if !pressed then buttonRelease d
  else match buttonOf ohms, d.sense.held with
    | some b, none => evSense (senseMod d (fun s => { buttonPush s b false true with held := some (b, false) })) 6 0 (buttonCode b false true) 0 0
    | _, _ => d

def execJackInsertion (inserted : Bool) (s : State) : Host.Outcome State Fault Refusal := run (fun d => onlyIf (pdOn d 15) (fun d => jackMove d inserted) d) s
def execAccessoryJudged (tip sleeve : Nat) (s : State) : Host.Outcome State Fault Refusal := run (fun d => onlyIf (pdOn d 15) (fun d => accessoryJudge d tip sleeve) d) s
def execButtonPress (ohms : Nat) (pressed : Bool) (s : State) : Host.Outcome State Fault Refusal := run (fun d => onlyIf (pdOn d 15) (fun d => buttonMove d ohms pressed) d) s

/-- BUTTON_LONG: the press is marked; its release carries the mark. -/
def execButtonLong (s : State) : Host.Outcome State Fault Refusal :=
  run (fun d => senseMod d (fun s => { s with held := s.held.map (fun h => (h.1, true)) })) s

end Sys2Proof.Machine
end

