-- ==== Sys2Proof/Machine/PortReq.lean ====
section
/-! DEFINITION. PORT_CFG, SLOT_MASK and ALIGN_GROUP, the frames and states of AES3 and TDM ports, and what a boundary does
with them (R309–R335). -/

namespace Sys2Proof.Machine

def aesMod (d : Dev) (i : Nat) (f : AesRx → AesRx) : Dev := portsMod d (fun p => { p with aesRx := tabMod p.aesRx i f })
def getAes (d : Dev) (i : Nat) : AesRx := tabGet d.ports.aesRx i
def atxMod (d : Dev) (i : Nat) (f : AesTx → AesTx) : Dev := portsMod d (fun p => { p with aesTx := tabMod p.aesTx i f })
def getAtx (d : Dev) (i : Nat) : AesTx := tabGet d.ports.aesTx i
def tdmMod (d : Dev) (n : Nat) (f : Tdm → Tdm) : Dev := portsMod d (fun p => { p with tdm := tabMod p.tdm n f })
def getTdm (d : Dev) (n : Nat) : Tdm := tabGet d.ports.tdm n

/-- The audio-port engine runs ports (R334, R498). -/
def portsRun (d : Dev) : Bool := d.ports.ctrl.getLsbD 0 && pdOn d 6


/-- A TDM port in the target role transmits nothing in SINGLE_RATE (R310). -/
def tdmInhibit (d : Dev) (n : Nat) : Bool := single d && (getTdm d n).cfg.target

/-! Events (R73, R325). -/

def aesTo (d : Dev) (i : Nat) (old : AesState) : Dev :=
  let new := (getAes d i).state
  if new = old then d else evPortClock d 2 i (aesCode new) (aesCode old) 0 0 (now d)
def tdmTo (d : Dev) (n : Nat) (old : TdmState) : Dev :=
  let new := (getTdm d n).state
  if new = old then d else evPortClock d 3 n (tdmCode new) (tdmCode old) 0 0 (now d)

/-- A receiver changes, and a change of its state is reported. -/
def aesStep (d : Dev) (i : Nat) (f : AesRx → AesRx) : Dev := aesTo (aesMod d i f) i (getAes d i).state
def tdmStep (d : Dev) (n : Nat) (f : Tdm → Tdm) : Dev := tdmTo (tdmMod d n f) n (getTdm d n).state

/-- A grouped member has lost its mapping: kept with the member. -/
def memberLost (d : Dev) (kind index : Nat) (v : Bool) : Dev :=
  portsMod d (fun p => { p with groups := p.groups.map (fun g =>
    (g.1, { g.2 with members := g.2.members.map (fun m => if m.kind = kind ∧ m.index = index then { m with lost := v } else m) })) })

/-- EV_UNDERRUN. -/
def evUnderrun (d : Dev) (kind index cause : Nat) (mt : MT) (slips : Word) : Dev :=
  let g := memberGroup d.ports kind index
  let lost := match g with
    | some g => (tabGet d.ports.groups g).members.any (fun m => m.kind == kind && m.index == index && m.lost)
    | none => false
  event d 3 (p8 kind ++ p8 index ++ p8 cause ++ p8 (b2n g.isSome + 2 * b2n lost) ++ p32 mt.toNat ++ p32 slips.toNat)

/-- Whether a direction of a TDM port (kind 2 receive, 3 transmit) is grouped. -/
def tdmGrouped (d : Dev) (n kind : Nat) : Bool := (memberGroup d.ports kind n).isSome

/-- The direction of a TDM port that an event names where both slip: transmit for a port grouped in that direction, and
for a port that receives nothing. -/
def tdmKind (d : Dev) (n : Nat) : Nat :=
  if (memberGroup d.ports 3 n).isSome then 3 else if (memberGroup d.ports 2 n).isNone ∧ (getTdm d n).rxMask = 0 then 3 else 2

/-! What transmit channels send (R318, R324, R326). -/

/-- A source's block that carries emission MT m has been published. -/
def srcPublished (d : Dev) (s : Src) (m : MT) : Bool :=
  let has (t : Tab Line) : Bool := (lineGet (tabGet t s.index) (m - 32)).isSome
  if !srcLive d s then true
  else if s.kind = 4 then has d.render.cols else if s.kind = 5 then has d.render.hb else if s.kind = 6 then has d.render.tile else true

/-- A source of a kind that is rendered, as it is emitted (R389, R257): the faults that stop every output are on the ports. -/
def portSample (d : Dev) (n : Nat) (c : TxChan) (m : MT) : Int × Bool :=
  let x := txSample d c m
  ((mulGain x.1 (muteGain d 1 n m)).1, x.2)

/-- A finished crossfade of a transmit channel is over. -/
def txSettle (c : TxChan) (m : MT) : TxChan :=
  match c.old with
  | some (_, t) => if 64 ≤ mtDiff m t then { c with old := none, older := none } else if 0 ≤ mtDiff m t then { c with older := none } else c
  | none => c

/-! Acceptance (R330). -/

/-- Rates of R313. -/
def portRateOk (f : Nat) : Bool := f == 32000 || rateOk f

def aesRxCfgOf (p : List Byte) : AesRxCfg :=
  { enable := bit (u8 p 3) 0, domain := u8 p 4, vmute := bit (u8 p 8) 0, wl20 := bit (u8 p 8) 1, nominal := u32 p 12 }
def aesTxCfgOf (p : List Byte) : AesTxCfg :=
  { enable := bit (u8 p 3) 0, domain := u8 p 4, fixed := u8 p 8 == 1, dither := bit (u8 p 9) 0, forceV := bit (u8 p 9) 1, wl := u8 p 10 }
def tdmCfgOf (p : List Byte) : TdmCfg :=
  { enable := bit (u8 p 3) 0, domain := u8 p 4, format := u8 p 8, target := u8 p 9 == 1, slots := u8 p 10, slotBits := u8 p 11, dataBits := u8 p 16,
    fsInvert := bit (u8 p 17) 0, fsPulse := bit (u8 p 17) 1, bclkInvert := bit (u8 p 17) 2, doutHiz := bit (u8 p 17) 3, dither := bit (u8 p 17) 4,
    fsOffset := u8 p 18, nominal := u32 p 12 }

def portKinds (kind index : Nat) : Bool := decide (kind < 2 ∧ index < 16) || decide (kind = 2 ∧ index < 8)

/-- The domain a port is configured for, and whether it is enabled. -/
def portDom (d : Dev) (kind i : Nat) : Nat :=
  if kind = 0 then (getAes d i).cfg.domain else if kind = 1 then (getAtx d i).cfg.domain else (getTdm d i).cfg.domain
def portOn (d : Dev) (kind i : Nat) : Bool :=
  if kind = 0 then (getAes d i).cfg.enable else if kind = 1 then (getAtx d i).cfg.enable else (getTdm d i).cfg.enable

/-- The domain that a SET stores: in SINGLE_RATE an enabled port keeps its stored domain (R77). -/
def portKeepDom (d : Dev) (kind i n : Nat) : Nat := if single d && portOn d kind i then portDom d kind i else n

/-- A field of SET out of range. -/
def portSetBad (d : Dev) (p : List Byte) : Bool :=
  let kind := u8 p 0
  let z (o n : Nat) : Bool := (slice p o n).any (· != 0)
  let nom := u32 p 12
  let nomBad := if single d then nom != 0 && !portRateOk nom else nom != 0
  decide (1 < u8 p 3) || decide (2 < u8 p 4) || (single d && u8 p 4 != 0) || z 5 3 ||
    (if kind = 0 then decide (3 < u8 p 8) || z 9 3 || nomBad || z 16 4
     else if kind = 1 then decide (1 < u8 p 8) || decide (3 < u8 p 9) || (u8 p 10 != 20 && u8 p 10 != 24) || z 11 9
     else
       let c := tdmCfgOf p
       let rate := if single d then (if c.target && c.nominal != 0 then c.nominal else 48000) else rateOf d c.domain
       decide (1 < u8 p 9) || decide (31 < u8 p 17) || u8 p 19 != 0 || nomBad || !tdmOk c rate)

/-- A receiver's settings in force (R314). -/
def aesSet (r : AesRx) (c : AesRxCfg) : AesRx :=
  if !c.enable then { aesFade r .absent with cfg := c }
  else if !r.cfg.enable then { r with cfg := c, state := .absent, frames := 0, seenZ := false, sinceZ := 0 }
  else if r.cfg.nominal ≠ c.nominal then { aesFade r .absent with cfg := c }
  else { r with cfg := c }

/-- A transmitter's settings in force: it starts at a boundary of its domain, and stops with a fade and 64 frames of zero. -/
def atxSet (t : AesTx) (c : AesTxCfg) : AesTx :=
  if c.enable then { t with cfg := c }
  else { t with cfg := c, gate := if t.phase = .running then slipStart t.gate t.next t.good else t.gate }

/-- A TDM port's settings in force (R321). -/
def tdmSet (t : Tdm) (c : TdmCfg) : Tdm :=
  let same := { t.cfg with enable := true, dither := c.dither, doutHiz := c.doutHiz } = { c with enable := true }
  match t.state with
  | .stopped => { t with cfg := c, state := if c.enable && c.target then .noClock else .stopped, frames := 0 }
  | .noClock => { t with cfg := c, state := if c.enable && c.target then .noClock else .stopped, frames := 0 }
  | .stopping => { t with pend := some c }
  | _ =>
    if c.enable ∧ same then { t with cfg := c }
    else { tdmFade t with state := .stopping, pend := some c, frames := 0 }

/-- PORT_CFG SET, SOURCE and CS_WRITE take effect at boundary b, or at once. -/
def applyPort : Apply1 := fun d t b =>
  let p := t.req.payload
  let kind := u8 p 0
  let i := u8 p 1
  let a := u8 p 2
  let d :=
    if a = 0 then
      let k := portKeepDom d kind i (u8 p 4)
      let d := if kind = 0 then aesStep d i (fun r => aesSet r { aesRxCfgOf p with domain := k })
        else if kind = 1 then atxMod d i (fun x => atxSet x { aesTxCfgOf p with domain := k })
        else tdmStep d i (fun x => tdmSet x { tdmCfgOf p with domain := k })
      powerPlan (if single d then singleAssign d else d)
    else if a = 2 then
      (List.range (u8 p 9)).foldl (fun d j =>
        let s := srcEntry p (12 + 4 * j)
        let c := u8 p 8 + j
        if kind = 1 then atxMod d i (fun x => if c = 0 then { x with chA := txChanSet x.chA s b } else { x with chB := txChanSet x.chB s b })
        else tdmMod d i (fun x => { x with tx := tabMod x.tx c (fun y => txChanSet y s b) })) d
    else
      let bs := slice p 12 24
      let m := u8 p 9
      atxMod d i (fun x =>
        if u8 p 8 = 0 then { x with csA := if bit m 0 then bs else x.csA, csB := if bit m 1 then bs else x.csB }
        else { x with userA := if bit m 0 then bs else x.userA, userB := if bit m 1 then bs else x.userB })
  (d, .ok, mtBody b)

def portRefuse (d : Dev) (st : Status) : Dev × Ans := ansB d st (mtBody none)

/-- PORT_CFG SET. -/
def judgePortSet (d : Dev) (t : Taken) (_ : Option (List Byte)) : Dev × Ans :=
  let p := t.req.payload
  let kind := u8 p 0
  let i := u8 p 1
  if !inModes t modes5 then portRefuse d .badMode
  else if !longEnough t 20 || !portKinds kind i || u8 p 2 != 0 || portSetBad d p then portRefuse d .badArg
  else if portOn d kind i && u8 p 4 != effDom d (portDom d kind i) then portRefuse d .busy
  else commitPd d t (u8 p 4) 6 (bit (u8 p 3) 0) applyPort

/-- PORT_CFG SOURCE (R331). -/
def judgePortSource (d : Dev) (t : Taken) (_ : Option (List Byte)) : Dev × Ans :=
  let p := t.req.payload
  let kind := u8 p 0
  let i := u8 p 1
  let n := u8 p 9
  let chans := if kind = 1 then 2 else 32
  let ss := (List.range n).map (fun j => srcEntry p (12 + 4 * j))
  if !inModes t modes5 then portRefuse d .badMode
  else if !longEnough t 12 || !portKinds kind i || kind == 0 || u8 p 2 != 2 || u8 p 3 != 0 || decide (2 < u8 p 4) || (slice p 5 3).any (· != 0) ||
      n == 0 || decide (10 < n) || decide (chans < u8 p 8 + n) || u16 p 10 != 0 || !longEnough t (12 + 4 * n) ||
      ss.any (fun s => !srcFits d (portDom d kind i) s) then portRefuse d .badArg
  else if mode d == .twin && ss.any (fun s => s.kind == 7) then portRefuse d .denied
  else commitOr d t (portDom d kind i) applyPort

/-- CS_WRITE (R332). -/
def judgeCsWrite (d : Dev) (t : Taken) (_ : Option (List Byte)) : Dev × Ans :=
  let p := t.req.payload
  if !inModes t modes5 then portRefuse d .badMode
  else if !longEnough t 36 || !portKinds (u8 p 0) (u8 p 1) || u8 p 0 != 1 || u8 p 2 != 4 || u8 p 3 != 0 || decide (2 < u8 p 4) ||
      (slice p 5 3).any (· != 0) || decide (1 < u8 p 8) || decide (3 < u8 p 9) || u16 p 10 != 0 then portRefuse d .badArg
  else commitOr d t (portDom d 1 (u8 p 1)) applyPort

/-- CS_READ (R332): a receiver's stored block; CS_CHANGED is cleared. -/
def judgeCsRead (d : Dev) (t : Taken) (_ : Option (List Byte)) : Dev × Ans :=
  let p := t.req.payload
  let i := u8 p 1
  let s := u8 p 8
  if !longEnough t 9 || u8 p 0 != 0 || decide (15 < i) || u8 p 2 != 3 || u8 p 3 != 0 || (slice p 5 3).any (· != 0) || decide (1 < s) then bad d
  else
    let r := getAes d i
    match (if s = 0 then r.blkA else r.blkB) with
    | none => ans d .notFound
    | some b =>
      let pro := blockBit b.cs 0
      let fl := b2n pro + 2 * b2n b.crcBad + 4 * b2n (!pro) + 8 * b2n (blockBit b.cs 1) + 16 * b2n (r.changed.getD s false)
      ansB (aesMod d i (fun r => { r with changed := r.changed.set s false })) .ok (p8 fl ++ zeros 2 ++ slice b.cs 0 24 ++ slice b.user 0 24)

/-- PORT_CFG GET (R333). -/
def judgePortGet (d : Dev) (t : Taken) (_ : Option (List Byte)) : Dev × Ans :=
  let p := t.req.payload
  let kind := u8 p 0
  let i := u8 p 1
  if !longEnough t 3 || !portKinds kind i || u8 p 2 != 1 then bad d
  else
    let r := getAes d i
    let x := getAtx d i
    let m := getTdm d i
    let g := if kind < 2 then memberGroup d.ports kind i else (memberGroup d.ports 3 i).orElse (fun _ => memberGroup d.ports 2 i)
    let lost := if kind = 0 then r.mappingLost else kind == 2 && m.mappingLost
    let st := if kind = 0 then aesCode r.state else if kind = 1 then b2n (x.phase != .off) else tdmCode m.state
    let rate := if kind = 0 then aesRate d i else if kind = 1 then rateIn d x.cfg.domain else tdmRate d i
    ansB d .ok (p8 st ++ p8 (b2n (kind == 2 && tdmInhibit d i) + 2 * b2n g.isSome + 4 * b2n lost + 8 * b2n (kind == 0 && (r.nonA || r.nonB))) ++ p8 (g.getD 255) ++
      p32 rate ++ s32 (if kind = 0 then r.eps else if kind = 2 ∧ m.cfg.target then m.eps else 0) ++
      p16 (if kind = 0 then refFrac r.map else if kind = 2 ∧ m.cfg.target then refFrac m.map else 0) ++ zeros 2 ++
      p32 (if kind = 0 then r.slips else if kind = 1 then x.slips else m.slips).toNat ++
      p32 (if kind = 0 then (r.parityErr + r.biphaseErr).toNat else 0))

def execPortCfgSet (r : Req) (s : State) : Host.Outcome State Fault Refusal := reqRow .portCfg 2 [1, 2, 3, 4] judgePortSet r s
def execPortCfgGet (r : Req) (s : State) : Host.Outcome State Fault Refusal := reqRow .portCfg 2 [0, 2, 3, 4] judgePortGet r s
def execPortCfgSource (r : Req) (s : State) : Host.Outcome State Fault Refusal := reqRow .portCfg 2 [0, 1, 3, 4] judgePortSource r s
def execCsRead (r : Req) (s : State) : Host.Outcome State Fault Refusal := reqRow .portCfg 2 [0, 1, 2, 4] judgeCsRead r s
def execCsWrite (r : Req) (s : State) : Host.Outcome State Fault Refusal := reqRow .portCfg 2 [0, 1, 2, 3] judgeCsWrite r s

/-! SLOT_MASK (R322, R323). -/

def judgeSlotMask (d : Dev) (t : Taken) (_ : Option (List Byte)) : Dev × Ans :=
  let p := t.req.payload
  let n := u8 p 0
  let fl := u8 p 1
  let x := getTdm d n
  let at_ := bit fl 0
  let mt : MT := BitVec.ofNat 32 (u32 p 12)
  let dom := effDom d x.cfg.domain
  let beyond (w : Nat) : Bool := decide (2 ^ x.cfg.slots ≤ w)
  if !inModes t modes5 then portRefuse d .badMode
  else if !longEnough t 16 || decide (7 < n) || decide (7 < fl) || u16 p 2 != 0 || (bit fl 1 && beyond (u32 p 4)) || (bit fl 2 && beyond (u32 p 8)) ||
      (at_ && decide ((8 * rateOf d dom : Int) < mtDiff mt (mtOf d dom))) then portRefuse d .badArg
  else if x.armed then portRefuse d .busy
  else
    let d := tdmMod d n (fun x =>
      { x with rxShadow := if bit fl 1 then BitVec.ofNat 32 (u32 p 4) else x.rxShadow, txShadow := if bit fl 2 then BitVec.ofNat 32 (u32 p 8) else x.txShadow })
    if x.state = .starting ∨ x.state = .running then
      (tdmMod d n (fun x => { x with armed := true, atMt := at_, maskAt := if at_ then mt else x.maskAt }), .wait (.slotMask n))
    else ansB (tdmMod d n (fun x => { x with startCopy := true })) .ok (mtBody none)

def execSlotMask (r : Req) (s : State) : Host.Outcome State Fault Refusal := reqRow1 .slotMask judgeSlotMask r s

/-- The copy has been made: the request is answered. -/
def answerMask (d : Dev) (n : Nat) : Dev :=
  let x := getTdm d n
  let ws := d.fw.waits.filter (fun w => w.what == .slotMask n)
  ws.foldl (fun d w => reply d w.taken (if x.atMt && x.lateBit then .late else .ok) (mtBody (some x.maskMt)))
    (fw d (fun f => { f with waits := f.waits.filter (fun w => w.what != .slotMask n) }))

/-! ALIGN_GROUP (R327–R329). -/

def alignMembers (p : List Byte) : List GMember :=
  (List.range (u8 p 2)).map (fun i => { kind := u8 p (4 + 4 * i), index := u16 p (6 + 4 * i) })

/-- The stored domain of a member; none where the member does not exist or is not enabled. -/
def memberDom (d : Dev) (m : GMember) : Option Nat :=
  let on (e : Bool) (n : Nat) : Option Nat := if e then some n else none
  if m.kind = 0 ∧ m.index < 16 then on (getAes d m.index).cfg.enable (getAes d m.index).cfg.domain
  else if m.kind = 1 ∧ m.index < 16 then on (getAtx d m.index).cfg.enable (getAtx d m.index).cfg.domain
  else if (m.kind = 2 ∨ m.kind = 3) ∧ m.index < 8 then on (getTdm d m.index).cfg.enable (getTdm d m.index).cfg.domain
  else if m.kind = 4 ∧ m.index < 256 then let c := (tabGet d.net.rxFlows m.index).cfg; on c.enable c.domain
  else if m.kind = 5 ∧ m.index < 256 then let c := (tabGet d.net.txFlows m.index).cfg; on c.enable c.domain
  else none

/-- A member's state, encoded as in R314 or R321, or 0xFF for a flow; a transmitter is stopped or running (R333). -/
def memberState (d : Dev) (m : GMember) : Nat :=
  if m.kind = 0 then aesCode (getAes d m.index).state else if m.kind = 1 then b2n ((getAtx d m.index).phase != .off)
  else if m.kind < 4 then tdmCode (getTdm d m.index).state else 255

def groupBody (d : Dev) (g : Nat) (mt : MT) (states : Bool) : List Byte :=
  let x := tabGet d.ports.groups g
  p8 (groupLost x % 256) ++ p8 (groupLost x / 256) ++ zeros 1 ++ p32 mt.toNat ++ (if states then slice (x.members.map (fun m => BitVec.ofNat 8 (memberState d m))) 0 12 else [])

/-- A member joins: one that is not locked takes its reference when it first locks (R328). -/
def memberJoins (d : Dev) (m : GMember) : Dev :=
  if m.kind = 0 then aesMod d m.index (fun r => if r.state = .locked then r else { r with map := { r.map with has := false } })
  else if m.kind = 2 then tdmMod d m.index (fun t => if t.state = .starting ∨ t.state = .running then t else { t with map := { t.map with has := false } })
  else if m.kind = 3 then tdmMod d m.index (fun t => if t.state = .starting ∨ t.state = .running then t else { t with mapT := { t.mapT with has := false } })
  else d

/-- A group takes its members at boundary b; what a member had lost stays with it. -/
def applyGroup : Apply1 := fun d t b =>
  let p := t.req.payload
  let g := u8 p 0
  let old := (tabGet d.ports.groups g).members
  let ms := if u8 p 1 = 0 then (alignMembers p).map (fun m => { m with lost := old.any (fun o => o.kind == m.kind && o.index == m.index && o.lost) }) else []
  let dom := match ms with
    | m :: _ => (memberDom d m).getD 0
    | [] => 0
  let d := portsMod d (fun x => { x with groups := tabSet x.groups g { dom := dom, mt := b.getD 0, members := ms } })
  let d := (ms.filter (fun m => !old.any (fun o => o.kind == m.kind && o.index == m.index))).foldl memberJoins d
  (d, .ok, groupBody d g (b.getD 0) false)

def groupRefuse (d : Dev) (st : Status) : Dev × Ans := ansB d st (zeros 7)

def judgeGroupSet (d : Dev) (t : Taken) (_ : Option (List Byte)) : Dev × Ans :=
  let p := t.req.payload
  let g := u8 p 0
  let ms := alignMembers p
  let doms := ms.map (memberDom d)
  let other (m : GMember) : Bool := match memberGroup d.ports m.kind m.index with
    | some k => k != g
    | none => false
  if !inModes t modes5 then groupRefuse d .badMode
  else if !longEnough t 4 || decide (7 < g) || u8 p 1 != 0 || ms.isEmpty || decide (12 < ms.length) || u8 p 3 != 0 || !longEnough t (4 + 4 * ms.length) ||
      (List.range ms.length).any (fun i => u8 p (5 + 4 * i) != 0) || doms.any (·.isNone) || doms.eraseDups.length != 1 || ms.any other ||
      (ms.map (fun m => (m.kind, m.index))).eraseDups.length != ms.length then groupRefuse d .badArg
  else commitOr d t (((doms.head?).getD none).getD 0) applyGroup

/-- ALIGN_GROUP GET: MAPPING_LOST is cleared by it. -/
def judgeGroupGet (d : Dev) (t : Taken) (_ : Option (List Byte)) : Dev × Ans :=
  let p := t.req.payload
  let g := u8 p 0
  if !longEnough t 2 || decide (7 < g) || u8 p 1 != 1 then bad d
  else
    let x := tabGet d.ports.groups g
    let body := groupBody d g x.mt true
    let d := x.members.foldl (fun d m =>
      let d := memberLost d m.kind m.index false
      if m.kind = 0 then aesMod d m.index (fun r => { r with mappingLost := false })
      else if m.kind = 2 ∨ m.kind = 3 then tdmMod d m.index (fun r => { r with mappingLost := false }) else d) d
    ansB d .ok body

def judgeGroupDissolve (d : Dev) (t : Taken) (_ : Option (List Byte)) : Dev × Ans :=
  let p := t.req.payload
  let g := u8 p 0
  if !inModes t modes5 then groupRefuse d .badMode
  else if !longEnough t 2 || decide (7 < g) || u8 p 1 != 2 then groupRefuse d .badArg
  else commitOr d t (tabGet d.ports.groups g).dom applyGroup

def execAlignGroupSet (r : Req) (s : State) : Host.Outcome State Fault Refusal := reqRow .alignGroup 1 [1, 2] judgeGroupSet r s
def execAlignGroupGet (r : Req) (s : State) : Host.Outcome State Fault Refusal := reqRow .alignGroup 1 [0, 2] judgeGroupGet r s
def execAlignGroupDissolve (r : Req) (s : State) : Host.Outcome State Fault Refusal := reqRow .alignGroup 1 [0, 1] judgeGroupDissolve r s

/-! AES3 receivers (R314–R317, R324, R328). -/

def aesGrouped (d : Dev) (i : Nat) : Bool := (memberGroup d.ports 0 i).isSome

/-- AES3_FRAME_RX.  In SINGLE_RATE the receiver's own count is what the frame's instant is on, and its blocks land by it. -/
def aesTake (d : Dev) (i : Nat) (fr : AesFrame) : Dev :=
  let r := getAes d i
  if !portsRun d || !r.cfg.enable then d else
  let q := aesFrameRx r (aesGrouped d i && !single d) (single d) (if single d then r.map.next else mtOf d r.cfg.domain) fr
  let r' := q.1
  let r' := if single d && r'.outA.next.toNat % 16 == 0 then aesLand r' (aesRate d i) r'.outA.next else r'
  let d := aesMod d i (fun _ => r')
  match q.2 with
  | some (c, k) => evUnderrun d 0 i c k (getAes d i).slips
  | none => d

/-- AES3_RX_LOCKING: 8 consecutive frames. -/
def aesLocking (d : Dev) (i : Nat) : Dev :=
  aesStep d i (fun r => if r.cfg.enable ∧ r.state = .absent ∧ 8 ≤ r.frames then { r with state := .locking, frames := 0, seenZ := false, sinceZ := 0, csA := [], csB := [], usA := [], usB := [] } else r)

/-- AES3_RX_LOCK. -/
def aesLockOn (d : Dev) (i : Nat) : Dev :=
  let s := single d
  aesStep d i (fun r =>
    if r.cfg.enable ∧ r.state = .locking ∧ r.seenZ ∧ aesFreqOk s r.cfg r.eps r.rateHz ∧ (s ∨ 4096 ≤ r.frames) then
      aesLock r (aesGrouped d i && !s) else r)

/-- AES3_RX_CLOCK_FAULT. -/
def aesClockFault (d : Dev) (i : Nat) : Dev :=
  let r := getAes d i
  if (r.state = .locking ∨ r.state = .locked) ∧ !aesFreqOk (single d) r.cfg r.eps r.rateHz then
    let was := r.state = .locked ∧ slipCounts r.gate
    let d := aesStep d i (fun r => { aesFade r .clockFault with clkFault := cInc r.clkFault })
    if was then evUnderrun d 0 i 4 (getAes d i).outA.next (getAes d i).slips else d
  else d

/-- AES3_RX_ABSENT. -/
def aesAbsent (d : Dev) (i : Nat) : Dev := aesStep d i (fun r => if r.state = .absent then { r with frames := 0 } else { aesFade r .absent with seenZ := false })

def execAes3FrameRx (i : Fin 16) (f : AesFrame) (s : State) : Host.Outcome State Fault Refusal := run (fun d => aesTake d i.val f) s
def execAes3RxLocking (i : Fin 16) (s : State) : Host.Outcome State Fault Refusal := run (fun d => aesLocking d i.val) s
def execAes3RxLock (i : Fin 16) (s : State) : Host.Outcome State Fault Refusal := run (fun d => aesLockOn d i.val) s
def execAes3RxClockFault (i : Fin 16) (s : State) : Host.Outcome State Fault Refusal := run (fun d => aesClockFault d i.val) s
def execAes3RxAbsent (i : Fin 16) (s : State) : Host.Outcome State Fault Refusal := run (fun d => aesAbsent d i.val) s

/-! AES3 transmitters (R318). -/

/-- AES3_FRAME_TX: one frame leaves. -/
def aesSend (d : Dev) (i : Nat) : Dev :=
  let t := getAtx d i
  let n := effDom d t.cfg.domain
  let x := getDom d n
  let f := rateOf d n
  if !portsRun d then atxMod d i (fun t => { t with phase := .off, sent := none }) else
  -- a domain that has stopped, or a transmitter disabled and faded, sends 64 frames of zero
  let faded := t.gate.phase = .zero ∨ (t.gate.phase = .fade ∧ (slipFadeLen f : Int) ≤ mtDiff t.next t.gate.t)
  let stop := (x.state == .stopped && x.closing.isNone) || (!t.cfg.enable && (faded || t.phase != .running))
  let t := match t.phase with
    | .running => if stop then { t with phase := .stopping 64 } else t
    | .starting _ => if stop then { t with phase := .stopping 64 } else t
    | _ => t
  if t.phase = .off then atxMod d i (fun _ => { t with sent := none }) else
  let m := t.next
  let a := portSample d n t.chA m
  let b := portSample d n t.chB m
  let under := t.phase == .running && (!srcPublished d (srcNow d t.chA.src) m || !srcPublished d (srcNow d t.chB.src) m)
  let g := if under then slipStart t.gate m t.good else t.gate
  let counts := under && slipCounts t.gate
  let r := aesFrameTx { t with gate := g, good := if under then t.good else [a.1, b.1], slips := if counts then cInc t.slips else t.slips
                               chA := txSettle t.chA m, chB := txSettle t.chB m } i f
    (slipAt g f m 0 a.1, a.2) (slipAt g f m 1 b.1, b.2)
  let d := atxMod d i (fun _ => r.1)
  let d := portsMod d (fun p => { p with clip := tabMod p.clip n (fun w => cAdd w r.2) })
  if counts then evUnderrun d 1 i 2 m (getAtx d i).slips else d

def execAes3FrameTx (i : Fin 16) (s : State) : Host.Outcome State Fault Refusal := run (fun d => aesSend d i.val) s

/-! TDM ports (R320–R322). -/

/-- A port enters STARTING; the masks stored while it did not run are copied at its first frame (R323). -/
def tdmStart (t : Tdm) : Tdm :=
  { t with state := .starting, frames := 0, gate := { phase := .zero }, gateT := { phase := .zero } }

/-- TDM_FRAME. -/
def tdmTake (d : Dev) (n : Nat) (fr : TdmIn) : Dev :=
  let t := getTdm d n
  let dom := effDom d t.cfg.domain
  let x := getDom d dom
  let f := tdmRate d n
  if !portsRun d then tdmMod d n (fun t => { t with dout := [] }) else
  -- a domain STOP: after its fade the port stops
  let d := if x.state == .stopped && x.closing.isNone && (t.state == .starting || t.state == .running) && !tdmInhibit d n then
      tdmStep d n (fun t => { t with state := .stopping, frames := 0, pend := some t.cfg, gate := { phase := .zero }, gateT := { phase := .zero } })
    else d
  let t := getTdm d n
  let tx (s : Nat) (m : MT) : Int × Bool :=
    let c := tabGet t.tx s
    ((portSample d dom c m).1, srcPublished d (srcNow d c.src) m)
  let r := tdmFrame t n f (tdmGrouped d n 2) (tdmGrouped d n 3) (tdmInhibit d n) (tdmKind d n) tx fr
  let t' := { r.1 with tx := r.1.tx.map (fun kv => (kv.1, txSettle kv.2 fr.mt)) }
  let t' := if single d && t'.cfg.target && t'.map.next.toNat % 16 == 0 then tdmLand t' f t'.map.next else t'
  let d := tdmMod d n (fun _ => t')
  let d := portsMod d (fun p => { p with clip := tabMod p.clip dom (fun w => cAdd w r.2.2.2) })
  let d := if r.2.2.1 then answerMask d n else d
  match r.2.1 with
  | some (k, c, m) => evUnderrun d k n c m (getTdm d n).slips
  | none => d

/-- A port has sample instants to lock on: its domain is not STOPPED, or in SINGLE_RATE it runs on its own clock. -/
def tdmRunsOn (d : Dev) (n : Nat) : Bool :=
  (single d && (getTdm d n).cfg.target) || (getDom d (effDom d (getTdm d n).cfg.domain)).state != .stopped

/-- TDM_CLOCK_LOCK. -/
def tdmLock (d : Dev) (n : Nat) : Dev :=
  tdmStep d n (fun t =>
    if t.cfg.enable ∧ t.state = .noClock ∧ 64 ≤ t.frames ∧ tdmRunsOn d n then tdmStart (tdmRefer t (tdmGrouped d n 2) (tdmGrouped d n 3)) else t)

/-- TDM_START_COMPLETE: data from the next boundary, ramping in. -/
def tdmRun (d : Dev) (n : Nat) : Dev :=
  let b := nextMt (if single d && (getTdm d n).cfg.target then (getTdm d n).map.next else mtOf d (effDom d (getTdm d n).cfg.domain))
  let g : SlipGate := { phase := .ramp, t := b }
  tdmStep d n (fun t => if t.state = .starting ∧ 64 ≤ t.frames then { t with state := .running, frames := 0, gate := g, gateT := g } else t)

/-- TDM_STOP_COMPLETE: a pending change is applied, and the port starts again where it is still enabled. -/
def tdmStop (d : Dev) (n : Nat) : Dev :=
  let d := tdmStep d n (fun t =>
    if t.state = .stopping ∧ 64 ≤ t.frames then
      let c := t.pend.getD t.cfg
      let t := { t with cfg := c, pend := none, frames := 0, dout := [] }
      if !c.enable then { t with state := .stopped }
      else if c.target then { t with state := .noClock }
      else if domRuns (getDom d (effDom d c.domain)).state then tdmStart t else { t with state := .stopped }
    else t)
  powerPlan (if single d then singleAssign d else d)

/-- TDM_NO_CLOCK. -/
def tdmNoClock (d : Dev) (n : Nat) : Dev :=
  tdmStep d n (fun t => if t.cfg.target ∧ (t.state = .running ∨ t.state = .clockFault) then { tdmFade t with state := .noClock, frames := 0, dout := [] } else t)

/-- TDM_CLOCK_FAULT. -/
def tdmFault (d : Dev) (n : Nat) : Dev :=
  let t := getTdm d n
  if t.cfg.target ∧ t.state = .running ∧ !epsOk t.eps then
    let counts := slipCounts t.gate || slipCounts t.gateT
    let d := tdmStep d n (fun t => { tdmFade t with state := .clockFault, frames := 0 })
    let k := tdmKind d n
    if counts then evUnderrun d k n 4 (if k = 3 then (getTdm d n).gateT.t else (getTdm d n).gate.t) (getTdm d n).slips else d
  else d

def execTdmFrame (n : Fin 8) (f : TdmIn) (s : State) : Host.Outcome State Fault Refusal := run (fun d => tdmTake d n.val f) s
def execTdmClockLock (n : Fin 8) (s : State) : Host.Outcome State Fault Refusal := run (fun d => tdmLock d n.val) s
def execTdmStartComplete (n : Fin 8) (s : State) : Host.Outcome State Fault Refusal := run (fun d => tdmRun d n.val) s
def execTdmStopComplete (n : Fin 8) (s : State) : Host.Outcome State Fault Refusal := run (fun d => tdmStop d n.val) s
def execTdmNoClock (n : Fin 8) (s : State) : Host.Outcome State Fault Refusal := run (fun d => tdmNoClock d n.val) s
def execTdmClockFault (n : Fin 8) (s : State) : Host.Outcome State Fault Refusal := run (fun d => tdmFault d n.val) s

/-! Recovery (R314, R321, R324, R328). -/

/-- PORT_CLOCK_RECOVERED: kinds of R73, 2 an AES3 receiver, 3 a TDM port; the frequency has been good for 1 s. -/
def portRecover (d : Dev) (kind i : Nat) : Dev :=
  if kind = 2 ∧ i < 16 then
    aesStep d i (fun r => if r.state = .clockFault ∧ aesRate d i ≤ r.frames then aesLock r (aesGrouped d i && !single d) else r)
  else if kind = 3 ∧ i < 8 then
    tdmStep d i (fun t => if t.state = .clockFault ∧ tdmRate d i ≤ t.frames then
      { tdmRefer t (tdmGrouped d i 2) (tdmGrouped d i 3) with
        state := .running, frames := 0, gate := { t.gate with phase := .zero, clean := 0 }, gateT := { t.gateT with phase := .zero, clean := 0 } } else t)
  else d

/-- SLIP_RAMP_IN: kinds of R325; the ramp starts at the boundary that ended the fourth clean block. -/
def slipRamp (d : Dev) (kind i : Nat) : Dev :=
  let b (n : Nat) : MT := mtOf d (effDom d n)
  if kind = 0 ∧ i < 16 then aesMod d i (fun r => { r with gate := slipRampIn r.gate r.landed })
  else if kind = 1 ∧ i < 16 then atxMod d i (fun t => { t with gate := slipRampIn t.gate (b t.cfg.domain) })
  else if kind = 2 ∧ i < 8 then tdmMod d i (fun t => { t with gate := slipRampIn t.gate t.landed })
  else if kind = 3 ∧ i < 8 then tdmMod d i (fun t => { t with gateT := slipRampIn t.gateT t.landed })
  else if kind = 4 ∧ i < 256 then netMod d (fun x => { x with rxFlows := tabMod x.rxFlows i (fun r => { r with gate := slipRampIn r.gate r.landed }) })
  else d

/-- MAPPING_LOST: a grouped member that has failed its reference tests for 1 s recentres. -/
def mappingLost (d : Dev) (kind i : Nat) : Dev :=
  if kind = 0 ∧ i < 16 then
    let r := getAes d i
    if aesGrouped d i && r.state == .locked && decide (aesRate d i ≤ r.miss) then
      let d := memberLost (aesMod d i aesRecenter) 0 i true
      evUnderrun d 0 i 0 r.map.next r.slips
    else d
  else if (kind = 2 ∨ kind = 3) ∧ i < 8 then
    let t := getTdm d i
    if tdmGrouped d i kind && t.cfg.target && t.state == .running && decide (tdmRate d i ≤ (if kind = 2 then t.miss else t.missT)) then
      let d := tdmMod d i (fun t => { (if kind = 2 then tdmReferR t false else tdmReferT t false) with mappingLost := true })
      let d := memberLost d kind i true
      evUnderrun d kind i 0 (if kind = 2 then t.map.next else t.mapT.next) t.slips
    else d
  else d

def execPortClockRecovered (kind index : Nat) (s : State) : Host.Outcome State Fault Refusal := run (fun d => portRecover d kind index) s
def execSlipRampIn (kind index : Nat) (s : State) : Host.Outcome State Fault Refusal := run (fun d => slipRamp d kind index) s
def execMappingLost (kind index : Nat) (s : State) : Host.Outcome State Fault Refusal := run (fun d => mappingLost d kind index) s

/-! A domain's boundary. -/

/-- The blocks of receivers of domain n land; in SINGLE_RATE receivers and target ports run on their own counts. -/
def portsLand (d : Dev) (n : Nat) (b : MT) : Dev :=
  let f := rateOf d n
  let d := (List.range 16).foldl (fun d i =>
    let r := getAes d i
    if single d || r.cfg.domain != n || (!r.cfg.enable && r.gate.phase == .zero) then d else aesMod d i (fun r => aesLand r f b)) d
  (List.range 8).foldl (fun d i =>
    let t := getTdm d i
    if effDom d t.cfg.domain != n || (single d && t.cfg.target) || (t.state == .stopped && t.gate.phase == .zero) then d else tdmMod d i (fun t => tdmLand t f b)) d

/-- Transmitters and master ports of domain n start at boundary b of a running domain (R318, R321), and a transmitter whose
count has fallen out of step with the domain, which a new seed of MT brings about, takes it up. -/
def portsBoundary (d : Dev) (n : Nat) (b : MT) : Dev :=
  let runs := domRuns (getDom d n).state
  let f := rateOf d n
  let d := (List.range 16).foldl (fun d i =>
    let t := getAtx d i
    if effDom d t.cfg.domain != n || !portsRun d then d else
    let t := { t with gate := slipBlock t.gate f b }
    let t := if runs && t.cfg.enable && t.phase == .off then { t with phase := .starting 64, next := b, gate := { phase := .passing } }
      else if runs && t.phase != .off && decide (32 < (mtDiff t.next b).natAbs) then { t with next := b } else t
    if t = getAtx d i then d else atxMod d i (fun _ => t)) d
  (List.range 8).foldl (fun d i =>
    let t := getTdm d i
    if effDom d t.cfg.domain != n || !portsRun d then d
    else if runs && t.cfg.enable && !t.cfg.target && t.state == .stopped then tdmStep d i tdmStart else d) d

end Sys2Proof.Machine
end

