-- ==== Sys2Proof/Machine/NetTx.lean ====
section
/-! DEFINITION. The transmit side of a network port: counters, gates and queues, host frames, stamps and completions; links;
neighbours and groups (R337, R339–R345, R354, R355, R360–R370). -/

namespace Sys2Proof.Machine

/-! Counters (R368–R370). -/

def getRing (d : Dev) (r : Nat) : Ring := tabGet d.net.rings r
def rxFlowMod (d : Dev) (i : Nat) (f : RxFlow → RxFlow) : Dev := netMod d (fun n => { n with rxFlows := tabMod n.rxFlows i f })
def getRx (d : Dev) (i : Nat) : RxFlow := tabGet d.net.rxFlows i
def txFlowMod (d : Dev) (i : Nat) (f : TxFlow → TxFlow) : Dev := netMod d (fun n => { n with txFlows := tabMod n.txFlows i f })
def getTx (d : Dev) (i : Nat) : TxFlow := tabGet d.net.txFlows i

/-- Bit 31 changes from 0 to 1. -/
def halfCross (o v : Word) : Word := if !o.getLsbD 31 && v.getLsbD 31 then 1 else 0

/-- Receive counter i of port p counts n. -/
def nsRx (d : Dev) (p i n : Nat) : Dev :=
  let o := tabGet (getNet d p).rx i
  let v := o + BitVec.ofNat 32 n
  let h := halfCross o v <<< i
  netPortMod d p (fun x => { x with rx := tabSet x.rx i v, halfRx := x.halfRx ||| h, evRx := x.evRx ||| h
                                    evFirst := if h ≠ 0 ∧ x.evFirst.isNone then some (now d) else x.evFirst })

/-- Transmit counter i of port p counts n. -/
def nsTx (d : Dev) (p i n : Nat) : Dev :=
  let o := tabGet (getNet d p).tx i
  let v := o + BitVec.ofNat 32 n
  let h := halfCross o v <<< i
  netPortMod d p (fun x => { x with tx := tabSet x.tx i v, halfTx := x.halfTx ||| h, evTx := x.evTx ||| h
                                    evFirst := if h ≠ 0 ∧ x.evFirst.isNone then some (now d) else x.evFirst })

/-- The size counter of a frame of n bytes with its FCS, as an offset from the 64-byte one. -/
def sizeBin (n : Nat) : Nat :=
  if n ≤ 64 then 0 else if n ≤ 127 then 1 else if n ≤ 255 then 2 else if n ≤ 511 then 3 else if n ≤ 1023 then 4 else if n ≤ 1518 then 5 else 6

/-- Unicast, multicast or broadcast, as an offset from the unicast counter. -/
def castBin (dst : List Byte) : Nat := if dst.all (· == 0xFF) then 2 else if bit (u8 dst 0) 0 then 1 else 0

/-- One frame sent with a good FCS, from its destination address on; what is not given counts as of the least size. -/
def nsSent (d : Dev) (p : Nat) (bs : List Byte) : Dev :=
  let n := max 64 (bs.length + 4)
  nsTx (nsTx (nsTx (nsTx d p 0 1) p 1 n) p (2 + castBin (slice bs 0 6)) 1) p (5 + sizeBin n) 1

/-- A sticky bit of NET_STATUS. -/
def netSticky (d : Dev) (p i : Nat) : Dev := netPortMod d p (fun x => { x with status := x.status ||| BitVec.ofNat 32 (2 ^ i) })

/-- EV_COUNTER_HALF (R369): at most once per millisecond for a port. -/
def counterHalf (d : Dev) (p : Nat) : Dev :=
  let x := getNet d p
  let soon := match x.evLast with
    | some t => decide ((now d - t).toNat < 1000000)
    | none => false
  if (x.evRx == 0 && x.evTx == 0) || soon || !d.hif.ctrlUp then d
  else
    let d := event d 8 (p8 0 ++ p8 p ++ zeros 2 ++ p32 x.evRx.toNat ++ p32 x.evTx.toNat ++ p64 (x.evFirst.getD 0).toNat)
    netPortMod d p (fun x => { x with evRx := 0, evTx := 0, evFirst := none, evLast := some (now d) })

def execEvCounterHalf (port : Fin 4) (s : State) : Host.Outcome State Fault Refusal := run (fun d => counterHalf d port.val) s

/-! Stamps (R341, R342). -/

/-- Ingress and egress corrections of R341 in nanoseconds. -/
def stampTable (c : NetCfg) : Int × Int :=
  if c.speed = 2 then (if c.fec = 0 then (62, 46) else if c.fec = 1 then (144, 87) else (228, 112))
  else if c.fec = 0 then (131, 96) else (334, 198)

def ingressDt (c : NetCfg) (dt : DT) : DT := dt - BitVec.ofInt 64 ((stampTable c).1 + c.rxDelay)
def egressDt (c : NetCfg) (dt : DT) : DT := dt + BitVec.ofInt 64 ((stampTable c).2 + c.txDelay)

/-! Host rings (R360, R362, R364). -/

/-- Bus address of descriptor i of a ring. -/
def ringDesc (r : Ring) (i : Nat) : Nat := r.baseLo.toNat + r.baseHi.toNat * 2 ^ 32 + 32 * (i % max 1 r.size.toNat)

/-- RING_HEAD advances by n: the interrupt of R360; within IRQ_HOLDOFF of the last one it waits. -/
def ringAdvance (d : Dev) (r n : Nat) : Dev :=
  let x := ringMature (now d) (getRing d r)
  let irq := n != 0 && x.ctrl.getLsbD 1
  let free := ringFree (now d) x
  ringMod d r (fun _ =>
    { x with head := x.head + BitVec.ofNat 32 n, irqPend := x.irqPend || (irq && free), irqHeld := x.irqHeld || (irq && !free)
             irqDt := if irq && free then some (now d) else x.irqDt })

/-- Descriptors posted and not completed. -/
def ringPosted (r : Ring) : Nat := if ringRuns r then (r.tail - r.head).toNat else 0

/-- The completion of a transmit frame of n descriptors, written in its first and its last. -/
def txDone (d : Dev) (ring n status : Nat) (stamp : DT) : Dev :=
  let r := getRing d ring
  let h := r.head.toNat
  let body := p16 (status + 1) ++ zeros 6 ++ p64 stamp.toNat
  let d := deposit d (ringDesc r h + 16) body
  let d := if n ≤ 1 then d else deposit d (ringDesc r (h + n - 1) + 16) body
  ringAdvance d ring n

/-! Queues and gates (R343–R345). -/

/-- Nanoseconds that bytes take on the line, rounded up. -/
def lineNs (c : NetCfg) (n : Nat) : Nat := if c.speed = 2 then (n * 8 + 24) / 25 else (n * 8 + 9) / 10

/-- Time of a frame with FCS, preamble and gap; a frame of another protocol counts as one of the least size. -/
def frameNs (c : NetCfg) (f : TxFrame) : Nat :=
  lineNs c (if f.frames.isEmpty then 84 else (f.frames.map (fun b => max 64 (b.length + 4) + 20)).sum)

/-- Nanoseconds from now until the gate of q closes; none where it never does, 0 where it is closed. -/
def gateLeft (g : Option GateList) (ix : Nat) (dt : Nat) (q : Nat) : Option Nat :=
  match g with
  | none => none
  | some g =>
    if g.entries.all (fun e => bit e.1 q) then none
    else
      let upto := ((g.entries.take (ix + 1)).map Prod.snd).sum
      let pos := if g.cycle = 0 then 0 else (((dt : Int) - g.start).emod g.cycle).toNat
      let r := (g.entries.drop (ix + 1) ++ g.entries.take (ix + 1)).foldl (fun (a : Nat × Bool) e =>
        if a.2 then a else if bit e.1 q then (a.1 + e.2, false) else (a.1, true)) (upto - pos, false)
      some (if bit (g.entries.getD ix (0xFF, 0)).1 q then r.1 else 0)

/-- A frame may start: its gate stays open until it is complete. -/
def mayStart (p : NetPort) (dt : Nat) (f : TxFrame) : Bool :=
  match gateLeft p.gates p.gateIx dt f.queue with
  | none => true
  | some n => decide (frameNs p.cfg f ≤ n)

/-- The first frame of queue q taken out of the waiting list. -/
def takeFirst (q : Nat) : List TxFrame → Option (TxFrame × List TxFrame)
  | [] => none
  | f :: t => if f.queue = q then some (f, t) else (takeFirst q t).map (fun r => (r.1, f :: r.2))

/-- The next frame starts where the MAC is idle: the highest queue whose first frame may start. -/
def pump (d : Dev) (p : Nat) : Dev :=
  let x := getNet d p
  if !x.up || x.sending.isSome then d else
  match ([7, 6, 5, 4, 3, 2, 1, 0].filterMap (fun q => (takeFirst q x.queue).bind (fun r => if mayStart x (now d).toNat r.1 then some r else none))).head? with
  | some r => netPortMod d p (fun x => { x with sending := some { r.1 with dt := now d }, queue := r.2 })
  | none => d

/-- A frame waits on a port. -/
def enqueue (d : Dev) (p : Nat) (f : TxFrame) : Dev := pump (netPortMod d p (fun x => { x with queue := x.queue ++ [f] })) p

/-- A frame of a protocol that firmware runs (R339, R343): 0 ARP request, 1 ARP reply, 2 neighbour solicitation, 3 advertisement,
4 echo reply, 5 membership report, 6 leave, 7 heartbeat. -/
def fwFrame (d : Dev) (p proto : Nat) (target : List Byte) : Dev :=
  if (getNet d p).up && d.hif.ctrlUp then enqueue d p { kind := .firmware proto target, queue := 6, dt := now d } else d

/-! What a finished frame leaves. -/

/-- The kind of destination of a protocol's frame: ARP requests are broadcast; solicitations, reports, leaves, heartbeats and PTP
messages go to groups; answers to one station. -/
def protoDst (proto : Nat) : List Byte :=
  if proto = 0 then List.replicate 6 0xFF else if proto = 1 ∨ proto = 3 ∨ proto = 4 then List.replicate 6 0 else [1, 0, 0, 0, 0, 0]

/-- The segments of a ring's request that wait on a port are given up. -/
def dropSegments (d : Dev) (p ring : Nat) : Dev :=
  ringMod (netPortMod d p (fun x => { x with queue := x.queue.filter (fun f => match f.kind with
    | .host r _ _ _ => r != ring
    | _ => true) })) ring (fun r => { r with segStamp := none })

/-- A stamp taken for a frame that asked for it: none where the queue of R342 holds 64. -/
def stampFor (d : Dev) (p : Nat) (dt : DT) : Option DT :=
  if 64 ≤ (getNet d p).tsq.length then none else some (egressDt (getNet d p).cfg dt)

def stampLost (d : Dev) (p : Nat) : Dev := netSticky (nsTx d p 17 1) p 0

/-- A PTP message has been sent (R342, R54): firmware takes the stamp of an event message; it waits in the queue where firmware
does not run. -/
def ptpSent (d : Dev) (p kind seq : Nat) (dt : DT) : Dev :=
  let d := nsTx d p 14 1
  if kind ≠ 1 ∧ kind ≠ 3 then d
  else match stampFor d p dt with
    | none => ptpIgnore (stampLost d p)
    | some t =>
      if !d.hif.ctrlUp then netPortMod d p (fun x => { x with tsq := x.tsq ++ [t] })
      else ptpPortMod d p (fun x =>
        if kind = 1 then (if (x.syncSeq + 65535) % 65536 = seq then { x with syncTx := some t } else x)
        else if x.delaySeq = seq then { x with delayTx := some t } else x)

/-- The lowest leg of a transmit flow that is configured: the one whose frames count packets. -/
def firstLeg (x : TxFlow) : Nat := if (tabGet x.legs 0).set then 0 else 1

/-- TX_FRAME_COMPLETE (R364).  A frame that was waiting on an idle port has started before it completes. -/
def txComplete (d : Dev) (p q : Nat) (dt : DT) : Dev :=
  let d := pump d p
  match (getNet d p).sending with
  | none => d
  | some f =>
    if f.queue ≠ q then d else
    let d := netPortMod (dtTo d dt) p (fun x => { x with sending := none })
    let d := f.frames.foldl (fun d b => netMod (nsSent d p b) (fun n => { n with wire := n.wire ++ [(p, b)] })) d
    let d := match f.kind with
      | .media flow leg _ =>
        let d := nsTx d p 12 1
        txFlowMod d flow (fun x => if leg = firstLeg x then { x with sent := x.sent + 1 } else x)
      | .host ring n ts rest =>
        let d := nsTx d p 15 1
        let r : Dev × Option (Nat × DT) := if !ts then (d, (getRing d ring).segStamp)
          else match stampFor d p dt with
            | some t => (d, some (2, t))
            | none => (stampLost d p, some (4, 0))
        let c := r.2.getD (0, 0)
        if rest ≠ 0 then ringMod r.1 ring (fun x => { x with segStamp := r.2 })
        else txDone (ringMod r.1 ring (fun x => { x with segStamp := none })) ring n c.1 c.2
      | .firmware proto _ => nsSent d p (protoDst proto)
      | .ptp kind seq => ptpSent (nsSent d p (protoDst 5)) p kind seq dt
    pump d p

def execTxFrameComplete (port : Fin 4) (queue : Fin 8) (dt : DT) (s : State) : Host.Outcome State Fault Refusal :=
  run (fun d => txComplete d port.val queue.val dt) s

/-! Host frames (R364–R366). -/

/-- Largest frame of a port without FCS, by whether it is tagged. -/
def frameLimit (c : NetCfg) (tagged : Bool) : Nat := if c.jumbo then 9212 else if tagged then 1518 else 1514

/-- A descriptor that breaks R364 by itself. -/
def descBad (b : List Byte) (first last : Bool) : Bool :=
  decide (63 < u16 b 10) || u16 b 18 != 0 || u16 b 8 == 0 || decide (2048 < u16 b 8) || bit (u8 b 10) 0 != first || (bit (u8 b 10) 1 && !last)

/-- The frame of the descriptors, none where it is BAD_DESC: its segments. -/
def hostFrames (d : Dev) (descs : List TxDesc) : Option (List (List Byte)) :=
  let h := ((descs.head?).map (·.bytes)).getD []
  let data := descs.flatMap (fun x => slice x.data 0 (u16 x.bytes 8))
  let c := (getNet d (u8 h 12)).cfg
  let tagged := be16 data 12 == 0x8100
  let fl := u16 h 10
  let n := descs.length
  if descs.zipIdx.any (fun x => descBad x.1.bytes (x.2 == 0) (x.2 + 1 == n)) || !bit (u16 ((descs.getLast?.map (·.bytes)).getD []) 10) 1 ||
      decide (3 < u8 h 12) || decide (6 < u8 h 13) then none
  else if bit fl 5 then
    (let hdr := u16 h 14
     let mss := u16 h 16
     if mss = 0 ∨ data.length ≤ hdr ∨ 64 * mss < data.length - hdr ∨ frameLimit c tagged < hdr + min mss (data.length - hdr) then none
     else some (segFrames data hdr mss (u32 h 20)))
  else if frameLimit c tagged < data.length then none
  else
    let bs := if bit fl 3 then putIpSum data else data
    some [if bit fl 4 then putL4Sum bs else bs]

/-- A frame of the ring is on its way. -/
def ringBusy (d : Dev) (ring : Nat) : Bool :=
  (List.range 4).any (fun p => ((getNet d p).sending.toList ++ (getNet d p).queue).any (fun f => match f.kind with
    | .host r _ _ _ => r == ring
    | _ => false))

/-- A host frame that underruns (R366). -/
def hostUnderrun (d : Dev) (p ring n : Nat) : Dev :=
  let d := netPortMod d p (fun x => { x with sending := none, thresh := if 9216 < x.thresh then x.thresh else x.thresh + 256 })
  pump (txDone (dropSegments (netSticky (nsTx d p 16 1) p 3) p ring) ring n 8 0) p

/-- HOST_FRAME_START: the descriptors of one frame, or what the ring holds of one that is BAD_DESC. -/
def hostStart (d : Dev) (r : Nat) (descs : List TxDesc) (underrun : Bool) : Dev :=
  let ring := 4 + r
  let x := getRing d ring
  let n := descs.length
  if n = 0 ∨ ringPosted x < n ∨ ringBusy d ring then d else
  let h := ((descs.head?).map (·.bytes)).getD []
  let eop := bit (u16 ((descs.getLast?.map (·.bytes)).getD []) 10) 1
  match (if x.stalled then none else hostFrames d descs) with
  | none => ringMod (txDone d ring n 32 0) ring (fun x => { x with stalled := !eop })
  | some fs =>
    let p := u8 h 12
    let fl := u16 h 10
    if !(getNet d p).up then txDone d ring n 16 0
    else
      let d := fs.zipIdx.foldl (fun d f =>
        enqueue d p { kind := .host ring n (bit fl 2 && f.2 == 0) (fs.length - 1 - f.2), queue := u8 h 13, frames := [f.1], dt := now d }) d
      let mine := match ((getNet d p).sending.map (·.kind)) with
        | some (.host r _ _ _) => r == ring
        | _ => false
      -- the whole frame, or in store-and-forward every frame, has been fetched before it starts
      let t := (getNet d p).thresh
      let len := (descs.map (fun x => u16 x.bytes 8)).sum
      if underrun && mine && decide (t ≤ 9216) && decide (t < len) then hostUnderrun d p ring n else d

def execHostFrameStart (ring : Fin 4) (descs : List TxDesc) (underrun : Bool) (s : State) : Host.Outcome State Fault Refusal :=
  run (fun d => hostStart d ring.val descs underrun) s

/-! Gate lists in force. -/

/-- GATE_CHANGE_TIME (R345): the frame in transmission completes; it overruns where the new list closes its gate first. -/
def gateChange (d : Dev) (p : Nat) : Dev :=
  match (getNet d p).gatePend with
  | none => d
  | some (g, t, asked) =>
    let d := dtTo d (BitVec.ofNat 64 t)
    let ix := match g with
      | some g => gateIxAt g (now d).toNat
      | none => 0
    let ovr := match (getNet d p).sending with
      | some f => (match gateLeft g ix (now d).toNat f.queue with
        | some n => decide ((now d).toNat + n < f.dt.toNat + frameNs (getNet d p).cfg f)
        | none => false)
      | none => false
    let d := netPortMod d p (fun x => { x with gates := g, gateIx := ix, gatePend := none })
    let d := if ovr then netSticky (nsTx d p 19 1) p 2 else d
    pump (reply d asked .ok (zeros 3 ++ p64 t)) p

def execGateChangeTime (port : Fin 4) (s : State) : Host.Outcome State Fault Refusal := run (fun d => gateChange d port.val) s

/-- GATE_INTERVAL_EDGE (R344, R345): the interval that DT has reached, or the next one at its edge. -/
def gateEdge (d : Dev) (p : Nat) : Dev :=
  let x := getNet d p
  match x.gates with
  | none => d
  | some g =>
    let here := gateIxAt g (now d).toNat
    let d := if here ≠ x.gateIx then netPortMod d p (fun x => { x with gateIx := here })
      else
        let pos := if g.cycle = 0 then 0 else (((now d).toNat : Int) - g.start).emod g.cycle |>.toNat
        let left := ((g.entries.take (here + 1)).map Prod.snd).sum - pos
        let d := dtTo d (now d + BitVec.ofNat 64 left)
        netPortMod d p (fun x => { x with gateIx := gateIxAt g (now d).toNat })
    pump d p

def execGateIntervalEdge (port : Fin 4) (s : State) : Host.Outcome State Fault Refusal := run (fun d => gateEdge d port.val) s

/-! Neighbours and groups (R339, R340). -/

/-- The MAC address in use (R338, R519). -/
def portMac (d : Dev) (p : Nat) : List Byte :=
  let m := (getNet d p).cfg.mac
  if m.all (· == 0) then beBytes 6 (Config.factoryMac p).toNat else m

/-- The link-local address of a port: modified EUI-64. -/
def linkLocal (d : Dev) (p : Nat) : List Byte :=
  let m := portMac d p
  [0xFE, 0x80, 0, 0, 0, 0, 0, 0, BitVec.ofNat 8 (u8 m 0 ^^^ 2)] ++ slice m 1 2 ++ [0xFF, 0xFE] ++ slice m 3 3

/-- Addresses agree in their first n bits. -/
def samePrefix (n : Nat) (a b : List Byte) : Bool :=
  beNat a / 2 ^ (8 * a.length - n) == beNat b / 2 ^ (8 * b.length - n)

/-- The next hop of a unicast destination field.  R338 names no IPv6 gateway and R339 ignores router advertisements: an IPv6
destination is reached on the link alone, under the port's prefix or as a link-local address. -/
def nextHop (c : NetCfg) (v6 : Bool) (dst : List Byte) : Option (List Byte) :=
  if v6 then (if samePrefix c.prefix6 dst c.ipv6 || samePrefix 10 dst ([0xFE, 0x80] ++ zeros 14) then some dst else none)
  else if samePrefix c.prefix4 (dst.take 4) c.ipv4 then some (dst.take 4)
  else if c.gateway4.all (· == 0) then none else some c.gateway4

/-- The destination MAC of a leg, where it is known. -/
def legMac (d : Dev) (p : Nat) (v6 : Bool) (l : TxLeg) : Option (List Byte) :=
  if isMcast v6 l.dst then some (mcastMac v6 l.dst)
  else (nextHop (getNet d p).cfg v6 l.dst).bind (fun a => ((getNet d p).neigh.find? (fun n => n.addr == a)).map (·.mac))

/-- Legs of a transmit flow that are resolved, by number. -/
def legResolved (d : Dev) (x : TxFlow) (leg : Nat) : Bool :=
  let l := tabGet x.legs leg
  match (flowPorts x.cfg.ports)[leg]? with
  | some p => l.set && (legMac d p x.cfg.ipv6 l).isSome
  | none => false

/-- An address is asked for once. -/
def askAddr (d : Dev) (p : Nat) (a : List Byte) : Dev :=
  let x := getNet d p
  let fam := if a.length = 4 then x.cfg.ip4 else x.cfg.ip6
  if !fam || !x.up || !d.hif.ctrlUp || x.asking.any (fun k => k.1 == a) then d
  else fwFrame (netPortMod d p (fun x => { x with asking := x.asking ++ [(a, now d)] })) p (if a.length = 4 then 0 else 2) a

/-- Destinations of enabled transmit flows, and gateways, that are not resolved are asked for. -/
def askAll (d : Dev) : Dev :=
  d.net.txFlows.foldl (fun d kv =>
    if !kv.2.cfg.enable then d else
    ((flowPorts kv.2.cfg.ports).zipIdx).foldl (fun d pl =>
      let l := tabGet kv.2.legs pl.2
      if !l.set || legResolved d kv.2 pl.2 then d
      else match nextHop (getNet d pl.1).cfg kv.2.cfg.ipv6 l.dst with
        | some a => askAddr d pl.1 a
        | none => d) d) d

/-- A neighbour answers. -/
def learn (d : Dev) (p : Nat) (a mac : List Byte) : Dev :=
  let x := getNet d p
  if x.asking.any (fun k => k.1 == a) || x.neigh.any (fun n => n.addr == a) then
    netPortMod d p (fun x => { x with asking := x.asking.filter (fun k => k.1 != a)
                                      neigh := x.neigh.filter (fun n => n.addr != a) ++ [{ addr := a, mac := mac, dt := now d }] })
  else d

/-- ARP_RESOLVE_TIMEOUT: the destination stays, or becomes, unresolved. -/
def arpTimeout (d : Dev) (p : Nat) (a : List Byte) : Dev :=
  if (getNet d p).asking.any (fun k => k.1 == a) then
    netPortMod d p (fun x => { x with asking := x.asking.filter (fun k => k.1 != a), neigh := x.neigh.filter (fun n => n.addr != a) })
  else d

/-- ARP_REFRESH: a resolved entry is asked for again. -/
def arpRefresh (d : Dev) (p : Nat) (a : List Byte) : Dev := if (getNet d p).neigh.any (fun n => n.addr == a) then askAddr d p a else d

def execArpResolveTimeout (port : Fin 4) (addr : List Byte) (s : State) : Host.Outcome State Fault Refusal := run (fun d => arpTimeout d port.val addr) s
def execArpRefresh (port : Fin 4) (addr : List Byte) (s : State) : Host.Outcome State Fault Refusal := run (fun d => arpRefresh d port.val addr) s

/-- Groups that the legs of enabled receive flows on a port need. -/
def wantedGroups (d : Dev) (p : Nat) : List (List Byte × List Byte) :=
  (d.net.rxFlows.flatMap (fun kv =>
    if !kv.2.cfg.enable then [] else
    ((flowPorts kv.2.cfg.ports).zipIdx).filterMap (fun pl =>
      let l := tabGet kv.2.legs pl.2
      if pl.1 = p ∧ l.set ∧ isMcast kv.2.cfg.ipv6 l.dst then some (l.dst, l.src) else none))).eraseDups

/-- Joins and leaves of R340: two unsolicited reports of a new membership; a leave of one no longer used. -/
def joinGroups (d : Dev) : Dev :=
  (List.range 4).foldl (fun d p =>
    let want := wantedGroups d p
    let have_ := (getNet d p).members
    let gone := have_.filter (fun m => !want.contains (m.group, m.source))
    let new := want.filter (fun w => !have_.any (fun m => m.group == w.1 && m.source == w.2))
    let d := netPortMod d p (fun x =>
      { x with members := x.members.filter (fun m => want.contains (m.group, m.source)) ++ new.map (fun w => { group := w.1, source := w.2, reports := 2 }) })
    gone.foldl (fun d m => fwFrame d p 6 m.group) d) d

/-- MEMBERSHIP_REPORT: a report that is due goes out. -/
def memberReport (d : Dev) (p : Nat) (g : List Byte) : Dev :=
  let x := getNet d p
  if !d.hif.ctrlUp || !x.up || !(x.members.any (fun m => m.group == g && m.reports != 0)) then d
  else fwFrame (netPortMod d p (fun x => { x with members := x.members.map (fun m => if m.group = g then { m with reports := m.reports - 1 } else m) })) p 5 g

def execMembershipReport (port : Fin 4) (group : List Byte) (s : State) : Host.Outcome State Fault Refusal := run (fun d => memberReport d port.val group) s

/-! Links (R337). -/

/-- EV_FAULT kind 7, with the counter of R337. -/
def linkChanged (d : Dev) (p : Nat) (up : Bool) : Dev := evFault (nsTx d p 20 1) 7 (b2n up) p 0xFF 0 0 0 0

/-- A port leaves UP: the frame being sent is truncated. -/
def linkDown (d : Dev) (p : Nat) (remote : Bool) : Dev :=
  let x := getNet d p
  let d' := netPortMod d p (fun x => { x with up := false, blockLock := x.blockLock && remote, remoteFault := remote, sending := none })
  if !x.up then d' else
  let d := match x.sending with
    | some f =>
      let d := nsTx d' p 18 1
      (match f.kind with
       | .host ring n _ _ => txDone (dropSegments d p ring) ring n 16 0
       | _ => d)
    | none => d'
  let d := linkChanged (netSticky d p 1) p false
  ptpLinks d

/-- Network ports are down in these modes (R337, R477). -/
def netModeDown (m : Mode) : Bool := m == .off || m == .retain || m == .boot || m == .safe || m == .update

/-- A port gains block lock without remote fault. -/
def linkUpOp (d : Dev) (p : Nat) : Dev :=
  let x := getNet d p
  if x.up || x.cfg.speed == 0 || !pdOn d (netPd p) || netModeDown (mode d) then d
  else
    let d := netPortMod d p (fun x => { x with up := true, blockLock := true, remoteFault := false })
    let d := ptpListen (linkChanged d p true)
    let d := if x.cfg.ip6 then fwFrame (fwFrame d p 2 (linkLocal d p)) p 2 x.cfg.ipv6 else d
    pump (askAll d) p

def execLinkUp (port : Fin 4) (s : State) : Host.Outcome State Fault Refusal := run (fun d => linkUpOp d port.val) s
def execLinkDown (port : Fin 4) (remoteFault : Bool) (s : State) : Host.Outcome State Fault Refusal := run (fun d => linkDown d port.val remoteFault) s

end Sys2Proof.Machine
end

