-- ==== Sys2Proof/Machine/NetReq.lean ====
section
/-! DEFINITION. NET_PORT_CFG, FLOW_RX_CFG, FLOW_TX_CFG, FLOW_STATE and GATE_LIST, and what a boundary does with flows
(R338, R345–R359, R361, R387). -/

namespace Sys2Proof.Machine

/-! NET_PORT_CFG (R338, R361). -/

def netCfgOf (p : List Byte) : NetCfg :=
  { speed := u8 p 2, fec := u8 p 3, jumbo := bit (u8 p 4) 0, ip4 := bit (u8 p 4) 1, ip6 := bit (u8 p 4) 2, icmp := bit (u8 p 4) 3
    prefix4 := u8 p 5, prefix6 := u8 p 6, mac := slice p 8 6, ipv4 := slice p 16 4, gateway4 := slice p 20 4, ipv6 := slice p 24 16
    rxDelay := i16 p 40, txDelay := i16 p 42 }

def netCfgBad (p : List Byte) : Bool :=
  decide (2 < u8 p 2) || decide (2 < u8 p 3) || (u8 p 3 == 2 && u8 p 2 == 1) || decide (15 < u8 p 4) || decide (32 < u8 p 5) || decide (128 < u8 p 6) ||
    u8 p 7 != 0 || bit (u8 p 8) 0 || u16 p 14 != 0


def jumboPorts (d : Dev) (code : Nat) : Bool := (flowPorts code).all (fun p => (getNet d p).cfg.jumbo)

/-- An enabled audio flow on port p has more channels than a frame without jumbo carries. -/
def needsJumbo (d : Dev) (p : Nat) : Bool :=
  let ovr (code ptime dom ch : Nat) (l24 : Bool) : Bool :=
    (flowPorts code).contains p && decide (chanLimit (packetSamples ptime (flowRate d dom)) l24 false < ch)
  d.net.rxFlows.any (fun kv => let c := kv.2.cfg; c.enable && !c.metadata && ovr c.ports c.ptime c.domain c.channels c.l24) ||
    d.net.txFlows.any (fun kv => let c := kv.2.cfg; c.enable && ovr c.ports c.ptime c.domain c.channels c.l24)

def judgeNetSet (d : Dev) (t : Taken) (_ : Option (List Byte)) : Dev × Ans :=
  let p := t.req.payload
  let n := u8 p 0
  let c := netCfgOf p
  let o := (getNet d n).cfg
  if !inModes t modes5 then ans d .badMode
  else if !longEnough t 44 || decide (3 < n) || u8 p 1 != 0 || netCfgBad p then bad d
  else if o.jumbo && !c.jumbo && needsJumbo d n then ans d .busy
  else
    let d := if o.speed ≠ c.speed ∨ o.fec ≠ c.fec then linkDown d n false else d
    let d := powerPlan (netPortMod d n (fun x => { x with cfg := c, thresh := 512 }))
    let d := if c.ip6 && !o.ip6 then fwFrame (fwFrame d n 2 (linkLocal d n)) n 2 c.ipv6 else d
    let d := askAll d
    if c.speed != 0 && !pdOn d (netPd n) then (d, .wait (.powerOn (netPd n) [])) else (d, .now .ok [])

def judgeNetGet (d : Dev) (t : Taken) (_ : Option (List Byte)) : Dev × Ans :=
  let p := t.req.payload
  let n := u8 p 0
  if !longEnough t 2 || decide (3 < n) || u8 p 1 != 1 then bad d
  else
    let x := getNet d n
    let c := x.cfg
    ansB d .ok (p8 (b2n x.up) ++ p8 c.speed ++ p8 c.fec ++ p8 (b2n c.jumbo + 2 * b2n c.ip4 + 4 * b2n c.ip6 + 8 * b2n c.icmp) ++ zeros 3 ++ portMac d n ++
      p16 x.tsq.length ++ p32 x.thresh ++ p32 (tabGet x.tx 20).toNat)

def filterOf (p : List Byte) : Filter :=
  let f := u8 p 3
  { ports := u8 p 0, enable := bit f 0, byMac := bit f 1, byEtype := bit f 2, byProto := bit f 3, byUdp := bit f 4, drop := bit f 5, ring := u8 p 4
    proto := u8 p 5, etype := u16 p 6, mac := slice p 8 6, udp := u16 p 14 }

def judgeNetFilter (d : Dev) (t : Taken) (_ : Option (List Byte)) : Dev × Ans :=
  let p := t.req.payload
  if !inModes t modes5 then ans d .badMode
  else if !longEnough t 16 || decide (15 < u8 p 0) || u8 p 1 != 2 || decide (15 < u8 p 2) || decide (63 < u8 p 3) || decide (3 < u8 p 4) then bad d
  else (netMod d (fun n => { n with filters := tabSet n.filters (u8 p 2) (filterOf p) }), .now .ok [])

def execNetPortCfgSet (r : Req) (s : State) : Host.Outcome State Fault Refusal := reqRow .netPortCfg 1 [1, 2] judgeNetSet r s
def execNetPortCfgGet (r : Req) (s : State) : Host.Outcome State Fault Refusal := reqRow .netPortCfg 1 [0, 2] judgeNetGet r s
def execNetPortCfgFilter (r : Req) (s : State) : Host.Outcome State Fault Refusal := reqRow .netPortCfg 1 [0, 1] judgeNetFilter r s

/-! Receive flows (R356, R358). -/

def flowRefuse (d : Dev) (st : Status) : Dev × Ans := ansB d st (mtBody none)

/-- SET fields; a session before 3.2 sends 20 bytes (R432). -/
def rxCfgOf (p : List Byte) : RxFlowCfg :=
  { enable := bit (u8 p 3) 0, metadata := bit (u8 p 3) 1, ipv6 := bit (u8 p 3) 2, ssrcFilter := bit (u8 p 3) 3, ptCheck := bit (u8 p 3) 4
    domain := u8 p 4, ports := u8 p 5, l24 := u8 p 6 == 1, channels := u8 p 7, ptime := u8 p 8, pt := u8 p 9, depth := u16 p 10
    ssrc := BitVec.ofNat 32 (u32 p 12), offset := i32 p 16, objBase := u16 p 20, objCount := u16 p 22, scale := u32 p 24, itemType := BitVec.ofNat 32 (u32 p 28) }

/-- A field out of range, or more channels than a packet carries (R347). -/
def rxCfgBad (d : Dev) (p : List Byte) (old : Bool) : Bool :=
  let c := rxCfgOf p
  let f := flowRate d c.domain
  let s := packetSamples c.ptime f
  decide (255 < u16 p 0) || decide (31 < u8 p 3) || (old && c.metadata) || decide (2 < c.domain) || decide (5 < c.ports) || decide (c.pt < 96) || decide (127 < c.pt) ||
    (if c.metadata then c.objCount == 0 || decide (1024 < c.objCount) || decide (nObjects < c.objBase + c.objCount)
     else decide (1 < u8 p 6) || decide (4 < c.ptime) || c.channels == 0 || decide (chanLimit s c.l24 (jumboPorts d c.ports) < c.channels) ||
       decide (c.depth < s) || decide (rne (f : Int) 50 < (c.depth : Int)))

/-- What identifies the packets of a leg (R349). -/
def legKeys (c : RxFlowCfg) (legs : Tab RxLeg) : List (Nat × List Byte × Nat × List Byte) :=
  ((flowPorts c.ports).zipIdx).filterMap (fun pl => let l := tabGet legs pl.2; if l.set then some (pl.1, l.dst, l.udp, l.src) else none)

/-- Two enabled legs would have the same match, with flow i as given. -/
def legClash (d : Dev) (i : Nat) (c : RxFlowCfg) (legs : Tab RxLeg) : Bool :=
  let ks := legKeys c legs ++ d.net.rxFlows.flatMap (fun kv => if kv.1 = i ∨ !kv.2.cfg.enable then [] else legKeys kv.2.cfg kv.2.legs)
  ks.eraseDups.length != ks.length

/-- R38, R350 and the number of metadata flows of R356, with flow i as given. -/
def rxFits (d : Dev) (i : Nat) (c : RxFlowCfg) : Bool :=
  let cs := c :: (d.net.rxFlows.filter (fun kv => kv.1 != i && kv.2.cfg.enable)).map (fun kv => kv.2.cfg)
  let audio := cs.filter (fun c => !c.metadata)
  decide ((audio.map (·.channels)).sum ≤ 1024) && decide ((audio.map (fun c => c.channels * c.depth * flowRate d c.domain)).sum ≤ 983040 * 48000) &&
    decide ((cs.filter (·.metadata)).length ≤ 16)

/-- FT or MT at the last landing close of a flow of domain n. -/
def flowLanding (d : Dev) (n : Nat) : MT :=
  if single d then (let k := (ftAt (now d) (flowRate d n)).1; k - BitVec.ofNat 32 (k.toNat % 16)) else mtOf d n

/-- The channel buffers go on with one block faded to zero (R32, R358). -/
def fadeOut (x : RxFlow) : Tab Line :=
  x.out.map (fun kv => (kv.1, linePush 512 kv.2 x.landed ((List.range 16).map (fun j =>
    let k := x.landed + BitVec.ofNat 32 j
    (mulGain (lineSample kv.2 (k - 16)) (fadeAt x.landed k)).1))))

/-- A flow with nothing received. -/
def rxWait (x : RxFlow) (fade : Bool) : RxFlow :=
  { x with out := if fade && x.receiving then fadeOut x else x.out, ring := [], receiving := false, gate := { phase := .passing }, good := [], adm := none, dark := false }

/-- SET in force. -/
def rxSet (d : Dev) (i : Nat) (c : RxFlowCfg) (fade : Bool) : Dev :=
  let d := rxFlowMod d i (fun x =>
    let o := x.cfg
    let same := o.enable && c.enable && o.l24 == c.l24 && o.channels == c.channels && o.ptime == c.ptime && o.depth == c.depth && o.offset == c.offset &&
      o.metadata == c.metadata
    if same then
      (if o.ports = c.ports ∧ o.ipv6 = c.ipv6 then { x with cfg := c }
       else { x with cfg := c, legs := x.legs.map (fun kv => (kv.1, { kv.2 with up := false, seq := none })) })
    else
      let x := rxWait x fade
      { x with
        cfg := c, landed := if o.enable then x.landed else flowLanding d c.domain
        legs := if c.enable then x.legs else x.legs.map (fun kv => (kv.1, { kv.2 with up := false, seq := none })) })
  joinGroups (if single d then singleAssign d else d)

/-- A leg set: it leaves and joins groups, and is DOWN until a packet matches. -/
def rxLeg (d : Dev) (i leg : Nat) (p : List Byte) : Dev :=
  joinGroups (rxFlowMod d i (fun x => { x with legs := tabMod x.legs leg (fun l =>
    { l with set := true, udp := u16 p 4, dst := slice p 8 16, src := slice p 24 16, up := false, seq := none }) }))

/-- FLOW_RX_CFG takes effect at boundary b, or at once; the limits are judged again there. -/
def applyFlowRx : Apply1 := fun d t b =>
  let p := t.req.payload
  let i := u16 p 0
  if u8 p 2 = 1 then
    (let x := getRx d i
     let legs := tabMod x.legs (u8 p 3) (fun l => { l with set := true, udp := u16 p 4, dst := slice p 8 16, src := slice p 24 16 })
     if x.cfg.enable && legClash d i x.cfg legs then (d, .badArg, mtBody none) else (rxLeg d i (u8 p 3) p, .ok, mtBody b))
  else
    let c := rxCfgOf p
    if c.enable && legClash d i c (getRx d i).legs then (d, .badArg, mtBody none)
    else if c.enable && !rxFits d i c then (d, .noResource, mtBody none)
    else (rxSet d i c b.isSome, .ok, mtBody b)

def judgeFlowRxSet (d : Dev) (t : Taken) (_ : Option (List Byte)) : Dev × Ans :=
  let p := t.req.payload
  let old := decide (verOf t.major t.minor < 2)
  let i := u16 p 0
  let c := rxCfgOf p
  let x := (getRx d i).cfg
  if !inModes t modes5 then flowRefuse d .badMode
  else if !longEnough t (if old then 20 else 32) || u8 p 2 != 0 || rxCfgBad d p old then flowRefuse d .badArg
  else if x.enable && x.domain != c.domain then flowRefuse d .busy
  else if c.enable && legClash d i c (getRx d i).legs then flowRefuse d .badArg
  else if c.enable && !rxFits d i c then flowRefuse d .noResource
  else commitOr d t c.domain applyFlowRx

def judgeFlowRxLeg (d : Dev) (t : Taken) (_ : Option (List Byte)) : Dev × Ans :=
  let p := t.req.payload
  let i := u16 p 0
  let x := getRx d i
  if !inModes t modes5 then flowRefuse d .badMode
  else if !longEnough t 40 || decide (255 < i) || u8 p 2 != 1 || decide (1 < u8 p 3) || u16 p 6 != 0 then flowRefuse d .badArg
  else if x.cfg.enable && legClash d i x.cfg (tabMod x.legs (u8 p 3) (fun l => { l with set := true, udp := u16 p 4, dst := slice p 8 16, src := slice p 24 16 })) then
    flowRefuse d .badArg
  else commitOr d t x.cfg.domain applyFlowRx

def execFlowRxCfgSet (r : Req) (s : State) : Host.Outcome State Fault Refusal := reqRow .flowRxCfg 2 [1] judgeFlowRxSet r s
def execFlowRxCfgLeg (r : Req) (s : State) : Host.Outcome State Fault Refusal := reqRow .flowRxCfg 2 [0] judgeFlowRxLeg r s

/-! Transmit flows (R357, R358). -/

def txCfgOf (p : List Byte) : TxFlowCfg :=
  { enable := bit (u8 p 3) 0, ipv6 := bit (u8 p 3) 1, dither := bit (u8 p 3) 2, vlan := bit (u8 p 3) 3, udpZero := bit (u8 p 3) 4, domain := u8 p 4
    ports := u8 p 5, l24 := u8 p 6 == 1, channels := u8 p 7, ptime := u8 p 8, pt := u8 p 9, queue := u8 p 10, dscp := u8 p 11
    ssrc := BitVec.ofNat 32 (u32 p 12), ttl := u8 p 16, tci := u16 p 18 }

def txCfgBad (d : Dev) (p : List Byte) : Bool :=
  let c := txCfgOf p
  let s := packetSamples c.ptime (flowRate d c.domain)
  decide (255 < u16 p 0) || decide (31 < u8 p 3) || decide (2 < c.domain) || decide (5 < c.ports) || decide (1 < u8 p 6) || decide (4 < c.ptime) || c.channels == 0 ||
    decide (chanLimit s c.l24 (jumboPorts d c.ports) < c.channels) || decide (c.pt < 96) || decide (127 < c.pt) || decide (6 < c.queue) || decide (63 < c.dscp) ||
    c.ttl == 0 || u8 p 17 != 0

/-- FLOW_TX_CFG takes effect at boundary b, or at once. -/
def applyFlowTx : Apply1 := fun d t b =>
  let p := t.req.payload
  let i := u16 p 0
  let d :=
    if u8 p 2 = 0 then askAll (txFlowMod d i (fun x => { x with cfg := txCfgOf p }))
    else if u8 p 2 = 1 then askAll (txFlowMod d i (fun x => { x with legs := tabMod x.legs (u8 p 3) (fun _ =>
      { set := true, srcUdp := u16 p 4, dstUdp := u16 p 6, dst := slice p 8 16 }) }))
    else txFlowMod d i (fun x => { x with chans := (List.range (u8 p 4)).foldl (fun cs j =>
      tabMod cs (u8 p 3 + j) (fun c => txChanSet c (srcEntry p (8 + 4 * j)) b)) x.chans })
  (d, .ok, mtBody b)

def judgeFlowTxSet (d : Dev) (t : Taken) (_ : Option (List Byte)) : Dev × Ans :=
  let p := t.req.payload
  let x := (getTx d (u16 p 0)).cfg
  if !inModes t modes5 then flowRefuse d .badMode
  else if !longEnough t 20 || u8 p 2 != 0 || txCfgBad d p then flowRefuse d .badArg
  else if x.enable && x.domain != u8 p 4 then flowRefuse d .busy
  else commitOr d t (u8 p 4) applyFlowTx

def judgeFlowTxLeg (d : Dev) (t : Taken) (_ : Option (List Byte)) : Dev × Ans :=
  let p := t.req.payload
  if !inModes t modes5 then flowRefuse d .badMode
  else if !longEnough t 24 || decide (255 < u16 p 0) || u8 p 2 != 1 || decide (1 < u8 p 3) then flowRefuse d .badArg
  else commitOr d t (getTx d (u16 p 0)).cfg.domain applyFlowTx

def judgeFlowTxSource (d : Dev) (t : Taken) (_ : Option (List Byte)) : Dev × Ans :=
  let p := t.req.payload
  let n := u8 p 4
  let dom := (getTx d (u16 p 0)).cfg.domain
  let ss := (List.range n).map (fun j => srcEntry p (8 + 4 * j))
  if !inModes t modes5 then flowRefuse d .badMode
  else if !longEnough t 8 || decide (255 < u16 p 0) || u8 p 2 != 2 || n == 0 || decide (12 < n) || decide (64 < u8 p 3 + n) || !isZero p 5 3 ||
      !longEnough t (8 + 4 * n) || ss.any (fun s => !srcFits d dom s) then flowRefuse d .badArg
  else if mode d == .twin && ss.any (fun s => s.kind == 7) then flowRefuse d .denied
  else commitOr d t dom applyFlowTx

def execFlowTxCfgSet (r : Req) (s : State) : Host.Outcome State Fault Refusal := reqRow .flowTxCfg 2 [1, 2] judgeFlowTxSet r s
def execFlowTxCfgLeg (r : Req) (s : State) : Host.Outcome State Fault Refusal := reqRow .flowTxCfg 2 [0, 2] judgeFlowTxLeg r s
def execFlowTxCfgSource (r : Req) (s : State) : Host.Outcome State Fault Refusal := reqRow .flowTxCfg 2 [0, 1] judgeFlowTxSource r s

/-! When a transmit flow is sent (R358, R387, R477). -/

/-- A flow at another rate is not sent in SINGLE_RATE. -/
def txInhibited (d : Dev) (c : TxFlowCfg) : Bool := single d && storedRate d c.domain != 48000

/-- The flow's domain renders in a mode whose outputs are rendered. -/
def txRuns (d : Dev) (c : TxFlowCfg) : Bool := c.enable && !txInhibited d c && domEmits d (effDom d c.domain)

/-- The device sends a leg (R387): on a pair, by the policy and the pair's states. -/
def twinSends (d : Dev) (leg : Nat) : Bool :=
  if mode d != .twin || !d.twin.cfg.enable then true
  else
    let own := d.twin.cfg.both || leg == d.twin.cfg.txLeg
    match d.twin.state with
    | .leader => own || !(d.twin.partner == 6 && d.twin.partnerStart.isNone)
    | .leaderSolo => true
    | .synced => own && d.twin.txStart.isNone
    | _ => false

/-! FLOW_STATE (R359). -/

def rxView (x : RxFlow) (mt : MT) : List Byte :=
  let l0 := tabGet x.legs 0
  let l1 := tabGet x.legs 1
  let c := x.cfg
  p8 (if !c.enable then 0 else if x.receiving then 2 else 1) ++
    p8 (2 * b2n x.ssrcChanged + 8 * b2n c.metadata) ++
    p8 (b2n l0.up + 2 * b2n l1.up) ++ p32 mt.toNat ++ p32 l0.count.toNat ++ p32 l1.count.toNat ++ p32 (l0.gaps + l1.gaps).toNat ++ p32 x.late.toNat ++
    p32 x.early.toNat ++ p32 x.mismatch.toNat ++ p32 x.reconciled.toNat ++ p32 x.slips.toNat ++
    (if c.metadata then p32 x.admErr.toNat ++ p32 x.admIgnored.toNat ++ p32 x.admRange.toNat ++ p32 x.admClamp.toNat else zeros 16)

def txView (d : Dev) (x : TxFlow) (mt : MT) : List Byte :=
  let c := x.cfg
  let n := (flowPorts c.ports).length
  let res := (List.range n).filter (legResolved d x)
  p8 (if !c.enable then 0 else if txInhibited d c then 3 else if txRuns d c && res.any (twinSends d) then 2 else 1) ++
    p8 (b2n (c.enable && txInhibited d c) + 4 * b2n (decide (res.length < n))) ++ p8 (res.foldl (fun a l => a + 2 ^ l) 0) ++ p32 mt.toNat ++
    p32 x.sent.toNat ++ p32 x.drops.toNat ++ zeros 20 ++ p32 x.evs.toNat ++ zeros 16

/-- FLOW_STATE: as at the last boundary of the flow's domain; as it stands where the domain has none. -/
def judgeFlowState (d : Dev) (t : Taken) (_ : Option (List Byte)) : Dev × Ans :=
  let p := t.req.payload
  let i := u16 p 0
  if !longEnough t 3 || decide (255 < i) || decide (1 < u8 p 2) then bad d
  else if u8 p 2 = 0 then
    let x := getRx d i
    let n := effDom d x.cfg.domain
    let body := if x.view.isEmpty || !mtRuns (getDom d n) then rxView x (mtOf d n) else x.view
    let clear (v : List Byte) : List Byte := if v.isEmpty then v else patch v 1 [v.getD 1 0 &&& 0xFD]
    ansB (rxFlowMod d i (fun x => { x with ssrcChanged := false, view := clear x.view })) .ok body
  else
    let x := getTx d i
    let n := effDom d x.cfg.domain
    ansB d .ok (if x.view.isEmpty || !mtRuns (getDom d n) then txView d x (mtOf d n) else x.view)

def execFlowState (r : Req) (s : State) : Host.Outcome State Fault Refusal := reqRow1 .flowState judgeFlowState r s

/-! GATE_LIST (R345). -/

/-- The change time of a list taken at dt. -/
def changeTime (dt base cycle : Nat) : Nat :=
  if dt + 20000 ≤ base then base else base + (dt + 20000 - base + cycle - 1) / cycle * cycle

/-- A change waits for its time; an earlier one of the port is replaced, and its request answered CANCELLED. -/
def pendGate (d : Dev) (p : Nat) (g : Option GateList) (t : Nat) (asked : Taken) : Dev :=
  let d := match (getNet d p).gatePend with
    | some w => reply d w.2.2 .cancelled []
    | none => d
  netPortMod d p (fun x => { x with gatePend := some (g, t, asked) })

def gateRefuse (d : Dev) (st : Status) : Dev × Ans := ansB d st (zeros 11)

/-- The checks that SET and CLEAR share; none where they pass. -/
def gateBad (t : Taken) (action : Nat) : Option Status :=
  let p := t.req.payload
  if !inModes t modes5 then some .badMode
  else if !longEnough t 32 || !t.req.bulk || decide (3 < u8 p 16) || u8 p 17 != action || decide (u32 p 28 < 1000) || decide (1000000000 < u32 p 28) then some .badArg
  else none

def judgeGateSet (d : Dev) (t : Taken) (bulk : Option (List Byte)) : Dev × Ans :=
  let p := t.req.payload
  let n := u16 p 18
  match gateBad t 0 with
  | some st => gateRefuse d st
  | none =>
    if n = 0 ∨ 256 < n then gateRefuse d .badArg
    else match bulk with
      | none => needFetch d t 0
      | some bs =>
        let es := (List.range n).map (fun i => (u8 bs (8 * i), u32 bs (8 * i + 4)))
        if bs.length ≠ 8 * n ∨ (List.range n).any (fun i => !isZero bs (8 * i + 1) 3) ∨ es.any (fun e => decide (e.2 < 32)) ∨ (es.map Prod.snd).sum ≠ u32 p 28 then
          gateRefuse d .badArg
        else
          let ct := changeTime (now d).toNat (u64 p 20) (u32 p 28)
          (pendGate d (u8 p 16) (some { start := ct, cycle := u32 p 28, entries := es }) ct t, .done)

/-- CLEAR reads no entries. -/
def judgeGateClear (d : Dev) (t : Taken) (_ : Option (List Byte)) : Dev × Ans :=
  let p := t.req.payload
  match gateBad t 1 with
  | some st => gateRefuse d st
  | none => (pendGate d (u8 p 16) none (changeTime (now d).toNat (u64 p 20) (u32 p 28)) t, .done)

def execGateListSet (r : Req) (s : State) : Host.Outcome State Fault Refusal := reqRow .gateList 17 [1] judgeGateSet r s
def execGateListClear (r : Req) (s : State) : Host.Outcome State Fault Refusal := reqRow .gateList 17 [0] judgeGateClear r s

/-! A domain's boundary. -/

/-- One flow's block [b − 16, b) lands (R350, R352, R324): the flow, the first position of an underrun that counts. -/
def rxLand (x : RxFlow) (f : Nat) (b : MT) : RxFlow × Option MT :=
  let w := if x.cfg.l24 then 24 else 16
  let pos := (List.range 16).map (fun j => b - 16 + BitVec.ofNat 32 j)
  let vals := pos.map (fun k => (k, (x.ring.find? (fun e => e.1 == k)).map (fun e => e.2.map (fun v => wordIn (wrapNat 32 v) w))))
  let started := pos.filter (fun k => decide (0 ≤ mtDiff k x.first))
  let anyUp := (tabGet x.legs 0).up || (tabGet x.legs 1).up
  let miss := (vals.find? (fun v => v.2.isNone && decide (0 ≤ mtDiff v.1 x.first))).map Prod.fst
  let step (a : SlipGate × List Int) (v : MT × Option (List Int)) : SlipGate × List Int :=
    match v.2 with
    | some xs => (a.1, if a.1.phase = .passing ∨ a.1.phase = .ramp then xs else a.2)
    | none => if mtDiff v.1 x.first < 0 then a else (slipStart a.1 v.1 a.2, a.2)
  let r := vals.foldl step (x.gate, x.good)
  let out := (List.range x.cfg.channels).foldl (fun tb c =>
    tabMod tb c (fun l => linePush 512 l (b - 16) (vals.map (fun v =>
      -- before the flow's first position the block holds what a fade has left there (R358)
      if mtDiff v.1 x.first < 0 then (lineGet l v.1).getD 0 else slipAt r.1 f v.1 c ((v.2.getD []).getD c 0))))) x.out
  let counts := miss.isSome && slipCounts x.gate && !x.dark
  ({ x with
      out := out, gate := slipLand r.1 f b (miss.isNone && decide (started.length = 16)), good := r.2, landed := b
      ring := x.ring.filter (fun e => decide (0 ≤ mtDiff e.1 b)), dark := x.dark || (miss.isSome && !anyUp)
      slips := if counts then x.slips + 1 else x.slips }, if counts then miss else none)

/-- A flow's landing closes up to its timebase's boundary b. -/
def flowLand (d : Dev) (i : Nat) (b : MT) : Dev :=
  let x := getRx d i
  if !x.receiving || x.cfg.metadata then rxFlowMod d i (fun x => { x with landed := b })
  else
    let r := rxLand x (flowRate d x.cfg.domain) b
    let d := rxFlowMod d i (fun _ => r.1)
    match r.2 with
    | some k => evUnderrun d 4 i 2 k r.1.slips
    | none => d

/-- Landing closes of the flows of domain n at boundary b; in SINGLE_RATE those of each flow timebase that D0's boundary has
passed (R78). -/
def flowsLand (d : Dev) (n : Nat) (b : MT) : Dev :=
  d.net.rxFlows.foldl (fun d kv =>
    if !kv.2.cfg.enable || effDom d kv.2.cfg.domain != n then d
    else if single d then
      (let b' := flowLanding d kv.2.cfg.domain
       let x := getRx d kv.1
       let k := (mtDiff b' x.landed).toNat / 16
       if k = 0 ∨ 64 < k then rxFlowMod d kv.1 (fun x => { x with landed := b' })
       else (List.range k).foldl (fun d j => flowLand d kv.1 (x.landed + BitVec.ofNat 32 (16 * (j + 1)))) d)
    else flowLand d kv.1 b) d

/-- FLOW_STATE as at boundary b of domain n. -/
def flowsView (d : Dev) (n : Nat) (b : MT) : Dev :=
  netMod d (fun x => { x with
    rxFlows := x.rxFlows.map (fun kv => if effDom d kv.2.cfg.domain = n then (kv.1, { kv.2 with view := rxView kv.2 b }) else kv)
    txFlows := x.txFlows.map (fun kv => if effDom d kv.2.cfg.domain = n then (kv.1, { kv.2 with view := txView d kv.2 b }) else kv) })

/-- LEG_DOWN (R349, R352): a flow whose last leg goes down counts one underrun unless its fault is already under way. -/
def legDown (d : Dev) (i leg : Nat) : Dev :=
  let x := getRx d i
  if !(tabGet x.legs leg).up then d else
  let d := rxFlowMod d i (fun x => { x with legs := tabMod x.legs leg (fun l => { l with up := false }) })
  let x := getRx d i
  if (tabGet x.legs 0).up || (tabGet x.legs 1).up || !x.receiving || x.dark then d
  else if slipCounts x.gate then
    let d := rxFlowMod d i (fun x => { x with dark := true, gate := slipStart x.gate x.landed x.good, slips := x.slips + 1 })
    evUnderrun d 4 i 2 x.landed (getRx d i).slips
  else rxFlowMod d i (fun x => { x with dark := true })

def execLegDown (flow : Fin 256) (leg : Fin 2) (s : State) : Host.Outcome State Fault Refusal := run (fun d => legDown d flow.val leg.val) s

/-! Packets sent (R354, R355). -/

/-- The payload of a packet from U on: channel words in sample order, and the words clipped. -/
def txPayload (d : Dev) (i : Nat) (x : TxFlow) (u : MT) (s : Nat) : List Byte × Nat :=
  let w := 8 * wordBytes x.cfg.l24
  let n := effDom d x.cfg.domain
  let ws := (List.range s).flatMap (fun j => (List.range x.cfg.channels).map (fun c =>
    let m := u + BitVec.ofNat 32 j
    wordOut (mulGain (txSample d (tabGet x.chans c) m).1 (muteGain d 0 n m)).1 w x.cfg.dither m (288 + 64 * i + c)))
  (ws.flatMap (fun v => beBytes (w / 8) v.1), (ws.map Prod.snd).sum)

/-- TX_PACKET_QUEUE: the packet of emission MT first on is queued on every leg that is sent. -/
def txPacket (d : Dev) (i : Nat) (first : MT) : Dev :=
  let x := getTx d i
  let c := x.cfg
  let n := effDom d c.domain
  let f := rateOf d n
  let s := packetSamples c.ptime f
  let u := (unwrapMt (now d) f first).toNat
  if !txRuns d c || s == 0 || u % max 1 s != 0 then d else
  let pl := txPayload d i x first s
  let seq := u / s % 65536
  let d := portsMod d (fun p => { p with clip := tabMod p.clip n (fun w => cAdd w pl.2) })
  let d := ((flowPorts c.ports).zipIdx).foldl (fun d pleg =>
    let l := tabGet x.legs pleg.2
    let p := pleg.1
    if !l.set || !(getNet d p).up || !twinSends d pleg.2 then d
    else match legMac d p c.ipv6 l with
      | none => d
      | some mac =>
        let src := if c.ipv6 then (getNet d p).cfg.ipv6 else (getNet d p).cfg.ipv4
        enqueue d p { kind := .media i pleg.2 first, queue := c.queue, dt := now d, frames := [mediaFrame c l mac (portMac d p) src first seq pl.1] }) d
  txFlowMod d i (fun x => { x with chans := x.chans.map (fun kv => (kv.1, txSettle kv.2 first)) })

def execTxPacketQueue (flow : Fin 256) (first : MT) (s : State) : Host.Outcome State Fault Refusal := run (fun d => txPacket d flow.val first) s

/-- The oldest waiting packet of a flow taken out. -/
def takeMedia (i : Nat) : List TxFrame → Option (TxFrame × List TxFrame)
  | [] => none
  | f :: t =>
    let mine := match f.kind with
      | .media k _ _ => k == i
      | _ => false
    if mine then some (f, t) else (takeMedia i t).map (fun r => (r.1, f :: r.2))

/-- TX_MEDIA_DROP (R355): a packet that has waited one packet time without starting. -/
def mediaDrop (d : Dev) (p i : Nat) : Dev :=
  match takeMedia i (getNet d p).queue with
  | none => d
  | some (f, rest) =>
    let u := match f.kind with
      | .media _ _ u => u
      | _ => 0
    let d := nsTx (netPortMod d p (fun x => { x with queue := rest })) p 13 1
    let d := txFlowMod d i (fun x => { x with drops := x.drops + 1, evs := x.evs + 1 })
    pump (evUnderrun d 5 i 1 u (getTx d i).evs) p

def execTxMediaDrop (port : Fin 4) (flow : Fin 256) (s : State) : Host.Outcome State Fault Refusal := run (fun d => mediaDrop d port.val flow.val) s

end Sys2Proof.Machine
end

