-- ==== Sys2Proof/Machine/NetRx.lean ====
section
/-! DEFINITION. Frames received at a network port: their routing, receive flows, S-ADM, the protocols firmware answers, and the
host receive rings (R100–R103, R339–R341, R349–R353, R361–R363, R383). -/

namespace Sys2Proof.Machine

/-! S-ADM (R100–R103). -/

def fracQ (x : Frac) : Q := qFrac x.num x.den

/-- A value taken into its range, and whether it was outside. -/
def clampNote (lo hi v : Int) : Int × Nat := (clampI lo hi v, b2n (decide (v < lo) || decide (hi < v)))

/-- s of R100: the configured scale, or the mean speaker distance of the committed layout; with neither 1.0 m (DESIGN CHOICE, log
entry 124). -/
def admScale (d : Dev) (c : RxFlowCfg) : Nat := if c.scale ≠ 0 then c.scale else (d.scene.layout.map layoutMean).getD 65536

/-- value × s in Q16.16, in the range of R79. -/
def admSize (s : Nat) (x : Frac) (lo : Int) : Int × Nat := clampNote lo 2147483647 (qRne (qMul (fracQ x) (qOfInt s)))
def admCenti (x : Frac) : Int := qRne (qMul (fracQ x) (qOfInt 100))

/-- centi-dB of a block's gain (R102). -/
def admGain (b : AdmBlock) (g : Frac) : Int :=
  if b.gainDb then qRne (qMul (fracQ g) (qOfInt 100))
  else
    let q := fracQ g
    if q.num ≤ 0 ∨ qLe q (qPow10 ⟨-72, 10⟩) then -14400 else qRne (qMul (qLog10 q) (qOfInt 2000))

/-- An audioBlockFormat as an update of an object at t (R102, R103), with its clamps; absent fields leave their mask bits clear. -/
def admUpdate (s obj : Nat) (t : MT) (b : AdmBlock) : Update × Nat :=
  let pos : Option ((Int × Int × Int) × Nat) := match b.coord1, b.coord2 with
    | some a, some e =>
      if b.cartesian then
        (let x := admSize s a (-2147483648)
         let y := admSize s e (-2147483648)
         let z := admSize s (b.coord3.getD {}) (-2147483648)
         some ((x.1, y.1, z.1), x.2 + y.2 + z.2))
      else
        (let el := clampNote (-9000) 9000 (admCenti e)
         let r := admSize s (b.coord3.getD { num := 1 }) 0
         some ((polarXyz (admCenti a) el.1 r.1).getD (0, 0, 0), el.2 + r.2))
    | _, _ => none
  let hasExt := b.width.isSome || b.height.isSome || b.depth.isSome
  let zero : Frac := {}
  let w := if b.cartesian then admSize s (b.width.getD zero) 0 else clampNote 0 36000 (admCenti (b.width.getD zero))
  let h := if b.cartesian then admSize s (b.height.getD zero) 0 else clampNote 0 18000 (admCenti (b.height.getD zero))
  let dp := admSize s (b.depth.getD zero) 0
  let g := (b.gain.map (admGain b)).getD 0
  let df := clampNote 0 32767 (qRne (qMul (fracQ (b.diffuse.getD zero)) (qOfInt 32767)))
  let im := clampNote 0 10 (qRne (fracQ (b.importance.getD zero)))
  let jp := b.jump == some true
  let len : Option Frac := match b.jump with
    | some true => b.interp
    | some false => b.duration
    | none => none
  let glides := jp && (match b.interp with | some l => decide (0 < l.num) | none => false)
  let rampSet := if jp then glides else len.isSome
  let rp := clampNote 0 2000000 (qRne (qMul (fracQ (len.getD zero)) (qOfInt 1000000)))
  let p := pos.getD ((0, 0, 0), 0)
  ({ obj := obj, t := t, clamps := if b.gain.isSome then [g] else []
     mask := b2n pos.isSome + 2 * b2n hasExt + 4 * b2n b.gain.isSome + 16 * b2n b.diffuse.isSome + 32 * b2n b.importance.isSome + 64 * b2n rampSet
     vals := { x := p.1.1, y := p.1.2.1, z := p.1.2.2, angular := !b.cartesian, width := w.1, height := h.1, depth := dp.1, gain := clampCdb g, mute := false,
               diffuse := df.1.toNat, jump := jp && !glides, rampUs := if rampSet then rp.1.toNat else 0, priority := im.1.toNat } },
   p.2 + (clampNote (-14400) 2400 g).2 + (if hasExt then w.2 + h.2 + dp.2 else 0) + (if b.diffuse.isSome then df.2 else 0) + (if b.importance.isSome then im.2 else 0) + (if rampSet then rp.2 else 0))

/-- The 44-byte record of an update, as a ticket carries it. -/
def updRecord (u : Update) : List Byte :=
  p16 u.obj ++ p16 u.mask ++ p32 u.t.toNat ++ p8 (2 * b2n u.vals.angular + 4 * b2n u.vals.jump + 8 * b2n u.vals.mute) ++ p8 u.vals.priority ++ s16 u.vals.gain ++
    p16 u.vals.diffuse ++ zeros 2 ++ s32 u.vals.x ++ s32 u.vals.y ++ s32 u.vals.z ++ s32 u.vals.width ++ s32 u.vals.height ++ s32 u.vals.depth ++ p32 u.vals.rampUs

/-- META_DROPPED of domain n. -/
def metaDrop (d : Dev) (n : Nat) : Dev := sceneMod d (fun s => metaMod s n (fun c => { c with dropped := cInc c.dropped }))

/-- An update without a reply: judged and queued as OBJ_UPDATE is, every refusal counted (R103). -/
def admAccept (d : Dev) (n : Nat) (u : Update) : Dev :=
  let o := getObj d.scene u.obj
  if !o.enabled || !domRuns (getDom d (effDom d o.domain)).state || !modes4.contains (asMode (mode d)) then metaDrop d (if o.enabled then effDom d o.domain else n)
  else if inConfig (mode d) then sceneMod (countClamps d u.clamps) (fun s => objMod s u.obj (fun o => updNow o u))
  else
    let r := acceptMeta d (updEntry d u) (updRecord u) none
    if r.2 == .ok || r.2 == .late then countClamps r.1 u.clamps else if r.2 == .stale then r.1 else metaDrop r.1 (effDom d o.domain)

/-- t of R78 for a flow of another rate in SINGLE_RATE. -/
def admMt (d : Dev) (f : Nat) (t : MT) : MT :=
  if !single d || f == 48000 then t
  else
    let tu := unwrapMt (now d) f t
    BitVec.ofInt 32 (((tu * 1000000000 + f - 1) / f) * 48000 / 1000000000)

/-- A reassembled document's updates, in document order; a channel outside the flow's objects is counted once (R100, R101). -/
def admDoc (d : Dev) (i : Nat) (ts : MT) (doc : AdmDoc) : Dev :=
  let c := (getRx d i).cfg
  let f := flowRate d c.domain
  if !doc.whole then rxFlowMod d i (fun x => { x with admIgnored := x.admIgnored + 1 })
  else if single d && f != 48000 && (getDom d 0).cfg.source != 1 then rxFlowMod d i (fun x => { x with admErr := x.admErr + 1 })
  else
    let block (q : AdmChan) (d : Dev) (b : AdmBlock) : Dev :=
      let off : Q := match b.rtime with
        | some r => qSub (qAdd (fracQ (q.objStart.getD {})) (fracQ r)) (fracQ doc.start)
        | none => qOfInt 0
      let t := ts + BitVec.ofInt 32 (qRne (qMul off (qOfInt f)))
      let u := admUpdate (admScale d c) (c.objBase + (q.chan - 0x1001)) (admMt d f t) b
      admAccept (rxFlowMod d i (fun x => { x with admClamp := x.admClamp + BitVec.ofNat 32 u.2 })) (effDom d c.domain) u.1
    doc.chans.foldl (fun d q =>
      if q.chan < 0x1001 ∨ c.objCount ≤ q.chan - 0x1001 then rxFlowMod d i (fun x => { x with admRange := x.admRange + 1 })
      else q.blocks.foldl (block q) d)
      (rxFlowMod d i (fun x => { x with admIgnored := x.admIgnored + BitVec.ofNat 32 doc.ignored }))

/-- The first sequence number of a frame. -/
def admFirst (a : AdmBuild) (seq : Nat) : Nat :=
  (a.parts.map Prod.fst).foldl (fun m q => if (q + 65536 - m) % 65536 < 32768 then m else q) ((a.parts.map Prod.fst).headD seq)

/-- The bytes of a frame whose next packet is seq: none where a packet is missing or there are more than 65,536 bytes. -/
def admBytes (a : AdmBuild) (seq : Nat) : Option (List Byte) :=
  let first := admFirst a seq
  let ps := (List.range ((seq + 65536 - first) % 65536)).map (fun k => (a.parts.find? (fun p => p.1 == (first + k) % 65536)).map Prod.snd)
  let bs := ps.flatMap (fun p => p.getD [])
  if ps.all Option.isSome && decide (bs.length ≤ 65536) then some bs else none

/-- A metadata packet of either leg or of the partner (R100, R356, R383): the packet of the next timestamp ends the frame before it.  The
payload header of ST 2110-41 has the data item type in bits 31:10 and its length in 32-bit words in bits 8:0 (PRESUMED, log entry
90). -/
def metaPacket (d : Dev) (i seq : Nat) (ts : MT) (payload : List Byte) : Dev :=
  let x := getRx d i
  let h := be32 payload 0
  if isFollower d then d
  else if h / 1024 ≠ x.cfg.itemType.toNat then rxFlowMod d i (fun x => { x with admIgnored := x.admIgnored + 1 })
  else
    let part : Nat × List Byte := (seq, slice payload 4 (4 * (h % 512)))
    let fresh : AdmBuild := { ts := ts, parts := [part] }
    match x.adm with
    | none => rxFlowMod d i (fun x => { x with adm := some fresh })
    | some a =>
      if ts = a.ts then
        (if a.parts.any (fun p => p.1 == seq) then d else rxFlowMod d i (fun x => { x with adm := some { a with parts := a.parts ++ [part] } }))
      else if mtDiff ts a.ts < 0 then d
      else
        let d := match (admBytes a seq).bind admRead with
          | some q => admDoc d i a.ts q
          | none => rxFlowMod d i (fun x => { x with admErr := x.admErr + 1 })
        rxFlowMod d i (fun x => { x with adm := some fresh })

/-! Placement by time (R350, R351, R383). -/

/-- A flow's timebase counts and its rings take samples, and its count now: in a closing period up to the clearing of R64. -/
def flowNow (d : Dev) (c : RxFlowCfg) : Option MT :=
  let f := flowRate d c.domain
  if single d then some (ftAt (now d) f).1
  else
    let x := getDom d c.domain
    let closes := match x.closing with
      | some k => k.counts && !k.cleared
      | none => false
    if !domRuns x.state && !closes then none
    else some (x.mt + BitVec.ofNat 32 (min 15 (((now d).toNat - x.dt.toNat) * f / 1000000000)))

/-- A position's block has closed; of a device's own legs on a pair, or is about to within 10 µs. -/
def posClosed (d : Dev) (x : RxFlow) (own : Bool) (k : MT) : Bool :=
  let close := k - BitVec.ofNat 32 (k.toNat % 16) + 16
  let dist := mtDiff close x.landed
  if dist ≤ 0 then true
  else if own && mode d == .twin then
    (let m := getDom d x.cfg.domain
     decide ((m.dt.toNat : Int) + dist * 1000000000 / max 1 (rateOf d x.cfg.domain) ≤ (now d).toNat + 10000))
  else false

/-- Words of one position written into a flow's ring, or compared with those it holds: the flow, and whether it was written. -/
def putPos (x : RxFlow) (k : MT) (ws : List Int) : RxFlow × Bool :=
  match x.ring.find? (fun e => e.1 == k) with
  | some e => (if e.2 = ws then x else { x with mismatch := x.mismatch + 1 }, false)
  | none => ({ x with ring := x.ring ++ [(k, ws)], receiving := true, first := if x.receiving then x.first else k }, true)

/-- The words of sample j of a payload. -/
def payloadWords (l24 : Bool) (ch : Nat) (bs : List Byte) (j : Nat) : List Int :=
  let b := wordBytes l24
  (List.range ch).map (fun c => ((beNat (slice bs ((j * ch + c) * b) b) : Nat) : Int))

/-- Consecutive numbers as runs: first and length. -/
def runs : List Nat → List (Nat × Nat)
  | [] => []
  | a :: t => match runs t with
    | (b, n) :: r => if a + 1 = b then (a, n + 1) :: r else (a, 1) :: (b, n) :: r
    | [] => [(a, 1)]

/-- The INPUT frames of positions written from a device's own leg (R375, R383). -/
def forwardInput (d : Dev) (i leg : Nat) (c : RxFlowCfg) (base : MT) (bs : List Byte) (js : List Nat) : Dev :=
  if mode d != .twin then d else
  (runs js).foldl (fun d r =>
    let z := c.channels * wordBytes c.l24
    linkSend d 2 (p16 i ++ p8 leg ++ p8 (b2n c.l24) ++ p32 (base + BitVec.ofNat 32 r.1).toNat ++ p16 r.2 ++ p8 c.channels ++ zeros 1 ++ slice bs (r.1 * z) (r.2 * z))) d

/-- An audio packet of a flow's own leg. -/
def placePacket (d : Dev) (i leg : Nat) (r : Rtp) : Dev :=
  let x := getRx d i
  let c := x.cfg
  let s := packetSamples c.ptime (flowRate d c.domain)
  let dq := 16 * ((c.depth + 15) / 16)
  let base := r.ts + BitVec.ofInt 32 c.offset + BitVec.ofNat 32 dq
  match flowNow d c with
  | none => d
  | some m =>
    if (dq : Int) + 16 < mtDiff (base + BitVec.ofNat 32 (s - 1)) m then rxFlowMod d i (fun x => { x with early := x.early + 1 })
    else
      let q := (List.range s).foldl (fun (a : RxFlow × List Nat × Bool) j =>
        let k := base + BitVec.ofNat 32 j
        if posClosed d a.1 true k then (a.1, a.2.1, true)
        else
          let w := putPos a.1 k (payloadWords c.l24 c.channels r.payload j)
          (w.1, if w.2 then a.2.1 ++ [j] else a.2.1, a.2.2)) (x, [], false)
      let y := if q.2.2 then { q.1 with late := q.1.late + 1 } else q.1
      forwardInput (rxFlowMod d i (fun _ => y)) i leg c base r.payload q.2.1

/-- A packet that matches a leg (R349, R353). -/
def flowPacket (d : Dev) (i leg : Nat) (u : List Byte) : Dev :=
  let d := rxFlowMod d i (fun x => { x with dark := false, legs := tabMod x.legs leg (fun l => { l with up := true, lastDt := now d, count := l.count + 1 }) })
  match rtpOf u with
  | none => rxFlowMod d i (fun x => { x with badLen := x.badLen + 1 })
  | some r =>
    let d := rxFlowMod d i (fun x => { x with legs := tabMod x.legs leg (fun l =>
      let gap := match l.seq with
        | some q => let k := (r.seq + 65536 - q) % 65536; decide (2 ≤ k) && decide (k < 32768)
        | none => false
      { l with seq := some r.seq, gaps := if gap then l.gaps + 1 else l.gaps }) })
    let x := getRx d i
    let c := x.cfg
    if c.ptCheck && r.pt != c.pt then rxFlowMod d i (fun x => { x with badPt := x.badPt + 1 })
    else if c.ssrcFilter && r.ssrc != c.ssrc then rxFlowMod d i (fun x => { x with badSsrc := x.badSsrc + 1 })
    else
      let changed := !c.ssrcFilter && (match x.lastSsrc with | some s => s != r.ssrc | none => false)
      let d := rxFlowMod d i (fun x => { x with lastSsrc := some r.ssrc, ssrcChanged := x.ssrcChanged || changed,
                                                ssrcChanges := if changed then x.ssrcChanges + 1 else x.ssrcChanges })
      if c.metadata then
        (let d := if mode d == .twin then linkSend d 2 (p16 i ++ p8 leg ++ p8 0 ++ p32 r.ts.toNat ++ p16 r.seq ++ zeros 2 ++ r.payload) else d
         metaPacket d i r.seq r.ts r.payload)
      else if r.payload.length ≠ c.channels * packetSamples c.ptime (flowRate d c.domain) * wordBytes c.l24 then
        rxFlowMod d i (fun x => { x with badLen := x.badLen + 1 })
      else placePacket d i leg r

/-- The leg that a UDP packet matches: the lowest flow first (R349). -/
def matchLeg (d : Dev) (p : Nat) (i : Ip) : Option (Nat × Nat × List Byte) :=
  match udpOf i with
  | none => none
  | some (port, body) =>
    (d.net.rxFlows.findSome? (fun kv =>
      if !kv.2.cfg.enable || kv.2.cfg.ipv6 != i.v6 then none
      else ((flowPorts kv.2.cfg.ports).zipIdx).findSome? (fun pl =>
        let l := tabGet kv.2.legs pl.2
        if pl.1 = p ∧ l.set ∧ l.udp = port ∧ l.dst = addr16 i.dst ∧ (l.src.all (· == 0) ∨ l.src = addr16 i.src) then some (kv.1, pl.2, body) else none)))

/-! Protocols that firmware answers (R339, R340). -/

def filtered (d : Dev) (p : Nat) : Dev := nsRx d p 22 1

/-- An echo request: answered, at most 100 a second. -/
def echoRx (d : Dev) (p : Nat) (src : List Byte) : Dev :=
  let x := getNet d p
  let new := decide (1000000000 ≤ (now d - x.echoDt).toNat)
  let n := if new then 0 else x.echo
  if !x.cfg.icmp || 100 ≤ n then filtered d p
  else fwFrame (netPortMod d p (fun x => { x with echo := n + 1, echoDt := if new then now d else x.echoDt })) p 4 src

/-- A query: every membership it names has a report to send. -/
def queryRx (d : Dev) (p : Nat) (g : List Byte) : Dev :=
  let all := g.all (· == 0)
  netPortMod d p (fun x => { x with members := x.members.map (fun m => if all || m.group == addr16 g then { m with reports := max 1 m.reports } else m) })

/-- A frame of these protocols, by what firmware does with it; none where the frame is of no such protocol. -/
def protoRx (d : Dev) (p : Nat) (e : Eth) (i : Option Ip) : Option Dev :=
  let c := (getNet d p).cfg
  let b := e.body
  let fam (on : Bool) (f : Unit → Dev) : Option Dev := some (if on && d.hif.ctrlUp then f () else filtered d p)
  if e.etype = 0x0806 then
    fam c.ip4 (fun _ =>
      let d := learn d p (slice b 14 4) (slice b 8 6)
      if be16 b 6 = 1 ∧ slice b 24 4 = c.ipv4 then fwFrame d p 1 (slice b 14 4) else d)
  else match i with
    | none => none
    | some i =>
      let ours := i.dst == c.ipv4 || i.dst == c.ipv6 || i.dst == linkLocal d p
      if !i.v6 && i.proto == 2 then fam c.ip4 (fun _ => if u8 i.body 0 = 0x11 then queryRx d p (slice i.body 4 4) else d)
      else if !i.v6 && i.proto == 1 && u8 i.body 0 == 8 && ours then fam c.ip4 (fun _ => echoRx d p i.src)
      else if i.v6 && i.proto == 58 then
        (let k := u8 i.body 0
         if k = 128 ∧ ours then fam c.ip6 (fun _ => echoRx d p i.src)
         else if k = 130 then fam c.ip6 (fun _ => queryRx d p (slice i.body 8 16))
         else if 133 ≤ k ∧ k ≤ 137 then
           fam c.ip6 (fun _ =>
             if k = 135 ∧ (slice i.body 8 16 = c.ipv6 ∨ slice i.body 8 16 = linkLocal d p) then fwFrame d p 3 i.src
             else if k = 136 ∧ u8 i.body 24 = 2 then learn d p (slice i.body 8 16) (slice i.body 26 6) else d)
         else if k = 131 ∨ k = 132 ∨ k = 143 then fam c.ip6 (fun _ => d)
         else none)
      else none

/-! Heartbeats of the partner (R391). -/

def groupV6 (g : List Byte) : Bool := u8 g 0 == 0xFF

/-- A UDP payload on a heartbeat port, by its group and port number: whether it is a heartbeat. -/
def heartbeatRx (d : Dev) (p : Nat) (i : Ip) : Option Dev :=
  let c := d.twin.cfg
  match udpOf i with
  | none => none
  | some (port, b) =>
    if mode d != .twin || d.twin.state == .off || !bit c.hbPorts p || port != c.hbUdp || i.v6 != groupV6 c.hbGroup || addr16 i.dst != c.hbGroup then none
    else if b.length < 24 ∨ u32 b 0 ≠ c.pairId.toNat ∨ u64 b 4 = Config.deviceId.toNat then some d
    else some (twinMod d (fun t => { t with hbSeen := true, hbMissed := tabSet t.hbMissed p 0, partner := u8 b 12 }))

/-! Host receive rings (R360–R363). -/

/-- A frame's checksums as completion bits (R362). -/
def sumBits (i : Option Ip) : Nat :=
  match i with
  | none => 0
  | some i =>
    let l4 := l4Ok i
    16 * b2n (i.hdrOk == some true) + 32 * b2n (l4 == some true) + 64 * b2n (i.hdrOk == some false || l4 == some false)

/-- The frame written to buffers 0 … n − 1 of the ring, with their completions. -/
def ringFill (d : Dev) (ring p filter n : Nat) (f : RxFrame) (stamp : DT) (flags : Nat) (tci : Nat) : Dev :=
  let r := getRing d ring
  let d := (List.range n).foldl (fun d k =>
    let piece := (f.bytes.drop (2048 * k)).take 2048
    let status := 1 + 2 * b2n (k == 0) + 4 * b2n (k + 1 == n) + flags + 128 * b2n (k == 0)
    let body := p16 piece.length ++ p16 status ++ p8 p ++ p8 filter ++ p16 tci ++ p64 (if k = 0 then stamp.toNat else 0)
    deposit (deposit d (f.bufs.getD k 0) piece) (ringDesc r (r.head.toNat + k) + 16) body) d
  ringAdvance d ring n

/-- A frame for a ring: delivered, discarded partway, or dropped whole. -/
def ringRx (d : Dev) (ring p filter : Nat) (f : RxFrame) (e : Eth) (i : Option Ip) (stamp : DT) : Dev :=
  let r := getRing d ring
  let have_ := ringPosted r
  let n := max 1 ((f.bytes.length + 2047) / 2048)
  let flags := sumBits i + 256 * b2n e.tci.isSome
  let tci := e.tci.getD 0
  if have_ = 0 then ringMod (nsRx d p 23 1) ring (fun r => { r with dropped := r.dropped + 1, dropping := r.dropping || ringRuns r })
  else if have_ < n then
    ringMod (ringFill (nsRx d p 23 1) ring p filter have_ f stamp (flags + 8) tci) ring (fun r => { r with dropping := true })
  else
    let d := ringFill (ringMod d ring (fun r => { r with dropping := false })) ring p filter n f stamp flags tci
    let d := nsRx d p 21 1
    if bit flags 6 then nsRx d p 24 1 else d

/-- A filter matches a frame (R361). -/
def filterHit (x : Filter) (p : Nat) (e : Eth) (i : Option Ip) : Bool :=
  x.enable && bit x.ports p && (!x.byMac || e.dst == x.mac) && (!x.byEtype || e.etype == x.etype) &&
    (!x.byProto || (i.map (·.proto)) == some x.proto) && (!x.byUdp || ((i.bind udpOf).map Prod.fst) == some x.udp)

/-- A PTP frame: EtherType 0x88F7, or UDP ports 319 and 320 (PRESUMED, log entry 90).  The message of a UDP frame is the operand of
PTP_MESSAGE_RX; a frame of the transport of IEEE 802.3 is counted in PTP_IGNORED as it arrives (R52). -/
def isPtp (e : Eth) (i : Option Ip) : Bool :=
  e.etype == 0x88F7 || (match i.bind udpOf with | some u => u.1 == 319 || u.1 == 320 | none => false)

/-- Rules 5 to 7 of R361. -/
def routeHost (d : Dev) (p : Nat) (f : RxFrame) (e : Eth) (i : Option Ip) (stamp : DT) : Dev :=
  match (List.range 16).find? (fun k => filterHit (tabGet d.net.filters k) p e i) with
  | some k =>
    let x := tabGet d.net.filters k
    if x.drop then filtered d p else ringRx d x.ring p k f e i stamp
  | none =>
    if e.dst = portMac d p ∨ e.dst.all (· == 0xFF) then ringRx d 0 p 0xFF f e i stamp else filtered d p

/-- NET_FRAME_RX: a frame counted and routed by the first rule of R361 that applies. -/
def netRx (d : Dev) (p : Nat) (f : RxFrame) : Dev :=
  if !(getNet d p).up then d else
  let d := dtTo d f.dt
  let d := nsRx (nsRx (nsRx d p 25 f.pcsErr) p 26 f.fecCorr) p 27 f.fecUncorr
  let c := (getNet d p).cfg
  let n := f.bytes.length + 4
  let e := ethOf f.bytes
  let lim := frameLimit c e.tci.isSome + 4
  if n < 64 then nsRx d p (if f.fcsOk then 13 else 14) 1
  else if lim < n then nsRx d p (if f.fcsOk then 15 else 16) 1
  else if !f.fcsOk then nsRx d p 12 1
  else
    let d := nsRx (nsRx (nsRx (nsRx d p 0 1) p 1 n) p (2 + castBin e.dst) 1) p (5 + sizeBin n) 1
    let d := if e.tci.isSome then nsRx d p 18 1 else d
    let i := ipOf e
    if e.etype = 0x8808 then nsRx d p 17 1
    else if isPtp e i then
      (let d := nsRx d p 20 1
       if e.etype = 0x88F7 ∧ ptpEnabled d p ∧ d.hif.ctrlUp then ptpIgnore d else d)
    else match i.bind (matchLeg d p) with
      | some (k, leg, body) => if isRtcp body then filtered d p else flowPacket (nsRx d p 19 1) k leg body
      | none => match (i.bind (heartbeatRx d p)).orElse (fun _ => protoRx d p e i) with
        | some d => d
        | none => routeHost d p f e i (ingressDt c f.dt)

def execNetFrameRx (port : Fin 4) (f : RxFrame) (s : State) : Host.Outcome State Fault Refusal := run (fun d => netRx d port.val f) s

end Sys2Proof.Machine
end

