-- ==== Sys2Proof/Machine/TwinLink.lean ====
section
/-! DEFINITION. The Silton link and the pair: TWIN_CFG, TWIN_STATE, TWIN_SWAP, the handshake, the loss of the link and of the
leader, resynchronisation (R373–R376, R382–R398). -/

namespace Sys2Proof.Machine

/-! TWIN_CFG (R385, R394). -/

def twinCfgOf (p : List Byte) : TwinCfg :=
  { enable := bit (u8 p 1) 0, both := bit (u8 p 1) 1, rolePref := u8 p 2, txLeg := u8 p 3, hbPorts := u8 p 4, hbGroup := slice p 8 16,
    hbUdp := u16 p 24, pairId := BitVec.ofNat 32 (u32 p 28) }

/-- hb_group is a multicast group, IPv4 in its first four bytes or IPv6. -/
def groupOk (g : List Byte) : Bool := groupV6 g || (isMcast false g && isZero g 4 12)

def twinCfgBad (p : List Byte) : Bool :=
  decide (3 < u8 p 1) || decide (2 < u8 p 2) || decide (1 < u8 p 3) || u8 p 4 == 0 || decide (15 < u8 p 4) || !isZero p 5 3 || !groupOk (slice p 8 16) ||
    u16 p 24 == 0 || !isZero p 26 2

/-- A bridge, port channel or flow channel takes a microphone as its source (R385). -/
def micRenders (d : Dev) : Bool :=
  let mic (c : TxChan) : Bool := c.src.kind == 7
  d.seam.br.any (fun kv => kv.2.cfg.enable && kv.2.cfg.kind == 7) || d.ports.aesTx.any (fun kv => mic kv.2.chA || mic kv.2.chB) ||
    d.ports.tdm.any (fun kv => kv.2.tx.any (fun c => mic c.2)) || d.net.txFlows.any (fun kv => kv.2.chans.any (fun c => mic c.2))

def judgeTwinSet (d : Dev) (t : Taken) (_ : Option (List Byte)) : Dev × Ans :=
  let p := t.req.payload
  let c := twinCfgOf p
  if tMode t == .twin then ans d .busy
  else if !inModes t [.config, .service] then ans d .badMode
  else if !longEnough t 32 || u8 p 0 != 0 || twinCfgBad p || (c.enable && micRenders d) then bad d
  else
    let d := powerPlan (twinMod d (fun x => { x with cfg := c }))
    if c.enable && !pdOn d 5 then (needPd d 5, .wait (.powerOn 5 [])) else ans d .ok

def judgeTwinGet (d : Dev) (t : Taken) (_ : Option (List Byte)) : Dev × Ans :=
  let c := d.twin.cfg
  if !longEnough t 1 || u8 t.req.payload 0 != 1 then bad d
  else ansB d .ok (p8 (b2n c.enable + 2 * b2n c.both) ++ p8 c.rolePref ++ p8 c.txLeg ++ p8 c.hbPorts ++ zeros 3 ++ c.hbGroup ++ p16 c.hbUdp ++ zeros 2 ++ p32 c.pairId.toNat)

def execTwinCfgSet (r : Req) (s : State) : Host.Outcome State Fault Refusal := reqRow .twinCfg 0 [1] judgeTwinSet r s
def execTwinCfgGet (r : Req) (s : State) : Host.Outcome State Fault Refusal := reqRow .twinCfg 0 [0] judgeTwinGet r s

/-! TWIN_STATE (R395). -/

/-- MT of the last boundary of the heartbeat domain, 0 where no domain runs. -/
def hbMt (d : Dev) : MT := ((hbDom d).map (mtOf d)).getD 0

def judgeTwinState (d : Dev) (_ : Taken) (_ : Option (List Byte)) : Dev × Ans :=
  let t := d.twin
  let rec_ := d.net.rxFlows.foldl (fun a kv => a + kv.2.reconciled) (0 : Word)
  ansB d .ok (p8 (pairCode t.state) ++ p8 t.partner ++
    p8 (b2n (linkUp t) + 2 * b2n (linkDegraded t) + 4 * b2n t.hbSeen + 8 * b2n (!t.cfg.both) + 16 * b2n t.partnerRestarting) ++ p8 t.major ++ p8 t.minor ++
    p8 t.refusal ++ zeros 1 ++ p64 t.partnerId.toNat ++ p32 (hbMt d).toNat ++ p32 t.diverge.toNat ++ p32 t.resyncs.toNat ++ p32 t.lastMt.toNat ++
    p32 t.lastGroups.toNat ++ p32 t.applied.toNat ++ p32 t.retry.toNat ++ p32 rec_.toNat)

def execTwinState (r : Req) (s : State) : Host.Outcome State Fault Refusal := reqRow1 .twinState judgeTwinState r s

/-! TWIN_SWAP (R396). -/

/-- TWIN_SWAP.  The leader tells its partner by a command ticket; on the follower the ticket stores the swap (log entry 26). -/
def judgeTwinSwap (d : Dev) (t : Taken) (_ : Option (List Byte)) : Dev × Ans :=
  let p := t.req.payload
  let at_ := bit (u8 p 4) 0
  let n := ticketDom d 0
  let st := selBoundary d n
  let mt : MT := BitVec.ofNat 32 (u32 p 0)
  let first := if at_ && mtLater mt st then mt else st
  let body := zeros 3 ++ p32 0
  if !inModes t [.twin] then ansB d .badMode body
  else if !longEnough t 8 || u32 p 0 % 16 != 0 || decide (1 < u8 p 4) || !isZero p 5 3 then ansB d .badArg body
  else if t.req.ch.val = 5 then
    (if d.twin.state == .synced then (twinMod d (fun x => { x with swap := some (t, first, at_) }), .done) else ansB d .busy body)
  else if isFollower d then ansB d .denied body
  else if d.twin.state != .leader || d.twin.partner != 6 || d.twin.swap.isSome then ansB d .busy body
  else
    let d := sendTicket d 3 0 n st none (p16 (opCode .twinSwap) ++ p16 8 ++ slice p 0 8)
    (twinMod d (fun x => { x with swap := some (t, first, at_) }), .done)

def execTwinSwap (r : Req) (s : State) : Host.Outcome State Fault Refusal := reqRow1 .twinSwap judgeTwinSwap r s

/-- TWIN_SWAP_TAKE_EFFECT: the first boundary of the heartbeat domain at or after S_t and mt has come; a partner that is not SYNCED
there leaves the roles as they are (R400). -/
def swapEffect (d : Dev) : Dev :=
  match d.twin.swap with
  | none => d
  | some (t, first, at_) =>
    let b := hbMt d
    if mtLater first b then d else
    let d := twinMod d (fun x => { x with swap := none })
    let answer (d : Dev) (st : Status) (b : MT) : Dev := if t.req.ch.val = 5 then d else reply d t st (mtBody (some b))
    if d.twin.state == .leader && d.twin.partner == 6 then
      let late := at_ && mtLater b (BitVec.ofNat 32 (u32 t.req.payload 0))
      let d := pairEv (twinMod d (fun x => { x with partner := 2, partnerStart := none, txStart := none, lost := false, markerMiss := 0, hbMissed := [] })) 5 .synced b 0
      answer d (if late then .late else .ok) b
    else if d.twin.state == .synced && d.twin.partner == 2 then
      answer (pairEv (twinMod d (fun x => { x with partner := 6, partnerStart := none, txStart := none })) 5 .leader b 0) .ok b
    else answer d .busy 0

def execTwinSwapTakeEffect (s : State) : Host.Outcome State Fault Refusal := run swapEffect s

/-! Cells (R423). -/

/-- An outbound message as a cell. -/
def cellBytes (m : OutMsg) (epoch : Byte) : List Byte :=
  p16 m.opcode.toNat ++ p8 m.payload.length ++ p8 (b2n (decide (m.opcode.toNat < 0x8000)) + 4 * b2n m.bulk) ++ p16 m.tag.toNat ++ p8 m.ch ++ [epoch] ++
    slice m.payload 0 56

/-- The HELLO that firmware sends its partner over MBX5, asking for EV_TWIN (R376, R435). -/
def pairHello (d : Dev) : Dev :=
  if !d.hif.ctrlUp then d else
  queueMsg d { ch := 5, opcode := 1, tag := 0, bulk := false, isReply := false
               payload := p8 1 ++ zeros 3 ++ p32 0x20 ++ [3, 4] ++ zeros 14 ++ p64 Config.deviceId.toNat }

/-! States of the pair (R389, R393). -/

/-- Entry to RESYNC. -/
def enterResync (d : Dev) (kind : Nat) (mt : MT) (groups : Nat) : Dev :=
  let d := muteClass (twinMod d (fun t =>
    { t with
      resyncs := t.resyncs + 1, b0 := none, matched := 0, sigs := [], sigPartner := [], lost := false, txStart := none,
      markers := t.markers.map (fun kv => (kv.1, { kv.2 with fresh := false })) })) 1
  pairEv d kind .resync mt groups

/-- A divergence of a follower that renders (R389); one that has lost its leader promotes from the state it holds (R400). -/
def diverge (d : Dev) (mt : MT) (groups : Nat) : Dev :=
  if !d.twin.lost && (d.twin.state == .verify || d.twin.state == .synced) then
    enterResync (twinMod d (fun t => { t with diverge := t.diverge + 1, lastMt := mt, lastGroups := BitVec.ofNat 32 groups })) 1 mt groups
  else d

/-- The partner of a leader is lost: the legs are added, and replies it can no longer acknowledge are given. -/
def partnerLost (d : Dev) : Dev :=
  let d := twinMod d (fun t => { t with partner := 255, partnerStart := none })
  if d.twin.state == .leader then releaseIssued (pairEv d 3 .leaderSolo (hbMt d) 0) else d

/-- The handshake begins anew. -/
def handshakeAnew (t : Twin) : Twin := { t with handshake := false, hello := none, helloSent := false, unacked := [], parts := [] }

/-- The link goes DOWN (R373). -/
def linkLost (d : Dev) : Dev :=
  let was := d.twin.handshake
  let d := twinMod d (fun t => { handshakeAnew t with waiting := [], downCnt := if was then t.downCnt + 1 else t.downCnt })
  partnerLost d

/-! The handshake (R376). -/

def linkHelloBytes (d : Dev) : List Byte :=
  [1, 2, 1, 0] ++ p64 Config.deviceId.toNat ++ p8 (if Config.gradeAF then 0 else 1) ++ p8 d.twin.cfg.rolePref ++ p8 d.twin.cfg.txLeg ++ p8 (pairCode d.twin.state) ++
    p16 (Config.renderRev d.flash.renderRev).toNat ++ zeros 2 ++ p32 d.twin.cfg.pairId.toNat

def helloOf (b : List Byte) : Hello :=
  { maxMajor := u8 b 0, maxMinor := u8 b 1, minMajor := u8 b 2, id := BitVec.ofNat 64 (u64 b 4), grade := u8 b 12, rolePref := u8 b 13, txLeg := u8 b 14,
    state := u8 b 15, renderRev := BitVec.ofNat 16 (u16 b 16), pairId := BitVec.ofNat 32 (u32 b 20) }

/-- The refusal code that applies, 0 for none. -/
def refusalCode (d : Dev) (h : Hello) : Nat :=
  let c := d.twin.cfg
  if h.maxMajor = 0 ∨ 1 < h.minMajor then 1
  else if h.grade ≠ (if Config.gradeAF then 0 else 1) then 2
  else if h.renderRev ≠ Config.renderRev d.flash.renderRev then 3
  else if h.pairId ≠ c.pairId then 4
  else if c.rolePref = 1 ∧ h.rolePref = 1 ∧ d.twin.state ≠ .leaderSolo ∧ h.state ≠ 3 then 5
  else if !c.both && h.txLeg == c.txLeg then 6 else 0

/-- This device leads (R376). -/
def leads (d : Dev) (h : Hello) : Bool :=
  let solo := d.twin.state == .leaderSolo
  let solo' := h.state == 3
  let pref := d.twin.cfg.rolePref == 1
  let pref' := h.rolePref == 1
  if solo != solo' then solo
  else if pref != pref' then pref
  else decide (Config.deviceId.toNat < h.id.toNat)

/-- HELLO sent and received: the pair forms, or is refused. -/
def tryHandshake (d : Dev) : Dev :=
  match d.twin.hello with
  | none => d
  | some h =>
    if !d.twin.helloSent || d.twin.handshake || d.twin.state == .off then d else
    let r := refusalCode d h
    if r ≠ 0 then
      evTwin (twinMod d (fun t => { t with refusal := r, hello := none, helloSent := false })) 4 d.twin.state d.twin.state r (hbMt d) 0
    else
      let lead := leads d h
      let d := twinMod d (fun t =>
        { t with
          handshake := true, refusal := 0, major := 1, minor := if h.maxMajor = 1 then min 2 h.maxMinor else 2, partnerId := h.id, partner := h.state,
          markerMiss := 0, hbMissed := [], lost := false, partnerStart := none })
      let d := if d.twin.state == .isolated then pairTo d .linking (hbMt d) else d
      let d := if lead then pairTo d .leader (hbMt d) else enterResync d 0 (hbMt d) 0
      pairHello d

/-- LINK_HELLO. -/
def sendHello (d : Dev) : Dev :=
  if d.twin.state == .off || d.twin.handshake || !pdOn d 5 || !linkCarries d.twin then d
  else tryHandshake (twinMod (linkSend d 7 (linkHelloBytes d)) (fun t => { t with helloSent := true }))

def execLinkHello (s : State) : Host.Outcome State Fault Refusal := run sendHello s

/-- A LINK_HELLO received: a partner that begins the handshake anew ends the one in force. -/
def takeHello (d : Dev) (b : List Byte) : Dev :=
  let d := if d.twin.handshake then partnerLost (twinMod d handshakeAnew) else d
  tryHandshake (twinMod d (fun t => { t with hello := some (helloOf b) }))

/-! Lanes, resends, acknowledgements (R373, R375). -/

/-- LANE_LOCK_CHANGE: an enabled lane gains lock; any lane loses it. -/
def laneLock (d : Dev) (i : Nat) (locked : Bool) : Dev :=
  let t := d.twin
  if locked then
    (if pdOn d 5 && t.linkCtrl.getLsbD 0 && t.linkCtrl.getLsbD (i + 1) then twinMod d (fun t => { t with lanes := t.lanes ||| BitVec.ofNat 2 (2 ^ i) }) else d)
  else
    let lanes := t.lanes &&& ~~~(BitVec.ofNat 2 (2 ^ i))
    let d' := twinMod d (fun t => { t with lanes := lanes })
    if lanes = 0 ∧ t.lanes ≠ 0 then linkLost d' else d'

def execLaneLockChange (lane : Fin 2) (locked : Bool) (s : State) : Host.Outcome State Fault Refusal := run (fun d => laneLock d lane.val locked) s

/-- A frame as it is sent again: RESEND set, with what has been received since acknowledged. -/
def resent (t : Twin) (f : List Byte) : List Byte := linkFrame (u8 f 0) (u8 f 1 ||| 1) (BitVec.ofNat 32 (u32 f 4)) t.rxSeq (slice f 16 (u16 f 2))

/-- LINK_FRAME_RESEND: the third attempt of a frame has failed, or it is sent again. -/
def linkResend (d : Dev) (seq : Word) : Dev :=
  match d.twin.unacked.find? (fun u => u.seq == seq) with
  | none => d
  | some u =>
    if 3 ≤ u.tries then linkLost d
    else
      let f := resent d.twin u.bytes
      twinMod d (fun t =>
        { t with
          retry := t.retry + 1, sent := t.sent ++ [f],
          unacked := t.unacked.map (fun x => if x.seq = seq then { x with bytes := f, tries := x.tries + 1 } else x) })

def execLinkFrameResend (seq : Word) (s : State) : Host.Outcome State Fault Refusal := run (fun d => linkResend d seq) s

/-- LINK_ACK_FRAME: an empty CONTROL frame. -/
def execLinkAckFrame (s : State) : Host.Outcome State Fault Refusal :=
  run (fun d => if linkCarries d.twin && pdOn d 5 then twinMod d (fun t => linkPut t 5 []) else d) s

/-! Heartbeats and markers (R391). -/

/-- The ports of hb_ports. -/
def hbList (d : Dev) : List Nat := (List.range 4).filter (fun p => bit d.twin.cfg.hbPorts p)

/-- Payload of a heartbeat at boundary b of domain n. -/
def hbPayload (d : Dev) (n : Nat) (b : MT) : List Byte :=
  let t := d.twin
  p32 t.cfg.pairId.toNat ++ p64 Config.deviceId.toNat ++ p8 (pairCode t.state) ++ p8 n ++ p8 t.major ++ p8 (b2n (linkUp t) + 2 * b2n (t.partner == 6)) ++
    p32 b.toNat ++ p32 t.hbSeq.toNat

/-- Heartbeats at a boundary of the heartbeat domain. -/
def heartbeats (d : Dev) (n : Nat) (b : MT) : Dev :=
  if mode d != .twin || d.twin.state == .off || hbDom d != some n then d else
  let bs := hbPayload d n b
  twinMod ((hbList d).foldl (fun d p => fwFrame d p 7 bs) d) (fun t => { t with hbSeq := t.hbSeq + 1 })

/-- Every heartbeat port has missed three in a row. -/
def hbLost (d : Dev) : Bool := (hbList d).all (fun p => decide (3 ≤ tabGet d.twin.hbMissed p))

/-- MARKER_MISSING: what had not arrived 0.5 P after a boundary is counted, and the leader judged. -/
def markerMissing (d : Dev) (marker : Bool) (hb : BitVec 4) : Dev :=
  if mode d != .twin || d.twin.state == .off then d else
  let late := (hbList d).filter (fun p => hb.getLsbD p)
  let d := twinMod d (fun t =>
    { t with
      markerMiss := if marker then t.markerMiss + 1 else 0, hbMiss := t.hbMiss + BitVec.ofNat 32 late.length,
      hbMissed := (hbList d).foldl (fun m p => tabSet m p (if hb.getLsbD p then tabGet m p + 1 else 0)) t.hbMissed })
  let gone := !linkUp d.twin || decide (3 ≤ d.twin.markerMiss)
  if !slaved d || !gone then d
  else if hbLost d then twinMod d (fun t => { t with lost := true })
  else if (hbList d).any (fun p => tabGet d.twin.hbMissed p == 0) then pairTo (muteClass (twinMod d (fun t => { t with txStart := none })) 1) .isolated (hbMt d)
  else d

def execMarkerMissing (marker : Bool) (heartbeats : BitVec 4) (s : State) : Host.Outcome State Fault Refusal := run (fun d => markerMissing d marker heartbeats) s

/-- LINKING_TIMEOUT: 1 s without handshake. -/
def linkingTimeout (d : Dev) : Dev :=
  if d.twin.state != .linking then d
  else if !d.twin.hbSeen || hbLost d then pairTo d .leaderSolo (hbMt d)
  else pairTo d .isolated (hbMt d)

def execLinkingTimeout (s : State) : Host.Outcome State Fault Refusal := run linkingTimeout s

/-- Local outputs that a pair state had stopped ramp in from the next boundary (R390). -/
def localRampIn (d : Dev) : Dev :=
  if classHeld d 1 then d else
  (List.range 3).foldl (fun d n => { d with render := { d.render with mutes := tabMod d.render.mutes (4 + n) (fun g =>
    g.map (fun g => if g.phase = .ramp then g else { g with phase := .ramp, t := mtOf d n + 32 })) } }) d

/-- PROMOTION (R392). -/
def promote (d : Dev) : Dev :=
  if !d.twin.lost || !slaved d then d else
  let b := hbMt d
  let bare := d.twin.state == .resync
  let d := twinMod d (fun t => { t with lost := false, partner := 255, txStart := none, partnerStart := none, b0 := none, markerMiss := 0 })
  let d := pairEv d 2 .leaderSolo b 0
  let d := if bare then (List.range 3).foldl (fun d n => domMod d n (fun x => { x with realignReq := domRuns x.state })) d else ownReferences d b
  localRampIn (ownInputs d)

def execPromotion (s : State) : Host.Outcome State Fault Refusal := run promote s

/-! Resynchronisation (R390). -/

/-- The state regions of R27: PRISM's and MANTLE's private memory, tile-shared memory, the object delay pool and the general pool. -/
def mirrored (a : Nat) : Bool :=
  let lies (lo hi : Nat) : Bool := decide (lo ≤ a) && decide (a < hi)
  lies 0x08000000 0x08800000 || lies 0x10000000 0x16000000 || (lies 0x20000000 0x24000000 && decide (0x00400000 ≤ a % 0x00800000) && decide (a % 0x00800000 < 0x00600000)) ||
    lies 0x30000000 0x32000000 || lies 0x34000000 0x35000000

/-- A receive flow as the leader's regions hold it, with this device's own legs and counts. -/
def rxCopied (own new : RxFlow) : RxFlow :=
  { own with
    cfg := new.cfg, ring := new.ring, receiving := new.receiving, first := new.first, gate := new.gate, good := new.good, out := new.out, landed := new.landed
    legs := new.legs.map (fun kv => let o := tabGet own.legs kv.1; (kv.1, { o with set := kv.2.set, udp := kv.2.udp, dst := kv.2.dst, src := kv.2.src })) }

/-- The leader's state regions, and the pair-wide configuration of its control SRAM, taken over (log entry 27). -/
def takeRegions (d : Dev) (c : Regions) : Dev :=
  let d : Dev :=
    { d with
      scene := c.scene, chain := c.chain, mantle := c.mantle, seam := c.seam
      render := { c.render with mutes := d.render.mutes }
      dom := (List.range 3).foldl (fun t n => match c.doms.find? (fun kv => kv.1 == n) with
        | some q => tabMod t n (fun x => { x with cfg := { q.2 with rate := x.cfg.rate } })
        | none => t) d.dom
      tiles := { d.tiles with
        mem := (c.tileMem.filter (fun x => mirrored x.1)).foldl (fun m x => memWrite m x.1 x.2) (memClear d.tiles.mem mirrored)
        sched := { c.sched with coreFault := d.tiles.sched.coreFault, eccCorr := d.tiles.sched.eccCorr } } }
  let d := netMod d (fun n =>
    { n with
      rxFlows := c.rxFlows.foldl (fun t kv => tabMod t kv.1 (fun x => rxCopied x kv.2)) n.rxFlows
      txFlows := c.txFlows.foldl (fun t kv => tabMod t kv.1 (fun x => { x with cfg := kv.2.cfg, legs := kv.2.legs, chans := kv.2.chans })) n.txFlows })
  let d := portsMod d (fun p =>
    { p with
      groups := c.ports.groups
      aesRx := c.ports.aesRx.foldl (fun t kv => tabMod t kv.1 (fun x => { x with cfg := kv.2.cfg })) p.aesRx
      aesTx := c.ports.aesTx.foldl (fun t kv => tabMod t kv.1 (fun x =>
        { x with
          cfg := kv.2.cfg, chA := kv.2.chA, chB := kv.2.chB, csA := kv.2.csA, csB := kv.2.csB, userA := kv.2.userA, userB := kv.2.userB })) p.aesTx
      tdm := c.ports.tdm.foldl (fun t kv => tabMod t kv.1 (fun x => { x with cfg := kv.2.cfg, tx := kv.2.tx, rxMask := kv.2.rxMask, txMask := kv.2.txMask })) p.tdm })
  powerPlan (twinMod d (fun t => { t with applied := c.applied, ledger := t.ledger.filter (fun e => mtLater e.1 c.applied) }))

/-- The domains run that the leader's markers say run: one with another MT has realigned (R382). -/
def domsFollow (d : Dev) : Bool :=
  d.twin.markers.all (fun kv => !(kv.2.state == 2 || kv.2.state == 3) || domRuns (getDom d kv.1).state)

/-- RESYNC_COPY_COMPLETE: b_e. -/
def copyDone (d : Dev) (c : Regions) : Dev :=
  if d.twin.state != .resync || d.twin.b0.isNone || !linkUp d.twin || !domsFollow d then d
  else pairTo (twinMod (takeRegions d c) (fun t => { t with matched := 0, sigs := [], sigPartner := [] })) .verify (hbMt d)

def execResyncCopyComplete (copy : Regions) (s : State) : Host.Outcome State Fault Refusal := run (fun d => copyDone d copy) s

/-- VERIFY_COMPLETE: the start boundary is the next but one, and EV_TWIN announces it (log entry 28). -/
def verifyDone (d : Dev) : Dev :=
  if d.twin.state != .verify || decide (d.twin.matched < 8) then d
  else
    let b := hbMt d + 32
    let d := pairTo (twinMod d (fun t => { t with txStart := some b })) .synced b
    localRampIn d

def execVerifyComplete (s : State) : Host.Outcome State Fault Refusal := run verifyDone s

/-- RESYNC_TIMEOUT: the copy starts again. -/
def execResyncTimeout (s : State) : Host.Outcome State Fault Refusal :=
  run (fun d => if d.twin.state != .resync then d else
    evTwin (twinMod d (fun t => { t with b0 := none, resyncTimeouts := t.resyncTimeouts + 1 })) 0 .resync .resync 0 (hbMt d) 0) s

/-! Signatures (R388). -/

/-- SIGNATURE_MISSING: the leader takes its partner to have left SYNCED; the handshake is repeated. -/
def execSignatureMissing (s : State) : Host.Outcome State Fault Refusal :=
  run (fun d => if d.twin.state == .leader && d.twin.partner == 6 then partnerLost (twinMod d handshakeAnew) else d) s

/-- Groups whose signatures differ, and bit 21 where the ticket checks do. -/
def sigDiff (a b : Sig) : Nat :=
  (List.range 21).foldl (fun n g => n + (if a.sums.getD g 0 = b.sums.getD g 0 then 0 else 2 ^ g)) (if a.ticket = b.ticket then 0 else 2 ^ 21)

/-- The two devices' signatures of a block, once both are there. -/
def compareSigs (d : Dev) (dom : Nat) (block : MT) : Dev :=
  let hit (s : Sig) : Bool := s.dom == dom && s.block == block
  match d.twin.sigs.find? hit, d.twin.sigPartner.find? hit with
  | some a, some b =>
    let d := twinMod d (fun t => { t with sigs := t.sigs.filter (fun s => !hit s), sigPartner := t.sigPartner.filter (fun s => !hit s),
                                          sigPartnerRegs := b.sums })
    if d.twin.state == .verify || d.twin.state == .synced then
      (let g := sigDiff a b
       if g = 0 then twinMod d (fun t => { t with matched := t.matched + 1 }) else diverge d block g)
    else d
  | _, _ => d

/-- A device's own signatures of a published block (R388): kept for the comparison, and sent. -/
def ownSigs (d : Dev) (s : Sig) : Dev :=
  let d := twinMod d (fun t => { t with sigLocalRegs := s.sums, sigs := (t.sigs ++ [s]).reverse.take 16 |>.reverse })
  let d := linkSend d 4 (p8 s.dom ++ zeros 3 ++ p32 s.block.toNat ++ p32 s.ticket.toNat ++ p32 0x1FFFFF ++ s.sums.flatMap (fun w => p32 w.toNat))
  compareSigs d s.dom s.block

/-- The partner's signatures. -/
def partnerSigs (d : Dev) (b : List Byte) : Dev :=
  let s : Sig := { dom := u8 b 0, block := BitVec.ofNat 32 (u32 b 4), ticket := BitVec.ofNat 32 (u32 b 8)
                   sums := (List.range 21).map (fun g => BitVec.ofNat 32 (u32 b (16 + 4 * g))) }
  compareSigs (twinMod d (fun t => { t with sigPartner := (t.sigPartner ++ [s]).reverse.take 16 |>.reverse })) s.dom s.block

end Sys2Proof.Machine
end

