-- ==== Sys2Proof/Machine/Render.lean ====
section
/-! DEFINITION. The render period of a domain (R28–R32): object path, matrix, speaker chain, convolution, HALO, tile ports, and
what is published (R125, R137, R156, R160–R187, R206–R213, R388). -/

namespace Sys2Proof.Machine

def renderMod (d : Dev) (n : Nat) (f : DomRender → DomRender) : Dev := { d with render := { d.render with dom := tabMod d.render.dom n f } }
def getRender (d : Dev) (n : Nat) : DomRender := tabGet d.render.dom n
/-- Domain n renders objects (R477). -/
def objsRender (d : Dev) (n : Nat) : Bool := domRenders d n && rendersObjects (pathMode d)
/-- A follower whose state regions the leader's copy writes (R390). -/
def renderHeld (d : Dev) : Bool := mode d == .twin && d.twin.state == .resync && d.twin.b0.isSome
/-- The image that runs in domain n has the task of built-in instance i, and it was cancelled in this period or completed void (R294, R299). -/
def baseCut (d : Dev) (n i : Nat) : Bool :=
  let T := d.tiles
  match domSlot T.sched n with
  | none => (tabGet T.sched.baseCancel n).contains i
  | some _ => (domTasks T.sched n).any (fun k => let t := getTask T k; t.builtin == some i && t.state == .done && t.outcome != .ok)
def missedIn (r : DomRender) (w i : Nat) : Bool := r.missed.contains (w, i)

/-! The object path. -/

/-- The source sample of an object that landed at k (R82, R83). -/
def objInput (d : Dev) (o : Obj) (k : MT) : Int :=
  let one (s : Src) : Int := if s.kind = 0 then 0 else srcAt d (objSrc s) k
  fadeOf k (one o.src) (o.srcFade.map (fun f => (one f.1, f.2)))

/-- OP_OBJPATH of the objects of domain n on the block that landed from k. -/
def objsPath (d : Dev) (n : Nat) (k : MT) : Dev :=
  ((d.scene.objs.filter (fun kv => objCharged kv.2 && objOf d n kv.2)).map Prod.fst).foldl (fun d no =>
    let o := getObj d.scene no
    let r := pathBlock o.pathCfg (rateOf d n) o.path k ((List.range 16).map (fun i => objInput d o (k + BitVec.ofNat 32 i)))
    let m : Mix := { obj := no, dir := r.2.1.map Prod.fst, dec := r.2.1.map Prod.snd, clips := r.2.2, void := pathVoid o.pathCfg o.path k }
    renderMod (sceneMod d (fun s => objMod s no (fun o => { o with path := r.1 }))) n (fun x => { x with mixes := x.mixes ++ [m] })) d

/-- The sample state of a void block in place of the computed one; changes made since stay (R156). -/
def pathRollback (p v : PathState) : PathState :=
  { p with line := v.line, shelfX := v.shelfX, shelfY := v.shelfY,
           decor := match p.decor, v.decor with
             | some a, some b => if a.filter = b.filter then some b else some a
             | a, _ => a,
           decorOld := p.decorOld.map (fun o => ((v.decorOld.find? (fun q => q.2 == o.2)).map (fun q => (q.1, o.2))).getD o) }

/-- The blocks of the objects p names are void (R156). -/
def voidObjs (d : Dev) (n : Nat) (p : Nat → Bool) : Dev :=
  let ms := (getRender d n).mixes.filter (fun m => p m.obj)
  let d := sceneMod d (fun s => ms.foldl (fun s m => cntMod (objMod s m.obj (fun o => { o with path := pathRollback o.path m.void })) n
    (fun c => { c with pathVoid := cInc c.pathVoid })) s)
  renderMod d n (fun x => { x with mixes := x.mixes.filter (fun m => !p m.obj) })

/-! The matrix (R118, R124, R125). -/

/-- The object signals s(k) of a period with their clips: object, its 16 samples. -/
def objSignals (d : Dev) (r : DomRender) (k : MT) : List (Obj × List (Int × Nat)) :=
  r.mixes.map (fun m =>
    let o := getObj d.scene m.obj
    (o, (List.range 16).map (fun i =>
      let kk := k + BitVec.ofNat 32 i
      satClip (shrRne (rampAt o.cdir kk * m.dir.getD i 0 + rampAt o.cdec kk * m.dec.getD i 0) 28))))

/-- Column c over the block, with clips. -/
def matrixCol (ss : List (Obj × List (Int × Nat))) (c : Nat) (k : MT) : List (Int × Nat) :=
  let es := ss.filterMap (fun s => (s.1.ents.find? (fun e => e.1 == c)).map (fun e => (e.2, s.2)))
  (List.range 16).map (fun i =>
    let kk := k + BitVec.ofNat 32 i
    satClip (shrRne (es.foldl (fun a e => a + rampAt e.1 kk * (e.2.getD i (0, 0)).1) 0) 28))

/-- The columns of domain n after the matrix: clips counted; zeros while PRISM does not run. -/
def matrixOut (d : Dev) (n : Nat) (r : DomRender) (k : MT) : Dev × Tab (List Int) :=
  let ss := if d.scene.prismCtrl.getLsbD 0 then objSignals d r k else []
  let d := sceneMod d (fun s =>
    cntMod { s with objmixClip := cAdd s.objmixClip (ss.foldl (fun a x => a + x.2.foldl (fun b y => b + y.2) 0) 0) } n
      (fun c => { c with pathClip := cAdd c.pathClip (r.mixes.foldl (fun a m => a + m.clips) 0) }))
  ((d.scene.cols.filter (fun kv => colOf d n kv.1)).map Prod.fst).foldl (fun (a : Dev × Tab (List Int)) c =>
    let ys := matrixCol ss c k
    let ys := if r.objsEnd then ys.zipIdx.map (fun p => ((mulGain p.1.1 (fadeAt k (k + BitVec.ofNat 32 p.2))).1, p.1.2)) else ys
    let d := sceneMod a.1 (fun s => { s with cols := tabMod s.cols c (fun x => { x with clip := cAdd x.clip (ys.foldl (fun b y => b + y.2) 0) }) })
    (d, tabSet a.2 c (ys.map Prod.fst))) (d, [])

/-! The speaker chain (R160–R168). -/

/-- The matrix groups that OP_CHAIN of column group g waits for: its own, and those of the members that feed a destination in it (R161). -/
def chainWaits (d : Dev) (g : Nat) : List Nat :=
  let fed := (List.range 16).filter (fun b => let x := tabGet d.chain.groups b; x.order != 0 && x.dests.any (fun q => q / 32 == g))
  let members := (d.scene.cols.map Prod.fst).filter (fun c => fed.any (fun b => isMember d.chain (bassLayout d) (boundCol d) b c))
  (g :: members.map (· / 32)).eraseDups

/-- The chain group of a column is void in this period: a matrix group that it waits for was cut, or its OP_CHAIN was (R161, R186). -/
def chainCut (d : Dev) (n : Nat) (r : DomRender) (c : Nat) : Bool :=
  (chainWaits d (c / 32)).any (missedIn r 3) || missedIn r 4 (c / 32) || baseCut d n (chainInst (c / 32))

/-- What a path that a crossfade leaves gives beside the one in force. -/
def stageMix {α : Type} (fade : Option (StageFade α)) (k : MT) (new : Int) (old : α → Int × α × Nat) : Int × Option (StageFade α) × Nat :=
  match fade with
  | none => (new, none, 0)
  | some f => let r := old f.old; (xfade f.n (mtDiff k f.t) r.1 new, some { f with old := r.2.1 }, r.2.2)

/-- Bass management and EQ of column c for sample k. -/
def headStep (c : Nat) (f : Nat) (k : MT) (xs : Nat → Int) (s : ChainState) : ChainState × Int × Nat :=
  let b := bassStep s.bass f xs c
  let bm := stageMix s.bassOld k b.1 (fun p => bassStep p f xs c)
  let e := eqStep s.eq bm.1
  let em := stageMix s.eqOld k e.1 (fun p => eqStep p bm.1)
  ({ s with bass := b.2.1, bassOld := bm.2.1, eq := e.2.1, eqOld := em.2.1 }, em.1, b.2.2 + bm.2.2 + e.2.2 + em.2.2)

/-- The EQ and crossover state of a void block (R186). -/
def headVoid (s : ChainState) : ChainState :=
  let bass (p : BassPath) : BassPath := { role := p.role }
  { s with bass := bass s.bass, bassOld := s.bassOld.map (fun f => { f with old := bass f.old }),
           eq := { s.eq with st := [] }, eqOld := s.eqOld.map (fun f => { f with old := { f.old with st := [] } }) }

/-- Sixteen steps of a stage of column c. -/
def overBlock {α : Type} (k : MT) (a : α) (f : α → Nat → MT → α × Int × Nat) : α × List Int × Nat :=
  (List.range 16).foldl (fun (r : α × List Int × Nat) i =>
    let x := f r.1 i (k + BitVec.ofNat 32 i)
    (x.1, r.2.1 ++ [x.2.1], r.2.2 + x.2.2)) (a, [], 0)

/-- The channel whose input is column c: the one that serves it in its active set, else one without an active extent whose other set
names it, which passes the column unchanged and fills its state (R188, R190, R200). -/
def colChan (d : Dev) (c : Nat) : Option Nat :=
  let has (x : MChan) : Bool := chanTarget x == some (0, c)
  ((d.mantle.ch.find? (fun kv => has kv.2 && (extOf kv.2 kv.2.activeB).isSome)).or (d.mantle.ch.find? (fun kv => has kv.2))).map Prod.fst

/-- The FIR stage of a column (R160, R162, R204): bypass and commit crossfades, one crossfade where both start together. -/
def firOut (c : Chain1) (fade : Option MFade) (k : MT) (x new : Int) (old : Option Int) : Int :=
  let mix := chanMix fade k new old
  match c.st.firOld with
  | none => if c.st.firOn then mix else x
  | some o =>
    match fade, old with
    | some f, some y =>
      if f.b - 16 = o.t then xfade f.n (mtDiff k o.t) (if o.old then y else x) (if c.st.firOn then new else x)
      else xfade o.n (mtDiff k o.t) (if o.old then mix else x) (if c.st.firOn then mix else x)
    | _, _ => xfade o.n (mtDiff k o.t) (if o.old then new else x) (if c.st.firOn then new else x)

/-- A block of channel m: its outputs in force and left, or none where the block is void (R213). -/
def chanRun (d : Dev) (n : Nat) (r : DomRender) (m : Nat) (k : MT) (xs : List Int) : Dev × Option (List Int × Option (List Int)) :=
  let c := tabGet d.mantle.ch m
  let put (d : Dev) (c : MChan) : Dev := { d with mantle := { d.mantle with ch := tabSet d.mantle.ch m c } }
  if missedIn r 5 m then
    (put { d with mantle := { d.mantle with void := tabMod d.mantle.void n cInc } } (chanVoid c), none)
  else
    let b := chanBlock c m k xs
    (put { d with mantle := { d.mantle with clip := tabMod d.mantle.clip n (fun w => cAdd w b.2.2.2) } } b.1, some (b.2.1, b.2.2.1))

/-- Column c of domain n: its 16 samples before the gate of R32, and whether its block is complete. -/
def chainCol1 (d : Dev) (n : Nat) (r : DomRender) (k : MT) (cols : Tab (List Int)) (c : Nat) : Dev × List Int × Bool :=
  let f := rateOf d n
  let input (q i : Nat) : Int :=
    if chainCut d n r q then 0
    else match calExc d q f (k + BitVec.ofNat 32 i) false with
      | some x => if pathMode d == .calibrate then x else (tabGet cols q).getD i 0
      | none => (tabGet cols q).getD i 0
  let x := chainSettle (tabGet d.chain.cols c) k
  let cut := chainCut d n r c
  let h : ChainState × List Int × Nat :=
    if cut then (headVoid x.st, List.replicate 16 0, 0) else overBlock k x.st (fun s i kk => headStep c f kk (fun q => input q i) s)
  let x := { x with st := { h.1 with grC := 0, grL := 0 } }
  let fir : Dev × Option (List Int × Option (List Int)) × Option MFade := match colChan d c with
    | some m => if d.mantle.ctrl.getLsbD 0 then (let q := chanRun d n r m k h.2.1; (q.1, q.2, (tabGet d.mantle.ch m).fade)) else (d, some (h.2.1, none), none)
    | none => (d, some (h.2.1, none), none)
  let d := fir.1
  let ys : List Int := match fir.2.1 with
    | some o => (List.range 16).map (fun i => firOut x fir.2.2 (k + BitVec.ofNat 32 i) (h.2.1.getD i 0) (o.1.getD i 0) (o.2.map (fun l => l.getD i 0)))
    | none => List.replicate 16 0
  let t : Chain1 × List Int × Nat :=
    if !d.chain.dynCtrl.getLsbD 0 then (ys.foldl tailIdle x, List.replicate 16 0, 0)
    else overBlock k x (fun x i kk => tailStep x f kk (ys.getD i 0) (if pathMode d == .calibrate then calExc d c f kk true else none))
  let x := { t.1 with st := { t.1.st with holdC := max t.1.st.holdC t.1.st.grC, holdL := max t.1.st.holdL t.1.st.grL } }
  let d : Dev := { d with chain := { d.chain with
    cols := tabSet d.chain.cols c x
    chainClip := tabMod d.chain.chainClip n (fun w => cAdd w h.2.2), outClip := tabMod d.chain.outClip n (fun w => cAdd w t.2.2)
    chainVoid := if cut then tabMod d.chain.chainVoid n cInc else d.chain.chainVoid } }
  (d, t.2.1, !cut && fir.2.1.isSome && !missedIn r 6 c && !missedIn r 7 c)

/-! HALO (R206–R209). -/

/-- The rotated HALO vectors of the block, silent where OP_HALOROT did not complete; the flag says that it did. -/
def haloRot (d : Dev) (n : Nat) (r : DomRender) (k : MT) (cols : Tab (List Int)) : Dev × List (List Int) × Bool :=
  let cut := [16, 17].any (fun g => missedIn r 3 g || missedIn r 4 g) || baseCut d n 82
  let h := haloSettle d.mantle.halo k
  let h := { h with g := rampSettle h.g k, m := rampSettle h.m k }
  let at_ := haloAt h k
  let as := (List.range 16).map (fun i => (List.range nHalo).map (fun j => (tabGet cols (512 + j)).getD i 0))
  let q := if cut then (List.replicate 16 (List.replicate nHalo 0), 0) else rotBlock (h.prev.getD at_) at_ haloOrder as
  ({ d with mantle := { d.mantle with halo := { h with prev := some at_ }, binClip := cAdd d.mantle.binClip q.2 } }, q.1, !cut)

/-- The binaural sum of an ear (R208): exact, and whether each of its HRIR channels completed. -/
abbrev EarSum := List Int × Bool

def hrirSum (d : Dev) (n : Nat) (r : DomRender) (k : MT) (rot : List (List Int)) : Dev × EarSum × EarSum :=
  if !d.mantle.ctrl.getLsbD 0 then (d, (List.replicate 16 0, true), (List.replicate 16 0, true)) else
  ((d.mantle.ch.filterMap (fun kv => match chanTarget kv.2 with
      | some (role, t) => if role = 0 then none else some (kv.1, role, t)
      | none => none)).foldl
    (fun (a : Dev × EarSum × EarSum) e =>
      let q := chanRun a.1 n r e.1 k (rot.map (fun v => v.getD e.2.2 0))
      let fade := (tabGet d.mantle.ch e.1).fade
      let add (s : EarSum) : EarSum := match q.2 with
        | none => (s.1, false)
        | some o =>
          let ys := (List.range 16).map (fun i => chanMix fade (k + BitVec.ofNat 32 i) (o.1.getD i 0) (o.2.map (fun l => l.getD i 0)))
          ((s.1.zip ys).map (fun p => p.1 + p.2), s.2)
      if e.2.1 = 1 then (q.1, add a.2.1, a.2.2) else (q.1, a.2.1, add a.2.2))
    (d, (List.replicate 16 0, true), (List.replicate 16 0, true)))

/-- One ear through the output stage. -/
def earOut (d : Dev) (k : MT) (ys : List Int) : Dev × List Int :=
  let zs := ys.zipIdx.map (fun p => let s := satClip p.1; let z := halOut d.mantle.halo (k + BitVec.ofNat 32 p.2) s.1; (z.1, s.2 + z.2))
  ({ d with mantle := { d.mantle with binClip := cAdd d.mantle.binClip (zs.foldl (fun a z => a + z.2) 0) } }, zs.map Prod.fst)

/-! Publishing (R32, R64, R388). -/

/-- Samples weighted by a gain of the sample's MT. -/
def weigh (k : MT) (g : MT → Int) (ys : List Int) : List Int := ys.zipIdx.map (fun p => (mulGain p.1 (g (k + BitVec.ofNat 32 p.2))).1)

/-- The gate of an output for the block from k: a fourth complete block has been published, so the ramp-in starts here. -/
def gateOpenAt (g : Gate) (k : MT) : Gate := if g.phase = .zero ∧ 4 ≤ g.clean then { phase := .ramp, t := k } else g

/-- The gate after its block from k was complete. -/
def gateAfter (g : Gate) (f : Nat) (k : MT) : Gate :=
  match g.phase with
  | .zero => { g with clean := min 4 (g.clean + 1) }
  | .ramp => if (rampIn f : Int) ≤ mtDiff (k + 16) g.t then { phase := .passing } else g
  | .passing => g
  | .fade => {}

/-- An output's block through its gate: what is emitted, and the gate (R32, R64). -/
def gated (g : Gate) (f : Nat) (k : MT) (closing complete : Bool) (last : Line) (ys : List Int) : List Int × Gate :=
  let g := gateOpenAt g k
  if complete then
    let zs := weigh k (gateAt g f) ys
    if closing then (weigh k (fadeAt k) zs, {}) else (zs, gateAfter g f k)
  else (if g.phase = .zero then List.replicate 16 0 else weigh k (fadeAt k) (lineRead last (k - 16) 16), {})

/-- A column's or an ear's block published: gates are numbered as R32's columns, 640 and 641 for HB0 and HB1. -/
def publishOne (d : Dev) (n : Nat) (closing : Bool) (k : MT) (no : Nat) (complete : Bool) (ys : List Int) : Dev :=
  let last := if no < 640 then tabGet d.render.cols no else tabGet d.render.hb (no - 640)
  let q := gated (tabGet d.render.gates no) (rateOf d n) k closing complete last ys
  let l := linePush (trackLine d no) last k q.1
  { d with render := { d.render with
    gates := tabSet d.render.gates no q.2
    cols := if no < 640 then tabSet d.render.cols no l else d.render.cols, hb := if no < 640 then d.render.hb else tabSet d.render.hb (no - 640) l } }

/-- The tile output ports of domain n (R303, R306): those of the image that runs, and those a switch has taken away. -/
def publishPorts (d : Dev) (n : Nat) (b k : MT) : Dev :=
  let f := rateOf d n
  let ps := domPorts d.tiles.sched n
  let push (d : Dev) (p : Nat) (ys : List Int) (g : Tab Gate) : Dev :=
    { d with render := { d.render with gates := g, tile := tabMod d.render.tile p (fun l => linePush 512 l k ys) } }
  let d := ps.foldl (fun d p =>
    let ys := portSamples d.tiles p.2.1 p.2.2 b
    match d.render.gates.find? (fun kv => kv.1 == 1024 + p.1) with
    | none => push d p.1 ys d.render.gates
    | some (_, g) =>
      push d p.1 (weigh k (gateAt g f) ys)
        (if (gateAfter g f k).phase = .passing then d.render.gates.filter (fun kv => kv.1 != 1024 + p.1) else d.render.gates)) d
  let gone := d.render.gates.filterMap (fun kv => if 1024 ≤ kv.1 ∧ kv.2.phase = .fade ∧ (tabGet d.render.tile (kv.1 - 1024)).next = k then some (kv.1 - 1024) else none)
  gone.foldl (fun d p => push d p (weigh k (fadeAt k) (lineRead (tabGet d.render.tile p) (k - 16) 16)) (d.render.gates.filter (fun kv => kv.1 != 1024 + p))) d

/-- The signatures of the block that landed from k (R388). -/
def blockSigs (d : Dev) (n : Nat) (k : MT) : Sig :=
  let bytes (l : Line) : List Byte := (lineRead l k 16).flatMap s32
  let col (c : Nat) : List Byte := if c < 640 && colOf d n c then bytes (tabGet d.render.cols c) else zeros 64
  { dom := n, block := k, ticket := d.twin.applied,
    sums := (List.range 20).map (fun g => crc32c ((List.range 32).flatMap (fun j => col (32 * g + j)))) ++
      [crc32c (if haloDom d = some n then bytes (tabGet d.render.hb 0) ++ bytes (tabGet d.render.hb 1) else zeros 128)] }

/-- BLOCK_PUBLISH: the block of the period under way is rendered and released. -/
def publish (d : Dev) (n : Nat) : Dev :=
  let r := getRender d n
  if !r.active || r.published then d else
  let d := voidObjs d n (fun o => baseCut d n (o / 16))
  let r := getRender d n
  let k := r.b - 16
  let mx := matrixOut d n r k
  let cols := (mx.1.scene.cols.filter (fun kv => chainOf mx.1 n kv.1)).map Prod.fst
  let d := cols.foldl (fun (d : Dev) c =>
    let q := chainCol1 d n r k mx.2 c
    publishOne q.1 n r.closing k c q.2.2 q.2.1) mx.1
  let d := if haloDom d = some n then
      let rot := haloRot d n r k mx.2
      let s := hrirSum rot.1 n r k rot.2.1
      let e0 := earOut s.1 k s.2.1.1
      let e1 := earOut e0.1 k s.2.2.1
      let ok (x : EarSum) (i : Nat) : Bool := rot.2.2 && x.2 && !missedIn r 6 i && !missedIn r 7 i
      publishOne (publishOne e1.1 n r.closing k 640 (ok s.2.1 640) e0.2) n r.closing k 641 (ok s.2.2 641) e1.2
    else d
  let d := publishPorts d n r.b k
  let d := renderMod d n (fun x => { x with
    published := true, mixes := [], outGate := if x.closing then gateFade k else gateAfter (gateOpenAt x.outGate k) (rateOf d n) k })
  if isFollower d || isLeader d then ownSigs d (blockSigs d n k) else d

def execBlockPublish (d : Fin 3) (s : State) : Host.Outcome State Fault Refusal := run (fun x => publish x d.val) s

/-- WINDOW_DEADLINE (R32, R298): window w of R28 is cut.  `missed` numbers its unfinished work: object groups of 16 for window 1,
column groups of 32 for windows 3 and 4, MANTLE channels for window 5, columns (640 and 641 for HB0 and HB1) for windows 6 and 7.
In window 4, 32 says that OP_TRACK's block found no core free: it is skipped, and nothing is cut off (R252). -/
def windowMiss (d : Dev) (n w : Nat) (missed : List Nat) : Dev :=
  let r := getRender d n
  if !r.active || r.published || r.cut.contains w then d else
  let tw : Option Nat := if w = 1 then some 0 else if w = 4 then some 1 else none
  let left := match tw with
    | some i => (domTasks d.tiles.sched n).any (fun t => (getTask d.tiles t).window == i && (getTask d.tiles t).state != .done && (getTask d.tiles t).state != .idle)
    | none => false
  let d := match tw with
    | some i => tilesMod d (fun T => windowCut T n i)
    | none => d
  let d := if w = 4 ∧ missed.contains 32 ∧ trackDom d = some n then trackMod d (fun x => { x with late := true }) else d
  let missed := if w = 4 then missed.filter (fun i => decide (i ≠ 32)) else missed
  let d := renderMod d n (fun x => { x with cut := x.cut ++ [w], missed := x.missed ++ missed.map (fun i => (w, i)) })
  let d := if w = 1 then voidObjs d n (fun o => missed.contains (o / 16)) else d
  if missed.isEmpty && !left then d
  else evFault (fw d (fun f => { f with stageOverrun := tabMod f.stageOverrun n cInc })) 1 0 w n r.b 0 0 0

def execWindowDeadline (d : Fin 3) (window : Fin 8) (missed : List Nat) (s : State) : Host.Outcome State Fault Refusal :=
  run (fun x => windowMiss x d.val window.val missed) s

/-- COLUMN_RAMP_IN (R32): four complete blocks have been published; the ramp starts at the next block. -/
def columnRampIn (d : Dev) (c : Nat) : Dev :=
  let g := tabGet d.render.gates c
  let n := if c < 640 then colDomOf d c else haloDom d
  match n with
  | some n =>
    let r := getRender d n
    if g.phase = .zero ∧ 4 ≤ g.clean ∧ c < 642 then
      { d with render := { d.render with gates := tabSet d.render.gates c { phase := .ramp, t := if r.published then r.b else r.b - 16 } } }
    else d
  | none => d

def execColumnRampIn (column : Nat) (s : State) : Host.Outcome State Fault Refusal := run (fun d => columnRampIn d column) s

end Sys2Proof.Machine
end

