-- ==== Sys2Proof/Machine/Apply.lean ====
section
/-! DEFINITION. The rule of each request by its opcode and action, and what each shadow commit does at its boundary (R35, R379,
R424). -/

namespace Sys2Proof.Machine

/-- The rule that judges a request. -/
def judgeOf (op : Op) (p : List Byte) : Judge1 :=
  match op with
  | .hello => judgeHello | .version => judgeVersion | .caps => judgeCaps | .ping => judgePing | .bye => judgeBye
  | .modeSet => judgeModeSet | .modeGet => judgeModeGet | .resetReq => judgeResetReq
  | .telemetryGet => if u8 p 0 = 0 then judgeCounters else judgeBlock
  | .logRead => judgeLogRead | .outLatencyGet => judgeOutLatency
  | .domainCfg => match u8 p 1 with | 0 => judgeDomSet | 1 => judgeDomStart | 2 => judgeDomStop | 3 => judgeDomRealign | _ => judgeDomGet
  | .ptpCfg => judgePtpCfg | .pulseCfg => judgePulseCfg | .captureCfg => judgeCaptureCfg
  | .layoutBegin => judgeLayoutBegin | .layoutSpk => judgeLayoutSpk | .layoutCommit => judgeLayoutCommit
  | .objCfg => judgeObjCfg | .objUpdate => judgeObjUpdate | .objUpdateBatch => judgeObjBatch | .objQuery => judgeObjQuery
  | .routeSet => judgeRouteSet | .busCfg => judgeBusCfg | .matrixDirect => judgeMatrixDirect
  | .chainCfg => if u8 p 0 = 1 then judgeBassGroup else judgeChainColumn
  | .eqSet => judgeEqSet | .delaySet => judgeDelaySet
  | .dynCfg => if u8 p 2 = 1 then judgeGrRead else judgeDynSet
  | .outGain => judgeOut false | .outMute => judgeOut true
  | .firLoad => judgeFirLoad | .firCommit => judgeFirCommit | .firStatus => judgeFirStatus
  | .haloCfg => match u8 p 0 with | 1 => judgeHaloOrient | 2 => judgeHaloGet | _ => judgeHaloSet
  | .seamCfg => if u8 p 2 = 1 then judgeSeamGet else judgeSeamSet
  | .micCfg => if u8 p 1 = 1 then judgeMicGet else judgeMicSet
  | .toneDetCfg => match u8 p 1 with | 1 => judgeDetStop | 2 => judgeDetGet | _ => judgeDetSet
  | .calStart => match u8 p 0 with | 1 => judgeDesign | 2 => judgeAbort | _ => judgeMeasure
  | .calResult => judgeCalResult
  | .trackCfg => match u8 p 0 with | 1 => judgeTrackGet | 2 => judgeTrackRead | _ => judgeTrackSet
  | .trackProposal => match u8 p 0 with | 1 => judgePropRead | 2 => judgePropDiscard | _ => judgePropList
  | .portCfg => match u8 p 2 with | 1 => judgePortGet | 2 => judgePortSource | 3 => judgeCsRead | 4 => judgeCsWrite | _ => judgePortSet
  | .slotMask => judgeSlotMask
  | .alignGroup => match u8 p 1 with | 1 => judgeGroupGet | 2 => judgeGroupDissolve | _ => judgeGroupSet
  | .netPortCfg => match u8 p 1 with | 1 => judgeNetGet | 2 => judgeNetFilter | _ => judgeNetSet
  | .flowRxCfg => if u8 p 2 = 1 then judgeFlowRxLeg else judgeFlowRxSet
  | .flowTxCfg => match u8 p 2 with | 1 => judgeFlowTxLeg | 2 => judgeFlowTxSource | _ => judgeFlowTxSet
  | .flowState => judgeFlowState
  | .gateList => if u8 p 17 = 1 then judgeGateClear else judgeGateSet
  | .twinCfg => if u8 p 0 = 1 then judgeTwinGet else judgeTwinSet
  | .twinState => judgeTwinState | .twinSwap => judgeTwinSwap
  | .graphLoad => judgeGraphLoad | .graphStart => judgeGraphStart | .graphStop => judgeGraphStop | .taskCancel => judgeTaskCancel
  | .fwUpdateBegin => judgeUpdateBegin | .fwChunk => judgeChunk | .fwCommit => judgeFwCommit | .fwSlotInfo => judgeSlotInfo
  | .selftestRun => judgeSelftest

/-- What a shadow commit does at boundary b. -/
def applyOf (op : Op) (p : List Byte) : Apply1 :=
  match op with
  | .objCfg => applyObjCfg
  | .busCfg => applyBusCfg
  | .chainCfg => if u8 p 0 = 1 then applyBassGroup else applyChainColumn
  | .eqSet => applyEqSet
  | .delaySet => applyDelaySet
  | .dynCfg => applyDynSet
  | .outGain => applyOut false
  | .outMute => applyOut true
  | .haloCfg => applyHaloSet
  | .seamCfg => applySeam
  | .micCfg => applyMic
  | .toneDetCfg => applyDet
  | .calStart => applyMeasure
  | .portCfg => applyPort
  | .alignGroup => applyGroup
  | .flowRxCfg => applyFlowRx
  | .flowTxCfg => applyFlowTx
  | _ => fun d _ _ => (d, .ok, [])

/-! Commits of a boundary. -/

/-- The commit may take effect at boundary b of domain n: its apply boundary has come, the power domain it needs is on, its
measurement may start. -/
def commitDue (d : Dev) (n : Nat) (b : MT) (c : Commit) : Bool :=
  let p := c.taken.req.payload
  c.dom == n && (match c.st with | some s => mtGe b s | none => true) &&
    (match c.taken.op with
     | .micCfg => u8 p 1 != 0 || !(micCfgOf p).enable || pdOn d 6
     | .portCfg => u8 p 2 != 0 || !bit (u8 p 3) 0 || pdOn d 6
     | .calStart => measureDue p b
     | _ => true)

/-- BUS_CFG commits of one column at one boundary are one change, made at the last (R107). -/
def busTogether (d : Dev) (n : Nat) (b : MT) (c : Commit) : List Taken :=
  (d.fw.commits.filter (fun x => commitDue d n b x && x.taken.op == .busCfg && u16 x.taken.req.payload 0 == u16 c.taken.req.payload 0)).map (·.taken)

/-- One commit takes effect at boundary b of domain n and is answered; a DOMAIN_CFG is answered when the boundary has been
judged. -/
def commitOne (d : Dev) (n : Nat) (b : MT) (c : Commit) : Dev :=
  let t := c.taken
  let p := t.req.payload
  let gone (d : Dev) : Dev := fw d (fun f => { f with commits := f.commits.erase c })
  match t.op with
  | .domainCfg => gone (applyDomCfg d t)
  | .modeSet => match modeOf (u8 p 0) with
    | some m => beginMode (gone d) m (if t.req.ch.val = 5 then 3 else 0) (some t)
    | none => gone d
  | .busCfg =>
    let ts := busTogether d n b c
    if ts.getLast? = some t then
      let d := applyBus d ts (some b)
      fw d (fun f => { f with commits := f.commits.filter (fun x => !(commitDue d n b x && x.taken.op == .busCfg && u16 x.taken.req.payload 0 == u16 p 0)) })
    else d
  | _ => let r := applyOf t.op p d t (some b); gone (reply r.1 t r.2.1 r.2.2)

/-- A column's FIR bypass and its channel's commit at one boundary are one crossfade of the commit's length (R214). -/
def firTogether (d : Dev) (n : Nat) (b : MT) : Dev :=
  chainsWhere d (chainOf d n) (fun c x =>
    match x.st.firOld, (colChan d c).bind (fun m => (tabGet d.mantle.ch m).fade) with
    | some o, some f => if o.t = b - 16 ∧ f.b = b then { x with st := { x.st with firOld := some { o with n := f.n } } } else x
    | _, _ => x)

/-- The shadow commits of domain n due at boundary b, in acceptance order (R35), with layouts and MANTLE swaps. -/
def commitsAt (d : Dev) (n : Nat) (b : MT) : Dev :=
  let due := d.fw.commits.filter (commitDue d n b)
  let d := due.foldl (fun d c => commitOne d n b c) d
  let d := mantleBoundary (layoutBoundary d n b) n b
  let d := chainsMoved d n b
  let d := firTogether d n b
  if due.any (fun c => c.taken.op == .portCfg || c.taken.op == .micCfg) then powerPlan d else d

end Sys2Proof.Machine
end

