-- ==== Sys2Proof/Machine/Boundary.lean ====
section
/-! DEFINITION. A domain's boundary: what lands, what takes effect, what the domain's state becomes, what the period that begins
renders, and what a pair exchanges (R31, R34, R35, R60–R64, R90, R379–R391, R480, R521). -/

namespace Sys2Proof.Machine

/-! Command tickets on a follower (R378, R379). -/

/-- A command ticket as the request it carries, taken on MBX5: body is opcode, length, payload and any bulk region. -/
def ticketTaken (d : Dev) (t : Ticket) (op : Op) : Taken :=
  let len := u16 t.body 2
  { op := op, epoch := (getMbx d 5).epoch, mode := mode d
    req := { ch := 5, tag := t.no.setWidth 16, replyReq := false, bulk := decide (4 + len < t.body.length), payload := slice t.body 4 len } }

/-- A command ticket judged and carried out; its S_t stands for the next selection boundary. -/
def runTicket (d : Dev) (t : Ticket) : Dev :=
  match opOf (u16 t.body 0) with
  | none => d
  | some op =>
    let x := ticketTaken d t op
    let bulk : Option (List Byte) := if x.req.bulk then some (t.body.drop (4 + x.req.payload.length)) else none
    let r := judgeOf op x.req.payload (twinMod d (fun w => { w with applyAt := some t.st })) x bulk
    twinMod (finish r.1 x bulk r.2) (fun w => { w with applyAt := none })

/-- The tickets of domain n due at boundary b, in their order.  In RESYNC the leader's copy holds the effect of every ticket but a mode
change (R390). -/
def ticketsAt (d : Dev) (n : Nat) (b : MT) : Dev :=
  let due (t : Ticket) : Bool := t.dom == n && mtGe b t.st
  let ts := d.twin.tickets.filter due
  let d := twinMod d (fun t => { t with tickets := t.tickets.filter (fun x => !due x) })
  let d := ts.foldl (fun d t => if d.twin.state == .resync && u16 t.body 0 != opCode .modeSet then d else runTicket d t) d
  twinMod d (fun t =>
    { t with
      applied := ((t.ledger.filter (fun e => e.2.1 == n && mtGe b e.2.2)).map Prod.fst).foldl (fun a e => if mtLater e a then e else a) t.applied
      ledger := t.ledger.filter (fun e => !(e.2.1 == n && mtGe b e.2.2)) })

/-! What a pair exchanges at a boundary (R374, R375, R384, R386, R390, R391). -/

def markerBytes (d : Dev) (n : Nat) : List Byte :=
  let x := getDom d n
  p8 n ++ p8 (domCode x.state) ++ p8 (if slaved d then (tabGet d.twin.markers n).source else x.cfg.source) ++ p8 (domFlags x) ++ p32 x.cfg.rate ++
    p32 x.mt.toNat ++ zeros 4 ++ p64 x.dt.toNat

/-- Values of the bridges into domain n for the block that lands from b. -/
def loopBytes (d : Dev) (n : Nat) (b : MT) : Option (List Byte) :=
  let bs := d.seam.br.filter (fun kv => kv.2.cfg.enable && effDom d kv.2.cfg.outDom == n && (kv.2.state == .acquire || kv.2.state == .track))
  if bs.isEmpty then none else
  some (zeros 2 ++ p16 bs.length ++ p32 b.toNat ++ bs.flatMap (fun kv =>
    p16 kv.1 ++ p8 (brCode kv.2.state) ++ zeros 1 ++ p64 (wrapNat 64 kv.2.loop.pos) ++ p64 (wrapNat 64 kv.2.loop.rhoU)))

/-- AES3 and TDM receive channels of domain n: port kind, port, channel. -/
def portChans (d : Dev) (n : Nat) : List (Nat × Nat × Nat) :=
  ((d.ports.aesRx.filter (fun kv => kv.2.cfg.enable && kv.2.cfg.domain == n)).flatMap (fun kv => [(0, kv.1, 0), (0, kv.1, 1)])) ++
  ((d.ports.tdm.filter (fun kv => kv.2.cfg.enable && kv.2.cfg.domain == n)).flatMap (fun kv =>
    ((List.range kv.2.cfg.slots).filter (fun s => bit kv.2.rxMask.toNat s)).map (fun s => (2, kv.1, s))))

/-- The leader's samples of those channels for the block that landed as b, 16 samples after R44, through the gates of a fault of a
SerDes rail (R257). -/
def portBytes (d : Dev) (n : Nat) (b : MT) : Option (List Byte) :=
  let cs := portChans d n
  if cs.isEmpty then none else
  some (p8 1 ++ zeros 1 ++ p16 cs.length ++ p32 b.toNat ++ cs.flatMap (fun c =>
    let s : Src := { kind := if c.1 = 0 then 2 else 3, index := c.2.1, chan := c.2.2 }
    p8 c.1 ++ p8 c.2.1 ++ p8 c.2.2 ++ zeros 1 ++ (List.range 16).flatMap (fun i => s32 (mulGain (srcAt d s (b + BitVec.ofNat 32 i)) (muteGain d 0 n (b + 16 + BitVec.ofNat 32 i))).1)))

/-- Frames and heartbeats of boundary b of domain n; the announced start boundaries that b reaches are past. -/
def pairBoundary (d : Dev) (n : Nat) (b : MT) : Dev :=
  if mode d != .twin || d.twin.state == .off then d else
  let d := linkSend d 0 (markerBytes d n)
  if !mtRuns (getDom d n) then d else
  let d := heartbeats d n b
  let send (d : Dev) (x : Option (List Byte)) : Dev := match x with
    | some bs => linkSend d 3 bs
    | none => d
  let d := if isLeader d then send (send d (loopBytes d n b)) (portBytes d n b) else d
  if hbDom d != some n then d else
  twinMod d (fun t =>
    { t with
      txStart := t.txStart.bind (fun s => if mtGe b s then none else some s)
      partnerStart := t.partnerStart.bind (fun s => if mtGe b s then none else some s)
      b0 := if t.state == .resync && t.b0.isNone && linkUp t then some b else t.b0 })

/-! The period that begins (R28, R61, R64, R480, R521). -/

/-- Outputs of domain n start from zero again (R521). -/
def gatesZero (d : Dev) (n : Nat) : Dev :=
  { d with render := { d.render with gates := d.render.gates.filter (fun kv =>
      !(if kv.1 < 640 then colOf d n kv.1 else kv.1 < 642 && haloDom d == some n)) } }

/-- What begins to be rendered in domain n takes its targets at once. -/
def joinRender (d : Dev) (n : Nat) (x : Domain) (r : DomRender) : Dev :=
  if !x.rendered then domMod (stageAtOnce d n (fun _ => true)) n (fun x => { x with relock := false })
  else
    let d := if objsRender d n && !r.objs then gatesZero (objsAtOnce d n (fun _ => true)) n else d
    if single d && !r.single then stageAtOnce d n (fun k => k != n) else d

/-- The period of domain n that begins at boundary b: it renders where the domain renders, and once more where the domain or the mode
has just ended rendering. -/
def renderBegin (d : Dev) (n : Nat) (b : MT) : Dev :=
  let x := getDom d n
  let r := getRender d n
  let idle (r : DomRender) : DomRender := { r with b := b, active := false, objs := false, objsEnd := false, mixes := [], cut := [], missed := [], published := true }
  if renderHeld d && domRenders d n then domMod (renderMod d n (fun r => { idle r with closing := false })) n (fun x => { x with rendered := true })
  else
    let renders := domRenders d n
    let closes := match x.closing with
      | some c => c.counts && c.b == b
      | none => false
    let leaves := x.rendered && !renders && domRuns x.state
    if renders || closes || leaves then
      let d := if leaves then stageEndNow d n else if renders then joinRender d n x r else d
      let now := if renders then objsRender d n else r.objs
      let ends := renders && x.rendered && r.objs && !now
      let d := renderMod d n (fun r =>
        { r with
          b := b, active := true, objs := now, objsEnd := ends, closing := closes || leaves, single := single d
          mixes := [], cut := [], missed := [], published := false, outGate := if x.rendered then r.outGate else {} })
      let d := domMod d n (fun x => { x with rendered := renders || closes })
      if now || ends then objsPath d n (b - 16) else d
    else
      let d := if r.active && r.closing && x.closing.isNone then stageClear (bridgesFill d n) n else d
      renderMod d n (fun r => { idle r with closing := r.active && r.closing })

/-- The selection of domain n at boundary b (R90–R97, R129, R134). -/
def selectAt (d : Dev) (n : Nat) (b : MT) : Dev :=
  let f := rateOf d n
  let sc := if single d then sceneView d else d.scene
  let cx : SelCtx :=
    { d := n, S := b, f := f, allot := (getDom d n).cfg.allot, reserve := xReserve (domCharge sc n f) f (totalCharge sc (single d) (rateOf d)), report := d.hif.ctrlUp }
  let q := select cx sc
  let d : Dev := { d with scene := if single d then sceneBack d.scene q.1 else q.1 }
  match q.2 with
  | some p => event d 4 p
  | none => d

/-! The domain's clock (R59, R60, R63, R68). -/

/-- The mean of the reference's offsets over the newest 1,024 blocks. -/
def freqMean (l : List Int) : Int := if l.isEmpty then 0 else rne l.sum l.length

/-- What the boundary measured. -/
def domMeasured (x : Domain) (m : Boundary) : Domain := { x with dt := m.dt, phase := m.phase, refPpb := m.refPpb }

/-- The clock of the block that begins, in the state that the boundary has found: the frequency offset follows the reference, its held
average, or the slew (R60, R63); the word-clock output starts and stops (R68). -/
def domPaced (x : Domain) : Domain :=
  let hist := if x.state = .locked then (x.refPpb :: x.freqHist).take 1024 else x.freqHist
  let slew : Int := min 10000 (x.phase.natAbs : Int)
  let slew := if x.phase < 0 then -slew else slew
  let f := match x.state with
    | .holdover => freqMean x.freqHist
    | .locked => if x.slewing then x.refPpb - slew else x.refPpb
    | _ => x.refPpb
  { x with freqHist := hist, freqPpb := f, wcRuns := x.cfg.flags.getLsbD 3 && domRuns x.state }

/-- The level of a word-clock output, samples and a fraction after the boundary (R68): high for the first half of each sample period, or
of each m of them from an MT that is a multiple of m. -/
def wcLevel (x : Domain) (k : Nat) (frac : Half) : Bool :=
  let p := if x.cfg.flags.getLsbD 4 then rateM x.cfg.rate else 1
  x.wcRuns && decide (2 * ((x.mt.toNat + k) % p * 65536 + frac.toNat) < p * 65536)

/-- What has landed by boundary b of domain n. -/
def boundaryLands (d : Dev) (n : Nat) (b : MT) (m : Boundary) : Dev :=
  let d := takePdm d m.pdm
  let good := (List.range 8).filter (fun i =>
    let c := getMic d i
    c.cfg.enable && effDom d c.cfg.domain == n && c.state == .track && c.fade.isNone)
  let d := trackLand (calLand (micsLand d n b) n b good) n b
  let d := if slaved d && !renderHeld d then
      let r := bridgesLed d n (b - 16)
      if r.2 then diverge r.1 (b - 16) (2 ^ 23) else r.1
    else d
  portsLand (flowsLand (bridgesLand d n b m.dt) n b) n b

/-- What changes at boundary b of domain n: tickets, shadow commits, the domain's state, images, the period that begins, and what was
selected for it. -/
def boundaryTakes (d : Dev) (n : Nat) (b : MT) (m : Boundary) : Dev :=
  let d := tilesMod d (fun T => schedMod T (fun s => { s with baseCancel := tabSet s.baseCancel n [] }))
  let d := ticketsAt d n b
  let cfgs := (d.fw.commits.filter (fun c => commitDue d n b c && c.taken.op == .domainCfg)).map (·.taken)
  let d := commitsAt d n b
  let d := judgeBoundary (takeNext d n) n b m.dt m.phase
  let d := domMod d n domPaced
  let d := cfgs.foldl domCfgReply d
  let d := renderBegin (graphBoundary d n b) n b
  let d := if (getRender d n).active && domRuns (getDom d n).state then tilesMod d (fun T => armDomain T n b) else d
  let d := cancelBoundary d n b
  tilesMod d schedTick

/-- What follows at boundary b: loops, port starts, calibration, fault gates, settled ramps, the selection, the pair's frames. -/
def boundaryFollows (d : Dev) (n : Nat) (b : MT) (m : Boundary) : Dev :=
  let d := if single d && n == 0 then singleRefresh d else d
  let d := bridgesBoundary (micsBoundary d n b) n b m.dt m.ends
  let d := mutesBoundary (calBoundary (portsBoundary d n b) n b) n b
  let d := objsWhere (flowsView d n b) (objOf d n) (settleObj b)
  let renders := domRenders d n && !renderHeld d
  let d := if renders && objsRender d n && d.scene.prismCtrl.getLsbD 0 then selectAt d n b else d
  let d := if renders then chainsWhere d (chainOf d n) (fun _ c => timedStart c b) else d
  pairBoundary (firSnapTake d n b) n b

/-- DOMAIN_BOUNDARY. -/
def domainBoundary (d : Dev) (n : Nat) (m : Boundary) : Dev :=
  let d := dtTo d m.dt
  let x := getDom d n
  let counts := match x.closing with
    | some c => c.counts && !mtGe x.mt (c.b + 32)
    | none => false
  if domRuns x.state || counts then
    let d := publish d n
    let b := nextMt x.mt
    let d := dmaEdge (domMod d n (fun x => domMeasured { x with mt := b } m)) 3 n
    boundaryFollows (boundaryTakes (boundaryLands d n b m) n b m) n b m
  else if x.state = .acquire then
    pairBoundary (domMod d n (fun x =>
      { domMeasured x m with within := if refValid d n x.cfg && decide (m.phase.natAbs ≤ 100) then x.within + 1 else 0 })) n x.mt
  else d

def execDomainBoundary (d : Fin 3) (m : Boundary) (s : State) : Host.Outcome State Fault Refusal := run (fun x => domainBoundary x d.val m) s

end Sys2Proof.Machine
end

