-- ==== Sys2Proof/Machine/LinkRx.lean ====
section
/-! DEFINITION. A Silton link frame received (R373–R376, R379–R384, R386, R388). -/

namespace Sys2Proof.Machine

/-! MARKER (R382). -/

def domStateOf : Nat → DomState
  | 1 => .acquire | 2 => .locked | 3 => .holdover | 4 => .realign | _ => .stopped

/-- A follower's domain enters the leader's count. -/
def markerLock (d : Dev) (n : Nat) (st : DomState) (rate : Nat) (mt : MT) (dt : DT) : Dev :=
  let d := domMod d n (fun x =>
    { x with
      cfg := { x.cfg with rate := rate }, mt := mt, dt := dt, acquireTimeout := false, rendered := false, refLost := false, within := 0, started := true
      stopReq := false, realignReq := false, nextCfg := none, closing := none })
  domState (pulsesReseat (sceneMod d (fun s => rejudgeQueue s n (nextMt mt) rate)) n mt) n st mt dt

/-- A follower's domain takes the leader's state; a domain with another MT or rate realigns (R64). -/
def markerFollow (d : Dev) (n : Nat) (st : DomState) (rate : Nat) (mt : MT) (dt : DT) : Dev :=
  let x := getDom d n
  let realign (d : Dev) : Dev := domMod d n (fun x => { x with realignReq := true, nextCfg := some { x.cfg with rate := rate } })
  match st with
  | .locked | .holdover =>
    if domRuns x.state then
      (if rate = x.cfg.rate ∧ (mtDiff mt x.mt).natAbs ≤ 16 then domState d n st mt dt else realign d)
    else if x.closing.isSome then d
    else markerLock d n st rate mt dt
  | .stopped =>
    if domRuns x.state then domMod d n (fun x => { x with stopReq := true }) else if x.state = .stopped then d else stopNow d n
  | .acquire | .realign =>
    if domRuns x.state then realign d
    else if x.state = .stopped ∧ x.closing.isNone then domStart d n { x.cfg with rate := rate } else d

def takeMarker (d : Dev) (b : List Byte) : Dev :=
  let n := u8 b 0
  if 2 < n then d else
  let m : Marker := { state := u8 b 1, source := u8 b 2, flags := u8 b 3, rate := u32 b 4, mt := BitVec.ofNat 32 (u32 b 8), dt := BitVec.ofNat 64 (u64 b 16), fresh := true }
  let d := twinMod d (fun t => { t with markers := tabSet t.markers n m, markerMiss := 0 })
  if slaved d then
    -- the domain's source is the leader's too (R382)
    let d := if m.state = 0 ∨ 2 < m.source then d else domMod d n (fun x => { x with cfg := { x.cfg with source := m.source } })
    markerFollow d n (domStateOf m.state) m.rate m.mt m.dt else d

/-! TICKET (R375, R378–R381). -/

/-- A queue operation of the leader, carried out on arrival and not served before S_t. -/
def ticketQueue (d : Dev) (queue dom : Nat) (st : MT) (b : List Byte) : Dev :=
  let obj := u16 b 2
  let t : MT := BitVec.ofNat 32 (u32 b 4)
  let late := u8 b 8 == 8
  let p := b.drop 12
  let o := getObj d.scene obj
  let put (r : Option Scene) : Dev := match r with
    | some sc => { d with scene := sc }
    | none => d
  let ramp := if u32 p 8 = 0 then o.defRampUs else u32 p 8
  if queue = 1 then
    put (enqueueDirect d.scene { obj := obj, dom := dom, t := t, rampUs := ramp, clear := bit (u8 p 3) 0, cols := directCols p, late := late, hold := some st })
  else if p.length = 44 then
    match updOf p (some t) with
    | some u => put (enqueueMeta d.scene { updEntry d u with dom := dom, late := late, hold := some st })
    | none => d
  else
    put (enqueueMeta d.scene
      { obj := obj, dom := dom, t := t, mask := 0, vals := {}, route := some (routeOf p), rampUs := some ramp, late := late, hold := some st })

/-- The boundaries that the leader names for work that is complete (R380): those of the request that the ticket numbered c carried. -/
def ticketCompleted (d : Dev) (c : Word) (mts : List MT) : Dev :=
  let mine (t : Taken) : Bool := t.req.ch.val == 5 && t.req.tag == c.setWidth 16
  let at_ (n : Nat) : Option MT := some (mts.getD n 0)
  let d := sceneMod d (fun s => { s with job := s.job.map (fun j =>
    if mine j.taken then { j with st := at_ ((j.result.map (fun r => effDom d r.1.dom)).getD ((s.build.map (·.dom)).getD 0)) } else j) })
  { d with mantle := { d.mantle with commits := d.mantle.commits.map (fun x => if mine x.taken then { x with st := at_ ((commitDom d x).getD 0) } else x) } }

/-- A ticket whose S_t has passed (R379). -/
def ticketLate (d : Dev) (st : MT) : Dev := diverge (twinMod d (fun t => { t with ticketLate := t.ticketLate + 1 })) st (2 ^ 22)

/-- A ticket of the leader, acknowledged. -/
def followTicket (d : Dev) (no : Word) (kind queue dom : Nat) (st : MT) (b : List Byte) : Dev :=
  let d := twinMod d (fun t => { t with nextTicket := no + 1 })
  let runs := domRuns (getDom d dom).state
  let late := runs && mtGe (mtOf d dom) st
  let d := ledgerAdd d no dom st
  let d :=
    if late then ticketLate d st
    else if kind < 3 then ticketQueue d queue dom st b
    else if kind = 3 then
      (let t : Ticket := { no := no, kind := kind, queue := queue, dom := dom, st := st, body := b }
       if runs then twinMod d (fun w => { w with tickets := w.tickets ++ [t] }) else runTicket d t)
    else ticketCompleted d (BitVec.ofNat 32 (u32 b 0)) ((List.range 3).map (fun n => BitVec.ofNat 32 (u32 b (4 + 4 * n))))
  linkSend d 1 (p32 0 ++ p8 5 ++ zeros 3 ++ p32 0 ++ p32 no.toNat)

/-- An acknowledgement: the reply that waited for it is given (R378). -/
def ticketAck (d : Dev) (no : Word) : Dev :=
  let ms := (d.twin.issued.filter (fun i => i.no == no)).filterMap (·.reply)
  ms.foldl queueMsg (twinMod d (fun t => { t with issued := t.issued.filter (fun i => i.no != no) }))

def takeTicket (d : Dev) (b : List Byte) : Dev :=
  let kind := u8 b 4
  if kind = 5 then ticketAck d (BitVec.ofNat 32 (u32 b 12))
  else if slaved d && decide (kind < 5) then
    followTicket d (BitVec.ofNat 32 (u32 b 0)) kind (u8 b 5) (u8 b 6) (BitVec.ofNat 32 (u32 b 8)) (b.drop 12)
  else d

/-! INPUT (R383), LOOP (R384, R386). -/

/-- Positions that the partner wrote from its own legs; a metadata packet has no channels. -/
def takeInput (d : Dev) (b : List Byte) : Dev :=
  let i := u16 b 0
  let k : MT := BitVec.ofNat 32 (u32 b 4)
  let s := u16 b 8
  let ch := u8 b 10
  let p := b.drop 12
  let x := getRx d i
  if !x.cfg.enable then d
  else if ch = 0 then (if x.cfg.metadata then metaPacket d i s k p else d)
  else if x.cfg.metadata || ch != x.cfg.channels || u8 b 3 != b2n x.cfg.l24 || p.length != s * ch * wordBytes x.cfg.l24 then d
  else rxFlowMod d i (fun x => (List.range s).foldl (fun x j =>
    let q := k + BitVec.ofNat 32 j
    if posClosed d x false q then x
    else
      let w := putPos x q (payloadWords x.cfg.l24 ch p j)
      if w.2 then { w.1 with reconciled := w.1.reconciled + 1 } else w.1) x)

def takeLoop (d : Dev) (b : List Byte) : Dev :=
  let k : MT := BitVec.ofNat 32 (u32 b 4)
  let count := u16 b 2
  if u8 b 0 = 0 then
    let es : List LoopVal := (List.range count).map (fun j =>
      let o := 8 + 20 * j
      { bridge := u16 b o, block := k, state := u8 b (o + 2), pos := posMod (u64 b (o + 4)), rho := i64 b (o + 12) })
    twinMod d (fun t => { t with loops := t.loops.filter (fun l => decide (mtDiff k l.block < 64) && !(l.block == k && es.any (fun e => e.bridge == l.bridge))) ++ es })
  else if u8 b 0 = 1 then
    let es : List PortBlk := (List.range count).map (fun j =>
      let o := 8 + 68 * j
      { kind := u8 b o, index := u8 b (o + 1), chan := u8 b (o + 2), block := k, xs := (List.range 16).map (fun i => i32 b (o + 4 + 4 * i)) })
    twinMod d (fun t => { t with portBlks := t.portBlks.filter (fun l => decide (mtDiff k l.block < 512)) ++ es })
  else d

/-! CONTROL (R374, R376). -/

/-- What firmware does with an event or a reply of its partner's. -/
def partnerSays (d : Dev) (b : List Byte) : Dev :=
  let op := u16 b 0
  if op = 0xC005 then
    twinMod d (fun t => { t with partner := u8 b 9, partnerStart := if u8 b 9 = 6 ∧ u8 b 10 ≠ 6 then some (BitVec.ofNat 32 (u32 b 12)) else t.partnerStart })
  else if op = 0xC009 then pairHello (twinMod (newSenderEpoch d 5) (fun t => { t with partnerRestarting := true }))
  else if op = 0x8001 then twinMod d (fun t => { t with partnerRestarting := false })
  else d

/-- A cell of MBX5: requests are posted, replies and events go to firmware. -/
def takeControl (d : Dev) (b : List Byte) : Dev :=
  if b.length ≠ 64 then d
  else if 0x8000 ≤ u16 b 0 then (if d.hif.ctrlUp then partnerSays d b else d)
  else
    let d := if u16 b 0 = 1 then twinMod d (fun t => { t with partnerRestarting := false }) else d
    postCell (mbxMod d 5 (fun m => { m with inCell := b })) 5

/-! Frames (R373, R375). -/

/-- A whole body by its class. -/
def linkBody (d : Dev) (cls : Nat) (b : List Byte) : Dev :=
  if cls = 7 then takeHello d b
  else if mode d != .twin || d.twin.state == .off || !linkUp d.twin then d
  else match cls with
    | 0 => takeMarker d b
    | 1 => takeTicket d b
    | 2 => takeInput d b
    | 3 => takeLoop d b
    | 4 => partnerSigs d b
    | 5 => takeControl d b
    | _ => d

/-- LINK_FRAME_RX: a frame and the CRC that follows it (R375). -/
def linkRx (d : Dev) (f : List Byte) (crc : Word) : Dev :=
  let len := u16 f 2
  let seq : Word := BitVec.ofNat 32 (u32 f 4)
  let ack : Word := BitVec.ofNat 32 (u32 f 8)
  if !linkCarries d.twin || !pdOn d 5 || f.length != 16 + len || decide (8192 < len) || crc32c f != crc then d
  else
    let d := twinMod d (fun t => { t with unacked := t.unacked.filter (fun u => mtLater u.seq ack) })
    let first := !d.twin.handshake && d.twin.hello.isNone
    if !first && seq != d.twin.rxSeq + 1 then d
    else
      let cls := u8 f 0
      let body := tabGet d.twin.parts cls ++ slice f 16 len
      let more := bit (u8 f 1) 1
      let d := twinMod d (fun t => { t with rxSeq := seq, parts := tabSet t.parts cls (if more then body else []) })
      if more then d else linkBody d cls body

def execLinkFrameRx (bytes : List Byte) (crc : Word) (s : State) : Host.Outcome State Fault Refusal := run (fun d => linkRx d bytes crc) s

end Sys2Proof.Machine
end

