-- ==== Sys2Proof/Machine/Take.lean ====
section
/-! DEFINITION. Firmware's side of the mailboxes: inbound cells and MORE chains, outbound cells, and regions fetched for requests
(R413–R416, R423–R427, R441, R452). -/

namespace Sys2Proof.Machine

/-- A reply that a cell or a chain gets without being judged: a status alone, sent whether asked for or not. -/
def bareReply (d : Dev) (ch : Nat) (opcode tag : Half) (st : Status) : Dev :=
  let body : List Byte := [BitVec.ofNat 8 (statusByte st)]
  queueMsg (addLog d opcode.toNat 1 ch body) { ch := ch, opcode := opcode + 0x8000, tag := tag, bulk := false, payload := body, isReply := true }

def chainSet (d : Dev) (ch : Nat) (c : Option Chain) : Dev := fw d (fun f => { f with chains := tabSet f.chains ch c })

/-- The chain of a channel ends with a status under its opcode and tag (R425). -/
def chainFail (d : Dev) (ch : Nat) (c : Chain) (st : Status) : Dev := bareReply (chainSet d ch none) ch c.opcode c.tag st

/-- A whole message: its opcode, then the request's own rules (R424). -/
def takeMessage (d : Dev) (ch : Fin 8) (opcode tag : Half) (flags : Byte) (payload : List Byte) : Dev :=
  match opOf opcode.toNat with
  | none => bareReply d ch.val opcode tag .notFound
  | some op =>
    let r : Req := { ch := ch, tag := tag, replyReq := flags.getLsbD 0, bulk := flags.getLsbD 2, payload := payload }
    judgeReq (judgeOf op payload) d (takenOf d op r (getMbx d ch.val).epoch) none

/-- REPLY_REQ and BULK are those of the chain. -/
def sameFlags (c : Chain) (flags : Byte) : Bool := (c.flags ^^^ flags) &&& 5 == 0

/-- A cell of the current epoch whose opcode, tag, length and flags are in order joins its chain or ends its message (R425). -/
def takeGood (d : Dev) (ch : Fin 8) (opcode tag : Half) (flags : Byte) (payload : List Byte) : Dev :=
  let chain := tabGet d.fw.chains ch.val
  if flags.getLsbD 1 then
    let c := chain.getD { opcode := opcode, tag := tag, flags := flags, cells := 0, payload := [] }
    let c := { c with cells := c.cells + 1, payload := if c.cells < 8 then c.payload ++ payload else c.payload }
    if payload.length ≠ 56 ∨ sameFlags c flags = false then chainFail d ch.val c .badArg else chainSet d ch.val (some c)
  else match chain with
    | some c =>
      if 8 ≤ c.cells ∨ sameFlags c flags = false then chainFail d ch.val c .badArg
      else takeMessage (chainSet d ch.val none) ch opcode tag flags (c.payload ++ payload)
    | none => takeMessage d ch opcode tag flags payload

/-- A cell checked in the order of R424; one of another opcode or tag first ends the chain of its channel (R425). -/
def takeCell (d : Dev) (ch : Fin 8) (c : List Byte) : Dev :=
  let n := ch.val
  let opcode : Half := BitVec.ofNat 16 (u16 c 0)
  let tag : Half := BitVec.ofNat 16 (u16 c 4)
  let flags := BitVec.ofNat 8 (u8 c 3)
  if u8 c 7 ≠ (getMbx d n).epoch.toNat then mbxMod d n (fun m => { m with staleIn := m.staleIn + 1 })
  else
    let d := match tabGet d.fw.chains n with
      | some k => if k.opcode = opcode ∧ k.tag = tag then d else chainFail d n k .badArg
      | none => d
    if 0x8000 ≤ u16 c 0 then fw d (fun f => { f with discard := tabMod f.discard n (· + 1) })
    else if 56 < u8 c 2 ∨ 8 ≤ u8 c 3 then bareReply d n opcode tag .badArg
    else takeGood d ch opcode tag flags (slice c 8 (u8 c 2))

/-- HATRE_CELL_TAKE: no cell is taken from a channel with 32 replies waiting (R415). -/
def cellTake (d : Dev) (ch : Fin 8) : Dev :=
  let n := ch.val
  if !takesCells d || decide (32 ≤ (d.fw.queue.filter (fun m => m.isReply && m.ch == n)).length) then d else
  match (getMbx d n).inFifo with
  | [] => d
  | c :: rest => takeCell (mbxMod d n (fun m => { m with inFifo := rest, irq := if rest.isEmpty then m.irq ||| 1 else m.irq })) ch c

def execHatreCellTake (ch : Fin 8) (s : State) : Host.Outcome State Fault Refusal := run (fun d => cellTake d ch) s

/-- MESSAGE_CHAIN_TIMEOUT (R425). -/
def chainTimeout (d : Dev) (ch : Nat) : Dev :=
  match tabGet d.fw.chains ch with
  | some c => if takesCells d then chainFail d ch c .timeout else d
  | none => d

def execMessageChainTimeout (ch : Fin 8) (s : State) : Host.Outcome State Fault Refusal := run (fun d => chainTimeout d ch.val) s

/-- The first message that waits for a channel, and the queue without it. -/
def takeOut (ch : Nat) : List OutMsg → Option (OutMsg × List OutMsg)
  | [] => none
  | m :: q => if m.ch = ch then some (m, q) else (takeOut ch q).map (fun r => (r.1, m :: r.2))

/-- OUTBOUND_CELL_PLACE (R415): the oldest message of the channel takes a free cell; those of MBX5 go over the link (R374). -/
def outPlace (d : Dev) (ch : Nat) : Dev :=
  if !d.hif.ctrlUp then d else
  match takeOut ch d.fw.queue with
  | none => d
  | some (m, q) =>
    let cell := cellBytes m d.hif.deviceEpoch
    let sent (d : Dev) : Dev := fw d (fun f => { f with queue := q })
    if ch = 5 then (if linkUp d.twin then linkSend (sent d) 5 cell else d)
    else if 32 ≤ (getMbx d ch).outFifo.length then d
    else mbxMod (sent d) ch (fun m => { m with outFifo := m.outFifo ++ [cell], irq := m.irq ||| 2 })

def execOutboundCellPlace (ch : Fin 8) (s : State) : Host.Outcome State Fault Refusal := run (fun d => outPlace d ch.val) s

/-! Fetched regions (R441). -/

/-- The region that a channel moves: its oldest, where it is among the four that move at once. -/
def fetchOf (d : Dev) (ch : Nat) : Option BulkWait :=
  let heads := d.fw.bulks.foldl (fun (a : List BulkWait) b => if a.any (fun x => x.taken.req.ch == b.taken.req.ch) then a else a ++ [b]) []
  (heads.take 4).find? (fun b => b.taken.req.ch.val == ch)

/-- The reply body of a request whose region did not arrive whole. -/
def fetchBody (d : Dev) (t : Taken) : List Byte :=
  let p := t.req.payload
  match t.op with
  | .graphLoad => graphBody (u8 p 16) 0 0 0xFFFF 0 0
  | .firLoad => firBody d 0xFFFF (u8 p 16 == 0 && u8 p 17 == 1)
  | .objUpdateBatch => batchBody d 0 0xFFFF 0
  | .gateList => zeros 11
  | _ => []

/-- A request refused because its region did not arrive whole; a failed transfer of taps counts in LOAD_ERR (R199). -/
def regionFails (d : Dev) (t : Taken) (st : Status) (transfer : Bool) : Dev :=
  let d := if transfer && t.op == .firLoad && u8 t.req.payload 16 == 1 then mantleMod d (fun m => { m with loadErr := m.loadErr + 1 }) else d
  reply d t st (fetchBody d t)

/-- The fetch of a channel is over; f goes on where its request is still to be judged (R452). -/
def fetchOver (d : Dev) (ch : Nat) (f : Dev → BulkWait → Dev) : Dev :=
  match fetchOf d ch with
  | none => d
  | some b =>
    let d := fw d (fun f => { f with bulks := f.bulks.erase b })
    if b.live && d.hif.ctrlUp then f d b else d

/-- A bus error on a channel that fetches nothing meets the transfer of the taps that the channel's FIR_LOAD or CAL_START is loading (R199,
log entry 133). -/
def loadMeets (d : Dev) (ch : Nat) (st : Status) : Dev :=
  if (fetchOf d ch).isSome then d else
  mantleMod d (fun m => { m with load := m.load.map (fun l => if (l.asked.map (·.req.ch.val)) == some ch then { l with busErr := some st } else l) })

/-- BULK_FETCH_COMPLETE: the CRC is checked, then the request is judged under the mode in which it was taken. -/
def bulkDone (d : Dev) (ch : Nat) (data : List Byte) (err : Bool) : Dev :=
  fetchOver (if err then loadMeets d ch .integrity else d) ch (fun d b =>
    let bs := slice data 0 b.len
    if err then regionFails d b.taken .integrity true
    else if crc32c bs ≠ b.crc then regionFails d b.taken .integrity false
    else let r := judgeOf b.taken.op b.taken.req.payload d b.taken (some bs); finish r.1 b.taken (some bs) r.2)

def execBulkFetchComplete (ch : Fin 8) (data : List Byte) (err : Bool) (s : State) : Host.Outcome State Fault Refusal := run (fun d => bulkDone d ch.val data err) s

/-- BULK_FETCH_TIMEOUT. -/
def execBulkFetchTimeout (ch : Fin 8) (s : State) : Host.Outcome State Fault Refusal :=
  run (fun d => fetchOver (loadMeets d ch.val .timeout) ch.val (fun d b => regionFails d b.taken .timeout true)) s

end Sys2Proof.Machine
end

