-- ==== Sys2Proof/Machine/Boot.lean ====
section
/-! DEFINITION. Starts and their ends, wakes, completed mode transitions and power switches, and firmware that runs again
(R417, R480–R499, R507, R509, R520). -/

namespace Sys2Proof.Machine

/-! Engines and power after firmware has started. -/

/-- The ENABLE bits that firmware sets when it starts. -/
def enginesOn (d : Dev) : Dev :=
  let d := tilesMod (portsMod (sceneMod d (fun s => { s with prismCtrl := s.prismCtrl ||| 1 })) (fun p => { p with ctrl := p.ctrl ||| 1 }))
    (fun T => { T with sched := { T.sched with ctrl := T.sched.ctrl ||| 0x10000 } })
  { d with
    mantle := { d.mantle with ctrl := d.mantle.ctrl ||| 1 }
    chain := { d.chain with dynCtrl := d.chain.dynCtrl ||| 1 }
    seam := { d.seam with ctrl := d.seam.ctrl ||| 1 } }

/-- The domains of a mode are on, the others off and isolated. -/
def powerAt (d : Dev) (m : Mode) : Dev :=
  let w := pdWanted d m
  let d : Dev := { d with power := { en := w, on := w, switching := 0 } }
  (List.range 16).foldl (fun d i => isolate d i (!w.getLsbD i)) d

/-- Firmware restarts the domains that are to run (R478). -/
def restartDomains (d : Dev) : Dev :=
  (List.range 3).foldl (fun d n => let x := getDom d n; if x.started && !domRuns x.state then domStart d n x.cfg else d) d

/-! Power-on, RESET_N and REFCLK (R481, R493, R507, R509). -/

/-- OFF: nothing starts until supplies, RESET_N and REFCLK allow it. -/
def enterOff (d : Dev) : Dev :=
  let d := fw d (fun f => { f with mode := .off })
  { d with power := { en := d.power.en, on := if d.aon.vddAon then 1 else 0, switching := 0 } }

/-- BOOT begins where RESET_N is released and REFCLK runs. -/
def tryBoot (d : Dev) (cause : Nat) : Dev := if d.aon.resetN && d.aon.refclk then startBoot d cause else enterOff d

/-- Everything lost but the flash (R493). -/
def powerLost (d : Dev) : Dev := { State.resetDev with flash := flashKept d.flash, free := d.free }

/-- VDD_AON_RISE: a power-on reset (R507); the straps are sampled (R484). -/
def vddRise (d : Dev) (s : Straps) : Dev :=
  if d.aon.vddAon then d else
  let a := d.aon
  let d := powerLost d
  tryBoot (sampleStraps { d with aon := { d.aon with vddAon := true, resetN := a.resetN, refclk := a.refclk } } s) 0

/-- VDD_AON_LOSS (R507). -/
def vddLoss (d : Dev) : Dev :=
  if !d.aon.vddAon then d else
  let a := d.aon
  let d := powerLost d
  enterOff { d with aon := { d.aon with vddAon := false, resetN := a.resetN, refclk := a.refclk } }

/-- RESET_N_ASSERT: every domain but PD_AON is reset (R493). -/
def resetAssert (d : Dev) : Dev :=
  if !d.aon.resetN then d else
  let d' := if d.aon.vddAon && d.aon.refclk then domainsReset d true else d
  enterOff { d' with aon := { d'.aon with resetN := false } }

/-- RESET_N_RELEASE (R481, R484): the straps are sampled, and the boot starts with HIF_BOOTCNT 0 and cause 1. -/
def resetRelease (d : Dev) (s : Straps) : Dev :=
  if d.aon.resetN then d else
  let d : Dev := { d with aon := { d.aon with resetN := true } }
  if !d.aon.vddAon then d else
  let d := sampleStraps d s
  if d.aon.refclk then
    startBoot (fw { d with aon := { d.aon with bootcnt := 0 }, power := {} } (fun f => { f with mode := .boot })) 1 else d

/-- REFCLK_STOP: every domain but PD_AON is held in reset (R509). -/
def refStop (d : Dev) : Dev :=
  if !d.aon.refclk then d else
  let d' := if d.aon.vddAon && d.aon.resetN then domainsReset d true else d
  enterOff { d' with aon := { d'.aon with refclk := false } }

/-- REFCLK_RESTORED: a boot as on RESET_N (R509). -/
def refBack (d : Dev) : Dev :=
  if d.aon.refclk then d else
  let d : Dev := { d with aon := { d.aon with refclk := true } }
  if d.aon.vddAon && d.aon.resetN then
    startBoot (fw { d with aon := { d.aon with bootcnt := 0 }, power := {} } (fun f => { f with mode := .boot })) 1 else d

def execVddAonRise (straps : Straps) (s : State) : Host.Outcome State Fault Refusal := run (fun d => vddRise d straps) s
def execVddAonLoss (s : State) : Host.Outcome State Fault Refusal := run vddLoss s
def execResetNAssert (s : State) : Host.Outcome State Fault Refusal := run resetAssert s
def execResetNRelease (straps : Straps) (s : State) : Host.Outcome State Fault Refusal := run (fun d => resetRelease d straps) s
def execRefclkStop (s : State) : Host.Outcome State Fault Refusal := run refStop s
def execRefclkRestored (s : State) : Host.Outcome State Fault Refusal := run refBack s

/-! Starts (R486–R492). -/

/-- A start is under way. -/
def booting (d : Dev) : Bool := mode d == .boot && !d.hif.ctrlUp

/-- BOOT_STEP_FAIL with a reason code of R486. -/
def stepFail (d : Dev) (reason : Byte) : Dev :=
  if booting d && ([1, 2, 3, 4, 5, 6, 9] : List Byte).contains reason then startFails d reason else d

/-- The bytes of an image in the clear: ciphertext from the end of the section table to the trailer is opened (R489). -/
def imageClear (f : Flash) (b : List Byte) : List Byte :=
  let h := 64 + 16 * imageSections b
  if bit (imageFlags b) 0 then b.take h ++ (Config.gcmOpen f.imageKey b).getD [] ++ b.drop (b.length - 192) else b

/-- Sections placed in control SRAM (R37, R489): code at its destination; with a host image, data one after the other from
0x390000. -/
def placeImage (d : Dev) (b : List Byte) (host : Bool) : Dev :=
  let clear := imageClear d.flash b
  let put (d : Dev) (a : Nat) (e : Nat × Nat × Nat × Nat) : Dev := tilesMod d (fun T => { T with mem := memWriteBytes T.mem a (slice clear e.2.1 e.2.2.1) })
  ((imageTable b).foldl (fun (r : Dev × Nat) e =>
    if e.1 = 1 then (put r.1 e.2.2.2 e, r.2)
    else if e.1 = 2 ∧ host then (put r.1 r.2 e, r.2 + e.2.2.1) else r) (d, 0x390000)).1

/-- The slot of a start with attempt index k (R491); none where neither slot is VALID. -/
def bootSlot (f : Flash) (k : Nat) : Option Nat :=
  let next := nextBoot f
  let valid (i : Nat) : Bool := recState f i == .valid
  let pick := if k = 1 ∧ valid (1 - next) then 1 - next else next
  if valid pick then some pick else if valid (1 - pick) then some (1 - pick) else none

/-- Firmware runs: CTRL_UP, the engines enabled, CONFIG or FACTORY (R481, R485). -/
def startDone (d : Dev) : Dev :=
  let m : Mode := if d.aon.factoryEn && !d.flash.lock then .factory else .config
  let d : Dev := { d with aon := { d.aon with bootcnt := 0, safeReason := 0 } }
  let d := hif (enginesOn d) (fun h => { h with ctrlUp := true })
  let d := powerAt (setMode d m) m
  faultsFound (restartDomains (evMode d m .boot 2 0xFF))

/-- Versions of the image that runs. -/
def runImage (d : Dev) (running : Nat) (b : List Byte) (version : Half) : Dev :=
  { d with flash := { d.flash with running := running, recovery := false, fwVersion := version,
                                   fwBuild := BitVec.ofNat 16 (u16 b 14), renderRev := BitVec.ofNat 16 (u16 b 16) } }

/-- The reason a start with this image fails (R486 steps 4 to 6, R489); none where it passes its checks. -/
def imageFails (f : Flash) (b : List Byte) (host : Bool) : Option Byte :=
  if !imageCrcOk b then some 1 else if !imageSigned f b then some 2 else if !imagePlaced b host then some 1 else none

/-- BOOT_START_SUCCESS: firmware runs where the image passes its checks; otherwise the start fails. -/
def startSuccess (d : Dev) : Dev :=
  if !booting d then d
  else if d.aon.bootSrc then
    let b := d.flash.hostImage
    if b.isEmpty then d else
    let d := placeImage (runImage d 2 b (BitVec.ofNat 16 (u16 b 12))) b true
    startDone (hif { d with aon := { d.aon with bootSource := 2 } } (fun h => { h with hostBoot := true }))
  else match bootSlot d.flash d.aon.attempt.toNat with
    | none => startFails d 1
    | some k =>
      let s := tabGet d.flash.slots k
      match imageFails d.flash s.bytes false with
      | some r => startFails d r
      | none =>
      let other := k != nextBoot d.flash
      let d := placeImage (runImage d k s.bytes s.version) s.bytes false
      let d : Dev := if other then { d with flash := recWrite d.flash k (recState d.flash) } else d
      startDone (hif { d with aon := { d.aon with bootSource := BitVec.ofNat 2 k, fallback := other } } (fun h => { h with fwSlot := k == 1 }))

/-- HOST_IMAGE_LOAD (R492): the doorbell is taken, the image fetched to 0x180000 and checked. -/
def hostLoad (d : Dev) (image : List Byte) : Dev :=
  if !booting d || !d.aon.bootSrc || !d.hif.dblH2D.getLsbD 0 then d else
  let d := hif d (fun h => { h with dblH2D := h.dblH2D &&& 0xFFFFFFFE })
  let len := u32 (getMbx d 0).inCell 8
  if 2097152 < len then startFails d 1 else
  let b := slice image 0 len
  let d := tilesMod d (fun T => { T with mem := memWriteBytes T.mem 0x180000 b })
  match imageFails d.flash b true with
  | some r => startFails d r
  | none => { d with flash := { d.flash with hostImage := b } }

/-- HOST_BOOT_TIMEOUT (R492). -/
def hostBootTimeout (d : Dev) : Dev :=
  if booting d && d.aon.bootSrc && d.flash.hostImage.isEmpty && !d.hif.dblH2D.getLsbD 0 then startFails d 3 else d

def execBootStepFail (reason : Byte) (s : State) : Host.Outcome State Fault Refusal := run (fun d => stepFail d reason) s
def execBootStartSuccess (s : State) : Host.Outcome State Fault Refusal := run startSuccess s
def execHostImageLoad (image : List Byte) (s : State) : Host.Outcome State Fault Refusal := run (fun d => hostLoad d image) s
def execHostBootTimeout (s : State) : Host.Outcome State Fault Refusal := run hostBootTimeout s

/-! What firmware reports when it finds a changed state (R520). -/

/-- One source's change: kind as in reportStates. -/
def reportChange (d : Dev) (kind i new old : Nat) : Dev :=
  if kind = 160 then evPortClock d 0 i new old (domFlags (getDom d i)) (mtOf d i) (now d)
  else if kind = 161 then evPortClock d 4 0 new old 0 0 (now d)
  else if kind = 162 then evPortClock d 1 i new old 0 0 (now d)
  else if kind = 163 then evPortClock d 2 i new old 0 0 (now d)
  else if kind = 164 then evPortClock d 3 i new old 0 0 (now d)
  else if kind = 176 then evSense d 0 i new old (tabGet d.sense.rails i).value
  else if kind = 177 then evSense d 1 i new old (tabGet d.sense.temps i).value
  else if kind = 178 then evSense d 2 i new old (tabGet d.sense.cables i).value
  else if kind = 179 then evSense d 4 0 new old 0
  else if kind = 180 then evSense d 5 0 new old 0
  else if kind = 181 then evSense d 3 i new old (tabGet d.sense.losses i).value
  else event d 5 (p8 0 ++ p8 new ++ p8 old ++ p8 0 ++ zeros 8 ++ p64 (now d).toNat)

def keyVal (t : List (Nat × Nat × Nat)) (kind i : Nat) : Nat := ((t.find? (fun x => x.1 == kind && x.2.1 == i)).map (·.2.2)).getD 0

/-- One event for each source whose state is not what was reported. -/
def reportChanges (d : Dev) (old : List (Nat × Nat × Nat)) : Dev :=
  (reportStates d).foldl (fun d x =>
    let o := keyVal old x.1 x.2.1
    if x.2.2 = o then d else reportChange d x.1 x.2.1 x.2.2 o) d

/-- An EV_FAULT that covers a rise of `rise`: the rest counts as repeats. -/
def evFaultRise (d : Dev) (kind code index domain : Nat) (mt : MT) (a0 a1 a2 rise : Nat) : Dev :=
  event d 2 (p8 kind ++ p8 code ++ p16 index ++ p8 domain ++ zeros 3 ++ p32 mt.toNat ++ p32 a0 ++ p32 a1 ++ p32 a2 ++ p32 (rise - 1) ++
    p64 (now d).toNat)

/-- The core of a tile that a counted exception is shown by: the lowest whose XCAUSE is set. -/
def faultCore (d : Dev) (t : Nat) : Nat :=
  8 * t + ((List.range 8).find? (fun c => (tabGet d.tiles.cores (8 * t + c)).cause != 0)).getD 0

/-- One counter's rise: kind as in reportCounts. -/
def reportRise (d : Dev) (kind i rise : Nat) : Dev :=
  if kind = 33 then evFaultRise d 1 0 0 i (mtOf d i) 0 0 0 rise
  else if kind = 34 then evFaultRise d 2 (bits d.mtx.errInfo.toNat 8 8) (bits d.mtx.errInfo.toNat 3 0) 0xFF 0 d.mtx.errAddr.toNat 0 0 rise
  else if kind = 35 then
    let k := faultCore d i
    let c := tabGet d.tiles.cores k
    evFaultRise d 3 c.cause k 0xFF 0 (descIx c.task) c.xpc.toNat c.xaddr.toNat rise
  else if kind = 36 ∨ kind = 44 then
    let n := effDom d (tabGet d.seam.br i).cfg.outDom
    evFaultRise d 4 (b2n (kind == 44)) i n (mtOf d n) 0 0 0 rise
  else if kind = 37 then
    let n := effDom d (tabGet d.mics.mic i).cfg.domain
    evFaultRise d 5 0 i n (mtOf d n) 0 0 0 rise
  else if kind = 48 then evUnderrun d 0 i 0 (mtOf d (effDom d (getAes d i).cfg.domain)) (getAes d i).slips
  else if kind = 49 then evUnderrun d 1 i 2 (mtOf d (effDom d (getAtx d i).cfg.domain)) (getAtx d i).slips
  else if kind = 50 then evUnderrun d (tdmKind d i) i 0 (mtOf d (effDom d (getTdm d i).cfg.domain)) (getTdm d i).slips
  else if kind = 51 then evUnderrun d 4 i 2 (mtOf d (effDom d (getRx d i).cfg.domain)) (getRx d i).slips
  else if kind = 52 then evUnderrun d 5 i 1 (mtOf d (effDom d (getTx d i).cfg.domain)) (getTx d i).evs
  else
    let c := tabGet d.scene.metaCnt i
    if c.late = c.baseLate then d else event (sceneMod d (fun s => metaMod s i (lateMetaSent))) 4 (lateMetaPayload i c (mtOf d i))

/-- One event for each counter that has risen. -/
def reportRises (d : Dev) (old : List (Nat × Nat × Nat)) : Dev :=
  (reportCounts d).foldl (fun d x =>
    let o := keyVal old x.1 x.2.1
    if x.2.2 = o then d else reportRise d x.1 x.2.1 ((x.2.2 + 2 ^ 32 - o) % 2 ^ 32)) d

/-! The control-plane restart completes (R417, R418, R494). -/

/-- EV_CTRL_RESTART (R418). -/
def evCtrlRestart (d : Dev) (r : Restart) : Dev :=
  let bytes (l : List Nat) : List Byte := (List.range 8).flatMap (fun i => p8 (min 255 (l.getD i 0)))
  let payload := p8 r.cause ++ p8 d.hif.deviceEpoch.toNat ++ zeros 2 ++ bytes r.flushed ++ bytes r.unanswered ++ p32 r.eventsLost ++ p64 r.dt.toNat ++
    p32 d.hif.ctrlRestarts.toNat
  let m (ch : Nat) : OutMsg := { ch := ch, opcode := 0xC009, tag := 0, bulk := false, payload := payload, isReply := false }
  (List.range 8).foldl (fun d ch =>
    if !r.openBefore.getD ch false then d
    else if ch ≠ 5 ∧ (getMbx d ch).outFifo.length < 32 then
      mbxMod d ch (fun x => { x with outFifo := x.outFifo ++ [cellBytes (m ch) d.hif.deviceEpoch], irq := x.irq ||| 2 })
    else queueMsg d (m ch)) (addLog d 0xC009 (eventSeverity 9) 0xFF payload)

/-- CTRL_RESTART_COMPLETE: firmware runs again.  Sampled state stands; what firmware ran itself (a measurement, its DMA
programs, receive timestamp queues) is lost.  The third restart within 60 s enters SAFE. -/
def restartDone (d : Dev) : Dev :=
  match d.fw.restart with
  | none => d
  | some r =>
    if !d.hif.restarting then d else
    let d := (List.range 24).foldl (fun d i => dmaAbort d (8 + i)) d
    let d := netMod d (fun n => { n with ports := n.ports.map (fun kv => (kv.1, { kv.2 with tsq := [] })) })
    let d := hif d (fun h => { h with ctrlUp := true, restarting := false, deviceEpoch := h.deviceEpoch + 1, ctrlRestarts := h.ctrlRestarts + 1 })
    let d : Dev := { d with mtx := { d.mtx with isolated := d.mtx.isolated &&& 0xFFFE } }
    let d := (List.range 8).foldl (fun d n => mbxMod d n (fun m => { m with irq := m.irq ||| 4 })) d
    let times := (d.fw.restartTimes.filter (fun t => decide ((r.dt - t).toNat ≤ 60000000000))) ++ [r.dt]
    let rep := d.fw.reported
    let d := fw d (fun f => { f with restart := none, restartTimes := times, reported := {} })
    let d := evCtrlRestart d r
    let d := reportRises (reportChanges d rep.states) rep.counts
    let d := ptpLinks (calReport d)
    faultsFound (if 3 ≤ times.length ∧ mode d ≠ .safe ∧ mode d ≠ .retain then toSafe d 7 else d)

def execCtrlRestartComplete (s : State) : Host.Outcome State Fault Refusal := run restartDone s

/-! RETAIN and its wake (R49, R483). -/

/-- The time unit written anew from its configuration, DT from 0. -/
def timeAnew (d : Dev) : Dev :=
  let d := timeMod d (fun t =>
    { t with
      dt := 0, frac := 0, snap := {}, irq := 0
      ptp := { cfg := t.ptp.cfg, ignored := t.ptp.ignored, tlv := t.ptp.tlv, state := if t.ptp.cfg.clockType = 0 then .disabled else .freerun }
      caps := t.caps.map (fun kv => (kv.1, { kv.2 with prev := none, fifo := [], lost := false, step := false })) })
  timeMod d (fun t => { t with pulses := t.pulses.map (fun kv => (kv.1, { pulseStart d kv.2.cfg kv.2 20000 with highUntil := none })) })

/-- WAKE: the wake wire or DBL_H2D bit 31, where WAKE_CTRL allows it; the transition to CONFIG begins. -/
def wakeUp (d : Dev) (pin dbl : Bool) : Dev :=
  let p := pin && d.aon.wakeEn.getLsbD 0
  let b := dbl && d.aon.wakeEn.getLsbD 1 && d.hif.dblH2D.getLsbD 31
  if mode d != .retain || d.fw.changing.isSome || !(p || b) then d else
  let d : Dev := { d with aon := { d.aon with cause := 5, wokePin := p, wokeDbl := b } }
  powerPlan (fw d (fun f => { f with changing := some { target := .config, cause := 2, asked := none } }))

def execWake (pin dbl : Bool) (s : State) : Host.Outcome State Fault Refusal := run (fun d => wakeUp d pin dbl) s

/-! A transition completes (R480). -/

/-- A switched domain, with what waited on its state answered; DT restarts where PD_CTRL comes up (R49). -/
def pdSwitchedAll (d : Dev) (i : Nat) : Dev :=
  let clears := d.power.switching.getLsbD i && (!d.power.en.getLsbD i || !d.power.on.getLsbD i)
  let starts := i == 1 && d.power.switching.getLsbD 1 && d.power.en.getLsbD 1 && !d.power.on.getLsbD 1
  let d := pdSwitched (if clears then pdCancel d i else d) i
  if starts then timeAnew d else d

/-- Data-path content is lost and the domains stop; what firmware finds changed is reported. -/
def pathStops (d : Dev) : Dev :=
  let old := reportStates d
  let d := loseContent d
  let d := (List.range 3).foldl (fun d n => domMod d n (fun x =>
    { domEnter x .stopped with closing := none, rendered := false, stopReq := false, realignReq := false, within := 0 })) d
  let d := (List.range 4).foldl (fun d p => linkDown d p false) d
  reportChanges d old

/-- Modes whose entry loses data-path content (R478). -/
def losesPath (m : Mode) : Bool := m == .retain || m == .safe || m == .update || m == .selftest

/-- MODE_TRANSITION_COMPLETE.  A transition to TWIN completes when LINKING has ended. -/
def modeDone (d : Dev) (timedOut : Bool) : Dev :=
  match d.fw.changing with
  | none => d
  | some c =>
    let old := mode d
    let m := c.target
    if m = .twin ∧ d.twin.state = .linking then d else
    let d := if old = .retain then ptpLinks (hif d (fun h => { h with ctrlUp := true })) else d
    let d := cancelForMode d m
    let d := if losesPath m then pathStops d else d
    let d := powerAsk d (pdWanted d m)
    let d := (List.range 16).foldl pdSwitchedAll d
    let d := if old = .retain then reportChanges d d.fw.reported.states else d
    let d := if m == .config && losesPath old then restartDomains d else d
    let tracks (x : Mode) : Bool := x == .service || x == .twin
    let d := if tracks m && !tracks old then trackRestart d else d
    let d := setMode d m
    let d := evMode d m old c.cause ((c.asked.map (·.req.ch.val)).getD 0xFF)
    let d := match c.asked with
      | some t => reply d t (if timedOut then .timeout else .ok) (modeBody m old (now d))
      | none => d
    if m = .retain then hif (fw d (fun f => { f with reported := { states := reportStates d } })) (fun h => { h with ctrlUp := false })
    else if m = .safe then hif d (fun h => { h with fault := h.fault ||| 2 }) else d

/-- Firmware that runs, or sleeps in RETAIN, completes transitions. -/
def execModeTransitionComplete (timedOut : Bool) (s : State) : Host.Outcome State Fault Refusal :=
  run (fun d => onlyIf (d.hif.ctrlUp || mode d == .retain) (fun d => modeDone d timedOut) d) s

/-- POWER_DOMAIN_SWITCH (R499). -/
def execPowerDomainSwitch (pd : Fin 16) (s : State) : Host.Outcome State Fault Refusal := run (fun d => pdSwitchedAll d pd.val) s

/-! Deferred resets (R443, R496). -/

/-- DEFERRED_RESET_BEGIN: the oldest one asked for. -/
def deferredBegin (d : Dev) : Dev :=
  match d.fw.resetPending with
  | [] => d
  | r :: rest =>
    let d := fw d (fun f => { f with resetPending := rest })
    match r with
    | .warm cause => warmResetOp d cause
    | .ctrlRestart => controlFault d 5
    | .domain i => pdResetBegin d i

def execDeferredResetBegin (s : State) : Host.Outcome State Fault Refusal := run deferredBegin s

end Sys2Proof.Machine
end

