-- ==== Sys2Proof/Machine/MemMap.lean ====
section
/-! DEFINITION. What the device-internal addresses of R23 hold where the state keeps it typed: PRISM's entries (R123), MANTLE's
extents (R189), the event queue and the log of control SRAM (R37); and what bus master M1 reaches (R24, R26). -/

namespace Sys2Proof.Machine

/-! PRISM's gain matrix. -/

/-- Word 0 of an entry, the gain in force at sample k, and word 1, the step per sample while it ramps (R123, R124). -/
def entryWords (r : Ramp) (k : MT) : List Byte :=
  let s := segOf r k
  s32 (rampAt r k) ++ s32 (if s.n ≠ 0 ∧ 0 ≤ mtDiff k s.t ∧ mtDiff k s.t < (s.n : Int) - 1 then (s.v1 - s.v0).tdiv s.n else 0)

/-- The ramp at position p of an object's row: of column p for a dense object; of a sparse one the live entries at 0–63 and those
of its transition at 64–127, both in column order (R123, R128; log entry 106). -/
def rowEntry (o : Obj) (p : Nat) : Option Ramp :=
  if o.sparse then
    let live := o.ents.filter (fun e => e.2.cur.v1 != 0)
    let gone := o.ents.filter (fun e => e.2.cur.v1 == 0)
    if p < 64 then live[p]?.map Prod.snd else if p < 128 then gone[p - 64]?.map Prod.snd else none
  else (o.ents.find? (fun e => e.1 == p)).map Prod.snd

/-- A byte of the gain matrix at an offset from 0x0800_0000. -/
def entryByte (d : Dev) (off : Nat) : Byte :=
  let o := getObj d.scene (off / 5120)
  let k := mtOf d (effDom d o.domain)
  ((rowEntry o (off % 5120 / 8)).map (fun r => (entryWords r k).getD (off % 8) 0)).getD 0

/-! Control SRAM (R37). -/

/-- Entry i of the event queue, the oldest first, as the cell it becomes (log entry 106). -/
def queueByte (d : Dev) (off : Nat) : Byte :=
  match d.fw.queue[off / 64]? with
  | some m => (cellBytes m (getMbx d m.ch).epoch).getD (off % 64) 0
  | none => 0

/-- The log entry with sequence number q, which lies at place q mod 8,192 (log entry 106). -/
def logByte (d : Dev) (off : Nat) : Byte :=
  match d.fw.log.find? (fun e => e.seq.toNat % 8192 == off / 32) with
  | some e => (logBytes e).getD (off % 32) 0
  | none => 0

/-! The address map. -/

/-- The byte at a device-internal address. -/
def devByte (d : Dev) (a : Nat) : Byte :=
  if 0x00240000 ≤ a ∧ a < 0x00250000 then queueByte d (a - 0x00240000)
  else if 0x00250000 ≤ a ∧ a < 0x00290000 then logByte d (a - 0x00250000)
  else if 0x08000000 ≤ a ∧ a < 0x08500000 then entryByte d (a - 0x08000000)
  else if 0x10000000 ≤ a ∧ a < 0x14000000 then
    match extentAt (decide (0x12000000 ≤ a)) d.mantle.ch (a % 0x02000000) with
    | some (_, e, o) => extByte e o
    | none => coreByte d.tiles (.shared, a)
  else coreByte d.tiles (.shared, a)

/-- Bytes that M1 writes to memory: those of an extent join it (R190); in the rest of memory the descriptor mirror, which the
scheduler writes (R290), ignores them (DESIGN CHOICE, log entry 126). -/
def devStore (d : Dev) (a : Nat) (bs : List Byte) : Dev :=
  (List.range (bs.length / 4)).foldl (fun (d : Dev) i =>
    let w := a + 4 * i
    let v := slice bs (4 * i) 4
    match mirrorOff w with
    | some _ => d
    | none =>
      if 0x10000000 ≤ w ∧ w < 0x14000000 ∧ (extentAt (decide (0x12000000 ≤ w)) d.mantle.ch (w % 0x02000000)).isSome then
        mantleMod d (fun m => { m with ch := (List.range 4).foldl (fun t j => setWrite t (decide (0x12000000 ≤ w)) (w % 0x02000000 + j) (v.getD j 0)) m.ch })
      else tilesMod d (fun T => { T with mem := memWriteBytes T.mem w v })) d

/-! Masters M1, M5 and M6 (R24, R26). -/

/-- The layout bank at an address: 0 or 1. -/
def layoutBank (a : Nat) : Option Nat := if 0x08680000 ≤ a ∧ a < 0x08700000 then some 0 else if 0x08700000 ≤ a ∧ a < 0x08780000 then some 1 else none

/-- The bank being built is open to M1: the inactive one, and neither from when a compiled layout waits for its boundary until its re-pans
have ended (R26; log entry 25). -/
def bankOpen (d : Dev) (a : Nat) : Bool :=
  layoutBank a == some (if d.scene.activeBank then 0 else 1) && (d.scene.job.bind (·.result)).isNone && d.scene.layoutEnd.isNone

/-- Block registers and the host window alias: 4-byte beats only (R457). -/
def dmaRegSpace (a : Nat) : Bool := decide (0x40000000 ≤ a) && decide (a < 0x40120000)

/-- An address of the sets is open to M1. -/
def coefOpen (d : Dev) (a : Nat) : Bool := setOpen d.mantle.ch (decide (0x12000000 ≤ a)) (a % 0x02000000)
def coefSpace (a : Nat) : Bool := decide (0x10000000 ≤ a) && decide (a < 0x14000000)

/-- Targets of R24 open to M1. -/
def m1Opens (d : Dev) (a : Nat) : Bool :=
  let off := (a - 0x20000000) % 0x00800000
  decide (a < 0x00400000) || bankOpen d a || (coefSpace a && coefOpen d a) ||
    (decide (0x20000000 ≤ a) && decide (a < 0x24000000) && decide (0x00400000 ≤ off) && decide (off < 0x00600000)) ||
    (decide (0x30000000 ≤ a) && decide (a < 0x32000000)) || dmaRegSpace a || (decide (0x60000000 ≤ a) && decide (a < 0x70000000))

/-- Regions that one engine reaches without arbitration (R24): PRISM its matrix, its ramp state and the layout banks that M1 does not
reach; MANTLE its state and what of the sets M1 does not reach, and the alignment region to write. -/
def mtxPrivate (d : Dev) (q : MatrixReq) : Bool :=
  let a := q.addr.toNat
  (q.master == 5 && decide (0x08000000 ≤ a) && decide (a < 0x08780000) && !bankOpen d a) ||
    (q.master == 6 && ((coefSpace a && !coefOpen d a) || (decide (0x14000000 ≤ a) && decide (a < 0x16000000)) ||
      (!q.read && decide (0x34000000 ≤ a) && decide (a < 0x34A00000))))

end Sys2Proof.Machine
end

