-- ==== Sys2Proof/Machine/DmaEngine.lean ====
section
/-! DEFINITION. The DMA engine's programs and bursts, and the bus matrix's grants (R453–R473). -/

namespace Sys2Proof.Machine

/-! Device space as master port M1 reaches it (R23, R24, R468). -/

/-- The power domain of a memory of R23. -/
def memPd (a : Nat) : Nat :=
  if a < 0x00400000 then 1 else if a < 0x08800000 then 7 else if a < 0x20000000 then 8
  else if a < 0x24000000 then 10 + (a - 0x20000000) / 0x01000000 else if a < 0x35000000 then 14 else 2

/-- The error of a device-space access by channel n (R467, R468). -/
def dmaDenies (d : Dev) (n a : Nat) : Option Nat :=
  if n < 8 then
    (if 0x40000000 ≤ a ∧ a < 0x40010000 ∧ !(0x40004000 ≤ a ∧ a < 0x40005000) then (if pdOn d 2 then none else some 1) else some 2)
  else if m1Opens d a && pdOn d (if dmaRegSpace a then blockPd a else memPd a) then none else some 1

/-- A beat read in device space: a host-owned channel reads as PCIe does.  What flash and the flash controller return comes
with the burst. -/
def dmaReadDev (d : Dev) (n a len : Nat) (given : List Byte) : List Byte × Dev :=
  if 0x60000000 ≤ a ∨ a / 65536 = 0x4010 then (slice given 0 len, d)
  else if n < 8 then let r := windowRead d .pcie (a % 65536); (p32 r.1.toNat, r.2)
  else if dmaRegSpace a then let r := deviceRead d .ctrl a; (p32 r.1.toNat, r.2)
  else ((List.range len).map (fun i => devByte d (a + i)), d)

/-- A beat written in device space; the flash window and the flash controller hold no state of the model. -/
def dmaWriteDev (d : Dev) (n a : Nat) (bs : List Byte) : Dev :=
  if 0x60000000 ≤ a ∨ a / 65536 = 0x4010 then d
  else if n < 8 then windowWrite d .pcie (a % 65536) (BitVec.ofNat 32 (u32 bs 0)) 15
  else if dmaRegSpace a then deviceWrite d a (BitVec.ofNat 32 (u32 bs 0)) 15
  else devStore d a bs

/-! Ends of instructions, and errors (R455, R466, R467). -/

/-- The default target's answer to an access of M1, as the matrix counts and records it (R25). -/
def matrixCount (d : Dev) (addr : Nat) (read : Bool) : Dev :=
  { d with mtx := { d.mtx with err := d.mtx.err + 1, errAddr := BitVec.ofNat 32 addr, errInfo := fields [(31, 1), (8, b2n read), (0, 1)] } }

/-- A channel error (R467): error record, DMA_IRQ.ERROR, ERROR, EV_FAULT kind 9; the matrix counts a DECODE (R25). -/
def dmaError (d : Dev) (n code addr : Nat) (read : Bool) : Dev :=
  let c := getDma d n
  let mv := c.move.getD {}
  let d := if code = 1 then matrixCount d addr read else d
  let d := dmaMod d n (fun c => { c with move := none, wait := none, lastCode := code, addr := BitVec.ofNat 64 addr })
  let d := evFault d 9 code n 0xFF 0 addr 0 0
  dmaRecordDue d n { bytes := dmaRecord c code 8 mv.moved mv.dropped mv.zeroed (now d), irq := false, next := .error, pc := c.pc }

/-- The address of the instruction at PC. -/
def dmaPcAddr (c : DmaChan) : Nat := (c.progBase.toNat + 32 * c.pc) % 2 ^ 64

def dmaBad (d : Dev) (n : Nat) : Dev := dmaError d n 8 (dmaPcAddr (getDma d n)) true

/-- An instruction row: no effect unless the channel runs with nothing under way; a failed fetch is PROG_FETCH, and
one that no target of M1 takes is counted by the matrix (R25); a reserved flag is BAD_INSTR. -/
def dmaInstr (d : Dev) (n : Nat) (i : DmaIssue) (f : Dev → List Byte → Dev) : Dev :=
  let c := getDma d n
  if c.state != .running || c.move.isSome then d
  else if 8 ≤ n ∧ dmaDenies d n (dmaPcAddr c) = some 1 then dmaError (matrixCount d (dmaPcAddr c) true) n 9 (dmaPcAddr c) true
  else if i.fetchErr ≠ 0 then dmaError d n 9 (dmaPcAddr c) true
  else if 8 ≤ u8 i.word 1 then dmaBad d n else f d (slice i.word 0 32)

/-- The word is of this row: its opcode, or where own is 1 an opcode no row has; a failed fetch has no word. -/
def dmaRowOwn (own : Nat) (i : DmaIssue) : Bool :=
  let o := u8 i.word 0
  i.fetchErr != 0 || o == own || (own == 1 && (o == 0 || decide (5 < o)))

def dmaRow (own : Nat) (ch : Fin 32) (i : DmaIssue) (f : Dev → List Byte → Dev) (s : State) : Host.Outcome State Fault Refusal :=
  if dmaRowOwn own i then run (fun d => dmaInstr d ch.val i f) s else .fault .otherRow

/-! Request lines (R459). -/

def dmaLineOk (n line : Nat) : Bool := (decide (1 ≤ line) && decide (line ≤ 5)) || (decide (8 ≤ n) && [8, 9, 16].contains line)

/-! MOVE (R457–R460). -/

/-- Working addresses of a MOVE: loaded, or kept (R457 step 1). -/
def moveAddrs (c : DmaChan) (w : List Byte) : DmaChan :=
  { c with
    src := if bit (u8 w 2) 4 then c.src else BitVec.ofNat 64 (u64 w 8)
    dst := if bit (u8 w 2) 5 then c.dst else BitVec.ofNat 64 (u64 w 16) }

def moveBad (n : Nat) (w : List Byte) : Bool :=
  u8 w 0 != 1 || bit (u8 w 2) 7 || decide (3 < u8 w 3) || !List.contains [1, 2, 4, 8, 16] (u8 w 4) || !(u8 w 5 == 0 || dmaLineOk n (u8 w 5)) ||
    !isZero w 6 2 || !isZero w 28 4 || decide (67108864 < u32 w 24)

/-- The checks made before the first burst: ALIGN, TARGET_WIDTH and the address at fault. -/
def moveCheck (c : DmaChan) (w : List Byte) : Option (Nat × Nat) :=
  let m := u8 w 2
  let beat := if bit m 6 then 32 else 4
  let len := u32 w 24
  if c.src.toNat % beat ≠ 0 then some (3, c.src.toNat) else if c.dst.toNat % beat ≠ 0 then some (3, c.dst.toNat)
  else if len % beat ≠ 0 ∨ len % (2 ^ u8 w 3) ≠ 0 then some (3, c.src.toNat)
  else if bit m 6 ∧ !bit m 0 ∧ dmaRegSpace c.src.toNat then some (10, c.src.toNat)
  else if bit m 6 ∧ !bit m 1 ∧ dmaRegSpace c.dst.toNat then some (10, c.dst.toNat) else none

def dmaMove (n : Nat) (d : Dev) (w : List Byte) : Dev :=
  if moveBad n w then dmaBad d n else
  let d := dmaMod d n (fun c => moveAddrs c w)
  let len := u32 w 24
  if len = 0 then dmaNext d n (u8 w 1) 1 {} else
  match moveCheck (getDma d n) w with
  | some (code, a) => dmaError d n code a true
  | none => dmaMod d n (fun c => { c with move := some { flags := u8 w 1, mflags := u8 w 2, swap := u8 w 3, burst := u8 w 4, line := u8 w 5, total := len, left := len } })

/-- MOVE (R457). -/
def execMove (ch : Fin 32) (i : DmaIssue) (s : State) : Host.Outcome State Fault Refusal := dmaRow 1 ch i (dmaMove ch.val) s

/-- A burst under way: the device, the addresses, what has been read and is to be written, counts, the error met. -/
structure BurstRun where
  d : Dev
  src : Nat
  dst : Nat
  bytes : List Byte := []
  zeroed : Nat := 0
  dropped : Nat := 0
  err : Option (Nat × Nat × Bool) := none

/-- Address of the next beat. -/
def beatStep (fixed : Bool) (beat a : Nat) : Nat := if fixed then a else (a + beat) % 2 ^ 64

/-- The peripheral that paces a MOVE has nothing for beat i: it withdrew, or its FIFO is empty where an item would begin (R460). -/
def burstGone (d : Dev) (mv : DmaMove) (b : BurstIn) (i : Nat) : Bool :=
  (match b.withdraw with | some k => decide (k ≤ i) | none => false) ||
    (!dmaLineUp d mv.line true && !(mv.line == 16 && i % 2 == 1))

/-- Read beat i of a burst (R457, R460, R467). -/
def burstRead (n : Nat) (mv : DmaMove) (b : BurstIn) (beat : Nat) (r : BurstRun) (i : Nat) : BurstRun :=
  let gone := mv.line != 0 && mv.line != 9 && burstGone r.d mv b i
  let next := beatStep (bit mv.mflags 2) beat r.src
  if r.err.isSome then r
  else if gone then { r with src := next, bytes := r.bytes ++ zeros beat, zeroed := r.zeroed + 1 }
  else if bit mv.mflags 0 then
    (if b.hostFail ≠ 0 then { r with err := some (b.hostFail, r.src, true) }
     else { r with src := next, bytes := r.bytes ++ slice b.data (beat * i) beat })
  else if beat = 32 ∧ dmaRegSpace r.src then { r with err := some (10, r.src, true) }
  else match dmaDenies r.d n r.src with
    | some e => { r with err := some (e, r.src, true) }
    | none =>
      if b.ecc then { r with err := some (11, r.src, true) } else
      let x := dmaReadDev r.d n r.src beat (b.data.drop (beat * i))
      { r with d := x.2, src := next, bytes := r.bytes ++ x.1 }

/-- Write beat i of a burst, of the given bytes. -/
def burstWrite (n : Nat) (mv : DmaMove) (b : BurstIn) (beat : Nat) (bs : List Byte) (r : BurstRun) (i : Nat) : BurstRun :=
  let gone := mv.line == 9 && (match b.withdraw with | some k => decide (k ≤ i) | none => false)
  let next := beatStep (bit mv.mflags 3) beat r.dst
  let x := slice bs (beat * i) beat
  match r.err with
  | some (_, _, false) => r
  | _ =>
    if gone then { r with dst := next, dropped := r.dropped + 1 }
    else if bit mv.mflags 1 then
      (if b.hostFail = 6 then { r with err := some (6, r.dst, false) } else { r with d := deposit r.d r.dst x, dst := next })
    else if beat = 32 ∧ dmaRegSpace r.dst then { r with err := some (10, r.dst, false) }
    else match dmaDenies r.d n r.dst with
      | some e => { r with err := some (e, r.dst, false) }
      | none => { r with d := dmaWriteDev r.d n r.dst x, dst := next }

/-- Bytes with the order reversed in each unit of u bytes (R458). -/
def swapUnits (u : Nat) (bs : List Byte) : List Byte :=
  (List.range (bs.length / u)).flatMap (fun k => (slice bs (u * k) u).reverse)

/-- A channel's next burst (R454, R457): its beats are read, whole swap units are written, and the MOVE ends with its last
byte. -/
def dmaBurstDo (d : Dev) (n : Nat) (mv : DmaMove) (b : BurstIn) : Dev :=
  let c := getDma d n
  let beat := if bit mv.mflags 6 then 32 else 4
  let k := min mv.burst (mv.left / beat)
  let r0 : BurstRun := { d := d, src := c.src.toNat, dst := c.dst.toNat }
  let r := (List.range k).foldl (burstRead n mv b beat) r0
  let got := mv.held ++ r.bytes
  let u := max beat (2 ^ mv.swap)
  let out := swapUnits (2 ^ mv.swap) (got.take (got.length / u * u))
  let r := (List.range (out.length / beat)).foldl (burstWrite n mv b beat out) r
  let n' := r.bytes.length
  let mv := { mv with left := mv.left - n', moved := mv.moved + n', held := got.drop out.length, dropped := mv.dropped + r.dropped,
                      zeroed := mv.zeroed + r.zeroed, withdrawn := mv.withdrawn || (mv.line != 0 && b.withdraw.isSome) || decide (0 < r.zeroed + r.dropped) }
  let d := dmaMod r.d n (fun c => { c with src := BitVec.ofNat 64 r.src, dst := BitVec.ofNat 64 r.dst, move := some mv, bytes := c.bytes + BitVec.ofNat 32 n',
                                           dropped := c.dropped + BitVec.ofNat 32 r.dropped, zeroed := c.zeroed + BitVec.ofNat 32 r.zeroed })
  match r.err with
  | some (e, a, rd) => dmaError d n e a rd
  | none => if mv.left = 0 then dmaNext d n mv.flags (1 + 4 * b2n mv.withdrawn) mv else d

/-- The channel its issue queue has served (R454). -/
def dmaServed (d : Dev) (n : Nat) : Dev :=
  { d with dma := if n < 8 then { d.dma with lastHost := n, devLast := false } else { d.dma with lastDev := n, devLast := true } }

/-- A channel that can have a burst ready: a MOVE under way and its line asserted (R454, R459). -/
def burstReady (d : Dev) (n : Nat) : Bool :=
  match (getDma d n).move with
  | some mv => decide ((getDma d n).state = .running) && (decide (mv.line = 0) || dmaLineUp d mv.line true)
  | none => false

/-- The channel served of those ready (R454): each queue in ascending channel number after the one it last served; where both
have one, they alternate. -/
def dmaTurn (q : Dma) (ns : List Nat) : Option Nat :=
  let host := ((List.range 8).map (fun k => (q.lastHost + 1 + k) % 8)).find? ns.contains
  let dev := ((List.range 24).map (fun k => 8 + (q.lastDev - 8 + 1 + k) % 24)).find? ns.contains
  match host, dev with
  | some h, some v => some (if q.devLast then h else v)
  | some h, none => some h
  | none, v => v

/-- DMA_BURST (R454): a channel with a burst ready issues it in its turn among the channels that have one. -/
def dmaBurst (d : Dev) (n : Nat) (b : BurstIn) : Dev :=
  match (getDma d n).move with
  | some mv =>
    if burstReady d n && dmaTurn d.dma (n :: b.others.filter (burstReady d)) == some n then dmaBurstDo (dmaServed d n) n mv b else d
  | none => d

def execDmaBurst (ch : Fin 32) (b : BurstIn) (s : State) : Host.Outcome State Fault Refusal := run (fun d => dmaBurst d ch.val b) s

/-! LOOP, WAIT, SIGNAL, STOP (R461–R464). -/

def loopBad (c : DmaChan) (w : List Byte) : Bool :=
  let act := if u8 w 2 = 0 then c.act0 else c.act1
  decide (1 < u8 w 2) || !isZero w 3 1 || !isZero w 10 22 || u16 w 8 == 0 || decide (1024 < u16 w 8) || decide (c.pc < u16 w 8) ||
    !(act == none || act == some c.pc)

def dmaLoop (n : Nat) (d : Dev) (w : List Byte) : Dev :=
  let c := getDma d n
  if loopBad c w then dmaBad d n else
  let second := u8 w 2 == 1
  let target := c.pc - u16 w 8
  let set (v : Nat) (a : Option Nat) : Dev := dmaMod d n (fun c =>
    if second then { c with lc1 := BitVec.ofNat 32 v, act1 := a } else { c with lc0 := BitVec.ofNat 32 v, act0 := a })
  let act := if second then c.act1 else c.act0
  let v := if act.isNone then u32 w 4 - 1 else (if second then c.lc1 else c.lc0).toNat
  if u32 w 4 = 0 then dmaEnds d n (u8 w 1) 1 {} target .running
  else if 0 < v then dmaEnds (set (v - 1) (some c.pc)) n (u8 w 1) 1 {} target .running
  else dmaNext (set 0 none) n (u8 w 1) 1 {}

/-- LOOP (R461). -/
def execLoop (ch : Fin 32) (i : DmaIssue) (s : State) : Host.Outcome State Fault Refusal := dmaRow 2 ch i (dmaLoop ch.val) s

def waitBad (n : Nat) (w : List Byte) : Bool :=
  let k := u8 w 2
  let i := u8 w 3
  !isZero w 8 24 || !(if k = 1 then dmaLineOk n i else if k = 2 then decide (i < 32) else if k = 3 then decide (i < 3)
    else if k = 4 then decide (i < 8) else k == 5 && decide (i < (if n < 8 then 8 else 32)))

def dmaWait (n : Nat) (d : Dev) (w : List Byte) : Dev :=
  if waitBad n w then dmaBad d n else
  let x : DmaWait := { flags := u8 w 1, kind := u8 w 2, index := u8 w 3,
                       stop := if u32 w 4 = 0 then none else some (now d + BitVec.ofNat 64 (1000 * u32 w 4)) }
  if waitHolds d n x false then waitEnds d n x else dmaMod d n (fun c => { c with state := .waiting, wait := some x })

/-- WAIT (R462). -/
def execWait (ch : Fin 32) (i : DmaIssue) (s : State) : Host.Outcome State Fault Refusal := dmaRow 3 ch i (dmaWait ch.val) s

def waitMet (d : Dev) (n : Nat) : Dev :=
  let c := getDma d n
  match c.wait with
  | some w => if c.state = .waiting ∧ waitHolds d n w true then waitEnds d n w else d
  | none => d

/-- WAIT_CONDITION_MET (R462). -/
def execWaitConditionMet (ch : Fin 32) (s : State) : Host.Outcome State Fault Refusal := run (fun d => waitMet d ch.val) s

/-- The timeout of a WAIT expires: the condition wins where it holds at the same time (R476). -/
def waitExpires (d : Dev) (n : Nat) : Dev :=
  let c := getDma d n
  match c.wait with
  | some w => match w.stop with
    | some t =>
      if c.state != .waiting then d else
      let d := dtTo d t
      if waitHolds d n w false then waitEnds d n w else dmaError d n 7 (dmaPcAddr c) true
    | none => d
  | none => d

/-- WAIT_TIMEOUT (R462, R467). -/
def execWaitTimeout (ch : Fin 32) (s : State) : Host.Outcome State Fault Refusal := run (fun d => waitExpires d ch.val) s

/-- A host-space read of 50 ms: of a MOVE's source, or the fetch of a host-owned channel's program. -/
def hostTimeout (d : Dev) (n : Nat) : Dev :=
  let c := getDma d n
  if c.state != .running then d else
  match c.move with
  | some mv => if bit mv.mflags 0 then dmaError d n 5 c.src.toNat true else d
  | none => if n < 8 then dmaError d n 9 (dmaPcAddr c) true else d

/-- HOST_TIMEOUT (R467). -/
def execHostTimeout (ch : Fin 32) (s : State) : Host.Outcome State Fault Refusal := run (fun d => hostTimeout d ch.val) s

def signalBad (n : Nat) (w : List Byte) : Bool :=
  let k := u8 w 2
  let i := u8 w 3
  !isZero w 5 3 || !isZero w 20 12 || decide (1 < u8 w 4) ||
    !(if k = 1 then decide (i < 32) else if k = 2 then decide (i < (if n < 8 then 8 else 32)) else k == 3 && i == 0 && u64 w 8 % 4 == 0)

def dmaSignal (bme : Bool) (n : Nat) (d : Dev) (w : List Byte) : Dev :=
  if signalBad n w then dmaBad d n else
  let b : Word := BitVec.ofNat 32 (2 ^ u8 w 3)
  let a := u64 w 8
  let fin (d : Dev) : Dev := dmaNext d n (u8 w 1) 1 {}
  if u8 w 2 = 1 then fin (hif d (fun h => { h with dblD2H := h.dblD2H ||| b }))
  else if u8 w 2 = 2 then fin { d with dma := { d.dma with flags := d.dma.flags ||| b } }
  else if bit (u8 w 4) 0 then (if bme then dmaError d n 6 a false else fin (deposit d a (slice w 16 4)))
  else match dmaDenies d n a with
    | some e => dmaError d n e a false
    | none => fin (dmaWriteDev d n a (slice w 16 4))

/-- SIGNAL (R463). -/
def execSignal (ch : Fin 32) (i : DmaIssue) (s : State) : Host.Outcome State Fault Refusal := dmaRow 4 ch i (dmaSignal i.bmeOff ch.val) s

def dmaStop (n : Nat) (d : Dev) (w : List Byte) : Dev :=
  if !isZero w 2 30 then dmaBad d n else dmaEnds d n (u8 w 1) 3 {} (getDma d n).pc .idle

/-- STOP (R464). -/
def execStop (ch : Fin 32) (i : DmaIssue) (s : State) : Host.Outcome State Fault Refusal := dmaRow 5 ch i (dmaStop ch.val) s

/-! The bus matrix (R471–R473). -/

/-- The arbitrated target of R471 at an address. -/
def mtxTarget (a : Nat) : Option Nat :=
  let off := (a - 0x20000000) % 0x00800000
  if a < 0x00400000 then some 0
  else if 0x08780000 ≤ a ∧ a < 0x08800000 then some 1
  else if 0x20000000 ≤ a ∧ a < 0x24000000 ∧ 0x00400000 ≤ off ∧ off < 0x00600000 then some (2 + (a - 0x20000000) / 0x00800000)
  else if 0x30000000 ≤ a ∧ a < 0x32000000 then some 10
  else if 0x34A00000 ≤ a ∧ a < 0x34C00000 then some 11
  else if 0x34C00000 ≤ a ∧ a < 0x35000000 then some 12
  else if dmaRegSpace a then some 13
  else if 0x60000000 ≤ a ∧ a < 0x70000000 then some 14 else none

/-- Direction rules of R24 on top of the reach of R471. -/
def mtxReach (i : Nat) (q : MatrixReq) : Bool :=
  parkReach i q.master && (if i = 1 then q.read == (q.master == 5) else if i = 12 then q.read == !(q.master == 3) else true)

/-- The first master above the one last granted, wrapping (R472). -/
def mtxRound (last : Option Nat) (ms : List Nat) : Option Nat :=
  let s := match last with | some m => m + 1 | none => 0
  ((List.range 16).map (fun k => (s + k) % 16)).find? ms.contains

/-- The master target i grants among those that request it: its default master first where it was idle. -/
def mtxGrant (d : Dev) (idle : Bool) (i : Nat) (ms : List Nat) : Option Nat :=
  if idle && ms.contains (parkOf d i) then some (parkOf d i) else mtxRound (tabGet d.mtx.last i) ms

/-- Accesses presented in one cycle: each target grants one, and an access of M0 or M3–M7 that no target takes is answered by
the default target.  Cores and the DMA engine meet that answer in their own rows. -/
def matrixGrant (d : Dev) (idle : Bool) (qs : List MatrixReq) : Dev :=
  let ok (q : MatrixReq) : Bool := decide (q.master < 16) && !d.mtx.isolated.getLsbD q.master
  let hit (q : MatrixReq) : Bool := match mtxTarget q.addr.toNat with | some i => mtxReach i q | none => false
  let reports (m : Nat) : Bool := m == 0 || (decide (3 ≤ m) && decide (m ≤ 7))
  let d := (List.range 15).foldl (fun (d : Dev) i =>
    match mtxGrant d idle i ((qs.filter (fun q => ok q && hit q && mtxTarget q.addr.toNat == some i)).map (·.master)) with
    | some m => { d with mtx := { d.mtx with last := tabSet d.mtx.last i (some m) } }
    | none => d) d
  (qs.filter (fun q => ok q && !hit q && !mtxPrivate d q && reports q.master)).foldl (fun d q => matrixError d q.master q.read q.addr) d

/-- MATRIX_GRANT (R472, R473). -/
def execMatrixGrant (idle : Bool) (accesses : List MatrixReq) (s : State) : Host.Outcome State Fault Refusal :=
  run (fun d => matrixGrant d idle accesses) s

end Sys2Proof.Machine
end

