-- ==== Sys2Proof/Machine/DspAlu.lean ====
section
/-! DEFINITION. What each slot-A word does to the registers of a core (R265–R267, R271–R280). -/

namespace Sys2Proof.Machine

/-! Vector operations (R267, R274). -/

def i32Max : Int := 2147483647
def i32Min : Int := -2147483648

/-- A 32-bit result: saturated or wrapped, with whether it overflowed. -/
def satW (sat : Bool) (v : Int) : Word × Bool :=
  let ovr := decide (v < i32Min) || decide (i32Max < v)
  (BitVec.ofInt 32 (if sat then clampI i32Min i32Max v else v), ovr)

/-- A VV word by a per-lane function of a, b and the lane of VD; the flag sets SATF. -/
def vvLanes (w : Word) (c : DspCore) (f : Word → Word → Word → Word × Bool) : AOut :=
  let a := vGet c (fld w 20 16)
  let b := vGet c (fld w 15 11)
  let d := vGet c (fld w 25 21)
  let r := (a.zip (b.zip d)).map (fun x => f x.1 x.2.1 x.2.2)
  let c := vSet c (fld w 25 21) (r.map Prod.fst)
  aReg { c with satf := c.satf || r.any (·.2) }

def vvSat (w : Word) : Bool := bit w.toNat 10
def vvSh (w : Word) : Nat := fld w 9 5

def effVadd (w : Word) (c : DspCore) : AOut := vvLanes w c (fun a b _ => satW (vvSat w) (a.toInt + b.toInt))
def effVsub (w : Word) (c : DspCore) : AOut := vvLanes w c (fun a b _ => satW (vvSat w) (a.toInt - b.toInt))
def effVmin (w : Word) (c : DspCore) : AOut := vvLanes w c (fun a b _ => (if b.toInt < a.toInt then b else a, false))
def effVmax (w : Word) (c : DspCore) : AOut := vvLanes w c (fun a b _ => (if a.toInt < b.toInt then b else a, false))
def effVabs (w : Word) (c : DspCore) : AOut := vvLanes w c (fun a _ _ => satW (vvSat w) (a.toInt.natAbs : Int))
def effVneg (w : Word) (c : DspCore) : AOut := vvLanes w c (fun a _ _ => satW (vvSat w) (-a.toInt))
def effVand (w : Word) (c : DspCore) : AOut := vvLanes w c (fun a b _ => (a &&& b, false))
def effVor (w : Word) (c : DspCore) : AOut := vvLanes w c (fun a b _ => (a ||| b, false))
def effVxor (w : Word) (c : DspCore) : AOut := vvLanes w c (fun a b _ => (a ^^^ b, false))
def effVshl (w : Word) (c : DspCore) : AOut := vvLanes w c (fun a _ _ => satW (vvSat w) (a.toInt * 2 ^ vvSh w))
def effVasr (w : Word) (c : DspCore) : AOut := vvLanes w c (fun a _ _ => (BitVec.ofInt 32 (a.toInt / (2 : Int) ^ vvSh w), false))
def effVrsr (w : Word) (c : DspCore) : AOut := vvLanes w c (fun a _ _ => (BitVec.ofInt 32 (shrRne a.toInt (vvSh w)), false))
def effVlsr (w : Word) (c : DspCore) : AOut := vvLanes w c (fun a _ _ => (a >>> vvSh w, false))
def effVmov (w : Word) (c : DspCore) : AOut := vvLanes w c (fun a _ _ => (a, false))
def effVcmplt (w : Word) (c : DspCore) : AOut := vvLanes w c (fun a b _ => (if a.toInt < b.toInt then 0xFFFFFFFF#32 else 0, false))
def effVsel (w : Word) (c : DspCore) : AOut := vvLanes w c (fun a b d => (if d = 0 then b else a, false))

/-- VALIGN: lanes i + k of VA then VB, k = SH[2:0]. -/
def effValign (w : Word) (c : DspCore) : AOut :=
  aReg (vSet c (fld w 25 21) (((vGet c (fld w 20 16) ++ vGet c (fld w 15 11)).drop (vvSh w % 8)).take 8))

/-! Accumulators (R265, R275). -/

/-- An 80-bit result modulo 2^80, with whether its exact value lies outside. -/
def acc80 (v : Int) : BitVec 80 × Bool :=
  (BitVec.ofInt 80 v, decide (v < -(2 : Int) ^ 79) || decide ((2 : Int) ^ 79 - 1 < v))

/-- AD written with exact values; overflow sets AOVF. -/
def accOut (w : Word) (c : DspCore) (vs : List Int) : AOut :=
  let r := vs.map acc80
  let c := aSet c (fld w 25 23) (r.map Prod.fst)
  aReg { c with aovf := c.aovf || r.any (·.2) }

/-- The eight products a × b′ (R265, R275). -/
def prods (w : Word) (c : DspCore) : List Int :=
  let a := vGet c (fld w 22 18)
  let b := vGet c (fld w 17 13)
  let b' := if bit w.toNat 9 then List.replicate 8 (b.getD (fld w 8 6) 0) else b
  (a.zip b').map (fun p => p.1.toInt * (if bit w.toNat 5 then (p.2.toNat : Int) else p.2.toInt))

def accS (w : Word) (c : DspCore) : List Int := (aGet c (fld w 12 10)).map (·.toInt)
def accD (w : Word) (c : DspCore) : List Int := (aGet c (fld w 25 23)).map (·.toInt)

def effAmul (w : Word) (c : DspCore) : AOut := accOut w c (prods w c)
def effAmac (w : Word) (c : DspCore) : AOut := accOut w c (((accS w c).zip (prods w c)).map (fun p => p.1 + p.2))
def effAmsu (w : Word) (c : DspCore) : AOut := accOut w c (((accS w c).zip (prods w c)).map (fun p => p.1 - p.2))
def effAadd (w : Word) (c : DspCore) : AOut := accOut w c (((accD w c).zip (accS w c)).map (fun p => p.1 + p.2))
def effAclr (w : Word) (c : DspCore) : AOut := accOut w c (List.replicate 8 0)
def effAld (w : Word) (c : DspCore) : AOut := accOut w c ((vGet c (fld w 22 18)).map (fun a => a.toInt * 2 ^ fld w 17 13))
def effAsum (w : Word) (c : DspCore) : AOut := accOut w c ((accS w c).sum :: List.replicate 7 0)
def effAmov (w : Word) (c : DspCore) : AOut := accOut w c (accS w c)

/-- EXT (R266). -/
def effExt (w : Word) (c : DspCore) : AOut :=
  let r := (aGet c (fld w 20 18)).map (fun a => satW (bit w.toNat 11) (shrRne a.toInt (fld w 17 12)))
  let c := vSet c (fld w 25 21) (r.map Prod.fst)
  aReg { c with satf := c.satf || r.any (·.2) }

/-! Scalars (R276). -/

def srA (w : Word) (c : DspCore) : Word := sGet c (fld w 21 18)
def srB (w : Word) (c : DspCore) : Word := sGet c (fld w 17 14)
def srOut (w : Word) (c : DspCore) (v : Word) : AOut := aReg (sSet c (fld w 25 22) v)

def effAdd (w : Word) (c : DspCore) : AOut := srOut w c (srA w c + srB w c)
def effSub (w : Word) (c : DspCore) : AOut := srOut w c (srA w c - srB w c)
def effAnd (w : Word) (c : DspCore) : AOut := srOut w c (srA w c &&& srB w c)
def effOr (w : Word) (c : DspCore) : AOut := srOut w c (srA w c ||| srB w c)
def effXor (w : Word) (c : DspCore) : AOut := srOut w c (srA w c ^^^ srB w c)
def effShl (w : Word) (c : DspCore) : AOut := srOut w c (srA w c <<< ((srB w c).toNat % 32))
def effAsr (w : Word) (c : DspCore) : AOut := srOut w c ((srA w c).sshiftRight ((srB w c).toNat % 32))
def effLsr (w : Word) (c : DspCore) : AOut := srOut w c (srA w c >>> ((srB w c).toNat % 32))
def effMul (w : Word) (c : DspCore) : AOut := srOut w c (srA w c * srB w c)
def effSlt (w : Word) (c : DspCore) : AOut := srOut w c (if (srA w c).toInt < (srB w c).toInt then 1 else 0)
def effSltu (w : Word) (c : DspCore) : AOut := srOut w c (if (srA w c).toNat < (srB w c).toNat then 1 else 0)
def effAddi (w : Word) (c : DspCore) : AOut := srOut w c (srA w c + imm16 w)
def effMovi (w : Word) (c : DspCore) : AOut := srOut w c (imm16 w)
def effMovhi (w : Word) (c : DspCore) : AOut :=
  srOut w c (BitVec.ofNat 32 (fld w 15 0 * 65536 + (sGet c (fld w 25 22)).toNat % 65536))

/-- The address of the word after a pair that holds w. -/
def afterPair (w : Word) (c : DspCore) : Word := c.pc + (if isPair w then 8 else 4)

def effJr (w : Word) (c : DspCore) : AOut := { core := c, jump := some (srA w c) }
def effCallr (w : Word) (c : DspCore) : AOut := { core := sSet c 15 (afterPair w c), jump := some (srA w c) }

/-! Transfers (R276, R280). -/

def xfD (w : Word) : Nat := fld w 25 21
def xfS (w : Word) : Nat := fld w 20 16
def xfLn (w : Word) : Nat := fld w 15 13

def effMtp (w : Word) (c : DspCore) : AOut := aReg { c with p := tabSet c.p (xfD w) (sGet c (xfS w)) }
def effMfp (w : Word) (c : DspCore) : AOut := aReg (sSet c (xfD w) (tabGet c.p (xfS w)))
def effMtn (w : Word) (c : DspCore) : AOut := aReg { c with n := tabSet c.n (xfD w) (sGet c (xfS w)) }
def effMfn (w : Word) (c : DspCore) : AOut := aReg (sSet c (xfD w) (tabGet c.n (xfS w)))
def effMtl (w : Word) (c : DspCore) : AOut := aReg { c with l := tabSet c.l (xfD w) (sGet c (xfS w)) }
def effMfl (w : Word) (c : DspCore) : AOut := aReg (sSet c (xfD w) (tabGet c.l (xfS w)))
def effVins (w : Word) (c : DspCore) : AOut := aReg { c with v := tabSet c.v (8 * xfD w + xfLn w) (sGet c (xfS w)) }
def effVext (w : Word) (c : DspCore) : AOut := aReg (sSet c (xfD w) (tabGet c.v (8 * xfS w + xfLn w)))
def effVbc (w : Word) (c : DspCore) : AOut := aReg (vSet c (xfD w) (List.replicate 8 (sGet c (xfS w))))

/-- The STATUS register (R280). -/
def statusWord (c : DspCore) : Word := BitVec.ofNat 32 (32 * c.rpt.length + 2 * b2n c.aovf + b2n c.satf)

/-- A special register of core id (R280). -/
def specGet (id : Nat) (c : DspCore) : Nat → Word
  | 0 => BitVec.ofNat 32 id
  | 1 => statusWord c
  | 2 => c.xvec
  | 3 => BitVec.ofNat 32 c.cause
  | 4 => c.xpc
  | 5 => c.xaddr
  | 6 => BitVec.ofNat 32 c.cycle
  | 7 => c.cycleHi
  | 8 => c.task
  | _ => 0

/-- MTS: STATUS and XVEC are writable, STATUS in its sticky flags; the others ignore the write. -/
def effMts (w : Word) (c : DspCore) : AOut :=
  let x := sGet c (xfS w)
  aReg (if xfD w = 1 then { c with aovf := bit x.toNat 1 && c.aovf, satf := bit x.toNat 0 && c.satf }
    else if xfD w = 2 then { c with xvec := x } else c)

/-- MFS; a read of CYCLE_LO latches CYCLE_HI. -/
def effMfs (id : Nat) (w : Word) (c : DspCore) : AOut :=
  let v := specGet id c (xfS w)
  let c := if xfS w = 6 then { c with cycleHi := BitVec.ofNat 32 (c.cycle / 2 ^ 32) } else c
  aReg (sSet c (xfD w) v)

/-! Control (R271, R272, R277). -/

/-- BR's test of SA. -/
def brHolds (cond : Nat) (x : Word) : Bool :=
  match cond with
  | 0 => true
  | 1 => x == 0
  | 2 => x != 0
  | 3 => decide (x.toInt < 0)
  | 4 => decide (0 ≤ x.toInt)
  | 5 => decide (0 < x.toInt)
  | _ => decide (x.toInt ≤ 0)

/-- Target of BR and CALL: the word's address + 4 OFF16. -/
def brTarget (w : Word) (c : DspCore) : Word := c.pc + BitVec.ofInt 32 (sext 16 (fld w 15 0) * 4)

def effBr (w : Word) (c : DspCore) : AOut :=
  { core := c, jump := if brHolds (fld w 21 19) (sGet c (fld w 25 22)) then some (brTarget w c) else none }
def effCall (w : Word) (c : DspCore) : AOut := { core := sSet c 15 (afterPair w c), jump := some (brTarget w c) }

/-- Count of a REP. -/
def repCount (w : Word) (c : DspCore) : Nat :=
  if bit w.toNat 25 then (sGet c (fld w 16 13)).toNat else fld w 24 13

/-- REP (R271).  lastPair: the body's last word has PAIR set. -/
def effRep (lastPair : Bool) (w : Word) (c : DspCore) : AOut :=
  let start := afterPair w c
  let stop := start + BitVec.ofNat 32 (4 * (fld w 12 0 - 1))
  let n := repCount w c
  if lastPair then { core := c, cause := some (0x02, 0) }
  else if n = 0 then { core := c, skip := some (stop + 4) }
  else if n = 1 then aReg c
  else if 4 ≤ c.rpt.length then { core := c, cause := some (0x03, 0) }
  else { core := c, push := some { start := start, stop := stop, count := n } }

/-! System (R278). -/

def effNop (_ : Word) (c : DspCore) : AOut := aReg c
/-- TFETCH blocks; the dispatch that ends it is fetchReturn. -/
def effTfetch (w : Word) (c : DspCore) : AOut := aReg { c with fetching := some (fld w 25 22), fetched := true }
/-- SYNC and TDONE wait for every store; one that has failed raises BUS_ERR_ST there (R286). -/
def effSync (_ : Word) (c : DspCore) : AOut := { core := c, cause := c.failed.map (fun p => (0x08, p.1)) }
def effTdone (w : Word) (c : DspCore) : AOut := { core := c, cause := c.failed.map (fun p => (0x08, p.1)), done := some (srA w c) }
def effTrap (w : Word) (c : DspCore) : AOut := { core := c, cause := some (0x04, srA w c) }

/-- Words of slot M. -/
def effM : Option (DspCore → AOut) := none

/-- Whether w is the format and function a row names. -/
def isVV (fn : Nat) (w : Word) : Bool := opc w == 1 && fn5 w == fn
def isAC (fn : Nat) (w : Word) : Bool := opc w == 2 && fn5 w == fn
def isRX (w : Word) : Bool := opc w == 3 && fnRx w == 0
def isSR (fn : Nat) (w : Word) : Bool := opc w == 4 && fn5 w == fn
def isXF (fn : Nat) (w : Word) : Bool := opc w == 8 && fn4 w == fn
def isSys (fn : Nat) (w : Word) : Bool := opc w == 0 && fn5 w == fn
def isOpc (o : Nat) (w : Word) : Bool := opc w == o

/-- A word that some row other than ADD names. -/
def isOther (w : Word) : Bool :=
  match opc w with
  | 0x00 => decide (fn5 w ≤ 4)
  | 0x01 => decide (fn5 w ≤ 0x10)
  | 0x02 => decide (fn5 w ≤ 7)
  | 0x03 => fnRx w == 0
  | 0x04 => decide (1 ≤ fn5 w) && decide (fn5 w ≤ 12)
  | 0x08 => decide (fn4 w ≤ 10)
  | o => (decide (5 ≤ o) && decide (o ≤ 0x0B)) || (decide (0x10 ≤ o) && decide (o ≤ 0x14))

end Sys2Proof.Machine
end

