-- ==== Sys2Proof/Machine/DspRows.lean ====
section
/-! DEFINITION. The rows of the DSP core's instructions (chapter 10), and the scheduler's own events (R286, R292, R294).
A word of slot A is issued alone or with the slot-M word that follows it; a word of slot M, alone. -/

namespace Sys2Proof.Machine

/-- A core row: the word is the row's own; a tile that is off issues nothing. -/
def coreRow (own : Word → Bool) (core : Fin 64) (i : Issue) (eff : Option (DspCore → AOut)) (s : State) : Host.Outcome State Fault Refusal :=
  if own i.w then run (fun d => if pdOn d (10 + core.val / 16) then tilesMod d (fun T => runPair T core.val i eff) else d) s
  else .fault .otherRow

/-- A slot-A row. -/
def aRow (own : Word → Bool) (eff : Word → DspCore → AOut) (core : Fin 64) (i : Issue) (s : State) : Host.Outcome State Fault Refusal :=
  coreRow own core i (some (eff i.w)) s
/-- A slot-M row. -/
def mRow (o : Nat) (core : Fin 64) (i : Issue) (s : State) : Host.Outcome State Fault Refusal := coreRow (isOpc o) core i effM s

/-- Whether the last word of a REP's body has PAIR set, which makes the REP illegal (R271). -/
def repLastPair (T : Tiles) (core : Nat) (w : Word) : Bool :=
  let c := getCore T core
  let stop := afterPair w c + BitVec.ofNat 32 (4 * (fld w 12 0 - 1))
  isPair (coreWord T core stop)

/-- VADD (R274). -/
def execVadd (core : Fin 64) (i : Issue) (s : State) : Host.Outcome State Fault Refusal := aRow (isVV 0x00) effVadd core i s
/-- VSUB (R274). -/
def execVsub (core : Fin 64) (i : Issue) (s : State) : Host.Outcome State Fault Refusal := aRow (isVV 0x01) effVsub core i s
/-- VMIN (R274). -/
def execVmin (core : Fin 64) (i : Issue) (s : State) : Host.Outcome State Fault Refusal := aRow (isVV 0x02) effVmin core i s
/-- VMAX (R274). -/
def execVmax (core : Fin 64) (i : Issue) (s : State) : Host.Outcome State Fault Refusal := aRow (isVV 0x03) effVmax core i s
/-- VABS (R274). -/
def execVabs (core : Fin 64) (i : Issue) (s : State) : Host.Outcome State Fault Refusal := aRow (isVV 0x04) effVabs core i s
/-- VNEG (R274). -/
def execVneg (core : Fin 64) (i : Issue) (s : State) : Host.Outcome State Fault Refusal := aRow (isVV 0x05) effVneg core i s
/-- VAND (R274). -/
def execVand (core : Fin 64) (i : Issue) (s : State) : Host.Outcome State Fault Refusal := aRow (isVV 0x06) effVand core i s
/-- VOR (R274). -/
def execVor (core : Fin 64) (i : Issue) (s : State) : Host.Outcome State Fault Refusal := aRow (isVV 0x07) effVor core i s
/-- VXOR (R274). -/
def execVxor (core : Fin 64) (i : Issue) (s : State) : Host.Outcome State Fault Refusal := aRow (isVV 0x08) effVxor core i s
/-- VSHL (R274). -/
def execVshl (core : Fin 64) (i : Issue) (s : State) : Host.Outcome State Fault Refusal := aRow (isVV 0x09) effVshl core i s
/-- VASR (R274). -/
def execVasr (core : Fin 64) (i : Issue) (s : State) : Host.Outcome State Fault Refusal := aRow (isVV 0x0A) effVasr core i s
/-- VRSR (R274). -/
def execVrsr (core : Fin 64) (i : Issue) (s : State) : Host.Outcome State Fault Refusal := aRow (isVV 0x0B) effVrsr core i s
/-- VLSR (R274). -/
def execVlsr (core : Fin 64) (i : Issue) (s : State) : Host.Outcome State Fault Refusal := aRow (isVV 0x0C) effVlsr core i s
/-- VMOV (R274). -/
def execVmov (core : Fin 64) (i : Issue) (s : State) : Host.Outcome State Fault Refusal := aRow (isVV 0x0D) effVmov core i s
/-- VALIGN (R274). -/
def execValign (core : Fin 64) (i : Issue) (s : State) : Host.Outcome State Fault Refusal := aRow (isVV 0x0E) effValign core i s
/-- VCMPLT (R274). -/
def execVcmplt (core : Fin 64) (i : Issue) (s : State) : Host.Outcome State Fault Refusal := aRow (isVV 0x0F) effVcmplt core i s
/-- VSEL (R274). -/
def execVsel (core : Fin 64) (i : Issue) (s : State) : Host.Outcome State Fault Refusal := aRow (isVV 0x10) effVsel core i s
/-- AMUL (R275). -/
def execAmul (core : Fin 64) (i : Issue) (s : State) : Host.Outcome State Fault Refusal := aRow (isAC 0) effAmul core i s
/-- AMAC (R275). -/
def execAmac (core : Fin 64) (i : Issue) (s : State) : Host.Outcome State Fault Refusal := aRow (isAC 1) effAmac core i s
/-- AMSU (R275). -/
def execAmsu (core : Fin 64) (i : Issue) (s : State) : Host.Outcome State Fault Refusal := aRow (isAC 2) effAmsu core i s
/-- AADD (R275). -/
def execAadd (core : Fin 64) (i : Issue) (s : State) : Host.Outcome State Fault Refusal := aRow (isAC 3) effAadd core i s
/-- ACLR (R275). -/
def execAclr (core : Fin 64) (i : Issue) (s : State) : Host.Outcome State Fault Refusal := aRow (isAC 4) effAclr core i s
/-- ALD (R275). -/
def execAld (core : Fin 64) (i : Issue) (s : State) : Host.Outcome State Fault Refusal := aRow (isAC 5) effAld core i s
/-- ASUM (R275). -/
def execAsum (core : Fin 64) (i : Issue) (s : State) : Host.Outcome State Fault Refusal := aRow (isAC 6) effAsum core i s
/-- AMOV (R275). -/
def execAmov (core : Fin 64) (i : Issue) (s : State) : Host.Outcome State Fault Refusal := aRow (isAC 7) effAmov core i s
/-- EXT (R266). -/
def execExt (core : Fin 64) (i : Issue) (s : State) : Host.Outcome State Fault Refusal := aRow (isRX) effExt core i s
/-- ADD (R276); it also carries words that no row names, which raise ILLEGAL (R279). -/
def execAdd (core : Fin 64) (i : Issue) (s : State) : Host.Outcome State Fault Refusal := aRow (fun w => isSR 0 w || !isOther w) effAdd core i s
/-- SUB (R276). -/
def execSub (core : Fin 64) (i : Issue) (s : State) : Host.Outcome State Fault Refusal := aRow (isSR 1) effSub core i s
/-- AND (R276). -/
def execAnd (core : Fin 64) (i : Issue) (s : State) : Host.Outcome State Fault Refusal := aRow (isSR 2) effAnd core i s
/-- OR (R276). -/
def execOr (core : Fin 64) (i : Issue) (s : State) : Host.Outcome State Fault Refusal := aRow (isSR 3) effOr core i s
/-- XOR (R276). -/
def execXor (core : Fin 64) (i : Issue) (s : State) : Host.Outcome State Fault Refusal := aRow (isSR 4) effXor core i s
/-- SHL (R276). -/
def execShl (core : Fin 64) (i : Issue) (s : State) : Host.Outcome State Fault Refusal := aRow (isSR 5) effShl core i s
/-- ASR (R276). -/
def execAsr (core : Fin 64) (i : Issue) (s : State) : Host.Outcome State Fault Refusal := aRow (isSR 6) effAsr core i s
/-- LSR (R276). -/
def execLsr (core : Fin 64) (i : Issue) (s : State) : Host.Outcome State Fault Refusal := aRow (isSR 7) effLsr core i s
/-- MUL (R276). -/
def execMul (core : Fin 64) (i : Issue) (s : State) : Host.Outcome State Fault Refusal := aRow (isSR 8) effMul core i s
/-- SLT (R276). -/
def execSlt (core : Fin 64) (i : Issue) (s : State) : Host.Outcome State Fault Refusal := aRow (isSR 9) effSlt core i s
/-- SLTU (R276). -/
def execSltu (core : Fin 64) (i : Issue) (s : State) : Host.Outcome State Fault Refusal := aRow (isSR 10) effSltu core i s
/-- JR (R276). -/
def execJr (core : Fin 64) (i : Issue) (s : State) : Host.Outcome State Fault Refusal := aRow (isSR 11) effJr core i s
/-- CALLR (R276). -/
def execCallr (core : Fin 64) (i : Issue) (s : State) : Host.Outcome State Fault Refusal := aRow (isSR 12) effCallr core i s
/-- ADDI (R276). -/
def execAddi (core : Fin 64) (i : Issue) (s : State) : Host.Outcome State Fault Refusal := aRow (isOpc 5) effAddi core i s
/-- MOVI (R276). -/
def execMovi (core : Fin 64) (i : Issue) (s : State) : Host.Outcome State Fault Refusal := aRow (isOpc 6) effMovi core i s
/-- MOVHI (R276). -/
def execMovhi (core : Fin 64) (i : Issue) (s : State) : Host.Outcome State Fault Refusal := aRow (isOpc 7) effMovhi core i s
/-- MTP (R276). -/
def execMtp (core : Fin 64) (i : Issue) (s : State) : Host.Outcome State Fault Refusal := aRow (isXF 0) effMtp core i s
/-- MFP (R276). -/
def execMfp (core : Fin 64) (i : Issue) (s : State) : Host.Outcome State Fault Refusal := aRow (isXF 1) effMfp core i s
/-- MTN (R276). -/
def execMtn (core : Fin 64) (i : Issue) (s : State) : Host.Outcome State Fault Refusal := aRow (isXF 2) effMtn core i s
/-- MFN (R276). -/
def execMfn (core : Fin 64) (i : Issue) (s : State) : Host.Outcome State Fault Refusal := aRow (isXF 3) effMfn core i s
/-- MTL (R276). -/
def execMtl (core : Fin 64) (i : Issue) (s : State) : Host.Outcome State Fault Refusal := aRow (isXF 4) effMtl core i s
/-- MFL (R276). -/
def execMfl (core : Fin 64) (i : Issue) (s : State) : Host.Outcome State Fault Refusal := aRow (isXF 5) effMfl core i s
/-- VINS (R276). -/
def execVins (core : Fin 64) (i : Issue) (s : State) : Host.Outcome State Fault Refusal := aRow (isXF 6) effVins core i s
/-- VEXT (R276). -/
def execVext (core : Fin 64) (i : Issue) (s : State) : Host.Outcome State Fault Refusal := aRow (isXF 7) effVext core i s
/-- VBC (R276). -/
def execVbc (core : Fin 64) (i : Issue) (s : State) : Host.Outcome State Fault Refusal := aRow (isXF 8) effVbc core i s
/-- MTS (R276). -/
def execMts (core : Fin 64) (i : Issue) (s : State) : Host.Outcome State Fault Refusal := aRow (isXF 9) effMts core i s
/-- MFS (R280). -/
def execMfs (core : Fin 64) (i : Issue) (s : State) : Host.Outcome State Fault Refusal := aRow (isXF 10) (effMfs core.val) core i s
/-- BR (R277). -/
def execBr (core : Fin 64) (i : Issue) (s : State) : Host.Outcome State Fault Refusal := aRow (isOpc 9) effBr core i s
/-- CALL (R277). -/
def execCall (core : Fin 64) (i : Issue) (s : State) : Host.Outcome State Fault Refusal := aRow (isOpc 10) effCall core i s
/-- REP (R271). -/
def execRep (core : Fin 64) (i : Issue) (s : State) : Host.Outcome State Fault Refusal :=
  aRow (isOpc 11) (effRep (repLastPair s.dev.tiles core.val i.w)) core i s
/-- LDV (R268). -/
def execLdv (core : Fin 64) (i : Issue) (s : State) : Host.Outcome State Fault Refusal := mRow 0x10 core i s
/-- STV (R268). -/
def execStv (core : Fin 64) (i : Issue) (s : State) : Host.Outcome State Fault Refusal := mRow 0x11 core i s
/-- LDS (R268). -/
def execLds (core : Fin 64) (i : Issue) (s : State) : Host.Outcome State Fault Refusal := mRow 0x12 core i s
/-- STS (R268). -/
def execSts (core : Fin 64) (i : Issue) (s : State) : Host.Outcome State Fault Refusal := mRow 0x13 core i s
/-- LDB (R268). -/
def execLdb (core : Fin 64) (i : Issue) (s : State) : Host.Outcome State Fault Refusal := mRow 0x14 core i s
/-- NOP (R278). -/
def execNop (core : Fin 64) (i : Issue) (s : State) : Host.Outcome State Fault Refusal := aRow (isSys 0) effNop core i s
/-- TFETCH (R278). -/
def execTfetch (core : Fin 64) (i : Issue) (s : State) : Host.Outcome State Fault Refusal := aRow (isSys 1) effTfetch core i s
/-- TDONE (R278). -/
def execTdone (core : Fin 64) (i : Issue) (s : State) : Host.Outcome State Fault Refusal := aRow (isSys 2) effTdone core i s
/-- SYNC (R278). -/
def execSync (core : Fin 64) (i : Issue) (s : State) : Host.Outcome State Fault Refusal := aRow (isSys 3) effSync core i s
/-- TRAP (R278). -/
def execTrap (core : Fin 64) (i : Issue) (s : State) : Host.Outcome State Fault Refusal := aRow (isSys 4) effTrap core i s

/-- The target's response to a store tells that it failed: the exception is taken at this pair boundary (R286).  A core blocked
in TFETCH takes none. -/
def storeError (d : Dev) (core : Nat) (addr pc : Word) : Dev :=
  let c := getCore d.tiles core
  if c.failed = some (addr, pc) ∧ c.fetching.isNone ∧ pdOn d (10 + core / 16) then tilesMod d (fun T => takeException T core 0x08 pc addr) else d

/-- STORE_ERROR_RESPONSE (R286). -/
def execStoreErrorResponse (core : Fin 64) (addr storePc : Word) (s : State) : Host.Outcome State Fault Refusal :=
  run (fun d => storeError d core.val addr storePc) s

/-- TASK_DISPATCH (R294, R295). -/
def execTaskDispatch (tile : Fin 8) (s : State) : Host.Outcome State Fault Refusal :=
  run (fun d => if pdOn d 1 && pdOn d (10 + tile.val / 2) then tilesMod d (fun T => dispatch T tile.val) else d) s

/-- MATRIX_GROUP_COMPLETE (R292): a token on every event edge of the group in the domain. -/
def execMatrixGroupComplete (d : Fin 3) (group : Fin 20) (s : State) : Host.Outcome State Fault Refusal :=
  run (fun x => if domRenders x d.val then tilesMod x (fun T => schedTick (schedEvent T d.val (0xF100 + group.val))) else x) s

end Sys2Proof.Machine
end

