-- ==== Sys2Proof/Machine/Dispatch.lean ====
section
/-! DEFINITION. The dispatch: one arm per constructor of Instr, each a direct call of its meaning. -/

namespace Sys2Proof.Machine

def exec (i : Instr) (s : State) : Host.Outcome State Fault Refusal :=
  match i with
  | .hello r => Sys2Proof.Machine.execHello r s
  | .version r => Sys2Proof.Machine.execVersion r s
  | .caps r => Sys2Proof.Machine.execCaps r s
  | .ping r => Sys2Proof.Machine.execPing r s
  | .bye r => Sys2Proof.Machine.execBye r s
  | .modeSet r => Sys2Proof.Machine.execModeSet r s
  | .modeGet r => Sys2Proof.Machine.execModeGet r s
  | .resetReq r => Sys2Proof.Machine.execResetReq r s
  | .telemetryGetCounters r => Sys2Proof.Machine.execTelemetryGetCounters r s
  | .telemetryGetBlock r => Sys2Proof.Machine.execTelemetryGetBlock r s
  | .logRead r => Sys2Proof.Machine.execLogRead r s
  | .outLatencyGet r => Sys2Proof.Machine.execOutLatencyGet r s
  | .domainCfgSet r => Sys2Proof.Machine.execDomainCfgSet r s
  | .domainCfgStart r => Sys2Proof.Machine.execDomainCfgStart r s
  | .domainStop r => Sys2Proof.Machine.execDomainStop r s
  | .domainCfgRealign r => Sys2Proof.Machine.execDomainCfgRealign r s
  | .domainCfgGet r => Sys2Proof.Machine.execDomainCfgGet r s
  | .ptpCfg r => Sys2Proof.Machine.execPtpCfg r s
  | .pulseCfg r => Sys2Proof.Machine.execPulseCfg r s
  | .captureCfg r => Sys2Proof.Machine.execCaptureCfg r s
  | .layoutBegin r => Sys2Proof.Machine.execLayoutBegin r s
  | .layoutSpk r => Sys2Proof.Machine.execLayoutSpk r s
  | .layoutCommit r => Sys2Proof.Machine.execLayoutCommit r s
  | .objCfg r => Sys2Proof.Machine.execObjCfg r s
  | .objUpdate r => Sys2Proof.Machine.execObjUpdate r s
  | .objUpdateBatch r => Sys2Proof.Machine.execObjUpdateBatch r s
  | .objQuery r => Sys2Proof.Machine.execObjQuery r s
  | .routeSet r => Sys2Proof.Machine.execRouteSet r s
  | .busCfg r => Sys2Proof.Machine.execBusCfg r s
  | .matrixDirect r => Sys2Proof.Machine.execMatrixDirect r s
  | .chainCfgColumn r => Sys2Proof.Machine.execChainCfgColumn r s
  | .chainCfgBassGroup r => Sys2Proof.Machine.execChainCfgBassGroup r s
  | .eqSet r => Sys2Proof.Machine.execEqSet r s
  | .delaySet r => Sys2Proof.Machine.execDelaySet r s
  | .dynCfgSet r => Sys2Proof.Machine.execDynCfgSet r s
  | .grRead r => Sys2Proof.Machine.execGrRead r s
  | .outGain r => Sys2Proof.Machine.execOutGain r s
  | .outMute r => Sys2Proof.Machine.execOutMute r s
  | .firLoadMap r => Sys2Proof.Machine.execFirLoadMap r s
  | .firLoadData r => Sys2Proof.Machine.execFirLoadData r s
  | .firCommit r => Sys2Proof.Machine.execFirCommit r s
  | .firStatus r => Sys2Proof.Machine.execFirStatus r s
  | .haloCfgSet r => Sys2Proof.Machine.execHaloCfgSet r s
  | .haloCfgOrient r => Sys2Proof.Machine.execHaloCfgOrient r s
  | .haloCfgGet r => Sys2Proof.Machine.execHaloCfgGet r s
  | .seamCfgSet r => Sys2Proof.Machine.execSeamCfgSet r s
  | .seamCfgGet r => Sys2Proof.Machine.execSeamCfgGet r s
  | .micCfgSet r => Sys2Proof.Machine.execMicCfgSet r s
  | .micCfgGet r => Sys2Proof.Machine.execMicCfgGet r s
  | .toneDetCfgSet r => Sys2Proof.Machine.execToneDetCfgSet r s
  | .toneDetCfgStop r => Sys2Proof.Machine.execToneDetCfgStop r s
  | .toneDetCfgGet r => Sys2Proof.Machine.execToneDetCfgGet r s
  | .calStartMeasure r => Sys2Proof.Machine.execCalStartMeasure r s
  | .calStartDesign r => Sys2Proof.Machine.execCalStartDesign r s
  | .calStartAbort r => Sys2Proof.Machine.execCalStartAbort r s
  | .calResult r => Sys2Proof.Machine.execCalResult r s
  | .trackCfgSet r => Sys2Proof.Machine.execTrackCfgSet r s
  | .trackCfgGet r => Sys2Proof.Machine.execTrackCfgGet r s
  | .trackCfgRead r => Sys2Proof.Machine.execTrackCfgRead r s
  | .trackProposalList r => Sys2Proof.Machine.execTrackProposalList r s
  | .trackProposalRead r => Sys2Proof.Machine.execTrackProposalRead r s
  | .trackProposalDiscard r => Sys2Proof.Machine.execTrackProposalDiscard r s
  | .portCfgSet r => Sys2Proof.Machine.execPortCfgSet r s
  | .portCfgGet r => Sys2Proof.Machine.execPortCfgGet r s
  | .portCfgSource r => Sys2Proof.Machine.execPortCfgSource r s
  | .csRead r => Sys2Proof.Machine.execCsRead r s
  | .csWrite r => Sys2Proof.Machine.execCsWrite r s
  | .slotMask r => Sys2Proof.Machine.execSlotMask r s
  | .alignGroupSet r => Sys2Proof.Machine.execAlignGroupSet r s
  | .alignGroupGet r => Sys2Proof.Machine.execAlignGroupGet r s
  | .alignGroupDissolve r => Sys2Proof.Machine.execAlignGroupDissolve r s
  | .netPortCfgSet r => Sys2Proof.Machine.execNetPortCfgSet r s
  | .netPortCfgGet r => Sys2Proof.Machine.execNetPortCfgGet r s
  | .netPortCfgFilter r => Sys2Proof.Machine.execNetPortCfgFilter r s
  | .flowRxCfgSet r => Sys2Proof.Machine.execFlowRxCfgSet r s
  | .flowRxCfgLeg r => Sys2Proof.Machine.execFlowRxCfgLeg r s
  | .flowTxCfgSet r => Sys2Proof.Machine.execFlowTxCfgSet r s
  | .flowTxCfgLeg r => Sys2Proof.Machine.execFlowTxCfgLeg r s
  | .flowTxCfgSource r => Sys2Proof.Machine.execFlowTxCfgSource r s
  | .flowState r => Sys2Proof.Machine.execFlowState r s
  | .gateListSet r => Sys2Proof.Machine.execGateListSet r s
  | .gateListClear r => Sys2Proof.Machine.execGateListClear r s
  | .twinCfgSet r => Sys2Proof.Machine.execTwinCfgSet r s
  | .twinCfgGet r => Sys2Proof.Machine.execTwinCfgGet r s
  | .twinState r => Sys2Proof.Machine.execTwinState r s
  | .twinSwap r => Sys2Proof.Machine.execTwinSwap r s
  | .graphLoad r => Sys2Proof.Machine.execGraphLoad r s
  | .graphStart r => Sys2Proof.Machine.execGraphStart r s
  | .graphStop r => Sys2Proof.Machine.execGraphStop r s
  | .taskCancel r => Sys2Proof.Machine.execTaskCancel r s
  | .fwUpdateBegin r => Sys2Proof.Machine.execFwUpdateBegin r s
  | .fwChunk r => Sys2Proof.Machine.execFwChunk r s
  | .fwCommit r => Sys2Proof.Machine.execFwCommit r s
  | .fwSlotInfo r => Sys2Proof.Machine.execFwSlotInfo r s
  | .selftestRun r => Sys2Proof.Machine.execSelftestRun r s
  | .hatreCellTake ch => Sys2Proof.Machine.execHatreCellTake ch s
  | .messageChainTimeout ch => Sys2Proof.Machine.execMessageChainTimeout ch s
  | .outboundCellPlace ch => Sys2Proof.Machine.execOutboundCellPlace ch s
  | .inPost via ch v => Sys2Proof.Machine.execInPost via ch v s
  | .outPop via ch v => Sys2Proof.Machine.execOutPop via ch v s
  | .senderReset via ch v => Sys2Proof.Machine.execSenderReset via ch v s
  | .mbxIrqWrite via ch v => Sys2Proof.Machine.execMbxIrqWrite via ch v s
  | .warmReset via v => Sys2Proof.Machine.execWarmReset via v s
  | .ctrlRestart via v => Sys2Proof.Machine.execCtrlRestart via v s
  | .hifIrqStatusWrite via v => Sys2Proof.Machine.execHifIrqStatusWrite via v s
  | .hifFaultWrite via v => Sys2Proof.Machine.execHifFaultWrite via v s
  | .msiXUnmask vector => Sys2Proof.Machine.execMsiXUnmask vector s
  | .dblH2dSet via v => Sys2Proof.Machine.execDblH2dSet via v s
  | .dblD2hWrite via v => Sys2Proof.Machine.execDblD2hWrite via v s
  | .timeSnapshot via now => Sys2Proof.Machine.execTimeSnapshot via now s
  | .timeIrqWrite via v => Sys2Proof.Machine.execTimeIrqWrite via v s
  | .capW3Read via k => Sys2Proof.Machine.execCapW3Read via k s
  | .senseButtonRead via => Sys2Proof.Machine.execSenseButtonRead via s
  | .grHoldRead column => Sys2Proof.Machine.execGrHoldRead column s
  | .compLoRead => Sys2Proof.Machine.execCompLoRead s
  | .descDataAccess write => Sys2Proof.Machine.execDescDataAccess write s
  | .netStatusRead via port => Sys2Proof.Machine.execNetStatusRead via port s
  | .halfRxRead via port => Sys2Proof.Machine.execHalfRxRead via port s
  | .halfTxRead via port => Sys2Proof.Machine.execHalfTxRead via port s
  | .ringTailWrite via ring v => Sys2Proof.Machine.execRingTailWrite via ring v s
  | .ringCtrlWrite via ring v => Sys2Proof.Machine.execRingCtrlWrite via ring v s
  | .tdmMaskArm port v => Sys2Proof.Machine.execTdmMaskArm port v s
  | .dmaCmdStart via ch => Sys2Proof.Machine.execDmaCmdStart via ch s
  | .dmaCmdAbort via ch => Sys2Proof.Machine.execDmaCmdAbort via ch s
  | .dmaCmdPause via ch => Sys2Proof.Machine.execDmaCmdPause via ch s
  | .dmaCmdResume via ch => Sys2Proof.Machine.execDmaCmdResume via ch s
  | .dmaIrqWrite via ch v => Sys2Proof.Machine.execDmaIrqWrite via ch v s
  | .cqTailWrite via ch v => Sys2Proof.Machine.execCqTailWrite via ch v s
  | .registerWrite via addr v be => Sys2Proof.Machine.execRegisterWrite via addr v be s
  | .spiTransaction t => Sys2Proof.Machine.execSpiTransaction t s
  | .i2cRead off n => Sys2Proof.Machine.execI2cRead off n s
  | .pcieReset => Sys2Proof.Machine.execPcieReset s
  | .perstN => Sys2Proof.Machine.execPerstN s
  | .controlProcessorFault cause => Sys2Proof.Machine.execControlProcessorFault cause s
  | .watchdog => Sys2Proof.Machine.execWatchdog s
  | .ctrlRestartComplete => Sys2Proof.Machine.execCtrlRestartComplete s
  | .vddAonRise straps => Sys2Proof.Machine.execVddAonRise straps s
  | .vddAonLoss => Sys2Proof.Machine.execVddAonLoss s
  | .resetNAssert => Sys2Proof.Machine.execResetNAssert s
  | .resetNRelease straps => Sys2Proof.Machine.execResetNRelease straps s
  | .refclkStop => Sys2Proof.Machine.execRefclkStop s
  | .refclkRestored => Sys2Proof.Machine.execRefclkRestored s
  | .bootStepFail reason => Sys2Proof.Machine.execBootStepFail reason s
  | .bootStartSuccess => Sys2Proof.Machine.execBootStartSuccess s
  | .hostImageLoad image => Sys2Proof.Machine.execHostImageLoad image s
  | .hostBootTimeout => Sys2Proof.Machine.execHostBootTimeout s
  | .wake pin dbl => Sys2Proof.Machine.execWake pin dbl s
  | .modeTransitionComplete timedOut => Sys2Proof.Machine.execModeTransitionComplete timedOut s
  | .powerDomainSwitch pd => Sys2Proof.Machine.execPowerDomainSwitch pd s
  | .domainBoundary d m => Sys2Proof.Machine.execDomainBoundary d m s
  | .domainLock d dt => Sys2Proof.Machine.execDomainLock d dt s
  | .acquireTimeout d => Sys2Proof.Machine.execAcquireTimeout d s
  | .holdoverExpired d => Sys2Proof.Machine.execHoldoverExpired d s
  | .slewingClear d => Sys2Proof.Machine.execSlewingClear d s
  | .closingStateClear d => Sys2Proof.Machine.execClosingStateClear d s
  | .realignComplete d => Sys2Proof.Machine.execRealignComplete d s
  | .windowDeadline d window missed => Sys2Proof.Machine.execWindowDeadline d window missed s
  | .blockPublish d => Sys2Proof.Machine.execBlockPublish d s
  | .columnRampIn column => Sys2Proof.Machine.execColumnRampIn column s
  | .matrixGroupComplete d group => Sys2Proof.Machine.execMatrixGroupComplete d group s
  | .taskDispatch tile => Sys2Proof.Machine.execTaskDispatch tile s
  | .storeErrorResponse core addr storePc => Sys2Proof.Machine.execStoreErrorResponse core addr storePc s
  | .vadd core k => Sys2Proof.Machine.execVadd core k s
  | .vsub core k => Sys2Proof.Machine.execVsub core k s
  | .vmin core k => Sys2Proof.Machine.execVmin core k s
  | .vmax core k => Sys2Proof.Machine.execVmax core k s
  | .vabs core k => Sys2Proof.Machine.execVabs core k s
  | .vneg core k => Sys2Proof.Machine.execVneg core k s
  | .vand core k => Sys2Proof.Machine.execVand core k s
  | .vor core k => Sys2Proof.Machine.execVor core k s
  | .vxor core k => Sys2Proof.Machine.execVxor core k s
  | .vshl core k => Sys2Proof.Machine.execVshl core k s
  | .vasr core k => Sys2Proof.Machine.execVasr core k s
  | .vrsr core k => Sys2Proof.Machine.execVrsr core k s
  | .vlsr core k => Sys2Proof.Machine.execVlsr core k s
  | .vmov core k => Sys2Proof.Machine.execVmov core k s
  | .valign core k => Sys2Proof.Machine.execValign core k s
  | .vcmplt core k => Sys2Proof.Machine.execVcmplt core k s
  | .vsel core k => Sys2Proof.Machine.execVsel core k s
  | .amul core k => Sys2Proof.Machine.execAmul core k s
  | .amac core k => Sys2Proof.Machine.execAmac core k s
  | .amsu core k => Sys2Proof.Machine.execAmsu core k s
  | .aadd core k => Sys2Proof.Machine.execAadd core k s
  | .aclr core k => Sys2Proof.Machine.execAclr core k s
  | .ald core k => Sys2Proof.Machine.execAld core k s
  | .asum core k => Sys2Proof.Machine.execAsum core k s
  | .amov core k => Sys2Proof.Machine.execAmov core k s
  | .ext core k => Sys2Proof.Machine.execExt core k s
  | .add core k => Sys2Proof.Machine.execAdd core k s
  | .sub core k => Sys2Proof.Machine.execSub core k s
  | .and core k => Sys2Proof.Machine.execAnd core k s
  | .or core k => Sys2Proof.Machine.execOr core k s
  | .xor core k => Sys2Proof.Machine.execXor core k s
  | .shl core k => Sys2Proof.Machine.execShl core k s
  | .asr core k => Sys2Proof.Machine.execAsr core k s
  | .lsr core k => Sys2Proof.Machine.execLsr core k s
  | .mul core k => Sys2Proof.Machine.execMul core k s
  | .slt core k => Sys2Proof.Machine.execSlt core k s
  | .sltu core k => Sys2Proof.Machine.execSltu core k s
  | .jr core k => Sys2Proof.Machine.execJr core k s
  | .callr core k => Sys2Proof.Machine.execCallr core k s
  | .addi core k => Sys2Proof.Machine.execAddi core k s
  | .movi core k => Sys2Proof.Machine.execMovi core k s
  | .movhi core k => Sys2Proof.Machine.execMovhi core k s
  | .mtp core k => Sys2Proof.Machine.execMtp core k s
  | .mfp core k => Sys2Proof.Machine.execMfp core k s
  | .mtn core k => Sys2Proof.Machine.execMtn core k s
  | .mfn core k => Sys2Proof.Machine.execMfn core k s
  | .mtl core k => Sys2Proof.Machine.execMtl core k s
  | .mfl core k => Sys2Proof.Machine.execMfl core k s
  | .vins core k => Sys2Proof.Machine.execVins core k s
  | .vext core k => Sys2Proof.Machine.execVext core k s
  | .vbc core k => Sys2Proof.Machine.execVbc core k s
  | .mts core k => Sys2Proof.Machine.execMts core k s
  | .mfs core k => Sys2Proof.Machine.execMfs core k s
  | .br core k => Sys2Proof.Machine.execBr core k s
  | .call core k => Sys2Proof.Machine.execCall core k s
  | .rep core k => Sys2Proof.Machine.execRep core k s
  | .ldv core k => Sys2Proof.Machine.execLdv core k s
  | .stv core k => Sys2Proof.Machine.execStv core k s
  | .lds core k => Sys2Proof.Machine.execLds core k s
  | .sts core k => Sys2Proof.Machine.execSts core k s
  | .ldb core k => Sys2Proof.Machine.execLdb core k s
  | .nop core k => Sys2Proof.Machine.execNop core k s
  | .tfetch core k => Sys2Proof.Machine.execTfetch core k s
  | .tdone core k => Sys2Proof.Machine.execTdone core k s
  | .sync core k => Sys2Proof.Machine.execSync core k s
  | .trap core k => Sys2Proof.Machine.execTrap core k s
  | .move ch k => Sys2Proof.Machine.execMove ch k s
  | .loop ch k => Sys2Proof.Machine.execLoop ch k s
  | .wait ch k => Sys2Proof.Machine.execWait ch k s
  | .signal ch k => Sys2Proof.Machine.execSignal ch k s
  | .stop ch k => Sys2Proof.Machine.execStop ch k s
  | .dmaBurst ch b => Sys2Proof.Machine.execDmaBurst ch b s
  | .waitConditionMet ch => Sys2Proof.Machine.execWaitConditionMet ch s
  | .waitTimeout ch => Sys2Proof.Machine.execWaitTimeout ch s
  | .matrixGrant idle accesses => Sys2Proof.Machine.execMatrixGrant idle accesses s
  | .layoutCompileComplete => Sys2Proof.Machine.execLayoutCompileComplete s
  | .firLoadComplete => Sys2Proof.Machine.execFirLoadComplete s
  | .graphLoadComplete slot => Sys2Proof.Machine.execGraphLoadComplete slot s
  | .bulkFetchComplete ch data err => Sys2Proof.Machine.execBulkFetchComplete ch data err s
  | .bulkFetchTimeout ch => Sys2Proof.Machine.execBulkFetchTimeout ch s
  | .selftestComplete res => Sys2Proof.Machine.execSelftestComplete res s
  | .busUnbindRampEnd column => Sys2Proof.Machine.execBusUnbindRampEnd column s
  | .oldLayoutUnbind => Sys2Proof.Machine.execOldLayoutUnbind s
  | .objectDisableRelease object => Sys2Proof.Machine.execObjectDisableRelease object s
  | .ptpMessageRx port m => Sys2Proof.Machine.execPtpMessageRx port m s
  | .announceReceiptTimeout port => Sys2Proof.Machine.execAnnounceReceiptTimeout port s
  | .ptpMessageTx port kind => Sys2Proof.Machine.execPtpMessageTx port kind s
  | .pulseEdge output => Sys2Proof.Machine.execPulseEdge output s
  | .pulseCfgTakeEffect output => Sys2Proof.Machine.execPulseCfgTakeEffect output s
  | .captureEdge input falling e => Sys2Proof.Machine.execCaptureEdge input falling e s
  | .wordClockAbsent input => Sys2Proof.Machine.execWordClockAbsent input s
  | .wordClockPresent input => Sys2Proof.Machine.execWordClockPresent input s
  | .netFrameRx port f => Sys2Proof.Machine.execNetFrameRx port f s
  | .evCounterHalf port => Sys2Proof.Machine.execEvCounterHalf port s
  | .legDown flow leg => Sys2Proof.Machine.execLegDown flow leg s
  | .txPacketQueue flow first => Sys2Proof.Machine.execTxPacketQueue flow first s
  | .txMediaDrop port flow => Sys2Proof.Machine.execTxMediaDrop port flow s
  | .hostFrameStart ring descs underrun => Sys2Proof.Machine.execHostFrameStart ring descs underrun s
  | .txFrameComplete port queue dt => Sys2Proof.Machine.execTxFrameComplete port queue dt s
  | .gateChangeTime port => Sys2Proof.Machine.execGateChangeTime port s
  | .gateIntervalEdge port => Sys2Proof.Machine.execGateIntervalEdge port s
  | .linkUp port => Sys2Proof.Machine.execLinkUp port s
  | .linkDown port remoteFault => Sys2Proof.Machine.execLinkDown port remoteFault s
  | .arpResolveTimeout port addr => Sys2Proof.Machine.execArpResolveTimeout port addr s
  | .arpRefresh port addr => Sys2Proof.Machine.execArpRefresh port addr s
  | .membershipReport port group => Sys2Proof.Machine.execMembershipReport port group s
  | .aes3FrameRx k f => Sys2Proof.Machine.execAes3FrameRx k f s
  | .aes3RxLock k => Sys2Proof.Machine.execAes3RxLock k s
  | .aes3RxClockFault k => Sys2Proof.Machine.execAes3RxClockFault k s
  | .aes3RxAbsent k => Sys2Proof.Machine.execAes3RxAbsent k s
  | .tdmFrame n f => Sys2Proof.Machine.execTdmFrame n f s
  | .tdmClockLock n => Sys2Proof.Machine.execTdmClockLock n s
  | .tdmStartComplete n => Sys2Proof.Machine.execTdmStartComplete n s
  | .tdmStopComplete n => Sys2Proof.Machine.execTdmStopComplete n s
  | .tdmNoClock n => Sys2Proof.Machine.execTdmNoClock n s
  | .portClockRecovered kind index => Sys2Proof.Machine.execPortClockRecovered kind index s
  | .slipRampIn kind index => Sys2Proof.Machine.execSlipRampIn kind index s
  | .mappingLost kind index => Sys2Proof.Machine.execMappingLost kind index s
  | .micStartComplete mic => Sys2Proof.Machine.execMicStartComplete mic s
  | .micLock mic => Sys2Proof.Machine.execMicLock mic s
  | .micStuck mic => Sys2Proof.Machine.execMicStuck mic s
  | .detectorWindowEnd det => Sys2Proof.Machine.execDetectorWindowEnd det s
  | .bridgeAcquireLock bridge => Sys2Proof.Machine.execBridgeAcquireLock bridge s
  | .bridgeAcquireTimeout bridge => Sys2Proof.Machine.execBridgeAcquireTimeout bridge s
  | .bridgeRange bridge => Sys2Proof.Machine.execBridgeRange bridge s
  | .bridgeRangeExpiry bridge => Sys2Proof.Machine.execBridgeRangeExpiry bridge s
  | .bridgeEndsRendering bridge => Sys2Proof.Machine.execBridgeEndsRendering bridge s
  | .senseUpdate ms => Sys2Proof.Machine.execSenseUpdate ms s
  | .railFaultTimeout => Sys2Proof.Machine.execRailFaultTimeout s
  | .jackInsertion inserted => Sys2Proof.Machine.execJackInsertion inserted s
  | .accessoryJudged tip sleeve => Sys2Proof.Machine.execAccessoryJudged tip sleeve s
  | .buttonPress ohms pressed => Sys2Proof.Machine.execButtonPress ohms pressed s
  | .buttonLong => Sys2Proof.Machine.execButtonLong s
  | .trackWindowEnd d b => Sys2Proof.Machine.execTrackWindowEnd d b s
  | .proposalPost speaker => Sys2Proof.Machine.execProposalPost speaker s
  | .linkFrameRx bytes crc => Sys2Proof.Machine.execLinkFrameRx bytes crc s
  | .linkFrameResend seq => Sys2Proof.Machine.execLinkFrameResend seq s
  | .linkAckFrame => Sys2Proof.Machine.execLinkAckFrame s
  | .linkHello => Sys2Proof.Machine.execLinkHello s
  | .laneLockChange lane locked => Sys2Proof.Machine.execLaneLockChange lane locked s
  | .markerMissing marker heartbeats => Sys2Proof.Machine.execMarkerMissing marker heartbeats s
  | .promotion => Sys2Proof.Machine.execPromotion s
  | .resyncCopyComplete copy => Sys2Proof.Machine.execResyncCopyComplete copy s
  | .verifyComplete => Sys2Proof.Machine.execVerifyComplete s
  | .resyncTimeout => Sys2Proof.Machine.execResyncTimeout s
  | .linkingTimeout => Sys2Proof.Machine.execLinkingTimeout s
  | .twinSwapTakeEffect => Sys2Proof.Machine.execTwinSwapTakeEffect s
  | .micAcquireTimeout mic => Sys2Proof.Machine.execMicAcquireTimeout mic s
  | .tdmClockFault n => Sys2Proof.Machine.execTdmClockFault n s
  | .aes3RxLocking k => Sys2Proof.Machine.execAes3RxLocking k s
  | .aes3FrameTx k => Sys2Proof.Machine.execAes3FrameTx k s
  | .deferredResetBegin => Sys2Proof.Machine.execDeferredResetBegin s
  | .slotEraseComplete => Sys2Proof.Machine.execSlotEraseComplete s
  | .hostTimeout ch => Sys2Proof.Machine.execHostTimeout ch s
  | .delayReqTx port => Sys2Proof.Machine.execDelayReqTx port s
  | .signatureMissing => Sys2Proof.Machine.execSignatureMissing s

end Sys2Proof.Machine
end

