-- ==== Sys2Proof/Machine/Idle.lean ====
section
/-! DEFINITION. What happens when no command waits: one TIME cycle passes (R48), and with it the hold-off of a ring (R360). -/

namespace Sys2Proof.Machine

/-- Whether the time unit's clock runs: PD_CTRL is on and REFCLK is present (R48, R49, R509). -/
def timeRuns (d : Dev) : Bool := d.aon.vddAon && d.aon.resetN && d.aon.refclk && d.power.on.getLsbD 1

/-- DT after one TIME cycle: the increment, with its fraction of a nanosecond carried (R48). -/
def timeTick (t : TimeUnit) : TimeUnit :=
  let x := t.frac.toNat + t.incr
  { t with dt := t.dt + BitVec.ofNat 64 (x / 2 ^ 32), frac := BitVec.ofNat 32 x }

/-- The interrupts that rings have held to the end of their hold-off are raised (R360). -/
def ringsDue (d : Dev) : Dev :=
  if d.net.rings.any (fun kv => kv.2.irqHeld && ringFree (now d) kv.2) then
    settleMsix (netMod d (fun n => { n with rings := n.rings.map (fun kv => (kv.1, ringMature (now d) kv.2)) }))
  else d

/-- One TIME cycle on an empty queue: DT advances while the clock runs. -/
def idle (s : State) : State :=
  if timeRuns s.dev then { s with dev := ringsDue { s.dev with time := timeTick s.dev.time } } else s

end Sys2Proof.Machine
end

