-- ==== Sys2Proof/Machine/Step.lean ====
section
/-! DEFINITION. One step: the command at the front of the queue, or on an empty queue one TIME cycle. -/

namespace Sys2Proof.Machine

/-- Take the front command and run it on the state with the queue's rest.  On an empty queue one TIME cycle passes
(DESIGN CHOICE, log entry 20). -/
def step (s : State) : Host.Outcome State Fault Refusal :=
  match s.pending with
  | [] => .next (idle s)
  | c :: cs => exec c { s with pending := cs }

/-- s with the command that a word spells put at the front of its queue.  The opcode table gives no row bits, so no word
spells a command and s is unchanged. -/
def State.withFetchWord (s : State) (nbits w : Nat) : State :=
  match decodeTableWord nbits w with
  | some c => { s with pending := c :: s.pending }
  | none => s

end Sys2Proof.Machine
end

