-- ==== Sys2Proof/WellFormed.lean ====
section
/-! DEFINITION. The commands that hardware and its surroundings can give: payloads of the length a message has, operands
that number something the device has, and an operand that spells the row itself and not another row of the table. -/

namespace Sys2Proof

/-- A message is at most eight cells of 56 bytes (R425). -/
def reqOk (r : Req) : Bool := decide (r.payload.length ≤ 448)
/-- The payload's byte i is not the action of another row of the same opcode. -/
def actionOk (r : Req) (i : Nat) (others : List Nat) : Bool := !(decide (i < r.payload.length) && others.contains (Machine.u8 r.payload i))
/-- Sample counts are given for rate domains. -/
def elapsedOk (e : Elapsed) : Bool := e.all (fun k => decide (k.1 < 3))
/-- An IPv4 or IPv6 address. -/
def addrOk (a : List Byte) : Bool := a.length == 4 || a.length == 16
/-- A rail, sensor, receiver or lane that exists (R256, R257). -/
def sensedOk : Sensed → Bool
  | .rail i _ => decide (i < 8)
  | .temp i _ => decide (i < 8)
  | .cable i _ _ => decide (i < 16)
  | .loss lane _ _ => decide (lane < 10)

/-- The nanoseconds of a PTP timestamp are below 1,000,000,000 (R12). -/
def ptpTimeOk (t : PtpTime) : Bool := decide (t.ns.toNat < 1000000000)
def ptpOk : PtpMsg → Bool
  | .sync _ _ t _ _ | .followUp _ t _ | .delayResp _ t _ _ => ptpTimeOk t
  | _ => true

/-- Well-formed commands. -/
def Instr.wf : Instr → Bool
  | .hello r => reqOk r
  | .version r => reqOk r
  | .caps r => reqOk r
  | .ping r => reqOk r
  | .bye r => reqOk r
  | .modeSet r => reqOk r
  | .modeGet r => reqOk r
  | .resetReq r => reqOk r
  | .telemetryGetCounters r => reqOk r && actionOk r 0 [1]
  | .telemetryGetBlock r => reqOk r && actionOk r 0 [0]
  | .logRead r => reqOk r
  | .outLatencyGet r => reqOk r
  | .domainCfgSet r => reqOk r && actionOk r 1 [1, 2, 3, 4]
  | .domainCfgStart r => reqOk r && actionOk r 1 [0, 2, 3, 4]
  | .domainStop r => reqOk r && actionOk r 1 [0, 1, 3, 4]
  | .domainCfgRealign r => reqOk r && actionOk r 1 [0, 1, 2, 4]
  | .domainCfgGet r => reqOk r && actionOk r 1 [0, 1, 2, 3]
  | .ptpCfg r => reqOk r
  | .pulseCfg r => reqOk r
  | .captureCfg r => reqOk r
  | .layoutBegin r => reqOk r
  | .layoutSpk r => reqOk r
  | .layoutCommit r => reqOk r
  | .objCfg r => reqOk r
  | .objUpdate r => reqOk r
  | .objUpdateBatch r => reqOk r
  | .objQuery r => reqOk r
  | .routeSet r => reqOk r
  | .busCfg r => reqOk r
  | .matrixDirect r => reqOk r
  | .chainCfgColumn r => reqOk r && actionOk r 0 [1]
  | .chainCfgBassGroup r => reqOk r && actionOk r 0 [0]
  | .eqSet r => reqOk r
  | .delaySet r => reqOk r
  | .dynCfgSet r => reqOk r && actionOk r 2 [1]
  | .grRead r => reqOk r && actionOk r 2 [0]
  | .outGain r => reqOk r
  | .outMute r => reqOk r
  | .firLoadMap r => reqOk r && actionOk r 16 [1]
  | .firLoadData r => reqOk r && actionOk r 16 [0]
  | .firCommit r => reqOk r
  | .firStatus r => reqOk r
  | .haloCfgSet r => reqOk r && actionOk r 0 [1, 2]
  | .haloCfgOrient r => reqOk r && actionOk r 0 [0, 2]
  | .haloCfgGet r => reqOk r && actionOk r 0 [0, 1]
  | .seamCfgSet r => reqOk r && actionOk r 2 [1]
  | .seamCfgGet r => reqOk r && actionOk r 2 [0]
  | .micCfgSet r => reqOk r && actionOk r 1 [1]
  | .micCfgGet r => reqOk r && actionOk r 1 [0]
  | .toneDetCfgSet r => reqOk r && actionOk r 1 [1, 2]
  | .toneDetCfgStop r => reqOk r && actionOk r 1 [0, 2]
  | .toneDetCfgGet r => reqOk r && actionOk r 1 [0, 1]
  | .calStartMeasure r => reqOk r && actionOk r 0 [1, 2]
  | .calStartDesign r => reqOk r && actionOk r 0 [0, 2]
  | .calStartAbort r => reqOk r && actionOk r 0 [0, 1]
  | .calResult r => reqOk r
  | .trackCfgSet r => reqOk r && actionOk r 0 [1, 2]
  | .trackCfgGet r => reqOk r && actionOk r 0 [0, 2]
  | .trackCfgRead r => reqOk r && actionOk r 0 [0, 1]
  | .trackProposalList r => reqOk r && actionOk r 0 [1, 2]
  | .trackProposalRead r => reqOk r && actionOk r 0 [0, 2]
  | .trackProposalDiscard r => reqOk r && actionOk r 0 [0, 1]
  | .portCfgSet r => reqOk r && actionOk r 2 [1, 2, 3, 4]
  | .portCfgGet r => reqOk r && actionOk r 2 [0, 2, 3, 4]
  | .portCfgSource r => reqOk r && actionOk r 2 [0, 1, 3, 4]
  | .csRead r => reqOk r && actionOk r 2 [0, 1, 2, 4]
  | .csWrite r => reqOk r && actionOk r 2 [0, 1, 2, 3]
  | .slotMask r => reqOk r
  | .alignGroupSet r => reqOk r && actionOk r 1 [1, 2]
  | .alignGroupGet r => reqOk r && actionOk r 1 [0, 2]
  | .alignGroupDissolve r => reqOk r && actionOk r 1 [0, 1]
  | .netPortCfgSet r => reqOk r && actionOk r 1 [1, 2]
  | .netPortCfgGet r => reqOk r && actionOk r 1 [0, 2]
  | .netPortCfgFilter r => reqOk r && actionOk r 1 [0, 1]
  | .flowRxCfgSet r => reqOk r && actionOk r 2 [1]
  | .flowRxCfgLeg r => reqOk r && actionOk r 2 [0]
  | .flowTxCfgSet r => reqOk r && actionOk r 2 [1, 2]
  | .flowTxCfgLeg r => reqOk r && actionOk r 2 [0, 2]
  | .flowTxCfgSource r => reqOk r && actionOk r 2 [0, 1]
  | .flowState r => reqOk r
  | .gateListSet r => reqOk r && actionOk r 17 [1]
  | .gateListClear r => reqOk r && actionOk r 17 [0]
  | .twinCfgSet r => reqOk r && actionOk r 0 [1]
  | .twinCfgGet r => reqOk r && actionOk r 0 [0]
  | .twinState r => reqOk r
  | .twinSwap r => reqOk r
  | .graphLoad r => reqOk r
  | .graphStart r => reqOk r
  | .graphStop r => reqOk r
  | .taskCancel r => reqOk r
  | .fwUpdateBegin r => reqOk r
  | .fwChunk r => reqOk r
  | .fwCommit r => reqOk r
  | .fwSlotInfo r => reqOk r
  | .selftestRun r => reqOk r
  | .hatreCellTake _ => true
  | .messageChainTimeout _ => true
  | .outboundCellPlace _ => true
  | .inPost _ _ _ => true
  | .outPop _ _ _ => true
  | .senderReset _ _ _ => true
  | .mbxIrqWrite _ _ _ => true
  | .warmReset _ _ => true
  | .ctrlRestart _ _ => true
  | .hifIrqStatusWrite _ _ => true
  | .hifFaultWrite _ _ => true
  | .msiXUnmask _ => true
  | .dblH2dSet _ _ => true
  | .dblD2hWrite _ _ => true
  | .timeSnapshot _ now => elapsedOk now
  | .timeIrqWrite _ _ => true
  | .capW3Read _ _ => true
  | .senseButtonRead _ => true
  | .grHoldRead column => decide (column < 640)
  | .compLoRead => true
  | .descDataAccess _ => true
  | .netStatusRead _ _ => true
  | .halfRxRead _ _ => true
  | .halfTxRead _ _ => true
  | .ringTailWrite _ _ _ => true
  | .ringCtrlWrite _ _ _ => true
  | .tdmMaskArm _ _ => true
  | .dmaCmdStart _ _ => true
  | .dmaCmdAbort _ _ => true
  | .dmaCmdPause _ _ => true
  | .dmaCmdResume _ _ => true
  | .dmaIrqWrite _ _ _ => true
  | .cqTailWrite _ _ _ => true
  | .registerWrite _ _ _ _ => true
  | .spiTransaction _ => true
  | .i2cRead _ _ => true
  | .pcieReset => true
  | .perstN => true
  | .controlProcessorFault _ => true
  | .watchdog => true
  | .ctrlRestartComplete => true
  | .vddAonRise _ => true
  | .vddAonLoss => true
  | .resetNAssert => true
  | .resetNRelease _ => true
  | .refclkStop => true
  | .refclkRestored => true
  | .bootStepFail _ => true
  | .bootStartSuccess => true
  | .hostImageLoad _ => true
  | .hostBootTimeout => true
  | .wake _ _ => true
  | .modeTransitionComplete _ => true
  | .powerDomainSwitch _ => true
  | .domainBoundary _ m => m.pdm.all (fun k => decide (k.1 < 8))
  | .domainLock _ _ => true
  | .acquireTimeout _ => true
  | .holdoverExpired _ => true
  | .slewingClear _ => true
  | .closingStateClear _ => true
  | .realignComplete _ => true
  | .windowDeadline _ _ _ => true
  | .blockPublish _ => true
  | .columnRampIn column => decide (column < 640)
  | .matrixGroupComplete _ _ => true
  | .taskDispatch _ => true
  | .storeErrorResponse _ _ _ => true
  | .vadd _ i => Machine.isVV 0x00 i.w
  | .vsub _ i => Machine.isVV 0x01 i.w
  | .vmin _ i => Machine.isVV 0x02 i.w
  | .vmax _ i => Machine.isVV 0x03 i.w
  | .vabs _ i => Machine.isVV 0x04 i.w
  | .vneg _ i => Machine.isVV 0x05 i.w
  | .vand _ i => Machine.isVV 0x06 i.w
  | .vor _ i => Machine.isVV 0x07 i.w
  | .vxor _ i => Machine.isVV 0x08 i.w
  | .vshl _ i => Machine.isVV 0x09 i.w
  | .vasr _ i => Machine.isVV 0x0A i.w
  | .vrsr _ i => Machine.isVV 0x0B i.w
  | .vlsr _ i => Machine.isVV 0x0C i.w
  | .vmov _ i => Machine.isVV 0x0D i.w
  | .valign _ i => Machine.isVV 0x0E i.w
  | .vcmplt _ i => Machine.isVV 0x0F i.w
  | .vsel _ i => Machine.isVV 0x10 i.w
  | .amul _ i => Machine.isAC 0 i.w
  | .amac _ i => Machine.isAC 1 i.w
  | .amsu _ i => Machine.isAC 2 i.w
  | .aadd _ i => Machine.isAC 3 i.w
  | .aclr _ i => Machine.isAC 4 i.w
  | .ald _ i => Machine.isAC 5 i.w
  | .asum _ i => Machine.isAC 6 i.w
  | .amov _ i => Machine.isAC 7 i.w
  | .ext _ i => Machine.isRX i.w
  | .add _ i => (Machine.isSR 0 i.w || !Machine.isOther i.w)
  | .sub _ i => Machine.isSR 1 i.w
  | .and _ i => Machine.isSR 2 i.w
  | .or _ i => Machine.isSR 3 i.w
  | .xor _ i => Machine.isSR 4 i.w
  | .shl _ i => Machine.isSR 5 i.w
  | .asr _ i => Machine.isSR 6 i.w
  | .lsr _ i => Machine.isSR 7 i.w
  | .mul _ i => Machine.isSR 8 i.w
  | .slt _ i => Machine.isSR 9 i.w
  | .sltu _ i => Machine.isSR 10 i.w
  | .jr _ i => Machine.isSR 11 i.w
  | .callr _ i => Machine.isSR 12 i.w
  | .addi _ i => Machine.isOpc 5 i.w
  | .movi _ i => Machine.isOpc 6 i.w
  | .movhi _ i => Machine.isOpc 7 i.w
  | .mtp _ i => Machine.isXF 0 i.w
  | .mfp _ i => Machine.isXF 1 i.w
  | .mtn _ i => Machine.isXF 2 i.w
  | .mfn _ i => Machine.isXF 3 i.w
  | .mtl _ i => Machine.isXF 4 i.w
  | .mfl _ i => Machine.isXF 5 i.w
  | .vins _ i => Machine.isXF 6 i.w
  | .vext _ i => Machine.isXF 7 i.w
  | .vbc _ i => Machine.isXF 8 i.w
  | .mts _ i => Machine.isXF 9 i.w
  | .mfs _ i => Machine.isXF 10 i.w
  | .br _ i => Machine.isOpc 9 i.w
  | .call _ i => Machine.isOpc 10 i.w
  | .rep _ i => Machine.isOpc 11 i.w
  | .ldv _ i => Machine.isOpc 0x10 i.w
  | .stv _ i => Machine.isOpc 0x11 i.w
  | .lds _ i => Machine.isOpc 0x12 i.w
  | .sts _ i => Machine.isOpc 0x13 i.w
  | .ldb _ i => Machine.isOpc 0x14 i.w
  | .nop _ i => Machine.isSys 0 i.w
  | .tfetch _ i => Machine.isSys 1 i.w
  | .tdone _ i => Machine.isSys 2 i.w
  | .sync _ i => Machine.isSys 3 i.w
  | .trap _ i => Machine.isSys 4 i.w
  | .move _ i => i.word.length == 32 && Machine.dmaRowOwn 1 i
  | .loop _ i => i.word.length == 32 && Machine.dmaRowOwn 2 i
  | .wait _ i => i.word.length == 32 && Machine.dmaRowOwn 3 i
  | .signal _ i => i.word.length == 32 && Machine.dmaRowOwn 4 i
  | .stop _ i => i.word.length == 32 && Machine.dmaRowOwn 5 i
  | .dmaBurst _ _ => true
  | .waitConditionMet _ => true
  | .waitTimeout _ => true
  | .matrixGrant _ accesses => accesses.all (fun a => decide (a.master < 16))
  | .layoutCompileComplete => true
  | .firLoadComplete => true
  | .graphLoadComplete _ => true
  | .bulkFetchComplete _ _ _ => true
  | .bulkFetchTimeout _ => true
  | .selftestComplete _ => true
  | .busUnbindRampEnd column => decide (column < 640)
  | .oldLayoutUnbind => true
  | .objectDisableRelease object => decide (object < 1024)
  | .ptpMessageRx _ m => ptpOk m.msg
  | .announceReceiptTimeout _ => true
  | .ptpMessageTx _ _ => true
  | .pulseEdge _ => true
  | .pulseCfgTakeEffect _ => true
  | .captureEdge _ _ e => elapsedOk e.now
  | .wordClockAbsent _ => true
  | .wordClockPresent _ => true
  | .netFrameRx _ _ => true
  | .evCounterHalf _ => true
  | .legDown _ _ => true
  | .txPacketQueue _ _ => true
  | .txMediaDrop _ _ => true
  | .hostFrameStart _ descs _ => descs.all (fun x => x.bytes.length == 32)
  | .txFrameComplete _ _ _ => true
  | .gateChangeTime _ => true
  | .gateIntervalEdge _ => true
  | .linkUp _ => true
  | .linkDown _ _ => true
  | .arpResolveTimeout _ addr => addrOk addr
  | .arpRefresh _ addr => addrOk addr
  | .membershipReport _ group => addrOk group
  | .aes3FrameRx _ _ => true
  | .aes3RxLock _ => true
  | .aes3RxClockFault _ => true
  | .aes3RxAbsent _ => true
  | .tdmFrame _ _ => true
  | .tdmClockLock _ => true
  | .tdmStartComplete _ => true
  | .tdmStopComplete _ => true
  | .tdmNoClock _ => true
  | .portClockRecovered kind index => (kind == 2 && decide (index < 16)) || (kind == 3 && decide (index < 8))
  | .slipRampIn kind index => (decide (kind < 2) && decide (index < 16)) || ((kind == 2 || kind == 3) && decide (index < 8)) || (kind == 4 && decide (index < 256))
  | .mappingLost kind index => (kind == 0 && decide (index < 16)) || ((kind == 2 || kind == 3) && decide (index < 8))
  | .micStartComplete _ => true
  | .micLock _ => true
  | .micStuck _ => true
  | .detectorWindowEnd _ => true
  | .bridgeAcquireLock _ => true
  | .bridgeAcquireTimeout _ => true
  | .bridgeRange _ => true
  | .bridgeRangeExpiry _ => true
  | .bridgeEndsRendering _ => true
  | .senseUpdate ms => ms.all sensedOk
  | .railFaultTimeout => true
  | .jackInsertion _ => true
  | .accessoryJudged _ _ => true
  | .buttonPress _ _ => true
  | .buttonLong => true
  | .trackWindowEnd _ _ => true
  | .proposalPost _ => true
  | .linkFrameRx _ _ => true
  | .linkFrameResend _ => true
  | .linkAckFrame => true
  | .linkHello => true
  | .laneLockChange _ _ => true
  | .markerMissing _ _ => true
  | .promotion => true
  | .resyncCopyComplete _ => true
  | .verifyComplete => true
  | .resyncTimeout => true
  | .linkingTimeout => true
  | .twinSwapTakeEffect => true
  | .micAcquireTimeout _ => true
  | .tdmClockFault _ => true
  | .aes3RxLocking _ => true
  | .aes3FrameTx _ => true
  | .deferredResetBegin => true
  | .slotEraseComplete => true
  | .hostTimeout _ => true
  | .delayReqTx _ => true
  | .signatureMissing => true

end Sys2Proof
end

