-- ==== Sys2Proof/Safety.lean ====
section
/-! DEFINITION. The terms claims are stated in: the device a command starts from, the state it answers, and what holds of
the device between commands. -/

namespace Sys2Proof.Machine

/-- The device as a command finds it: what the last command put on the buses is gone. -/
def quiet (s : State) : Dev := clearOut s.dev

/-- The state after a command that made the device d: its consequences settled, the queue as it was. -/
def after (s : State) (d : Dev) : State := { s with dev := settle d }

/-- Between commands nothing is left to settle: no matrix error or core fault unreported, no frame given to the link that has
not been put on it, and the interrupt conditions recorded are those that hold (R25, R285, R374, R407). -/
abbrev Settled (d : Dev) : Prop :=
  d.tiles.notes = [] ∧ d.twin.waiting = [] ∧ ∀ v, v < 15 → d.hif.msixCond.getLsbD v = vecPends d v

/-- The requests of the table: opcode, rule, message. -/
def requestRow : Instr → Option (Op × Judge1 × Req)
  | .hello r => some (.hello, judgeHello, r)
  | .version r => some (.version, judgeVersion, r)
  | .caps r => some (.caps, judgeCaps, r)
  | .ping r => some (.ping, judgePing, r)
  | .bye r => some (.bye, judgeBye, r)
  | .modeSet r => some (.modeSet, judgeModeSet, r)
  | .modeGet r => some (.modeGet, judgeModeGet, r)
  | .resetReq r => some (.resetReq, judgeResetReq, r)
  | .telemetryGetCounters r => some (.telemetryGet, judgeCounters, r)
  | .telemetryGetBlock r => some (.telemetryGet, judgeBlock, r)
  | .logRead r => some (.logRead, judgeLogRead, r)
  | .outLatencyGet r => some (.outLatencyGet, judgeOutLatency, r)
  | .domainCfgSet r => some (.domainCfg, judgeDomSet, r)
  | .domainCfgStart r => some (.domainCfg, judgeDomStart, r)
  | .domainStop r => some (.domainCfg, judgeDomStop, r)
  | .domainCfgRealign r => some (.domainCfg, judgeDomRealign, r)
  | .domainCfgGet r => some (.domainCfg, judgeDomGet, r)
  | .ptpCfg r => some (.ptpCfg, judgePtpCfg, r)
  | .pulseCfg r => some (.pulseCfg, judgePulseCfg, r)
  | .captureCfg r => some (.captureCfg, judgeCaptureCfg, r)
  | .layoutBegin r => some (.layoutBegin, judgeLayoutBegin, r)
  | .layoutSpk r => some (.layoutSpk, judgeLayoutSpk, r)
  | .layoutCommit r => some (.layoutCommit, judgeLayoutCommit, r)
  | .objCfg r => some (.objCfg, judgeObjCfg, r)
  | .objUpdate r => some (.objUpdate, judgeObjUpdate, r)
  | .objUpdateBatch r => some (.objUpdateBatch, judgeObjBatch, r)
  | .objQuery r => some (.objQuery, judgeObjQuery, r)
  | .routeSet r => some (.routeSet, judgeRouteSet, r)
  | .busCfg r => some (.busCfg, judgeBusCfg, r)
  | .matrixDirect r => some (.matrixDirect, judgeMatrixDirect, r)
  | .chainCfgColumn r => some (.chainCfg, judgeChainColumn, r)
  | .chainCfgBassGroup r => some (.chainCfg, judgeBassGroup, r)
  | .eqSet r => some (.eqSet, judgeEqSet, r)
  | .delaySet r => some (.delaySet, judgeDelaySet, r)
  | .dynCfgSet r => some (.dynCfg, judgeDynSet, r)
  | .grRead r => some (.dynCfg, judgeGrRead, r)
  | .outGain r => some (.outGain, (judgeOut false), r)
  | .outMute r => some (.outMute, (judgeOut true), r)
  | .firLoadMap r => some (.firLoad, judgeFirLoad, r)
  | .firLoadData r => some (.firLoad, judgeFirLoad, r)
  | .firCommit r => some (.firCommit, judgeFirCommit, r)
  | .firStatus r => some (.firStatus, judgeFirStatus, r)
  | .haloCfgSet r => some (.haloCfg, judgeHaloSet, r)
  | .haloCfgOrient r => some (.haloCfg, judgeHaloOrient, r)
  | .haloCfgGet r => some (.haloCfg, judgeHaloGet, r)
  | .seamCfgSet r => some (.seamCfg, judgeSeamSet, r)
  | .seamCfgGet r => some (.seamCfg, judgeSeamGet, r)
  | .micCfgSet r => some (.micCfg, judgeMicSet, r)
  | .micCfgGet r => some (.micCfg, judgeMicGet, r)
  | .toneDetCfgSet r => some (.toneDetCfg, judgeDetSet, r)
  | .toneDetCfgStop r => some (.toneDetCfg, judgeDetStop, r)
  | .toneDetCfgGet r => some (.toneDetCfg, judgeDetGet, r)
  | .calStartMeasure r => some (.calStart, judgeMeasure, r)
  | .calStartDesign r => some (.calStart, judgeDesign, r)
  | .calStartAbort r => some (.calStart, judgeAbort, r)
  | .calResult r => some (.calResult, judgeCalResult, r)
  | .trackCfgSet r => some (.trackCfg, judgeTrackSet, r)
  | .trackCfgGet r => some (.trackCfg, judgeTrackGet, r)
  | .trackCfgRead r => some (.trackCfg, judgeTrackRead, r)
  | .trackProposalList r => some (.trackProposal, judgePropList, r)
  | .trackProposalRead r => some (.trackProposal, judgePropRead, r)
  | .trackProposalDiscard r => some (.trackProposal, judgePropDiscard, r)
  | .portCfgSet r => some (.portCfg, judgePortSet, r)
  | .portCfgGet r => some (.portCfg, judgePortGet, r)
  | .portCfgSource r => some (.portCfg, judgePortSource, r)
  | .csRead r => some (.portCfg, judgeCsRead, r)
  | .csWrite r => some (.portCfg, judgeCsWrite, r)
  | .slotMask r => some (.slotMask, judgeSlotMask, r)
  | .alignGroupSet r => some (.alignGroup, judgeGroupSet, r)
  | .alignGroupGet r => some (.alignGroup, judgeGroupGet, r)
  | .alignGroupDissolve r => some (.alignGroup, judgeGroupDissolve, r)
  | .netPortCfgSet r => some (.netPortCfg, judgeNetSet, r)
  | .netPortCfgGet r => some (.netPortCfg, judgeNetGet, r)
  | .netPortCfgFilter r => some (.netPortCfg, judgeNetFilter, r)
  | .flowRxCfgSet r => some (.flowRxCfg, judgeFlowRxSet, r)
  | .flowRxCfgLeg r => some (.flowRxCfg, judgeFlowRxLeg, r)
  | .flowTxCfgSet r => some (.flowTxCfg, judgeFlowTxSet, r)
  | .flowTxCfgLeg r => some (.flowTxCfg, judgeFlowTxLeg, r)
  | .flowTxCfgSource r => some (.flowTxCfg, judgeFlowTxSource, r)
  | .flowState r => some (.flowState, judgeFlowState, r)
  | .gateListSet r => some (.gateList, judgeGateSet, r)
  | .gateListClear r => some (.gateList, judgeGateClear, r)
  | .twinCfgSet r => some (.twinCfg, judgeTwinSet, r)
  | .twinCfgGet r => some (.twinCfg, judgeTwinGet, r)
  | .twinState r => some (.twinState, judgeTwinState, r)
  | .twinSwap r => some (.twinSwap, judgeTwinSwap, r)
  | .graphLoad r => some (.graphLoad, judgeGraphLoad, r)
  | .graphStart r => some (.graphStart, judgeGraphStart, r)
  | .graphStop r => some (.graphStop, judgeGraphStop, r)
  | .taskCancel r => some (.taskCancel, judgeTaskCancel, r)
  | .fwUpdateBegin r => some (.fwUpdateBegin, judgeUpdateBegin, r)
  | .fwChunk r => some (.fwChunk, judgeChunk, r)
  | .fwCommit r => some (.fwCommit, judgeFwCommit, r)
  | .fwSlotInfo r => some (.fwSlotInfo, judgeSlotInfo, r)
  | .selftestRun r => some (.selftestRun, judgeSelftest, r)
  | _ => none

/-- A run of n steps from s to t. -/
def Runs : Nat → State → State → Prop
  | 0, s, t => t = s
  | n + 1, s, t => ∃ u, step s = .next u ∧ Runs n u t

/-- A host interface whose power domain is on reaches the window. -/
def hostReaches (s : State) (via : Via) : Prop := (via = .pcie ∨ via = .spi) ∧ pdOn s.dev 2 = true

/-! Requests as their senders' sessions let them be judged. -/

/-- The request of a row as firmware takes it. -/
def takes (s : State) (op : Op) (r : Req) : Taken := takenOf (quiet s) op r (getMbx s.dev r.ch.val).epoch

/-- Firmware runs, the message is no longer than a chain carries, and no check that comes before the request's own rule turns it
away: its session is open at a version that has the opcode, the mode admits it, and on a pair the device that should takes it. -/
abbrev served (s : State) (t : Taken) : Prop := t.req.payload.length ≤ 448 ∧ s.dev.hif.ctrlUp = true ∧ gate (quiet s) t = none

/-- The state after a request that made the device d and is answered; a leader of a pair tells its partner first. -/
def answered (s : State) (t : Taken) (d : Dev) (st : Status) (body : List Byte) (bulk : Bool := false) : State :=
  after s (reply (commandTicket d t 0 none) t st body bulk)

/-- Answered OK. -/
def granted (s : State) (t : Taken) (d : Dev) (body : List Byte) (bulk : Bool := false) : State := answered s t d .ok body bulk

/-- The state after a request that is a shadow commit of a domain: it joins those that wait for the domain's boundary. -/
def committed (s : State) (t : Taken) (d : Dev) (dom : Nat) : State :=
  let n := effDom d dom
  let d' := commandTicket d t n none
  after s { d' with fw := { d'.fw with commits := d'.fw.commits ++
    [{ taken := t, dom := n, st := if mode d == .twin then some (selBoundary d n) else none }] } }

/-- The state after an accepted change: made at once in CONFIG, where d is the device with it, otherwise a shadow commit. -/
def changes (s : State) (t : Taken) (dom : Nat) (d : Dev) (body : List Byte) : State :=
  if atOnceMode t then granted s t d body else committed s t (quiet s) dom

/-- The state after a request whose reply waits for what w says. -/
def awaits (s : State) (t : Taken) (d : Dev) (w : WaitFor) : State :=
  let d' := commandTicket d t 0 none true
  after s { d' with fw := { d'.fw with waits := d'.fw.waits ++ [{ taken := t, what := w }] } }

/-- The state after a request that is under way, or has been answered by its own rule. -/
def underWay (s : State) (t : Taken) (d : Dev) : State := after s (commandTicket d t 0 none true)

/-- The state after a request whose region, named at byte o of its payload, is to be fetched. -/
def fetches (s : State) (t : Taken) (d : Dev) (o : Nat) : State :=
  let b := bulkRef t.req.payload o
  after s { d with fw := { d.fw with bulks := d.fw.bulks ++ [{ taken := t, addr := b.1, len := b.2.1, crc := b.2.2 }] } }

/-- The state after an accepted change of a speaker chain: made at once in CONFIG, and where no domain that runs is concerned. -/
def chainChanges (s : State) (t : Taken) (dom : Option Nat) (d : Dev) (body : List Byte) : State :=
  if atOnceMode t || (dom.map (fun n => domRuns (getDom s.dev n).state)) != some true then granted s t d body else committed s t (quiet s) (dom.getD 0)

/-- The state after an accepted change that needs power domain pd where `needs` holds: in CONFIG it is stored and, while the domain is
off, answered once it is on; elsewhere it is a shadow commit. -/
def changesPd (s : State) (t : Taken) (dom pd : Nat) (needs : Bool) (d : Dev) (body : List Byte) : State :=
  if atOnceMode t then
    (if needs && !pdOn d pd then awaits s t (needPd d pd) (.powerOn pd body) else granted s t d body)
  else committed s t (if needs then needPd (quiet s) pd else quiet s) dom

/-! DSP cores. -/

/-- A pair that issues on a core: its tile is on, the core is not blocked, its words stand at the PC, are fetched and are legal
(R263, R264, R273, R281). -/
def issues (s : State) (core : Fin 64) (i : Issue) : Prop :=
  let c := getCore s.dev.tiles core.val
  pdOn s.dev (10 + core.val / 16) = true ∧ c.fetching = none ∧ fetchFails c i = false ∧ issueMatches s.dev.tiles core.val c i = true ∧
    pairIllegal i = false

/-- The core after a pair of n words that does not branch: PC after it, or where a repeat leads (R271, R272). -/
def advance (c : DspCore) (n : Nat) (x : DspCore) : DspCore :=
  let at' := rptEnd ((List.range n).map (fun k => c.pc + BitVec.ofNat 32 (4 * k))) (c.pc + BitVec.ofNat 32 (4 * n)) c.rpt
  { x with pc := at'.1, rpt := at'.2 }

/-- The tiles after a pair that leaves its core as x: its cycles and corrected errors are counted, nothing else changes. -/
def coreLeft (T : Tiles) (core : Fin 64) (i : Issue) (x : DspCore) : Tiles :=
  { coreMod T core.val (fun c => { x with cycle := (c.cycle + i.cycles) % 2 ^ 64 }) with
    sched := { T.sched with eccCorr := tabMod T.sched.eccCorr (core.val / 8) (· + BitVec.ofNat 32 i.corrected) } }

/-- The state after such a pair. -/
def coreGives (s : State) (core : Fin 64) (i : Issue) (x : DspCore) : State := after s (tilesMod (quiet s) (fun T => coreLeft T core i x))

end Sys2Proof.Machine
end

