-- ==== Sys2Proof/Certificates/Slice0/Obligations.lean ====
section
/-! DEFINITION. The statements for the provers.  Each says a result, a completion or a frame of the commands it names, over
every state and operand that meets its hypotheses; `quiet s` is the device a command starts from and `after s d` the state
that a command which made the device d answers (Sys2Proof/Safety.lean). -/

open Sys2Proof Sys2Proof.Machine

/-! The step, the queue, and what every command does. -/

/-- A step takes the command at the front of the queue and runs it on the state with the queue's rest. -/
def Obligations.StepRunsTheFrontCommand : Prop :=
  ∀ (c : Instr) (cs : List Instr) (s : State), s.pending = c :: cs → step s = exec c { s with pending := cs }

/-- On an empty queue n steps are n TIME cycles: DT and its fraction, together a 96-bit count of 2⁻³² ns, advance by n increments
while the clock runs, and nothing else changes but that a ring's held interrupt may be raised, and signalled; where none is held nothing
else changes at all.  While the clock does not run nothing changes.  That a step on an empty queue is a TIME cycle is the model's choice
(log entry 20). -/
def Obligations.IdleStepsAdvanceTime : Prop :=
  ∀ (n : Nat) (s : State), s.pending = [] →
    (timeRuns s.dev = true → ∃ (dt : DT) (frac : Word) (rings : Tab Ring) (pend cond : Half) (sent : List Nat),
      Runs n s { s with dev := { s.dev with
        time := { s.dev.time with dt := dt, frac := frac }
        net := { s.dev.net with rings := rings }
        hif := { s.dev.hif with msixPend := pend, msixCond := cond, msixSent := sent } } } ∧
      dt.toNat * 2 ^ 32 + frac.toNat = (s.dev.time.dt.toNat * 2 ^ 32 + s.dev.time.frac.toNat + n * s.dev.time.incr) % 2 ^ 96 ∧
      (∀ r, (tabGet rings r).head = (tabGet s.dev.net.rings r).head ∧ (tabGet rings r).tail = (tabGet s.dev.net.rings r).tail ∧
        ((tabGet s.dev.net.rings r).irqPend = true → (tabGet rings r).irqPend = true)) ∧
      ((∀ kv, kv ∈ s.dev.net.rings → kv.2.irqHeld = false) →
        rings = s.dev.net.rings ∧ pend = s.dev.hif.msixPend ∧ cond = s.dev.hif.msixCond ∧ sent = s.dev.hif.msixSent)) ∧
    (timeRuns s.dev = false → Runs n s s)

/-- Every well-formed command answers a next state, in every state; no command is refused; the one fault is that of an operand that spells
another row of the table; and no command adds to the queue of commands or takes from it. -/
def Obligations.WellFormedCommandsComplete : Prop :=
  ∀ (c : Instr) (s : State),
    (c.wf = true → ∃ t, exec c s = .next t) ∧ (∀ r, exec c s ≠ .refused r) ∧ (∀ f, exec c s = .fault f → f = .otherRow ∧ c.wf = false) ∧
    (∀ t, exec c s = .next t → t.pending = s.pending)

/-- After every step nothing is left to settle: every matrix error and core fault has been reported, every frame given to the
link is on it, and the recorded interrupt conditions are those in force. -/
def Obligations.EveryStepLeavesNothingToSettle : Prop :=
  ∀ (s t : State), Settled s.dev → step s = .next t → Settled t.dev

/-- Settling a command reports and signals; it writes no register, memory or engine state beside those named.
An access that the matrix turns away is counted, recorded with its master, direction and address, and reported in EV_FAULT of
kind 2 where firmware runs; it has no other effect. -/
def Obligations.SettlingReportsMatrixErrors : Prop :=
  (∀ (d : Dev), ∃ (q : List OutMsg) (l : List LogEntry) (n : Word) (e : Tab Word) (pend cond : Half) (sent : List Nat)
     (err info addr : Word) (tx : Word) (un : List LinkSent) (fr : List (List Byte)),
     settle d = { d with
       fw := { d.fw with queue := q, log := l, logSeq := n, evqDrop := e }
       hif := { d.hif with msixPend := pend, msixCond := cond, msixSent := sent }
       mtx := { d.mtx with err := err, errInfo := info, errAddr := addr }
       twin := { d.twin with txSeq := tx, unacked := un, sent := fr, waiting := [] }
       tiles := { d.tiles with notes := [] } }) ∧
  (∀ (d : Dev) (m : Nat) (read : Bool) (a : Word),
     (matrixError d m read a).mtx = { d.mtx with err := d.mtx.err + 1, errAddr := a, errInfo := fields [(31, 1), (8, b2n read), (0, m)] } ∧
     matrixError d m read a = { evFault { d with mtx := (matrixError d m read a).mtx } 2 (b2n read) m 0xFF 0 a.toNat 0 0 with
       mtx := (matrixError d m read a).mtx } ∧
     (d.hif.ctrlUp = false → matrixError d m read a = { d with mtx := (matrixError d m read a).mtx }))

/-- The source of each vector, in any device; vectors 5 and 15 are never raised; IRQ_N is asserted for the sources SPI_IRQ_ENABLE adds. -/
def Obligations.InterruptVectorsHaveTheirSources : Prop :=
  ∀ (d : Dev),
    (∀ n, n < 8 → (irqStatus d).getLsbD n = ((getMbx d n).irq &&& (getMbx d n).irqEn != 0)) ∧
    (irqStatus d).getLsbD 8 = (d.hif.dblD2H &&& d.hif.dblD2HEn != 0) ∧
    (irqStatus d).getLsbD 9 = dmaPends d ∧
    (irqStatus d).getLsbD 10 = ((List.range 8).any (fun r => (tabGet d.net.rings r).irqPend)) ∧
    (irqStatus d).getLsbD 11 = ((List.range 4).any (fun p => (getNet d p).halfRx != 0 || (getNet d p).halfTx != 0)) ∧
    (irqStatus d).getLsbD 12 = (d.time.irq &&& 0xFFF != 0) ∧
    (irqStatus d).getLsbD 13 = (d.hif.fault != 0) ∧
    (irqStatus d).getLsbD 14 = d.hif.irqMode ∧
    (∀ n, 15 ≤ n → (irqStatus d).getLsbD n = false) ∧
    (∀ n, n < 15 → n ≠ 5 → vecPends d n = ((irqStatus d).getLsbD n && d.hif.irqEn.getLsbD n)) ∧ vecPends d 5 = false ∧ (∀ n, 15 ≤ n → vecPends d n = false) ∧
    irqN d = (irqStatus d &&& d.hif.spiIrqEn != 0)

/-- What power-on reset leaves, where the spec gives the value; the queue is empty and nothing is left to settle. -/
def Obligations.ResetStateIsAsGiven : Prop :=
  let d := State.reset.dev
  mode d = .boot ∧ hifMode d = 0x0000_0002 ∧ hifStatus d = 0 ∧ irqStatus d = 0 ∧ d.hif.irqEn = 0 ∧ d.hif.spiIrqEn = 0 ∧ d.hif.fault = 0 ∧
  d.hif.mbxLost = 0 ∧ d.hif.ctrlRestarts = 0 ∧ d.hif.accessErr = 0 ∧
  (getDom d 0).state = .acquire ∧ (getDom d 0).cfg = { source := 0, flags := 0, rate := 48000, allot := 256, holdoverS := 60 } ∧
  (∀ n, n = 1 ∨ n = 2 → (getDom d n).state = .stopped ∧ (getDom d n).cfg = { source := 0, flags := 0, rate := 48000, allot := 0, holdoverS := 60 }) ∧
  (∀ c, c < 64 → (getCore d.tiles c).pc = 0xE0200000 ∧ (getCore d.tiles c).xvec = 0xE0200000) ∧
  (∀ a, memRead d.tiles.mem a = 0) ∧ memWf d.tiles.mem = true ∧ State.reset.pending = [] ∧ Settled d

/-! Hatre requests. -/

/-- Each of the 95 requests of the table, where firmware takes cells: the request is taken under its session's version, the channel's
sender epoch and the mode in force, and judged by the rule of its row; the answer is what the judgement leads to.  Where firmware
does not run the request stays where it is and nothing happens.
The checks that come before a request's own rule: a closed session admits HELLO and VERSION alone (DENIED), an opcode that the
session's version lacks gets VERSION, SAFE admits its reduced protocol alone (BAD_MODE).  A request turned away so is answered and
changes nothing else. -/
def Obligations.RequestsAreTakenAdmittedAndJudged : Prop :=
  (∀ (c : Instr) (op : Op) (j : Judge1) (r : Req) (s : State), requestRow c = some (op, j, r) → c.wf = true →
     (s.dev.hif.ctrlUp = true →
       exec c s = .next (after s (judgeReq j (quiet s) (takenOf (quiet s) op r (getMbx s.dev r.ch.val).epoch) none))) ∧
     (s.dev.hif.ctrlUp = false → exec c s = .next (after s (quiet s)))) ∧
  (∀ (c : Instr) (op : Op) (j : Judge1) (r : Req) (s : State), requestRow c = some (op, j, r) → c.wf = true → s.dev.hif.ctrlUp = true →
     let t := takenOf (quiet s) op r (getMbx s.dev r.ch.val).epoch
     let ses := getSession s.dev r.ch.val
     (ses.isOpen = false → op ≠ .hello → op ≠ .version → exec c s = .next (after s (reply (quiet s) t .denied []))) ∧
     (ses.isOpen = true → verLacks op ses.major ses.minor = true → exec c s = .next (after s (reply (quiet s) t .version []))) ∧
     (ses.isOpen = true → verLacks op ses.major ses.minor = false → mode s.dev = .safe → opCode op / 256 ≠ 0 → opCode op / 256 ≠ 0x0E →
       op ≠ .telemetryGet → op ≠ .logRead → exec c s = .next (after s (reply (quiet s) t .badMode []))))

/-- A reply carries the request's opcode with bit 15 set, its tag and the status in byte 0; it is sent where REPLY_REQ is set, and
otherwise only where the status is neither OK nor LATE. -/
def Obligations.RepliesCarryOpcodeTagAndStatus : Prop :=
  ∀ (d : Dev) (t : Taken) (st : Status) (body : List Byte) (b : Bool),
    (getMbx d t.req.ch.val).epoch = t.epoch → (∀ i, i ∈ d.twin.issued → i.taken ≠ some t) →
    (∃ m : OutMsg, m.ch = t.req.ch.val ∧ m.opcode = BitVec.ofNat 16 (opCode t.op) ||| 0x8000 ∧ m.tag = t.req.tag ∧ m.bulk = b ∧ m.isReply = true ∧
      m.payload.head? = some (BitVec.ofNat 8 (statusByte st)) ∧
      (reply d t st body b).fw.queue = d.fw.queue ++ (if t.req.replyReq = true ∨ (st ≠ .ok ∧ st ≠ .late) then [m] else [])) ∧
    reply d t st body b = { d with fw := { d.fw with
      queue := (reply d t st body b).fw.queue, log := (reply d t st body b).fw.log, logSeq := (reply d t st body b).fw.logSeq } }

/-- PING answers OK with the DT at which it was taken and up to 44 bytes of its data. -/
def Obligations.PingEchoesItsData : Prop :=
  ∀ (r : Req) (s : State), r.payload.length ≤ 44 → r.replyReq = true → s.dev.hif.ctrlUp = true → (getSession s.dev r.ch.val).isOpen = true →
    (r.bulk = false ∨ r.ch.val ≠ 4) → (∀ i, i ∈ s.dev.twin.issued → i.taken ≠ some (takenOf (quiet s) .ping r (getMbx s.dev r.ch.val).epoch)) →
    exec (.ping r) s = .next (after s { quiet s with fw := { s.dev.fw with queue := s.dev.fw.queue ++
      [{ ch := r.ch.val, opcode := 0x8004, tag := r.tag, bulk := false, isReply := true,
         payload := [0] ++ [0, 0, 0] ++ p64 s.dev.time.dt.toNat ++ r.payload }] } })

/-- An object that OBJ_CFG enables has the default record, with the ramp that OBJ_CFG gave, and its gain is off until mute clears. -/
def Obligations.EnabledObjectsHaveTheDefaultRecord : Prop :=
  ∀ (sc : Scene) (c : ObjCfg) (f : Nat) (b : MT),
    let o := enableObj sc c f b
    o.enabled = true ∧ o.st = { x := 0, y := 65536, z := 0, angular := false, width := 0, height := 0, depth := 0, gain := 0, mute := true,
                                diffuse := 0, jump := false, rampUs := c.rampUs, priority := 10 } ∧
    (∀ floor, gObj o floor = 0) ∧ (∀ o', o'.st.mute = true → ∀ floor, gObj o' floor = 0)


/-! Mailboxes, registers, doorbells and interrupts as a host interface reaches them (chapter 15). -/

/-- Writes of a mailbox channel by an interface that owns it: a post stamps and queues the cell while fewer than 8 are queued and
firmware takes cells, and is otherwise refused, counted and flagged; a pop removes the oldest outbound cell; a write of MBX_IRQ
clears the bits written 1; a write of SENDER_RESET with bit 0 begins a new sender epoch.
A new sender epoch: the channel's epoch goes up by one, its outbound FIFO is emptied, its session and MORE chain end; the session
of every other channel stays. -/
def Obligations.MailboxWritesAndSenderEpochsTakeEffect : Prop :=
  (∀ (via : Via) (ch : Fin 8) (v : Word) (s : State), hostReaches s via → ownsMbx via ch.val = true →
     let m := getMbx s.dev ch.val
     let put (m' : Mailbox) : State := after s { quiet s with mbx := tabSet s.dev.mbx ch.val m' }
     (v.getLsbD 0 = true → m.inFifo.length < 8 → s.dev.hif.ctrlUp = true → exec (.inPost via ch v) s =
       .next (put { m with inFifo := m.inFifo ++ [slice m.inCell 0 6 ++ [BitVec.ofNat 8 ch.val, m.epoch] ++ slice m.inCell 8 56] })) ∧
     (v.getLsbD 0 = true → 8 ≤ m.inFifo.length ∨ s.dev.hif.ctrlUp = false →
       exec (.inPost via ch v) s = .next (put { m with refused := m.refused + 1, irq := m.irq ||| 8 })) ∧
     (v.getLsbD 0 = true → exec (.outPop via ch v) s = .next (put { m with outFifo := m.outFifo.drop 1 })) ∧
     exec (.mbxIrqWrite via ch v) s = .next (put { m with irq := m.irq &&& ~~~v }) ∧
     (v.getLsbD 0 = true → exec (.senderReset via ch v) s = .next (after s (newSenderEpoch (quiet s) ch.val)))) ∧
  (∀ (d : Dev) (ch : Nat),
     (getMbx (newSenderEpoch d ch) ch).epoch = (getMbx d ch).epoch + 1 ∧ (getMbx (newSenderEpoch d ch) ch).outFifo = [] ∧
     (getMbx (newSenderEpoch d ch) ch).inFifo = (getMbx d ch).inFifo ∧
     getSession (newSenderEpoch d ch) ch = {} ∧ (∀ k, k ≠ ch → getSession (newSenderEpoch d ch) k = getSession d k))

/-- Firmware takes the oldest inbound cell of a channel while fewer than 32 of its replies wait: a cell of another epoch is counted
stale, one with a reply opcode is counted discarded, and neither is answered.  A cell of another opcode or tag first ends the MORE chain
of its channel with BAD_ARG.
A MORE chain that is not completed in time is answered TIMEOUT under its opcode and tag and forgotten. -/
def Obligations.CellsAreTakenInOrderAndChainsTimeOut : Prop :=
  (∀ (ch : Fin 8) (s : State) (c : List Byte) (rest : List (List Byte)), s.dev.hif.ctrlUp = true →
     (s.dev.fw.queue.filter (fun m => m.isReply && m.ch == ch.val)).length < 32 → (getMbx s.dev ch.val).inFifo = c :: rest →
     let m := getMbx s.dev ch.val
     let m' : Mailbox := { m with inFifo := rest, irq := if rest.isEmpty then m.irq ||| 1 else m.irq }
     let d : Dev := { quiet s with mbx := tabSet s.dev.mbx ch.val m' }
     exec (.hatreCellTake ch) s = .next (after s (takeCell d ch c)) ∧
     (u8 c 7 ≠ m.epoch.toNat → exec (.hatreCellTake ch) s =
       .next (after s { quiet s with mbx := tabSet (tabSet s.dev.mbx ch.val m') ch.val { m' with staleIn := m.staleIn + 1 } })) ∧
     (u8 c 7 = m.epoch.toNat → 0x8000 ≤ u16 c 0 → tabGet s.dev.fw.chains ch.val = none → exec (.hatreCellTake ch) s =
       .next (after s { d with fw := { s.dev.fw with discard := tabSet s.dev.fw.discard ch.val (tabGet s.dev.fw.discard ch.val + 1) } })) ∧
     (∀ k, u8 c 7 = m.epoch.toNat → tabGet s.dev.fw.chains ch.val = some k → k.opcode ≠ BitVec.ofNat 16 (u16 c 0) ∨ k.tag ≠ BitVec.ofNat 16 (u16 c 4) →
       exec (.hatreCellTake ch) s = .next (after s (takeCell (chainFail d ch.val k .badArg) ch c)))) ∧
  (∀ (ch : Fin 8) (s : State) (k : Chain), s.dev.hif.ctrlUp = true → tabGet s.dev.fw.chains ch.val = some k →
     ∃ t, exec (.messageChainTimeout ch) s = .next t ∧ tabGet t.dev.fw.chains ch.val = none ∧
       { ch := ch.val, opcode := k.opcode + 0x8000, tag := k.tag, bulk := false, payload := [7], isReply := true } ∈ t.dev.fw.queue)

/-- The oldest message that waits for a channel takes a free cell of its outbound FIFO, or for MBX5 goes over a link that is up.
Unmasking a vector sends the message that pended while it was masked, once, if its condition still holds; its pending bit
clears. -/
def Obligations.OutboundCellsAndPendingMessagesAreSent : Prop :=
  (∀ (ch : Fin 8) (s : State) (m : OutMsg) (q : List OutMsg), s.dev.hif.ctrlUp = true → takeOut ch.val s.dev.fw.queue = some (m, q) →
     let b := getMbx s.dev ch.val
     m.ch = ch.val ∧ (∃ p, s.dev.fw.queue = p ++ [m] ++ q.drop p.length ∧ p = q.take p.length ∧ ∀ x ∈ p, x.ch ≠ ch.val) ∧
     (ch.val ≠ 5 → b.outFifo.length < 32 → exec (.outboundCellPlace ch) s =
       .next (after s { quiet s with
         fw := { s.dev.fw with queue := q }
         mbx := tabSet s.dev.mbx ch.val { b with outFifo := b.outFifo ++ [cellBytes m s.dev.hif.deviceEpoch], irq := b.irq ||| 2 } })) ∧
     (ch.val = 5 → linkUp s.dev.twin = true → linkCarries s.dev.twin = true → exec (.outboundCellPlace ch) s =
       .next (after s { quiet s with
         fw := { s.dev.fw with queue := q }
         twin := { (quiet s).twin with waiting := s.dev.twin.waiting ++ [(5, cellBytes m s.dev.hif.deviceEpoch)] } }))) ∧
  (∀ (v : Fin 16) (s : State), Settled s.dev →
     ∃ t, exec (.msiXUnmask v) s = .next t ∧ t.dev.hif.msixMask = s.dev.hif.msixMask &&& ~~~(BitVec.ofNat 16 (2 ^ v.val)) ∧
       t.dev.hif.msixPend = s.dev.hif.msixPend &&& ~~~(BitVec.ofNat 16 (2 ^ v.val)) ∧
       t.dev.hif.msixSent = (if s.dev.hif.msixMask.getLsbD v.val ∧ s.dev.hif.msixPend.getLsbD v.val ∧ vecPends s.dev v.val then [v.val] else []) ∧
       t.dev.mbx = s.dev.mbx ∧ t.dev.fw = s.dev.fw ∧ t.dev.time = s.dev.time)

/-- Writes of the doorbell, interrupt, fault, snapshot and time registers: what each sets or clears, and nothing else.
HIF_RESET acts only with its key in the upper half.  The time registers act while PD_CTRL is on.
A snapshot holds DT and the media time of each domain that runs or closes; the others read 0 and not valid. -/
def Obligations.HostRegisterWritesSnapshotsAndForcedResets : Prop :=
  ((∀ (via : Via) (v : Word) (s : State), hostReaches s via →
      let h := (quiet s).hif
      exec (.dblH2dSet via v) s = .next (after s { quiet s with hif := { h with dblH2D := h.dblH2D ||| v } }) ∧
      exec (.dblD2hWrite via v) s = .next (after s { quiet s with hif := { h with dblD2H := h.dblD2H &&& ~~~v } }) ∧
      exec (.hifIrqStatusWrite via v) s = .next (after s { quiet s with hif := { h with irqMode := h.irqMode && !v.getLsbD 14 } }) ∧
      exec (.hifFaultWrite via v) s = .next (after s { quiet s with hif := { h with fault := h.fault &&& ~~~v } }) ∧
      (pdOn s.dev 1 = true → exec (.timeIrqWrite via v) s = .next (after s { quiet s with time := { s.dev.time with irq := s.dev.time.irq &&& ~~~v } }) ∧
        (∀ now, exec (.timeSnapshot via now) s = .next (after s { quiet s with time := { s.dev.time with snap := snapshotOf (quiet s) now } }))) ∧
      (pdOn s.dev 1 = false → exec (.timeIrqWrite via v) s = .next (after s (quiet s)) ∧ (∀ now, exec (.timeSnapshot via now) s = .next (after s (quiet s))))) ∧
   (∀ (via : Via) (v : Word) (s : State), hostReaches s via →
      (v >>> 16 ≠ 0xC3D2 → exec (.warmReset via v) s = .next (after s (quiet s)) ∧ exec (.ctrlRestart via v) s = .next (after s (quiet s))) ∧
      (v >>> 16 = 0xC3D2 → exec (.warmReset via v) s = .next (after s (warmResetOp (quiet s) 2)) ∧
        exec (.ctrlRestart via v) s = .next (after s (controlFault (quiet s) 5))))) ∧
  (∀ (d : Dev) (el : Elapsed), (snapshotOf d el).dt = d.time.dt ∧
     ∀ n, n < 3 → (snapshotOf d el).valid.getD n false = mtValid d n ∧
       (mtValid d n = true → (snapshotOf d el).mt.getD n 0 = (getDom d n).mt + BitVec.ofNat 32 (el.getD n (0, 0)).1 ∧
         (snapshotOf d el).frac.getD n 0 = (el.getD n (0, 0)).2) ∧
       (mtValid d n = false → (snapshotOf d el).mt.getD n 0 = 0 ∧ (snapshotOf d el).frac.getD n 0 = 0))

/-- Reads that have an effect: a capture record, a button entry or a completion is removed, a status or half-range register is
cleared, a GR_HOLD register restarts, DESC_INDEX advances; the word read is what the register held.
The reads and writes with an effect that only the control processor makes. -/
def Obligations.ReadsThatClearAndControlProcessorAccesses : Prop :=
  (∀ (via : Via) (s : State), hostReaches s via →
     let gives (w : Word) (d : Dev) : State := after s { d with hif := { d.hif with readData := d.hif.readData ++ [w] } }
     (∀ i : Fin 4, pdOn s.dev 1 = true → exec (.capW3Read via i) s = .next (gives (windowWord (quiet s) via (0x510C + 0x20 * i.val))
       { quiet s with time := { s.dev.time with caps := tabMod s.dev.time.caps i.val (fun c => { c with fifo := c.fifo.drop 1 }) } })) ∧
     exec (.senseButtonRead via) s = .next (gives (windowWord (quiet s) via 0x70D4)
       { quiet s with sense := { s.dev.sense with fifo := s.dev.sense.fifo.drop 1 } }) ∧
     (∀ p : Fin 4, pdOn s.dev (netPd p.val) = true →
       exec (.netStatusRead via p) s = .next (gives (windowWord (quiet s) via (0x6104 + 0x400 * p.val))
         (netPortMod (quiet s) p.val (fun n => { n with status := 0 }))) ∧
       exec (.halfRxRead via p) s = .next (gives (windowWord (quiet s) via (0x6110 + 0x400 * p.val))
         (netPortMod (quiet s) p.val (fun n => { n with halfRx := 0 }))) ∧
       exec (.halfTxRead via p) s = .next (gives (windowWord (quiet s) via (0x6114 + 0x400 * p.val))
         (netPortMod (quiet s) p.val (fun n => { n with halfTx := 0 }))))) ∧
  (∀ (s : State),
     let gives (w : Word) (d : Dev) : State := after s { d with hif := { d.hif with readData := d.hif.readData ++ [w] } }
     (∀ c, c < 640 → pdOn s.dev (blockPd 0x40040C00) = true → exec (.grHoldRead c) s = .next (gives (deviceWord (quiet s) .ctrl (0x40040C00 + 4 * c))
       { quiet s with chain := { s.dev.chain with cols := tabMod s.dev.chain.cols c (fun x => { x with st := { x.st with holdC := 0, holdL := 0 } }) } })) ∧
     (pdOn s.dev (blockPd 0x40090100) = true → exec .compLoRead s = .next (gives (deviceWord (quiet s) .ctrl 0x40090100)
       (tilesMod (quiet s) (fun T => schedMod T (fun x => { x with compHi := (x.comp.head?.map (·.mt)).getD 0, comp := x.comp.drop 1 }))))) ∧
     (pdOn s.dev (blockPd 0x40090204) = true →
       exec (.descDataAccess none) s = .next (gives (deviceWord (quiet s) .ctrl 0x40090204)
         (tilesMod (quiet s) (fun T => schedMod T (fun x => { x with descIndex := BitVec.ofNat 32 ((x.descIndex.toNat + 1) % 32768) })))) ∧
       ∀ v, exec (.descDataAccess (some v)) s = .next (after s (tilesMod (quiet s) (fun T => descWrite T v)))) ∧
     (∀ (p : Fin 8) (v : Word), pdOn s.dev (blockPd 0x400505E0) = true → exec (.tdmMaskArm p v) s = .next (after s (portsMod (quiet s) (fun x =>
       { x with tdm := tabMod x.tdm p.val (fun t => { t with armed := true, atMt := v.getLsbD 1 }) })))))

/-- Writes of the host's rings and DMA channels.  RING_TAIL is taken unless it passes RING_HEAD by RING_SIZE or more; RING_CTRL keeps
its defined bits; DMA_IRQ is write-one-to-clear; a command bit of DMA_CMD starts, pauses or resumes its channel. -/
def Obligations.RingAndDmaRegisterWrites : Prop :=
  ∀ (via : Via) (v : Word) (s : State), hostReaches s via →
    (∀ r : Fin 8, let x := tabGet s.dev.net.rings r.val
      ((v - x.head).toNat < x.size.toNat ∨ v = x.head → exec (.ringTailWrite via r v) s =
        .next (after s (ringMod (quiet s) r.val (fun x => { ringMature s.dev.time.dt x with tail := v, irqPend := false, irqHeld := false })))) ∧
      (x.size.toNat ≤ (v - x.head).toNat → v ≠ x.head → exec (.ringTailWrite via r v) s =
        .next (after s (netMod (quiet s) (fun n => { n with tailErr := tabMod n.tailErr r.val (· + 1) })))) ∧
      exec (.ringCtrlWrite via r v) s = .next (after s (ringMod (quiet s) r.val (fun x =>
        { ringMature s.dev.time.dt x with ctrl := v &&& 0xFF03, irqPend := false, irqHeld := false, dropping := x.dropping && v.getLsbD 0, stalled := x.stalled && v.getLsbD 0 })))) ∧
    (∀ n : Fin 32, n.val < 8 → pdOn s.dev 1 = true →
      exec (.dmaIrqWrite via n v) s = .next (after s (dmaMod (quiet s) n.val (fun c => { c with irq := c.irq &&& ~~~v }))) ∧
      exec (.cqTailWrite via n v) s = .next (after s (cqTail (quiet s) n.val v)) ∧
      (dmaStopped (getDma s.dev n.val).state = true → exec (.dmaCmdStart via n) s = .next (after s (dmaMod (quiet s) n.val (fun c =>
        { c with state := .running, pc := 0, act0 := none, act1 := none, seq := 0, move := none, wait := none, stalled := none })))) ∧
      ((getDma s.dev n.val).state = .running → exec (.dmaCmdPause via n) s = .next (after s (dmaMod (quiet s) n.val (fun c =>
        { c with state := .paused, prev := .running,
                 remain := ((c.wait.bind (·.stop)).map (fun t => t.toNat - s.dev.time.dt.toNat)).getD 0 })))) ∧
      ((getDma s.dev n.val).state = .paused → exec (.dmaCmdResume via n) s = .next (after s (dmaMod (quiet s) n.val (fun c =>
        { c with state := c.prev, wait := c.wait.map (fun w => { w with stop := w.stop.map (fun _ => s.dev.time.dt + BitVec.ofNat 64 c.remain) }) })))) ∧
      (dmaStopped (getDma s.dev n.val).state = false → ∃ t, exec (.dmaCmdAbort via n) s = .next t ∧ (getDma t.dev n.val).state = .aborted ∧
        (getDma t.dev n.val).move = none ∧ (getDma t.dev n.val).wait = none ∧ (∀ k, k ≠ n.val → getDma t.dev k = getDma s.dev k)))

/-- A register write, a SPI transaction and an I²C read.  A write that does not cover its dword is ignored and counted, except in
IN_CELL; a SPI transaction with a reserved command bit or an offset that is no multiple of 4 is ignored whole and counted; SPI words go
to rising addresses; an I²C read gives each byte it asks for. -/
def Obligations.SerialAndPartialAccesses : Prop :=
  ∀ (s : State), pdOn s.dev 2 = true →
    let err : State := after s { quiet s with hif := { (quiet s).hif with accessErr := s.dev.hif.accessErr + 1 } }
    (∀ (via : Via) (a v : Word) (be : BitVec 4), via = .pcie ∨ via = .spi →
      exec (.registerWrite via a v be) s = .next (after s (windowWrite (quiet s) via a.toNat v be)) ∧
      (be ≠ 15 → ¬ (0x1000 ≤ a.toNat ∧ a.toNat < 0x3000 ∧ a.toNat % 0x400 < 0x40) → exec (.registerWrite via a v be) s = .next err)) ∧
    (∀ t : SpiIn, (t.cmd &&& 0x3F ≠ 0 ∨ t.addr.toNat % 4 ≠ 0 → exec (.spiTransaction t) s = .next err) ∧
      (t.cmd &&& 0x3F = 0 → t.addr.toNat % 4 = 0 →
        (t.cmd.getLsbD 7 = true → exec (.spiTransaction t) s = .next (after s (spiWrites (t.data.length / 4) t.addr.toNat t.data (quiet s)))) ∧
        (t.cmd.getLsbD 7 = false → exec (.spiTransaction t) s = .next (after s (spiReads t.words t.addr.toNat (quiet s)))))) ∧
    (pdOn s.dev 15 = true → ∀ (off : Half) (n : Nat), ∃ t, exec (.i2cRead off n) s = .next t ∧ t.dev.hif.readData.length = n ∧
      t.dev.mbx = s.dev.mbx ∧ (s.dev.tiles.notes = [] → t.dev.fw = s.dev.fw) ∧ t.dev.time = s.dev.time ∧ t.dev.net = (quiet s).net ∧ t.dev.sense = s.dev.sense)

/-! Supplies, resets, starts, modes and power (chapter 18). -/

/-- VDD_AON, RESET_N and REFCLK.  A rise of VDD_AON is a power-on reset, its loss ends everything but the flash; RESET_N asserted or
REFCLK stopped resets every domain but PD_AON and the device is OFF; released or restored, with the other two present, a start begins
with HIF_BOOTCNT 0 and cause 1, the straps sampled on RESET_N.  An edge that is none changes nothing. -/
def Obligations.SupplyResetAndClockStartAndStop : Prop :=
  ∀ (st : Straps) (s : State),
    let a := s.dev.aon
    let bare (t : State) : Prop := t.pending = s.pending ∧ t.dev.scene = {} ∧ t.dev.net = {} ∧ t.dev.ports = {} ∧ t.dev.seam = {} ∧ t.dev.mantle = {} ∧
      t.dev.chain = {} ∧ t.dev.dom = State.resetDoms ∧ t.dev.tiles.cores = [] ∧ (∀ x, memRead t.dev.tiles.mem x = 0) ∧
      t.dev.fw.sessions = [] ∧ t.dev.hif.ctrlUp = false ∧ t.dev.flash = flashKept s.dev.flash
    (a.vddAon = false → ∃ t, exec (.vddAonRise st) s = .next t ∧ bare t ∧ t.dev.aon.vddAon = true ∧ t.dev.aon.bootcnt = 0 ∧ t.dev.aon.cause = 0 ∧
      t.dev.aon.bootSrc = st.bootSrc ∧ t.dev.aon.factoryEn = st.factoryEn ∧ t.dev.aon.i2cAddr = st.i2cAddr ∧
      mode t.dev = if a.resetN && a.refclk then .boot else .off) ∧
    (a.vddAon = true → exec (.vddAonRise st) s = .next (after s (quiet s)) ∧
      ∃ t, exec .vddAonLoss s = .next t ∧ bare t ∧ mode t.dev = .off ∧ t.dev.power.on = 0 ∧
        t.dev.aon = { vddAon := false, resetN := a.resetN, refclk := a.refclk }) ∧
    (a.vddAon = true → a.resetN = true → a.refclk = true →
      (∃ t, exec .resetNAssert s = .next t ∧ bare t ∧ mode t.dev = .off ∧ t.dev.power.on = 1 ∧ t.dev.aon = { a with resetN := false } ∧
        t.dev.hif.deviceEpoch = s.dev.hif.deviceEpoch + 1) ∧
      (∃ t, exec .refclkStop s = .next t ∧ bare t ∧ mode t.dev = .off ∧ t.dev.power.on = 1 ∧ t.dev.aon = { a with refclk := false } ∧
        t.dev.hif.deviceEpoch = s.dev.hif.deviceEpoch + 1)) ∧
    (a.vddAon = true → a.resetN = false → a.refclk = true → ∃ t, exec (.resetNRelease st) s = .next t ∧ mode t.dev = .boot ∧
      t.dev.power = {} ∧ t.dev.flash = s.dev.flash ∧ t.dev.scene = s.dev.scene ∧
      t.dev.aon = { a with resetN := true, bootSrc := st.bootSrc, factoryEn := st.factoryEn, i2cAddr := st.i2cAddr, bootcnt := 0, cause := 1,
                           attempt := 0, fallback := false }) ∧
    (a.vddAon = true → a.resetN = true → a.refclk = false → ∃ t, exec .refclkRestored s = .next t ∧ mode t.dev = .boot ∧
      t.dev.power = {} ∧ t.dev.flash = s.dev.flash ∧ t.dev.scene = s.dev.scene ∧
      t.dev.aon = { a with refclk := true, bootcnt := 0, cause := 1, attempt := 0, fallback := false })

/-- A start.  A failed step begins the next attempt with HIF_BOOTCNT one higher, and the third failure is served by the recovery
firmware in SAFE; success, which an image that passes its checks has, sets CTRL_UP and enters FACTORY where its strap is set and the lock is not, else CONFIG; a host that names
no image in time is a failure with reason 3. -/
def Obligations.StartsSucceedOrFail : Prop :=
  ∀ (s : State), s.dev.fw.mode = .boot → s.dev.hif.ctrlUp = false →
    let a := s.dev.aon
    let fails (c : Instr) (reason : Byte) : Prop :=
      (a.bootcnt.toNat < 2 → ∃ t, exec c s = .next t ∧ mode t.dev = .boot ∧ t.dev.hif.ctrlUp = false ∧ t.dev.flash = flashKept s.dev.flash ∧
        t.dev.aon = { a with bootcnt := a.bootcnt + 1, lastFail := reason, cause := 4, attempt := a.bootcnt + 1, fallback := false }) ∧
      (2 ≤ a.bootcnt.toNat → ∃ t, exec c s = .next t ∧ mode t.dev = .safe ∧ t.dev.hif.ctrlUp = true ∧ t.dev.hif.fault = 2 ∧
        t.dev.aon = { a with bootcnt := 3, safeReason := reason, lastFail := reason } ∧
        t.dev.flash = { flashKept s.dev.flash with recovery := true, running := 2 })
    (∀ reason, reason ∈ ([1, 2, 3, 4, 5, 6, 9] : List Byte) → fails (.bootStepFail reason) reason) ∧
    (a.bootSrc = true → s.dev.flash.hostImage = [] → s.dev.hif.dblH2D.getLsbD 0 = false → fails .hostBootTimeout 3) ∧
    (∀ image : List Byte, a.bootSrc = true → s.dev.hif.dblH2D.getLsbD 0 = true →
      let n := u32 (getMbx s.dev 0).inCell 8
      (2097152 < n → fails (.hostImageLoad image) 1) ∧
      (n ≤ 2097152 → imageCrcOk (slice image 0 n) = true → imageSigned s.dev.flash (slice image 0 n) = true → imagePlaced (slice image 0 n) true = true →
        ∃ t, exec (.hostImageLoad image) s = .next t ∧ t.dev.flash = { s.dev.flash with hostImage := slice image 0 n } ∧
          t.dev.aon = a ∧ t.dev.hif.dblH2D = s.dev.hif.dblH2D &&& 0xFFFFFFFE)) ∧
    (∀ k, a.bootSrc = false → bootSlot s.dev.flash a.attempt.toNat = some k → imageFails s.dev.flash (tabGet s.dev.flash.slots k).bytes false = none → tempFault s.dev = false → railFault s.dev = false →
      ∃ t, exec .bootStartSuccess s = .next t ∧ mode t.dev = (if a.factoryEn && !s.dev.flash.lock then .factory else .config) ∧
        t.dev.hif.ctrlUp = true ∧ t.dev.flash.running = k ∧ t.dev.flash.recovery = false ∧
        t.dev.flash.fwVersion = (tabGet s.dev.flash.slots k).version ∧ t.dev.aon.bootcnt = 0 ∧ t.dev.aon.safeReason = 0 ∧
        t.dev.aon.bootSource = BitVec.ofNat 2 k ∧ t.dev.power.switching = 0) ∧
    (∀ k r, a.bootSrc = false → bootSlot s.dev.flash a.attempt.toNat = some k → imageFails s.dev.flash (tabGet s.dev.flash.slots k).bytes false = some r →
      fails .bootStartSuccess r) ∧
    (a.bootSrc = false → bootSlot s.dev.flash a.attempt.toNat = none → fails .bootStartSuccess 1)

/-- The control processor stops at a fault, at the watchdog and at a forced restart: inbound FIFOs are flushed and counted in
MBX_LOST with the cells of chains in progress, what waits is lost, HIF_FAULT bit 0 is set, and the data path stays.  When it runs again DEVICE_EPOCH and CTRL_RESTARTS are
one higher; a third restart within 60 s leads to SAFE. -/
def Obligations.ControlProcessorRestarts : Prop :=
  ∀ (s : State),
    (s.dev.hif.ctrlUp = true → s.dev.hif.restarting = false → ∀ c, (c = .watchdog ∨ ∃ cause, c = .controlProcessorFault cause) →
      ∃ t, exec c s = .next t ∧ t.dev.hif.ctrlUp = false ∧ t.dev.hif.restarting = true ∧ t.dev.hif.fault = s.dev.hif.fault ||| 1 ∧
        (∀ n, n < 8 → (getMbx t.dev n).inFifo = [] ∧ (getMbx t.dev n).outFifo = (getMbx s.dev n).outFifo) ∧
        t.dev.hif.mbxLost = s.dev.hif.mbxLost + BitVec.ofNat 32 ((List.range 8).map (fun n =>
          (getMbx s.dev n).inFifo.length + ((tabGet s.dev.fw.chains n).map (·.cells)).getD 0)).sum ∧
        t.dev.fw.bulks = [] ∧ t.dev.fw.commits = [] ∧ t.dev.fw.waits = [] ∧ t.dev.fw.chains = [] ∧
        mode t.dev = mode s.dev ∧ t.dev.aon = s.dev.aon ∧ t.dev.render = s.dev.render ∧ t.dev.dom = s.dev.dom ∧ t.dev.chain = s.dev.chain ∧
        t.dev.fw.restart.map (·.cause) = some (match c with | .controlProcessorFault cause => cause | _ => 2)) ∧
    (s.dev.hif.ctrlUp = false ∨ s.dev.hif.restarting = true → exec .watchdog s = .next (after s (quiet s)) ∧
      ∀ cause, exec (.controlProcessorFault cause) s = .next (after s (quiet s))) ∧
    (∀ r, s.dev.fw.restart = some r → s.dev.hif.restarting = true → ∃ t, exec .ctrlRestartComplete s = .next t ∧
      t.dev.hif.deviceEpoch = s.dev.hif.deviceEpoch + 1 ∧ t.dev.hif.ctrlRestarts = s.dev.hif.ctrlRestarts + 1 ∧ t.dev.fw.restart = none ∧
      t.dev.hif.ctrlUp = true ∧ t.dev.hif.restarting = false ∧ (∀ n, n < 24 → dmaStopped (getDma t.dev (8 + n)).state = true) ∧
      mode t.dev = mode s.dev) ∧
    (s.dev.fw.resetPending = [] → exec .deferredResetBegin s = .next (after s (quiet s))) ∧
    (∀ r rest, s.dev.fw.resetPending = r :: rest → let d : Dev := { quiet s with fw := { s.dev.fw with resetPending := rest } }
      exec .deferredResetBegin s = .next (after s (match r with
        | .warm cause => warmResetOp d cause
        | .ctrlRestart => controlFault d 5
        | .domain i => pdResetBegin d i)))

/-- RETAIN is left by its wake alone, a transition that has begun completes in the mode asked for, a switching power domain is then
on or off as it was asked to be.
That PERST_N leaves the MSI-X table masked and empty is PCI Express's default, the model's choice (log entry 24). -/
def Obligations.ModesAndPowerDomainsChange : Prop :=
  ∀ (s : State),
    (∀ pin dbl : Bool, s.dev.fw.mode = .retain → s.dev.fw.changing = none →
      ((pin = true ∧ s.dev.aon.wakeEn.getLsbD 0 = true) ∨ (dbl = true ∧ s.dev.aon.wakeEn.getLsbD 1 = true ∧ s.dev.hif.dblH2D.getLsbD 31 = true) →
        ∃ t, exec (.wake pin dbl) s = .next t ∧ t.dev.aon.cause = 5 ∧ mode t.dev = .retain ∧
          t.dev.fw.changing = some { target := .config, cause := 2, asked := none } ∧ t.dev.power.on = s.dev.power.on ∧
          t.dev.power.switching = (t.dev.power.en ^^^ s.dev.power.on) ||| (pdResets s.dev.power &&& t.dev.power.en)) ∧
      (pin = false → dbl = false → exec (.wake pin dbl) s = .next (after s (quiet s)))) ∧
    (∀ (c : ModeChange) (timedOut : Bool), s.dev.fw.changing = some c → s.dev.hif.ctrlUp = true →
      (c.target = .twin → s.dev.twin.state = .linking → exec (.modeTransitionComplete timedOut) s = .next (after s (quiet s))) ∧
      ((c.target = .twin → s.dev.twin.state ≠ .linking) → ∃ t, exec (.modeTransitionComplete timedOut) s = .next t ∧ mode t.dev = c.target ∧
        t.dev.fw.prevMode = s.dev.fw.mode ∧ t.dev.fw.changing = none ∧ t.dev.hif.irqMode = true ∧ t.dev.hif.ctrlUp = (c.target != .retain) ∧
        (c.target = .safe → t.dev.hif.fault.getLsbD 1 = true))) ∧
    (∀ pd : Fin 16, let b : Half := BitVec.ofNat 16 (2 ^ pd.val)
      (s.dev.power.switching.getLsbD pd.val = false → exec (.powerDomainSwitch pd) s = .next (after s (quiet s))) ∧
      (s.dev.power.switching.getLsbD pd.val = true → ∃ t, exec (.powerDomainSwitch pd) s = .next t ∧
        t.dev.power = { en := s.dev.power.en, switching := s.dev.power.switching &&& ~~~b,
                        on := if s.dev.power.en.getLsbD pd.val then s.dev.power.on ||| b else s.dev.power.on &&& ~~~b })) ∧
    (pdOn s.dev 2 = true → ∀ c, c = .pcieReset ∨ c = .perstN → ∃ t, exec c s = .next t ∧
      (∀ n, n < 8 → (getDma t.dev n).state = .aborted ∧ (tabGet t.dev.net.rings n).ctrl = (tabGet s.dev.net.rings n).ctrl &&& 0xFFFFFFFE) ∧
      (∀ n, n ∈ [0, 1, 2, 3, 6, 7] → getSession t.dev n = {} ∧ (getMbx t.dev n).outFifo = [] ∧ (getMbx t.dev n).epoch = (getMbx s.dev n).epoch + 1) ∧
      getSession t.dev 4 = getSession s.dev 4 ∧ getSession t.dev 5 = getSession s.dev 5 ∧ mode t.dev = mode s.dev ∧ t.dev.render = s.dev.render ∧ t.dev.dom = s.dev.dom ∧
      (c = .perstN → t.dev.hif.msixMask = 0xFFFF ∧ t.dev.hif.msixTable = [])) ∧
    (∃ t, exec .slotEraseComplete s = .next t ∧ t.dev.flash = s.dev.flash ∧ t.dev.fw.commits = s.dev.fw.commits ∧
      t.dev.fw.waits = s.dev.fw.waits.filter (fun w => match w.what with | .slotErase _ => false | _ => true))

/-! Rate domains and the render period (chapters 01, 02). -/

/-- A boundary of a domain that runs: DT is brought to it, MT goes to the next multiple of 16, and what was measured there is held.
In ACQUIRE MT stays and the blocks within 100 ns of a valid reference are counted. -/
def Obligations.BoundariesAdvanceMediaTime : Prop :=
  ∀ (n : Fin 3) (m : Boundary) (s : State),
    (domRuns (getDom s.dev n.val).state = true → ∃ t, exec (.domainBoundary n m) s = .next t ∧
      (getDom t.dev n.val).mt = (((getDom s.dev n.val).mt &&& 0xFFFFFFF0#32) + 16) ∧ (getDom t.dev n.val).dt = m.dt ∧ (getDom t.dev n.val).phase = m.phase ∧
      t.dev.time.dt = (if s.dev.time.dt.toNat < m.dt.toNat then m.dt else s.dev.time.dt)) ∧
    ((getDom s.dev n.val).state = .acquire → (getDom s.dev n.val).closing = none → ∃ t, exec (.domainBoundary n m) s = .next t ∧
      (getDom t.dev n.val).mt = (getDom s.dev n.val).mt ∧ (getDom t.dev n.val).state = .acquire ∧
      (getDom t.dev n.val).within =
        (if refValid s.dev n.val (getDom s.dev n.val).cfg = true ∧ m.phase.natAbs ≤ 100 then (getDom s.dev n.val).within + 1 else 0) ∧
      t.dev.scene = s.dev.scene ∧ t.dev.render = s.dev.render)

/-- The changes of a domain's state between boundaries: ACQUIRE locks after 64 blocks within 100 ns and seeds MT from DT by the rate and
the reference's family, HOLDOVER and ACQUIRE set their flags when their time is over, SLEWING clears, the closing period clears its
sample state and ends, a realigned domain enters ACQUIRE with its settings to come. -/
def Obligations.DomainsLockCloseAndRealign : Prop :=
  ∀ (n : Fin 3) (s : State),
    let x := getDom s.dev n.val
    let same : State := after s (quiet s)
    (∀ dt : DT, (x.state = .acquire → 64 ≤ x.within → slaved s.dev = false → ∃ t, exec (.domainLock n dt) s = .next t ∧
        (getDom t.dev n.val).state = .locked ∧ (getDom t.dev n.val).dt = dt ∧
        let m' := if x.cfg.source = 2 ∧ x.cfg.flags.getLsbD 1 = true then rateM x.cfg.rate else 1
        (getDom t.dev n.val).mt = BitVec.ofNat 32 (m' * (dt.toNat * x.cfg.rate / (m' * 1000000000))) ∧
        (∀ k, k ≠ n.val → getDom t.dev k = getDom s.dev k)) ∧
      (x.state ≠ .acquire ∨ x.within < 64 ∨ slaved s.dev = true → exec (.domainLock n dt) s = .next same)) ∧
    (x.state = .acquire → refValid s.dev n.val x.cfg = true →
      exec (.acquireTimeout n) s = .next (after s (domMod (quiet s) n.val (fun y => { y with acquireTimeout := true })))) ∧
    (x.state = .holdover → mode s.dev ≠ .singleRate → s.dev.fw.changing = none →
      exec (.holdoverExpired n) s = .next (after s (domMod (quiet s) n.val (fun y => { y with holdoverExpired := true })))) ∧
    (x.state = .locked → 64 ≤ x.within → exec (.slewingClear n) s = .next (after s (domMod (quiet s) n.val (fun y => { y with slewing := false })))) ∧
    (x.closing = none → exec (.closingStateClear n) s = .next same ∧ exec (.realignComplete n) s = .next same) ∧
    (∀ c, x.closing = some c →
      (c.cleared = false → (c.counts = true → mtGe x.mt (c.b + 16) = true) → exec (.closingStateClear n) s =
        .next (after s (domMod (stageClear (bridgesFill (quiet s) n.val) n.val) n.val (fun y => { y with closing := some { c with cleared := true }, rendered := false })))) ∧
      (x.state = .realign → (c.counts = true → mtGe x.mt (c.b + 32) = true) → ∃ t, exec (.realignComplete n) s = .next t ∧
        (getDom t.dev n.val).state = .acquire ∧ (getDom t.dev n.val).closing = none ∧ (getDom t.dev n.val).cfg = x.nextCfg.getD x.cfg ∧
        (getDom t.dev n.val).rendered = false) ∧
      (c.counts = true → mtGe x.mt (c.b + 32) = false → exec (.realignComplete n) s = .next same))

/-- The render period: its block is published once, 16 samples for each chain column of the domain up to the period's boundary and none
for a column of another domain; a window cut records what it leaves and counts an overrun where anything was left; a tracking block that
finds no core free in the chain window is skipped and cuts nothing; the ramp of a
column starts after four clean blocks; matrix groups and the scheduler move tasks. -/
def Obligations.PeriodsPublishTheirBlocks : Prop :=
  ∀ (n : Fin 3) (s : State),
    let r := getRender s.dev n.val
    (r.active = false ∨ r.published = true → exec (.blockPublish n) s = .next (after s (quiet s))) ∧
    (r.active = true → r.published = false → ∃ t, exec (.blockPublish n) s = .next t ∧ (getRender t.dev n.val).published = true ∧
      (getRender t.dev n.val).b = r.b ∧ (getRender t.dev n.val).mixes = [] ∧
      (∀ c, chainOf s.dev n.val c = true → (tabGet t.dev.render.cols c).next = r.b) ∧
      (∀ c, chainOf s.dev n.val c = false → tabGet t.dev.render.cols c = tabGet s.dev.render.cols c)) ∧
    (∀ (w : Fin 8) (missed : List Nat), r.active = true → r.published = false → w.val ∉ r.cut → ∃ t, exec (.windowDeadline n w missed) s = .next t ∧
      let cut := if w.val = 4 then missed.filter (fun i => decide (i ≠ 32)) else missed
      (getRender t.dev n.val).cut = r.cut ++ [w.val] ∧ (getRender t.dev n.val).missed = r.missed ++ cut.map (fun i => (w.val, i)) ∧
      t.dev.track = (if w.val = 4 ∧ 32 ∈ missed ∧ trackDom s.dev = some n.val then { s.dev.track with late := true } else s.dev.track) ∧
      (cut ≠ [] → tabGet t.dev.fw.stageOverrun n.val = cInc (tabGet s.dev.fw.stageOverrun n.val)) ∧
      (cut = [] → w.val ≠ 1 → w.val ≠ 4 → t.dev.fw.stageOverrun = s.dev.fw.stageOverrun ∧ t.dev.scene = s.dev.scene)) ∧
    (∀ c k, c < 640 → colDomOf s.dev c = some k → (tabGet s.dev.render.gates c).phase = .zero → 4 ≤ (tabGet s.dev.render.gates c).clean →
      exec (.columnRampIn c) s = .next (after s { quiet s with render := { s.dev.render with gates := (tabSet s.dev.render.gates c
        { phase := .ramp, t := if (getRender s.dev k).published then (getRender s.dev k).b else (getRender s.dev k).b - 16 }) } })) ∧
    (∀ g : Fin 20, domRenders s.dev n.val = true →
      exec (.matrixGroupComplete n g) s = .next (after s (tilesMod (quiet s) (fun T => schedTick (schedEvent T n.val (0xF100 + g.val)))))) ∧
    (∀ (tile : Fin 8) (i c : Nat) (is cs : List Nat), pdOn s.dev 1 = true → pdOn s.dev (10 + tile.val / 2) = true →
      s.dev.tiles.sched.ctrl.getLsbD 16 = true → readyOrder s.dev.tiles.sched tile.val = i :: is → idleCores s.dev.tiles tile.val = c :: cs →
      ∃ t, exec (.taskDispatch tile) s = .next t ∧ (getTask t.dev.tiles i).state = .running ∧ (getTask t.dev.tiles i).core = c ∧
        getCore t.dev.tiles c = fetchReturn (getCore s.dev.tiles c) ((getCore s.dev.tiles c).fetching.getD 0) (descAddr i) ∧
        (∀ k, k ≠ c → getCore t.dev.tiles k = getCore s.dev.tiles k) ∧ t.dev.tiles.mem = s.dev.tiles.mem)

/-! DSP cores (chapter 10). -/

/-- The vector words, issued alone: each lane of VD from the same lane of VA, VB and VD; a result outside 32 bits is saturated where SAT
is set, else wrapped, and sets SATF; every other register, memory and core stays. -/
def Obligations.VectorWordsComputeLanes : Prop :=
  ∀ (core : Fin 64) (i : Issue) (s : State), issues s core i → isPair i.w = false →
    let c := getCore s.dev.tiles core.val
    let w := i.w
    let sh := fld w 9 5
    let fits (v : Int) : Bool := decide (-2147483648 ≤ v) && decide (v ≤ 2147483647)
    let narrow (v : Int) : Word := BitVec.ofInt 32 (if bit w.toNat 10 then max (-2147483648) (min 2147483647 v) else v)
    let lane (x : DspCore) (r j : Nat) : Word := tabGet x.v (8 * r + j)
    let gives (fn : Nat) (row : Instr) (f : Word → Word → Word → Word) (ovf : Word → Word → Bool) : Prop := isVV fn w = true →
      ∃ x : DspCore, exec row s = .next (coreGives s core i (advance c 1 x)) ∧
        (∀ j, j < 8 → lane x (fld w 25 21) j = f (lane c (fld w 20 16) j) (lane c (fld w 15 11) j) (lane c (fld w 25 21) j)) ∧
        (∀ r j, j < 8 → r ≠ fld w 25 21 → lane x r j = lane c r j) ∧
        x = { c with v := x.v, satf := c.satf || (List.range 8).any (fun j => ovf (lane c (fld w 20 16) j) (lane c (fld w 15 11) j)) }
    let never : Word → Word → Bool := fun _ _ => false
    gives 0x00 (.vadd core i) (fun a b _ => narrow (a.toInt + b.toInt)) (fun a b => !fits (a.toInt + b.toInt)) ∧
    gives 0x01 (.vsub core i) (fun a b _ => narrow (a.toInt - b.toInt)) (fun a b => !fits (a.toInt - b.toInt)) ∧
    gives 0x02 (.vmin core i) (fun a b _ => if b.toInt < a.toInt then b else a) never ∧
    gives 0x03 (.vmax core i) (fun a b _ => if a.toInt < b.toInt then b else a) never ∧
    gives 0x04 (.vabs core i) (fun a _ _ => narrow (a.toInt.natAbs : Int)) (fun a _ => !fits (a.toInt.natAbs : Int)) ∧
    gives 0x05 (.vneg core i) (fun a _ _ => narrow (-a.toInt)) (fun a _ => !fits (-a.toInt)) ∧
    gives 0x06 (.vand core i) (fun a b _ => a &&& b) never ∧
    gives 0x07 (.vor core i) (fun a b _ => a ||| b) never ∧
    gives 0x08 (.vxor core i) (fun a b _ => a ^^^ b) never ∧
    gives 0x09 (.vshl core i) (fun a _ _ => narrow (a.toInt * 2 ^ sh)) (fun a _ => !fits (a.toInt * 2 ^ sh)) ∧
    gives 0x0A (.vasr core i) (fun a _ _ => a.sshiftRight sh) never ∧
    gives 0x0B (.vrsr core i) (fun a _ _ => BitVec.ofInt 32 (shrRne a.toInt sh)) never ∧
    gives 0x0C (.vlsr core i) (fun a _ _ => a >>> sh) never ∧
    gives 0x0D (.vmov core i) (fun a _ _ => a) never ∧
    gives 0x0F (.vcmplt core i) (fun a b _ => if a.toInt < b.toInt then 0xFFFFFFFF#32 else 0) never ∧
    gives 0x10 (.vsel core i) (fun a b d => if d = 0 then b else a) never ∧
    (isVV 0x0E w = true → ∃ x : DspCore, exec (.valign core i) s = .next (coreGives s core i (advance c 1 x)) ∧
      (∀ j, j < 8 → lane x (fld w 25 21) j =
        if j + sh % 8 < 8 then lane c (fld w 20 16) (j + sh % 8) else lane c (fld w 15 11) (j + sh % 8 - 8)) ∧
      (∀ r j, j < 8 → r ≠ fld w 25 21 → lane x r j = lane c r j) ∧ x = { c with v := x.v })

/-- The accumulator words and EXT, issued alone: each lane of AD is the exact value modulo 2^80, AOVF is set where one lies outside; the
products take VB as signed or unsigned and one lane of it or all; EXT rounds and narrows an accumulator into VD. -/
def Obligations.AccumulatorWordsAreExact : Prop :=
  ∀ (core : Fin 64) (i : Issue) (s : State), issues s core i → isPair i.w = false →
    let c := getCore s.dev.tiles core.val
    let w := i.w
    let acc (x : DspCore) (r j : Nat) : BitVec 80 := tabGet x.a (8 * r + j)
    let vec (r j : Nat) : Word := tabGet c.v (8 * r + j)
    let prod (j : Nat) : Int :=
      let b := vec (fld w 17 13) (if bit w.toNat 9 then fld w 8 6 else j)
      (vec (fld w 22 18) j).toInt * (if bit w.toNat 5 then (b.toNat : Int) else b.toInt)
    let src (j : Nat) : Int := (acc c (fld w 12 10) j).toInt
    let dst (j : Nat) : Int := (acc c (fld w 25 23) j).toInt
    let fits (v : Int) : Bool := decide (-(2 : Int) ^ 79 ≤ v) && decide (v < (2 : Int) ^ 79)
    let gives (fn : Nat) (row : Instr) (f : Nat → Int) : Prop := isAC fn w = true →
      ∃ x : DspCore, exec row s = .next (coreGives s core i (advance c 1 x)) ∧
        (∀ j, j < 8 → acc x (fld w 25 23) j = BitVec.ofInt 80 (f j)) ∧
        (∀ r j, j < 8 → r ≠ fld w 25 23 → acc x r j = acc c r j) ∧
        x = { c with a := x.a, aovf := c.aovf || (List.range 8).any (fun j => !fits (f j)) }
    gives 0 (.amul core i) prod ∧
    gives 1 (.amac core i) (fun j => src j + prod j) ∧
    gives 2 (.amsu core i) (fun j => src j - prod j) ∧
    gives 3 (.aadd core i) (fun j => dst j + src j) ∧
    gives 4 (.aclr core i) (fun _ => 0) ∧
    gives 5 (.ald core i) (fun j => (vec (fld w 22 18) j).toInt * 2 ^ fld w 17 13) ∧
    gives 6 (.asum core i) (fun j => if j = 0 then ((List.range 8).map src).sum else 0) ∧
    gives 7 (.amov core i) src ∧
    (isRX w = true →
      let v (j : Nat) : Int := shrRne (acc c (fld w 20 18) j).toInt (fld w 17 12)
      ∃ x : DspCore, exec (.ext core i) s = .next (coreGives s core i (advance c 1 x)) ∧
        (∀ j, j < 8 → tabGet x.v (8 * fld w 25 21 + j) =
          BitVec.ofInt 32 (if bit w.toNat 11 then max (-2147483648) (min 2147483647 (v j)) else v j)) ∧
        (∀ r j, j < 8 → r ≠ fld w 25 21 → tabGet x.v (8 * r + j) = vec r j) ∧
        x = { c with v := x.v, satf := c.satf || (List.range 8).any (fun j => decide (v j < -2147483648) || decide (2147483647 < v j)) })

/-- The scalar words, issued alone: SD takes the value, and nothing else changes. -/
def Obligations.ScalarWordsComputeSD : Prop :=
  ∀ (core : Fin 64) (i : Issue) (s : State), issues s core i → isPair i.w = false →
    let c := getCore s.dev.tiles core.val
    let w := i.w
    let a := tabGet c.s (fld w 21 18)
    let b := tabGet c.s (fld w 17 14)
    let imm : Word := BitVec.ofInt 32 (sext 16 (fld w 15 0))
    let gives (own : Word → Bool) (row : Instr) (v : Word) : Prop := own w = true →
      exec row s = .next (coreGives s core i (advance c 1 { c with s := tabSet c.s (fld w 25 22) v }))
    gives (isSR 0) (.add core i) (a + b) ∧ gives (isSR 1) (.sub core i) (a - b) ∧ gives (isSR 2) (.and core i) (a &&& b) ∧
    gives (isSR 3) (.or core i) (a ||| b) ∧ gives (isSR 4) (.xor core i) (a ^^^ b) ∧ gives (isSR 5) (.shl core i) (a <<< (b.toNat % 32)) ∧
    gives (isSR 6) (.asr core i) (a.sshiftRight (b.toNat % 32)) ∧ gives (isSR 7) (.lsr core i) (a >>> (b.toNat % 32)) ∧
    gives (isSR 8) (.mul core i) (a * b) ∧ gives (isSR 9) (.slt core i) (if a.slt b then 1 else 0) ∧
    gives (isSR 10) (.sltu core i) (if a.ult b then 1 else 0) ∧ gives (isOpc 5) (.addi core i) (a + imm) ∧ gives (isOpc 6) (.movi core i) imm ∧
    gives (isOpc 7) (.movhi core i) ((BitVec.ofNat 32 (fld w 15 0) <<< 16) ||| (tabGet c.s (fld w 25 22) &&& 0xFFFF))

/-- The transfers between register files, issued alone, with the special registers: MTS clears sticky flags of STATUS that are written 0
and writes XVEC, and has no other effect; MFS of CYCLE_LO latches CYCLE_HI. -/
def Obligations.TransfersMoveOneRegister : Prop :=
  ∀ (core : Fin 64) (i : Issue) (s : State), issues s core i → isPair i.w = false →
    let c := getCore s.dev.tiles core.val
    let d := fld i.w 25 21
    let f := fld i.w 20 16
    let ln := fld i.w 15 13
    let gives (fn : Nat) (row : Instr) (x : DspCore) : Prop := isXF fn i.w = true → exec row s = .next (coreGives s core i (advance c 1 x))
    gives 0 (.mtp core i) { c with p := tabSet c.p d (tabGet c.s f) } ∧ gives 1 (.mfp core i) { c with s := tabSet c.s d (tabGet c.p f) } ∧
    gives 2 (.mtn core i) { c with n := tabSet c.n d (tabGet c.s f) } ∧ gives 3 (.mfn core i) { c with s := tabSet c.s d (tabGet c.n f) } ∧
    gives 4 (.mtl core i) { c with l := tabSet c.l d (tabGet c.s f) } ∧ gives 5 (.mfl core i) { c with s := tabSet c.s d (tabGet c.l f) } ∧
    gives 6 (.vins core i) { c with v := tabSet c.v (8 * d + ln) (tabGet c.s f) } ∧
    gives 7 (.vext core i) { c with s := tabSet c.s d (tabGet c.v (8 * f + ln)) } ∧
    (isXF 8 i.w = true → ∃ x : DspCore, exec (.vbc core i) s = .next (coreGives s core i (advance c 1 x)) ∧
      (∀ j, j < 8 → tabGet x.v (8 * d + j) = tabGet c.s f) ∧ (∀ r j, j < 8 → r ≠ d → tabGet x.v (8 * r + j) = tabGet c.v (8 * r + j)) ∧
      x = { c with v := x.v }) ∧
    (d = 1 → gives 9 (.mts core i) { c with satf := c.satf && (tabGet c.s f).getLsbD 0, aovf := c.aovf && (tabGet c.s f).getLsbD 1 }) ∧
    (d = 2 → gives 9 (.mts core i) { c with xvec := tabGet c.s f }) ∧ (d ≠ 1 → d ≠ 2 → gives 9 (.mts core i) c) ∧
    (f ≠ 6 → gives 10 (.mfs core i) { c with s := tabSet c.s d (match f with
      | 0 => BitVec.ofNat 32 core.val
      | 1 => BitVec.ofNat 32 (32 * c.rpt.length + 2 * b2n c.aovf + b2n c.satf)
      | 2 => c.xvec
      | 3 => BitVec.ofNat 32 c.cause
      | 4 => c.xpc
      | 5 => c.xaddr
      | 7 => c.cycleHi
      | _ => c.task) }) ∧
    (f = 6 → let t := (c.cycle + i.cycles) % 2 ^ 64
      gives 10 (.mfs core i) { c with s := tabSet c.s d (BitVec.ofNat 32 t), cycleHi := BitVec.ofNat 32 (t / 2 ^ 32) })

/-- Loads and stores, issued alone: where the access is fine, a load brings the words at its lane addresses, a store changes the bytes
of its lanes and no other; the address register is then modified as its mode says.  LDB loads one word into every lane (log entry 12). -/
def Obligations.LoadsAndStoresAccessTheirLanes : Prop :=
  ∀ (core : Fin 64) (i : Issue) (s : State), issues s core i →
    let c := getCore s.dev.tiles core.val
    let T := s.dev.tiles
    let w := i.w
    let a := mAddr c w
    let post : DspCore := { c with p := match a.post with
      | some (k, v) => tabSet c.p k v
      | none => c.p }
    let r := fld w 25 21
    mAccess T core.val c w i.loadBad = .fine →
    (isOpc 0x12 w = true → exec (.lds core i) s = .next (coreGives s core i (advance c 1 { post with s := tabSet c.s r (coreWord T core.val a.ea) }))) ∧
    (∀ row, (isOpc 0x10 w = true ∧ row = .ldv core i) ∨ (isOpc 0x14 w = true ∧ row = .ldb core i) →
      ∃ x : DspCore, exec row s = .next (coreGives s core i (advance c 1 x)) ∧
        (∀ j, j < 8 → tabGet x.v (8 * r + j) = coreWord T core.val (if isOpc 0x10 w then a.lanes.getD j 0 else a.ea)) ∧
        (∀ q j, j < 8 → q ≠ r → tabGet x.v (8 * q + j) = tabGet c.v (8 * q + j)) ∧ x = { post with v := x.v }) ∧
    (∀ row, (isOpc 0x11 w = true ∧ row = .stv core i) ∨ (isOpc 0x13 w = true ∧ row = .sts core i) → ∃ t, exec row s = .next t ∧
      t.dev.tiles.cores = (coreLeft T core i (advance c 1 post)).cores ∧ t.dev.tiles.sched.tasks = T.sched.tasks ∧ t.dev.tiles.notes = [] ∧
      (∀ x, (∀ l tg d, l ∈ a.lanes → coreTarget core.val l.toNat = some (tg, d) → ¬ (d ≤ x ∧ x < d + 4)) → memRead t.dev.tiles.mem x = memRead T.mem x) ∧
      (isOpc 0x13 w = true → memWf T.mem = true → ∀ tg d, coreTarget core.val a.ea.toNat = some (tg, d) → mirrorOff d = none →
        ∀ k, k < 4 → memRead t.dev.tiles.mem (d + k) = BitVec.ofNat 8 ((tabGet c.s r).toNat / 2 ^ (8 * k)))) ∧
    (isOpc 0x10 w = true ∨ isOpc 0x11 w = true → bit w.toNat 12 = false → a.lanes = (List.range 8).map (fun j => a.ea + BitVec.ofNat 32 (4 * j)))

/-- Control flow, issued alone: a branch that is taken leads to its target and ends the repeats that do not hold it; CALL and CALLR leave
the address after them in S15; REP pushes a level, is skipped with count 0, and does nothing with count 1. -/
def Obligations.ControlWordsLeadToTheirTargets : Prop :=
  ∀ (core : Fin 64) (i : Issue) (s : State), issues s core i → isPair i.w = false →
    let c := getCore s.dev.tiles core.val
    let w := i.w
    let goes (x : DspCore) (t : Word) : State := coreGives s core i { x with pc := t, rpt := popBranch t c.rpt }
    let target : Word := c.pc + BitVec.ofInt 32 (sext 16 (fld w 15 0) * 4)
    let called : DspCore := { c with s := tabSet c.s 15 (c.pc + 4) }
    (isSR 11 w = true → exec (.jr core i) s = .next (goes c (tabGet c.s (fld w 21 18)))) ∧
    (isSR 12 w = true → exec (.callr core i) s = .next (goes called (tabGet c.s (fld w 21 18)))) ∧
    (isOpc 10 w = true → exec (.call core i) s = .next (goes called target)) ∧
    (isOpc 9 w = true → exec (.br core i) s = .next (if brHolds (fld w 21 19) (tabGet c.s (fld w 25 22)) then goes c target
      else coreGives s core i (advance c 1 c))) ∧
    (isOpc 11 w = true →
      let n := if bit w.toNat 25 then (tabGet c.s (fld w 16 13)).toNat else fld w 24 13
      let stop : Word := c.pc + 4 + BitVec.ofNat 32 (4 * (fld w 12 0 - 1))
      isPair (coreWord s.dev.tiles core.val stop) = false →
      (n = 1 → exec (.rep core i) s = .next (coreGives s core i (advance c 1 c))) ∧
      (n = 0 → exec (.rep core i) s = .next (coreGives s core i
        (let q := rptEnd [stop] (stop + 4) c.rpt; { c with pc := q.1, rpt := q.2 }))) ∧
      (2 ≤ n → c.rpt.length < 4 → exec (.rep core i) s =
        .next (coreGives s core i { c with pc := c.pc + 4, rpt := { start := c.pc + 4, stop := stop, count := n } :: c.rpt })))

/-- The system words, issued alone: NOP and, with every store done, SYNC only advance; TFETCH blocks the core until a task is dispatched;
TDONE ends the core's task; TRAP is exception 4. -/
def Obligations.SystemWordsTakeEffect : Prop :=
  ∀ (core : Fin 64) (i : Issue) (s : State), issues s core i → isPair i.w = false →
    let c := getCore s.dev.tiles core.val
    (isSys 0 i.w = true → exec (.nop core i) s = .next (coreGives s core i (advance c 1 c))) ∧
    (isSys 1 i.w = true → exec (.tfetch core i) s =
      .next (coreGives s core i (advance c 1 { c with fetching := some (fld i.w 25 22), fetched := true }))) ∧
    (isSys 3 i.w = true → c.failed = none → exec (.sync core i) s = .next (coreGives s core i (advance c 1 c))) ∧
    (isSys 2 i.w = true → c.failed = none → exec (.tdone core i) s =
      .next (after s (tilesMod (quiet s) (fun T => taskDone (coreLeft T core i (advance c 1 c)) core.val (tabGet c.s (fld i.w 21 18)).toNat))) ∧
      ∀ t, exec (.tdone core i) s = .next t → (getCore t.dev.tiles core.val).task = 0 ∧ t.dev.tiles.mem = s.dev.tiles.mem ∧
        (c.task ≠ 0 → let k := descIx c.task; (getTask s.dev.tiles k).used = true → (getTask s.dev.tiles k).state = .running →
          (getTask s.dev.tiles k).core = core.val → (getTask t.dev.tiles k).state = .done ∧ (getTask t.dev.tiles k).outcome = .ok)) ∧
    (isSys 4 i.w = true → c.failed = none → ∃ t, exec (.trap core i) s = .next t ∧
      getCore t.dev.tiles core.val = { c with cycle := (c.cycle + i.cycles) % 2 ^ 64, cause := 4, xpc := c.pc, xaddr := tabGet c.s (fld i.w 21 18),
                                              rpt := [], pc := c.xvec, task := 0 } ∧
      tabGet t.dev.tiles.sched.coreFault (core.val / 8) = tabGet s.dev.tiles.sched.coreFault (core.val / 8) + 1 ∧
      (∀ k, k ≠ core.val → getCore t.dev.tiles k = getCore s.dev.tiles k) ∧ t.dev.tiles.mem = s.dev.tiles.mem)

/-- A pair of a slot-A word and a slot-M word that raises nothing: both read the registers as they were, the A results are written first
and the M results after, and PC passes both words.  (Rows of slot A other than branches, REP, TDONE; what raises is elsewhere.) -/
def Obligations.PairsReadBeforeTheyWrite : Prop :=
  ∀ (core : Fin 64) (i : Issue) (s : State) (row : Instr) (own : Word → Bool) (eff : Word → DspCore → AOut),
    (row, own, eff) ∈ ([(.vadd core i, isVV 0, effVadd), (.vsub core i, isVV 1, effVsub), (.vmov core i, isVV 13, effVmov),
      (.valign core i, isVV 14, effValign), (.vsel core i, isVV 16, effVsel), (.amac core i, isAC 1, effAmac), (.asum core i, isAC 6, effAsum),
      (.ext core i, isRX, effExt), (.sub core i, isSR 1, effSub), (.mul core i, isSR 8, effMul), (.addi core i, isOpc 5, effAddi),
      (.movhi core i, isOpc 7, effMovhi), (.mtp core i, isXF 0, effMtp), (.mfp core i, isXF 1, effMfp), (.vins core i, isXF 6, effVins),
      (.vbc core i, isXF 8, effVbc), (.mts core i, isXF 9, effMts), (.mfs core i, isXF 10, effMfs core.val), (.nop core i, isSys 0, effNop)] :
      List (Instr × (Word → Bool) × (Word → DspCore → AOut))) → own i.w = true →
    issues s core i → isPair i.w = true →
    let c := { getCore s.dev.tiles core.val with cycle := ((getCore s.dev.tiles core.val).cycle + i.cycles) % 2 ^ 64 }
    let T := s.dev.tiles
    mAccess T core.val c i.next i.loadBad = .fine → ∃ t, exec row s = .next t ∧
      getCore t.dev.tiles core.val = advance c 2 (mRegs T core.val c (eff i.w c).core i.next) ∧
      (∀ k, k ≠ core.val → getCore t.dev.tiles k = getCore T k) ∧
      (∀ x, (isStore i.next = false ∨ ∀ l tg d, l ∈ (mAddr c i.next).lanes → coreTarget core.val l.toNat = some (tg, d) → ¬ (d ≤ x ∧ x < d + 4)) →
        memRead t.dev.tiles.mem x = memRead T.mem x)

/-- What a pair raises before it does anything: cause 1 where a word is not fetched, cause 2 where it is illegal, cause 5 for a
misaligned access; and the response of a failed store, cause 8.  The core goes to XVEC with its cause, address and PC kept, its task is
FAULTED, its tile's CORE_FAULT is one higher. -/
def Obligations.CoreExceptionsAreTaken : Prop :=
  ∀ (core : Fin 64) (i : Issue) (s : State),
    let c := getCore s.dev.tiles core.val
    let taken (row : Instr) (cause : Nat) (xpc xaddr : Word) (n : Nat) : Prop := ∃ t, exec row s = .next t ∧
      getCore t.dev.tiles core.val = { c with cycle := n, cause := cause, xpc := xpc, xaddr := xaddr, rpt := [], pc := c.xvec, task := 0, failed := none } ∧
      tabGet t.dev.tiles.sched.coreFault (core.val / 8) = tabGet s.dev.tiles.sched.coreFault (core.val / 8) + 1 ∧
      (∀ k, k ≠ core.val → getCore t.dev.tiles k = getCore s.dev.tiles k) ∧ t.dev.tiles.mem = s.dev.tiles.mem ∧
      (let k := descIx c.task; c.task ≠ 0 → (getTask s.dev.tiles k).used = true → (getTask s.dev.tiles k).state = .running →
        (getTask s.dev.tiles k).core = core.val → (getTask t.dev.tiles k).outcome = .faulted)
    let n := (c.cycle + i.cycles) % 2 ^ 64
    pdOn s.dev (10 + core.val / 16) = true → c.fetching = none →
    (∀ addr pc, c.failed = some (addr, pc) → taken (.storeErrorResponse core addr pc) 8 pc addr c.cycle) ∧
    (c.failed = none → isVV 0 i.w = true → fetchFails c i = true → taken (.vadd core i) 1 c.pc 0 n) ∧
    (c.failed = none → isSys 0 i.w = true → fetchFails c i = false → issueMatches s.dev.tiles core.val c i = true → pairIllegal i = true →
      taken (.nop core i) 2 c.pc 0 n) ∧
    (c.failed = none → isOpc 0x12 i.w = true → issues s core i → (mAddr c i.w).ea.toNat % 4 ≠ 0 →
      taken (.lds core i) 5 c.pc (mAddr c i.w).ea n)

/-- A core's instruction changes no other core's registers, nothing of the device outside the tiles but what settling reports, and of
memory only what an open target lets it store to; memory keeps its canonical form. -/
def Obligations.CoreInstructionsStayInTheirCore : Prop :=
  ∀ (own : Word → Bool) (eff : Option (DspCore → AOut)) (core : Fin 64) (i : Issue) (s t : State), coreRow own core i eff s = .next t →
    (∀ k, k ≠ core.val → getCore t.dev.tiles k = getCore s.dev.tiles k) ∧
    t.dev.scene = s.dev.scene ∧ t.dev.dom = s.dev.dom ∧ t.dev.render = s.dev.render ∧ t.dev.mantle = s.dev.mantle ∧ t.dev.chain = s.dev.chain ∧
    t.dev.seam = s.dev.seam ∧ t.dev.net = (quiet s).net ∧ t.dev.ports = s.dev.ports ∧ t.dev.time = s.dev.time ∧ t.dev.flash = s.dev.flash ∧
    t.dev.mbx = s.dev.mbx ∧ t.dev.dma = s.dev.dma ∧ t.dev.aon = s.dev.aon ∧ t.dev.power = s.dev.power ∧ mode t.dev = mode s.dev ∧
    (memWf s.dev.tiles.mem = true → memWf t.dev.tiles.mem = true) ∧
    (∀ x, (∀ a tg d, coreTarget core.val a = some (tg, d) → storeOpen core.val tg = true → ¬ (d ≤ x ∧ x < d + 4)) →
      memRead t.dev.tiles.mem x = memRead s.dev.tiles.mem x)

/-! The DMA engine and the bus matrix (chapter 17). -/

/-- DMA instructions on a channel that runs, without RECORD.  MOVE loads its addresses and stands as a transfer; LOOP returns count − 1
times; WAIT ends at once or waits; SIGNAL sets a doorbell bit or a channel flag; STOP ends the program; a reserved
flag or opcode is BAD_INSTR. -/
def Obligations.DmaInstructionsTakeEffect : Prop :=
  ∀ (ch : Fin 32) (i : DmaIssue) (s : State),
    let n := ch.val
    let c := getDma s.dev n
    let w := slice i.word 0 32
    let put (f : DmaChan → DmaChan) : State := after s (dmaMod (quiet s) n f)
    c.state = .running → c.move = none → i.fetchErr = 0 → (8 ≤ n → dmaDenies s.dev n (dmaPcAddr c) ≠ some 1) →
    (u8 i.word 1 < 8 → bit (u8 i.word 1) 1 = false →
      (u8 i.word 0 = 1 → moveBad n w = false → u32 w 24 ≠ 0 → moveCheck (moveAddrs c w) w = none → exec (.move ch i) s = .next (put (fun c =>
        { moveAddrs c w with move := some { flags := u8 w 1, mflags := u8 w 2, swap := u8 w 3, burst := u8 w 4, line := u8 w 5, total := u32 w 24,
                                            left := u32 w 24 } }))) ∧
      (u8 i.word 0 = 2 → loopBad c w = false → u8 w 2 = 0 →
        let v := if c.act0 = none then u32 w 4 - 1 else c.lc0.toNat
        (u32 w 4 = 0 → exec (.loop ch i) s = .next (put (fun c => { c with wait := none, pc := c.pc - u16 w 8 }))) ∧
        (u32 w 4 ≠ 0 → 0 < v → exec (.loop ch i) s = .next (put (fun c =>
          { c with wait := none, lc0 := BitVec.ofNat 32 (v - 1), act0 := some c.pc, pc := c.pc - u16 w 8 }))) ∧
        (u32 w 4 ≠ 0 → v = 0 → exec (.loop ch i) s = .next (put (fun c => { c with wait := none, lc0 := 0, act0 := none, pc := c.pc + 1 })))) ∧
      (u8 i.word 0 = 3 → waitBad n w = false →
        let x : DmaWait := { flags := u8 w 1, kind := u8 w 2, index := u8 w 3,
                             stop := if u32 w 4 = 0 then none else some (s.dev.time.dt + BitVec.ofNat 64 (1000 * u32 w 4)) }
        (waitHolds s.dev n x false = false → exec (.wait ch i) s = .next (put (fun c => { c with state := .waiting, wait := some x }))) ∧
        (waitHolds s.dev n x false = true → ∃ t, exec (.wait ch i) s = .next t ∧ getDma t.dev n = { c with wait := none, pc := c.pc + 1 } ∧
          (u8 w 2 = 5 → t.dev.dma.flags.getLsbD (u8 w 3) = false) ∧ (u8 w 2 = 2 → t.dev.hif.dblH2D.getLsbD (u8 w 3) = false) ∧
          (u8 w 2 ≠ 5 → t.dev.dma.flags = s.dev.dma.flags) ∧ (u8 w 2 ≠ 2 → t.dev.hif.dblH2D = s.dev.hif.dblH2D))) ∧
      (u8 i.word 0 = 4 → signalBad n w = false → u8 w 2 ≠ 3 → ∃ t, exec (.signal ch i) s = .next t ∧
        getDma t.dev n = { c with wait := none, pc := c.pc + 1 } ∧
        (u8 w 2 = 1 → t.dev.hif.dblD2H = s.dev.hif.dblD2H ||| BitVec.ofNat 32 (2 ^ u8 w 3) ∧ t.dev.dma.flags = s.dev.dma.flags) ∧
        (u8 w 2 = 2 → t.dev.dma.flags = s.dev.dma.flags ||| BitVec.ofNat 32 (2 ^ u8 w 3) ∧ t.dev.hif.dblD2H = s.dev.hif.dblD2H)) ∧
      (u8 i.word 0 = 4 → signalBad n w = false → u8 w 2 = 3 → i.bmeOff = false →
        let a := u64 w 8
        (bit (u8 w 4) 0 = true → exec (.signal ch i) s =
          .next (after s (dmaMod (deposit (quiet s) a (slice w 16 4)) n (fun c => { c with wait := none, pc := c.pc + 1 })))) ∧
        (bit (u8 w 4) 0 = false → dmaDenies s.dev n a = none → exec (.signal ch i) s =
          .next (after s (dmaNext (dmaWriteDev (quiet s) n a (slice w 16 4)) n (u8 w 1) 1 {})))) ∧
      (u8 i.word 0 = 5 → isZero w 2 30 = true → exec (.stop ch i) s =
        .next (put (fun c => { c with wait := none, state := .idle, irq := c.irq ||| 4 })))) ∧
    (c.cqSize = 0 → ∀ row, (8 ≤ u8 i.word 1 ∧ ((u8 i.word 0 = 1 ∧ row = .move ch i) ∨ (u8 i.word 0 = 2 ∧ row = .loop ch i) ∨
      (u8 i.word 0 = 3 ∧ row = .wait ch i) ∨ (u8 i.word 0 = 4 ∧ row = .signal ch i) ∨ (u8 i.word 0 = 5 ∧ row = .stop ch i))) ∨
      ((u8 i.word 0 = 0 ∨ 5 < u8 i.word 0) ∧ row = .move ch i) →
      ∃ t, exec row s = .next t ∧ (getDma t.dev n).state = .error ∧ (getDma t.dev n).lastCode = 8 ∧ (getDma t.dev n).irq = c.irq ||| 2 ∧
        ∀ k, k ≠ n → getDma t.dev k = getDma s.dev k)

/-- A burst of a MOVE from host space into the sample pool writes the bytes it was given at rising addresses and no other byte, moves
both addresses on, and ends the MOVE with its last byte.  A burst out of turn is not issued, and the two queues alternate.  Swap reverses
each unit.
Waits end when their condition is met and are errors of code 7 when their time is over; a host access of 50 ms is an error of
code 5 or 9; the matrix grants one access at once, an access no target takes is reported, and the round goes to the next master up. -/
def Obligations.DmaBurstsWaitsAndGrants : Prop :=
  ((∀ (ch : Fin 32) (b : BurstIn) (s : State) (mv : DmaMove),
     let n := ch.val
     let c := getDma s.dev n
     let k := min mv.burst (mv.left / 4)
     let dst := c.dst.toNat
     c.state = .running → c.move = some mv → mv.line = 0 → mv.swap = 0 → mv.held = [] → mv.mflags = 1 → bit mv.flags 1 = false → 8 ≤ n → 0 < k →
     mv.left % 4 = 0 → 4 * k ≤ b.data.length → b.hostFail = 0 → dst % 4 = 0 → 0x30000000 ≤ dst → dst + 4 * k ≤ 0x32000000 → pdOn s.dev 14 = true →
     memWf s.dev.tiles.mem = true → c.src.toNat + 4 * k < 2 ^ 64 → dmaTurn s.dev.dma (n :: b.others.filter (burstReady s.dev)) = some n →
     ∃ t, exec (.dmaBurst ch b) s = .next t ∧
       (∀ j, j < 4 * k → memRead t.dev.tiles.mem (dst + j) = b.data.getD j 0) ∧
       (∀ x, x < dst ∨ dst + 4 * k ≤ x → memRead t.dev.tiles.mem x = memRead s.dev.tiles.mem x) ∧ memWf t.dev.tiles.mem = true ∧
       (getDma t.dev n).src = c.src + BitVec.ofNat 64 (4 * k) ∧ (getDma t.dev n).dst = c.dst + BitVec.ofNat 64 (4 * k) ∧
       (getDma t.dev n).bytes = c.bytes + BitVec.ofNat 32 (4 * k) ∧
       (mv.left = 4 * k → (getDma t.dev n).move = none ∧ (getDma t.dev n).state = .running ∧ (getDma t.dev n).pc = c.pc + 1) ∧
       (4 * k < mv.left → (getDma t.dev n).move = some { mv with left := mv.left - 4 * k, moved := mv.moved + 4 * k } ∧ (getDma t.dev n).pc = c.pc) ∧
       (∀ m, m ≠ n → getDma t.dev m = getDma s.dev m)) ∧
   (∀ (ch : Fin 32) (b : BurstIn) (s : State), burstReady s.dev ch.val = false ∨
     dmaTurn s.dev.dma (ch.val :: b.others.filter (burstReady s.dev)) ≠ some ch.val → exec (.dmaBurst ch b) s = .next (after s (quiet s))) ∧
   (∀ (q : Dma) (ns : List Nat), (∃ h ∈ ns, h < 8) → (∃ v ∈ ns, 8 ≤ v ∧ v < 32) →
     ∃ m ∈ ns, dmaTurn q ns = some m ∧ m < 32 ∧ (m < 8 ↔ q.devLast = true)) ∧
   (∀ (u : Nat) (bs : List Byte), 0 < u → bs.length % u = 0 → (swapUnits u bs).length = bs.length ∧ swapUnits u (swapUnits u bs) = bs ∧
     ∀ i, i < bs.length → (swapUnits u bs).getD i 0 = bs.getD (u * (i / u) + (u - 1 - i % u)) 0)) ∧
  ((∀ (ch : Fin 32) (s : State),
     let n := ch.val
     let c := getDma s.dev n
     let errs (row : Instr) (code : Nat) : Prop := ∃ t, exec row s = .next t ∧ (getDma t.dev n).state = .error ∧ (getDma t.dev n).lastCode = code ∧
       (getDma t.dev n).move = none ∧ (getDma t.dev n).wait = none ∧ (getDma t.dev n).irq = c.irq ||| 2
     (∀ w, c.wait = some w → c.state = .waiting →
       (waitHolds s.dev n w true = true → exec (.waitConditionMet ch) s = .next (after s (waitEnds (quiet s) n w))) ∧
       (waitHolds s.dev n w true = false → exec (.waitConditionMet ch) s = .next (after s (quiet s))) ∧
       (∀ t, w.stop = some t → waitHolds s.dev n w false = false → c.cqSize = 0 → errs (.waitTimeout ch) 7) ∧
       (∀ t, w.stop = some t → waitHolds s.dev n w false = true → exec (.waitTimeout ch) s = .next (after s (waitEnds (dtTo (quiet s) t) n w)))) ∧
     (c.state = .running → c.cqSize = 0 →
       (∀ mv, c.move = some mv → bit mv.mflags 0 = true → errs (.hostTimeout ch) 5) ∧ (c.move = none → n < 8 → errs (.hostTimeout ch) 9))) ∧
   (∀ (idle : Bool) (q : MatrixReq) (s : State), q.master < 16 → s.dev.mtx.isolated.getLsbD q.master = false →
     (∀ k, mtxTarget q.addr.toNat = some k → mtxReach k q = true → exec (.matrixGrant idle [q]) s =
       .next (after s { quiet s with mtx := { s.dev.mtx with last := tabSet s.dev.mtx.last k (some q.master) } })) ∧
     (mtxTarget q.addr.toNat = none → mtxPrivate s.dev q = false → q.master = 0 ∨ (3 ≤ q.master ∧ q.master ≤ 7) → exec (.matrixGrant idle [q]) s =
       .next (after s (matrixError (quiet s) q.master q.read q.addr)))) ∧
   (∀ (l g : Nat) (ms : List Nat), l < 16 → (∀ m ∈ ms, m < 16) → (mtxRound (some l) ms = some g ↔
     g ∈ ms ∧ ∀ m ∈ ms, (g + 15 - l) % 16 ≤ (m + 15 - l) % 16)))


/-! Work that engines and firmware finish. -/

/-- A fetched region: where it did not arrive, its CRC differs, or it came too late, its request is refused and not judged; otherwise the
request is judged with it, under the mode in which it was taken.  A channel whose region is not among the four that move has nothing to
finish; a bus error there meets the taps that a request of the channel is loading (the model's choice, log entry 133).
Compiled layouts, loaded taps and images, finished tests, and what is released when its ramps have ended. -/
def Obligations.FetchedAndFinishedWorkTakesEffect : Prop :=
  (∀ (ch : Fin 8) (data : List Byte) (s : State),
     (fetchOf s.dev ch.val = none →
       let meets (l : MLoad) (st : Status) : State := after s { quiet s with mantle := { s.dev.mantle with load := some { l with busErr := some st } } }
       exec (.bulkFetchComplete ch data false) s = .next (after s (quiet s)) ∧
       ((∀ l, s.dev.mantle.load = some l → l.asked.map (·.req.ch) ≠ some ch) → exec (.bulkFetchComplete ch data true) s = .next (after s (quiet s)) ∧
         exec (.bulkFetchTimeout ch) s = .next (after s (quiet s))) ∧
       (∀ l, s.dev.mantle.load = some l → l.asked.map (·.req.ch) = some ch → exec (.bulkFetchComplete ch data true) s = .next (meets l .integrity) ∧
         exec (.bulkFetchTimeout ch) s = .next (meets l .timeout))) ∧
     (∀ b, fetchOf s.dev ch.val = some b →
       let d : Dev := { quiet s with fw := { s.dev.fw with bulks := s.dev.fw.bulks.erase b } }
       let bs := slice data 0 b.len
       b ∈ s.dev.fw.bulks ∧ b.taken.req.ch = ch ∧
       (b.live = false → exec (.bulkFetchComplete ch data false) s = .next (after s d)) ∧
       (b.live = true → s.dev.hif.ctrlUp = true →
         exec (.bulkFetchTimeout ch) s = .next (after s (regionFails d b.taken .timeout true)) ∧
         exec (.bulkFetchComplete ch data true) s = .next (after s (regionFails d b.taken .integrity true)) ∧
         (crc32c bs ≠ b.crc → exec (.bulkFetchComplete ch data false) s = .next (after s (regionFails d b.taken .integrity false))) ∧
         (crc32c bs = b.crc → exec (.bulkFetchComplete ch data false) s =
           .next (after s (let r := judgeOf b.taken.op b.taken.req.payload d b.taken (some bs); finish r.1 b.taken (some bs) r.2)))))) ∧
  (∀ (s : State),
     (∀ j l gs, s.dev.scene.job = some j → j.result = none → compileLayout (quiet s) j = .ok (l, gs) →
       (inConfig (mode s.dev) = true → ∃ t, exec .layoutCompileComplete s = .next t ∧ t.dev.scene.layout = some l ∧ t.dev.scene.groups = gs ∧
         t.dev.scene.job = none ∧ t.dev.scene.build = none ∧ t.dev.scene.activeBank = !s.dev.scene.activeBank) ∧
       (inConfig (mode s.dev) = false → ∃ t, exec .layoutCompileComplete s = .next t ∧ t.dev.scene.layout = s.dev.scene.layout ∧
         t.dev.scene.groups = s.dev.scene.groups ∧ t.dev.scene.job.bind (·.result) = some (l, gs))) ∧
     (∀ j e, s.dev.scene.job = some j → j.result = none → compileLayout (quiet s) j = .error e → ∃ t, exec .layoutCompileComplete s = .next t ∧
       t.dev.scene.layout = s.dev.scene.layout ∧ t.dev.scene.cols = s.dev.scene.cols ∧ t.dev.scene.job = none) ∧
     (∀ l, s.dev.mantle.load = some l → l.busErr = none → exec .firLoadComplete s = .next (after s (commitsUnbound (loadFinish (unboundChans
       { quiet s with mantle := { s.dev.mantle with ch := l.chans.foldl (fun t k => tabMod t k (fun c =>
         setExt c (!c.activeB) ((inactive c).map (fun e => { e with done := true })))) s.dev.mantle.ch } }))))) ∧
     (∀ l st, s.dev.mantle.load = some l → l.busErr = some st → ∃ t, exec .firLoadComplete s = .next t ∧ t.dev.mantle.load = none ∧
       t.dev.mantle.loadErr = s.dev.mantle.loadErr + 1 ∧ (∀ m, m ∉ l.chans → getMch t.dev m = getMch s.dev m) ∧
       ∀ m, m ∈ l.chans → l.chans.Nodup → ((inactive (getMch s.dev m)).map (·.state)) = some .loading → ((inactive (getMch t.dev m)).map (·.state)) = some .invalid) ∧
     (∀ slot : Fin 2, (tabGet s.dev.tiles.sched.slots slot.val).state = .loading → ∃ t, exec (.graphLoadComplete slot) s = .next t ∧
       tabGet t.dev.tiles.sched.slots slot.val = { tabGet s.dev.tiles.sched.slots slot.val with state := .loaded } ∧
       t.dev.tiles.mem = (finishLoad s.dev.tiles slot.val).mem ∧ t.dev.fw.waits = s.dev.fw.waits.filter (fun w => w.what != .graphLoad slot.val)) ∧
     (∀ (r : TestResult) (m : Nat), s.dev.selftest.mask = some m → ∃ t, exec (.selftestComplete r) s = .next t ∧ t.dev.selftest = {} ∧
       t.dev.fw.waits = s.dev.fw.waits.filter (fun x => x.what != .selftest)) ∧
     (∀ (c : Nat) (u : Unbind), (getCol s.dev.scene c).unbind = some u →
       let grouped (k : Nat) : Bool := ((getCol s.dev.scene k).unbind.map (·.group)).getD false
       let cols := if u.group then haloCols.filter grouped else [c]
       (cols.all (unbindEnded s.dev) = false → exec (.busUnbindRampEnd c) s = .next (after s (quiet s))) ∧
       (cols.all (unbindEnded s.dev) = true → ∃ t, exec (.busUnbindRampEnd c) s = .next t ∧
         (∀ k v, k ∈ cols → (getCol s.dev.scene k).unbind = some v → (getCol t.dev.scene k).bind = v.dest ∧ (getCol t.dev.scene k).unbind = none) ∧
         ∀ k, k ∉ cols → (getCol t.dev.scene k).bind = (getCol s.dev.scene k).bind)) ∧
     (∀ l, s.dev.scene.layout = some l → s.dev.scene.objs = [] → s.dev.scene.layoutEnd = none → ∃ t, exec .oldLayoutUnbind s = .next t ∧
       t.dev.scene.oldCols = [] ∧ (∀ c, c ∈ s.dev.scene.oldCols → (getCol t.dev.scene c).bind = {}) ∧
       (∀ c, c ∉ s.dev.scene.oldCols → (getCol t.dev.scene c).bind = (getCol s.dev.scene c).bind)) ∧
     (∀ (o : Nat) (e : MT), (getObj s.dev.scene o).disable = some e →
       let n := effDom s.dev (getObj s.dev.scene o).domain
       (mtGe (mtOf s.dev n) e = true ∨ domRenders s.dev n = false) →
         exec (.objectDisableRelease o) s = .next (after s { quiet s with scene := objMod s.dev.scene o releaseObj }) ∧
         (releaseObj (getObj s.dev.scene o)).enabled = false ∧ (releaseObj (getObj s.dev.scene o)).disable = none))


/-! The time unit (chapter 02). -/

/-- PTP messages.  On a slave port the parent's one-step Sync gives the offset receipt − origin − correction − path delay, its two-step Sync
waits for its Follow_Up, its Delay_Resp halves the two differences to the path delay; a master port sends its messages and answers
Delay_Req; messages that are not served, and those of another version, are counted; one of another domain or transport is not heard; a
port that is not enabled does nothing, and nothing is taken or sent while firmware does not run.
The servo.  An offset beyond the step threshold steps DT by it, counts the step and begins ACQUIRING anew; another one moves the
increment within ±500 ppm; eight offsets in a row within the threshold lead from ACQUIRING to SYNCED. -/
def Obligations.PtpMessagesAndTheServoTakeEffect : Prop :=
  (∀ (port : Fin 4) (s : State),
     let d := quiet s
     let p := getPtpPort s.dev port.val
     let c := s.dev.time.ptp.cfg
     let on := ptpEnabled s.dev port.val
     let same : State := after s d
     let heard (h : PtpHeader) : Prop := on = true ∧ s.dev.hif.ctrlUp = true ∧ h.v6 = (c.transport == 1) ∧ h.major = 2 ∧ h.minor ≤ 1 ∧
       h.domainNumber = c.domainNumber
     (on = false ∨ s.dev.hif.ctrlUp = false → (∀ h m, exec (.ptpMessageRx port ⟨h, m⟩) s = .next same) ∧ exec (.announceReceiptTimeout port) s = .next same ∧
       (∀ k, exec (.ptpMessageTx port k) s = .next same) ∧ exec (.delayReqTx port) s = .next same) ∧
     (∀ (h : PtpHeader) (gm : DWord), heard h → h.unicast = false → p.role = .slave → s.dev.time.ptp.parent = some ⟨gm, h.src, port.val⟩ →
       (∀ (seq : Nat) (origin : PtpTime) (corr : Int) (rx : DT),
         exec (.ptpMessageRx port ⟨h, (.sync seq true origin corr rx)⟩) s =
           .next (after s (ptpPortMod d port.val (fun p => { p with pendingSync := some (seq, corr, rx) }))) ∧
         ∃ t, exec (.ptpMessageRx port ⟨h, (.sync seq false origin corr rx)⟩) s = .next t ∧
           t.dev.time.ptp.offset = (rx.toNat : Int) - ptpNs origin - corr - p.pathDelay ∧ (getPtpPort t.dev port.val).pendingSync = none) ∧
       (∀ (seq : Nat) (origin : PtpTime) (corr c0 : Int) (rx : DT), p.pendingSync = some (seq, c0, rx) →
         ∃ t, exec (.ptpMessageRx port ⟨h, (.followUp seq origin corr)⟩) s = .next t ∧
           t.dev.time.ptp.offset = (rx.toNat : Int) - ptpNs origin - c0 - corr - p.pathDelay ∧ (getPtpPort t.dev port.val).pendingSync = none) ∧
       (∀ (tx : DT) (receive : PtpTime) (corr : Int), p.delayTx = some tx →
         exec (.ptpMessageRx port ⟨h, (.delayResp p.delaySeq receive corr (ownPort port.val))⟩) s =
         .next (after s (ptpPortMod d port.val (fun p => { p with pathDelay := (p.msDiff + (ptpNs receive - corr - (tx.toNat : Int))) / 2, delayTx := none }))))) ∧
     (on = true → p.role = .slave → s.dev.hif.ctrlUp = true → let k := (p.delaySeq + 1) % 65536
       exec (.delayReqTx port) s = .next (after s (ptpPortMod (ptpSend d port.val { kind := 3, seq := k, head := ptpHead d port.val (bit c.flags 0) }) port.val
         (fun x => { x with delaySeq := k, delayTx := none })))) ∧
     (∀ h, heard h → p.role = .master → ∀ seq rx, exec (.ptpMessageRx port ⟨h, (.delayReq seq rx)⟩) s =
       .next (after s (ptpSend d port.val { kind := 4, seq := seq, time := ptpTimeOf rx, head := ptpHead d port.val h.unicast, requester := some h.src }))) ∧
     (on = true → p.role = .master → s.dev.hif.ctrlUp = true → exec (.ptpMessageTx port 1) s =
       .next (after s (ptpPortMod (ptpSend d port.val { kind := 1, seq := p.syncSeq, head := ptpHead d port.val false }) port.val
         (fun p => { p with syncSeq := (p.syncSeq + 1) % 65536, syncTx := none })))) ∧
     (∀ h, heard h → exec (.ptpMessageRx port ⟨h, .unsupported⟩) s = .next (after s (ptpIgnore d)) ∧
       (∀ tlv, exec (.ptpMessageRx port ⟨h, (.management (some tlv))⟩) s = .next (after s (ptpMod d (fun p => { p with tlv := tlv }))))) ∧
     (∀ h m, on = true → s.dev.hif.ctrlUp = true →
       (h.v6 ≠ (c.transport == 1) → exec (.ptpMessageRx port ⟨h, m⟩) s = .next same) ∧
       (h.v6 = (c.transport == 1) → h.major ≠ 2 ∨ 1 < h.minor → exec (.ptpMessageRx port ⟨h, m⟩) s = .next (after s (ptpIgnore d))) ∧
       (h.major = 2 → h.minor ≤ 1 → h.domainNumber ≠ c.domainNumber → exec (.ptpMessageRx port ⟨h, m⟩) s = .next same)) ∧
     (∀ (gm : DWord) (src : PortId), on = true → s.dev.hif.ctrlUp = true → s.dev.time.ptp.parent = some ⟨gm, src, port.val⟩ →
       (∀ f, f ∈ p.foreign → f.1 = src) → (∀ k : Fin 4, k ≠ port → (getPtpPort s.dev k.val).foreign = []) →
       s.dev.time.ptp.state = .acquiring ∨ s.dev.time.ptp.state = .synced →
       ∃ t, exec (.announceReceiptTimeout port) s = .next t ∧ t.dev.time.ptp.state = .holdover ∧ t.dev.time.ptp.parent = none ∧
         (getPtpPort t.dev port.val).foreign = [])) ∧
  (∀ (d : Dev) (o : Int), d.time.ptp.state = .acquiring →
     let c := d.time.ptp.cfg
     let e := takeOffset d o
     e.time.ptp.offset = o ∧
     (c.stepThreshold ≠ 0xFFFFFFFF → c.stepThreshold < o.natAbs →
       e.time.dt = d.time.dt - BitVec.ofInt 64 o ∧ e.time.steps = d.time.steps + 1 ∧ e.time.incr = d.time.incr ∧ e.time.ptp.state = .acquiring ∧
       e.time.ptp.within = 0 ∧ ∀ i, i < 4 → (tabGet e.time.caps i).step = true) ∧
     (c.stepThreshold = 0xFFFFFFFF ∨ o.natAbs ≤ c.stepThreshold →
       e.time.dt = d.time.dt ∧ e.time.steps = d.time.steps ∧ 4292819813 ≤ e.time.incr ∧ e.time.incr ≤ 4297114779 ∧
       (o.natAbs ≤ c.syncThreshold → 7 ≤ d.time.ptp.within → e.time.ptp.state = .synced) ∧
       (c.syncThreshold < o.natAbs → e.time.ptp.state = .acquiring ∧ e.time.ptp.within = 0)))

/-- Pulse outputs, capture inputs and word clocks.  An edge of a DT output is produced once, its next one lies a period on; a setting
that waited takes effect; a captured edge is recorded with DT, filtered within its interval, or lost and counted with the FIFO full, and a
pulse of less than 4 ns is ignored; a word clock's change is seen by the domains. -/
def Obligations.PulsesCapturesAndWordClocks : Prop :=
  ∀ (s : State),
    (∀ i : Fin 8, let p := tabGet s.dev.time.pulses i.val
      (p.running = false → exec (.pulseEdge i) s = .next (after s (quiet s))) ∧
      (p.running = true → p.cfg.timebase = 0 → ∃ t, exec (.pulseEdge i) s = .next t ∧
        (let at' := s.dev.time.dt + BitVec.ofNat 64 (dtDiff p.next s.dev.time.dt).toNat
         t.dev.time.dt = (if s.dev.time.dt.toNat < at'.toNat then at' else s.dev.time.dt)) ∧
        tabGet t.dev.time.pulses i.val = { p with
          produced := p.produced + 1, running := !(p.cfg.mode == 1 || (p.cfg.count != 0 && decide (p.cfg.count ≤ p.produced + 1)))
          next := p.next + BitVec.ofNat 64 p.cfg.period, highUntil := some (t.dev.time.dt + BitVec.ofNat 64 p.cfg.width) } ∧
        t.dev.time.irq = (if p.cfg.flags.getLsbD 1 then s.dev.time.irq ||| BitVec.ofNat 32 (2 ^ i.val) else s.dev.time.irq) ∧
        ∀ k, k ≠ i.val → tabGet t.dev.time.pulses k = tabGet s.dev.time.pulses k) ∧
      (p.running = true → p.cfg.timebase ≠ 0 → domRuns (getDom s.dev (p.cfg.timebase - 1)).state = false →
        ∃ t, exec (.pulseEdge i) s = .next t ∧ (tabGet t.dev.time.pulses i.val).suppressed = p.suppressed + 1 ∧
          (tabGet t.dev.time.pulses i.val).produced = p.produced ∧ t.dev.time.irq = s.dev.time.irq) ∧
      (p.pending = none → exec (.pulseCfgTakeEffect i) s = .next (after s (quiet s))) ∧
      (∀ c at', p.pending = some (c, at') → ∃ t, exec (.pulseCfgTakeEffect i) s = .next t ∧ (tabGet t.dev.time.pulses i.val).cfg = c ∧
        (tabGet t.dev.time.pulses i.val).running = (c.mode != 0) ∧ (tabGet t.dev.time.pulses i.val).pending = none)) ∧
    (∀ (i : Fin 4) (falling : Bool) (width : Nat) (el : Elapsed),
      let c := tabGet s.dev.time.caps i.val
      let put (f : Capture → Capture) : State := after s { quiet s with time := { s.dev.time with caps := tabMod s.dev.time.caps i.val f } }
      (bit c.edge (b2n falling) = false ∨ width < 4 → exec (.captureEdge i falling ⟨width, el⟩) s = .next (after s (quiet s))) ∧
      (∀ p, bit c.edge (b2n falling) = true → 4 ≤ width → c.prev = some p → (s.dev.time.dt - p).toNat < c.minInterval →
        exec (.captureEdge i falling ⟨width, el⟩) s = .next (put (fun c => { c with filtered := c.filtered + 1 }))) ∧
      (bit c.edge (b2n falling) = true → 4 ≤ width → c.prev = none → c.fifo.length < 16 → ∃ t r, exec (.captureEdge i falling ⟨width, el⟩) s = .next t ∧
        tabGet t.dev.time.caps i.val = { c with prev := some s.dev.time.dt, fifo := c.fifo ++ [r], lost := false, step := false } ∧
        r.dt = s.dev.time.dt ∧ r.input = BitVec.ofNat 8 i.val ∧ r.flags.getLsbD 0 = !falling ∧ r.flags.getLsbD 2 = c.lost ∧ r.flags.getLsbD 3 = c.step ∧
        t.dev.time.irq = (if c.flags.getLsbD 1 then s.dev.time.irq ||| BitVec.ofNat 32 (2 ^ (8 + i.val)) else s.dev.time.irq)) ∧
      (bit c.edge (b2n falling) = true → 4 ≤ width → c.prev = none → 16 ≤ c.fifo.length → ∃ t, exec (.captureEdge i falling ⟨width, el⟩) s = .next t ∧
        tabGet t.dev.time.caps i.val = { c with prev := some s.dev.time.dt, lost := true, lostCount := c.lostCount + 1 } ∧
        t.dev.time.irq = s.dev.time.irq ||| BitVec.ofNat 32 (2 ^ (16 + i.val)))) ∧
    (∀ (i : Fin 3) (present : Bool) (row : Instr), row = (if present then .wordClockPresent i else .wordClockAbsent i) →
      (tabGet s.dev.time.wcPresent i.val = present → exec row s = .next (after s (quiet s))) ∧
      (tabGet s.dev.time.wcPresent i.val ≠ present → ∃ t, exec row s = .next t ∧ tabGet t.dev.time.wcPresent i.val = present ∧
        (∀ k, k ≠ i.val → tabGet t.dev.time.wcPresent k = tabGet s.dev.time.wcPresent k) ∧
        (∀ n, n < 3 → (getDom t.dev n).state = (getDom s.dev n).state ∧
          ((getDom s.dev n).cfg.source = 2 → n = i.val → present = false → (getDom t.dev n).refLost = true))))

/-! The network (chapter 13). -/

/-- A received frame.  A port that is down takes none; a frame below 64 bytes, above the port's limit or with a bad FCS is counted and goes
nowhere; a pause frame and a PTP frame are counted as such, a PTP frame of the transport of IEEE 802.3 in PTP_IGNORED too; a frame for this port that nothing else claims goes to ring 0.  EV_COUNTER_HALF
is sent once for what has crossed; a leg goes down.
A frame received into a ring.  With no descriptor it is dropped and counted, there and on the port; otherwise the ring's head moves by
the descriptors it fills. -/
def Obligations.ReceivedFramesAreRoutedAndRingsTakeThem : Prop :=
  (∀ (port : Fin 4) (f : RxFrame) (s : State),
     let p := port.val
     let n := f.bytes.length + 4
     let e := ethOf f.bytes
     let lim := frameLimit (getNet s.dev p).cfg e.tci.isSome + 4
     let d0 := nsRx (nsRx (nsRx (dtTo (quiet s) f.dt) p 25 f.pcsErr) p 26 f.fecCorr) p 27 f.fecUncorr
     let d1 := nsRx (nsRx (nsRx (nsRx d0 p 0 1) p 1 n) p (2 + castBin e.dst) 1) p (5 + sizeBin n) 1
     let good : Prop := 64 ≤ n ∧ n ≤ lim ∧ f.fcsOk = true ∧ e.tci.isSome = false
     ((getNet s.dev p).up = false → exec (.netFrameRx port f) s = .next (after s (quiet s))) ∧
     ((getNet s.dev p).up = true →
       (n < 64 → exec (.netFrameRx port f) s = .next (after s (nsRx d0 p (if f.fcsOk then 13 else 14) 1))) ∧
       (64 ≤ n → lim < n → exec (.netFrameRx port f) s = .next (after s (nsRx d0 p (if f.fcsOk then 15 else 16) 1))) ∧
       (64 ≤ n → n ≤ lim → f.fcsOk = false → exec (.netFrameRx port f) s = .next (after s (nsRx d0 p 12 1))) ∧
       (good → e.etype = 0x8808 → exec (.netFrameRx port f) s = .next (after s (nsRx d1 p 17 1))) ∧
       (good → e.etype = 0x88F7 → exec (.netFrameRx port f) s = .next (after s
         (if ptpEnabled s.dev p = true ∧ s.dev.hif.ctrlUp = true then ptpIgnore (nsRx d1 p 20 1) else nsRx d1 p 20 1))) ∧
       (good → e.etype ≠ 0x8808 → e.etype ≠ 0x88F7 → e.etype ≠ 0x0806 → ipOf e = none →
         (∀ k, k < 16 → filterHit (tabGet s.dev.net.filters k) p e none = false) → e.dst = portMac s.dev p →
         exec (.netFrameRx port f) s = .next (after s (ringRx d1 0 p 0xFF f e none (ingressDt (getNet s.dev p).cfg f.dt)))) ∧
       (good → e.etype ≠ 0x8808 → e.etype ≠ 0x88F7 → e.etype ≠ 0x0806 → ipOf e = none →
         (∀ k, k < 16 → filterHit (tabGet s.dev.net.filters k) p e none = false) → e.dst ≠ portMac s.dev p → e.dst.all (· == 0xFF) = false →
         exec (.netFrameRx port f) s = .next (after s (nsRx d1 p 22 1)))) ∧
     ((getNet s.dev p).evRx = 0 → (getNet s.dev p).evTx = 0 → exec (.evCounterHalf port) s = .next (after s (quiet s))) ∧
     ((getNet s.dev p).evRx ≠ 0 → (getNet s.dev p).evLast = none → s.dev.hif.ctrlUp = true → ∃ t, exec (.evCounterHalf port) s = .next t ∧
       getNet t.dev p = { getNet s.dev p with evRx := 0, evTx := 0, evFirst := none, evLast := some s.dev.time.dt }) ∧
     (∀ (flow : Fin 256) (leg : Fin 2), let x := tabGet s.dev.net.rxFlows flow.val
       ((tabGet x.legs leg.val).up = false → exec (.legDown flow leg) s = .next (after s (quiet s))) ∧
       ((tabGet x.legs leg.val).up = true → ∃ t, exec (.legDown flow leg) s = .next t ∧ (tabGet (tabGet t.dev.net.rxFlows flow.val).legs leg.val).up = false ∧
         (∀ k, k ≠ leg.val → tabGet (tabGet t.dev.net.rxFlows flow.val).legs k = tabGet x.legs k) ∧
         (∀ k, k ≠ flow.val → tabGet t.dev.net.rxFlows k = tabGet s.dev.net.rxFlows k)))) ∧
  (∀ (d : Dev) (ring p filter : Nat) (f : RxFrame) (e : Eth) (i : Option Ip) (stamp : DT),
     let r := getRing d ring
     let n := max 1 ((f.bytes.length + 2047) / 2048)
     let t := ringRx d ring p filter f e i stamp
     (ringPosted r = 0 → (getRing t ring).dropped = r.dropped + 1 ∧ (getRing t ring).head = r.head ∧ t.hostWrites = d.hostWrites ∧
       tabGet (getNet t p).rx 23 = tabGet (getNet d p).rx 23 + 1) ∧
     (0 < ringPosted r → ringPosted r < n → (getRing t ring).head = r.head + BitVec.ofNat 32 (ringPosted r) ∧ (getRing t ring).dropping = true ∧
       tabGet (getNet t p).rx 23 = tabGet (getNet d p).rx 23 + 1) ∧
     (n ≤ ringPosted r → (getRing t ring).head = r.head + BitVec.ofNat 32 n ∧ (getRing t ring).dropping = false ∧
       tabGet (getNet t p).rx 21 = tabGet (getNet d p).rx 21 + 1 ∧ t.hostWrites.length = d.hostWrites.length + 2 * n))

/-- The transmit side.  A frame that completes leaves the MAC and is on the wire; a media packet that has waited too long is dropped and
counted; a host frame of descriptors that break the rules is completed BAD_DESC, one for a port that is down LINK_DOWN, and each segment of
one that is sent waits in its queue; a packet of a flow
that does not run is not sent, one that is waits behind what is being sent. -/
def Obligations.TransmittedFramesLeaveInOrder : Prop :=
  ∀ (s : State),
    (∀ (port : Fin 4) (q : Fin 8) (dt : DT) (f : TxFrame) (flow leg : Nat) (u : MT), let p := port.val
      (getNet s.dev p).sending = some f → f.queue = q.val → f.kind = .media flow leg u → (getNet s.dev p).queue = [] →
      ∃ t, exec (.txFrameComplete port q dt) s = .next t ∧ (getNet t.dev p).sending = none ∧ (getNet t.dev p).queue = [] ∧
        t.dev.net.wire = f.frames.map (fun b => (p, b)) ∧ tabGet (getNet t.dev p).tx 12 = tabGet (getNet s.dev p).tx 12 + 1 ∧
        (tabGet t.dev.net.txFlows flow).sent = (tabGet s.dev.net.txFlows flow).sent + (if leg = firstLeg (tabGet s.dev.net.txFlows flow) then 1 else 0)) ∧
    (∀ (port : Fin 4) (q : Fin 8) (dt : DT), (getNet s.dev port.val).sending = none → (getNet s.dev port.val).queue = [] →
      exec (.txFrameComplete port q dt) s = .next (after s (quiet s))) ∧
    (∀ (port : Fin 4) (flow : Fin 256) (f : TxFrame) (rest : List TxFrame), let p := port.val
      takeMedia flow.val (getNet s.dev p).queue = some (f, rest) → (getNet s.dev p).sending.isSome = true →
      ∃ t, exec (.txMediaDrop port flow) s = .next t ∧ (getNet t.dev p).queue = rest ∧ (getNet t.dev p).sending = (getNet s.dev p).sending ∧
        tabGet (getNet t.dev p).tx 13 = tabGet (getNet s.dev p).tx 13 + 1 ∧
        (tabGet t.dev.net.txFlows flow.val).drops = (tabGet s.dev.net.txFlows flow.val).drops + 1) ∧
    (∀ (r : Fin 4) (descs : List TxDesc) (ur : Bool), descs ≠ [] → let x := tabGet s.dev.net.rings (4 + r.val)
      descs.length ≤ ringPosted x → ringBusy s.dev (4 + r.val) = false → x.stalled = false →
      (hostFrames s.dev descs = none → ∃ t, exec (.hostFrameStart r descs ur) s = .next t ∧
        (tabGet t.dev.net.rings (4 + r.val)).head = x.head + BitVec.ofNat 32 descs.length ∧ t.dev.net.ports = s.dev.net.ports ∧
        (tabGet t.dev.net.rings (4 + r.val)).stalled = !bit (u16 ((descs.getLast?.map (·.bytes)).getD []) 10) 1) ∧
      (∀ fs, hostFrames s.dev descs = some fs → let p := u8 ((descs.head?.map (·.bytes)).getD []) 12
        ((getNet s.dev p).up = false → exec (.hostFrameStart r descs ur) s = .next (after s (txDone (quiet s) (4 + r.val) descs.length 16 0))) ∧
        ((getNet s.dev p).up = true → (getNet s.dev p).sending.isSome = true → ∃ t, exec (.hostFrameStart r descs ur) s = .next t ∧
          ∃ new : List TxFrame, (getNet t.dev p).queue = (getNet s.dev p).queue ++ new ∧ new.map (·.frames) = fs.map (fun b => [b]) ∧
            ∀ f, f ∈ new → f.queue = u8 ((descs.head?.map (·.bytes)).getD []) 13))) ∧
    (∀ (flow : Fin 256) (first : MT), let x := tabGet s.dev.net.txFlows flow.val
      (txRuns s.dev x.cfg = false → exec (.txPacketQueue flow first) s = .next (after s (quiet s))) ∧
      (∀ (p : Nat) (mac : List Byte), let n := effDom s.dev x.cfg.domain
        let k := packetSamples x.cfg.ptime (rateOf s.dev n)
        txRuns s.dev x.cfg = true → k ≠ 0 → (unwrapMt s.dev.time.dt (rateOf s.dev n) first).toNat % max 1 k = 0 → flowPorts x.cfg.ports = [p] →
        (tabGet x.legs 0).set = true → (getNet s.dev p).up = true → twinSends s.dev 0 = true → legMac s.dev p x.cfg.ipv6 (tabGet x.legs 0) = some mac →
        (getNet s.dev p).sending.isSome = true → ∃ t f, exec (.txPacketQueue flow first) s = .next t ∧ (getNet t.dev p).queue = (getNet s.dev p).queue ++ [f] ∧
          f.kind = .media flow.val 0 first ∧ f.queue = x.cfg.queue ∧ f.frames.length = 1 ∧ (tabGet t.dev.net.txFlows flow.val).cfg = x.cfg))

/-- Links, gate lists, neighbours and memberships. -/
def Obligations.LinksGatesAndNeighboursChange : Prop :=
  ∀ (port : Fin 4) (s : State),
    let p := port.val
    let x := getNet s.dev p
    (x.up = false → x.cfg.speed ≠ 0 → pdOn s.dev (netPd p) = true → netModeDown (mode s.dev) = false → ∃ t, exec (.linkUp port) s = .next t ∧
      (getNet t.dev p).up = true ∧ (getNet t.dev p).blockLock = true ∧ (getNet t.dev p).remoteFault = false ∧
      tabGet (getNet t.dev p).tx 20 = tabGet x.tx 20 + 1 ∧ ∀ k, k ≠ p → (getNet t.dev k).up = (getNet s.dev k).up) ∧
    (x.up = true ∨ x.cfg.speed = 0 ∨ pdOn s.dev (netPd p) = false ∨ netModeDown (mode s.dev) = true → exec (.linkUp port) s = .next (after s (quiet s))) ∧
    (∀ rf, x.up = true → ∃ t, exec (.linkDown port rf) s = .next t ∧ (getNet t.dev p).up = false ∧ (getNet t.dev p).sending = none ∧
      (getNet t.dev p).remoteFault = rf ∧ tabGet (getNet t.dev p).tx 20 = tabGet x.tx 20 + 1 ∧
      tabGet (getNet t.dev p).tx 18 = tabGet x.tx 18 + (if x.sending.isSome then 1 else 0)) ∧
    (x.gatePend = none → exec (.gateChangeTime port) s = .next (after s (quiet s))) ∧
    (∀ g t0 asked, x.gatePend = some (g, t0, asked) → ∃ t, exec (.gateChangeTime port) s = .next t ∧ (getNet t.dev p).gates = g ∧
      (getNet t.dev p).gatePend = none ∧ t.dev.time.dt = (if s.dev.time.dt.toNat < (BitVec.ofNat 64 t0).toNat then BitVec.ofNat 64 t0 else s.dev.time.dt)) ∧
    (x.gates = none → exec (.gateIntervalEdge port) s = .next (after s (quiet s))) ∧
    (∀ g, x.gates = some g → gateIxAt g s.dev.time.dt.toNat ≠ x.gateIx → ∃ t, exec (.gateIntervalEdge port) s = .next t ∧
      (getNet t.dev p).gateIx = gateIxAt g s.dev.time.dt.toNat ∧ (getNet t.dev p).gates = some g) ∧
    (∀ a : List Byte, (x.asking.any (fun k => k.1 == a) = true → exec (.arpResolveTimeout port a) s = .next (after s (netPortMod (quiet s) p (fun x =>
        { x with asking := x.asking.filter (fun k => k.1 != a), neigh := x.neigh.filter (fun n => n.addr != a) })))) ∧
      (x.asking.any (fun k => k.1 == a) = false → exec (.arpResolveTimeout port a) s = .next (after s (quiet s))) ∧
      (x.neigh.any (fun n => n.addr == a) = false → exec (.arpRefresh port a) s = .next (after s (quiet s))) ∧
      (x.neigh.any (fun n => n.addr == a) = true → x.up = true → s.dev.hif.ctrlUp = true → x.asking = [] → a.length = 4 → x.cfg.ip4 = true →
        x.sending.isSome = true → ∃ t f, exec (.arpRefresh port a) s = .next t ∧ (getNet t.dev p).asking = [(a, s.dev.time.dt)] ∧
          (getNet t.dev p).neigh = x.neigh ∧ (getNet t.dev p).queue = x.queue ++ [f] ∧ f.kind = .firmware 0 a) ∧
      (x.members.any (fun m => m.group == a && m.reports != 0) = false → exec (.membershipReport port a) s = .next (after s (quiet s))) ∧
      (x.members.any (fun m => m.group == a && m.reports != 0) = true → x.up = true → s.dev.hif.ctrlUp = true → x.sending.isSome = true →
        ∃ t f, exec (.membershipReport port a) s = .next t ∧ (getNet t.dev p).queue = x.queue ++ [f] ∧ f.kind = .firmware 5 a ∧
          (getNet t.dev p).members = x.members.map (fun m => if m.group = a then { m with reports := m.reports - 1 } else m)))

/-! Audio ports (chapter 12). -/

/-- AES3 receivers and transmitters.  ABSENT becomes LOCKING after 8 frames, LOCKING locks with a Z preamble, 4,096 frames and a frequency
within 200 ppm, beyond which a receiver is in CLOCK_FAULT, in SINGLE_RATE with a Z preamble and a rate identified that is the one
configured; a frame taken in LOCKED without fault puts both samples at the next position.
A transmitter sends one frame at a time, 192 to a block. -/
def Obligations.Aes3PortsFollowTheirFrames : Prop :=
  ∀ (k : Fin 16) (s : State),
    let i := k.val
    let r := getAes s.dev i
    let x := getAtx s.dev i
    let same : State := after s (quiet s)
    let rateOk : Prop := if single s.dev = true then r.rateHz ≠ 0 ∧ (r.cfg.nominal = 0 ∨ r.rateHz = r.cfg.nominal) else r.eps.natAbs ≤ 200000
    (r.cfg.enable = true → r.state = .absent → 8 ≤ r.frames → ∃ t, exec (.aes3RxLocking k) s = .next t ∧
      getAes t.dev i = { r with state := .locking, frames := 0, seenZ := false, sinceZ := 0, csA := [], csB := [], usA := [], usB := [] }) ∧
    (r.state ≠ .absent ∨ r.frames < 8 ∨ r.cfg.enable = false → ∃ t, exec (.aes3RxLocking k) s = .next t ∧ getAes t.dev i = r) ∧
    (r.cfg.enable = true → r.state = .locking → r.seenZ = true → single s.dev = true ∨ 4096 ≤ r.frames → rateOk →
      ∃ t, exec (.aes3RxLock k) s = .next t ∧ (getAes t.dev i).state = .locked ∧ (getAes t.dev i).gate.phase = .zero ∧
        (getAes t.dev i).cfg = r.cfg ∧ (getAes t.dev i).slips = r.slips) ∧
    (r.state = .locking ∨ r.state = .locked → ¬ rateOk → ∃ t, exec (.aes3RxClockFault k) s = .next t ∧
      (getAes t.dev i).state = .clockFault ∧ (getAes t.dev i).clkFault = cInc r.clkFault ∧ (getAes t.dev i).slips = r.slips) ∧
    (rateOk → exec (.aes3RxClockFault k) s = .next same) ∧
    (∃ t, exec (.aes3RxAbsent k) s = .next t ∧ (getAes t.dev i).state = .absent ∧ (getAes t.dev i).frames = 0) ∧
    (∀ f : AesFrame, (portsRun s.dev = false ∨ r.cfg.enable = false → exec (.aes3FrameRx k f) s = .next same) ∧
      (portsRun s.dev = true → r.cfg.enable = true → r.state = .locked → single s.dev = false → f.z = false → elasticIn r.map f.mt f.frac = true →
        mtDiff r.map.next (mtOf s.dev r.cfg.domain) < 64 →
        aesGrouped s.dev i = false ∨ (slipCounts r.gate = true ∧ gapLost r.lastMt r.lastFrac f.mt f.frac = 0) → f.a.parity = false → f.a.biphase = false → f.b.parity = false → f.b.biphase = false →
        r.nonA = false → r.nonB = false → r.cfg.vmute = false → r.wl20 = false →
        ∃ t, exec (.aes3FrameRx k f) s = .next t ∧ (getAes t.dev i).map.next = r.map.next + 1 ∧
          (getAes t.dev i).outA = linePut 512 r.outA r.map.next (sext 24 f.a.word.toNat * 256) ∧
          (getAes t.dev i).outB = linePut 512 r.outB r.map.next (sext 24 f.b.word.toNat * 256) ∧ (getAes t.dev i).slips = r.slips ∧
          (getAes t.dev i).state = .locked ∧ (getAes t.dev i).gate = r.gate ∧ ∀ j, j ≠ i → getAes t.dev j = getAes s.dev j)) ∧
    ((portsRun s.dev = false → ∃ t, exec (.aes3FrameTx k) s = .next t ∧ (getAtx t.dev i).phase = .off ∧ (getAtx t.dev i).sent = none) ∧
      (portsRun s.dev = true → x.phase = .off → exec (.aes3FrameTx k) s = .next (after s (atxMod (quiet s) i (fun t => { t with sent := none })))) ∧
      (portsRun s.dev = true → x.phase = .running → x.cfg.enable = true → domRuns (getDom s.dev (effDom s.dev x.cfg.domain)).state = true →
        ∃ t o, exec (.aes3FrameTx k) s = .next t ∧ (getAtx t.dev i).sent = some o ∧ (getAtx t.dev i).next = x.next + 1 ∧
          (getAtx t.dev i).frame = (x.frame + 1) % 192 ∧ (getAtx t.dev i).phase = .running ∧ o.z = decide (x.frame = 0)))

/-- TDM ports.  A target port with 64 frames of its clock leaves NO_CLOCK, one with 64 frames leaves STARTING and STOPPING; it fades when
its clock goes or leaves 200 ppm, and recovers after 1 s; masks stored while it did not run are copied at a frame; a frame of a port that does not run carries nothing. -/
def Obligations.TdmPortsFollowTheirClock : Prop :=
  ∀ (k : Fin 8) (s : State),
    let n := k.val
    let x := getTdm s.dev n
    let same (t : State) : Prop := getTdm t.dev n = x
    (∃ t, exec (.tdmClockLock k) s = .next t ∧
      (x.cfg.enable = true → x.state = .noClock → 64 ≤ x.frames → tdmRunsOn s.dev n = true → (getTdm t.dev n).state = .starting ∧
        (getTdm t.dev n).rxMask = x.rxMask ∧ (getTdm t.dev n).txMask = x.txMask ∧ (getTdm t.dev n).frames = 0 ∧ (getTdm t.dev n).gate.phase = .zero ∧
        (getTdm t.dev n).gateT.phase = .zero) ∧
      (x.state ≠ .noClock ∨ x.frames < 64 ∨ x.cfg.enable = false ∨ tdmRunsOn s.dev n = false → same t)) ∧
    (∃ t, exec (.tdmStartComplete k) s = .next t ∧
      (x.state = .starting → 64 ≤ x.frames → single s.dev = false →
        let g : SlipGate := { phase := .ramp, t := nextMt (mtOf s.dev (effDom s.dev x.cfg.domain)) }
        getTdm t.dev n = { x with state := .running, frames := 0, gate := g, gateT := g }) ∧
      (x.state ≠ .starting ∨ x.frames < 64 → same t)) ∧
    (∃ t, exec (.tdmStopComplete k) s = .next t ∧
      (x.state = .stopping → 64 ≤ x.frames → (getTdm t.dev n).cfg = x.pend.getD x.cfg ∧ (getTdm t.dev n).pend = none ∧
        ((x.pend.getD x.cfg).enable = false → (getTdm t.dev n).state = .stopped) ∧
        ((x.pend.getD x.cfg).enable = true → (x.pend.getD x.cfg).target = true → (getTdm t.dev n).state = .noClock)) ∧
      (x.state ≠ .stopping ∨ x.frames < 64 → same t)) ∧
    (∃ t, exec (.tdmNoClock k) s = .next t ∧
      (x.cfg.target = true → x.state = .running ∨ x.state = .clockFault → (getTdm t.dev n).state = .noClock ∧ (getTdm t.dev n).frames = 0 ∧
        (x.state = .running → slipCounts x.gate = true → (getTdm t.dev n).gate.phase = .fade)) ∧
      (x.cfg.target = false → same t)) ∧
    (∃ t, exec (.tdmClockFault k) s = .next t ∧
      (x.cfg.target = true → x.state = .running → 200000 < x.eps.natAbs → (getTdm t.dev n).state = .clockFault ∧ (getTdm t.dev n).slips = x.slips) ∧
      (x.eps.natAbs ≤ 200000 → same t)) ∧
    (x.state = .clockFault → tdmRate s.dev n ≤ x.frames → ∃ t, exec (.portClockRecovered 3 n) s = .next t ∧ (getTdm t.dev n).state = .running ∧
      (getTdm t.dev n).gate.phase = .zero ∧ (getTdm t.dev n).gateT.phase = .zero) ∧
    (∀ f : TdmIn, (portsRun s.dev = false → exec (.tdmFrame k f) s = .next (after s (tdmMod (quiet s) n (fun t => { t with dout := [] })))) ∧
      (portsRun s.dev = true → x.state = .noClock → single s.dev = false → ∃ t, exec (.tdmFrame k f) s = .next t ∧ (getTdm t.dev n).state = .noClock ∧
        (getTdm t.dev n).frames = (if f.bclkOk = true ∧ f.epsPpb.natAbs ≤ 200000 then x.frames + 1 else 0) ∧ (getTdm t.dev n).rx = x.rx ∧
        (getTdm t.dev n).rxMask = x.rxMask ∧ (getTdm t.dev n).slips = x.slips) ∧
      (portsRun s.dev = true → x.state = .running → single s.dev = false → domRuns (getDom s.dev (effDom s.dev x.cfg.domain)).state = true →
        ∃ t, exec (.tdmFrame k f) s = .next t ∧ (getTdm t.dev n).state = .running ∧ (getTdm t.dev n).dout.length = x.cfg.slots ∧
          (getTdm t.dev n).lastMt = f.mt ∧ (getTdm t.dev n).eps = f.epsPpb ∧ (x.armed = false → x.startCopy = false → (getTdm t.dev n).txMask = x.txMask) ∧
          (x.startCopy = true → x.armed = false → (getTdm t.dev n).rxMask = x.rxShadow ∧ (getTdm t.dev n).txMask = x.txShadow)))

/-- A gate that is silent starts its ramp with SLIP_RAMP_IN after four clean blocks, and only then, for each kind of port and flow; a
grouped receiver that has failed its tests for a second recentres and says so. -/
def Obligations.SlipsEndAndMappingsRecentre : Prop :=
  ∀ (s : State),
    (∀ (g : SlipGate) (b : MT), slipRampIn g b = if g.phase = .zero ∧ 4 ≤ g.clean then { g with phase := .ramp, t := b } else g) ∧
    (∀ i, i < 16 → exec (.slipRampIn 0 i) s = .next (after s (aesMod (quiet s) i (fun r => { r with gate := slipRampIn r.gate r.landed }))) ∧
      exec (.slipRampIn 1 i) s = .next (after s (atxMod (quiet s) i (fun t => { t with gate := slipRampIn t.gate (mtOf s.dev (effDom s.dev t.cfg.domain)) })))) ∧
    (∀ i, i < 8 → exec (.slipRampIn 2 i) s = .next (after s (tdmMod (quiet s) i (fun t => { t with gate := slipRampIn t.gate t.landed }))) ∧
      exec (.slipRampIn 3 i) s = .next (after s (tdmMod (quiet s) i (fun t => { t with gateT := slipRampIn t.gateT t.landed })))) ∧
    (∀ i, i < 256 → exec (.slipRampIn 4 i) s = .next (after s (rxFlowMod (quiet s) i (fun r => { r with gate := slipRampIn r.gate r.landed })))) ∧
    (∀ i, i < 16 → aesGrouped s.dev i = true → (getAes s.dev i).state = .locked → aesRate s.dev i ≤ (getAes s.dev i).miss →
      ∃ t, exec (.mappingLost 0 i) s = .next t ∧ (getAes t.dev i).mappingLost = true ∧ (getAes t.dev i).miss = 0 ∧ (getAes t.dev i).state = .locked ∧
        (getAes t.dev i).slips = (getAes s.dev i).slips) ∧
    (∀ i, i < 16 → (getAes s.dev i).miss < aesRate s.dev i → exec (.mappingLost 0 i) s = .next (after s (quiet s))) ∧
    (∀ i, i < 16 → (getAes s.dev i).state = .clockFault → aesRate s.dev i ≤ (getAes s.dev i).frames → ∃ t, exec (.portClockRecovered 2 i) s = .next t ∧
      (getAes t.dev i).state = .locked ∧ (getAes t.dev i).frames = 0)

/-! Bridges, microphones, detectors (chapter 08). -/

/-- A bridge's changes between boundaries: ACQUIRE locks into TRACK after 64 fine blocks, silent at first; it begins anew after 2,000
blocks without; TRACK ends in RANGE, counted and reported, after 64 blocks off the range; RANGE leads back to ACQUIRE after 1 s; a bridge
whose two ends render leaves WAITING.  Another bridge never changes, and none does while SEAM_CTRL.ENABLE is 0; a follower's bridge leaves
ACQUIRE by its leader's word alone.
A microphone starts, acquires and locks as a bridge does; one whose bit stands still for 65,536 bits is stuck, once; a detector's
window gives its result, the oldest first. -/
def Obligations.BridgesMicrophonesAndDetectorsAdvance : Prop :=
  (∀ (k : Fin 256) (s : State),
     let i := k.val
     let x := getBr s.dev i
     let e := bridgeEnds (quiet s) i
     let put (f : Bridge → Bridge) : State := after s (brMod (quiet s) i f)
     let on : Prop := s.dev.seam.ctrl.getLsbD 0 = true
     (¬ on → ∀ row, row = .bridgeAcquireLock k ∨ row = .bridgeAcquireTimeout k ∨ row = .bridgeRange k ∨ row = .bridgeRangeExpiry k ∨ row = .bridgeEndsRendering k →
       ∃ t, exec row s = .next t ∧ getBr t.dev i = x) ∧
     (on → x.state = .acquire → 64 ≤ x.loop.fine → x.follower = false → exec (.bridgeAcquireLock k) s = .next (put (fun x =>
       { x with state := .track, gate := gateZero, loop := { x.loop with timeout := false, off := 0 } }))) ∧
     (x.state ≠ .acquire ∨ x.loop.fine < 64 ∨ x.follower = true → ∃ t, exec (.bridgeAcquireLock k) s = .next t ∧ getBr t.dev i = x) ∧
     (on → x.state = .acquire → 2000 ≤ x.loop.blocks → x.loop.fine < 64 → x.follower = false → exec (.bridgeAcquireTimeout k) s = .next (put (fun x =>
       { x with loop := loopInit { x.loop with timeout := true } (targetPos e.1.count e.1.frac (deltaIn e.1.f)) (rhoNom e.1.f e.2.f) }))) ∧
     (on → x.state = .track → 64 ≤ x.loop.off → ∃ t, exec (.bridgeRange k) s = .next t ∧ (getBr t.dev i).state = .range ∧
       (getBr t.dev i).ranges = cInc x.ranges ∧ (getBr t.dev i).since = x.mt ∧ ∀ j, j ≠ i → getBr t.dev j = getBr s.dev j) ∧
     (x.state ≠ .track ∨ x.loop.off < 64 → exec (.bridgeRange k) s = .next (after s (quiet s))) ∧
     (on → x.state = .range → (e.2.f : Int) ≤ mtDiff x.mt x.since → ∃ t, exec (.bridgeRangeExpiry k) s = .next t ∧ (getBr t.dev i).state = .acquire ∧
       (getBr t.dev i).ranges = x.ranges) ∧
     (on → x.state = .waiting → x.cfg.enable = true → e.1.rendering = true → e.2.rendering = true → ∃ t, exec (.bridgeEndsRendering k) s = .next t ∧
       getBr t.dev i = bridgeStart x e.1 e.2 (getDom s.dev e.2.dom).dt x.mt ∧
       (getBr t.dev i).state = (if exactHolds e.1 e.2 then .exact else .acquire) ∧ ∀ j, j ≠ i → getBr t.dev j = getBr s.dev j)) ∧
  (∀ (k : Fin 8) (s : State),
     let i := k.val
     let m := getMic s.dev i
     let f := rateIn s.dev m.cfg.domain
     let put (g : Mic → Mic) : State := after s (micMod (quiet s) i g)
     (m.state = .start → 62500 ≤ m.bitsRun → 64 ≤ m.outsRun → exec (.micStartComplete k) s =
       .next (put (fun m => { m with state := .acquire, loop := loopInit {} (micTarget m f) (micRho f) }))) ∧
     (m.state ≠ .start ∨ m.bitsRun < 62500 → ∃ t, exec (.micStartComplete k) s = .next t ∧ getMic t.dev i = m) ∧
     (m.state = .acquire → 64 ≤ m.loop.fine → exec (.micLock k) s =
       .next (put (fun m => { m with state := .track, gate := gateZero, loop := { m.loop with timeout := false } }))) ∧
     (m.state = .acquire → 2000 ≤ m.loop.blocks → m.loop.fine < 64 → exec (.micAcquireTimeout k) s =
       .next (put (fun m => { m with loop := loopInit { m.loop with timeout := true } (micTarget m f) (micRho f) }))) ∧
     (65536 ≤ m.same → m.stuck = false → clkRuns s.dev.mics.mic i = true → ∃ t, exec (.micStuck k) s = .next t ∧
       getMic t.dev i = { m with stuck := true } ∧ ∀ j, j ≠ i → getMic t.dev j = getMic s.dev j) ∧
     (m.same < 65536 ∨ m.stuck = true → exec (.micStuck k) s = .next (after s (quiet s))) ∧
     (∀ r rest, (tabGet s.dev.mics.det i).ended = r :: rest → ∃ t, exec (.detectorWindowEnd k) s = .next t ∧
       tabGet t.dev.mics.det i = { tabGet s.dev.mics.det i with
         ended := rest, res := detResult (tabGet s.dev.mics.det i) f r (tabGet s.dev.mics.det i).res }) ∧
     ((tabGet s.dev.mics.det i).ended = [] → ∃ t, exec (.detectorWindowEnd k) s = .next t ∧ tabGet t.dev.mics.det i = tabGet s.dev.mics.det i))


/-! Sensing and tracking (chapter 09). -/

/-- The sense unit.  A rail beyond its fault range is in FAULT from the third update in a row on and no sooner; a first measurement inside
both ranges clears it (that one update suffices is the model's reading, log entry 11); a rail in FAULT when its time is over leads to SAFE;
the jack and its buttons are followed, and a button's presses fill a FIFO of 8.
Tracking.  A window that has not run its length changes nothing; one that has ends, and the next begins at the layout domain's boundary
with the next group of speakers; a proposal that waits is posted where no load is in progress. -/
def Obligations.SensorsJackAndTrackingAreFollowed : Prop :=
  (∀ (s : State),
     let same : State := after s (quiet s)
     let u := s.dev.sense
     let put (f : Sense → Sense) (d : Dev) : Dev := { d with sense := f d.sense }
     (pdOn s.dev 15 = false → (∀ ms, exec (.senseUpdate ms) s = .next same) ∧ (∀ b, exec (.jackInsertion b) s = .next same) ∧
       (∀ a b, exec (.accessoryJudged a b) s = .next same) ∧ (∀ o p, exec (.buttonPress o p) s = .next same)) ∧
     (pdOn s.dev 15 = true →
       (∀ (i : Nat) (mv : Int), i < 8 → ∃ t, exec (.senseUpdate [.rail i mv]) s = .next t ∧ tabGet t.dev.sense.rails i = sensorUpdate (tabGet u.rails i) mv (railRange i) ∧
         t.dev.sense.temps = u.temps ∧ ∀ k, k ≠ i → tabGet t.dev.sense.rails k = tabGet u.rails k) ∧
       (∀ (i n : Nat), i < 16 → ∃ t, exec (.senseUpdate [.cable i true n]) s = .next t ∧ (tabGet t.dev.sense.cables i).valid = true ∧
         (200 < n → (tabGet t.dev.sense.cables i).flag = true) ∧ (n < 190 → (tabGet t.dev.sense.cables i).flag = false) ∧
         (190 ≤ n → n ≤ 200 → (tabGet t.dev.sense.cables i).flag = (tabGet u.cables i).flag) ∧ t.dev.sense.rails = u.rails) ∧
       (∀ b : Bool, (b = u.inserted → exec (.jackInsertion b) s = .next same) ∧
         (b ≠ u.inserted → ∃ t, exec (.jackInsertion b) s = .next t ∧ t.dev.sense.inserted = b ∧ t.dev.sense.accessory = 0 ∧ (b = false → t.dev.sense.held = none))) ∧
       (∀ tip sleeve : Nat, u.inserted = true → u.accessory = 0 → ∃ t, exec (.accessoryJudged tip sleeve) s = .next t ∧
         t.dev.sense = { u with accessory := accessoryOf tip sleeve }) ∧
       (∀ (ohms b : Nat), u.inserted = true → u.accessory = 2 → buttonOf ohms = some b → u.held = none → ∃ t, exec (.buttonPress ohms true) s = .next t ∧
         t.dev.sense.held = some (b, false) ∧
         (u.fifo.length < 8 → t.dev.sense.fifo = u.fifo ++ [{ button := b, long := false, pressed := true, overflow := u.lost }] ∧ t.dev.sense.lost = false) ∧
         (8 ≤ u.fifo.length → t.dev.sense.fifo = u.fifo ∧ t.dev.sense.lost = true)) ∧
       (∀ (ohms b : Nat) (long : Bool), u.inserted = true → u.accessory = 2 → u.held = some (b, long) → u.fifo.length < 8 →
         ∃ t, exec (.buttonPress ohms false) s = .next t ∧ t.dev.sense.held = none ∧
           t.dev.sense.fifo = u.fifo ++ [{ button := b, long := long, pressed := false, overflow := u.lost }])) ∧
     exec .buttonLong s = .next (after s (put (fun s => { s with held := s.held.map (fun h => (h.1, true)) }) (quiet s))) ∧
     (s.dev.hif.ctrlUp = true → s.dev.sense.rails.any (fun kv => kv.2.state == 2) = true → mode s.dev = .service → s.dev.fw.changing = none →
       ∃ t, exec .railFaultTimeout s = .next t ∧ t.dev.aon.safeReason = 6 ∧ t.dev.fw.changing = some { target := .safe, cause := 1, asked := none }) ∧
     (s.dev.sense.rails.any (fun kv => kv.2.state == 2) = false → exec .railFaultTimeout s = .next same) ∧
     (∀ (x : Sensor) (v : Int) (r : (Int × Int) × (Int × Int)),
       (v < r.2.1 ∨ r.2.2 < v → ((sensorUpdate x v r).state = 2 ↔ 2 ≤ x.faultRun ∨ x.state = 2)) ∧
       (r.2.1 ≤ v → v ≤ r.2.2 → (sensorUpdate x v r).state ≠ 2) ∧
       (r.1.1 ≤ v → v ≤ r.1.2 → r.2.1 ≤ v → v ≤ r.2.2 → (sensorUpdate x v r).state = 0))) ∧
  (∀ (s : State),
     let n := (layDom s.dev).getD 0
     let k := s.dev.track
     let w := k.cfg.windowMs * rateOf s.dev n / 1000
     let live : Prop := k.cfg.enable = true ∧ mode s.dev = .service ∧ s.dev.fw.changing = none ∧ (layDom s.dev).isSome = true
     (∀ (i : Fin 3) (b : MT), k.cfg.enable = false ∨ n ≠ i.val ∨ b ≠ mtOf s.dev n → exec (.trackWindowEnd i b) s = .next (after s (quiet s))) ∧
     (∀ i : Fin 3, live → n = i.val → k.broken = false → mtDiff (mtOf s.dev n) k.start < (w : Int) → exec (.trackWindowEnd i (mtOf s.dev n)) s = .next (after s (quiet s))) ∧
     (∀ i : Fin 3, live → n = i.val → k.broken = true ∨ (w : Int) ≤ mtDiff (mtOf s.dev n) k.start → ∃ t, exec (.trackWindowEnd i (mtOf s.dev n)) s = .next t ∧
       t.dev.track.start = mtOf s.dev n ∧ t.dev.track.broken = false ∧ t.dev.track.skip = k.skip ∧ t.dev.track.cfg = k.cfg ∧
       t.dev.track.acc = [] ∧ t.dev.track.skips = 0 ∧ ∀ sp, sp ∈ trackGroup s.dev → (tabGet t.dev.track.reps sp).isSome = true) ∧
     (∀ sp, tabGet k.props sp = none → exec (.proposalPost sp) s = .next (after s (quiet s))) ∧
     (∀ sp q, tabGet k.props sp = some q → q.waiting = true → firBusy s.dev = false → mode s.dev = .service →
       exec (.proposalPost sp) s = .next (after s (postProposal (quiet s) sp)) ∧
       (spkExtent s.dev sp = none → ∃ t, exec (.proposalPost sp) s = .next t ∧ (tabGet t.dev.track.props sp).map (·.waiting) = some false ∧
         t.dev.mantle = s.dev.mantle)))


/-! The Silton link and the pair (chapter 14). -/

/-- Frames of the link.  One that is damaged, or that comes while the link carries nothing, is discarded whole; another acknowledges what
it names, and its body is taken where its sequence number is the next; MORE keeps a body until its last part.  A frame without
acknowledgement is sent again with RESEND set, at most three times in all, after which the link is DOWN; it is DOWN as well when its last
lane loses lock. -/
def Obligations.LinkFramesAreTakenInSequence : Prop :=
  ∀ (s : State),
    let w := s.dev.twin
    let same : State := after s (quiet s)
    let lost (c : Instr) : Prop := ∃ t, exec c s = .next t ∧ t.dev.twin.handshake = false ∧ t.dev.twin.unacked = [] ∧ t.dev.twin.parts = [] ∧
      t.dev.twin.hello = none ∧ t.dev.twin.partner = 255 ∧ t.dev.twin.downCnt = w.downCnt + (if w.handshake then 1 else 0) ∧
      t.dev.twin.state = (if w.state = .leader then .leaderSolo else w.state) ∧ t.dev.dom = s.dev.dom ∧ t.dev.scene = s.dev.scene
    (∀ (f : List Byte) (crc : Word),
      let len := u16 f 2
      let seq : Word := BitVec.ofNat 32 (u32 f 4)
      let cls := u8 f 0
      let whole : Prop := linkCarries w = true ∧ pdOn s.dev 5 = true ∧ f.length = 16 + len ∧ len ≤ 8192 ∧ crc32c f = crc
      let left := w.unacked.filter (fun u => mtLater u.seq (BitVec.ofNat 32 (u32 f 8)))
      let body := tabGet w.parts cls ++ slice f 16 len
      (¬ whole → exec (.linkFrameRx f crc) s = .next same) ∧
      (whole → w.handshake = true → seq ≠ w.rxSeq + 1 → exec (.linkFrameRx f crc) s =
        .next (after s (twinMod (quiet s) (fun t => { t with unacked := left })))) ∧
      (whole → seq = w.rxSeq + 1 → bit (u8 f 1) 1 = true → exec (.linkFrameRx f crc) s =
        .next (after s (twinMod (quiet s) (fun t => { t with unacked := left, rxSeq := seq, parts := tabSet w.parts cls body })))) ∧
      (whole → seq = w.rxSeq + 1 → bit (u8 f 1) 1 = false → exec (.linkFrameRx f crc) s = .next (after s (linkBody
        (twinMod (quiet s) (fun t => { t with unacked := left, rxSeq := seq, parts := tabSet w.parts cls [] })) cls body)))) ∧
    (∀ (seq : Word) (u : LinkSent),
      (w.unacked.find? (fun u => u.seq == seq) = none → exec (.linkFrameResend seq) s = .next same) ∧
      (w.unacked.find? (fun u => u.seq == seq) = some u → u.tries < 3 → exec (.linkFrameResend seq) s =
        .next (after s (twinMod (quiet s) (fun t => { t with
          retry := w.retry + 1, sent := [resent w u.bytes],
          unacked := w.unacked.map (fun x => if x.seq = seq then { x with bytes := resent w u.bytes, tries := x.tries + 1 } else x) })))) ∧
      (w.unacked.find? (fun u => u.seq == seq) = some u → 3 ≤ u.tries → lost (.linkFrameResend seq))) ∧
    (linkCarries w = true → pdOn s.dev 5 = true → exec .linkAckFrame s = .next (after s (twinMod (quiet s) (fun t => { t with
      txSeq := w.txSeq + 1, sent := [linkFrame 5 0 w.txSeq w.rxSeq []],
      unacked := w.unacked ++ [{ seq := w.txSeq, bytes := linkFrame 5 0 w.txSeq w.rxSeq [], tries := 1 }] })))) ∧
    (w.state = .off ∨ w.handshake = true ∨ linkCarries w = false → exec .linkHello s = .next same) ∧
    (w.state ≠ .off → w.handshake = false → w.hello = none → pdOn s.dev 5 = true → linkCarries w = true →
      ∃ t, exec .linkHello s = .next t ∧ t.dev.twin.helloSent = true ∧ t.dev.twin.handshake = false ∧ t.dev.twin.state = w.state ∧
        (w.waiting = [] → t.dev.twin.sent = [linkFrame 7 0 w.txSeq w.rxSeq (linkHelloBytes (quiet s))] ∧ t.dev.twin.txSeq = w.txSeq + 1)) ∧
    (∀ l : Fin 2,
      (pdOn s.dev 5 = true → w.linkCtrl.getLsbD 0 = true → w.linkCtrl.getLsbD (l.val + 1) = true → exec (.laneLockChange l true) s =
        .next (after s (twinMod (quiet s) (fun t => { t with lanes := w.lanes ||| BitVec.ofNat 2 (2 ^ l.val) })))) ∧
      (w.linkCtrl.getLsbD (l.val + 1) = false → exec (.laneLockChange l true) s = .next same) ∧
      (w.lanes &&& ~~~(BitVec.ofNat 2 (2 ^ l.val)) ≠ 0 ∨ w.lanes = 0 → exec (.laneLockChange l false) s =
        .next (after s (twinMod (quiet s) (fun t => { t with lanes := w.lanes &&& ~~~(BitVec.ofNat 2 (2 ^ l.val)) })))) ∧
      (w.lanes ≠ 0 → w.lanes &&& ~~~(BitVec.ofNat 2 (2 ^ l.val)) = 0 → lost (.laneLockChange l false)))

/-- The state of the pair.  LINKING ends after 1 s; a leader that its follower finds lost is followed by promotion at a boundary and only
then; a copy, taken once the domains run that the leader's markers say run (the model's choice, log entry 129), leads to VERIFY, eight matching blocks from there to SYNCED, transmitting from the boundary that the model takes as the next but
one (its choice, log entry 28), a copy that takes too long begins again; a swap exchanges the roles at its boundary; a leader whose
partner's signatures stay away is alone. -/
def Obligations.PairStatesChange : Prop :=
  ∀ (s : State),
    let w := s.dev.twin
    let same : State := after s (quiet s)
    let gives (c : Instr) (st : PairState) (p : Twin → Prop) : Prop := ∃ t, exec c s = .next t ∧ t.dev.twin.state = st ∧ p t.dev.twin ∧
      t.dev.mbx = s.dev.mbx ∧ t.dev.time = s.dev.time ∧ t.dev.mantle = s.dev.mantle ∧ t.dev.chain = s.dev.chain
    (∀ (m : Bool) (h : BitVec 4),
      (mode s.dev ≠ .twin ∨ w.state = .off → exec (.markerMissing m h) s = .next same) ∧
      (mode s.dev = .twin → w.state ≠ .off → slaved s.dev = false → gives (.markerMissing m h) w.state (fun t =>
        t.markerMiss = (if m then w.markerMiss + 1 else 0) ∧ t.lost = w.lost ∧
        t.hbMiss = w.hbMiss + BitVec.ofNat 32 ((hbList s.dev).filter (fun p => h.getLsbD p)).length ∧
        ∀ p, p ∈ hbList s.dev → tabGet t.hbMissed p = (if h.getLsbD p then tabGet w.hbMissed p + 1 else 0))) ∧
      (slaved s.dev = true → (∀ p, p ∈ hbList s.dev → h.getLsbD p = true ∧ 2 ≤ tabGet w.hbMissed p) → m = true → 2 ≤ w.markerMiss →
        gives (.markerMissing m h) w.state (fun t => t.lost = true)) ∧
      (slaved s.dev = true → linkUp w = true → m = false → gives (.markerMissing m h) w.state (fun t => t.lost = w.lost))) ∧
    (w.state ≠ .linking → exec .linkingTimeout s = .next same) ∧
    (w.state = .linking → w.hbSeen = false ∨ hbLost s.dev = true → gives .linkingTimeout .leaderSolo (fun _ => True)) ∧
    (w.state = .linking → w.hbSeen = true → hbLost s.dev = false → gives .linkingTimeout .isolated (fun _ => True)) ∧
    (w.lost = false ∨ slaved s.dev = false → exec .promotion s = .next same) ∧
    (w.lost = true → slaved s.dev = true → gives .promotion .leaderSolo (fun t => t.lost = false ∧ t.partner = 255 ∧ t.markerMiss = 0 ∧ t.b0 = none)) ∧
    (∀ c : Regions,
      (w.state ≠ .resync ∨ w.b0 = none ∨ linkUp w = false ∨ domsFollow s.dev = false → exec (.resyncCopyComplete c) s = .next same) ∧
      (w.state = .resync → w.b0 ≠ none → linkUp w = true → domsFollow s.dev = true → ∃ t, exec (.resyncCopyComplete c) s = .next t ∧ t.dev.twin.state = .verify ∧
        t.dev.twin.matched = 0 ∧ t.dev.twin.applied = c.applied ∧ t.dev.scene = c.scene ∧ t.dev.chain = c.chain ∧ t.dev.mantle = c.mantle ∧
        t.dev.seam = c.seam ∧ t.dev.mbx = s.dev.mbx ∧ t.dev.time = s.dev.time)) ∧
    (w.state ≠ .verify ∨ w.matched < 8 → exec .verifyComplete s = .next same) ∧
    (w.state = .verify → 8 ≤ w.matched → gives .verifyComplete .synced (fun t => t.txStart = some (hbMt s.dev + 32))) ∧
    (w.state ≠ .resync → exec .resyncTimeout s = .next same) ∧
    (w.state = .resync → gives .resyncTimeout .resync (fun t => t.b0 = none ∧ t.resyncTimeouts = w.resyncTimeouts + 1)) ∧
    (w.swap = none → exec .twinSwapTakeEffect s = .next same) ∧
    (∀ r first at', w.swap = some (r, first, at') →
      (mtLater first (hbMt s.dev) = true → exec .twinSwapTakeEffect s = .next same) ∧
      (mtLater first (hbMt s.dev) = false → w.state = .leader → w.partner = 6 → gives .twinSwapTakeEffect .synced (fun t => t.partner = 2 ∧ t.swap = none)) ∧
      (mtLater first (hbMt s.dev) = false → w.state = .synced → w.partner = 2 → gives .twinSwapTakeEffect .leader (fun t => t.partner = 6 ∧ t.swap = none)) ∧
      (mtLater first (hbMt s.dev) = false → (w.state = .leader → w.partner ≠ 6) → (w.state = .synced → w.partner ≠ 2) →
        gives .twinSwapTakeEffect w.state (fun t => t.partner = w.partner ∧ t.swap = none))) ∧
    (w.state = .leader → w.partner = 6 → gives .signatureMissing .leaderSolo (fun t => t.partner = 255 ∧ t.handshake = false ∧ (w.waiting = [] → t.unacked = []))) ∧
    (w.state ≠ .leader ∨ w.partner ≠ 6 → exec .signatureMissing s = .next same)

/-! Arithmetic that the commands share (chapters 00, 03, 04). -/

/-- A ramp of n samples from the value in force goes in whole steps truncated toward zero, ends exactly on its target, never leaves the
interval between the two, and leaves the samples before its start as they were.
Host values brought into range: an azimuth modulo 36,000, an elevation or distance out of range refused, a gain between -14,400 and
+2,400 centi-dB with -14,400 off, a ramp length the nearest number of samples and at least 16. -/
def Obligations.RampsGoInWholeStepsAndHostValuesAreBroughtIntoRange : Prop :=
  (∀ (r : Ramp) (v : Int) (t : MT) (n : Nat), 1 ≤ n → n < 2147483648 →
     let w := rampTo r v t n
     let g := rampAt r (t - 1)
     (∀ k : Nat, k + 1 < n → rampAt w (t + BitVec.ofNat 32 k) = g + (k + 1) * (v - g).tdiv n) ∧
     (∀ k : Nat, n ≤ k + 1 → k < 2147483648 → rampAt w (t + BitVec.ofNat 32 k) = v) ∧
     (∀ k : Nat, k < 2147483648 → min g v ≤ rampAt w (t + BitVec.ofNat 32 k) ∧ rampAt w (t + BitVec.ofNat 32 k) ≤ max g v) ∧
     (∀ k : MT, mtDiff k t < 0 → r.cur.n = 0 ∨ mtGe k r.cur.t = true → rampAt w k = rampAt r k)) ∧
  ((∀ az : Int, -18000 < reduceAz az ∧ reduceAz az ≤ 18000 ∧ (reduceAz az - az) % 36000 = 0 ∧
     (-18000 < az → az ≤ 18000 → reduceAz az = az)) ∧
   (∀ az el dist : Int, (el < -9000 ∨ 9000 < el ∨ dist < 0 → polarXyz az el dist = none) ∧
     polarXyz (az + 36000) el dist = polarXyz az el dist) ∧
   (∀ c : Int, -14400 ≤ clampCdb c ∧ clampCdb c ≤ 2400 ∧ (cdbClamps c = false ↔ clampCdb c = c) ∧ (c ≤ -14400 → cdbGain c = 0)) ∧
   (∀ us f : Nat, 16 ≤ rampLen us f ∧
     (16 < rampLen us f → 2 * ((rampLen us f : Int) * 1000000 - us * f).natAbs ≤ 1000000)) ∧
   rampLen 10000 48000 = 480 ∧ rampLen 333 48000 = 16 ∧ rampLen 100 48000 = 16)


/-! The requests, each where its rule grants it: what it changes and what it answers.  `served` are the checks before a rule,
`granted`, `committed`, `changes`, `awaits`, `underWay` and `fetches` the ways a granted request goes on (Sys2Proof/Safety.lean). -/

/-- Session, system and firmware-update requests.  HELLO opens the session of its channel at the highest version of its offers that the
device serves; BYE closes it; MODE_SET begins the transition it asks for; RESET_REQ a deferred reset; an update erases its slot, takes
chunks in order and is committed once it is whole, intact and signed. -/
def Obligations.SessionRequestsTakeEffect : Prop :=
  ∀ (r : Req) (s : State),
    let p := r.payload
    let d := quiet s
    let ch := r.ch.val
    (∀ t v, t = takes s .hello r → served s t → 32 ≤ p.length → isZero p 1 3 = true → 1 ≤ u8 p 0 → u8 p 0 ≤ 8 → bestVer p = some v →
      (∀ o, o ∈ (List.range (u8 p 0)).filterMap (fun i => servedAs (u8 p (8 + 2 * i)) (u8 p (9 + 2 * i))) → laterVer v o = false) ∧
      ∃ u, exec (.hello r) s = .next u ∧ (∀ k, k ≠ ch → getSession u.dev k = getSession s.dev k) ∧ u.dev.dom = s.dev.dom ∧
        u.dev.tiles.mem = s.dev.tiles.mem ∧ mode u.dev = mode s.dev ∧ u.dev.scene = s.dev.scene ∧
        getSession u.dev ch = { isOpen := true, major := v.1, minor := v.2, mask := BitVec.ofNat 32 (u32 p 4) &&& 0xFFE }) ∧
    (∀ t, t = takes s .bye r → served s t → ∃ u, exec (.bye r) s = .next u ∧ getSession u.dev ch = {} ∧
      ∀ k, k ≠ ch → getSession u.dev k = getSession s.dev k) ∧
    (∀ t, t = takes s .version r → served s t → let g := getSession s.dev ch
      ∃ body, exec (.version r) s = .next (granted s t d body) ∧ body.length = 19 ∧ u8 body 0 = (if g.isOpen then g.major % 256 else 0) ∧
        u8 body 1 = (if g.isOpen then g.minor % 256 else 0) ∧ u8 body 7 = s.dev.flash.running % 256) ∧
    (∀ t, t = takes s .caps r → served s t → ∃ body, exec (.caps r) s = .next (granted s t d body) ∧
      u16 body 3 = (if Config.gradeAF then 1024 else 512) ∧ u16 body 5 = (if Config.gradeAF then 512 else 256) ∧
      u16 body 7 = (if Config.gradeAF then 640 else 320)) ∧
    (∀ t, t = takes s .ping r → served s t → exec (.ping r) s = .next (granted s t d (zeros 3 ++ p64 s.dev.time.dt.toNat ++ p.take 44))) ∧
    (∀ t m, t = takes s .modeSet r → served s t → 4 ≤ p.length → isZero p 1 3 = true → modeOf (u8 p 0) = some m → m ≠ .off → m ≠ .boot → m ≠ .factory →
      s.dev.fw.changing = none → s.dev.fw.commits.any (fun c => c.taken.op == .modeSet) = false →
      (m = mode s.dev → exec (.modeSet r) s = .next (granted s t d (modeBody m s.dev.fw.prevMode s.dev.time.dt))) ∧
      (m ≠ mode s.dev → (modeTargets (mode s.dev)).contains m = true →
        (mode s.dev = .twin → domRenders s.dev 0 = true → exec (.modeSet r) s = .next (committed s t d 0)) ∧
        ((mode s.dev = .twin → domRenders s.dev 0 = false) → exec (.modeSet r) s = .next (underWay s t (beginMode d m 0 (some t))) ∧
          (m ≠ .twin → mode s.dev ≠ .twin → mode s.dev ≠ .singleRate → mode s.dev ≠ .calibrate → m ≠ .service → m ≠ .singleRate →
            (beginMode d m 0 (some t)).fw.changing = some { target := m, cause := 0, asked := some t })))) ∧
    (∀ t, t = takes s .modeGet r → served s t → ∃ body, exec (.modeGet r) s = .next (granted s t d body) ∧ body.length = 15 ∧
      u8 body 0 = modeCode (mode s.dev) ∧ u8 body 1 = modeCode s.dev.fw.prevMode ∧ u8 body 3 = s.dev.aon.safeReason.toNat ∧
      u8 body 4 = s.dev.aon.bootcnt.toNat) ∧
    (∀ t, t = takes s .resetReq r → served s t → 4 ≤ p.length → u16 p 2 = 0xC3D2 →
      let asks (x : DeferredReset) : Dev := { d with fw := { s.dev.fw with resetPending := s.dev.fw.resetPending ++ [x] } }
      (u8 p 0 = 0 → exec (.resetReq r) s = .next (granted s t (asks (.warm 2)) [])) ∧
      (u8 p 0 = 1 → exec (.resetReq r) s = .next (granted s t (asks .ctrlRestart) [])) ∧
      (u8 p 0 = 2 → 2 ≤ u8 p 1 → u8 p 1 ≤ 15 → mode s.dev = .config ∨ mode s.dev = .selftest ∨ mode s.dev = .factory →
        exec (.resetReq r) s = .next (granted s t (asks (.domain (u8 p 1))) []))) ∧
    (∀ t, t = takes s .telemetryGet r → served s t → let n := u8 p 1
      let es := (List.range n).map (fun i => (u16 p (4 + 4 * i), u16 p (6 + 4 * i)))
      u8 p 0 = 0 → 1 ≤ n → n ≤ 12 → isZero p 2 2 = true → 4 + 4 * n ≤ p.length → (∀ e, e ∈ es → ∃ k, counterRange e.1 = some k ∧ e.2 < k) →
      exec (.telemetryGetCounters r) s = .next (granted s t d
        (p8 n ++ zeros 2 ++ p32 (mtOf s.dev 0).toNat ++ es.flatMap (fun e => p32 (counterVal d e.1 e.2).toNat)))) ∧
    (∀ t, t = takes s .telemetryGet r → served s t → let n := u16 p 2
      let a := u32 p 4
      let ws := (List.range n).flatMap (fun i => p32 (deviceWord d .ctrl (a + 4 * i)).toNat)
      let off := b2n (!pdOn d (blockPd a))
      u8 p 0 = 1 → 1 ≤ n → a % 4 = 0 → 0x40000000 ≤ a → a ≤ 0x4011FFFF → a % 65536 + 4 * n ≤ 65536 →
      (r.bulk = false → 8 ≤ p.length → n ≤ 11 → exec (.telemetryGetBlock r) s = .next (granted s t d (p8 off ++ zeros 6 ++ ws))) ∧
      (r.bulk = true → 24 ≤ p.length → n ≤ 16384 → bulkOk (bulkRef p 8) = true → 4 * n ≤ (bulkRef p 8).2.1 →
        exec (.telemetryGetBlock r) s = .next (granted s t { d with hostWrites := [(u64 p 8, ws)] } (p8 off) true))) ∧
    (∀ t, t = takes s .logRead r → served s t → r.bulk = false → 6 ≤ p.length → u16 p 4 = 1 → ∃ body, exec (.logRead r) s = .next (granted s t d body) ∧
      (BitVec.ofNat 32 (u32 p 0) = s.dev.fw.logSeq - BitVec.ofNat 32 s.dev.fw.log.length → ∀ e l, s.dev.fw.log = e :: l → l.length < 8192 →
        ∃ head, head.length = 19 ∧ body = head ++ logBytes e)) ∧
    (∀ t, t = takes s .logRead r → served s t → r.bulk = true → 24 ≤ p.length → 1 ≤ u16 p 4 → u16 p 4 ≤ 8192 → bulkOk (bulkRef p 8) = true →
      32 * u16 p 4 ≤ (bulkRef p 8).2.1 → ∃ body bs, exec (.logRead r) s = .next (granted s t { d with hostWrites := [(u64 p 8, bs)] } body true)) ∧
    (∀ t segs, t = takes s .outLatencyGet r → served s t → 12 ≤ p.length → let k := u8 p 8
      let input : Src := { kind := u8 p 0, chan := u8 p 1, index := u16 p 2 }
      (k = 1 ∧ u8 p 9 < 2 ∧ u16 p 10 < 16) ∨ (k = 2 ∧ u8 p 9 < 32 ∧ u16 p 10 < 8) ∨ (k = 3 ∧ u8 p 9 < 64 ∧ u16 p 10 < 256) →
      srcRange input = true → input.kind = 1 ∨ input.kind = 2 ∨ input.kind = 3 ∨ input.kind = 7 →
      (u16 p 4 = 0xFFFF ∧ u16 p 6 = 0xFFFF) ∨ (u16 p 4 < nObjects ∧ colOk (u16 p 6) = true) →
      pathSegs d input (if u16 p 4 = 0xFFFF then none else some (u16 p 4)) (if u16 p 6 = 0xFFFF then none else some (u16 p 6)) k (u8 p 9) (u16 p 10) = some segs →
      ∃ ns : Nat, exec (.outLatencyGet r) s = .next (granted s t d
        (p8 segs.length ++ zeros 2 ++ p32 ns ++ segs.flatMap (fun g => p8 g.dom ++ zeros 1 ++ p16 g.n)))) ∧
    (∀ t, t = takes s .fwUpdateBegin r → served s t → updateMode t = true → 12 ≤ p.length → u8 p 0 ≤ 1 → isZero p 1 3 = true → u32 p 4 ≠ 0 →
      u32 p 4 ≤ 33554432 → otherUpdate s.dev ch = false → s.dev.flash.running ≠ u8 p 0 → ∃ u, exec (.fwUpdateBegin r) s = .next u ∧
        u.dev.flash.update = some (ch, u8 p 0) ∧ erasing u.dev (u8 p 0) = true ∧
        tabGet u.dev.flash.slots (u8 p 0) = { state := .incomplete, length := u32 p 4, crc := BitVec.ofNat 32 (u32 p 8) }) ∧
    (∀ t slot, t = takes s .fwChunk r → served s t → updateMode t = true → s.dev.flash.update = some (ch, slot) →
      let x := tabGet s.dev.flash.slots slot
      let grown (bs : List Byte) : Slot := { x with received := u32 p 0 + bs.length, bytes := x.bytes ++ bs }
      let puts (bs : List Byte) : Dev := { d with flash := { s.dev.flash with slots := tabSet s.dev.flash.slots slot (grown bs) } }
      (r.bulk = false → 1 ≤ u16 p 4 → u16 p 4 ≤ 48 → isZero p 6 2 = true → 8 + u16 p 4 ≤ p.length → erasing s.dev slot = false → u32 p 0 = x.received →
        u32 p 0 + u16 p 4 ≤ x.length → exec (.fwChunk r) s = .next (granted s t (puts (slice p 8 (u16 p 4))) (zeros 3 ++ p32 (u32 p 0 + u16 p 4)))) ∧
      (r.bulk = true → 20 ≤ p.length → bulkOk (bulkRef p 4) = true → exec (.fwChunk r) s = .next (fetches s t d 4))) ∧
    (∀ t, t = takes s .fwCommit r → served s t → updateMode t = true → 4 ≤ p.length → u8 p 1 ≤ 3 → isZero p 2 2 = true → let slot := u8 p 0
      let x := tabGet s.dev.flash.slots slot
      slot ≤ 1 → s.dev.flash.update = some (ch, slot) → erasing s.dev slot = false → x.length ≤ x.received →
      (crc32c x.bytes = x.crc → imageCrcOk x.bytes = true → imageSigned s.dev.flash x.bytes = true → ∃ u, exec (.fwCommit r) s = .next u ∧
        u.dev.flash.update = none ∧ (tabGet u.dev.flash.slots slot).state = .valid ∧ (tabGet u.dev.flash.slots slot).bytes = x.bytes ∧
        (bit (u8 p 1) 0 = true → nextBoot u.dev.flash = slot) ∧ u.dev.flash.revoked = s.dev.flash.revoked ||| imageRevokes x.bytes ∧
        u.dev.fw.resetPending = s.dev.fw.resetPending ++ (if bit (u8 p 1) 1 then [.warm 3] else [])) ∧
      (crc32c x.bytes ≠ x.crc → ∃ u, exec (.fwCommit r) s = .next u ∧ u.dev.flash.update = none ∧ (tabGet u.dev.flash.slots slot).state = .invalid)) ∧
    (∀ t, t = takes s .fwSlotInfo r → served s t → ∃ body, exec (.fwSlotInfo r) s = .next (granted s t d body) ∧ body.length = 35 ∧
      u8 body 0 = s.dev.flash.running % 256 ∧ u8 body 3 = slotCode (tabGet s.dev.flash.slots 0).state ∧ u8 body 19 = slotCode (tabGet s.dev.flash.slots 1).state) ∧
    (∀ t, t = takes s .selftestRun r → served s t → 4 ≤ p.length → let m := u32 p 0
      inModes t [.selftest, .service, .twin] = true → (m % 16 = 0 ∨ tMode t = .selftest) → m / 16 % 16 = 0 → m < 2048 → s.dev.selftest.mask = none →
      (m = 0 → exec (.selftestRun r) s = .next (granted s t d (selfBody {}))) ∧
      (m ≠ 0 → exec (.selftestRun r) s = .next (awaits s t { d with selftest := { mask := some m } } .selftest)))

/-- Requests about time.  DOMAIN_CFG: a SET of a domain that runs waits for its boundary, of another it is made at once; START leads a
stopped domain to ACQUIRE; a STOP and a REALIGN of one that runs wait for its boundary.  PTP_CFG, PULSE_CFG and CAPTURE_CFG set the time
unit up. -/
def Obligations.ClockRequestsTakeEffect : Prop :=
  ∀ (r : Req) (s : State),
    let p := r.payload
    let d := quiet s
    let n := u8 p 0
    let x := getDom s.dev n
    let c := domCfgOf p
    (∀ t, t = takes s .domainCfg r → served s t → inModes t domModes = true → n ≤ 2 →
      (12 ≤ p.length → u8 p 1 = 0 → domCfgBad p = false → domBridgesOk d n c.rate = true → domFits d n c.rate c.allot = true →
        domChainsOk (storedView d) n c.rate = true →
        (tMode t = .singleRate → let e := domMod d n (fun x => { x with stored := some c })
          exec (.domainCfgSet r) s = .next (granted s t e (domBody e n))) ∧
        (tMode t ≠ .singleRate → x.state = .stopped ∨ c.rate = x.cfg.rate →
          (domRuns x.state = true → exec (.domainCfgSet r) s = .next (committed s t d n)) ∧
          (domRuns x.state = false → ∃ e, exec (.domainCfgSet r) s = .next (granted s t e (domBody e n)) ∧ (getDom e n).cfg = c ∧
            (getDom e n).state = x.state ∧ (getDom e n).mt = x.mt ∧ ∀ k, k ≠ n → getDom e k = getDom s.dev k))) ∧
      (2 ≤ p.length → u8 p 1 = 1 →
        (tMode t = .singleRate → n = 0 → exec (.domainCfgStart r) s = .next (granted s t d (domBody d n))) ∧
        (tMode t ≠ .singleRate → x.state ≠ .stopped → exec (.domainCfgStart r) s = .next (granted s t d (domBody d n))) ∧
        (tMode t ≠ .singleRate → x.state = .stopped → ∃ e, exec (.domainCfgStart r) s = .next (granted s t e (domBody e n)) ∧
          (getDom e n).state = .acquire ∧ (getDom e n).cfg = x.cfg ∧ (getDom e n).started = true ∧ (getDom e n).within = 0 ∧
          ∀ k, k ≠ n → getDom e k = getDom s.dev k)) ∧
      (2 ≤ p.length → u8 p 1 = 2 →
        (tMode t = .singleRate → n ≠ 0 → exec (.domainStop r) s = .next (granted s t d (domBody d n))) ∧
        (tMode t ≠ .singleRate → x.state = .stopped → exec (.domainStop r) s = .next (granted s t d (domBody d n))) ∧
        (tMode t ≠ .singleRate → domRuns x.state = true ∨ realignCounts d n = true → exec (.domainStop r) s = .next (committed s t d n)) ∧
        (tMode t ≠ .singleRate → x.state = .acquire ∨ (x.state = .realign ∧ realignCounts d n = false) → ∃ e, exec (.domainStop r) s = .next (granted s t e (domBody e n)) ∧
          (getDom e n).state = .stopped ∧ (getDom e n).started = false ∧ ∀ k, k ≠ n → getDom e k = getDom s.dev k)) ∧
      (2 ≤ p.length → u8 p 1 = 3 → (tMode t = .singleRate → n = 0) →
        (x.state = .acquire ∨ x.state = .realign → exec (.domainCfgRealign r) s = .next (granted s t d (domBody d n))) ∧
        (domRuns x.state = true → refValid s.dev n x.cfg = true → exec (.domainCfgRealign r) s = .next (committed s t d n)))) ∧
    (∀ t, t = takes s .domainCfg r → served s t → n ≤ 2 → 2 ≤ p.length → u8 p 1 = 4 →
      exec (.domainCfgGet r) s = .next (granted s t d (domBody d n)) ∧ (domBody d n).length = 31 ∧ u8 (domBody d n) 0 = domCode x.state ∧
      u32 (domBody d n) 3 = x.cfg.rate % 2 ^ 32 ∧ u32 (domBody d n) 7 = x.mt.toNat) ∧
    (∀ t, t = takes s .ptpCfg r → served s t → inModes t [.config, .service, .twin, .singleRate] = true → 24 ≤ p.length → ptpCfgBad p = false →
      ∃ e, exec (.ptpCfg r) s = .next (granted s t e []) ∧ e.time.ptp.cfg = ptpCfgOf p ∧ e.time.dt = s.dev.time.dt ∧
        (u8 p 0 = 0 → e.time.ptp.state = .disabled) ∧ (u8 p 0 ≠ 0 → s.dev.time.ptp.state = .disabled → e.time.ptp.state = .freerun) ∧
        ∀ k, k < 4 → (getPtpPort e k).role ≠ .disabled → ptpEnabled e k = true) ∧
    (∀ t, t = takes s .pulseCfg r → served s t → 24 ≤ p.length → n ≤ 7 → let q := pulseCfgOf p
      let diff := sext 64 (wrapNat 64 ((q.start.toNat : Int) - s.dev.time.dt.toNat))
      pulseBad d q = false → (q.mode ≠ 0 → q.timebase = 0 → diff.natAbs < 2 ^ 47) → (q.mode = 1 → q.timebase = 0 → 20000 ≤ diff) →
      ∃ e body, exec (.pulseCfg r) s = .next (granted s t e body) ∧ body.length = 8 ∧
        (∀ k, k ≠ n → tabGet e.time.pulses k = tabGet s.dev.time.pulses k) ∧
        ((tabGet s.dev.time.pulses n).running = true → (tabGet e.time.pulses n).pending = some (q, s.dev.time.dt + 20000) ∧
          (tabGet e.time.pulses n).cfg = (tabGet s.dev.time.pulses n).cfg) ∧
        ((tabGet s.dev.time.pulses n).running = false → (tabGet s.dev.time.pulses n).highUntil = none →
          tabGet e.time.pulses n = pulseStart d q (tabGet s.dev.time.pulses n) (s.dev.time.dt + 20000) ∧ (tabGet e.time.pulses n).cfg = q)) ∧
    (∀ t, t = takes s .captureCfg r → served s t → 8 ≤ p.length → n ≤ 3 → u8 p 1 ≤ 3 → u8 p 2 ≤ 3 → u8 p 3 ≤ 2 → 100 ≤ u32 p 4 → u32 p 4 ≤ 1000000000 →
      exec (.captureCfg r) s = .next (granted s t (capMod d n (fun c => { c with
        edge := u8 p 1, flags := BitVec.ofNat 8 (u8 p 2), domain := u8 p 3, minInterval := u32 p 4, fifo := if u8 p 1 = 0 then [] else c.fifo })) []))

/-- Requests about objects, columns and layouts.  In CONFIG a change is made at once; elsewhere OBJ_CFG and BUS_CFG are shadow commits, and
timed updates, routes and direct writes enter their queues, LATE where their time has passed but is still served. -/
def Obligations.SceneRequestsTakeEffect : Prop :=
  ∀ (r : Req) (s : State),
    let p := r.payload
    let d := quiet s
    let sc := s.dev.scene
    let no := u16 p 0
    let o := getObj sc no
    let n := effDom s.dev o.domain
    let scene (sc' : Scene) : Dev := { d with scene := sc' }
    (∀ t, t = takes s .layoutBegin r → served s t → inModes t modes4 = true → 16 ≤ p.length → u8 p 0 ≤ 2 → u8 p 1 = 0 → 3 ≤ u16 p 2 → u16 p 2 ≤ nSpeakers →
      u32 p 4 ≤ 2147483647 → u32 p 8 ≤ 2000000 → (tMode t = .singleRate → u8 p 0 = 0) → sc.job = none →
      (∀ l, sc.layout = some l → effDom d l.dom = u8 p 0 ∨ sc.objs.any (fun kv => kv.2.enabled && !kv.2.direct) = false) →
      exec (.layoutBegin r) s = .next (granted s t (scene { sc with build := some { dom := u8 p 0, count := u16 p 2, rIn := u32 p 4, rampUs := if u32 p 8 = 0 then 100000 else u32 p 8, id := BitVec.ofNat 32 (u32 p 12) } }) [])) ∧
    (∀ t b es, t = takes s .layoutSpk r → served s t → inModes t modes4 = true → let k := u8 p 0
      4 + 16 * k ≤ p.length → 1 ≤ k → k ≤ 3 → isZero p 1 3 = true → sc.build = some b → sc.job = none → es = (List.range k).filterMap (spkEntry p) →
      es.length = k → (es.map (·.no)).eraseDups.length = k → (∀ e, e ∈ es → b.spks.any (fun x => x.no == e.no) = false ∧ busBound sc e.no = false) →
      b.spks.length + k ≤ b.count →
      exec (.layoutSpk r) s = .next (granted s t (scene { sc with build := some { b with spks := b.spks ++ es } }) [])) ∧
    (∀ t, t = takes s .layoutCommit r → served s t → inModes t modes4 = true → 8 ≤ p.length → isZero p 5 3 = true → sc.job = none →
      (u8 p 4 = 0 ∨ (u8 p 4 = 1 ∧ atOnceMode t = true) → sc.build ≠ none → exec (.layoutCommit r) s =
        .next (underWay s t (scene { sc with job := some (layoutJob sc t false none) }))) ∧
      (u8 p 4 = 2 → sc.build = none → sc.layout ≠ none → exec (.layoutCommit r) s =
        .next (underWay s t (scene { sc with job := some (layoutJob sc t true none) }))) ∧
      (∀ b, u8 p 4 = 1 → atOnceMode t = false → sc.build = some b → u32 p 0 % 16 = 0 → let k := effDom d b.dom
        mtDiff (BitVec.ofNat 32 (u32 p 0)) (selBoundary d k) ≤ 8 * rateOf d k → exec (.layoutCommit r) s =
        .next (underWay s t (scene { sc with job := some (layoutJob sc t false (some (BitVec.ofNat 32 (u32 p 0)))) })))) ∧
    (∀ t c, t = takes s .objCfg r → served s t → inModes t modes4 = true → 16 ≤ p.length → u8 p 2 ≤ 2 → (tMode t = .singleRate → u8 p 2 = 0) → no ≠ 0xFFFF →
      c = objCfgOf t → objCfgBad d t = false → o.disable = none →
      (c.enable = true → o.enabled = false ∨ n = c.dom → (c.src.kind = 5 → (portSlotDom s.dev.tiles.sched c.src.index).isSome = true) →
        (c.src.kind ≠ 0 → srcDom d (objSrc c.src) = some (effDom d c.dom)) → objFits d c = true →
        exec (.objCfg r) s = .next (changes s t c.dom (applyObjCfg d t none).1 (mtBody none)) ∧
        (atOnceMode t = true → (getObj (applyObjCfg d t none).1.scene no).enabled = true ∧ (getObj (applyObjCfg d t none).1.scene no).src = c.src ∧
          (∀ k, k ≠ no → (getObj (applyObjCfg d t none).1.scene k).enabled = (getObj sc k).enabled))) ∧
      (c.enable = false → exec (.objCfg r) s = .next (changes s t (if o.enabled then n else c.dom) (applyObjCfg d t none).1 (mtBody none)) ∧
        (atOnceMode t = true → (getObj (applyObjCfg d t none).1.scene no).enabled = false))) ∧
    (∀ t, t = takes s .objCfg r → served s t → inModes t modes4 = true → 16 ≤ p.length → u8 p 2 ≤ 2 → (tMode t = .singleRate → u8 p 2 = 0) → no = 0xFFFF →
      u8 p 9 ≤ 10 → exec (.objCfg r) s = .next (changes s t (u8 p 2) (sceneRun d (fun sc => floorChange sc (u8 p 2) (u8 p 9) (rateIn d (u8 p 2)) none)) (mtBody none))) ∧
    (∀ t u, t = takes s .objUpdate r → served s t → inModes t modes4 = true → 44 ≤ p.length → updOf (slice p 0 44) none = some u → (getObj sc u.obj).enabled = true →
      (atOnceMode t = true → let e := sceneMod (countClamps d u.clamps) (fun sc => objMod sc u.obj (fun o => updNow o u))
        exec (.objUpdate r) s = .next (granted s t e (updBody e 0)) ∧ (getObj e.scene u.obj).st = { setFields u.mask u.vals (getObj sc u.obj).st with jump := u.vals.jump } ∧
        ∀ k, k ≠ u.obj → getObj e.scene k = getObj sc k) ∧
      (∀ sc' w, atOnceMode t = false → let k := effDom d (getObj sc u.obj).domain
        domRuns (getDom d k).state = true → isLeader s.dev = false → (judgeAt d k u.t = .onTime ∧ w = false) ∨ ((∃ b, judgeAt d k u.t = .late b) ∧ w = true) →
        enqueueMeta sc { updEntry d u with late := w, hold := applyHold d k } = some sc' →
        exec (.objUpdate r) s = .next (answered s t (countClamps (scene sc') u.clamps) (if w then .late else .ok)
          (updBody (countClamps (scene sc') u.clamps) (selBoundary d k))))) ∧
    (∀ t, t = takes s .objUpdateBatch r → served s t → inModes t modes4 = true → 16 ≤ p.length → r.bulk = true → bulkOk (bulkRef p 0) = true →
      exec (.objUpdateBatch r) s = .next (fetches s t d 0)) ∧
    (∀ t, t = takes s .objQuery r → served s t → 2 ≤ p.length → no < nObjects →
      exec (.objQuery r) s = .next (granted s t d (objQueryBody sc no n (mtOf s.dev n)))) ∧
    (∀ t, t = takes s .routeSet r → served s t → inModes t modes4 = true → routeShapeBad p = false → o.enabled = true → let rt := routeOf p
      (rt.mode = 1 → layoutIn d n = true) →
      (∀ x, x ∈ rt.sends → x.bus < nAux ∧ colTakes d n (576 + x.bus) = true ∧ (getCol sc (576 + x.bus)).bind.mode = 2) →
      (atOnceMode t = true → let e := sceneMod (countClamps d (routeClamps p)) (fun sc => objMod sc no (fun o => applyRoute o rt))
        exec (.routeSet r) s = .next (granted s t e (updBody e 0)) ∧ getObj e.scene no = applyRoute o rt) ∧
      (∀ sc', atOnceMode t = false → domRuns (getDom d n).state = true → isLeader s.dev = false → judgeAt d n (BitVec.ofNat 32 (u32 p 4)) = .onTime →
        enqueueMeta sc { obj := no, dom := n, t := BitVec.ofNat 32 (u32 p 4), mask := 0, vals := {}, route := some rt, late := false,
                         rampUs := some (if u32 p 8 = 0 then o.defRampUs else u32 p 8), hold := applyHold d n } = some sc' →
        exec (.routeSet r) s = .next (granted s t (countClamps (scene sc') (routeClamps p)) (updBody (countClamps (scene sc') (routeClamps p)) (selBoundary d n))))) ∧
    (∀ t, t = takes s .busCfg r → served s t → inModes t modes4 = true → busShapeBad p = false → let m := u8 p 2
      let named (x : List Spk) : Bool := x.any (fun x => x.no == no)
      (m = 2 ∨ m = 3 → 576 ≤ no) → (m = 4 → no = 512) → (m = 3 ∨ m = 4 → layoutIn d (effDom d (u8 p 3)) = true) → (tMode t = .singleRate → u8 p 3 = 0) →
      (∀ l, sc.layout = some l → named l.spks = false) → (atOnceMode t = false → sc.oldCols.contains no = false ∧ ∀ k, k ∈ busCols sc no m → (getCol sc k).unbind = none) →
      (∀ b, sc.job ≠ none → sc.build = some b → named b.spks = false) → (m = 0 ∨ bindingFits d (busTrial sc (busCols sc no m) (busDest (busCfgOf sc p) no)) = true) →
      exec (.busCfg r) s = .next (changes s t (if (getCol sc no).bind.mode ≠ 0 then effDom d (getCol sc no).bind.dom else u8 p 3) (applyBusCfg d t none).1 (mtBody none)) ∧
      (atOnceMode t = true → ∀ k, k ∈ busCols sc no m → (getCol (applyBusCfg d t none).1.scene k).bind = busDest (busCfgOf sc p) no k)) ∧
    (∀ t, t = takes s .matrixDirect r → served s t → inModes t modes4 = true → directShapeBad p = false → o.enabled = true → o.direct = true →
      (∀ c, c ∈ directCols p → colOk c.1 = true ∧ colTakes d n c.1 = true ∧ (getCol sc c.1).bind.mode ≠ 2) →
      (atOnceMode t = true → let e := sceneMod (countClamps d (directClamps p)) (fun sc => objMod sc no (fun o => directWrite o (bit (u8 p 3) 0) (directCols p)))
        exec (.matrixDirect r) s = .next (granted s t e (directBody e 0)) ∧ getObj e.scene no = directWrite o (bit (u8 p 3) 0) (directCols p)) ∧
      (∀ sc', atOnceMode t = false → domRuns (getDom d n).state = true → isLeader s.dev = false → judgeAt d n (BitVec.ofNat 32 (u32 p 4)) = .onTime →
        enqueueDirect sc { obj := no, dom := n, t := BitVec.ofNat 32 (u32 p 4), rampUs := if u32 p 8 = 0 then o.defRampUs else u32 p 8, clear := bit (u8 p 3) 0,
                           cols := directCols p, late := false, hold := applyHold d n } = some sc' →
        exec (.matrixDirect r) s = .next (granted s t (countClamps (scene sc') (directClamps p)) (directBody (countClamps (scene sc') (directClamps p)) (selBoundary d n)))))

/-- Speaker-chain requests.  A change of a column or bass group is stored at once in CONFIG and where no running domain is concerned,
elsewhere it is a shadow commit; GR_READ clears what it reads; a timed OUT_GAIN or OUT_MUTE waits for its MT. -/
def Obligations.ChainRequestsTakeEffect : Prop :=
  ∀ (r : Req) (s : State),
    let p := r.payload
    let d := quiet s
    let c := u16 p 0
    let out (mute : Bool) (i : Instr) (t : Taken) : Prop :=
      let n := colDom d c
      let f := colRate d c
      let S := selBoundary d n
      let mt : MT := BitVec.ofNat 32 (u32 p 4)
      let t0 := if mtDiff (blockOf mt) S < 0 then S else mt
      let x : Timed := { t := t0, n := outLen (if u32 p 8 = 0 then 10000 else u32 p 8) f, target := outTarget p mute }
      served s t → inModes t modes5 = true → 16 ≤ p.length → chainCol c = true → (mute = true → u8 p 2 ≤ 1 ∧ u8 p 3 = 0) → u32 p 8 ≤ 2000000 → u8 p 12 ≤ 3 →
      isZero p 13 3 = true →
      (atOnceMode t = true ∨ boundCol d c = false ∨ domRuns (getDom d n).state = false ∨ bit (u8 p 12) 0 = false → let e := (applyOut mute d t none).1
        exec i s = .next (chainChanges s t (colDomOf d c) e (mtBody none)) ∧
        (∀ k, k ∈ outCols d p → getChain e k = (if mute then { getChain d k with muteSet := u8 p 2 == 1 } else { getChain d k with goutSet := cdbGain (clampCdb (i16 p 2)) })) ∧
        ∀ k, k ∉ outCols d p → getChain e k = getChain d k) ∧
      (atOnceMode t = false → boundCol d c = true → domRuns (getDom d n).state = true → bit (u8 p 12) 0 = true → mtDiff mt S ≤ 8 * f →
        ∃ e, exec i s = .next (answered s t e (if mtDiff (blockOf mt) S < 0 then .late else .ok) (mtBody (some t0))) ∧
          (∀ k, k ∈ outCols d p → getChain e k = (if mute then { getChain d k with timedMute := some x } else { getChain d k with timedGain := some x })) ∧
          ∀ k, k ∉ outCols d p → getChain e k = getChain d k)
    (∀ t, t = takes s .chainCfg r → served s t → inModes t modes5 = true → 8 ≤ p.length → u8 p 0 = 0 → u8 p 1 = 0 → let m := u16 p 2
      chainCol m = true → u8 p 4 ≤ 31 → u8 p 5 ≤ 3 → u8 p 6 ≤ 15 ∨ u8 p 6 = 255 → u8 p 7 ≤ 64 → (576 ≤ m → u8 p 6 = 255) →
      (u8 p 6 ≤ 15 → (tabGet d.chain.groups (u8 p 6)).order = 0 ∨ (tabGet d.chain.groups (u8 p 6)).dests ≠ []) → let e := (applyChainColumn d t none).1
      exec (.chainCfgColumn r) s = .next (chainChanges s t (colDomOf d m) e (mtBody none)) ∧ e = { d with chain := e.chain } ∧
      e.chain.groups = d.chain.groups ∧ (∀ k, k ≠ m → getChain e k = getChain d k) ∧ (getChain e m).st = (getChain d m).st ∧
      (getChain e m).cfg = { (getChain d m).cfg with
        byBass := bit (u8 p 4) 0, byEq := bit (u8 p 4) 1, byFir := bit (u8 p 4) 2, byDelay := bit (u8 p 4) 3, byDyn := bit (u8 p 4) 4,
        invert := bit (u8 p 5) 0, ownLp := bit (u8 p 5) 1, group := u8 p 6, xfade := if u8 p 7 = 0 then 1 else u8 p 7 }) ∧
    (∀ t, t = takes s .chainCfg r → served s t → inModes t modes5 = true → 12 ≤ p.length → u8 p 0 = 1 → let g := u16 p 2
      let b := bassGroupOf p
      b.order ≤ 3 → g ≤ 15 → 20000 ≤ b.crossover → b.crossover ≤ 300000 → u8 p 10 ≤ 8 → u8 p 11 = 0 → 12 + 2 * u8 p 10 ≤ p.length →
      (∀ x, x ∈ b.dests → spkType d.scene.layout x = some 1) → b.dests.eraseDups.length = b.dests.length → (b.order ≠ 0 → b.dests ≠ []) →
      (b.order = 0 ∨ b.dests = [] → groupHasMembers d g = false) → let e := (applyBassGroup d t none).1
      exec (.chainCfgBassGroup r) s = .next (chainChanges s t (d.scene.layout.map (fun l => effDom d l.dom)) e (mtBody none)) ∧
      e.chain.cols = d.chain.cols ∧ tabGet e.chain.groups g = b ∧ ∀ k, k ≠ g → tabGet e.chain.groups k = tabGet d.chain.groups k) ∧
    (∀ t, t = takes s .eqSet r → served s t → inModes t modes5 = true → 4 ≤ p.length → chainCol c = true → let n := u8 p 2
      1 ≤ n → n ≤ 4 → u8 p 3 = 0 → 4 + 12 * n ≤ p.length → (∀ i, i < n → eqEntryBad p (colRate d c) n i = false) →
      ((List.range n).map (fun i => (eqEntry p i).1)).eraseDups.length = n → let e := (applyEqSet d t none).1
      let bands := (getChain e c).cfg.bands
      exec (.eqSet r) s = .next (chainChanges s t (colDomOf d c) e (mtBody none)) ∧ (∀ k, k ≠ c → getChain e k = getChain d k) ∧
      (∀ i, i < n → tabGet bands (eqEntry p i).1 = (eqEntry p i).2) ∧
      (∀ k, (∀ i, i < n → (eqEntry p i).1 ≠ k) → tabGet bands k = tabGet (getChain d c).cfg.bands k)) ∧
    (∀ t, t = takes s .delaySet r → served s t → inModes t modes5 = true → 4 ≤ p.length → let n := u8 p 0
      1 ≤ n → n ≤ 12 → isZero p 1 3 = true → 4 + 4 * n ≤ p.length → (∀ x, x ∈ delayPairs p → chainCol x.1 = true ∧ x.2 ≤ 4096 ∧ tapsFit d t none x.1 = true) →
      ((delayPairs p).map Prod.fst).eraseDups.length = n → let e := (applyDelaySet d t none).1
      exec (.delaySet r) s = .next (chainChanges s t ((delayPairs p).filterMap (fun x => colDomOf d x.1)).head? e (mtBody none)) ∧
      (∀ x, x ∈ delayPairs p → getChain e x.1 = { getChain d x.1 with cfg := { (getChain d x.1).cfg with align := x.2 } }) ∧
      (∀ k, (∀ x, x ∈ delayPairs p → x.1 ≠ k) → getChain e k = getChain d k)) ∧
    (∀ t, t = takes s .dynCfg r → served s t → inModes t modes5 = true → 40 ≤ p.length → chainCol c = true → u8 p 2 = 0 → u8 p 3 ≤ 15 →
      dynOk (dynCfgOf p) = true → peakOk (dynCfgOf p) (colRate d c) = true → tapsFit d t none c = true → let e := (applyDynSet d t none).1
      exec (.dynCfgSet r) s = .next (chainChanges s t (colDomOf d c) e (mtBody none)) ∧ e = { d with chain := e.chain } ∧
      getChain e c = { getChain d c with cfg := { (getChain d c).cfg with dyn := dynCfgOf p } } ∧ ∀ k, k ≠ c → getChain e k = getChain d k) ∧
    (∀ t, t = takes s .dynCfg r → served s t → 4 ≤ p.length → u8 p 2 = 1 → let n := u8 p 3
      1 ≤ n → n ≤ 12 → (∀ i, i < n → chainCol (c + i) = true) → ∃ e, exec (.grRead r) s = .next (granted s t e
        (zeros 3 ++ p32 (mtOf d (if boundCol d c then colDom d c else effDom d 0)).toNat ++
          (List.range n).flatMap (fun i => p16 (getChain d (c + i)).st.holdC ++ p16 (getChain d (c + i)).st.holdL))) ∧ e = { d with chain := e.chain } ∧
        e.chain.groups = d.chain.groups ∧
        (∀ i, i < n → getChain e (c + i) = { getChain d (c + i) with st := { (getChain d (c + i)).st with holdC := 0, holdL := 0 } }) ∧
        ∀ k, k < c ∨ c + n ≤ k → getChain e k = getChain d k) ∧
    (∀ t, t = takes s .outGain r → out false (.outGain r) t) ∧
    (∀ t, t = takes s .outMute r → out true (.outMute r) t)

/-- Requests about convolution and HALO.  A load's region is fetched; a commit swaps the sets of its channels at once in CONFIG and is
held until they are READY elsewhere; an orientation counts from a boundary. -/
def Obligations.MantleRequestsTakeEffect : Prop :=
  ∀ (r : Req) (s : State),
    let p := r.payload
    let d := quiet s
    let h := d.mantle.halo
    let halo (h' : Halo) : Dev := { d with mantle := { d.mantle with halo := h' } }
    (∀ t, t = takes s .firLoad r → served s t → inModes t modes5 = true → 20 ≤ p.length → r.bulk = true → u8 p 17 ≤ 1 → u16 p 18 = 0 →
      bulkOk (bulkRef p 0) = true → firBusy d = false →
      (u8 p 16 = 0 → exec (.firLoadMap r) s = .next (fetches s t d 0)) ∧
      (u8 p 16 = 1 → u8 p 17 = 0 → exec (.firLoadData r) s = .next (fetches s t d 0))) ∧
    (∀ t, t = takes s .firCommit r → served s t → inModes t modes5 = true → 12 ≤ p.length → let cs := commitChans d p
      let named := if u8 p 0 = 1 then some (u8 p 1) else none
      let n := (commitDomOf d named cs).getD 0
      (u8 p 0 = 0 ∧ u16 p 2 ≤ 639) ∨ (u8 p 0 = 1 ∧ u8 p 1 ≤ 2) → u8 p 8 ≤ 1 → u8 p 9 ≤ 64 → u16 p 10 = 0 →
      (atOnceMode t = true → commitFault d cs = none → let e := swapChans d cs none
        exec (.firCommit r) s = .next (granted s t e (commitBody cs.length 0 0xFFFF)) ∧
        (cs.Nodup → ∀ k, (getMch e k).a = (getMch d k).a ∧ (getMch e k).b = (getMch d k).b ∧
          (cs.contains k = true → (getMch e k).activeB = !(getMch d k).activeB ∧ (getMch e k).fade = none) ∧ (cs.contains k = false → getMch e k = getMch d k))) ∧
      (atOnceMode t = false → let mt : MT := BitVec.ofNat 32 (u32 p 4)
        let timed := bit (u8 p 8) 0
        (timed = true → u32 p 4 % 16 = 0 ∧ mtDiff mt (selBoundary d n) ≤ 8 * rateOf d n) →
        let held (judged : Bool) : State := underWay s t { d with mantle := { d.mantle with commits := d.mantle.commits ++
          [{ taken := t, chans := cs, atMt := if timed then some mt else none, n := 16 * (if u8 p 9 = 0 then 8 else u8 p 9), named := named, judged := judged,
             st := if mode d == .twin && !isFollower d then some (selBoundary d n) else none }] } }
        (∀ k, commitDomOf d named cs = some k →
          (domRuns (getDom d k).state = true → exec (.firCommit r) s = .next (held false)) ∧
          (domRuns (getDom d k).state = false → commitFault d cs = none → exec (.firCommit r) s = .next (held true))) ∧
        (commitDomOf d named cs = none → commitFault d cs = none → mode d ≠ .twin →
          (cs.all (fun m => chanReady (getMch d m)) = true →
            exec (.firCommit r) s = .next (granted s t (swapChans d cs none) (commitBody cs.length 0 0xFFFF))) ∧
          (cs.all (fun m => chanReady (getMch d m)) = false → exec (.firCommit r) s = .next (held true))))) ∧
    (∀ t, t = takes s .firStatus r → served s t → let mt : MT := (firSnap d).mt
      (1 ≤ p.length → u8 p 0 = 1 → exec (.firStatus r) s = .next (granted s t d ((firSnap d).head ++ p32 mt.toNat ++ (firSnap d).tail ++ p32 tapBudget))) ∧
      (5 ≤ p.length → u8 p 0 = 0 → u8 p 1 = 0 → 1 ≤ u8 p 4 → u8 p 4 ≤ 6 → u16 p 2 + u8 p 4 ≤ 640 → exec (.firStatus r) s =
        .next (granted s t d (zeros 3 ++ p32 mt.toNat ++ (List.range (u8 p 4)).flatMap (fun i =>
          (((firSnap d).chans.find? (fun kv => kv.1 == u16 p 2 + i)).map Prod.snd).getD (zeros 8))))) ∧
      (domRuns (getDom d 0).state = false → mt = 0 ∧ (firSnap d).head.length = 3 ∧ (firSnap d).tail.length = 12 ∧
        u16 (firSnap d).head 1 = (d.mantle.ch.filter (fun kv => fading kv.2)).length % 65536 ∧
        (firSnap d).chans = d.mantle.ch.map (fun kv => (kv.1, firChanBytes d kv.1)))) ∧
    (∀ t, t = takes s .haloCfg r → served s t → inModes t modes5 = true → 8 ≤ p.length → u8 p 0 = 0 → u8 p 1 ≤ 3 → u32 p 4 ≤ 2000000 →
      let e := (applyHaloSet d t none).1
      (∀ n, haloDom d = some n → exec (.haloCfgSet r) s = .next (changes s t n e (haloBody e 0))) ∧
      (haloDom d = none → exec (.haloCfgSet r) s = .next (granted s t e (haloBody e 0))) ∧
      e.mantle.halo = { h with rotate := bit (u8 p 1) 0, gain := clampCdb (i16 p 2), muted := bit (u8 p 1) 1, rotOld := none }) ∧
    (∀ t, t = takes s .haloCfg r → served s t → inModes t modes5 = true → 12 ≤ p.length → u8 p 0 = 1 → u8 p 1 ≤ 1 → -9000 ≤ i16 p 4 → i16 p 4 ≤ 9000 →
      ∀ n, haloDom d = some n → let mt : MT := BitVec.ofNat 32 (u32 p 8)
      let o : Orient := { yaw := reduceAz (i16 p 2), pitch := i16 p 4, roll := reduceAz (i16 p 6) }
      let S := selBoundary d n
      let wait (k : MT) : Dev := halo { h with pending := some (o, k) }
      (atOnceMode t = true ∨ domRuns (getDom d n).state = false → let e := halo { h with orient := o, pending := none }
        exec (.haloCfgOrient r) s = .next (granted s t e (haloBody e 0))) ∧
      (atOnceMode t = false → domRuns (getDom d n).state = true →
        (bit (u8 p 1) 0 = false → exec (.haloCfgOrient r) s = .next (granted s t (wait S) (haloBody (wait S) S))) ∧
        (bit (u8 p 1) 0 = true → mtDiff mt S ≤ 8 * rateOf d n →
          (0 ≤ mtDiff (blockOf mt) S → exec (.haloCfgOrient r) s = .next (granted s t (wait (blockOf mt)) (haloBody (wait (blockOf mt)) (blockOf mt)))) ∧
          (mtDiff (blockOf mt) S < 0 → exec (.haloCfgOrient r) s = .next (answered s t (wait S) .late (haloBody (wait S) S)))))) ∧
    (∀ t, t = takes s .haloCfg r → served s t → inModes t modes5 = true → 1 ≤ p.length → u8 p 0 = 2 →
      exec (.haloCfgGet r) s = .next (granted s t d (haloBody d 0)) ∧ (haloBody d 0).length = 13)

/-- Requests about bridges, microphones, detectors, calibration and tracking. -/
def Obligations.SenseRequestsTakeEffect : Prop :=
  ∀ (r : Req) (s : State),
    let p := r.payload
    let d := quiet s
    let i := u16 p 0
    let m := u8 p 0
    let mic := getMic d m
    let det := getDet d m
    (∀ t n, t = takes s .seamCfg r → served s t → 12 ≤ p.length → i ≤ 255 → u8 p 2 = 0 → inModes t modes5 = true → let c := seamCfgOf p
      let v := storedView d
      let old := (getBr d i).cfg
      u8 p 3 ≤ 1 → 1 ≤ c.kind → c.kind ≤ 7 → c.outDom ≤ 2 → isZero p 9 3 = true → srcRange (seamSrc c) = true → srcDom v (seamSrc c) = some n → n ≠ c.outDom →
      ratioOk (rateOf v n) (rateOf v c.outDom) = true → (mode d = .twin → c.kind ≠ 7) →
      (tMode t = .singleRate → let e : Dev := { d with seam := { d.seam with stored := tabSet d.seam.stored i c } }
        exec (.seamCfgSet r) s = .next (granted s t e (seamBody e i 0))) ∧
      (tMode t ≠ .singleRate → let e := (applySeam d t none).1
        exec (.seamCfgSet r) s = .next (changes s t (if old.enable then old.outDom else c.outDom) e (seamBody e i 0)) ∧ (getBr e i).cfg = c ∧
        ∀ k, k ≠ i → getBr e k = getBr d k)) ∧
    (∀ t, t = takes s .seamCfg r → served s t → 3 ≤ p.length → i ≤ 255 → u8 p 2 = 1 →
      exec (.seamCfgGet r) s = .next (granted s t d (seamBody d i (mtOf d (effDom d (getBr d i).cfg.outDom))))) ∧
    (∀ t, t = takes s .micCfg r → served s t → 8 ≤ p.length → m ≤ 7 → u8 p 1 = 0 → inModes t modes5 = true → let c := micCfgOf p
      c.domain ≤ 2 → (tMode t = .singleRate → c.domain = 0) → u8 p 3 ≤ 3 → c.frac ≤ 63 → (mic.cfg.enable = true → c.domain = effDom d mic.cfg.domain) →
      let a := applyMic d t none
      exec (.micCfgSet r) s = .next (changesPd s t c.domain 6 c.enable (powerPlan a.1) a.2.2) ∧ (∀ k, k ≠ m → getMic a.1 k = getMic d k) ∧
      (tMode t = .config → pathMode d ≠ .singleRate → (getMic a.1 m).cfg = c)) ∧
    (∀ t, t = takes s .micCfg r → served s t → 2 ≤ p.length → m ≤ 7 → u8 p 1 = 1 →
      exec (.micCfgGet r) s = .next (granted s t d (micBody d m (mtOf d (effDom d mic.cfg.domain))))) ∧
    (∀ t, t = takes s .toneDetCfg r → served s t → 16 ≤ p.length → m ≤ 7 → u8 p 1 = 0 → inModes t modes5 = true → let n := effDom d mic.cfg.domain
      let f := rateOf d n
      let S := selBoundary d n
      let t0 : MT := BitVec.ofNat 32 (u32 p 12)
      let set (k : MT) (late : Bool) : Det := { det with repeats := bit (u8 p 2) 0, freq := u32 p 4, len := u32 p 8, lateStart := late, stopping := false,
                                                          run := some { t0 := k }, ended := [], res := { det.res with windows := 0 } }
      u8 p 2 ≤ 3 → u8 p 3 = 0 → 1000 ≤ u32 p 4 → u32 p 4 ≤ 450 * f → 16 ≤ u32 p 8 → u32 p 8 ≤ 65536 → (bit (u8 p 2) 1 = true → u32 p 12 % 16 = 0) →
      mic.cfg.enable = true →
      (atOnceMode t = true ∨ bit (u8 p 2) 1 = false → let e := detMod d m (fun _ => set (nextMt (mtOf d n)) false)
        exec (.toneDetCfgSet r) s = .next (changes s t n e (detReply (getDet e m)))) ∧
      (atOnceMode t = false → bit (u8 p 2) 1 = true → mtDiff t0 S ≤ 8 * f → let e := detMod d m (fun _ => set (if mtDiff t0 S < 0 then S else t0) (mtDiff t0 S < 0))
        exec (.toneDetCfgSet r) s = .next (answered s t e (if mtDiff t0 S < 0 then .late else .ok) (detReply (getDet e m))))) ∧
    (∀ t, t = takes s .toneDetCfg r → served s t → 2 ≤ p.length → m ≤ 7 → mic.cfg.enable = true →
      (u8 p 1 = 1 → inModes t modes5 = true → let e := detMod d m (fun x => { x with stopping := true })
        exec (.toneDetCfgStop r) s = .next (granted s t e (detReply (getDet e m)))) ∧
      (u8 p 1 = 2 → exec (.toneDetCfgGet r) s = .next (granted s t d (detReply det)))) ∧
    (∀ t, t = takes s .calStart r → served s t → 36 ≤ p.length → u8 p 0 = 0 → tMode t = .calibrate → measureBad d p = false → let c := calCfgOf d p
      c.spks.length * c.mics.length * c.irTaps ≤ 6291456 → c.mics.length * capLen c ≤ 2097152 → (∀ k, k ∈ c.mics → (getMic d k).state = .track) →
      measuring d = false → exec (.calStartMeasure r) s = .next (committed s t d ((layDom d).getD 0))) ∧
    (∀ t, t = takes s .calStart r → served s t → 28 ≤ p.length → u8 p 0 = 1 → tMode t = .calibrate → designBad d p = false → let c := designCfgOf p
      let ss := designSpks d (u16 p 2) (u16 p 4)
      ss ≠ [] → (∀ k, k ∈ ss → (spkPowers d c k).isSome = true ∧ ∃ x, spkExtent d k = some x ∧ c.taps ≤ x.2.lam ∧ fading (getMch d x.1) = false ∧
        heldCommit d x.1 = false) → firBusy d = false → ∃ e, exec (.calStartDesign r) s = .next (underWay s t e) ∧
        e.mantle.load = some { asked := some t, chans := ss.filterMap (fun k => (spkExtent d k).map Prod.fst) } ∧
        e.cal.design.map Prod.fst = ss.filterMap (fun k => (spkExtent d k).map Prod.fst) ∧ ∀ x, x ∈ e.cal.design → x.2.length = c.taps) ∧
    (∀ t, t = takes s .calStart r → served s t → 1 ≤ p.length → u8 p 0 = 2 → inModes t [.calibrate, .service, .twin] = true →
      ∃ e, exec (.calStartAbort r) s = .next (granted s t e []) ∧ e.cal.run = none ∧ e.cal.ended = none) ∧
    (∀ t, t = takes s .calResult r → served s t → inModes t [.calibrate, .service, .twin] = true → let first := u16 p 2
      let h := tabGet d.cal.resp (pairIx first (u8 p 6))
      u8 p 1 = 0 → u8 p 6 ≤ 7 →
      (7 ≤ p.length → u8 p 0 = 0 → u16 p 4 = 1 → first < nSpeakers → d.cal.skipped.contains first = false → h.h ≠ [] → exec (.calResult r) s = .next (granted s t d
        (p8 (b2n h.disturbed) ++ s16 h.peakLevel ++ p32 h.peak ++ p32 h.onset ++ s16 h.noise ++ zeros 2))) ∧
      (24 ≤ p.length → r.bulk = true → bulkOk (bulkRef p 8) = true → u8 p 0 = 1 → 1 ≤ u16 p 4 → first + u16 p 4 ≤ nSpeakers → ∀ bs : List Byte,
        (∀ k, k < u16 p 4 → (tabGet d.cal.resp (pairIx (first + k) (u8 p 6))).h ≠ []) →
        bs = (List.range (u16 p 4)).flatMap (fun k => (tabGet d.cal.resp (pairIx (first + k) (u8 p 6))).h.flatMap (fun v => p32 v.toNat)) →
        bs.length = (bulkRef p 8).2.1 →
        exec (.calResult r) s = .next (granted s t { d with hostWrites := [(u64 p 8, bs)] } (zeros 3 ++ p32 (crc32c bs).toNat) true))) ∧
    (∀ t, t = takes s .trackCfg r → served s t → inModes t [.service, .twin] = true → 12 ≤ p.length → u8 p 0 = 0 → let c := trackCfgOf p
      u8 p 1 ≤ 7 → spksIn d c.spkFirst c.spkCount = true → micsBound d c.mics = true → u8 p 7 = 0 → 1000 ≤ c.windowMs → c.windowMs ≤ 60000 → 50 ≤ c.threshold →
      c.threshold ≤ 1200 → (c.propose = true → d.cal.lastDesign ≠ none) → exec (.trackCfgSet r) s = .next (granted s t { d with track := { d.track with
        cfg := c, group := 0, start := mtOf d ((layDom d).getD 0), acc := [], skips := 0, late := false, since := mtOf d ((layDom d).getD 0), broken := false } } [])) ∧
    (∀ t, t = takes s .trackCfg r → served s t →
      (1 ≤ p.length → u8 p 0 = 1 → ∃ b, exec (.trackCfgGet r) s = .next (granted s t d b) ∧ b.length = 17 ∧ u16 b 1 = d.track.cfg.spkFirst % 65536 ∧
        u16 b 9 = d.track.cfg.threshold % 65536) ∧
      (∀ q, 4 ≤ p.length → u8 p 0 = 2 → u16 p 2 < nSpeakers → tabGet d.track.reps (u16 p 2) = some q → ∃ b, exec (.trackCfgRead r) s = .next (granted s t d b) ∧
        u16 b 1 = q.valid % 65536 ∧ u32 b 3 = q.mt.toNat)) ∧
    (∀ t, t = takes s .trackProposal r → served s t → u8 p 1 = 0 →
      (24 ≤ p.length → u8 p 0 = 0 → r.bulk = true → bulkOk (bulkRef p 8) = true → 64 ≤ (bulkRef p 8).2.1 → ∃ bs : List Byte, bs.length = 64 ∧
        (∀ k, k < 512 → (bs.getD (k / 8) 0).getLsbD (k % 8) = (tabGet d.track.props k).isSome) ∧
        exec (.trackProposalList r) s = .next (granted s t { d with hostWrites := [(u64 p 8, bs)] } (zeros 3 ++ p32 (crc32c bs).toNat) true)) ∧
      (∀ q bs, 24 ≤ p.length → u8 p 0 = 1 → r.bulk = true → bulkOk (bulkRef p 8) = true → u16 p 2 < nSpeakers → tabGet d.track.props (u16 p 2) = some q →
        bs = firRegion [((spkChan d (u16 p 2)).getD 0xFFFF, proposalTaps d (u16 p 2) q)] → bs.length ≤ (bulkRef p 8).2.1 →
        exec (.trackProposalRead r) s = .next (granted s t { d with hostWrites := [(u64 p 8, bs)] } (zeros 3 ++ p32 (crc32c bs).toNat) true)) ∧
      (∀ q, 4 ≤ p.length → u8 p 0 = 2 → u16 p 2 < nSpeakers → tabGet d.track.props (u16 p 2) = some q → ∃ e, exec (.trackProposalDiscard r) s = .next (granted s t e []) ∧
        e = { d with track := { d.track with props := e.track.props } } ∧ tabGet e.track.props (u16 p 2) = none ∧
        ∀ k, k ≠ u16 p 2 → tabGet e.track.props k = tabGet d.track.props k))

/-- Requests about AES3 and TDM ports.  A SET that enables needs the port engine's power domain; CS_READ clears CS_CHANGED; a TDM port
that runs takes its masks at a frame, and a stopped one keeps them; a group is set and dissolved as a shadow commit. -/
def Obligations.PortRequestsTakeEffect : Prop :=
  ∀ (r : Req) (s : State),
    let p := r.payload
    let d := quiet s
    let kind := u8 p 0
    let i := u8 p 1
    let n := u8 p 0
    let tdm := getTdm d n
    let a (t : Taken) : Dev := (applyPort d t none).1
    let group (t : Taken) : Dev := (applyGroup d t none).1
    (∀ t, t = takes s .portCfg r → served s t → inModes t modes5 = true → 20 ≤ p.length → portKinds kind i = true → u8 p 2 = 0 → portSetBad d p = false →
      (portOn d kind i = true → u8 p 4 = effDom d (portDom d kind i)) →
      exec (.portCfgSet r) s = .next (changesPd s t (u8 p 4) 6 (bit (u8 p 3) 0) (powerPlan (a t)) (mtBody none)) ∧
      (kind = 0 → (getAes (a t) i).cfg = { aesRxCfgOf p with domain := portKeepDom d kind i (u8 p 4) } ∧ ∀ k, k ≠ i → getAes (a t) k = getAes d k) ∧
      (kind = 1 → (getAtx (a t) i).cfg = { aesTxCfgOf p with domain := portKeepDom d kind i (u8 p 4) } ∧ ∀ k, k ≠ i → getAtx (a t) k = getAtx d k) ∧
      (kind = 2 → let c := { tdmCfgOf p with domain := portKeepDom d kind i (u8 p 4) }
        ((getTdm (a t) i).cfg = c ∨ (getTdm (a t) i).pend = some c) ∧
        ((getTdm d i).state = .stopped → (getTdm (a t) i).cfg = c ∧ ((getTdm (a t) i).state = if c.enable && c.target then .noClock else .stopped)) ∧
        ∀ k, k ≠ i → getTdm (a t) k = getTdm d k)) ∧
    (∀ t, t = takes s .portCfg r → served s t → 3 ≤ p.length → portKinds kind i = true → u8 p 2 = 1 → ∃ b, exec (.portCfgGet r) s = .next (granted s t d b) ∧
      b.length = 23 ∧ u8 b 0 = (if kind = 0 then aesCode (getAes d i).state else if kind = 1 then b2n ((getAtx d i).phase != .off) else tdmCode (getTdm d i).state) ∧
      u32 b 3 = (if kind = 0 then aesRate d i else if kind = 1 then rateIn d (getAtx d i).cfg.domain else tdmRate d i) % 2 ^ 32 ∧
      u32 b 15 = (if kind = 0 then (getAes d i).slips else if kind = 1 then (getAtx d i).slips else (getTdm d i).slips).toNat) ∧
    (∀ t, t = takes s .portCfg r → served s t → inModes t modes5 = true → 12 ≤ p.length → portKinds kind i = true → kind ≠ 0 → u8 p 2 = 2 → u8 p 3 = 0 → u8 p 4 ≤ 2 →
      isZero p 5 3 = true → let first := u8 p 8
      let count := u8 p 9
      1 ≤ count → count ≤ 10 → first + count ≤ (if kind = 1 then 2 else 32) → u16 p 10 = 0 → 12 + 4 * count ≤ p.length →
      (∀ j, j < count → srcFits d (portDom d kind i) (srcEntry p (12 + 4 * j)) = true ∧ (mode d = .twin → (srcEntry p (12 + 4 * j)).kind ≠ 7)) →
      exec (.portCfgSource r) s = .next (changes s t (portDom d kind i) (a t) (mtBody none)) ∧
      (kind = 2 → ∀ j, j < count → (tabGet (getTdm (a t) i).tx (first + j)).src = srcEntry p (12 + 4 * j)) ∧
      (kind = 1 → ∀ j, j < count → (if first + j = 0 then (getAtx (a t) i).chA.src else (getAtx (a t) i).chB.src) = srcEntry p (12 + 4 * j))) ∧
    (∀ t b, t = takes s .portCfg r → served s t → 9 ≤ p.length → kind = 0 → i ≤ 15 → u8 p 2 = 3 → u8 p 3 = 0 → isZero p 5 3 = true → let x := getAes d i
      let pro := blockBit b.cs 0
      u8 p 8 ≤ 1 → (if u8 p 8 = 0 then x.blkA else x.blkB) = some b → exec (.csRead r) s = .next (granted s t
        (aesMod d i (fun x => { x with changed := x.changed.set (u8 p 8) false }))
        (p8 (b2n pro + 2 * b2n b.crcBad + 4 * b2n (!pro) + 8 * b2n (blockBit b.cs 1) + 16 * b2n (x.changed.getD (u8 p 8) false)) ++ zeros 2 ++
          slice b.cs 0 24 ++ slice b.user 0 24))) ∧
    (∀ t, t = takes s .portCfg r → served s t → inModes t modes5 = true → 36 ≤ p.length → kind = 1 → i ≤ 15 → u8 p 2 = 4 → u8 p 3 = 0 → u8 p 4 ≤ 2 →
      isZero p 5 3 = true → u8 p 8 ≤ 1 → u8 p 9 ≤ 3 → u16 p 10 = 0 → let x := getAtx d i
      let bs := slice p 12 24
      exec (.csWrite r) s = .next (changes s t (portDom d 1 i) (a t) (mtBody none)) ∧
      (u8 p 8 = 0 → getAtx (a t) i = { x with csA := if bit (u8 p 9) 0 then bs else x.csA, csB := if bit (u8 p 9) 1 then bs else x.csB }) ∧
      (u8 p 8 = 1 → getAtx (a t) i = { x with userA := if bit (u8 p 9) 0 then bs else x.userA, userB := if bit (u8 p 9) 1 then bs else x.userB })) ∧
    (∀ t, t = takes s .slotMask r → served s t → inModes t modes5 = true → 16 ≤ p.length → n ≤ 7 → let fl := u8 p 1
      let mt : MT := BitVec.ofNat 32 (u32 p 12)
      let dom := effDom d tdm.cfg.domain
      let masks (x : Tdm) : Tdm := { x with rxShadow := if bit fl 1 then BitVec.ofNat 32 (u32 p 4) else x.rxShadow,
                                            txShadow := if bit fl 2 then BitVec.ofNat 32 (u32 p 8) else x.txShadow }
      fl ≤ 7 → u16 p 2 = 0 → (bit fl 1 = true → u32 p 4 < 2 ^ tdm.cfg.slots) → (bit fl 2 = true → u32 p 8 < 2 ^ tdm.cfg.slots) →
      (bit fl 0 = true → mtDiff mt (mtOf d dom) ≤ 8 * rateOf d dom) → tdm.armed = false →
      (tdm.state = .starting ∨ tdm.state = .running → ∃ e, exec (.slotMask r) s = .next (awaits s t e (.slotMask n)) ∧ e = { d with ports := e.ports } ∧
        getTdm e n = { masks tdm with armed := true, atMt := bit fl 0, maskAt := if bit fl 0 then mt else tdm.maskAt } ∧ ∀ k, k ≠ n → getTdm e k = getTdm d k) ∧
      (tdm.state ≠ .starting → tdm.state ≠ .running → exec (.slotMask r) s = .next (granted s t (tdmMod d n (fun x => { masks x with startCopy := true })) (mtBody none)))) ∧
    (∀ t k, t = takes s .alignGroup r → served s t → inModes t modes5 = true → 4 ≤ p.length → n ≤ 7 → u8 p 1 = 0 → u8 p 3 = 0 → let ms := alignMembers p
      ms ≠ [] → ms.length ≤ 12 → 4 + 4 * ms.length ≤ p.length → (∀ j, j < ms.length → u8 p (5 + 4 * j) = 0) →
      (∀ m, m ∈ ms → memberDom d m = some k ∧ (memberGroup d.ports m.kind m.index = none ∨ memberGroup d.ports m.kind m.index = some n)) →
      (ms.map (fun m => (m.kind, m.index))).eraseDups.length = ms.length →
      exec (.alignGroupSet r) s = .next (changes s t k (group t) (groupBody (group t) n 0 false)) ∧ group t = { d with ports := (group t).ports } ∧
      (tabGet (group t).ports.groups n).dom = k ∧ (tabGet (group t).ports.groups n).members.map (fun m => (m.kind, m.index)) = ms.map (fun m => (m.kind, m.index)) ∧
      ∀ g, g ≠ n → tabGet (group t).ports.groups g = tabGet d.ports.groups g) ∧
    (∀ t, t = takes s .alignGroup r → served s t → 2 ≤ p.length → n ≤ 7 → u8 p 1 = 1 → ∃ e, exec (.alignGroupGet r) s = .next (granted s t e
      (groupBody d n (tabGet d.ports.groups n).mt true)) ∧ e = { d with ports := e.ports } ∧
      ∀ k, k ∉ (tabGet d.ports.groups n).members.map (·.index) → getAes e k = getAes d k ∧ getTdm e k = getTdm d k) ∧
    (∀ t, t = takes s .alignGroup r → served s t → inModes t modes5 = true → 2 ≤ p.length → n ≤ 7 → u8 p 1 = 2 →
      exec (.alignGroupDissolve r) s = .next (changes s t (tabGet d.ports.groups n).dom (group t) (groupBody (group t) n 0 false)) ∧
      (tabGet (group t).ports.groups n).members = [] ∧ ∀ g, g ≠ n → tabGet (group t).ports.groups g = tabGet d.ports.groups g)

/-- Requests about network ports, flows and gates. -/
def Obligations.NetworkRequestsTakeEffect : Prop :=
  ∀ (r : Req) (s : State),
    let p := r.payload
    let d := quiet s
    let n := u8 p 0
    let i := u16 p 0
    let rx := getRx d i
    let tx := getTx d i
    let rxNow (t : Taken) : Dev := (applyFlowRx d t none).1
    let txNow (t : Taken) : Dev := (applyFlowTx d t none).1
    (∀ t, t = takes s .netPortCfg r → served s t → inModes t modes5 = true → 44 ≤ p.length → n ≤ 3 → u8 p 1 = 0 → netCfgBad p = false → let c := netCfgOf p
      ((getNet d n).cfg.jumbo = true → c.jumbo = false → needsJumbo d n = false) → ∃ e, exec (.netPortCfgSet r) s = .next
        (if c.speed != 0 && !pdOn e (netPd n) then awaits s t e (.powerOn (netPd n) []) else granted s t e []) ∧
        (getNet e n).cfg = c ∧ (getNet e n).thresh = 512 ∧ (∀ k, k ≠ n → (getNet e k).cfg = (getNet d k).cfg) ∧
        ((getNet d n).cfg.speed ≠ c.speed ∨ (getNet d n).cfg.fec ≠ c.fec → (getNet e n).up = false)) ∧
    (∀ t, t = takes s .netPortCfg r → served s t → 2 ≤ p.length → n ≤ 3 → u8 p 1 = 1 → ∃ b, exec (.netPortCfgGet r) s = .next (granted s t d b) ∧
      u8 b 0 = b2n (getNet d n).up ∧ u8 b 1 = (getNet d n).cfg.speed % 256 ∧ u8 b 2 = (getNet d n).cfg.fec % 256) ∧
    (∀ t, t = takes s .netPortCfg r → served s t → inModes t modes5 = true → 16 ≤ p.length → n ≤ 15 → u8 p 1 = 2 → u8 p 2 ≤ 15 → u8 p 3 ≤ 63 → u8 p 4 ≤ 3 →
      exec (.netPortCfgFilter r) s = .next (granted s t { d with net := { d.net with filters := tabSet d.net.filters (u8 p 2) (filterOf p) } } [])) ∧
    (∀ t, t = takes s .flowRxCfg r → served s t → inModes t modes5 = true → let old := decide (verOf t.major t.minor < 2)
      (if old then 20 else 32) ≤ p.length → u8 p 2 = 0 → rxCfgBad d p old = false → let c := rxCfgOf p
      (rx.cfg.enable = true → rx.cfg.domain = c.domain) → (c.enable = true → legClash d i c rx.legs = false ∧ rxFits d i c = true) →
      exec (.flowRxCfgSet r) s = .next (changes s t c.domain (rxNow t) (mtBody none)) ∧ (getRx (rxNow t) i).cfg = c ∧
      ∀ k, k ≠ i → getRx (rxNow t) k = getRx d k) ∧
    (∀ t, t = takes s .flowRxCfg r → served s t → inModes t modes5 = true → 40 ≤ p.length → i ≤ 255 → u8 p 2 = 1 → u8 p 3 ≤ 1 → u16 p 6 = 0 →
      let l := { tabGet rx.legs (u8 p 3) with set := true, udp := u16 p 4, dst := slice p 8 16, src := slice p 24 16 }
      (rx.cfg.enable = true → legClash d i rx.cfg (tabMod rx.legs (u8 p 3) (fun l => { l with set := true, udp := u16 p 4, dst := slice p 8 16, src := slice p 24 16 })) = false) →
      exec (.flowRxCfgLeg r) s = .next (changes s t rx.cfg.domain (rxNow t) (mtBody none)) ∧
      tabGet (getRx (rxNow t) i).legs (u8 p 3) = { l with up := false, seq := none } ∧ (getRx (rxNow t) i).cfg = rx.cfg ∧
      ∀ k, k ≠ i → getRx (rxNow t) k = getRx d k) ∧
    (∀ t, t = takes s .flowTxCfg r → served s t → inModes t modes5 = true → 20 ≤ p.length → u8 p 2 = 0 → txCfgBad d p = false →
      (tx.cfg.enable = true → tx.cfg.domain = u8 p 4) →
      exec (.flowTxCfgSet r) s = .next (changes s t (u8 p 4) (txNow t) (mtBody none)) ∧ getTx (txNow t) i = { tx with cfg := txCfgOf p } ∧
      ∀ k, k ≠ i → getTx (txNow t) k = getTx d k) ∧
    (∀ t, t = takes s .flowTxCfg r → served s t → inModes t modes5 = true → 24 ≤ p.length → i ≤ 255 → u8 p 2 = 1 → u8 p 3 ≤ 1 →
      exec (.flowTxCfgLeg r) s = .next (changes s t tx.cfg.domain (txNow t) (mtBody none)) ∧ (getTx (txNow t) i).cfg = tx.cfg ∧
      tabGet (getTx (txNow t) i).legs (u8 p 3) = { set := true, srcUdp := u16 p 4, dstUdp := u16 p 6, dst := slice p 8 16 } ∧
      ∀ k, k ≠ i → getTx (txNow t) k = getTx d k) ∧
    (∀ t, t = takes s .flowTxCfg r → served s t → inModes t modes5 = true → 8 ≤ p.length → i ≤ 255 → u8 p 2 = 2 → let first := u8 p 3
      let count := u8 p 4
      1 ≤ count → count ≤ 12 → first + count ≤ 64 → isZero p 5 3 = true → 8 + 4 * count ≤ p.length →
      (∀ j, j < count → srcFits d tx.cfg.domain (srcEntry p (8 + 4 * j)) = true ∧ (mode d = .twin → (srcEntry p (8 + 4 * j)).kind ≠ 7)) →
      exec (.flowTxCfgSource r) s = .next (changes s t tx.cfg.domain (txNow t) (mtBody none)) ∧ (getTx (txNow t) i).cfg = tx.cfg ∧
      (∀ j, j < count → tabGet (getTx (txNow t) i).chans (first + j) = { src := srcEntry p (8 + 4 * j) }) ∧
      (∀ c, c < first ∨ first + count ≤ c → tabGet (getTx (txNow t) i).chans c = tabGet tx.chans c) ∧ ∀ k, k ≠ i → getTx (txNow t) k = getTx d k) ∧
    (∀ t, t = takes s .flowState r → served s t → 3 ≤ p.length → i ≤ 255 →
      (u8 p 2 = 0 → let m := effDom d rx.cfg.domain
        ∃ e, exec (.flowState r) s = .next (granted s t e (if rx.view.isEmpty || !mtRuns (getDom d m) then rxView rx (mtOf d m) else rx.view)) ∧
          e = { d with net := e.net } ∧ (getRx e i).ssrcChanged = false ∧ (getRx e i).cfg = rx.cfg ∧ ∀ k, k ≠ i → getRx e k = getRx d k) ∧
      (u8 p 2 = 1 → let m := effDom d tx.cfg.domain
        exec (.flowState r) s = .next (granted s t d (if tx.view.isEmpty || !mtRuns (getDom d m) then txView d tx (mtOf d m) else tx.view)))) ∧
    (∀ t, t = takes s .gateList r → served s t → inModes t modes5 = true → 32 ≤ p.length → r.bulk = true → u8 p 16 ≤ 3 → 1000 ≤ u32 p 28 → u32 p 28 ≤ 1000000000 →
      (u8 p 17 = 0 → 1 ≤ u16 p 18 → u16 p 18 ≤ 256 → bulkOk (bulkRef p 0) = true → exec (.gateListSet r) s = .next (fetches s t d 0)) ∧
      (u8 p 17 = 1 → ∃ e, exec (.gateListClear r) s = .next (underWay s t e) ∧
        (getNet e (u8 p 16)).gatePend = some (none, changeTime (now d).toNat (u64 p 20) (u32 p 28), t) ∧
        ((getNet d (u8 p 16)).gatePend = none → e = netPortMod d (u8 p 16) (fun x => { x with gatePend := some (none, changeTime (now d).toNat (u64 p 20) (u32 p 28), t) }))))

/-- Requests about the pair and about graphs.  A swap is told to the partner, or stored where the partner asks; an image is fetched after
its slot is dropped; a START or STOP switches its domains at once in CONFIG and at boundaries elsewhere. -/
def Obligations.TwinAndGraphRequestsTakeEffect : Prop :=
  ∀ (r : Req) (s : State),
    let p := r.payload
    let d := quiet s
    let tw := d.twin
    let g := d.tiles.sched
    let change (i : Instr) (t : Taken) (slotByte : Nat) (dest : Option Nat) : Prop :=
      let names := (List.range 3).filter (fun n => bit (u8 p 1) n)
      let timed := bit (u8 p 2) 0 && !atOnceMode t
      let mt : MT := BitVec.ofNat 32 (u32 p 4)
      let runs (n : Nat) : Bool := domRuns (getDom d n).state
      let next (n : Nat) : Option Nat := if names.contains n then dest else toRun g n
      served s t → inModes t graphModes = true → 8 ≤ p.length → u8 p 1 ≤ 7 → u8 p 2 ≤ 1 → u8 p 3 = 0 → (timed = true → u32 p 4 % 16 = 0) →
      (timed = true → ∀ n, n ∈ names → runs n = true → mtDiff mt (selBoundary d n) ≤ 8 * rateOf d n) →
      (∀ k, dest = some k → (tabGet g.slots k).state = .loaded) → (∀ n, n ∈ names → tabGet g.switches n = none) →
      runsFit g next (graphRate d) = true →
      (atOnceMode t = true → exec i s = .next (granted s t (names.foldl (fun d n => graphSwitch d n dest (mtOf d n + 16)) d) (switchBody slotByte []))) ∧
      (atOnceMode t = false → ∃ e, e = { d with tiles := { d.tiles with sched := e.tiles.sched } } ∧
        e.tiles.sched = { g with nextReq := g.nextReq + 1, switches := e.tiles.sched.switches, switchReqs := e.tiles.sched.switchReqs } ∧
        (∀ n, n ∈ names → tabGet e.tiles.sched.switches n = some { dest := dest, reqNo := g.nextReq, atMt := if !runs n then none else if timed && mtGe mt (selBoundary d n) then some mt else some (selBoundary d n) }) ∧
        (∀ n, n ∉ names → tabGet e.tiles.sched.switches n = tabGet g.switches n) ∧
        ((∀ n, n ∈ names → (getDom d n).state = .stopped) → exec i s = .next (granted s t e (switchBody slotByte []))) ∧
        (∀ n, n ∈ names → (getDom d n).state ≠ .stopped → exec i s = .next (underWay s t e)))
    (∀ t, t = takes s .twinCfg r → served s t → tMode t = .config ∨ tMode t = .service → 32 ≤ p.length → u8 p 0 = 0 → twinCfgBad p = false → let c := twinCfgOf p
      let e := powerPlan { d with twin := { tw with cfg := c } }
      (c.enable = true → micRenders d = false) →
      exec (.twinCfgSet r) s = .next (if c.enable && !pdOn e 5 then awaits s t (needPd e 5) (.powerOn 5 []) else granted s t e [])) ∧
    (∀ t, t = takes s .twinCfg r → served s t → 1 ≤ p.length → u8 p 0 = 1 → ∃ b, exec (.twinCfgGet r) s = .next (granted s t d b) ∧
      u8 b 0 = b2n tw.cfg.enable + 2 * b2n tw.cfg.both ∧ u8 b 1 = tw.cfg.rolePref % 256 ∧ u8 b 2 = tw.cfg.txLeg % 256 ∧ u8 b 3 = tw.cfg.hbPorts % 256) ∧
    (∀ t, t = takes s .twinState r → served s t → ∃ b, exec (.twinState r) s = .next (granted s t d b) ∧ b.length = 47 ∧ u8 b 0 = pairCode tw.state ∧
      u8 b 1 = tw.partner % 256 ∧ u64 b 7 = tw.partnerId.toNat ∧ u32 b 15 = (hbMt d).toNat ∧ u32 b 19 = tw.diverge.toNat ∧ u32 b 23 = tw.resyncs.toNat) ∧
    (∀ t, t = takes s .twinSwap r → served s t → tMode t = .twin → 8 ≤ p.length → u32 p 0 % 16 = 0 → u8 p 4 ≤ 1 → isZero p 5 3 = true →
      let S := selBoundary d (ticketDom d 0)
      let mt : MT := BitVec.ofNat 32 (u32 p 0)
      let x := some (t, (if bit (u8 p 4) 0 && mtLater mt S then mt else S), bit (u8 p 4) 0)
      (r.ch.val = 5 → tw.state = .synced → exec (.twinSwap r) s = .next (underWay s t { d with twin := { tw with swap := x } })) ∧
      (r.ch.val ≠ 5 → tw.state = .leader → tw.partner = 6 → tw.swap = none → ∃ e, exec (.twinSwap r) s = .next (underWay s t e) ∧ e.twin.swap = x ∧
        e.twin.nextTicket = tw.nextTicket + 1 ∧ e.twin.state = .leader ∧ e.scene = d.scene ∧ e.fw = d.fw)) ∧
    (∀ t, t = takes s .graphLoad r → served s t → inModes t graphModes = true → 20 ≤ p.length → let slot := u8 p 16
      slot ≤ 1 → isZero p 17 3 = true → r.bulk = true → bulkOk (bulkRef p 0) = true → slotRuns g slot = false → graphBusy d = false → ∃ e,
        exec (.graphLoad r) s = .next (fetches s t e 0) ∧ e = { d with tiles := e.tiles } ∧ (tabGet e.tiles.sched.slots slot).state = .empty ∧
        tabGet e.tiles.sched.slots (1 - slot) = tabGet g.slots (1 - slot) ∧ ∀ kv, kv ∈ e.tiles.sched.tasks ↔ kv ∈ g.tasks ∧ kv.2.slot ≠ slot) ∧
    (∀ t, t = takes s .graphStart r → u8 p 0 ≤ 1 → change (.graphStart r) t (u8 p 0) (some (u8 p 0))) ∧
    (∀ t, t = takes s .graphStop r → change (.graphStop r) t 0xFF none) ∧
    (∀ t k, t = takes s .taskCancel r → served s t → inModes t graphModes = true → 12 ≤ p.length → u8 p 0 ≤ 1 → u8 p 1 ≤ 1 ∨ u8 p 1 = 0xFF → let dom := u8 p 2
      let slot : Option Nat := if u8 p 1 = 0xFF then none else some (u8 p 1)
      let mt : MT := BitVec.ofNat 32 (u32 p 8)
      let c : Cancel := { instance_ := u8 p 0 == 1, slot := slot, dom := dom, task := k, mt := mt, taken := t }
      dom ≤ 2 → u8 p 3 = 0 → isZero p 6 2 = true → u32 p 8 % 16 = 0 → mtDiff mt (selBoundary d dom) ≤ 8 * rateOf d dom →
      (if u8 p 0 = 1 then some 0 else cancelIndex d slot dom (u16 p 4)) = some k → domRuns (getDom d dom).state = true →
      (mt = mtOf d dom → cancelRuns g c = true → exec (.taskCancel r) s = .next (underWay s t
        { d with tiles := schedTick (schedMod (applyCancel d.tiles (baseRuns d dom) c).1 (fun g => { g with cancels := g.cancels ++ [(applyCancel d.tiles (baseRuns d dom) c).2] })) })) ∧
      (mtLater mt (mtOf d dom) = true → (g.cancels.filter (fun x => !x.applied)).length < 64 →
        exec (.taskCancel r) s = .next (underWay s t { d with tiles := { d.tiles with sched := { g with cancels := g.cancels ++ [c] } } })))
end

