-- ==== Sys2Proof/Laws/State.lean ====
section
/-! SUPPORT. What each record update of the device leaves and writes: one lemma for each field and update, true by
definition. -/

namespace Sys2Proof.Machine

variable (d : Dev)

@[simp] theorem fw_aon (f : Fw → Fw) : (fw d f).aon = d.aon := rfl
@[simp] theorem fw_power (f : Fw → Fw) : (fw d f).power = d.power := rfl
@[simp] theorem fw_flash (f : Fw → Fw) : (fw d f).flash = d.flash := rfl
@[simp] theorem fw_fw (f : Fw → Fw) : (fw d f).fw = f d.fw := rfl
@[simp] theorem fw_hif (f : Fw → Fw) : (fw d f).hif = d.hif := rfl
@[simp] theorem fw_mbx (f : Fw → Fw) : (fw d f).mbx = d.mbx := rfl
@[simp] theorem fw_time (f : Fw → Fw) : (fw d f).time = d.time := rfl
@[simp] theorem fw_dom (f : Fw → Fw) : (fw d f).dom = d.dom := rfl
@[simp] theorem fw_scene (f : Fw → Fw) : (fw d f).scene = d.scene := rfl
@[simp] theorem fw_chain (f : Fw → Fw) : (fw d f).chain = d.chain := rfl
@[simp] theorem fw_mantle (f : Fw → Fw) : (fw d f).mantle = d.mantle := rfl
@[simp] theorem fw_seam (f : Fw → Fw) : (fw d f).seam = d.seam := rfl
@[simp] theorem fw_mics (f : Fw → Fw) : (fw d f).mics = d.mics := rfl
@[simp] theorem fw_cal (f : Fw → Fw) : (fw d f).cal = d.cal := rfl
@[simp] theorem fw_track (f : Fw → Fw) : (fw d f).track = d.track := rfl
@[simp] theorem fw_sense (f : Fw → Fw) : (fw d f).sense = d.sense := rfl
@[simp] theorem fw_selftest (f : Fw → Fw) : (fw d f).selftest = d.selftest := rfl
@[simp] theorem fw_ports (f : Fw → Fw) : (fw d f).ports = d.ports := rfl
@[simp] theorem fw_net (f : Fw → Fw) : (fw d f).net = d.net := rfl
@[simp] theorem fw_twin (f : Fw → Fw) : (fw d f).twin = d.twin := rfl
@[simp] theorem fw_render (f : Fw → Fw) : (fw d f).render = d.render := rfl
@[simp] theorem fw_tiles (f : Fw → Fw) : (fw d f).tiles = d.tiles := rfl
@[simp] theorem fw_dma (f : Fw → Fw) : (fw d f).dma = d.dma := rfl
@[simp] theorem fw_mtx (f : Fw → Fw) : (fw d f).mtx = d.mtx := rfl
@[simp] theorem fw_hostWrites (f : Fw → Fw) : (fw d f).hostWrites = d.hostWrites := rfl
@[simp] theorem fw_free (f : Fw → Fw) : (fw d f).free = d.free := rfl

@[simp] theorem hif_aon (f : Hif → Hif) : (hif d f).aon = d.aon := rfl
@[simp] theorem hif_power (f : Hif → Hif) : (hif d f).power = d.power := rfl
@[simp] theorem hif_flash (f : Hif → Hif) : (hif d f).flash = d.flash := rfl
@[simp] theorem hif_fw (f : Hif → Hif) : (hif d f).fw = d.fw := rfl
@[simp] theorem hif_hif (f : Hif → Hif) : (hif d f).hif = f d.hif := rfl
@[simp] theorem hif_mbx (f : Hif → Hif) : (hif d f).mbx = d.mbx := rfl
@[simp] theorem hif_time (f : Hif → Hif) : (hif d f).time = d.time := rfl
@[simp] theorem hif_dom (f : Hif → Hif) : (hif d f).dom = d.dom := rfl
@[simp] theorem hif_scene (f : Hif → Hif) : (hif d f).scene = d.scene := rfl
@[simp] theorem hif_chain (f : Hif → Hif) : (hif d f).chain = d.chain := rfl
@[simp] theorem hif_mantle (f : Hif → Hif) : (hif d f).mantle = d.mantle := rfl
@[simp] theorem hif_seam (f : Hif → Hif) : (hif d f).seam = d.seam := rfl
@[simp] theorem hif_mics (f : Hif → Hif) : (hif d f).mics = d.mics := rfl
@[simp] theorem hif_cal (f : Hif → Hif) : (hif d f).cal = d.cal := rfl
@[simp] theorem hif_track (f : Hif → Hif) : (hif d f).track = d.track := rfl
@[simp] theorem hif_sense (f : Hif → Hif) : (hif d f).sense = d.sense := rfl
@[simp] theorem hif_selftest (f : Hif → Hif) : (hif d f).selftest = d.selftest := rfl
@[simp] theorem hif_ports (f : Hif → Hif) : (hif d f).ports = d.ports := rfl
@[simp] theorem hif_net (f : Hif → Hif) : (hif d f).net = d.net := rfl
@[simp] theorem hif_twin (f : Hif → Hif) : (hif d f).twin = d.twin := rfl
@[simp] theorem hif_render (f : Hif → Hif) : (hif d f).render = d.render := rfl
@[simp] theorem hif_tiles (f : Hif → Hif) : (hif d f).tiles = d.tiles := rfl
@[simp] theorem hif_dma (f : Hif → Hif) : (hif d f).dma = d.dma := rfl
@[simp] theorem hif_mtx (f : Hif → Hif) : (hif d f).mtx = d.mtx := rfl
@[simp] theorem hif_hostWrites (f : Hif → Hif) : (hif d f).hostWrites = d.hostWrites := rfl
@[simp] theorem hif_free (f : Hif → Hif) : (hif d f).free = d.free := rfl

@[simp] theorem twinMod_aon (f : Twin → Twin) : (twinMod d f).aon = d.aon := rfl
@[simp] theorem twinMod_power (f : Twin → Twin) : (twinMod d f).power = d.power := rfl
@[simp] theorem twinMod_flash (f : Twin → Twin) : (twinMod d f).flash = d.flash := rfl
@[simp] theorem twinMod_fw (f : Twin → Twin) : (twinMod d f).fw = d.fw := rfl
@[simp] theorem twinMod_hif (f : Twin → Twin) : (twinMod d f).hif = d.hif := rfl
@[simp] theorem twinMod_mbx (f : Twin → Twin) : (twinMod d f).mbx = d.mbx := rfl
@[simp] theorem twinMod_time (f : Twin → Twin) : (twinMod d f).time = d.time := rfl
@[simp] theorem twinMod_dom (f : Twin → Twin) : (twinMod d f).dom = d.dom := rfl
@[simp] theorem twinMod_scene (f : Twin → Twin) : (twinMod d f).scene = d.scene := rfl
@[simp] theorem twinMod_chain (f : Twin → Twin) : (twinMod d f).chain = d.chain := rfl
@[simp] theorem twinMod_mantle (f : Twin → Twin) : (twinMod d f).mantle = d.mantle := rfl
@[simp] theorem twinMod_seam (f : Twin → Twin) : (twinMod d f).seam = d.seam := rfl
@[simp] theorem twinMod_mics (f : Twin → Twin) : (twinMod d f).mics = d.mics := rfl
@[simp] theorem twinMod_cal (f : Twin → Twin) : (twinMod d f).cal = d.cal := rfl
@[simp] theorem twinMod_track (f : Twin → Twin) : (twinMod d f).track = d.track := rfl
@[simp] theorem twinMod_sense (f : Twin → Twin) : (twinMod d f).sense = d.sense := rfl
@[simp] theorem twinMod_selftest (f : Twin → Twin) : (twinMod d f).selftest = d.selftest := rfl
@[simp] theorem twinMod_ports (f : Twin → Twin) : (twinMod d f).ports = d.ports := rfl
@[simp] theorem twinMod_net (f : Twin → Twin) : (twinMod d f).net = d.net := rfl
@[simp] theorem twinMod_twin (f : Twin → Twin) : (twinMod d f).twin = f d.twin := rfl
@[simp] theorem twinMod_render (f : Twin → Twin) : (twinMod d f).render = d.render := rfl
@[simp] theorem twinMod_tiles (f : Twin → Twin) : (twinMod d f).tiles = d.tiles := rfl
@[simp] theorem twinMod_dma (f : Twin → Twin) : (twinMod d f).dma = d.dma := rfl
@[simp] theorem twinMod_mtx (f : Twin → Twin) : (twinMod d f).mtx = d.mtx := rfl
@[simp] theorem twinMod_hostWrites (f : Twin → Twin) : (twinMod d f).hostWrites = d.hostWrites := rfl
@[simp] theorem twinMod_free (f : Twin → Twin) : (twinMod d f).free = d.free := rfl

@[simp] theorem timeMod_aon (f : TimeUnit → TimeUnit) : (timeMod d f).aon = d.aon := rfl
@[simp] theorem timeMod_power (f : TimeUnit → TimeUnit) : (timeMod d f).power = d.power := rfl
@[simp] theorem timeMod_flash (f : TimeUnit → TimeUnit) : (timeMod d f).flash = d.flash := rfl
@[simp] theorem timeMod_fw (f : TimeUnit → TimeUnit) : (timeMod d f).fw = d.fw := rfl
@[simp] theorem timeMod_hif (f : TimeUnit → TimeUnit) : (timeMod d f).hif = d.hif := rfl
@[simp] theorem timeMod_mbx (f : TimeUnit → TimeUnit) : (timeMod d f).mbx = d.mbx := rfl
@[simp] theorem timeMod_time (f : TimeUnit → TimeUnit) : (timeMod d f).time = f d.time := rfl
@[simp] theorem timeMod_dom (f : TimeUnit → TimeUnit) : (timeMod d f).dom = d.dom := rfl
@[simp] theorem timeMod_scene (f : TimeUnit → TimeUnit) : (timeMod d f).scene = d.scene := rfl
@[simp] theorem timeMod_chain (f : TimeUnit → TimeUnit) : (timeMod d f).chain = d.chain := rfl
@[simp] theorem timeMod_mantle (f : TimeUnit → TimeUnit) : (timeMod d f).mantle = d.mantle := rfl
@[simp] theorem timeMod_seam (f : TimeUnit → TimeUnit) : (timeMod d f).seam = d.seam := rfl
@[simp] theorem timeMod_mics (f : TimeUnit → TimeUnit) : (timeMod d f).mics = d.mics := rfl
@[simp] theorem timeMod_cal (f : TimeUnit → TimeUnit) : (timeMod d f).cal = d.cal := rfl
@[simp] theorem timeMod_track (f : TimeUnit → TimeUnit) : (timeMod d f).track = d.track := rfl
@[simp] theorem timeMod_sense (f : TimeUnit → TimeUnit) : (timeMod d f).sense = d.sense := rfl
@[simp] theorem timeMod_selftest (f : TimeUnit → TimeUnit) : (timeMod d f).selftest = d.selftest := rfl
@[simp] theorem timeMod_ports (f : TimeUnit → TimeUnit) : (timeMod d f).ports = d.ports := rfl
@[simp] theorem timeMod_net (f : TimeUnit → TimeUnit) : (timeMod d f).net = d.net := rfl
@[simp] theorem timeMod_twin (f : TimeUnit → TimeUnit) : (timeMod d f).twin = d.twin := rfl
@[simp] theorem timeMod_render (f : TimeUnit → TimeUnit) : (timeMod d f).render = d.render := rfl
@[simp] theorem timeMod_tiles (f : TimeUnit → TimeUnit) : (timeMod d f).tiles = d.tiles := rfl
@[simp] theorem timeMod_dma (f : TimeUnit → TimeUnit) : (timeMod d f).dma = d.dma := rfl
@[simp] theorem timeMod_mtx (f : TimeUnit → TimeUnit) : (timeMod d f).mtx = d.mtx := rfl
@[simp] theorem timeMod_hostWrites (f : TimeUnit → TimeUnit) : (timeMod d f).hostWrites = d.hostWrites := rfl
@[simp] theorem timeMod_free (f : TimeUnit → TimeUnit) : (timeMod d f).free = d.free := rfl

@[simp] theorem netMod_aon (f : Net → Net) : (netMod d f).aon = d.aon := rfl
@[simp] theorem netMod_power (f : Net → Net) : (netMod d f).power = d.power := rfl
@[simp] theorem netMod_flash (f : Net → Net) : (netMod d f).flash = d.flash := rfl
@[simp] theorem netMod_fw (f : Net → Net) : (netMod d f).fw = d.fw := rfl
@[simp] theorem netMod_hif (f : Net → Net) : (netMod d f).hif = d.hif := rfl
@[simp] theorem netMod_mbx (f : Net → Net) : (netMod d f).mbx = d.mbx := rfl
@[simp] theorem netMod_time (f : Net → Net) : (netMod d f).time = d.time := rfl
@[simp] theorem netMod_dom (f : Net → Net) : (netMod d f).dom = d.dom := rfl
@[simp] theorem netMod_scene (f : Net → Net) : (netMod d f).scene = d.scene := rfl
@[simp] theorem netMod_chain (f : Net → Net) : (netMod d f).chain = d.chain := rfl
@[simp] theorem netMod_mantle (f : Net → Net) : (netMod d f).mantle = d.mantle := rfl
@[simp] theorem netMod_seam (f : Net → Net) : (netMod d f).seam = d.seam := rfl
@[simp] theorem netMod_mics (f : Net → Net) : (netMod d f).mics = d.mics := rfl
@[simp] theorem netMod_cal (f : Net → Net) : (netMod d f).cal = d.cal := rfl
@[simp] theorem netMod_track (f : Net → Net) : (netMod d f).track = d.track := rfl
@[simp] theorem netMod_sense (f : Net → Net) : (netMod d f).sense = d.sense := rfl
@[simp] theorem netMod_selftest (f : Net → Net) : (netMod d f).selftest = d.selftest := rfl
@[simp] theorem netMod_ports (f : Net → Net) : (netMod d f).ports = d.ports := rfl
@[simp] theorem netMod_net (f : Net → Net) : (netMod d f).net = f d.net := rfl
@[simp] theorem netMod_twin (f : Net → Net) : (netMod d f).twin = d.twin := rfl
@[simp] theorem netMod_render (f : Net → Net) : (netMod d f).render = d.render := rfl
@[simp] theorem netMod_tiles (f : Net → Net) : (netMod d f).tiles = d.tiles := rfl
@[simp] theorem netMod_dma (f : Net → Net) : (netMod d f).dma = d.dma := rfl
@[simp] theorem netMod_mtx (f : Net → Net) : (netMod d f).mtx = d.mtx := rfl
@[simp] theorem netMod_hostWrites (f : Net → Net) : (netMod d f).hostWrites = d.hostWrites := rfl
@[simp] theorem netMod_free (f : Net → Net) : (netMod d f).free = d.free := rfl

@[simp] theorem portsMod_aon (f : Ports → Ports) : (portsMod d f).aon = d.aon := rfl
@[simp] theorem portsMod_power (f : Ports → Ports) : (portsMod d f).power = d.power := rfl
@[simp] theorem portsMod_flash (f : Ports → Ports) : (portsMod d f).flash = d.flash := rfl
@[simp] theorem portsMod_fw (f : Ports → Ports) : (portsMod d f).fw = d.fw := rfl
@[simp] theorem portsMod_hif (f : Ports → Ports) : (portsMod d f).hif = d.hif := rfl
@[simp] theorem portsMod_mbx (f : Ports → Ports) : (portsMod d f).mbx = d.mbx := rfl
@[simp] theorem portsMod_time (f : Ports → Ports) : (portsMod d f).time = d.time := rfl
@[simp] theorem portsMod_dom (f : Ports → Ports) : (portsMod d f).dom = d.dom := rfl
@[simp] theorem portsMod_scene (f : Ports → Ports) : (portsMod d f).scene = d.scene := rfl
@[simp] theorem portsMod_chain (f : Ports → Ports) : (portsMod d f).chain = d.chain := rfl
@[simp] theorem portsMod_mantle (f : Ports → Ports) : (portsMod d f).mantle = d.mantle := rfl
@[simp] theorem portsMod_seam (f : Ports → Ports) : (portsMod d f).seam = d.seam := rfl
@[simp] theorem portsMod_mics (f : Ports → Ports) : (portsMod d f).mics = d.mics := rfl
@[simp] theorem portsMod_cal (f : Ports → Ports) : (portsMod d f).cal = d.cal := rfl
@[simp] theorem portsMod_track (f : Ports → Ports) : (portsMod d f).track = d.track := rfl
@[simp] theorem portsMod_sense (f : Ports → Ports) : (portsMod d f).sense = d.sense := rfl
@[simp] theorem portsMod_selftest (f : Ports → Ports) : (portsMod d f).selftest = d.selftest := rfl
@[simp] theorem portsMod_ports (f : Ports → Ports) : (portsMod d f).ports = f d.ports := rfl
@[simp] theorem portsMod_net (f : Ports → Ports) : (portsMod d f).net = d.net := rfl
@[simp] theorem portsMod_twin (f : Ports → Ports) : (portsMod d f).twin = d.twin := rfl
@[simp] theorem portsMod_render (f : Ports → Ports) : (portsMod d f).render = d.render := rfl
@[simp] theorem portsMod_tiles (f : Ports → Ports) : (portsMod d f).tiles = d.tiles := rfl
@[simp] theorem portsMod_dma (f : Ports → Ports) : (portsMod d f).dma = d.dma := rfl
@[simp] theorem portsMod_mtx (f : Ports → Ports) : (portsMod d f).mtx = d.mtx := rfl
@[simp] theorem portsMod_hostWrites (f : Ports → Ports) : (portsMod d f).hostWrites = d.hostWrites := rfl
@[simp] theorem portsMod_free (f : Ports → Ports) : (portsMod d f).free = d.free := rfl

@[simp] theorem sceneMod_aon (f : Scene → Scene) : (sceneMod d f).aon = d.aon := rfl
@[simp] theorem sceneMod_power (f : Scene → Scene) : (sceneMod d f).power = d.power := rfl
@[simp] theorem sceneMod_flash (f : Scene → Scene) : (sceneMod d f).flash = d.flash := rfl
@[simp] theorem sceneMod_fw (f : Scene → Scene) : (sceneMod d f).fw = d.fw := rfl
@[simp] theorem sceneMod_hif (f : Scene → Scene) : (sceneMod d f).hif = d.hif := rfl
@[simp] theorem sceneMod_mbx (f : Scene → Scene) : (sceneMod d f).mbx = d.mbx := rfl
@[simp] theorem sceneMod_time (f : Scene → Scene) : (sceneMod d f).time = d.time := rfl
@[simp] theorem sceneMod_dom (f : Scene → Scene) : (sceneMod d f).dom = d.dom := rfl
@[simp] theorem sceneMod_scene (f : Scene → Scene) : (sceneMod d f).scene = f d.scene := rfl
@[simp] theorem sceneMod_chain (f : Scene → Scene) : (sceneMod d f).chain = d.chain := rfl
@[simp] theorem sceneMod_mantle (f : Scene → Scene) : (sceneMod d f).mantle = d.mantle := rfl
@[simp] theorem sceneMod_seam (f : Scene → Scene) : (sceneMod d f).seam = d.seam := rfl
@[simp] theorem sceneMod_mics (f : Scene → Scene) : (sceneMod d f).mics = d.mics := rfl
@[simp] theorem sceneMod_cal (f : Scene → Scene) : (sceneMod d f).cal = d.cal := rfl
@[simp] theorem sceneMod_track (f : Scene → Scene) : (sceneMod d f).track = d.track := rfl
@[simp] theorem sceneMod_sense (f : Scene → Scene) : (sceneMod d f).sense = d.sense := rfl
@[simp] theorem sceneMod_selftest (f : Scene → Scene) : (sceneMod d f).selftest = d.selftest := rfl
@[simp] theorem sceneMod_ports (f : Scene → Scene) : (sceneMod d f).ports = d.ports := rfl
@[simp] theorem sceneMod_net (f : Scene → Scene) : (sceneMod d f).net = d.net := rfl
@[simp] theorem sceneMod_twin (f : Scene → Scene) : (sceneMod d f).twin = d.twin := rfl
@[simp] theorem sceneMod_render (f : Scene → Scene) : (sceneMod d f).render = d.render := rfl
@[simp] theorem sceneMod_tiles (f : Scene → Scene) : (sceneMod d f).tiles = d.tiles := rfl
@[simp] theorem sceneMod_dma (f : Scene → Scene) : (sceneMod d f).dma = d.dma := rfl
@[simp] theorem sceneMod_mtx (f : Scene → Scene) : (sceneMod d f).mtx = d.mtx := rfl
@[simp] theorem sceneMod_hostWrites (f : Scene → Scene) : (sceneMod d f).hostWrites = d.hostWrites := rfl
@[simp] theorem sceneMod_free (f : Scene → Scene) : (sceneMod d f).free = d.free := rfl

@[simp] theorem tilesMod_aon (f : Tiles → Tiles) : (tilesMod d f).aon = d.aon := rfl
@[simp] theorem tilesMod_power (f : Tiles → Tiles) : (tilesMod d f).power = d.power := rfl
@[simp] theorem tilesMod_flash (f : Tiles → Tiles) : (tilesMod d f).flash = d.flash := rfl
@[simp] theorem tilesMod_fw (f : Tiles → Tiles) : (tilesMod d f).fw = d.fw := rfl
@[simp] theorem tilesMod_hif (f : Tiles → Tiles) : (tilesMod d f).hif = d.hif := rfl
@[simp] theorem tilesMod_mbx (f : Tiles → Tiles) : (tilesMod d f).mbx = d.mbx := rfl
@[simp] theorem tilesMod_time (f : Tiles → Tiles) : (tilesMod d f).time = d.time := rfl
@[simp] theorem tilesMod_dom (f : Tiles → Tiles) : (tilesMod d f).dom = d.dom := rfl
@[simp] theorem tilesMod_scene (f : Tiles → Tiles) : (tilesMod d f).scene = d.scene := rfl
@[simp] theorem tilesMod_chain (f : Tiles → Tiles) : (tilesMod d f).chain = d.chain := rfl
@[simp] theorem tilesMod_mantle (f : Tiles → Tiles) : (tilesMod d f).mantle = d.mantle := rfl
@[simp] theorem tilesMod_seam (f : Tiles → Tiles) : (tilesMod d f).seam = d.seam := rfl
@[simp] theorem tilesMod_mics (f : Tiles → Tiles) : (tilesMod d f).mics = d.mics := rfl
@[simp] theorem tilesMod_cal (f : Tiles → Tiles) : (tilesMod d f).cal = d.cal := rfl
@[simp] theorem tilesMod_track (f : Tiles → Tiles) : (tilesMod d f).track = d.track := rfl
@[simp] theorem tilesMod_sense (f : Tiles → Tiles) : (tilesMod d f).sense = d.sense := rfl
@[simp] theorem tilesMod_selftest (f : Tiles → Tiles) : (tilesMod d f).selftest = d.selftest := rfl
@[simp] theorem tilesMod_ports (f : Tiles → Tiles) : (tilesMod d f).ports = d.ports := rfl
@[simp] theorem tilesMod_net (f : Tiles → Tiles) : (tilesMod d f).net = d.net := rfl
@[simp] theorem tilesMod_twin (f : Tiles → Tiles) : (tilesMod d f).twin = d.twin := rfl
@[simp] theorem tilesMod_render (f : Tiles → Tiles) : (tilesMod d f).render = d.render := rfl
@[simp] theorem tilesMod_tiles (f : Tiles → Tiles) : (tilesMod d f).tiles = f d.tiles := rfl
@[simp] theorem tilesMod_dma (f : Tiles → Tiles) : (tilesMod d f).dma = d.dma := rfl
@[simp] theorem tilesMod_mtx (f : Tiles → Tiles) : (tilesMod d f).mtx = d.mtx := rfl
@[simp] theorem tilesMod_hostWrites (f : Tiles → Tiles) : (tilesMod d f).hostWrites = d.hostWrites := rfl
@[simp] theorem tilesMod_free (f : Tiles → Tiles) : (tilesMod d f).free = d.free := rfl

@[simp] theorem mantleMod_aon (f : Mantle → Mantle) : (mantleMod d f).aon = d.aon := rfl
@[simp] theorem mantleMod_power (f : Mantle → Mantle) : (mantleMod d f).power = d.power := rfl
@[simp] theorem mantleMod_flash (f : Mantle → Mantle) : (mantleMod d f).flash = d.flash := rfl
@[simp] theorem mantleMod_fw (f : Mantle → Mantle) : (mantleMod d f).fw = d.fw := rfl
@[simp] theorem mantleMod_hif (f : Mantle → Mantle) : (mantleMod d f).hif = d.hif := rfl
@[simp] theorem mantleMod_mbx (f : Mantle → Mantle) : (mantleMod d f).mbx = d.mbx := rfl
@[simp] theorem mantleMod_time (f : Mantle → Mantle) : (mantleMod d f).time = d.time := rfl
@[simp] theorem mantleMod_dom (f : Mantle → Mantle) : (mantleMod d f).dom = d.dom := rfl
@[simp] theorem mantleMod_scene (f : Mantle → Mantle) : (mantleMod d f).scene = d.scene := rfl
@[simp] theorem mantleMod_chain (f : Mantle → Mantle) : (mantleMod d f).chain = d.chain := rfl
@[simp] theorem mantleMod_mantle (f : Mantle → Mantle) : (mantleMod d f).mantle = f d.mantle := rfl
@[simp] theorem mantleMod_seam (f : Mantle → Mantle) : (mantleMod d f).seam = d.seam := rfl
@[simp] theorem mantleMod_mics (f : Mantle → Mantle) : (mantleMod d f).mics = d.mics := rfl
@[simp] theorem mantleMod_cal (f : Mantle → Mantle) : (mantleMod d f).cal = d.cal := rfl
@[simp] theorem mantleMod_track (f : Mantle → Mantle) : (mantleMod d f).track = d.track := rfl
@[simp] theorem mantleMod_sense (f : Mantle → Mantle) : (mantleMod d f).sense = d.sense := rfl
@[simp] theorem mantleMod_selftest (f : Mantle → Mantle) : (mantleMod d f).selftest = d.selftest := rfl
@[simp] theorem mantleMod_ports (f : Mantle → Mantle) : (mantleMod d f).ports = d.ports := rfl
@[simp] theorem mantleMod_net (f : Mantle → Mantle) : (mantleMod d f).net = d.net := rfl
@[simp] theorem mantleMod_twin (f : Mantle → Mantle) : (mantleMod d f).twin = d.twin := rfl
@[simp] theorem mantleMod_render (f : Mantle → Mantle) : (mantleMod d f).render = d.render := rfl
@[simp] theorem mantleMod_tiles (f : Mantle → Mantle) : (mantleMod d f).tiles = d.tiles := rfl
@[simp] theorem mantleMod_dma (f : Mantle → Mantle) : (mantleMod d f).dma = d.dma := rfl
@[simp] theorem mantleMod_mtx (f : Mantle → Mantle) : (mantleMod d f).mtx = d.mtx := rfl
@[simp] theorem mantleMod_hostWrites (f : Mantle → Mantle) : (mantleMod d f).hostWrites = d.hostWrites := rfl
@[simp] theorem mantleMod_free (f : Mantle → Mantle) : (mantleMod d f).free = d.free := rfl

@[simp] theorem calMod_aon (f : Cal → Cal) : (calMod d f).aon = d.aon := rfl
@[simp] theorem calMod_power (f : Cal → Cal) : (calMod d f).power = d.power := rfl
@[simp] theorem calMod_flash (f : Cal → Cal) : (calMod d f).flash = d.flash := rfl
@[simp] theorem calMod_fw (f : Cal → Cal) : (calMod d f).fw = d.fw := rfl
@[simp] theorem calMod_hif (f : Cal → Cal) : (calMod d f).hif = d.hif := rfl
@[simp] theorem calMod_mbx (f : Cal → Cal) : (calMod d f).mbx = d.mbx := rfl
@[simp] theorem calMod_time (f : Cal → Cal) : (calMod d f).time = d.time := rfl
@[simp] theorem calMod_dom (f : Cal → Cal) : (calMod d f).dom = d.dom := rfl
@[simp] theorem calMod_scene (f : Cal → Cal) : (calMod d f).scene = d.scene := rfl
@[simp] theorem calMod_chain (f : Cal → Cal) : (calMod d f).chain = d.chain := rfl
@[simp] theorem calMod_mantle (f : Cal → Cal) : (calMod d f).mantle = d.mantle := rfl
@[simp] theorem calMod_seam (f : Cal → Cal) : (calMod d f).seam = d.seam := rfl
@[simp] theorem calMod_mics (f : Cal → Cal) : (calMod d f).mics = d.mics := rfl
@[simp] theorem calMod_cal (f : Cal → Cal) : (calMod d f).cal = f d.cal := rfl
@[simp] theorem calMod_track (f : Cal → Cal) : (calMod d f).track = d.track := rfl
@[simp] theorem calMod_sense (f : Cal → Cal) : (calMod d f).sense = d.sense := rfl
@[simp] theorem calMod_selftest (f : Cal → Cal) : (calMod d f).selftest = d.selftest := rfl
@[simp] theorem calMod_ports (f : Cal → Cal) : (calMod d f).ports = d.ports := rfl
@[simp] theorem calMod_net (f : Cal → Cal) : (calMod d f).net = d.net := rfl
@[simp] theorem calMod_twin (f : Cal → Cal) : (calMod d f).twin = d.twin := rfl
@[simp] theorem calMod_render (f : Cal → Cal) : (calMod d f).render = d.render := rfl
@[simp] theorem calMod_tiles (f : Cal → Cal) : (calMod d f).tiles = d.tiles := rfl
@[simp] theorem calMod_dma (f : Cal → Cal) : (calMod d f).dma = d.dma := rfl
@[simp] theorem calMod_mtx (f : Cal → Cal) : (calMod d f).mtx = d.mtx := rfl
@[simp] theorem calMod_hostWrites (f : Cal → Cal) : (calMod d f).hostWrites = d.hostWrites := rfl
@[simp] theorem calMod_free (f : Cal → Cal) : (calMod d f).free = d.free := rfl

@[simp] theorem trackMod_aon (f : Track → Track) : (trackMod d f).aon = d.aon := rfl
@[simp] theorem trackMod_power (f : Track → Track) : (trackMod d f).power = d.power := rfl
@[simp] theorem trackMod_flash (f : Track → Track) : (trackMod d f).flash = d.flash := rfl
@[simp] theorem trackMod_fw (f : Track → Track) : (trackMod d f).fw = d.fw := rfl
@[simp] theorem trackMod_hif (f : Track → Track) : (trackMod d f).hif = d.hif := rfl
@[simp] theorem trackMod_mbx (f : Track → Track) : (trackMod d f).mbx = d.mbx := rfl
@[simp] theorem trackMod_time (f : Track → Track) : (trackMod d f).time = d.time := rfl
@[simp] theorem trackMod_dom (f : Track → Track) : (trackMod d f).dom = d.dom := rfl
@[simp] theorem trackMod_scene (f : Track → Track) : (trackMod d f).scene = d.scene := rfl
@[simp] theorem trackMod_chain (f : Track → Track) : (trackMod d f).chain = d.chain := rfl
@[simp] theorem trackMod_mantle (f : Track → Track) : (trackMod d f).mantle = d.mantle := rfl
@[simp] theorem trackMod_seam (f : Track → Track) : (trackMod d f).seam = d.seam := rfl
@[simp] theorem trackMod_mics (f : Track → Track) : (trackMod d f).mics = d.mics := rfl
@[simp] theorem trackMod_cal (f : Track → Track) : (trackMod d f).cal = d.cal := rfl
@[simp] theorem trackMod_track (f : Track → Track) : (trackMod d f).track = f d.track := rfl
@[simp] theorem trackMod_sense (f : Track → Track) : (trackMod d f).sense = d.sense := rfl
@[simp] theorem trackMod_selftest (f : Track → Track) : (trackMod d f).selftest = d.selftest := rfl
@[simp] theorem trackMod_ports (f : Track → Track) : (trackMod d f).ports = d.ports := rfl
@[simp] theorem trackMod_net (f : Track → Track) : (trackMod d f).net = d.net := rfl
@[simp] theorem trackMod_twin (f : Track → Track) : (trackMod d f).twin = d.twin := rfl
@[simp] theorem trackMod_render (f : Track → Track) : (trackMod d f).render = d.render := rfl
@[simp] theorem trackMod_tiles (f : Track → Track) : (trackMod d f).tiles = d.tiles := rfl
@[simp] theorem trackMod_dma (f : Track → Track) : (trackMod d f).dma = d.dma := rfl
@[simp] theorem trackMod_mtx (f : Track → Track) : (trackMod d f).mtx = d.mtx := rfl
@[simp] theorem trackMod_hostWrites (f : Track → Track) : (trackMod d f).hostWrites = d.hostWrites := rfl
@[simp] theorem trackMod_free (f : Track → Track) : (trackMod d f).free = d.free := rfl

@[simp] theorem senseMod_aon (f : Sense → Sense) : (senseMod d f).aon = d.aon := rfl
@[simp] theorem senseMod_power (f : Sense → Sense) : (senseMod d f).power = d.power := rfl
@[simp] theorem senseMod_flash (f : Sense → Sense) : (senseMod d f).flash = d.flash := rfl
@[simp] theorem senseMod_fw (f : Sense → Sense) : (senseMod d f).fw = d.fw := rfl
@[simp] theorem senseMod_hif (f : Sense → Sense) : (senseMod d f).hif = d.hif := rfl
@[simp] theorem senseMod_mbx (f : Sense → Sense) : (senseMod d f).mbx = d.mbx := rfl
@[simp] theorem senseMod_time (f : Sense → Sense) : (senseMod d f).time = d.time := rfl
@[simp] theorem senseMod_dom (f : Sense → Sense) : (senseMod d f).dom = d.dom := rfl
@[simp] theorem senseMod_scene (f : Sense → Sense) : (senseMod d f).scene = d.scene := rfl
@[simp] theorem senseMod_chain (f : Sense → Sense) : (senseMod d f).chain = d.chain := rfl
@[simp] theorem senseMod_mantle (f : Sense → Sense) : (senseMod d f).mantle = d.mantle := rfl
@[simp] theorem senseMod_seam (f : Sense → Sense) : (senseMod d f).seam = d.seam := rfl
@[simp] theorem senseMod_mics (f : Sense → Sense) : (senseMod d f).mics = d.mics := rfl
@[simp] theorem senseMod_cal (f : Sense → Sense) : (senseMod d f).cal = d.cal := rfl
@[simp] theorem senseMod_track (f : Sense → Sense) : (senseMod d f).track = d.track := rfl
@[simp] theorem senseMod_sense (f : Sense → Sense) : (senseMod d f).sense = f d.sense := rfl
@[simp] theorem senseMod_selftest (f : Sense → Sense) : (senseMod d f).selftest = d.selftest := rfl
@[simp] theorem senseMod_ports (f : Sense → Sense) : (senseMod d f).ports = d.ports := rfl
@[simp] theorem senseMod_net (f : Sense → Sense) : (senseMod d f).net = d.net := rfl
@[simp] theorem senseMod_twin (f : Sense → Sense) : (senseMod d f).twin = d.twin := rfl
@[simp] theorem senseMod_render (f : Sense → Sense) : (senseMod d f).render = d.render := rfl
@[simp] theorem senseMod_tiles (f : Sense → Sense) : (senseMod d f).tiles = d.tiles := rfl
@[simp] theorem senseMod_dma (f : Sense → Sense) : (senseMod d f).dma = d.dma := rfl
@[simp] theorem senseMod_mtx (f : Sense → Sense) : (senseMod d f).mtx = d.mtx := rfl
@[simp] theorem senseMod_hostWrites (f : Sense → Sense) : (senseMod d f).hostWrites = d.hostWrites := rfl
@[simp] theorem senseMod_free (f : Sense → Sense) : (senseMod d f).free = d.free := rfl

@[simp] theorem mbxMod_aon (n : Nat) (f : Mailbox → Mailbox) : (mbxMod d n f).aon = d.aon := rfl
@[simp] theorem mbxMod_power (n : Nat) (f : Mailbox → Mailbox) : (mbxMod d n f).power = d.power := rfl
@[simp] theorem mbxMod_flash (n : Nat) (f : Mailbox → Mailbox) : (mbxMod d n f).flash = d.flash := rfl
@[simp] theorem mbxMod_fw (n : Nat) (f : Mailbox → Mailbox) : (mbxMod d n f).fw = d.fw := rfl
@[simp] theorem mbxMod_hif (n : Nat) (f : Mailbox → Mailbox) : (mbxMod d n f).hif = d.hif := rfl
@[simp] theorem mbxMod_mbx (n : Nat) (f : Mailbox → Mailbox) : (mbxMod d n f).mbx = tabMod d.mbx n f := rfl
@[simp] theorem mbxMod_time (n : Nat) (f : Mailbox → Mailbox) : (mbxMod d n f).time = d.time := rfl
@[simp] theorem mbxMod_dom (n : Nat) (f : Mailbox → Mailbox) : (mbxMod d n f).dom = d.dom := rfl
@[simp] theorem mbxMod_scene (n : Nat) (f : Mailbox → Mailbox) : (mbxMod d n f).scene = d.scene := rfl
@[simp] theorem mbxMod_chain (n : Nat) (f : Mailbox → Mailbox) : (mbxMod d n f).chain = d.chain := rfl
@[simp] theorem mbxMod_mantle (n : Nat) (f : Mailbox → Mailbox) : (mbxMod d n f).mantle = d.mantle := rfl
@[simp] theorem mbxMod_seam (n : Nat) (f : Mailbox → Mailbox) : (mbxMod d n f).seam = d.seam := rfl
@[simp] theorem mbxMod_mics (n : Nat) (f : Mailbox → Mailbox) : (mbxMod d n f).mics = d.mics := rfl
@[simp] theorem mbxMod_cal (n : Nat) (f : Mailbox → Mailbox) : (mbxMod d n f).cal = d.cal := rfl
@[simp] theorem mbxMod_track (n : Nat) (f : Mailbox → Mailbox) : (mbxMod d n f).track = d.track := rfl
@[simp] theorem mbxMod_sense (n : Nat) (f : Mailbox → Mailbox) : (mbxMod d n f).sense = d.sense := rfl
@[simp] theorem mbxMod_selftest (n : Nat) (f : Mailbox → Mailbox) : (mbxMod d n f).selftest = d.selftest := rfl
@[simp] theorem mbxMod_ports (n : Nat) (f : Mailbox → Mailbox) : (mbxMod d n f).ports = d.ports := rfl
@[simp] theorem mbxMod_net (n : Nat) (f : Mailbox → Mailbox) : (mbxMod d n f).net = d.net := rfl
@[simp] theorem mbxMod_twin (n : Nat) (f : Mailbox → Mailbox) : (mbxMod d n f).twin = d.twin := rfl
@[simp] theorem mbxMod_render (n : Nat) (f : Mailbox → Mailbox) : (mbxMod d n f).render = d.render := rfl
@[simp] theorem mbxMod_tiles (n : Nat) (f : Mailbox → Mailbox) : (mbxMod d n f).tiles = d.tiles := rfl
@[simp] theorem mbxMod_dma (n : Nat) (f : Mailbox → Mailbox) : (mbxMod d n f).dma = d.dma := rfl
@[simp] theorem mbxMod_mtx (n : Nat) (f : Mailbox → Mailbox) : (mbxMod d n f).mtx = d.mtx := rfl
@[simp] theorem mbxMod_hostWrites (n : Nat) (f : Mailbox → Mailbox) : (mbxMod d n f).hostWrites = d.hostWrites := rfl
@[simp] theorem mbxMod_free (n : Nat) (f : Mailbox → Mailbox) : (mbxMod d n f).free = d.free := rfl

@[simp] theorem domMod_aon (n : Nat) (f : Domain → Domain) : (domMod d n f).aon = d.aon := rfl
@[simp] theorem domMod_power (n : Nat) (f : Domain → Domain) : (domMod d n f).power = d.power := rfl
@[simp] theorem domMod_flash (n : Nat) (f : Domain → Domain) : (domMod d n f).flash = d.flash := rfl
@[simp] theorem domMod_fw (n : Nat) (f : Domain → Domain) : (domMod d n f).fw = d.fw := rfl
@[simp] theorem domMod_hif (n : Nat) (f : Domain → Domain) : (domMod d n f).hif = d.hif := rfl
@[simp] theorem domMod_mbx (n : Nat) (f : Domain → Domain) : (domMod d n f).mbx = d.mbx := rfl
@[simp] theorem domMod_time (n : Nat) (f : Domain → Domain) : (domMod d n f).time = d.time := rfl
@[simp] theorem domMod_dom (n : Nat) (f : Domain → Domain) : (domMod d n f).dom = tabMod d.dom n f := rfl
@[simp] theorem domMod_scene (n : Nat) (f : Domain → Domain) : (domMod d n f).scene = d.scene := rfl
@[simp] theorem domMod_chain (n : Nat) (f : Domain → Domain) : (domMod d n f).chain = d.chain := rfl
@[simp] theorem domMod_mantle (n : Nat) (f : Domain → Domain) : (domMod d n f).mantle = d.mantle := rfl
@[simp] theorem domMod_seam (n : Nat) (f : Domain → Domain) : (domMod d n f).seam = d.seam := rfl
@[simp] theorem domMod_mics (n : Nat) (f : Domain → Domain) : (domMod d n f).mics = d.mics := rfl
@[simp] theorem domMod_cal (n : Nat) (f : Domain → Domain) : (domMod d n f).cal = d.cal := rfl
@[simp] theorem domMod_track (n : Nat) (f : Domain → Domain) : (domMod d n f).track = d.track := rfl
@[simp] theorem domMod_sense (n : Nat) (f : Domain → Domain) : (domMod d n f).sense = d.sense := rfl
@[simp] theorem domMod_selftest (n : Nat) (f : Domain → Domain) : (domMod d n f).selftest = d.selftest := rfl
@[simp] theorem domMod_ports (n : Nat) (f : Domain → Domain) : (domMod d n f).ports = d.ports := rfl
@[simp] theorem domMod_net (n : Nat) (f : Domain → Domain) : (domMod d n f).net = d.net := rfl
@[simp] theorem domMod_twin (n : Nat) (f : Domain → Domain) : (domMod d n f).twin = d.twin := rfl
@[simp] theorem domMod_render (n : Nat) (f : Domain → Domain) : (domMod d n f).render = d.render := rfl
@[simp] theorem domMod_tiles (n : Nat) (f : Domain → Domain) : (domMod d n f).tiles = d.tiles := rfl
@[simp] theorem domMod_dma (n : Nat) (f : Domain → Domain) : (domMod d n f).dma = d.dma := rfl
@[simp] theorem domMod_mtx (n : Nat) (f : Domain → Domain) : (domMod d n f).mtx = d.mtx := rfl
@[simp] theorem domMod_hostWrites (n : Nat) (f : Domain → Domain) : (domMod d n f).hostWrites = d.hostWrites := rfl
@[simp] theorem domMod_free (n : Nat) (f : Domain → Domain) : (domMod d n f).free = d.free := rfl

@[simp] theorem dmaMod_aon (n : Nat) (f : DmaChan → DmaChan) : (dmaMod d n f).aon = d.aon := rfl
@[simp] theorem dmaMod_power (n : Nat) (f : DmaChan → DmaChan) : (dmaMod d n f).power = d.power := rfl
@[simp] theorem dmaMod_flash (n : Nat) (f : DmaChan → DmaChan) : (dmaMod d n f).flash = d.flash := rfl
@[simp] theorem dmaMod_fw (n : Nat) (f : DmaChan → DmaChan) : (dmaMod d n f).fw = d.fw := rfl
@[simp] theorem dmaMod_hif (n : Nat) (f : DmaChan → DmaChan) : (dmaMod d n f).hif = d.hif := rfl
@[simp] theorem dmaMod_mbx (n : Nat) (f : DmaChan → DmaChan) : (dmaMod d n f).mbx = d.mbx := rfl
@[simp] theorem dmaMod_time (n : Nat) (f : DmaChan → DmaChan) : (dmaMod d n f).time = d.time := rfl
@[simp] theorem dmaMod_dom (n : Nat) (f : DmaChan → DmaChan) : (dmaMod d n f).dom = d.dom := rfl
@[simp] theorem dmaMod_scene (n : Nat) (f : DmaChan → DmaChan) : (dmaMod d n f).scene = d.scene := rfl
@[simp] theorem dmaMod_chain (n : Nat) (f : DmaChan → DmaChan) : (dmaMod d n f).chain = d.chain := rfl
@[simp] theorem dmaMod_mantle (n : Nat) (f : DmaChan → DmaChan) : (dmaMod d n f).mantle = d.mantle := rfl
@[simp] theorem dmaMod_seam (n : Nat) (f : DmaChan → DmaChan) : (dmaMod d n f).seam = d.seam := rfl
@[simp] theorem dmaMod_mics (n : Nat) (f : DmaChan → DmaChan) : (dmaMod d n f).mics = d.mics := rfl
@[simp] theorem dmaMod_cal (n : Nat) (f : DmaChan → DmaChan) : (dmaMod d n f).cal = d.cal := rfl
@[simp] theorem dmaMod_track (n : Nat) (f : DmaChan → DmaChan) : (dmaMod d n f).track = d.track := rfl
@[simp] theorem dmaMod_sense (n : Nat) (f : DmaChan → DmaChan) : (dmaMod d n f).sense = d.sense := rfl
@[simp] theorem dmaMod_selftest (n : Nat) (f : DmaChan → DmaChan) : (dmaMod d n f).selftest = d.selftest := rfl
@[simp] theorem dmaMod_ports (n : Nat) (f : DmaChan → DmaChan) : (dmaMod d n f).ports = d.ports := rfl
@[simp] theorem dmaMod_net (n : Nat) (f : DmaChan → DmaChan) : (dmaMod d n f).net = d.net := rfl
@[simp] theorem dmaMod_twin (n : Nat) (f : DmaChan → DmaChan) : (dmaMod d n f).twin = d.twin := rfl
@[simp] theorem dmaMod_render (n : Nat) (f : DmaChan → DmaChan) : (dmaMod d n f).render = d.render := rfl
@[simp] theorem dmaMod_tiles (n : Nat) (f : DmaChan → DmaChan) : (dmaMod d n f).tiles = d.tiles := rfl
@[simp] theorem dmaMod_dma (n : Nat) (f : DmaChan → DmaChan) : (dmaMod d n f).dma = { d.dma with ch := tabMod d.dma.ch n f } := rfl
@[simp] theorem dmaMod_mtx (n : Nat) (f : DmaChan → DmaChan) : (dmaMod d n f).mtx = d.mtx := rfl
@[simp] theorem dmaMod_hostWrites (n : Nat) (f : DmaChan → DmaChan) : (dmaMod d n f).hostWrites = d.hostWrites := rfl
@[simp] theorem dmaMod_free (n : Nat) (f : DmaChan → DmaChan) : (dmaMod d n f).free = d.free := rfl

@[simp] theorem renderMod_aon (n : Nat) (f : DomRender → DomRender) : (renderMod d n f).aon = d.aon := rfl
@[simp] theorem renderMod_power (n : Nat) (f : DomRender → DomRender) : (renderMod d n f).power = d.power := rfl
@[simp] theorem renderMod_flash (n : Nat) (f : DomRender → DomRender) : (renderMod d n f).flash = d.flash := rfl
@[simp] theorem renderMod_fw (n : Nat) (f : DomRender → DomRender) : (renderMod d n f).fw = d.fw := rfl
@[simp] theorem renderMod_hif (n : Nat) (f : DomRender → DomRender) : (renderMod d n f).hif = d.hif := rfl
@[simp] theorem renderMod_mbx (n : Nat) (f : DomRender → DomRender) : (renderMod d n f).mbx = d.mbx := rfl
@[simp] theorem renderMod_time (n : Nat) (f : DomRender → DomRender) : (renderMod d n f).time = d.time := rfl
@[simp] theorem renderMod_dom (n : Nat) (f : DomRender → DomRender) : (renderMod d n f).dom = d.dom := rfl
@[simp] theorem renderMod_scene (n : Nat) (f : DomRender → DomRender) : (renderMod d n f).scene = d.scene := rfl
@[simp] theorem renderMod_chain (n : Nat) (f : DomRender → DomRender) : (renderMod d n f).chain = d.chain := rfl
@[simp] theorem renderMod_mantle (n : Nat) (f : DomRender → DomRender) : (renderMod d n f).mantle = d.mantle := rfl
@[simp] theorem renderMod_seam (n : Nat) (f : DomRender → DomRender) : (renderMod d n f).seam = d.seam := rfl
@[simp] theorem renderMod_mics (n : Nat) (f : DomRender → DomRender) : (renderMod d n f).mics = d.mics := rfl
@[simp] theorem renderMod_cal (n : Nat) (f : DomRender → DomRender) : (renderMod d n f).cal = d.cal := rfl
@[simp] theorem renderMod_track (n : Nat) (f : DomRender → DomRender) : (renderMod d n f).track = d.track := rfl
@[simp] theorem renderMod_sense (n : Nat) (f : DomRender → DomRender) : (renderMod d n f).sense = d.sense := rfl
@[simp] theorem renderMod_selftest (n : Nat) (f : DomRender → DomRender) : (renderMod d n f).selftest = d.selftest := rfl
@[simp] theorem renderMod_ports (n : Nat) (f : DomRender → DomRender) : (renderMod d n f).ports = d.ports := rfl
@[simp] theorem renderMod_net (n : Nat) (f : DomRender → DomRender) : (renderMod d n f).net = d.net := rfl
@[simp] theorem renderMod_twin (n : Nat) (f : DomRender → DomRender) : (renderMod d n f).twin = d.twin := rfl
@[simp] theorem renderMod_render (n : Nat) (f : DomRender → DomRender) : (renderMod d n f).render = { d.render with dom := tabMod d.render.dom n f } := rfl
@[simp] theorem renderMod_tiles (n : Nat) (f : DomRender → DomRender) : (renderMod d n f).tiles = d.tiles := rfl
@[simp] theorem renderMod_dma (n : Nat) (f : DomRender → DomRender) : (renderMod d n f).dma = d.dma := rfl
@[simp] theorem renderMod_mtx (n : Nat) (f : DomRender → DomRender) : (renderMod d n f).mtx = d.mtx := rfl
@[simp] theorem renderMod_hostWrites (n : Nat) (f : DomRender → DomRender) : (renderMod d n f).hostWrites = d.hostWrites := rfl
@[simp] theorem renderMod_free (n : Nat) (f : DomRender → DomRender) : (renderMod d n f).free = d.free := rfl

@[simp] theorem chainMod_aon (n : Nat) (f : Chain1 → Chain1) : (chainMod d n f).aon = d.aon := rfl
@[simp] theorem chainMod_power (n : Nat) (f : Chain1 → Chain1) : (chainMod d n f).power = d.power := rfl
@[simp] theorem chainMod_flash (n : Nat) (f : Chain1 → Chain1) : (chainMod d n f).flash = d.flash := rfl
@[simp] theorem chainMod_fw (n : Nat) (f : Chain1 → Chain1) : (chainMod d n f).fw = d.fw := rfl
@[simp] theorem chainMod_hif (n : Nat) (f : Chain1 → Chain1) : (chainMod d n f).hif = d.hif := rfl
@[simp] theorem chainMod_mbx (n : Nat) (f : Chain1 → Chain1) : (chainMod d n f).mbx = d.mbx := rfl
@[simp] theorem chainMod_time (n : Nat) (f : Chain1 → Chain1) : (chainMod d n f).time = d.time := rfl
@[simp] theorem chainMod_dom (n : Nat) (f : Chain1 → Chain1) : (chainMod d n f).dom = d.dom := rfl
@[simp] theorem chainMod_scene (n : Nat) (f : Chain1 → Chain1) : (chainMod d n f).scene = d.scene := rfl
@[simp] theorem chainMod_chain (n : Nat) (f : Chain1 → Chain1) : (chainMod d n f).chain = { d.chain with cols := tabMod d.chain.cols n f } := rfl
@[simp] theorem chainMod_mantle (n : Nat) (f : Chain1 → Chain1) : (chainMod d n f).mantle = d.mantle := rfl
@[simp] theorem chainMod_seam (n : Nat) (f : Chain1 → Chain1) : (chainMod d n f).seam = d.seam := rfl
@[simp] theorem chainMod_mics (n : Nat) (f : Chain1 → Chain1) : (chainMod d n f).mics = d.mics := rfl
@[simp] theorem chainMod_cal (n : Nat) (f : Chain1 → Chain1) : (chainMod d n f).cal = d.cal := rfl
@[simp] theorem chainMod_track (n : Nat) (f : Chain1 → Chain1) : (chainMod d n f).track = d.track := rfl
@[simp] theorem chainMod_sense (n : Nat) (f : Chain1 → Chain1) : (chainMod d n f).sense = d.sense := rfl
@[simp] theorem chainMod_selftest (n : Nat) (f : Chain1 → Chain1) : (chainMod d n f).selftest = d.selftest := rfl
@[simp] theorem chainMod_ports (n : Nat) (f : Chain1 → Chain1) : (chainMod d n f).ports = d.ports := rfl
@[simp] theorem chainMod_net (n : Nat) (f : Chain1 → Chain1) : (chainMod d n f).net = d.net := rfl
@[simp] theorem chainMod_twin (n : Nat) (f : Chain1 → Chain1) : (chainMod d n f).twin = d.twin := rfl
@[simp] theorem chainMod_render (n : Nat) (f : Chain1 → Chain1) : (chainMod d n f).render = d.render := rfl
@[simp] theorem chainMod_tiles (n : Nat) (f : Chain1 → Chain1) : (chainMod d n f).tiles = d.tiles := rfl
@[simp] theorem chainMod_dma (n : Nat) (f : Chain1 → Chain1) : (chainMod d n f).dma = d.dma := rfl
@[simp] theorem chainMod_mtx (n : Nat) (f : Chain1 → Chain1) : (chainMod d n f).mtx = d.mtx := rfl
@[simp] theorem chainMod_hostWrites (n : Nat) (f : Chain1 → Chain1) : (chainMod d n f).hostWrites = d.hostWrites := rfl
@[simp] theorem chainMod_free (n : Nat) (f : Chain1 → Chain1) : (chainMod d n f).free = d.free := rfl

@[simp] theorem brMod_aon (n : Nat) (f : Bridge → Bridge) : (brMod d n f).aon = d.aon := rfl
@[simp] theorem brMod_power (n : Nat) (f : Bridge → Bridge) : (brMod d n f).power = d.power := rfl
@[simp] theorem brMod_flash (n : Nat) (f : Bridge → Bridge) : (brMod d n f).flash = d.flash := rfl
@[simp] theorem brMod_fw (n : Nat) (f : Bridge → Bridge) : (brMod d n f).fw = d.fw := rfl
@[simp] theorem brMod_hif (n : Nat) (f : Bridge → Bridge) : (brMod d n f).hif = d.hif := rfl
@[simp] theorem brMod_mbx (n : Nat) (f : Bridge → Bridge) : (brMod d n f).mbx = d.mbx := rfl
@[simp] theorem brMod_time (n : Nat) (f : Bridge → Bridge) : (brMod d n f).time = d.time := rfl
@[simp] theorem brMod_dom (n : Nat) (f : Bridge → Bridge) : (brMod d n f).dom = d.dom := rfl
@[simp] theorem brMod_scene (n : Nat) (f : Bridge → Bridge) : (brMod d n f).scene = d.scene := rfl
@[simp] theorem brMod_chain (n : Nat) (f : Bridge → Bridge) : (brMod d n f).chain = d.chain := rfl
@[simp] theorem brMod_mantle (n : Nat) (f : Bridge → Bridge) : (brMod d n f).mantle = d.mantle := rfl
@[simp] theorem brMod_seam (n : Nat) (f : Bridge → Bridge) : (brMod d n f).seam = { d.seam with br := tabMod d.seam.br n f } := rfl
@[simp] theorem brMod_mics (n : Nat) (f : Bridge → Bridge) : (brMod d n f).mics = d.mics := rfl
@[simp] theorem brMod_cal (n : Nat) (f : Bridge → Bridge) : (brMod d n f).cal = d.cal := rfl
@[simp] theorem brMod_track (n : Nat) (f : Bridge → Bridge) : (brMod d n f).track = d.track := rfl
@[simp] theorem brMod_sense (n : Nat) (f : Bridge → Bridge) : (brMod d n f).sense = d.sense := rfl
@[simp] theorem brMod_selftest (n : Nat) (f : Bridge → Bridge) : (brMod d n f).selftest = d.selftest := rfl
@[simp] theorem brMod_ports (n : Nat) (f : Bridge → Bridge) : (brMod d n f).ports = d.ports := rfl
@[simp] theorem brMod_net (n : Nat) (f : Bridge → Bridge) : (brMod d n f).net = d.net := rfl
@[simp] theorem brMod_twin (n : Nat) (f : Bridge → Bridge) : (brMod d n f).twin = d.twin := rfl
@[simp] theorem brMod_render (n : Nat) (f : Bridge → Bridge) : (brMod d n f).render = d.render := rfl
@[simp] theorem brMod_tiles (n : Nat) (f : Bridge → Bridge) : (brMod d n f).tiles = d.tiles := rfl
@[simp] theorem brMod_dma (n : Nat) (f : Bridge → Bridge) : (brMod d n f).dma = d.dma := rfl
@[simp] theorem brMod_mtx (n : Nat) (f : Bridge → Bridge) : (brMod d n f).mtx = d.mtx := rfl
@[simp] theorem brMod_hostWrites (n : Nat) (f : Bridge → Bridge) : (brMod d n f).hostWrites = d.hostWrites := rfl
@[simp] theorem brMod_free (n : Nat) (f : Bridge → Bridge) : (brMod d n f).free = d.free := rfl

@[simp] theorem micMod_aon (n : Nat) (f : Mic → Mic) : (micMod d n f).aon = d.aon := rfl
@[simp] theorem micMod_power (n : Nat) (f : Mic → Mic) : (micMod d n f).power = d.power := rfl
@[simp] theorem micMod_flash (n : Nat) (f : Mic → Mic) : (micMod d n f).flash = d.flash := rfl
@[simp] theorem micMod_fw (n : Nat) (f : Mic → Mic) : (micMod d n f).fw = d.fw := rfl
@[simp] theorem micMod_hif (n : Nat) (f : Mic → Mic) : (micMod d n f).hif = d.hif := rfl
@[simp] theorem micMod_mbx (n : Nat) (f : Mic → Mic) : (micMod d n f).mbx = d.mbx := rfl
@[simp] theorem micMod_time (n : Nat) (f : Mic → Mic) : (micMod d n f).time = d.time := rfl
@[simp] theorem micMod_dom (n : Nat) (f : Mic → Mic) : (micMod d n f).dom = d.dom := rfl
@[simp] theorem micMod_scene (n : Nat) (f : Mic → Mic) : (micMod d n f).scene = d.scene := rfl
@[simp] theorem micMod_chain (n : Nat) (f : Mic → Mic) : (micMod d n f).chain = d.chain := rfl
@[simp] theorem micMod_mantle (n : Nat) (f : Mic → Mic) : (micMod d n f).mantle = d.mantle := rfl
@[simp] theorem micMod_seam (n : Nat) (f : Mic → Mic) : (micMod d n f).seam = d.seam := rfl
@[simp] theorem micMod_mics (n : Nat) (f : Mic → Mic) : (micMod d n f).mics = { d.mics with mic := tabMod d.mics.mic n f } := rfl
@[simp] theorem micMod_cal (n : Nat) (f : Mic → Mic) : (micMod d n f).cal = d.cal := rfl
@[simp] theorem micMod_track (n : Nat) (f : Mic → Mic) : (micMod d n f).track = d.track := rfl
@[simp] theorem micMod_sense (n : Nat) (f : Mic → Mic) : (micMod d n f).sense = d.sense := rfl
@[simp] theorem micMod_selftest (n : Nat) (f : Mic → Mic) : (micMod d n f).selftest = d.selftest := rfl
@[simp] theorem micMod_ports (n : Nat) (f : Mic → Mic) : (micMod d n f).ports = d.ports := rfl
@[simp] theorem micMod_net (n : Nat) (f : Mic → Mic) : (micMod d n f).net = d.net := rfl
@[simp] theorem micMod_twin (n : Nat) (f : Mic → Mic) : (micMod d n f).twin = d.twin := rfl
@[simp] theorem micMod_render (n : Nat) (f : Mic → Mic) : (micMod d n f).render = d.render := rfl
@[simp] theorem micMod_tiles (n : Nat) (f : Mic → Mic) : (micMod d n f).tiles = d.tiles := rfl
@[simp] theorem micMod_dma (n : Nat) (f : Mic → Mic) : (micMod d n f).dma = d.dma := rfl
@[simp] theorem micMod_mtx (n : Nat) (f : Mic → Mic) : (micMod d n f).mtx = d.mtx := rfl
@[simp] theorem micMod_hostWrites (n : Nat) (f : Mic → Mic) : (micMod d n f).hostWrites = d.hostWrites := rfl
@[simp] theorem micMod_free (n : Nat) (f : Mic → Mic) : (micMod d n f).free = d.free := rfl

@[simp] theorem detMod_aon (n : Nat) (f : Det → Det) : (detMod d n f).aon = d.aon := rfl
@[simp] theorem detMod_power (n : Nat) (f : Det → Det) : (detMod d n f).power = d.power := rfl
@[simp] theorem detMod_flash (n : Nat) (f : Det → Det) : (detMod d n f).flash = d.flash := rfl
@[simp] theorem detMod_fw (n : Nat) (f : Det → Det) : (detMod d n f).fw = d.fw := rfl
@[simp] theorem detMod_hif (n : Nat) (f : Det → Det) : (detMod d n f).hif = d.hif := rfl
@[simp] theorem detMod_mbx (n : Nat) (f : Det → Det) : (detMod d n f).mbx = d.mbx := rfl
@[simp] theorem detMod_time (n : Nat) (f : Det → Det) : (detMod d n f).time = d.time := rfl
@[simp] theorem detMod_dom (n : Nat) (f : Det → Det) : (detMod d n f).dom = d.dom := rfl
@[simp] theorem detMod_scene (n : Nat) (f : Det → Det) : (detMod d n f).scene = d.scene := rfl
@[simp] theorem detMod_chain (n : Nat) (f : Det → Det) : (detMod d n f).chain = d.chain := rfl
@[simp] theorem detMod_mantle (n : Nat) (f : Det → Det) : (detMod d n f).mantle = d.mantle := rfl
@[simp] theorem detMod_seam (n : Nat) (f : Det → Det) : (detMod d n f).seam = d.seam := rfl
@[simp] theorem detMod_mics (n : Nat) (f : Det → Det) : (detMod d n f).mics = { d.mics with det := tabMod d.mics.det n f } := rfl
@[simp] theorem detMod_cal (n : Nat) (f : Det → Det) : (detMod d n f).cal = d.cal := rfl
@[simp] theorem detMod_track (n : Nat) (f : Det → Det) : (detMod d n f).track = d.track := rfl
@[simp] theorem detMod_sense (n : Nat) (f : Det → Det) : (detMod d n f).sense = d.sense := rfl
@[simp] theorem detMod_selftest (n : Nat) (f : Det → Det) : (detMod d n f).selftest = d.selftest := rfl
@[simp] theorem detMod_ports (n : Nat) (f : Det → Det) : (detMod d n f).ports = d.ports := rfl
@[simp] theorem detMod_net (n : Nat) (f : Det → Det) : (detMod d n f).net = d.net := rfl
@[simp] theorem detMod_twin (n : Nat) (f : Det → Det) : (detMod d n f).twin = d.twin := rfl
@[simp] theorem detMod_render (n : Nat) (f : Det → Det) : (detMod d n f).render = d.render := rfl
@[simp] theorem detMod_tiles (n : Nat) (f : Det → Det) : (detMod d n f).tiles = d.tiles := rfl
@[simp] theorem detMod_dma (n : Nat) (f : Det → Det) : (detMod d n f).dma = d.dma := rfl
@[simp] theorem detMod_mtx (n : Nat) (f : Det → Det) : (detMod d n f).mtx = d.mtx := rfl
@[simp] theorem detMod_hostWrites (n : Nat) (f : Det → Det) : (detMod d n f).hostWrites = d.hostWrites := rfl
@[simp] theorem detMod_free (n : Nat) (f : Det → Det) : (detMod d n f).free = d.free := rfl

@[simp] theorem ptpMod_aon (f : Ptp → Ptp) : (ptpMod d f).aon = d.aon := rfl
@[simp] theorem ptpMod_power (f : Ptp → Ptp) : (ptpMod d f).power = d.power := rfl
@[simp] theorem ptpMod_flash (f : Ptp → Ptp) : (ptpMod d f).flash = d.flash := rfl
@[simp] theorem ptpMod_fw (f : Ptp → Ptp) : (ptpMod d f).fw = d.fw := rfl
@[simp] theorem ptpMod_hif (f : Ptp → Ptp) : (ptpMod d f).hif = d.hif := rfl
@[simp] theorem ptpMod_mbx (f : Ptp → Ptp) : (ptpMod d f).mbx = d.mbx := rfl
@[simp] theorem ptpMod_time (f : Ptp → Ptp) : (ptpMod d f).time = { d.time with ptp := f d.time.ptp } := rfl
@[simp] theorem ptpMod_dom (f : Ptp → Ptp) : (ptpMod d f).dom = d.dom := rfl
@[simp] theorem ptpMod_scene (f : Ptp → Ptp) : (ptpMod d f).scene = d.scene := rfl
@[simp] theorem ptpMod_chain (f : Ptp → Ptp) : (ptpMod d f).chain = d.chain := rfl
@[simp] theorem ptpMod_mantle (f : Ptp → Ptp) : (ptpMod d f).mantle = d.mantle := rfl
@[simp] theorem ptpMod_seam (f : Ptp → Ptp) : (ptpMod d f).seam = d.seam := rfl
@[simp] theorem ptpMod_mics (f : Ptp → Ptp) : (ptpMod d f).mics = d.mics := rfl
@[simp] theorem ptpMod_cal (f : Ptp → Ptp) : (ptpMod d f).cal = d.cal := rfl
@[simp] theorem ptpMod_track (f : Ptp → Ptp) : (ptpMod d f).track = d.track := rfl
@[simp] theorem ptpMod_sense (f : Ptp → Ptp) : (ptpMod d f).sense = d.sense := rfl
@[simp] theorem ptpMod_selftest (f : Ptp → Ptp) : (ptpMod d f).selftest = d.selftest := rfl
@[simp] theorem ptpMod_ports (f : Ptp → Ptp) : (ptpMod d f).ports = d.ports := rfl
@[simp] theorem ptpMod_net (f : Ptp → Ptp) : (ptpMod d f).net = d.net := rfl
@[simp] theorem ptpMod_twin (f : Ptp → Ptp) : (ptpMod d f).twin = d.twin := rfl
@[simp] theorem ptpMod_render (f : Ptp → Ptp) : (ptpMod d f).render = d.render := rfl
@[simp] theorem ptpMod_tiles (f : Ptp → Ptp) : (ptpMod d f).tiles = d.tiles := rfl
@[simp] theorem ptpMod_dma (f : Ptp → Ptp) : (ptpMod d f).dma = d.dma := rfl
@[simp] theorem ptpMod_mtx (f : Ptp → Ptp) : (ptpMod d f).mtx = d.mtx := rfl
@[simp] theorem ptpMod_hostWrites (f : Ptp → Ptp) : (ptpMod d f).hostWrites = d.hostWrites := rfl
@[simp] theorem ptpMod_free (f : Ptp → Ptp) : (ptpMod d f).free = d.free := rfl

@[simp] theorem ptpPortMod_aon (n : Nat) (f : PtpPort → PtpPort) : (ptpPortMod d n f).aon = d.aon := rfl
@[simp] theorem ptpPortMod_power (n : Nat) (f : PtpPort → PtpPort) : (ptpPortMod d n f).power = d.power := rfl
@[simp] theorem ptpPortMod_flash (n : Nat) (f : PtpPort → PtpPort) : (ptpPortMod d n f).flash = d.flash := rfl
@[simp] theorem ptpPortMod_fw (n : Nat) (f : PtpPort → PtpPort) : (ptpPortMod d n f).fw = d.fw := rfl
@[simp] theorem ptpPortMod_hif (n : Nat) (f : PtpPort → PtpPort) : (ptpPortMod d n f).hif = d.hif := rfl
@[simp] theorem ptpPortMod_mbx (n : Nat) (f : PtpPort → PtpPort) : (ptpPortMod d n f).mbx = d.mbx := rfl
@[simp] theorem ptpPortMod_time (n : Nat) (f : PtpPort → PtpPort) : (ptpPortMod d n f).time = { d.time with ptp := { d.time.ptp with ports := tabMod d.time.ptp.ports n f } } := rfl
@[simp] theorem ptpPortMod_dom (n : Nat) (f : PtpPort → PtpPort) : (ptpPortMod d n f).dom = d.dom := rfl
@[simp] theorem ptpPortMod_scene (n : Nat) (f : PtpPort → PtpPort) : (ptpPortMod d n f).scene = d.scene := rfl
@[simp] theorem ptpPortMod_chain (n : Nat) (f : PtpPort → PtpPort) : (ptpPortMod d n f).chain = d.chain := rfl
@[simp] theorem ptpPortMod_mantle (n : Nat) (f : PtpPort → PtpPort) : (ptpPortMod d n f).mantle = d.mantle := rfl
@[simp] theorem ptpPortMod_seam (n : Nat) (f : PtpPort → PtpPort) : (ptpPortMod d n f).seam = d.seam := rfl
@[simp] theorem ptpPortMod_mics (n : Nat) (f : PtpPort → PtpPort) : (ptpPortMod d n f).mics = d.mics := rfl
@[simp] theorem ptpPortMod_cal (n : Nat) (f : PtpPort → PtpPort) : (ptpPortMod d n f).cal = d.cal := rfl
@[simp] theorem ptpPortMod_track (n : Nat) (f : PtpPort → PtpPort) : (ptpPortMod d n f).track = d.track := rfl
@[simp] theorem ptpPortMod_sense (n : Nat) (f : PtpPort → PtpPort) : (ptpPortMod d n f).sense = d.sense := rfl
@[simp] theorem ptpPortMod_selftest (n : Nat) (f : PtpPort → PtpPort) : (ptpPortMod d n f).selftest = d.selftest := rfl
@[simp] theorem ptpPortMod_ports (n : Nat) (f : PtpPort → PtpPort) : (ptpPortMod d n f).ports = d.ports := rfl
@[simp] theorem ptpPortMod_net (n : Nat) (f : PtpPort → PtpPort) : (ptpPortMod d n f).net = d.net := rfl
@[simp] theorem ptpPortMod_twin (n : Nat) (f : PtpPort → PtpPort) : (ptpPortMod d n f).twin = d.twin := rfl
@[simp] theorem ptpPortMod_render (n : Nat) (f : PtpPort → PtpPort) : (ptpPortMod d n f).render = d.render := rfl
@[simp] theorem ptpPortMod_tiles (n : Nat) (f : PtpPort → PtpPort) : (ptpPortMod d n f).tiles = d.tiles := rfl
@[simp] theorem ptpPortMod_dma (n : Nat) (f : PtpPort → PtpPort) : (ptpPortMod d n f).dma = d.dma := rfl
@[simp] theorem ptpPortMod_mtx (n : Nat) (f : PtpPort → PtpPort) : (ptpPortMod d n f).mtx = d.mtx := rfl
@[simp] theorem ptpPortMod_hostWrites (n : Nat) (f : PtpPort → PtpPort) : (ptpPortMod d n f).hostWrites = d.hostWrites := rfl
@[simp] theorem ptpPortMod_free (n : Nat) (f : PtpPort → PtpPort) : (ptpPortMod d n f).free = d.free := rfl

@[simp] theorem pulseMod_aon (n : Nat) (f : Pulse → Pulse) : (pulseMod d n f).aon = d.aon := rfl
@[simp] theorem pulseMod_power (n : Nat) (f : Pulse → Pulse) : (pulseMod d n f).power = d.power := rfl
@[simp] theorem pulseMod_flash (n : Nat) (f : Pulse → Pulse) : (pulseMod d n f).flash = d.flash := rfl
@[simp] theorem pulseMod_fw (n : Nat) (f : Pulse → Pulse) : (pulseMod d n f).fw = d.fw := rfl
@[simp] theorem pulseMod_hif (n : Nat) (f : Pulse → Pulse) : (pulseMod d n f).hif = d.hif := rfl
@[simp] theorem pulseMod_mbx (n : Nat) (f : Pulse → Pulse) : (pulseMod d n f).mbx = d.mbx := rfl
@[simp] theorem pulseMod_time (n : Nat) (f : Pulse → Pulse) : (pulseMod d n f).time = { d.time with pulses := tabMod d.time.pulses n f } := rfl
@[simp] theorem pulseMod_dom (n : Nat) (f : Pulse → Pulse) : (pulseMod d n f).dom = d.dom := rfl
@[simp] theorem pulseMod_scene (n : Nat) (f : Pulse → Pulse) : (pulseMod d n f).scene = d.scene := rfl
@[simp] theorem pulseMod_chain (n : Nat) (f : Pulse → Pulse) : (pulseMod d n f).chain = d.chain := rfl
@[simp] theorem pulseMod_mantle (n : Nat) (f : Pulse → Pulse) : (pulseMod d n f).mantle = d.mantle := rfl
@[simp] theorem pulseMod_seam (n : Nat) (f : Pulse → Pulse) : (pulseMod d n f).seam = d.seam := rfl
@[simp] theorem pulseMod_mics (n : Nat) (f : Pulse → Pulse) : (pulseMod d n f).mics = d.mics := rfl
@[simp] theorem pulseMod_cal (n : Nat) (f : Pulse → Pulse) : (pulseMod d n f).cal = d.cal := rfl
@[simp] theorem pulseMod_track (n : Nat) (f : Pulse → Pulse) : (pulseMod d n f).track = d.track := rfl
@[simp] theorem pulseMod_sense (n : Nat) (f : Pulse → Pulse) : (pulseMod d n f).sense = d.sense := rfl
@[simp] theorem pulseMod_selftest (n : Nat) (f : Pulse → Pulse) : (pulseMod d n f).selftest = d.selftest := rfl
@[simp] theorem pulseMod_ports (n : Nat) (f : Pulse → Pulse) : (pulseMod d n f).ports = d.ports := rfl
@[simp] theorem pulseMod_net (n : Nat) (f : Pulse → Pulse) : (pulseMod d n f).net = d.net := rfl
@[simp] theorem pulseMod_twin (n : Nat) (f : Pulse → Pulse) : (pulseMod d n f).twin = d.twin := rfl
@[simp] theorem pulseMod_render (n : Nat) (f : Pulse → Pulse) : (pulseMod d n f).render = d.render := rfl
@[simp] theorem pulseMod_tiles (n : Nat) (f : Pulse → Pulse) : (pulseMod d n f).tiles = d.tiles := rfl
@[simp] theorem pulseMod_dma (n : Nat) (f : Pulse → Pulse) : (pulseMod d n f).dma = d.dma := rfl
@[simp] theorem pulseMod_mtx (n : Nat) (f : Pulse → Pulse) : (pulseMod d n f).mtx = d.mtx := rfl
@[simp] theorem pulseMod_hostWrites (n : Nat) (f : Pulse → Pulse) : (pulseMod d n f).hostWrites = d.hostWrites := rfl
@[simp] theorem pulseMod_free (n : Nat) (f : Pulse → Pulse) : (pulseMod d n f).free = d.free := rfl

@[simp] theorem capMod_aon (n : Nat) (f : Capture → Capture) : (capMod d n f).aon = d.aon := rfl
@[simp] theorem capMod_power (n : Nat) (f : Capture → Capture) : (capMod d n f).power = d.power := rfl
@[simp] theorem capMod_flash (n : Nat) (f : Capture → Capture) : (capMod d n f).flash = d.flash := rfl
@[simp] theorem capMod_fw (n : Nat) (f : Capture → Capture) : (capMod d n f).fw = d.fw := rfl
@[simp] theorem capMod_hif (n : Nat) (f : Capture → Capture) : (capMod d n f).hif = d.hif := rfl
@[simp] theorem capMod_mbx (n : Nat) (f : Capture → Capture) : (capMod d n f).mbx = d.mbx := rfl
@[simp] theorem capMod_time (n : Nat) (f : Capture → Capture) : (capMod d n f).time = { d.time with caps := tabMod d.time.caps n f } := rfl
@[simp] theorem capMod_dom (n : Nat) (f : Capture → Capture) : (capMod d n f).dom = d.dom := rfl
@[simp] theorem capMod_scene (n : Nat) (f : Capture → Capture) : (capMod d n f).scene = d.scene := rfl
@[simp] theorem capMod_chain (n : Nat) (f : Capture → Capture) : (capMod d n f).chain = d.chain := rfl
@[simp] theorem capMod_mantle (n : Nat) (f : Capture → Capture) : (capMod d n f).mantle = d.mantle := rfl
@[simp] theorem capMod_seam (n : Nat) (f : Capture → Capture) : (capMod d n f).seam = d.seam := rfl
@[simp] theorem capMod_mics (n : Nat) (f : Capture → Capture) : (capMod d n f).mics = d.mics := rfl
@[simp] theorem capMod_cal (n : Nat) (f : Capture → Capture) : (capMod d n f).cal = d.cal := rfl
@[simp] theorem capMod_track (n : Nat) (f : Capture → Capture) : (capMod d n f).track = d.track := rfl
@[simp] theorem capMod_sense (n : Nat) (f : Capture → Capture) : (capMod d n f).sense = d.sense := rfl
@[simp] theorem capMod_selftest (n : Nat) (f : Capture → Capture) : (capMod d n f).selftest = d.selftest := rfl
@[simp] theorem capMod_ports (n : Nat) (f : Capture → Capture) : (capMod d n f).ports = d.ports := rfl
@[simp] theorem capMod_net (n : Nat) (f : Capture → Capture) : (capMod d n f).net = d.net := rfl
@[simp] theorem capMod_twin (n : Nat) (f : Capture → Capture) : (capMod d n f).twin = d.twin := rfl
@[simp] theorem capMod_render (n : Nat) (f : Capture → Capture) : (capMod d n f).render = d.render := rfl
@[simp] theorem capMod_tiles (n : Nat) (f : Capture → Capture) : (capMod d n f).tiles = d.tiles := rfl
@[simp] theorem capMod_dma (n : Nat) (f : Capture → Capture) : (capMod d n f).dma = d.dma := rfl
@[simp] theorem capMod_mtx (n : Nat) (f : Capture → Capture) : (capMod d n f).mtx = d.mtx := rfl
@[simp] theorem capMod_hostWrites (n : Nat) (f : Capture → Capture) : (capMod d n f).hostWrites = d.hostWrites := rfl
@[simp] theorem capMod_free (n : Nat) (f : Capture → Capture) : (capMod d n f).free = d.free := rfl

@[simp] theorem ringMod_aon (n : Nat) (f : Ring → Ring) : (ringMod d n f).aon = d.aon := rfl
@[simp] theorem ringMod_power (n : Nat) (f : Ring → Ring) : (ringMod d n f).power = d.power := rfl
@[simp] theorem ringMod_flash (n : Nat) (f : Ring → Ring) : (ringMod d n f).flash = d.flash := rfl
@[simp] theorem ringMod_fw (n : Nat) (f : Ring → Ring) : (ringMod d n f).fw = d.fw := rfl
@[simp] theorem ringMod_hif (n : Nat) (f : Ring → Ring) : (ringMod d n f).hif = d.hif := rfl
@[simp] theorem ringMod_mbx (n : Nat) (f : Ring → Ring) : (ringMod d n f).mbx = d.mbx := rfl
@[simp] theorem ringMod_time (n : Nat) (f : Ring → Ring) : (ringMod d n f).time = d.time := rfl
@[simp] theorem ringMod_dom (n : Nat) (f : Ring → Ring) : (ringMod d n f).dom = d.dom := rfl
@[simp] theorem ringMod_scene (n : Nat) (f : Ring → Ring) : (ringMod d n f).scene = d.scene := rfl
@[simp] theorem ringMod_chain (n : Nat) (f : Ring → Ring) : (ringMod d n f).chain = d.chain := rfl
@[simp] theorem ringMod_mantle (n : Nat) (f : Ring → Ring) : (ringMod d n f).mantle = d.mantle := rfl
@[simp] theorem ringMod_seam (n : Nat) (f : Ring → Ring) : (ringMod d n f).seam = d.seam := rfl
@[simp] theorem ringMod_mics (n : Nat) (f : Ring → Ring) : (ringMod d n f).mics = d.mics := rfl
@[simp] theorem ringMod_cal (n : Nat) (f : Ring → Ring) : (ringMod d n f).cal = d.cal := rfl
@[simp] theorem ringMod_track (n : Nat) (f : Ring → Ring) : (ringMod d n f).track = d.track := rfl
@[simp] theorem ringMod_sense (n : Nat) (f : Ring → Ring) : (ringMod d n f).sense = d.sense := rfl
@[simp] theorem ringMod_selftest (n : Nat) (f : Ring → Ring) : (ringMod d n f).selftest = d.selftest := rfl
@[simp] theorem ringMod_ports (n : Nat) (f : Ring → Ring) : (ringMod d n f).ports = d.ports := rfl
@[simp] theorem ringMod_net (n : Nat) (f : Ring → Ring) : (ringMod d n f).net = { d.net with rings := tabMod d.net.rings n f } := rfl
@[simp] theorem ringMod_twin (n : Nat) (f : Ring → Ring) : (ringMod d n f).twin = d.twin := rfl
@[simp] theorem ringMod_render (n : Nat) (f : Ring → Ring) : (ringMod d n f).render = d.render := rfl
@[simp] theorem ringMod_tiles (n : Nat) (f : Ring → Ring) : (ringMod d n f).tiles = d.tiles := rfl
@[simp] theorem ringMod_dma (n : Nat) (f : Ring → Ring) : (ringMod d n f).dma = d.dma := rfl
@[simp] theorem ringMod_mtx (n : Nat) (f : Ring → Ring) : (ringMod d n f).mtx = d.mtx := rfl
@[simp] theorem ringMod_hostWrites (n : Nat) (f : Ring → Ring) : (ringMod d n f).hostWrites = d.hostWrites := rfl
@[simp] theorem ringMod_free (n : Nat) (f : Ring → Ring) : (ringMod d n f).free = d.free := rfl

@[simp] theorem netPortMod_aon (n : Nat) (f : NetPort → NetPort) : (netPortMod d n f).aon = d.aon := rfl
@[simp] theorem netPortMod_power (n : Nat) (f : NetPort → NetPort) : (netPortMod d n f).power = d.power := rfl
@[simp] theorem netPortMod_flash (n : Nat) (f : NetPort → NetPort) : (netPortMod d n f).flash = d.flash := rfl
@[simp] theorem netPortMod_fw (n : Nat) (f : NetPort → NetPort) : (netPortMod d n f).fw = d.fw := rfl
@[simp] theorem netPortMod_hif (n : Nat) (f : NetPort → NetPort) : (netPortMod d n f).hif = d.hif := rfl
@[simp] theorem netPortMod_mbx (n : Nat) (f : NetPort → NetPort) : (netPortMod d n f).mbx = d.mbx := rfl
@[simp] theorem netPortMod_time (n : Nat) (f : NetPort → NetPort) : (netPortMod d n f).time = d.time := rfl
@[simp] theorem netPortMod_dom (n : Nat) (f : NetPort → NetPort) : (netPortMod d n f).dom = d.dom := rfl
@[simp] theorem netPortMod_scene (n : Nat) (f : NetPort → NetPort) : (netPortMod d n f).scene = d.scene := rfl
@[simp] theorem netPortMod_chain (n : Nat) (f : NetPort → NetPort) : (netPortMod d n f).chain = d.chain := rfl
@[simp] theorem netPortMod_mantle (n : Nat) (f : NetPort → NetPort) : (netPortMod d n f).mantle = d.mantle := rfl
@[simp] theorem netPortMod_seam (n : Nat) (f : NetPort → NetPort) : (netPortMod d n f).seam = d.seam := rfl
@[simp] theorem netPortMod_mics (n : Nat) (f : NetPort → NetPort) : (netPortMod d n f).mics = d.mics := rfl
@[simp] theorem netPortMod_cal (n : Nat) (f : NetPort → NetPort) : (netPortMod d n f).cal = d.cal := rfl
@[simp] theorem netPortMod_track (n : Nat) (f : NetPort → NetPort) : (netPortMod d n f).track = d.track := rfl
@[simp] theorem netPortMod_sense (n : Nat) (f : NetPort → NetPort) : (netPortMod d n f).sense = d.sense := rfl
@[simp] theorem netPortMod_selftest (n : Nat) (f : NetPort → NetPort) : (netPortMod d n f).selftest = d.selftest := rfl
@[simp] theorem netPortMod_ports (n : Nat) (f : NetPort → NetPort) : (netPortMod d n f).ports = d.ports := rfl
@[simp] theorem netPortMod_net (n : Nat) (f : NetPort → NetPort) : (netPortMod d n f).net = { d.net with ports := tabMod d.net.ports n f } := rfl
@[simp] theorem netPortMod_twin (n : Nat) (f : NetPort → NetPort) : (netPortMod d n f).twin = d.twin := rfl
@[simp] theorem netPortMod_render (n : Nat) (f : NetPort → NetPort) : (netPortMod d n f).render = d.render := rfl
@[simp] theorem netPortMod_tiles (n : Nat) (f : NetPort → NetPort) : (netPortMod d n f).tiles = d.tiles := rfl
@[simp] theorem netPortMod_dma (n : Nat) (f : NetPort → NetPort) : (netPortMod d n f).dma = d.dma := rfl
@[simp] theorem netPortMod_mtx (n : Nat) (f : NetPort → NetPort) : (netPortMod d n f).mtx = d.mtx := rfl
@[simp] theorem netPortMod_hostWrites (n : Nat) (f : NetPort → NetPort) : (netPortMod d n f).hostWrites = d.hostWrites := rfl
@[simp] theorem netPortMod_free (n : Nat) (f : NetPort → NetPort) : (netPortMod d n f).free = d.free := rfl

@[simp] theorem rxFlowMod_aon (n : Nat) (f : RxFlow → RxFlow) : (rxFlowMod d n f).aon = d.aon := rfl
@[simp] theorem rxFlowMod_power (n : Nat) (f : RxFlow → RxFlow) : (rxFlowMod d n f).power = d.power := rfl
@[simp] theorem rxFlowMod_flash (n : Nat) (f : RxFlow → RxFlow) : (rxFlowMod d n f).flash = d.flash := rfl
@[simp] theorem rxFlowMod_fw (n : Nat) (f : RxFlow → RxFlow) : (rxFlowMod d n f).fw = d.fw := rfl
@[simp] theorem rxFlowMod_hif (n : Nat) (f : RxFlow → RxFlow) : (rxFlowMod d n f).hif = d.hif := rfl
@[simp] theorem rxFlowMod_mbx (n : Nat) (f : RxFlow → RxFlow) : (rxFlowMod d n f).mbx = d.mbx := rfl
@[simp] theorem rxFlowMod_time (n : Nat) (f : RxFlow → RxFlow) : (rxFlowMod d n f).time = d.time := rfl
@[simp] theorem rxFlowMod_dom (n : Nat) (f : RxFlow → RxFlow) : (rxFlowMod d n f).dom = d.dom := rfl
@[simp] theorem rxFlowMod_scene (n : Nat) (f : RxFlow → RxFlow) : (rxFlowMod d n f).scene = d.scene := rfl
@[simp] theorem rxFlowMod_chain (n : Nat) (f : RxFlow → RxFlow) : (rxFlowMod d n f).chain = d.chain := rfl
@[simp] theorem rxFlowMod_mantle (n : Nat) (f : RxFlow → RxFlow) : (rxFlowMod d n f).mantle = d.mantle := rfl
@[simp] theorem rxFlowMod_seam (n : Nat) (f : RxFlow → RxFlow) : (rxFlowMod d n f).seam = d.seam := rfl
@[simp] theorem rxFlowMod_mics (n : Nat) (f : RxFlow → RxFlow) : (rxFlowMod d n f).mics = d.mics := rfl
@[simp] theorem rxFlowMod_cal (n : Nat) (f : RxFlow → RxFlow) : (rxFlowMod d n f).cal = d.cal := rfl
@[simp] theorem rxFlowMod_track (n : Nat) (f : RxFlow → RxFlow) : (rxFlowMod d n f).track = d.track := rfl
@[simp] theorem rxFlowMod_sense (n : Nat) (f : RxFlow → RxFlow) : (rxFlowMod d n f).sense = d.sense := rfl
@[simp] theorem rxFlowMod_selftest (n : Nat) (f : RxFlow → RxFlow) : (rxFlowMod d n f).selftest = d.selftest := rfl
@[simp] theorem rxFlowMod_ports (n : Nat) (f : RxFlow → RxFlow) : (rxFlowMod d n f).ports = d.ports := rfl
@[simp] theorem rxFlowMod_net (n : Nat) (f : RxFlow → RxFlow) : (rxFlowMod d n f).net = { d.net with rxFlows := tabMod d.net.rxFlows n f } := rfl
@[simp] theorem rxFlowMod_twin (n : Nat) (f : RxFlow → RxFlow) : (rxFlowMod d n f).twin = d.twin := rfl
@[simp] theorem rxFlowMod_render (n : Nat) (f : RxFlow → RxFlow) : (rxFlowMod d n f).render = d.render := rfl
@[simp] theorem rxFlowMod_tiles (n : Nat) (f : RxFlow → RxFlow) : (rxFlowMod d n f).tiles = d.tiles := rfl
@[simp] theorem rxFlowMod_dma (n : Nat) (f : RxFlow → RxFlow) : (rxFlowMod d n f).dma = d.dma := rfl
@[simp] theorem rxFlowMod_mtx (n : Nat) (f : RxFlow → RxFlow) : (rxFlowMod d n f).mtx = d.mtx := rfl
@[simp] theorem rxFlowMod_hostWrites (n : Nat) (f : RxFlow → RxFlow) : (rxFlowMod d n f).hostWrites = d.hostWrites := rfl
@[simp] theorem rxFlowMod_free (n : Nat) (f : RxFlow → RxFlow) : (rxFlowMod d n f).free = d.free := rfl

@[simp] theorem txFlowMod_aon (n : Nat) (f : TxFlow → TxFlow) : (txFlowMod d n f).aon = d.aon := rfl
@[simp] theorem txFlowMod_power (n : Nat) (f : TxFlow → TxFlow) : (txFlowMod d n f).power = d.power := rfl
@[simp] theorem txFlowMod_flash (n : Nat) (f : TxFlow → TxFlow) : (txFlowMod d n f).flash = d.flash := rfl
@[simp] theorem txFlowMod_fw (n : Nat) (f : TxFlow → TxFlow) : (txFlowMod d n f).fw = d.fw := rfl
@[simp] theorem txFlowMod_hif (n : Nat) (f : TxFlow → TxFlow) : (txFlowMod d n f).hif = d.hif := rfl
@[simp] theorem txFlowMod_mbx (n : Nat) (f : TxFlow → TxFlow) : (txFlowMod d n f).mbx = d.mbx := rfl
@[simp] theorem txFlowMod_time (n : Nat) (f : TxFlow → TxFlow) : (txFlowMod d n f).time = d.time := rfl
@[simp] theorem txFlowMod_dom (n : Nat) (f : TxFlow → TxFlow) : (txFlowMod d n f).dom = d.dom := rfl
@[simp] theorem txFlowMod_scene (n : Nat) (f : TxFlow → TxFlow) : (txFlowMod d n f).scene = d.scene := rfl
@[simp] theorem txFlowMod_chain (n : Nat) (f : TxFlow → TxFlow) : (txFlowMod d n f).chain = d.chain := rfl
@[simp] theorem txFlowMod_mantle (n : Nat) (f : TxFlow → TxFlow) : (txFlowMod d n f).mantle = d.mantle := rfl
@[simp] theorem txFlowMod_seam (n : Nat) (f : TxFlow → TxFlow) : (txFlowMod d n f).seam = d.seam := rfl
@[simp] theorem txFlowMod_mics (n : Nat) (f : TxFlow → TxFlow) : (txFlowMod d n f).mics = d.mics := rfl
@[simp] theorem txFlowMod_cal (n : Nat) (f : TxFlow → TxFlow) : (txFlowMod d n f).cal = d.cal := rfl
@[simp] theorem txFlowMod_track (n : Nat) (f : TxFlow → TxFlow) : (txFlowMod d n f).track = d.track := rfl
@[simp] theorem txFlowMod_sense (n : Nat) (f : TxFlow → TxFlow) : (txFlowMod d n f).sense = d.sense := rfl
@[simp] theorem txFlowMod_selftest (n : Nat) (f : TxFlow → TxFlow) : (txFlowMod d n f).selftest = d.selftest := rfl
@[simp] theorem txFlowMod_ports (n : Nat) (f : TxFlow → TxFlow) : (txFlowMod d n f).ports = d.ports := rfl
@[simp] theorem txFlowMod_net (n : Nat) (f : TxFlow → TxFlow) : (txFlowMod d n f).net = { d.net with txFlows := tabMod d.net.txFlows n f } := rfl
@[simp] theorem txFlowMod_twin (n : Nat) (f : TxFlow → TxFlow) : (txFlowMod d n f).twin = d.twin := rfl
@[simp] theorem txFlowMod_render (n : Nat) (f : TxFlow → TxFlow) : (txFlowMod d n f).render = d.render := rfl
@[simp] theorem txFlowMod_tiles (n : Nat) (f : TxFlow → TxFlow) : (txFlowMod d n f).tiles = d.tiles := rfl
@[simp] theorem txFlowMod_dma (n : Nat) (f : TxFlow → TxFlow) : (txFlowMod d n f).dma = d.dma := rfl
@[simp] theorem txFlowMod_mtx (n : Nat) (f : TxFlow → TxFlow) : (txFlowMod d n f).mtx = d.mtx := rfl
@[simp] theorem txFlowMod_hostWrites (n : Nat) (f : TxFlow → TxFlow) : (txFlowMod d n f).hostWrites = d.hostWrites := rfl
@[simp] theorem txFlowMod_free (n : Nat) (f : TxFlow → TxFlow) : (txFlowMod d n f).free = d.free := rfl

@[simp] theorem aesMod_aon (n : Nat) (f : AesRx → AesRx) : (aesMod d n f).aon = d.aon := rfl
@[simp] theorem aesMod_power (n : Nat) (f : AesRx → AesRx) : (aesMod d n f).power = d.power := rfl
@[simp] theorem aesMod_flash (n : Nat) (f : AesRx → AesRx) : (aesMod d n f).flash = d.flash := rfl
@[simp] theorem aesMod_fw (n : Nat) (f : AesRx → AesRx) : (aesMod d n f).fw = d.fw := rfl
@[simp] theorem aesMod_hif (n : Nat) (f : AesRx → AesRx) : (aesMod d n f).hif = d.hif := rfl
@[simp] theorem aesMod_mbx (n : Nat) (f : AesRx → AesRx) : (aesMod d n f).mbx = d.mbx := rfl
@[simp] theorem aesMod_time (n : Nat) (f : AesRx → AesRx) : (aesMod d n f).time = d.time := rfl
@[simp] theorem aesMod_dom (n : Nat) (f : AesRx → AesRx) : (aesMod d n f).dom = d.dom := rfl
@[simp] theorem aesMod_scene (n : Nat) (f : AesRx → AesRx) : (aesMod d n f).scene = d.scene := rfl
@[simp] theorem aesMod_chain (n : Nat) (f : AesRx → AesRx) : (aesMod d n f).chain = d.chain := rfl
@[simp] theorem aesMod_mantle (n : Nat) (f : AesRx → AesRx) : (aesMod d n f).mantle = d.mantle := rfl
@[simp] theorem aesMod_seam (n : Nat) (f : AesRx → AesRx) : (aesMod d n f).seam = d.seam := rfl
@[simp] theorem aesMod_mics (n : Nat) (f : AesRx → AesRx) : (aesMod d n f).mics = d.mics := rfl
@[simp] theorem aesMod_cal (n : Nat) (f : AesRx → AesRx) : (aesMod d n f).cal = d.cal := rfl
@[simp] theorem aesMod_track (n : Nat) (f : AesRx → AesRx) : (aesMod d n f).track = d.track := rfl
@[simp] theorem aesMod_sense (n : Nat) (f : AesRx → AesRx) : (aesMod d n f).sense = d.sense := rfl
@[simp] theorem aesMod_selftest (n : Nat) (f : AesRx → AesRx) : (aesMod d n f).selftest = d.selftest := rfl
@[simp] theorem aesMod_ports (n : Nat) (f : AesRx → AesRx) : (aesMod d n f).ports = { d.ports with aesRx := tabMod d.ports.aesRx n f } := rfl
@[simp] theorem aesMod_net (n : Nat) (f : AesRx → AesRx) : (aesMod d n f).net = d.net := rfl
@[simp] theorem aesMod_twin (n : Nat) (f : AesRx → AesRx) : (aesMod d n f).twin = d.twin := rfl
@[simp] theorem aesMod_render (n : Nat) (f : AesRx → AesRx) : (aesMod d n f).render = d.render := rfl
@[simp] theorem aesMod_tiles (n : Nat) (f : AesRx → AesRx) : (aesMod d n f).tiles = d.tiles := rfl
@[simp] theorem aesMod_dma (n : Nat) (f : AesRx → AesRx) : (aesMod d n f).dma = d.dma := rfl
@[simp] theorem aesMod_mtx (n : Nat) (f : AesRx → AesRx) : (aesMod d n f).mtx = d.mtx := rfl
@[simp] theorem aesMod_hostWrites (n : Nat) (f : AesRx → AesRx) : (aesMod d n f).hostWrites = d.hostWrites := rfl
@[simp] theorem aesMod_free (n : Nat) (f : AesRx → AesRx) : (aesMod d n f).free = d.free := rfl

@[simp] theorem atxMod_aon (n : Nat) (f : AesTx → AesTx) : (atxMod d n f).aon = d.aon := rfl
@[simp] theorem atxMod_power (n : Nat) (f : AesTx → AesTx) : (atxMod d n f).power = d.power := rfl
@[simp] theorem atxMod_flash (n : Nat) (f : AesTx → AesTx) : (atxMod d n f).flash = d.flash := rfl
@[simp] theorem atxMod_fw (n : Nat) (f : AesTx → AesTx) : (atxMod d n f).fw = d.fw := rfl
@[simp] theorem atxMod_hif (n : Nat) (f : AesTx → AesTx) : (atxMod d n f).hif = d.hif := rfl
@[simp] theorem atxMod_mbx (n : Nat) (f : AesTx → AesTx) : (atxMod d n f).mbx = d.mbx := rfl
@[simp] theorem atxMod_time (n : Nat) (f : AesTx → AesTx) : (atxMod d n f).time = d.time := rfl
@[simp] theorem atxMod_dom (n : Nat) (f : AesTx → AesTx) : (atxMod d n f).dom = d.dom := rfl
@[simp] theorem atxMod_scene (n : Nat) (f : AesTx → AesTx) : (atxMod d n f).scene = d.scene := rfl
@[simp] theorem atxMod_chain (n : Nat) (f : AesTx → AesTx) : (atxMod d n f).chain = d.chain := rfl
@[simp] theorem atxMod_mantle (n : Nat) (f : AesTx → AesTx) : (atxMod d n f).mantle = d.mantle := rfl
@[simp] theorem atxMod_seam (n : Nat) (f : AesTx → AesTx) : (atxMod d n f).seam = d.seam := rfl
@[simp] theorem atxMod_mics (n : Nat) (f : AesTx → AesTx) : (atxMod d n f).mics = d.mics := rfl
@[simp] theorem atxMod_cal (n : Nat) (f : AesTx → AesTx) : (atxMod d n f).cal = d.cal := rfl
@[simp] theorem atxMod_track (n : Nat) (f : AesTx → AesTx) : (atxMod d n f).track = d.track := rfl
@[simp] theorem atxMod_sense (n : Nat) (f : AesTx → AesTx) : (atxMod d n f).sense = d.sense := rfl
@[simp] theorem atxMod_selftest (n : Nat) (f : AesTx → AesTx) : (atxMod d n f).selftest = d.selftest := rfl
@[simp] theorem atxMod_ports (n : Nat) (f : AesTx → AesTx) : (atxMod d n f).ports = { d.ports with aesTx := tabMod d.ports.aesTx n f } := rfl
@[simp] theorem atxMod_net (n : Nat) (f : AesTx → AesTx) : (atxMod d n f).net = d.net := rfl
@[simp] theorem atxMod_twin (n : Nat) (f : AesTx → AesTx) : (atxMod d n f).twin = d.twin := rfl
@[simp] theorem atxMod_render (n : Nat) (f : AesTx → AesTx) : (atxMod d n f).render = d.render := rfl
@[simp] theorem atxMod_tiles (n : Nat) (f : AesTx → AesTx) : (atxMod d n f).tiles = d.tiles := rfl
@[simp] theorem atxMod_dma (n : Nat) (f : AesTx → AesTx) : (atxMod d n f).dma = d.dma := rfl
@[simp] theorem atxMod_mtx (n : Nat) (f : AesTx → AesTx) : (atxMod d n f).mtx = d.mtx := rfl
@[simp] theorem atxMod_hostWrites (n : Nat) (f : AesTx → AesTx) : (atxMod d n f).hostWrites = d.hostWrites := rfl
@[simp] theorem atxMod_free (n : Nat) (f : AesTx → AesTx) : (atxMod d n f).free = d.free := rfl

@[simp] theorem tdmMod_aon (n : Nat) (f : Tdm → Tdm) : (tdmMod d n f).aon = d.aon := rfl
@[simp] theorem tdmMod_power (n : Nat) (f : Tdm → Tdm) : (tdmMod d n f).power = d.power := rfl
@[simp] theorem tdmMod_flash (n : Nat) (f : Tdm → Tdm) : (tdmMod d n f).flash = d.flash := rfl
@[simp] theorem tdmMod_fw (n : Nat) (f : Tdm → Tdm) : (tdmMod d n f).fw = d.fw := rfl
@[simp] theorem tdmMod_hif (n : Nat) (f : Tdm → Tdm) : (tdmMod d n f).hif = d.hif := rfl
@[simp] theorem tdmMod_mbx (n : Nat) (f : Tdm → Tdm) : (tdmMod d n f).mbx = d.mbx := rfl
@[simp] theorem tdmMod_time (n : Nat) (f : Tdm → Tdm) : (tdmMod d n f).time = d.time := rfl
@[simp] theorem tdmMod_dom (n : Nat) (f : Tdm → Tdm) : (tdmMod d n f).dom = d.dom := rfl
@[simp] theorem tdmMod_scene (n : Nat) (f : Tdm → Tdm) : (tdmMod d n f).scene = d.scene := rfl
@[simp] theorem tdmMod_chain (n : Nat) (f : Tdm → Tdm) : (tdmMod d n f).chain = d.chain := rfl
@[simp] theorem tdmMod_mantle (n : Nat) (f : Tdm → Tdm) : (tdmMod d n f).mantle = d.mantle := rfl
@[simp] theorem tdmMod_seam (n : Nat) (f : Tdm → Tdm) : (tdmMod d n f).seam = d.seam := rfl
@[simp] theorem tdmMod_mics (n : Nat) (f : Tdm → Tdm) : (tdmMod d n f).mics = d.mics := rfl
@[simp] theorem tdmMod_cal (n : Nat) (f : Tdm → Tdm) : (tdmMod d n f).cal = d.cal := rfl
@[simp] theorem tdmMod_track (n : Nat) (f : Tdm → Tdm) : (tdmMod d n f).track = d.track := rfl
@[simp] theorem tdmMod_sense (n : Nat) (f : Tdm → Tdm) : (tdmMod d n f).sense = d.sense := rfl
@[simp] theorem tdmMod_selftest (n : Nat) (f : Tdm → Tdm) : (tdmMod d n f).selftest = d.selftest := rfl
@[simp] theorem tdmMod_ports (n : Nat) (f : Tdm → Tdm) : (tdmMod d n f).ports = { d.ports with tdm := tabMod d.ports.tdm n f } := rfl
@[simp] theorem tdmMod_net (n : Nat) (f : Tdm → Tdm) : (tdmMod d n f).net = d.net := rfl
@[simp] theorem tdmMod_twin (n : Nat) (f : Tdm → Tdm) : (tdmMod d n f).twin = d.twin := rfl
@[simp] theorem tdmMod_render (n : Nat) (f : Tdm → Tdm) : (tdmMod d n f).render = d.render := rfl
@[simp] theorem tdmMod_tiles (n : Nat) (f : Tdm → Tdm) : (tdmMod d n f).tiles = d.tiles := rfl
@[simp] theorem tdmMod_dma (n : Nat) (f : Tdm → Tdm) : (tdmMod d n f).dma = d.dma := rfl
@[simp] theorem tdmMod_mtx (n : Nat) (f : Tdm → Tdm) : (tdmMod d n f).mtx = d.mtx := rfl
@[simp] theorem tdmMod_hostWrites (n : Nat) (f : Tdm → Tdm) : (tdmMod d n f).hostWrites = d.hostWrites := rfl
@[simp] theorem tdmMod_free (n : Nat) (f : Tdm → Tdm) : (tdmMod d n f).free = d.free := rfl

@[simp] theorem sessionMod_aon (n : Nat) (f : Session → Session) : (sessionMod d n f).aon = d.aon := rfl
@[simp] theorem sessionMod_power (n : Nat) (f : Session → Session) : (sessionMod d n f).power = d.power := rfl
@[simp] theorem sessionMod_flash (n : Nat) (f : Session → Session) : (sessionMod d n f).flash = d.flash := rfl
@[simp] theorem sessionMod_fw (n : Nat) (f : Session → Session) : (sessionMod d n f).fw = { d.fw with sessions := tabMod d.fw.sessions n f } := rfl
@[simp] theorem sessionMod_hif (n : Nat) (f : Session → Session) : (sessionMod d n f).hif = d.hif := rfl
@[simp] theorem sessionMod_mbx (n : Nat) (f : Session → Session) : (sessionMod d n f).mbx = d.mbx := rfl
@[simp] theorem sessionMod_time (n : Nat) (f : Session → Session) : (sessionMod d n f).time = d.time := rfl
@[simp] theorem sessionMod_dom (n : Nat) (f : Session → Session) : (sessionMod d n f).dom = d.dom := rfl
@[simp] theorem sessionMod_scene (n : Nat) (f : Session → Session) : (sessionMod d n f).scene = d.scene := rfl
@[simp] theorem sessionMod_chain (n : Nat) (f : Session → Session) : (sessionMod d n f).chain = d.chain := rfl
@[simp] theorem sessionMod_mantle (n : Nat) (f : Session → Session) : (sessionMod d n f).mantle = d.mantle := rfl
@[simp] theorem sessionMod_seam (n : Nat) (f : Session → Session) : (sessionMod d n f).seam = d.seam := rfl
@[simp] theorem sessionMod_mics (n : Nat) (f : Session → Session) : (sessionMod d n f).mics = d.mics := rfl
@[simp] theorem sessionMod_cal (n : Nat) (f : Session → Session) : (sessionMod d n f).cal = d.cal := rfl
@[simp] theorem sessionMod_track (n : Nat) (f : Session → Session) : (sessionMod d n f).track = d.track := rfl
@[simp] theorem sessionMod_sense (n : Nat) (f : Session → Session) : (sessionMod d n f).sense = d.sense := rfl
@[simp] theorem sessionMod_selftest (n : Nat) (f : Session → Session) : (sessionMod d n f).selftest = d.selftest := rfl
@[simp] theorem sessionMod_ports (n : Nat) (f : Session → Session) : (sessionMod d n f).ports = d.ports := rfl
@[simp] theorem sessionMod_net (n : Nat) (f : Session → Session) : (sessionMod d n f).net = d.net := rfl
@[simp] theorem sessionMod_twin (n : Nat) (f : Session → Session) : (sessionMod d n f).twin = d.twin := rfl
@[simp] theorem sessionMod_render (n : Nat) (f : Session → Session) : (sessionMod d n f).render = d.render := rfl
@[simp] theorem sessionMod_tiles (n : Nat) (f : Session → Session) : (sessionMod d n f).tiles = d.tiles := rfl
@[simp] theorem sessionMod_dma (n : Nat) (f : Session → Session) : (sessionMod d n f).dma = d.dma := rfl
@[simp] theorem sessionMod_mtx (n : Nat) (f : Session → Session) : (sessionMod d n f).mtx = d.mtx := rfl
@[simp] theorem sessionMod_hostWrites (n : Nat) (f : Session → Session) : (sessionMod d n f).hostWrites = d.hostWrites := rfl
@[simp] theorem sessionMod_free (n : Nat) (f : Session → Session) : (sessionMod d n f).free = d.free := rfl

@[simp] theorem haloMod_aon (f : Halo → Halo) : (haloMod d f).aon = d.aon := rfl
@[simp] theorem haloMod_power (f : Halo → Halo) : (haloMod d f).power = d.power := rfl
@[simp] theorem haloMod_flash (f : Halo → Halo) : (haloMod d f).flash = d.flash := rfl
@[simp] theorem haloMod_fw (f : Halo → Halo) : (haloMod d f).fw = d.fw := rfl
@[simp] theorem haloMod_hif (f : Halo → Halo) : (haloMod d f).hif = d.hif := rfl
@[simp] theorem haloMod_mbx (f : Halo → Halo) : (haloMod d f).mbx = d.mbx := rfl
@[simp] theorem haloMod_time (f : Halo → Halo) : (haloMod d f).time = d.time := rfl
@[simp] theorem haloMod_dom (f : Halo → Halo) : (haloMod d f).dom = d.dom := rfl
@[simp] theorem haloMod_scene (f : Halo → Halo) : (haloMod d f).scene = d.scene := rfl
@[simp] theorem haloMod_chain (f : Halo → Halo) : (haloMod d f).chain = d.chain := rfl
@[simp] theorem haloMod_mantle (f : Halo → Halo) : (haloMod d f).mantle = { d.mantle with halo := f d.mantle.halo } := rfl
@[simp] theorem haloMod_seam (f : Halo → Halo) : (haloMod d f).seam = d.seam := rfl
@[simp] theorem haloMod_mics (f : Halo → Halo) : (haloMod d f).mics = d.mics := rfl
@[simp] theorem haloMod_cal (f : Halo → Halo) : (haloMod d f).cal = d.cal := rfl
@[simp] theorem haloMod_track (f : Halo → Halo) : (haloMod d f).track = d.track := rfl
@[simp] theorem haloMod_sense (f : Halo → Halo) : (haloMod d f).sense = d.sense := rfl
@[simp] theorem haloMod_selftest (f : Halo → Halo) : (haloMod d f).selftest = d.selftest := rfl
@[simp] theorem haloMod_ports (f : Halo → Halo) : (haloMod d f).ports = d.ports := rfl
@[simp] theorem haloMod_net (f : Halo → Halo) : (haloMod d f).net = d.net := rfl
@[simp] theorem haloMod_twin (f : Halo → Halo) : (haloMod d f).twin = d.twin := rfl
@[simp] theorem haloMod_render (f : Halo → Halo) : (haloMod d f).render = d.render := rfl
@[simp] theorem haloMod_tiles (f : Halo → Halo) : (haloMod d f).tiles = d.tiles := rfl
@[simp] theorem haloMod_dma (f : Halo → Halo) : (haloMod d f).dma = d.dma := rfl
@[simp] theorem haloMod_mtx (f : Halo → Halo) : (haloMod d f).mtx = d.mtx := rfl
@[simp] theorem haloMod_hostWrites (f : Halo → Halo) : (haloMod d f).hostWrites = d.hostWrites := rfl
@[simp] theorem haloMod_free (f : Halo → Halo) : (haloMod d f).free = d.free := rfl

@[simp] theorem accessErr_aon : (accessErr d).aon = d.aon := rfl
@[simp] theorem accessErr_power : (accessErr d).power = d.power := rfl
@[simp] theorem accessErr_flash : (accessErr d).flash = d.flash := rfl
@[simp] theorem accessErr_fw : (accessErr d).fw = d.fw := rfl
@[simp] theorem accessErr_hif : (accessErr d).hif = { d.hif with accessErr := d.hif.accessErr + 1 } := rfl
@[simp] theorem accessErr_mbx : (accessErr d).mbx = d.mbx := rfl
@[simp] theorem accessErr_time : (accessErr d).time = d.time := rfl
@[simp] theorem accessErr_dom : (accessErr d).dom = d.dom := rfl
@[simp] theorem accessErr_scene : (accessErr d).scene = d.scene := rfl
@[simp] theorem accessErr_chain : (accessErr d).chain = d.chain := rfl
@[simp] theorem accessErr_mantle : (accessErr d).mantle = d.mantle := rfl
@[simp] theorem accessErr_seam : (accessErr d).seam = d.seam := rfl
@[simp] theorem accessErr_mics : (accessErr d).mics = d.mics := rfl
@[simp] theorem accessErr_cal : (accessErr d).cal = d.cal := rfl
@[simp] theorem accessErr_track : (accessErr d).track = d.track := rfl
@[simp] theorem accessErr_sense : (accessErr d).sense = d.sense := rfl
@[simp] theorem accessErr_selftest : (accessErr d).selftest = d.selftest := rfl
@[simp] theorem accessErr_ports : (accessErr d).ports = d.ports := rfl
@[simp] theorem accessErr_net : (accessErr d).net = d.net := rfl
@[simp] theorem accessErr_twin : (accessErr d).twin = d.twin := rfl
@[simp] theorem accessErr_render : (accessErr d).render = d.render := rfl
@[simp] theorem accessErr_tiles : (accessErr d).tiles = d.tiles := rfl
@[simp] theorem accessErr_dma : (accessErr d).dma = d.dma := rfl
@[simp] theorem accessErr_mtx : (accessErr d).mtx = d.mtx := rfl
@[simp] theorem accessErr_hostWrites : (accessErr d).hostWrites = d.hostWrites := rfl
@[simp] theorem accessErr_free : (accessErr d).free = d.free := rfl

@[simp] theorem queueMsg_aon (m : OutMsg) : (queueMsg d m).aon = d.aon := rfl
@[simp] theorem queueMsg_power (m : OutMsg) : (queueMsg d m).power = d.power := rfl
@[simp] theorem queueMsg_flash (m : OutMsg) : (queueMsg d m).flash = d.flash := rfl
@[simp] theorem queueMsg_fw (m : OutMsg) : (queueMsg d m).fw = { d.fw with queue := d.fw.queue ++ [m] } := rfl
@[simp] theorem queueMsg_hif (m : OutMsg) : (queueMsg d m).hif = d.hif := rfl
@[simp] theorem queueMsg_mbx (m : OutMsg) : (queueMsg d m).mbx = d.mbx := rfl
@[simp] theorem queueMsg_time (m : OutMsg) : (queueMsg d m).time = d.time := rfl
@[simp] theorem queueMsg_dom (m : OutMsg) : (queueMsg d m).dom = d.dom := rfl
@[simp] theorem queueMsg_scene (m : OutMsg) : (queueMsg d m).scene = d.scene := rfl
@[simp] theorem queueMsg_chain (m : OutMsg) : (queueMsg d m).chain = d.chain := rfl
@[simp] theorem queueMsg_mantle (m : OutMsg) : (queueMsg d m).mantle = d.mantle := rfl
@[simp] theorem queueMsg_seam (m : OutMsg) : (queueMsg d m).seam = d.seam := rfl
@[simp] theorem queueMsg_mics (m : OutMsg) : (queueMsg d m).mics = d.mics := rfl
@[simp] theorem queueMsg_cal (m : OutMsg) : (queueMsg d m).cal = d.cal := rfl
@[simp] theorem queueMsg_track (m : OutMsg) : (queueMsg d m).track = d.track := rfl
@[simp] theorem queueMsg_sense (m : OutMsg) : (queueMsg d m).sense = d.sense := rfl
@[simp] theorem queueMsg_selftest (m : OutMsg) : (queueMsg d m).selftest = d.selftest := rfl
@[simp] theorem queueMsg_ports (m : OutMsg) : (queueMsg d m).ports = d.ports := rfl
@[simp] theorem queueMsg_net (m : OutMsg) : (queueMsg d m).net = d.net := rfl
@[simp] theorem queueMsg_twin (m : OutMsg) : (queueMsg d m).twin = d.twin := rfl
@[simp] theorem queueMsg_render (m : OutMsg) : (queueMsg d m).render = d.render := rfl
@[simp] theorem queueMsg_tiles (m : OutMsg) : (queueMsg d m).tiles = d.tiles := rfl
@[simp] theorem queueMsg_dma (m : OutMsg) : (queueMsg d m).dma = d.dma := rfl
@[simp] theorem queueMsg_mtx (m : OutMsg) : (queueMsg d m).mtx = d.mtx := rfl
@[simp] theorem queueMsg_hostWrites (m : OutMsg) : (queueMsg d m).hostWrites = d.hostWrites := rfl
@[simp] theorem queueMsg_free (m : OutMsg) : (queueMsg d m).free = d.free := rfl

@[simp] theorem deposit_aon (a : Nat) (bs : List Byte) : (deposit d a bs).aon = d.aon := rfl
@[simp] theorem deposit_power (a : Nat) (bs : List Byte) : (deposit d a bs).power = d.power := rfl
@[simp] theorem deposit_flash (a : Nat) (bs : List Byte) : (deposit d a bs).flash = d.flash := rfl
@[simp] theorem deposit_fw (a : Nat) (bs : List Byte) : (deposit d a bs).fw = d.fw := rfl
@[simp] theorem deposit_hif (a : Nat) (bs : List Byte) : (deposit d a bs).hif = d.hif := rfl
@[simp] theorem deposit_mbx (a : Nat) (bs : List Byte) : (deposit d a bs).mbx = d.mbx := rfl
@[simp] theorem deposit_time (a : Nat) (bs : List Byte) : (deposit d a bs).time = d.time := rfl
@[simp] theorem deposit_dom (a : Nat) (bs : List Byte) : (deposit d a bs).dom = d.dom := rfl
@[simp] theorem deposit_scene (a : Nat) (bs : List Byte) : (deposit d a bs).scene = d.scene := rfl
@[simp] theorem deposit_chain (a : Nat) (bs : List Byte) : (deposit d a bs).chain = d.chain := rfl
@[simp] theorem deposit_mantle (a : Nat) (bs : List Byte) : (deposit d a bs).mantle = d.mantle := rfl
@[simp] theorem deposit_seam (a : Nat) (bs : List Byte) : (deposit d a bs).seam = d.seam := rfl
@[simp] theorem deposit_mics (a : Nat) (bs : List Byte) : (deposit d a bs).mics = d.mics := rfl
@[simp] theorem deposit_cal (a : Nat) (bs : List Byte) : (deposit d a bs).cal = d.cal := rfl
@[simp] theorem deposit_track (a : Nat) (bs : List Byte) : (deposit d a bs).track = d.track := rfl
@[simp] theorem deposit_sense (a : Nat) (bs : List Byte) : (deposit d a bs).sense = d.sense := rfl
@[simp] theorem deposit_selftest (a : Nat) (bs : List Byte) : (deposit d a bs).selftest = d.selftest := rfl
@[simp] theorem deposit_ports (a : Nat) (bs : List Byte) : (deposit d a bs).ports = d.ports := rfl
@[simp] theorem deposit_net (a : Nat) (bs : List Byte) : (deposit d a bs).net = d.net := rfl
@[simp] theorem deposit_twin (a : Nat) (bs : List Byte) : (deposit d a bs).twin = d.twin := rfl
@[simp] theorem deposit_render (a : Nat) (bs : List Byte) : (deposit d a bs).render = d.render := rfl
@[simp] theorem deposit_tiles (a : Nat) (bs : List Byte) : (deposit d a bs).tiles = d.tiles := rfl
@[simp] theorem deposit_dma (a : Nat) (bs : List Byte) : (deposit d a bs).dma = d.dma := rfl
@[simp] theorem deposit_mtx (a : Nat) (bs : List Byte) : (deposit d a bs).mtx = d.mtx := rfl
@[simp] theorem deposit_hostWrites (a : Nat) (bs : List Byte) : (deposit d a bs).hostWrites = d.hostWrites ++ [(a, bs)] := rfl
@[simp] theorem deposit_free (a : Nat) (bs : List Byte) : (deposit d a bs).free = d.free := rfl

@[simp] theorem giveRead_aon (w : Word) : (giveRead w d).aon = d.aon := rfl
@[simp] theorem giveRead_power (w : Word) : (giveRead w d).power = d.power := rfl
@[simp] theorem giveRead_flash (w : Word) : (giveRead w d).flash = d.flash := rfl
@[simp] theorem giveRead_fw (w : Word) : (giveRead w d).fw = d.fw := rfl
@[simp] theorem giveRead_hif (w : Word) : (giveRead w d).hif = { d.hif with readData := d.hif.readData ++ [w] } := rfl
@[simp] theorem giveRead_mbx (w : Word) : (giveRead w d).mbx = d.mbx := rfl
@[simp] theorem giveRead_time (w : Word) : (giveRead w d).time = d.time := rfl
@[simp] theorem giveRead_dom (w : Word) : (giveRead w d).dom = d.dom := rfl
@[simp] theorem giveRead_scene (w : Word) : (giveRead w d).scene = d.scene := rfl
@[simp] theorem giveRead_chain (w : Word) : (giveRead w d).chain = d.chain := rfl
@[simp] theorem giveRead_mantle (w : Word) : (giveRead w d).mantle = d.mantle := rfl
@[simp] theorem giveRead_seam (w : Word) : (giveRead w d).seam = d.seam := rfl
@[simp] theorem giveRead_mics (w : Word) : (giveRead w d).mics = d.mics := rfl
@[simp] theorem giveRead_cal (w : Word) : (giveRead w d).cal = d.cal := rfl
@[simp] theorem giveRead_track (w : Word) : (giveRead w d).track = d.track := rfl
@[simp] theorem giveRead_sense (w : Word) : (giveRead w d).sense = d.sense := rfl
@[simp] theorem giveRead_selftest (w : Word) : (giveRead w d).selftest = d.selftest := rfl
@[simp] theorem giveRead_ports (w : Word) : (giveRead w d).ports = d.ports := rfl
@[simp] theorem giveRead_net (w : Word) : (giveRead w d).net = d.net := rfl
@[simp] theorem giveRead_twin (w : Word) : (giveRead w d).twin = d.twin := rfl
@[simp] theorem giveRead_render (w : Word) : (giveRead w d).render = d.render := rfl
@[simp] theorem giveRead_tiles (w : Word) : (giveRead w d).tiles = d.tiles := rfl
@[simp] theorem giveRead_dma (w : Word) : (giveRead w d).dma = d.dma := rfl
@[simp] theorem giveRead_mtx (w : Word) : (giveRead w d).mtx = d.mtx := rfl
@[simp] theorem giveRead_hostWrites (w : Word) : (giveRead w d).hostWrites = d.hostWrites := rfl
@[simp] theorem giveRead_free (w : Word) : (giveRead w d).free = d.free := rfl

end Sys2Proof.Machine
end

