-- ==== Sys2Proof/Laws/Settle.lean ====
section
/-! SUPPORT. What an event, and what settling a command, can do: events and log entries in the firmware record, matrix error
registers, the notes of the tiles emptied, frames put on the link, interrupt messages.  Everything else stays. -/

namespace Sys2Proof.Machine

/-- A fold keeps every reflexive and transitive relation that its steps keep. -/
theorem foldl_rel {σ α : Type} (R : σ → σ → Prop) (hr : ∀ x, R x x) (ht : ∀ x y z, R x y → R y z → R x z) (f : σ → α → σ)
    (h : ∀ x a, R x (f x a)) (l : List α) (x : σ) : R x (l.foldl f x) := by
  induction l generalizing x with
  | nil => exact hr x
  | cons a t ih => exact ht _ _ _ (h x a) (ih _)

/-- d' differs from d in nothing but what an event or a log entry writes. -/
def EvSame (d d' : Dev) : Prop :=
  d' = { d with fw := { d.fw with queue := d'.fw.queue, log := d'.fw.log, logSeq := d'.fw.logSeq, evqDrop := d'.fw.evqDrop } }

theorem EvSame.refl (d : Dev) : EvSame d d := rfl
theorem EvSame.trans {a b c : Dev} (h : EvSame a b) (k : EvSame b c) : EvSame a c := by
  unfold EvSame at *; rw [k, h]

theorem addLog_same (d : Dev) (a b c : Nat) (e : List Byte) : EvSame d (addLog d a b c e) := rfl
theorem eventTo_same (d : Dev) (n : Nat) (p : List Byte) (ch : Nat) : EvSame d (eventTo d n p ch) := by
  unfold eventTo; dsimp only; repeat' (first | rfl | split)
/-- An event writes nothing but the queue, the log and the drop counts. -/
theorem event_same (d : Dev) (n : Nat) (p : List Byte) : EvSame d (event d n p) := by
  unfold event; dsimp only
  split
  · rfl
  · refine EvSame.trans (addLog_same d (0xC000 + n) (eventSeverity n) 0xFF p) ?_
    apply foldl_rel EvSame EvSame.refl (fun _ _ _ => EvSame.trans)
    intro x ch; split
    · exact eventTo_same _ _ _ _
    · rfl
theorem evFault_same (d : Dev) (a b c e : Nat) (m : MT) (x y z : Nat) : EvSame d (evFault d a b c e m x y z) := event_same _ _ _
theorem evPortClock_same (d : Dev) (a b c e g : Nat) (m : MT) (t : DT) : EvSame d (evPortClock d a b c e g m t) := event_same _ _ _

/-- d' differs from d in nothing but what settling writes. -/
def SetSame (d d' : Dev) : Prop :=
  d' = { d with
    fw := { d.fw with queue := d'.fw.queue, log := d'.fw.log, logSeq := d'.fw.logSeq, evqDrop := d'.fw.evqDrop }
    hif := { d.hif with msixPend := d'.hif.msixPend, msixCond := d'.hif.msixCond, msixSent := d'.hif.msixSent }
    mtx := { d.mtx with err := d'.mtx.err, errInfo := d'.mtx.errInfo, errAddr := d'.mtx.errAddr }
    twin := { d.twin with txSeq := d'.twin.txSeq, unacked := d'.twin.unacked, waiting := d'.twin.waiting, sent := d'.twin.sent }
    tiles := { d.tiles with notes := d'.tiles.notes } }

theorem SetSame.refl (d : Dev) : SetSame d d := rfl
theorem SetSame.trans {a b c : Dev} (h : SetSame a b) (k : SetSame b c) : SetSame a c := by
  unfold SetSame at *; rw [k, h]
theorem EvSame.set {a b : Dev} (h : EvSame a b) : SetSame a b := by
  unfold SetSame; unfold EvSame at h; rw [h]

theorem noteOne_same (d : Dev) (n : DspNote) : SetSame d (noteOne d n) := by
  cases n with
  | matrixErr m r a => unfold noteOne matrixError; exact SetSame.trans (by exact rfl) (evFault_same _ _ _ _ _ _ _ _ _).set
  | coreFault => exact (evFault_same _ _ _ _ _ _ _ _ _).set
theorem settleNotes_same (d : Dev) : SetSame d (settleNotes d) :=
  SetSame.trans (b := { d with tiles := { d.tiles with notes := [] } }) rfl
    (foldl_rel SetSame SetSame.refl (fun _ _ _ => SetSame.trans) _ noteOne_same _ _)
theorem cond_same (d : Dev) (c : Half) : SetSame d (hif d (fun h => { h with msixCond := c })) := rfl
theorem settleMsix_same (d : Dev) : SetSame d (settleMsix d) := by
  unfold settleMsix; dsimp only
  refine SetSame.trans (foldl_rel SetSame SetSame.refl (fun _ _ _ => SetSame.trans) _ ?_ _ d) (cond_same _ _)
  intro x v; split
  · cases hm : x.hif.msixMask.getLsbD v <;> simp only [hif, hm, if_true, if_false, Bool.false_eq_true] <;> rfl
  · rfl

/-- One frame more on the link changes only the sending side. -/
def LinkSame (t t' : Twin) : Prop :=
  t' = { t with txSeq := t'.txSeq, unacked := t'.unacked, waiting := t'.waiting, sent := t'.sent }
theorem LinkSame.refl (t : Twin) : LinkSame t t := rfl
theorem LinkSame.trans {a b c : Twin} (h : LinkSame a b) (k : LinkSame b c) : LinkSame a c := by
  unfold LinkSame at *; rw [k, h]
theorem linkSame_sent (t : Twin) : LinkSame t { t with waiting := [] } := rfl
theorem linkPut_same (t : Twin) (c : Nat) (b : List Byte) : LinkSame t (linkPut t c b) := by
  unfold linkPut; dsimp only
  apply foldl_rel LinkSame LinkSame.refl (fun _ _ _ => LinkSame.trans)
  intro x i; rfl
theorem linkFlush_same (t : Twin) : LinkSame t (linkFlush t) := by
  unfold linkFlush; dsimp only
  refine LinkSame.trans (?_ : LinkSame t _) (linkSame_sent _)
  apply foldl_rel LinkSame LinkSame.refl (fun _ _ _ => LinkSame.trans)
  intro x c
  apply foldl_rel LinkSame LinkSame.refl (fun _ _ _ => LinkSame.trans)
  intro y w; exact linkPut_same _ _ _

/-- Settling writes nothing but what SetSame names. -/
theorem settle_same (d : Dev) : SetSame d (settle d) := by
  unfold settle; dsimp only
  refine SetSame.trans (settleNotes_same d) (SetSame.trans (b := { settleNotes d with twin := linkFlush (settleNotes d).twin }) ?_ (settleMsix_same _))
  have h := linkFlush_same (settleNotes d).twin
  unfold LinkSame at h; unfold SetSame; rw [h]

@[simp] theorem linkFlush_waiting (t : Twin) : (linkFlush t).waiting = [] := rfl

theorem EvSame.aon {a b : Dev} (h : EvSame a b) : b.aon = a.aon := by have k := congrArg (fun x : Dev => x.aon) h; exact k
theorem EvSame.power {a b : Dev} (h : EvSame a b) : b.power = a.power := by have k := congrArg (fun x : Dev => x.power) h; exact k
theorem EvSame.flash {a b : Dev} (h : EvSame a b) : b.flash = a.flash := by have k := congrArg (fun x : Dev => x.flash) h; exact k
theorem EvSame.hif {a b : Dev} (h : EvSame a b) : b.hif = a.hif := by have k := congrArg (fun x : Dev => x.hif) h; exact k
theorem EvSame.mbx {a b : Dev} (h : EvSame a b) : b.mbx = a.mbx := by have k := congrArg (fun x : Dev => x.mbx) h; exact k
theorem EvSame.time {a b : Dev} (h : EvSame a b) : b.time = a.time := by have k := congrArg (fun x : Dev => x.time) h; exact k
theorem EvSame.dom {a b : Dev} (h : EvSame a b) : b.dom = a.dom := by have k := congrArg (fun x : Dev => x.dom) h; exact k
theorem EvSame.scene {a b : Dev} (h : EvSame a b) : b.scene = a.scene := by have k := congrArg (fun x : Dev => x.scene) h; exact k
theorem EvSame.chain {a b : Dev} (h : EvSame a b) : b.chain = a.chain := by have k := congrArg (fun x : Dev => x.chain) h; exact k
theorem EvSame.mantle {a b : Dev} (h : EvSame a b) : b.mantle = a.mantle := by have k := congrArg (fun x : Dev => x.mantle) h; exact k
theorem EvSame.seam {a b : Dev} (h : EvSame a b) : b.seam = a.seam := by have k := congrArg (fun x : Dev => x.seam) h; exact k
theorem EvSame.mics {a b : Dev} (h : EvSame a b) : b.mics = a.mics := by have k := congrArg (fun x : Dev => x.mics) h; exact k
theorem EvSame.cal {a b : Dev} (h : EvSame a b) : b.cal = a.cal := by have k := congrArg (fun x : Dev => x.cal) h; exact k
theorem EvSame.track {a b : Dev} (h : EvSame a b) : b.track = a.track := by have k := congrArg (fun x : Dev => x.track) h; exact k
theorem EvSame.sense {a b : Dev} (h : EvSame a b) : b.sense = a.sense := by have k := congrArg (fun x : Dev => x.sense) h; exact k
theorem EvSame.selftest {a b : Dev} (h : EvSame a b) : b.selftest = a.selftest := by have k := congrArg (fun x : Dev => x.selftest) h; exact k
theorem EvSame.ports {a b : Dev} (h : EvSame a b) : b.ports = a.ports := by have k := congrArg (fun x : Dev => x.ports) h; exact k
theorem EvSame.net {a b : Dev} (h : EvSame a b) : b.net = a.net := by have k := congrArg (fun x : Dev => x.net) h; exact k
theorem EvSame.twin {a b : Dev} (h : EvSame a b) : b.twin = a.twin := by have k := congrArg (fun x : Dev => x.twin) h; exact k
theorem EvSame.render {a b : Dev} (h : EvSame a b) : b.render = a.render := by have k := congrArg (fun x : Dev => x.render) h; exact k
theorem EvSame.tiles {a b : Dev} (h : EvSame a b) : b.tiles = a.tiles := by have k := congrArg (fun x : Dev => x.tiles) h; exact k
theorem EvSame.dma {a b : Dev} (h : EvSame a b) : b.dma = a.dma := by have k := congrArg (fun x : Dev => x.dma) h; exact k
theorem EvSame.mtx {a b : Dev} (h : EvSame a b) : b.mtx = a.mtx := by have k := congrArg (fun x : Dev => x.mtx) h; exact k
theorem EvSame.hostWrites {a b : Dev} (h : EvSame a b) : b.hostWrites = a.hostWrites := by have k := congrArg (fun x : Dev => x.hostWrites) h; exact k
theorem EvSame.free {a b : Dev} (h : EvSame a b) : b.free = a.free := by have k := congrArg (fun x : Dev => x.free) h; exact k
theorem EvSame.fw_mode {a b : Dev} (h : EvSame a b) : b.fw.mode = a.fw.mode := by have k := congrArg (fun x : Dev => x.fw.mode) h; exact k
theorem EvSame.fw_prevMode {a b : Dev} (h : EvSame a b) : b.fw.prevMode = a.fw.prevMode := by have k := congrArg (fun x : Dev => x.fw.prevMode) h; exact k
theorem EvSame.fw_changing {a b : Dev} (h : EvSame a b) : b.fw.changing = a.fw.changing := by have k := congrArg (fun x : Dev => x.fw.changing) h; exact k
theorem EvSame.fw_modeDt {a b : Dev} (h : EvSame a b) : b.fw.modeDt = a.fw.modeDt := by have k := congrArg (fun x : Dev => x.fw.modeDt) h; exact k
theorem EvSame.fw_sessions {a b : Dev} (h : EvSame a b) : b.fw.sessions = a.fw.sessions := by have k := congrArg (fun x : Dev => x.fw.sessions) h; exact k
theorem EvSame.fw_chains {a b : Dev} (h : EvSame a b) : b.fw.chains = a.fw.chains := by have k := congrArg (fun x : Dev => x.fw.chains) h; exact k
theorem EvSame.fw_bulks {a b : Dev} (h : EvSame a b) : b.fw.bulks = a.fw.bulks := by have k := congrArg (fun x : Dev => x.fw.bulks) h; exact k
theorem EvSame.fw_commits {a b : Dev} (h : EvSame a b) : b.fw.commits = a.fw.commits := by have k := congrArg (fun x : Dev => x.fw.commits) h; exact k
theorem EvSame.fw_waits {a b : Dev} (h : EvSame a b) : b.fw.waits = a.fw.waits := by have k := congrArg (fun x : Dev => x.fw.waits) h; exact k
theorem EvSame.fw_discard {a b : Dev} (h : EvSame a b) : b.fw.discard = a.fw.discard := by have k := congrArg (fun x : Dev => x.fw.discard) h; exact k
theorem EvSame.fw_gainClamp {a b : Dev} (h : EvSame a b) : b.fw.gainClamp = a.fw.gainClamp := by have k := congrArg (fun x : Dev => x.fw.gainClamp) h; exact k
theorem EvSame.fw_stageOverrun {a b : Dev} (h : EvSame a b) : b.fw.stageOverrun = a.fw.stageOverrun := by have k := congrArg (fun x : Dev => x.fw.stageOverrun) h; exact k
theorem EvSame.fw_srUnbridged {a b : Dev} (h : EvSame a b) : b.fw.srUnbridged = a.fw.srUnbridged := by have k := congrArg (fun x : Dev => x.fw.srUnbridged) h; exact k
theorem EvSame.fw_resetPending {a b : Dev} (h : EvSame a b) : b.fw.resetPending = a.fw.resetPending := by have k := congrArg (fun x : Dev => x.fw.resetPending) h; exact k
theorem EvSame.fw_restart {a b : Dev} (h : EvSame a b) : b.fw.restart = a.fw.restart := by have k := congrArg (fun x : Dev => x.fw.restart) h; exact k
theorem EvSame.fw_restartTimes {a b : Dev} (h : EvSame a b) : b.fw.restartTimes = a.fw.restartTimes := by have k := congrArg (fun x : Dev => x.fw.restartTimes) h; exact k
theorem EvSame.fw_reported {a b : Dev} (h : EvSame a b) : b.fw.reported = a.fw.reported := by have k := congrArg (fun x : Dev => x.fw.reported) h; exact k
theorem EvSame.fw_recoveryBoot {a b : Dev} (h : EvSame a b) : b.fw.recoveryBoot = a.fw.recoveryBoot := by have k := congrArg (fun x : Dev => x.fw.recoveryBoot) h; exact k

@[simp] theorem addLog_aon (d : Dev) (a b c : Nat) (e : List Byte) : (addLog d a b c e).aon = d.aon := rfl
@[simp] theorem addLog_power (d : Dev) (a b c : Nat) (e : List Byte) : (addLog d a b c e).power = d.power := rfl
@[simp] theorem addLog_flash (d : Dev) (a b c : Nat) (e : List Byte) : (addLog d a b c e).flash = d.flash := rfl
@[simp] theorem addLog_hif (d : Dev) (a b c : Nat) (e : List Byte) : (addLog d a b c e).hif = d.hif := rfl
@[simp] theorem addLog_mbx (d : Dev) (a b c : Nat) (e : List Byte) : (addLog d a b c e).mbx = d.mbx := rfl
@[simp] theorem addLog_time (d : Dev) (a b c : Nat) (e : List Byte) : (addLog d a b c e).time = d.time := rfl
@[simp] theorem addLog_dom (d : Dev) (a b c : Nat) (e : List Byte) : (addLog d a b c e).dom = d.dom := rfl
@[simp] theorem addLog_scene (d : Dev) (a b c : Nat) (e : List Byte) : (addLog d a b c e).scene = d.scene := rfl
@[simp] theorem addLog_chain (d : Dev) (a b c : Nat) (e : List Byte) : (addLog d a b c e).chain = d.chain := rfl
@[simp] theorem addLog_mantle (d : Dev) (a b c : Nat) (e : List Byte) : (addLog d a b c e).mantle = d.mantle := rfl
@[simp] theorem addLog_seam (d : Dev) (a b c : Nat) (e : List Byte) : (addLog d a b c e).seam = d.seam := rfl
@[simp] theorem addLog_mics (d : Dev) (a b c : Nat) (e : List Byte) : (addLog d a b c e).mics = d.mics := rfl
@[simp] theorem addLog_cal (d : Dev) (a b c : Nat) (e : List Byte) : (addLog d a b c e).cal = d.cal := rfl
@[simp] theorem addLog_track (d : Dev) (a b c : Nat) (e : List Byte) : (addLog d a b c e).track = d.track := rfl
@[simp] theorem addLog_sense (d : Dev) (a b c : Nat) (e : List Byte) : (addLog d a b c e).sense = d.sense := rfl
@[simp] theorem addLog_selftest (d : Dev) (a b c : Nat) (e : List Byte) : (addLog d a b c e).selftest = d.selftest := rfl
@[simp] theorem addLog_ports (d : Dev) (a b c : Nat) (e : List Byte) : (addLog d a b c e).ports = d.ports := rfl
@[simp] theorem addLog_net (d : Dev) (a b c : Nat) (e : List Byte) : (addLog d a b c e).net = d.net := rfl
@[simp] theorem addLog_twin (d : Dev) (a b c : Nat) (e : List Byte) : (addLog d a b c e).twin = d.twin := rfl
@[simp] theorem addLog_render (d : Dev) (a b c : Nat) (e : List Byte) : (addLog d a b c e).render = d.render := rfl
@[simp] theorem addLog_tiles (d : Dev) (a b c : Nat) (e : List Byte) : (addLog d a b c e).tiles = d.tiles := rfl
@[simp] theorem addLog_dma (d : Dev) (a b c : Nat) (e : List Byte) : (addLog d a b c e).dma = d.dma := rfl
@[simp] theorem addLog_mtx (d : Dev) (a b c : Nat) (e : List Byte) : (addLog d a b c e).mtx = d.mtx := rfl
@[simp] theorem addLog_hostWrites (d : Dev) (a b c : Nat) (e : List Byte) : (addLog d a b c e).hostWrites = d.hostWrites := rfl
@[simp] theorem addLog_free (d : Dev) (a b c : Nat) (e : List Byte) : (addLog d a b c e).free = d.free := rfl
@[simp] theorem addLog_fw_mode (d : Dev) (a b c : Nat) (e : List Byte) : (addLog d a b c e).fw.mode = d.fw.mode := rfl
@[simp] theorem addLog_fw_prevMode (d : Dev) (a b c : Nat) (e : List Byte) : (addLog d a b c e).fw.prevMode = d.fw.prevMode := rfl
@[simp] theorem addLog_fw_changing (d : Dev) (a b c : Nat) (e : List Byte) : (addLog d a b c e).fw.changing = d.fw.changing := rfl
@[simp] theorem addLog_fw_modeDt (d : Dev) (a b c : Nat) (e : List Byte) : (addLog d a b c e).fw.modeDt = d.fw.modeDt := rfl
@[simp] theorem addLog_fw_sessions (d : Dev) (a b c : Nat) (e : List Byte) : (addLog d a b c e).fw.sessions = d.fw.sessions := rfl
@[simp] theorem addLog_fw_chains (d : Dev) (a b c : Nat) (e : List Byte) : (addLog d a b c e).fw.chains = d.fw.chains := rfl
@[simp] theorem addLog_fw_bulks (d : Dev) (a b c : Nat) (e : List Byte) : (addLog d a b c e).fw.bulks = d.fw.bulks := rfl
@[simp] theorem addLog_fw_commits (d : Dev) (a b c : Nat) (e : List Byte) : (addLog d a b c e).fw.commits = d.fw.commits := rfl
@[simp] theorem addLog_fw_waits (d : Dev) (a b c : Nat) (e : List Byte) : (addLog d a b c e).fw.waits = d.fw.waits := rfl
@[simp] theorem addLog_fw_discard (d : Dev) (a b c : Nat) (e : List Byte) : (addLog d a b c e).fw.discard = d.fw.discard := rfl
@[simp] theorem addLog_fw_gainClamp (d : Dev) (a b c : Nat) (e : List Byte) : (addLog d a b c e).fw.gainClamp = d.fw.gainClamp := rfl
@[simp] theorem addLog_fw_stageOverrun (d : Dev) (a b c : Nat) (e : List Byte) : (addLog d a b c e).fw.stageOverrun = d.fw.stageOverrun := rfl
@[simp] theorem addLog_fw_srUnbridged (d : Dev) (a b c : Nat) (e : List Byte) : (addLog d a b c e).fw.srUnbridged = d.fw.srUnbridged := rfl
@[simp] theorem addLog_fw_resetPending (d : Dev) (a b c : Nat) (e : List Byte) : (addLog d a b c e).fw.resetPending = d.fw.resetPending := rfl
@[simp] theorem addLog_fw_restart (d : Dev) (a b c : Nat) (e : List Byte) : (addLog d a b c e).fw.restart = d.fw.restart := rfl
@[simp] theorem addLog_fw_restartTimes (d : Dev) (a b c : Nat) (e : List Byte) : (addLog d a b c e).fw.restartTimes = d.fw.restartTimes := rfl
@[simp] theorem addLog_fw_reported (d : Dev) (a b c : Nat) (e : List Byte) : (addLog d a b c e).fw.reported = d.fw.reported := rfl
@[simp] theorem addLog_fw_recoveryBoot (d : Dev) (a b c : Nat) (e : List Byte) : (addLog d a b c e).fw.recoveryBoot = d.fw.recoveryBoot := rfl

@[simp] theorem event_aon (d : Dev) (n : Nat) (p : List Byte) : (event d n p).aon = d.aon := (event_same d n p).aon
@[simp] theorem event_power (d : Dev) (n : Nat) (p : List Byte) : (event d n p).power = d.power := (event_same d n p).power
@[simp] theorem event_flash (d : Dev) (n : Nat) (p : List Byte) : (event d n p).flash = d.flash := (event_same d n p).flash
@[simp] theorem event_hif (d : Dev) (n : Nat) (p : List Byte) : (event d n p).hif = d.hif := (event_same d n p).hif
@[simp] theorem event_mbx (d : Dev) (n : Nat) (p : List Byte) : (event d n p).mbx = d.mbx := (event_same d n p).mbx
@[simp] theorem event_time (d : Dev) (n : Nat) (p : List Byte) : (event d n p).time = d.time := (event_same d n p).time
@[simp] theorem event_dom (d : Dev) (n : Nat) (p : List Byte) : (event d n p).dom = d.dom := (event_same d n p).dom
@[simp] theorem event_scene (d : Dev) (n : Nat) (p : List Byte) : (event d n p).scene = d.scene := (event_same d n p).scene
@[simp] theorem event_chain (d : Dev) (n : Nat) (p : List Byte) : (event d n p).chain = d.chain := (event_same d n p).chain
@[simp] theorem event_mantle (d : Dev) (n : Nat) (p : List Byte) : (event d n p).mantle = d.mantle := (event_same d n p).mantle
@[simp] theorem event_seam (d : Dev) (n : Nat) (p : List Byte) : (event d n p).seam = d.seam := (event_same d n p).seam
@[simp] theorem event_mics (d : Dev) (n : Nat) (p : List Byte) : (event d n p).mics = d.mics := (event_same d n p).mics
@[simp] theorem event_cal (d : Dev) (n : Nat) (p : List Byte) : (event d n p).cal = d.cal := (event_same d n p).cal
@[simp] theorem event_track (d : Dev) (n : Nat) (p : List Byte) : (event d n p).track = d.track := (event_same d n p).track
@[simp] theorem event_sense (d : Dev) (n : Nat) (p : List Byte) : (event d n p).sense = d.sense := (event_same d n p).sense
@[simp] theorem event_selftest (d : Dev) (n : Nat) (p : List Byte) : (event d n p).selftest = d.selftest := (event_same d n p).selftest
@[simp] theorem event_ports (d : Dev) (n : Nat) (p : List Byte) : (event d n p).ports = d.ports := (event_same d n p).ports
@[simp] theorem event_net (d : Dev) (n : Nat) (p : List Byte) : (event d n p).net = d.net := (event_same d n p).net
@[simp] theorem event_twin (d : Dev) (n : Nat) (p : List Byte) : (event d n p).twin = d.twin := (event_same d n p).twin
@[simp] theorem event_render (d : Dev) (n : Nat) (p : List Byte) : (event d n p).render = d.render := (event_same d n p).render
@[simp] theorem event_tiles (d : Dev) (n : Nat) (p : List Byte) : (event d n p).tiles = d.tiles := (event_same d n p).tiles
@[simp] theorem event_dma (d : Dev) (n : Nat) (p : List Byte) : (event d n p).dma = d.dma := (event_same d n p).dma
@[simp] theorem event_mtx (d : Dev) (n : Nat) (p : List Byte) : (event d n p).mtx = d.mtx := (event_same d n p).mtx
@[simp] theorem event_hostWrites (d : Dev) (n : Nat) (p : List Byte) : (event d n p).hostWrites = d.hostWrites := (event_same d n p).hostWrites
@[simp] theorem event_free (d : Dev) (n : Nat) (p : List Byte) : (event d n p).free = d.free := (event_same d n p).free
@[simp] theorem event_fw_mode (d : Dev) (n : Nat) (p : List Byte) : (event d n p).fw.mode = d.fw.mode := (event_same d n p).fw_mode
@[simp] theorem event_fw_prevMode (d : Dev) (n : Nat) (p : List Byte) : (event d n p).fw.prevMode = d.fw.prevMode := (event_same d n p).fw_prevMode
@[simp] theorem event_fw_changing (d : Dev) (n : Nat) (p : List Byte) : (event d n p).fw.changing = d.fw.changing := (event_same d n p).fw_changing
@[simp] theorem event_fw_modeDt (d : Dev) (n : Nat) (p : List Byte) : (event d n p).fw.modeDt = d.fw.modeDt := (event_same d n p).fw_modeDt
@[simp] theorem event_fw_sessions (d : Dev) (n : Nat) (p : List Byte) : (event d n p).fw.sessions = d.fw.sessions := (event_same d n p).fw_sessions
@[simp] theorem event_fw_chains (d : Dev) (n : Nat) (p : List Byte) : (event d n p).fw.chains = d.fw.chains := (event_same d n p).fw_chains
@[simp] theorem event_fw_bulks (d : Dev) (n : Nat) (p : List Byte) : (event d n p).fw.bulks = d.fw.bulks := (event_same d n p).fw_bulks
@[simp] theorem event_fw_commits (d : Dev) (n : Nat) (p : List Byte) : (event d n p).fw.commits = d.fw.commits := (event_same d n p).fw_commits
@[simp] theorem event_fw_waits (d : Dev) (n : Nat) (p : List Byte) : (event d n p).fw.waits = d.fw.waits := (event_same d n p).fw_waits
@[simp] theorem event_fw_discard (d : Dev) (n : Nat) (p : List Byte) : (event d n p).fw.discard = d.fw.discard := (event_same d n p).fw_discard
@[simp] theorem event_fw_gainClamp (d : Dev) (n : Nat) (p : List Byte) : (event d n p).fw.gainClamp = d.fw.gainClamp := (event_same d n p).fw_gainClamp
@[simp] theorem event_fw_stageOverrun (d : Dev) (n : Nat) (p : List Byte) : (event d n p).fw.stageOverrun = d.fw.stageOverrun := (event_same d n p).fw_stageOverrun
@[simp] theorem event_fw_srUnbridged (d : Dev) (n : Nat) (p : List Byte) : (event d n p).fw.srUnbridged = d.fw.srUnbridged := (event_same d n p).fw_srUnbridged
@[simp] theorem event_fw_resetPending (d : Dev) (n : Nat) (p : List Byte) : (event d n p).fw.resetPending = d.fw.resetPending := (event_same d n p).fw_resetPending
@[simp] theorem event_fw_restart (d : Dev) (n : Nat) (p : List Byte) : (event d n p).fw.restart = d.fw.restart := (event_same d n p).fw_restart
@[simp] theorem event_fw_restartTimes (d : Dev) (n : Nat) (p : List Byte) : (event d n p).fw.restartTimes = d.fw.restartTimes := (event_same d n p).fw_restartTimes
@[simp] theorem event_fw_reported (d : Dev) (n : Nat) (p : List Byte) : (event d n p).fw.reported = d.fw.reported := (event_same d n p).fw_reported
@[simp] theorem event_fw_recoveryBoot (d : Dev) (n : Nat) (p : List Byte) : (event d n p).fw.recoveryBoot = d.fw.recoveryBoot := (event_same d n p).fw_recoveryBoot

@[simp] theorem evFault_aon (d : Dev) (a b c e : Nat) (m : MT) (x y z : Nat) : (evFault d a b c e m x y z).aon = d.aon := (evFault_same d a b c e m x y z).aon
@[simp] theorem evFault_power (d : Dev) (a b c e : Nat) (m : MT) (x y z : Nat) : (evFault d a b c e m x y z).power = d.power := (evFault_same d a b c e m x y z).power
@[simp] theorem evFault_flash (d : Dev) (a b c e : Nat) (m : MT) (x y z : Nat) : (evFault d a b c e m x y z).flash = d.flash := (evFault_same d a b c e m x y z).flash
@[simp] theorem evFault_hif (d : Dev) (a b c e : Nat) (m : MT) (x y z : Nat) : (evFault d a b c e m x y z).hif = d.hif := (evFault_same d a b c e m x y z).hif
@[simp] theorem evFault_mbx (d : Dev) (a b c e : Nat) (m : MT) (x y z : Nat) : (evFault d a b c e m x y z).mbx = d.mbx := (evFault_same d a b c e m x y z).mbx
@[simp] theorem evFault_time (d : Dev) (a b c e : Nat) (m : MT) (x y z : Nat) : (evFault d a b c e m x y z).time = d.time := (evFault_same d a b c e m x y z).time
@[simp] theorem evFault_dom (d : Dev) (a b c e : Nat) (m : MT) (x y z : Nat) : (evFault d a b c e m x y z).dom = d.dom := (evFault_same d a b c e m x y z).dom
@[simp] theorem evFault_scene (d : Dev) (a b c e : Nat) (m : MT) (x y z : Nat) : (evFault d a b c e m x y z).scene = d.scene := (evFault_same d a b c e m x y z).scene
@[simp] theorem evFault_chain (d : Dev) (a b c e : Nat) (m : MT) (x y z : Nat) : (evFault d a b c e m x y z).chain = d.chain := (evFault_same d a b c e m x y z).chain
@[simp] theorem evFault_mantle (d : Dev) (a b c e : Nat) (m : MT) (x y z : Nat) : (evFault d a b c e m x y z).mantle = d.mantle := (evFault_same d a b c e m x y z).mantle
@[simp] theorem evFault_seam (d : Dev) (a b c e : Nat) (m : MT) (x y z : Nat) : (evFault d a b c e m x y z).seam = d.seam := (evFault_same d a b c e m x y z).seam
@[simp] theorem evFault_mics (d : Dev) (a b c e : Nat) (m : MT) (x y z : Nat) : (evFault d a b c e m x y z).mics = d.mics := (evFault_same d a b c e m x y z).mics
@[simp] theorem evFault_cal (d : Dev) (a b c e : Nat) (m : MT) (x y z : Nat) : (evFault d a b c e m x y z).cal = d.cal := (evFault_same d a b c e m x y z).cal
@[simp] theorem evFault_track (d : Dev) (a b c e : Nat) (m : MT) (x y z : Nat) : (evFault d a b c e m x y z).track = d.track := (evFault_same d a b c e m x y z).track
@[simp] theorem evFault_sense (d : Dev) (a b c e : Nat) (m : MT) (x y z : Nat) : (evFault d a b c e m x y z).sense = d.sense := (evFault_same d a b c e m x y z).sense
@[simp] theorem evFault_selftest (d : Dev) (a b c e : Nat) (m : MT) (x y z : Nat) : (evFault d a b c e m x y z).selftest = d.selftest := (evFault_same d a b c e m x y z).selftest
@[simp] theorem evFault_ports (d : Dev) (a b c e : Nat) (m : MT) (x y z : Nat) : (evFault d a b c e m x y z).ports = d.ports := (evFault_same d a b c e m x y z).ports
@[simp] theorem evFault_net (d : Dev) (a b c e : Nat) (m : MT) (x y z : Nat) : (evFault d a b c e m x y z).net = d.net := (evFault_same d a b c e m x y z).net
@[simp] theorem evFault_twin (d : Dev) (a b c e : Nat) (m : MT) (x y z : Nat) : (evFault d a b c e m x y z).twin = d.twin := (evFault_same d a b c e m x y z).twin
@[simp] theorem evFault_render (d : Dev) (a b c e : Nat) (m : MT) (x y z : Nat) : (evFault d a b c e m x y z).render = d.render := (evFault_same d a b c e m x y z).render
@[simp] theorem evFault_tiles (d : Dev) (a b c e : Nat) (m : MT) (x y z : Nat) : (evFault d a b c e m x y z).tiles = d.tiles := (evFault_same d a b c e m x y z).tiles
@[simp] theorem evFault_dma (d : Dev) (a b c e : Nat) (m : MT) (x y z : Nat) : (evFault d a b c e m x y z).dma = d.dma := (evFault_same d a b c e m x y z).dma
@[simp] theorem evFault_mtx (d : Dev) (a b c e : Nat) (m : MT) (x y z : Nat) : (evFault d a b c e m x y z).mtx = d.mtx := (evFault_same d a b c e m x y z).mtx
@[simp] theorem evFault_hostWrites (d : Dev) (a b c e : Nat) (m : MT) (x y z : Nat) : (evFault d a b c e m x y z).hostWrites = d.hostWrites := (evFault_same d a b c e m x y z).hostWrites
@[simp] theorem evFault_free (d : Dev) (a b c e : Nat) (m : MT) (x y z : Nat) : (evFault d a b c e m x y z).free = d.free := (evFault_same d a b c e m x y z).free
@[simp] theorem evFault_fw_mode (d : Dev) (a b c e : Nat) (m : MT) (x y z : Nat) : (evFault d a b c e m x y z).fw.mode = d.fw.mode := (evFault_same d a b c e m x y z).fw_mode
@[simp] theorem evFault_fw_prevMode (d : Dev) (a b c e : Nat) (m : MT) (x y z : Nat) : (evFault d a b c e m x y z).fw.prevMode = d.fw.prevMode := (evFault_same d a b c e m x y z).fw_prevMode
@[simp] theorem evFault_fw_changing (d : Dev) (a b c e : Nat) (m : MT) (x y z : Nat) : (evFault d a b c e m x y z).fw.changing = d.fw.changing := (evFault_same d a b c e m x y z).fw_changing
@[simp] theorem evFault_fw_modeDt (d : Dev) (a b c e : Nat) (m : MT) (x y z : Nat) : (evFault d a b c e m x y z).fw.modeDt = d.fw.modeDt := (evFault_same d a b c e m x y z).fw_modeDt
@[simp] theorem evFault_fw_sessions (d : Dev) (a b c e : Nat) (m : MT) (x y z : Nat) : (evFault d a b c e m x y z).fw.sessions = d.fw.sessions := (evFault_same d a b c e m x y z).fw_sessions
@[simp] theorem evFault_fw_chains (d : Dev) (a b c e : Nat) (m : MT) (x y z : Nat) : (evFault d a b c e m x y z).fw.chains = d.fw.chains := (evFault_same d a b c e m x y z).fw_chains
@[simp] theorem evFault_fw_bulks (d : Dev) (a b c e : Nat) (m : MT) (x y z : Nat) : (evFault d a b c e m x y z).fw.bulks = d.fw.bulks := (evFault_same d a b c e m x y z).fw_bulks
@[simp] theorem evFault_fw_commits (d : Dev) (a b c e : Nat) (m : MT) (x y z : Nat) : (evFault d a b c e m x y z).fw.commits = d.fw.commits := (evFault_same d a b c e m x y z).fw_commits
@[simp] theorem evFault_fw_waits (d : Dev) (a b c e : Nat) (m : MT) (x y z : Nat) : (evFault d a b c e m x y z).fw.waits = d.fw.waits := (evFault_same d a b c e m x y z).fw_waits
@[simp] theorem evFault_fw_discard (d : Dev) (a b c e : Nat) (m : MT) (x y z : Nat) : (evFault d a b c e m x y z).fw.discard = d.fw.discard := (evFault_same d a b c e m x y z).fw_discard
@[simp] theorem evFault_fw_gainClamp (d : Dev) (a b c e : Nat) (m : MT) (x y z : Nat) : (evFault d a b c e m x y z).fw.gainClamp = d.fw.gainClamp := (evFault_same d a b c e m x y z).fw_gainClamp
@[simp] theorem evFault_fw_stageOverrun (d : Dev) (a b c e : Nat) (m : MT) (x y z : Nat) : (evFault d a b c e m x y z).fw.stageOverrun = d.fw.stageOverrun := (evFault_same d a b c e m x y z).fw_stageOverrun
@[simp] theorem evFault_fw_srUnbridged (d : Dev) (a b c e : Nat) (m : MT) (x y z : Nat) : (evFault d a b c e m x y z).fw.srUnbridged = d.fw.srUnbridged := (evFault_same d a b c e m x y z).fw_srUnbridged
@[simp] theorem evFault_fw_resetPending (d : Dev) (a b c e : Nat) (m : MT) (x y z : Nat) : (evFault d a b c e m x y z).fw.resetPending = d.fw.resetPending := (evFault_same d a b c e m x y z).fw_resetPending
@[simp] theorem evFault_fw_restart (d : Dev) (a b c e : Nat) (m : MT) (x y z : Nat) : (evFault d a b c e m x y z).fw.restart = d.fw.restart := (evFault_same d a b c e m x y z).fw_restart
@[simp] theorem evFault_fw_restartTimes (d : Dev) (a b c e : Nat) (m : MT) (x y z : Nat) : (evFault d a b c e m x y z).fw.restartTimes = d.fw.restartTimes := (evFault_same d a b c e m x y z).fw_restartTimes
@[simp] theorem evFault_fw_reported (d : Dev) (a b c e : Nat) (m : MT) (x y z : Nat) : (evFault d a b c e m x y z).fw.reported = d.fw.reported := (evFault_same d a b c e m x y z).fw_reported
@[simp] theorem evFault_fw_recoveryBoot (d : Dev) (a b c e : Nat) (m : MT) (x y z : Nat) : (evFault d a b c e m x y z).fw.recoveryBoot = d.fw.recoveryBoot := (evFault_same d a b c e m x y z).fw_recoveryBoot

@[simp] theorem evPortClock_aon (d : Dev) (a b c e g : Nat) (m : MT) (t : DT) : (evPortClock d a b c e g m t).aon = d.aon := (evPortClock_same d a b c e g m t).aon
@[simp] theorem evPortClock_power (d : Dev) (a b c e g : Nat) (m : MT) (t : DT) : (evPortClock d a b c e g m t).power = d.power := (evPortClock_same d a b c e g m t).power
@[simp] theorem evPortClock_flash (d : Dev) (a b c e g : Nat) (m : MT) (t : DT) : (evPortClock d a b c e g m t).flash = d.flash := (evPortClock_same d a b c e g m t).flash
@[simp] theorem evPortClock_hif (d : Dev) (a b c e g : Nat) (m : MT) (t : DT) : (evPortClock d a b c e g m t).hif = d.hif := (evPortClock_same d a b c e g m t).hif
@[simp] theorem evPortClock_mbx (d : Dev) (a b c e g : Nat) (m : MT) (t : DT) : (evPortClock d a b c e g m t).mbx = d.mbx := (evPortClock_same d a b c e g m t).mbx
@[simp] theorem evPortClock_time (d : Dev) (a b c e g : Nat) (m : MT) (t : DT) : (evPortClock d a b c e g m t).time = d.time := (evPortClock_same d a b c e g m t).time
@[simp] theorem evPortClock_dom (d : Dev) (a b c e g : Nat) (m : MT) (t : DT) : (evPortClock d a b c e g m t).dom = d.dom := (evPortClock_same d a b c e g m t).dom
@[simp] theorem evPortClock_scene (d : Dev) (a b c e g : Nat) (m : MT) (t : DT) : (evPortClock d a b c e g m t).scene = d.scene := (evPortClock_same d a b c e g m t).scene
@[simp] theorem evPortClock_chain (d : Dev) (a b c e g : Nat) (m : MT) (t : DT) : (evPortClock d a b c e g m t).chain = d.chain := (evPortClock_same d a b c e g m t).chain
@[simp] theorem evPortClock_mantle (d : Dev) (a b c e g : Nat) (m : MT) (t : DT) : (evPortClock d a b c e g m t).mantle = d.mantle := (evPortClock_same d a b c e g m t).mantle
@[simp] theorem evPortClock_seam (d : Dev) (a b c e g : Nat) (m : MT) (t : DT) : (evPortClock d a b c e g m t).seam = d.seam := (evPortClock_same d a b c e g m t).seam
@[simp] theorem evPortClock_mics (d : Dev) (a b c e g : Nat) (m : MT) (t : DT) : (evPortClock d a b c e g m t).mics = d.mics := (evPortClock_same d a b c e g m t).mics
@[simp] theorem evPortClock_cal (d : Dev) (a b c e g : Nat) (m : MT) (t : DT) : (evPortClock d a b c e g m t).cal = d.cal := (evPortClock_same d a b c e g m t).cal
@[simp] theorem evPortClock_track (d : Dev) (a b c e g : Nat) (m : MT) (t : DT) : (evPortClock d a b c e g m t).track = d.track := (evPortClock_same d a b c e g m t).track
@[simp] theorem evPortClock_sense (d : Dev) (a b c e g : Nat) (m : MT) (t : DT) : (evPortClock d a b c e g m t).sense = d.sense := (evPortClock_same d a b c e g m t).sense
@[simp] theorem evPortClock_selftest (d : Dev) (a b c e g : Nat) (m : MT) (t : DT) : (evPortClock d a b c e g m t).selftest = d.selftest := (evPortClock_same d a b c e g m t).selftest
@[simp] theorem evPortClock_ports (d : Dev) (a b c e g : Nat) (m : MT) (t : DT) : (evPortClock d a b c e g m t).ports = d.ports := (evPortClock_same d a b c e g m t).ports
@[simp] theorem evPortClock_net (d : Dev) (a b c e g : Nat) (m : MT) (t : DT) : (evPortClock d a b c e g m t).net = d.net := (evPortClock_same d a b c e g m t).net
@[simp] theorem evPortClock_twin (d : Dev) (a b c e g : Nat) (m : MT) (t : DT) : (evPortClock d a b c e g m t).twin = d.twin := (evPortClock_same d a b c e g m t).twin
@[simp] theorem evPortClock_render (d : Dev) (a b c e g : Nat) (m : MT) (t : DT) : (evPortClock d a b c e g m t).render = d.render := (evPortClock_same d a b c e g m t).render
@[simp] theorem evPortClock_tiles (d : Dev) (a b c e g : Nat) (m : MT) (t : DT) : (evPortClock d a b c e g m t).tiles = d.tiles := (evPortClock_same d a b c e g m t).tiles
@[simp] theorem evPortClock_dma (d : Dev) (a b c e g : Nat) (m : MT) (t : DT) : (evPortClock d a b c e g m t).dma = d.dma := (evPortClock_same d a b c e g m t).dma
@[simp] theorem evPortClock_mtx (d : Dev) (a b c e g : Nat) (m : MT) (t : DT) : (evPortClock d a b c e g m t).mtx = d.mtx := (evPortClock_same d a b c e g m t).mtx
@[simp] theorem evPortClock_hostWrites (d : Dev) (a b c e g : Nat) (m : MT) (t : DT) : (evPortClock d a b c e g m t).hostWrites = d.hostWrites := (evPortClock_same d a b c e g m t).hostWrites
@[simp] theorem evPortClock_free (d : Dev) (a b c e g : Nat) (m : MT) (t : DT) : (evPortClock d a b c e g m t).free = d.free := (evPortClock_same d a b c e g m t).free
@[simp] theorem evPortClock_fw_mode (d : Dev) (a b c e g : Nat) (m : MT) (t : DT) : (evPortClock d a b c e g m t).fw.mode = d.fw.mode := (evPortClock_same d a b c e g m t).fw_mode
@[simp] theorem evPortClock_fw_prevMode (d : Dev) (a b c e g : Nat) (m : MT) (t : DT) : (evPortClock d a b c e g m t).fw.prevMode = d.fw.prevMode := (evPortClock_same d a b c e g m t).fw_prevMode
@[simp] theorem evPortClock_fw_changing (d : Dev) (a b c e g : Nat) (m : MT) (t : DT) : (evPortClock d a b c e g m t).fw.changing = d.fw.changing := (evPortClock_same d a b c e g m t).fw_changing
@[simp] theorem evPortClock_fw_modeDt (d : Dev) (a b c e g : Nat) (m : MT) (t : DT) : (evPortClock d a b c e g m t).fw.modeDt = d.fw.modeDt := (evPortClock_same d a b c e g m t).fw_modeDt
@[simp] theorem evPortClock_fw_sessions (d : Dev) (a b c e g : Nat) (m : MT) (t : DT) : (evPortClock d a b c e g m t).fw.sessions = d.fw.sessions := (evPortClock_same d a b c e g m t).fw_sessions
@[simp] theorem evPortClock_fw_chains (d : Dev) (a b c e g : Nat) (m : MT) (t : DT) : (evPortClock d a b c e g m t).fw.chains = d.fw.chains := (evPortClock_same d a b c e g m t).fw_chains
@[simp] theorem evPortClock_fw_bulks (d : Dev) (a b c e g : Nat) (m : MT) (t : DT) : (evPortClock d a b c e g m t).fw.bulks = d.fw.bulks := (evPortClock_same d a b c e g m t).fw_bulks
@[simp] theorem evPortClock_fw_commits (d : Dev) (a b c e g : Nat) (m : MT) (t : DT) : (evPortClock d a b c e g m t).fw.commits = d.fw.commits := (evPortClock_same d a b c e g m t).fw_commits
@[simp] theorem evPortClock_fw_waits (d : Dev) (a b c e g : Nat) (m : MT) (t : DT) : (evPortClock d a b c e g m t).fw.waits = d.fw.waits := (evPortClock_same d a b c e g m t).fw_waits
@[simp] theorem evPortClock_fw_discard (d : Dev) (a b c e g : Nat) (m : MT) (t : DT) : (evPortClock d a b c e g m t).fw.discard = d.fw.discard := (evPortClock_same d a b c e g m t).fw_discard
@[simp] theorem evPortClock_fw_gainClamp (d : Dev) (a b c e g : Nat) (m : MT) (t : DT) : (evPortClock d a b c e g m t).fw.gainClamp = d.fw.gainClamp := (evPortClock_same d a b c e g m t).fw_gainClamp
@[simp] theorem evPortClock_fw_stageOverrun (d : Dev) (a b c e g : Nat) (m : MT) (t : DT) : (evPortClock d a b c e g m t).fw.stageOverrun = d.fw.stageOverrun := (evPortClock_same d a b c e g m t).fw_stageOverrun
@[simp] theorem evPortClock_fw_srUnbridged (d : Dev) (a b c e g : Nat) (m : MT) (t : DT) : (evPortClock d a b c e g m t).fw.srUnbridged = d.fw.srUnbridged := (evPortClock_same d a b c e g m t).fw_srUnbridged
@[simp] theorem evPortClock_fw_resetPending (d : Dev) (a b c e g : Nat) (m : MT) (t : DT) : (evPortClock d a b c e g m t).fw.resetPending = d.fw.resetPending := (evPortClock_same d a b c e g m t).fw_resetPending
@[simp] theorem evPortClock_fw_restart (d : Dev) (a b c e g : Nat) (m : MT) (t : DT) : (evPortClock d a b c e g m t).fw.restart = d.fw.restart := (evPortClock_same d a b c e g m t).fw_restart
@[simp] theorem evPortClock_fw_restartTimes (d : Dev) (a b c e g : Nat) (m : MT) (t : DT) : (evPortClock d a b c e g m t).fw.restartTimes = d.fw.restartTimes := (evPortClock_same d a b c e g m t).fw_restartTimes
@[simp] theorem evPortClock_fw_reported (d : Dev) (a b c e g : Nat) (m : MT) (t : DT) : (evPortClock d a b c e g m t).fw.reported = d.fw.reported := (evPortClock_same d a b c e g m t).fw_reported
@[simp] theorem evPortClock_fw_recoveryBoot (d : Dev) (a b c e g : Nat) (m : MT) (t : DT) : (evPortClock d a b c e g m t).fw.recoveryBoot = d.fw.recoveryBoot := (evPortClock_same d a b c e g m t).fw_recoveryBoot

theorem SetSame.aon {a b : Dev} (h : SetSame a b) : b.aon = a.aon := by have k := congrArg (fun x : Dev => x.aon) h; exact k
theorem SetSame.power {a b : Dev} (h : SetSame a b) : b.power = a.power := by have k := congrArg (fun x : Dev => x.power) h; exact k
theorem SetSame.flash {a b : Dev} (h : SetSame a b) : b.flash = a.flash := by have k := congrArg (fun x : Dev => x.flash) h; exact k
theorem SetSame.mbx {a b : Dev} (h : SetSame a b) : b.mbx = a.mbx := by have k := congrArg (fun x : Dev => x.mbx) h; exact k
theorem SetSame.time {a b : Dev} (h : SetSame a b) : b.time = a.time := by have k := congrArg (fun x : Dev => x.time) h; exact k
theorem SetSame.dom {a b : Dev} (h : SetSame a b) : b.dom = a.dom := by have k := congrArg (fun x : Dev => x.dom) h; exact k
theorem SetSame.scene {a b : Dev} (h : SetSame a b) : b.scene = a.scene := by have k := congrArg (fun x : Dev => x.scene) h; exact k
theorem SetSame.chain {a b : Dev} (h : SetSame a b) : b.chain = a.chain := by have k := congrArg (fun x : Dev => x.chain) h; exact k
theorem SetSame.mantle {a b : Dev} (h : SetSame a b) : b.mantle = a.mantle := by have k := congrArg (fun x : Dev => x.mantle) h; exact k
theorem SetSame.seam {a b : Dev} (h : SetSame a b) : b.seam = a.seam := by have k := congrArg (fun x : Dev => x.seam) h; exact k
theorem SetSame.mics {a b : Dev} (h : SetSame a b) : b.mics = a.mics := by have k := congrArg (fun x : Dev => x.mics) h; exact k
theorem SetSame.cal {a b : Dev} (h : SetSame a b) : b.cal = a.cal := by have k := congrArg (fun x : Dev => x.cal) h; exact k
theorem SetSame.track {a b : Dev} (h : SetSame a b) : b.track = a.track := by have k := congrArg (fun x : Dev => x.track) h; exact k
theorem SetSame.sense {a b : Dev} (h : SetSame a b) : b.sense = a.sense := by have k := congrArg (fun x : Dev => x.sense) h; exact k
theorem SetSame.selftest {a b : Dev} (h : SetSame a b) : b.selftest = a.selftest := by have k := congrArg (fun x : Dev => x.selftest) h; exact k
theorem SetSame.ports {a b : Dev} (h : SetSame a b) : b.ports = a.ports := by have k := congrArg (fun x : Dev => x.ports) h; exact k
theorem SetSame.net {a b : Dev} (h : SetSame a b) : b.net = a.net := by have k := congrArg (fun x : Dev => x.net) h; exact k
theorem SetSame.render {a b : Dev} (h : SetSame a b) : b.render = a.render := by have k := congrArg (fun x : Dev => x.render) h; exact k
theorem SetSame.dma {a b : Dev} (h : SetSame a b) : b.dma = a.dma := by have k := congrArg (fun x : Dev => x.dma) h; exact k
theorem SetSame.hostWrites {a b : Dev} (h : SetSame a b) : b.hostWrites = a.hostWrites := by have k := congrArg (fun x : Dev => x.hostWrites) h; exact k
theorem SetSame.free {a b : Dev} (h : SetSame a b) : b.free = a.free := by have k := congrArg (fun x : Dev => x.free) h; exact k
theorem SetSame.fw_mode {a b : Dev} (h : SetSame a b) : b.fw.mode = a.fw.mode := by have k := congrArg (fun x : Dev => x.fw.mode) h; exact k
theorem SetSame.fw_prevMode {a b : Dev} (h : SetSame a b) : b.fw.prevMode = a.fw.prevMode := by have k := congrArg (fun x : Dev => x.fw.prevMode) h; exact k
theorem SetSame.fw_changing {a b : Dev} (h : SetSame a b) : b.fw.changing = a.fw.changing := by have k := congrArg (fun x : Dev => x.fw.changing) h; exact k
theorem SetSame.fw_modeDt {a b : Dev} (h : SetSame a b) : b.fw.modeDt = a.fw.modeDt := by have k := congrArg (fun x : Dev => x.fw.modeDt) h; exact k
theorem SetSame.fw_sessions {a b : Dev} (h : SetSame a b) : b.fw.sessions = a.fw.sessions := by have k := congrArg (fun x : Dev => x.fw.sessions) h; exact k
theorem SetSame.fw_chains {a b : Dev} (h : SetSame a b) : b.fw.chains = a.fw.chains := by have k := congrArg (fun x : Dev => x.fw.chains) h; exact k
theorem SetSame.fw_bulks {a b : Dev} (h : SetSame a b) : b.fw.bulks = a.fw.bulks := by have k := congrArg (fun x : Dev => x.fw.bulks) h; exact k
theorem SetSame.fw_commits {a b : Dev} (h : SetSame a b) : b.fw.commits = a.fw.commits := by have k := congrArg (fun x : Dev => x.fw.commits) h; exact k
theorem SetSame.fw_waits {a b : Dev} (h : SetSame a b) : b.fw.waits = a.fw.waits := by have k := congrArg (fun x : Dev => x.fw.waits) h; exact k
theorem SetSame.fw_discard {a b : Dev} (h : SetSame a b) : b.fw.discard = a.fw.discard := by have k := congrArg (fun x : Dev => x.fw.discard) h; exact k
theorem SetSame.fw_gainClamp {a b : Dev} (h : SetSame a b) : b.fw.gainClamp = a.fw.gainClamp := by have k := congrArg (fun x : Dev => x.fw.gainClamp) h; exact k
theorem SetSame.fw_stageOverrun {a b : Dev} (h : SetSame a b) : b.fw.stageOverrun = a.fw.stageOverrun := by have k := congrArg (fun x : Dev => x.fw.stageOverrun) h; exact k
theorem SetSame.fw_srUnbridged {a b : Dev} (h : SetSame a b) : b.fw.srUnbridged = a.fw.srUnbridged := by have k := congrArg (fun x : Dev => x.fw.srUnbridged) h; exact k
theorem SetSame.fw_resetPending {a b : Dev} (h : SetSame a b) : b.fw.resetPending = a.fw.resetPending := by have k := congrArg (fun x : Dev => x.fw.resetPending) h; exact k
theorem SetSame.fw_restart {a b : Dev} (h : SetSame a b) : b.fw.restart = a.fw.restart := by have k := congrArg (fun x : Dev => x.fw.restart) h; exact k
theorem SetSame.fw_restartTimes {a b : Dev} (h : SetSame a b) : b.fw.restartTimes = a.fw.restartTimes := by have k := congrArg (fun x : Dev => x.fw.restartTimes) h; exact k
theorem SetSame.fw_reported {a b : Dev} (h : SetSame a b) : b.fw.reported = a.fw.reported := by have k := congrArg (fun x : Dev => x.fw.reported) h; exact k
theorem SetSame.fw_recoveryBoot {a b : Dev} (h : SetSame a b) : b.fw.recoveryBoot = a.fw.recoveryBoot := by have k := congrArg (fun x : Dev => x.fw.recoveryBoot) h; exact k
theorem SetSame.hif_ctrlUp {a b : Dev} (h : SetSame a b) : b.hif.ctrlUp = a.hif.ctrlUp := by have k := congrArg (fun x : Dev => x.hif.ctrlUp) h; exact k
theorem SetSame.hif_restarting {a b : Dev} (h : SetSame a b) : b.hif.restarting = a.hif.restarting := by have k := congrArg (fun x : Dev => x.hif.restarting) h; exact k
theorem SetSame.hif_fwSlot {a b : Dev} (h : SetSame a b) : b.hif.fwSlot = a.hif.fwSlot := by have k := congrArg (fun x : Dev => x.hif.fwSlot) h; exact k
theorem SetSame.hif_hostBoot {a b : Dev} (h : SetSame a b) : b.hif.hostBoot = a.hif.hostBoot := by have k := congrArg (fun x : Dev => x.hif.hostBoot) h; exact k
theorem SetSame.hif_irqMode {a b : Dev} (h : SetSame a b) : b.hif.irqMode = a.hif.irqMode := by have k := congrArg (fun x : Dev => x.hif.irqMode) h; exact k
theorem SetSame.hif_irqEn {a b : Dev} (h : SetSame a b) : b.hif.irqEn = a.hif.irqEn := by have k := congrArg (fun x : Dev => x.hif.irqEn) h; exact k
theorem SetSame.hif_spiIrqEn {a b : Dev} (h : SetSame a b) : b.hif.spiIrqEn = a.hif.spiIrqEn := by have k := congrArg (fun x : Dev => x.hif.spiIrqEn) h; exact k
theorem SetSame.hif_fault {a b : Dev} (h : SetSame a b) : b.hif.fault = a.hif.fault := by have k := congrArg (fun x : Dev => x.hif.fault) h; exact k
theorem SetSame.hif_accessErr {a b : Dev} (h : SetSame a b) : b.hif.accessErr = a.hif.accessErr := by have k := congrArg (fun x : Dev => x.hif.accessErr) h; exact k
theorem SetSame.hif_mbxLost {a b : Dev} (h : SetSame a b) : b.hif.mbxLost = a.hif.mbxLost := by have k := congrArg (fun x : Dev => x.hif.mbxLost) h; exact k
theorem SetSame.hif_ctrlRestarts {a b : Dev} (h : SetSame a b) : b.hif.ctrlRestarts = a.hif.ctrlRestarts := by have k := congrArg (fun x : Dev => x.hif.ctrlRestarts) h; exact k
theorem SetSame.hif_deviceEpoch {a b : Dev} (h : SetSame a b) : b.hif.deviceEpoch = a.hif.deviceEpoch := by have k := congrArg (fun x : Dev => x.hif.deviceEpoch) h; exact k
theorem SetSame.hif_msixMask {a b : Dev} (h : SetSame a b) : b.hif.msixMask = a.hif.msixMask := by have k := congrArg (fun x : Dev => x.hif.msixMask) h; exact k
theorem SetSame.hif_msixTable {a b : Dev} (h : SetSame a b) : b.hif.msixTable = a.hif.msixTable := by have k := congrArg (fun x : Dev => x.hif.msixTable) h; exact k
theorem SetSame.hif_dblH2D {a b : Dev} (h : SetSame a b) : b.hif.dblH2D = a.hif.dblH2D := by have k := congrArg (fun x : Dev => x.hif.dblH2D) h; exact k
theorem SetSame.hif_dblD2H {a b : Dev} (h : SetSame a b) : b.hif.dblD2H = a.hif.dblD2H := by have k := congrArg (fun x : Dev => x.hif.dblD2H) h; exact k
theorem SetSame.hif_dblD2HEn {a b : Dev} (h : SetSame a b) : b.hif.dblD2HEn = a.hif.dblD2HEn := by have k := congrArg (fun x : Dev => x.hif.dblD2HEn) h; exact k
theorem SetSame.hif_i2cLatch {a b : Dev} (h : SetSame a b) : b.hif.i2cLatch = a.hif.i2cLatch := by have k := congrArg (fun x : Dev => x.hif.i2cLatch) h; exact k
theorem SetSame.hif_readData {a b : Dev} (h : SetSame a b) : b.hif.readData = a.hif.readData := by have k := congrArg (fun x : Dev => x.hif.readData) h; exact k
theorem SetSame.mtx_park {a b : Dev} (h : SetSame a b) : b.mtx.park = a.mtx.park := by have k := congrArg (fun x : Dev => x.mtx.park) h; exact k
theorem SetSame.mtx_isolated {a b : Dev} (h : SetSame a b) : b.mtx.isolated = a.mtx.isolated := by have k := congrArg (fun x : Dev => x.mtx.isolated) h; exact k
theorem SetSame.mtx_last {a b : Dev} (h : SetSame a b) : b.mtx.last = a.mtx.last := by have k := congrArg (fun x : Dev => x.mtx.last) h; exact k
theorem SetSame.tiles_cores {a b : Dev} (h : SetSame a b) : b.tiles.cores = a.tiles.cores := by have k := congrArg (fun x : Dev => x.tiles.cores) h; exact k
theorem SetSame.tiles_mem {a b : Dev} (h : SetSame a b) : b.tiles.mem = a.tiles.mem := by have k := congrArg (fun x : Dev => x.tiles.mem) h; exact k
theorem SetSame.tiles_sched {a b : Dev} (h : SetSame a b) : b.tiles.sched = a.tiles.sched := by have k := congrArg (fun x : Dev => x.tiles.sched) h; exact k
theorem SetSame.twin_cfg {a b : Dev} (h : SetSame a b) : b.twin.cfg = a.twin.cfg := by have k := congrArg (fun x : Dev => x.twin.cfg) h; exact k
theorem SetSame.twin_state {a b : Dev} (h : SetSame a b) : b.twin.state = a.twin.state := by have k := congrArg (fun x : Dev => x.twin.state) h; exact k
theorem SetSame.twin_partner {a b : Dev} (h : SetSame a b) : b.twin.partner = a.twin.partner := by have k := congrArg (fun x : Dev => x.twin.partner) h; exact k
theorem SetSame.twin_partnerId {a b : Dev} (h : SetSame a b) : b.twin.partnerId = a.twin.partnerId := by have k := congrArg (fun x : Dev => x.twin.partnerId) h; exact k
theorem SetSame.twin_linkCtrl {a b : Dev} (h : SetSame a b) : b.twin.linkCtrl = a.twin.linkCtrl := by have k := congrArg (fun x : Dev => x.twin.linkCtrl) h; exact k
theorem SetSame.twin_lanes {a b : Dev} (h : SetSame a b) : b.twin.lanes = a.twin.lanes := by have k := congrArg (fun x : Dev => x.twin.lanes) h; exact k
theorem SetSame.twin_helloSent {a b : Dev} (h : SetSame a b) : b.twin.helloSent = a.twin.helloSent := by have k := congrArg (fun x : Dev => x.twin.helloSent) h; exact k
theorem SetSame.twin_hello {a b : Dev} (h : SetSame a b) : b.twin.hello = a.twin.hello := by have k := congrArg (fun x : Dev => x.twin.hello) h; exact k
theorem SetSame.twin_handshake {a b : Dev} (h : SetSame a b) : b.twin.handshake = a.twin.handshake := by have k := congrArg (fun x : Dev => x.twin.handshake) h; exact k
theorem SetSame.twin_major {a b : Dev} (h : SetSame a b) : b.twin.major = a.twin.major := by have k := congrArg (fun x : Dev => x.twin.major) h; exact k
theorem SetSame.twin_minor {a b : Dev} (h : SetSame a b) : b.twin.minor = a.twin.minor := by have k := congrArg (fun x : Dev => x.twin.minor) h; exact k
theorem SetSame.twin_refusal {a b : Dev} (h : SetSame a b) : b.twin.refusal = a.twin.refusal := by have k := congrArg (fun x : Dev => x.twin.refusal) h; exact k
theorem SetSame.twin_partnerRestarting {a b : Dev} (h : SetSame a b) : b.twin.partnerRestarting = a.twin.partnerRestarting := by have k := congrArg (fun x : Dev => x.twin.partnerRestarting) h; exact k
theorem SetSame.twin_rxSeq {a b : Dev} (h : SetSame a b) : b.twin.rxSeq = a.twin.rxSeq := by have k := congrArg (fun x : Dev => x.twin.rxSeq) h; exact k
theorem SetSame.twin_parts {a b : Dev} (h : SetSame a b) : b.twin.parts = a.twin.parts := by have k := congrArg (fun x : Dev => x.twin.parts) h; exact k
theorem SetSame.twin_nextTicket {a b : Dev} (h : SetSame a b) : b.twin.nextTicket = a.twin.nextTicket := by have k := congrArg (fun x : Dev => x.twin.nextTicket) h; exact k
theorem SetSame.twin_issued {a b : Dev} (h : SetSame a b) : b.twin.issued = a.twin.issued := by have k := congrArg (fun x : Dev => x.twin.issued) h; exact k
theorem SetSame.twin_working {a b : Dev} (h : SetSame a b) : b.twin.working = a.twin.working := by have k := congrArg (fun x : Dev => x.twin.working) h; exact k
theorem SetSame.twin_tickets {a b : Dev} (h : SetSame a b) : b.twin.tickets = a.twin.tickets := by have k := congrArg (fun x : Dev => x.twin.tickets) h; exact k
theorem SetSame.twin_applied {a b : Dev} (h : SetSame a b) : b.twin.applied = a.twin.applied := by have k := congrArg (fun x : Dev => x.twin.applied) h; exact k
theorem SetSame.twin_markers {a b : Dev} (h : SetSame a b) : b.twin.markers = a.twin.markers := by have k := congrArg (fun x : Dev => x.twin.markers) h; exact k
theorem SetSame.twin_markerMiss {a b : Dev} (h : SetSame a b) : b.twin.markerMiss = a.twin.markerMiss := by have k := congrArg (fun x : Dev => x.twin.markerMiss) h; exact k
theorem SetSame.twin_hbMissed {a b : Dev} (h : SetSame a b) : b.twin.hbMissed = a.twin.hbMissed := by have k := congrArg (fun x : Dev => x.twin.hbMissed) h; exact k
theorem SetSame.twin_hbSeen {a b : Dev} (h : SetSame a b) : b.twin.hbSeen = a.twin.hbSeen := by have k := congrArg (fun x : Dev => x.twin.hbSeen) h; exact k
theorem SetSame.twin_hbSeq {a b : Dev} (h : SetSame a b) : b.twin.hbSeq = a.twin.hbSeq := by have k := congrArg (fun x : Dev => x.twin.hbSeq) h; exact k
theorem SetSame.twin_lost {a b : Dev} (h : SetSame a b) : b.twin.lost = a.twin.lost := by have k := congrArg (fun x : Dev => x.twin.lost) h; exact k
theorem SetSame.twin_sigs {a b : Dev} (h : SetSame a b) : b.twin.sigs = a.twin.sigs := by have k := congrArg (fun x : Dev => x.twin.sigs) h; exact k
theorem SetSame.twin_sigPartner {a b : Dev} (h : SetSame a b) : b.twin.sigPartner = a.twin.sigPartner := by have k := congrArg (fun x : Dev => x.twin.sigPartner) h; exact k
theorem SetSame.twin_sigLocalRegs {a b : Dev} (h : SetSame a b) : b.twin.sigLocalRegs = a.twin.sigLocalRegs := by have k := congrArg (fun x : Dev => x.twin.sigLocalRegs) h; exact k
theorem SetSame.twin_sigPartnerRegs {a b : Dev} (h : SetSame a b) : b.twin.sigPartnerRegs = a.twin.sigPartnerRegs := by have k := congrArg (fun x : Dev => x.twin.sigPartnerRegs) h; exact k
theorem SetSame.twin_matched {a b : Dev} (h : SetSame a b) : b.twin.matched = a.twin.matched := by have k := congrArg (fun x : Dev => x.twin.matched) h; exact k
theorem SetSame.twin_loops {a b : Dev} (h : SetSame a b) : b.twin.loops = a.twin.loops := by have k := congrArg (fun x : Dev => x.twin.loops) h; exact k
theorem SetSame.twin_portBlks {a b : Dev} (h : SetSame a b) : b.twin.portBlks = a.twin.portBlks := by have k := congrArg (fun x : Dev => x.twin.portBlks) h; exact k
theorem SetSame.twin_b0 {a b : Dev} (h : SetSame a b) : b.twin.b0 = a.twin.b0 := by have k := congrArg (fun x : Dev => x.twin.b0) h; exact k
theorem SetSame.twin_txStart {a b : Dev} (h : SetSame a b) : b.twin.txStart = a.twin.txStart := by have k := congrArg (fun x : Dev => x.twin.txStart) h; exact k
theorem SetSame.twin_partnerStart {a b : Dev} (h : SetSame a b) : b.twin.partnerStart = a.twin.partnerStart := by have k := congrArg (fun x : Dev => x.twin.partnerStart) h; exact k
theorem SetSame.twin_applyAt {a b : Dev} (h : SetSame a b) : b.twin.applyAt = a.twin.applyAt := by have k := congrArg (fun x : Dev => x.twin.applyAt) h; exact k
theorem SetSame.twin_swap {a b : Dev} (h : SetSame a b) : b.twin.swap = a.twin.swap := by have k := congrArg (fun x : Dev => x.twin.swap) h; exact k
theorem SetSame.twin_ledger {a b : Dev} (h : SetSame a b) : b.twin.ledger = a.twin.ledger := by have k := congrArg (fun x : Dev => x.twin.ledger) h; exact k
theorem SetSame.twin_retry {a b : Dev} (h : SetSame a b) : b.twin.retry = a.twin.retry := by have k := congrArg (fun x : Dev => x.twin.retry) h; exact k
theorem SetSame.twin_downCnt {a b : Dev} (h : SetSame a b) : b.twin.downCnt = a.twin.downCnt := by have k := congrArg (fun x : Dev => x.twin.downCnt) h; exact k
theorem SetSame.twin_diverge {a b : Dev} (h : SetSame a b) : b.twin.diverge = a.twin.diverge := by have k := congrArg (fun x : Dev => x.twin.diverge) h; exact k
theorem SetSame.twin_resyncs {a b : Dev} (h : SetSame a b) : b.twin.resyncs = a.twin.resyncs := by have k := congrArg (fun x : Dev => x.twin.resyncs) h; exact k

@[simp] theorem settle_aon (d : Dev) : (settle d).aon = d.aon := (settle_same d).aon
@[simp] theorem settle_power (d : Dev) : (settle d).power = d.power := (settle_same d).power
@[simp] theorem settle_flash (d : Dev) : (settle d).flash = d.flash := (settle_same d).flash
@[simp] theorem settle_mbx (d : Dev) : (settle d).mbx = d.mbx := (settle_same d).mbx
@[simp] theorem settle_time (d : Dev) : (settle d).time = d.time := (settle_same d).time
@[simp] theorem settle_dom (d : Dev) : (settle d).dom = d.dom := (settle_same d).dom
@[simp] theorem settle_scene (d : Dev) : (settle d).scene = d.scene := (settle_same d).scene
@[simp] theorem settle_chain (d : Dev) : (settle d).chain = d.chain := (settle_same d).chain
@[simp] theorem settle_mantle (d : Dev) : (settle d).mantle = d.mantle := (settle_same d).mantle
@[simp] theorem settle_seam (d : Dev) : (settle d).seam = d.seam := (settle_same d).seam
@[simp] theorem settle_mics (d : Dev) : (settle d).mics = d.mics := (settle_same d).mics
@[simp] theorem settle_cal (d : Dev) : (settle d).cal = d.cal := (settle_same d).cal
@[simp] theorem settle_track (d : Dev) : (settle d).track = d.track := (settle_same d).track
@[simp] theorem settle_sense (d : Dev) : (settle d).sense = d.sense := (settle_same d).sense
@[simp] theorem settle_selftest (d : Dev) : (settle d).selftest = d.selftest := (settle_same d).selftest
@[simp] theorem settle_ports (d : Dev) : (settle d).ports = d.ports := (settle_same d).ports
@[simp] theorem settle_net (d : Dev) : (settle d).net = d.net := (settle_same d).net
@[simp] theorem settle_render (d : Dev) : (settle d).render = d.render := (settle_same d).render
@[simp] theorem settle_dma (d : Dev) : (settle d).dma = d.dma := (settle_same d).dma
@[simp] theorem settle_hostWrites (d : Dev) : (settle d).hostWrites = d.hostWrites := (settle_same d).hostWrites
@[simp] theorem settle_free (d : Dev) : (settle d).free = d.free := (settle_same d).free
@[simp] theorem settle_fw_mode (d : Dev) : (settle d).fw.mode = d.fw.mode := (settle_same d).fw_mode
@[simp] theorem settle_fw_prevMode (d : Dev) : (settle d).fw.prevMode = d.fw.prevMode := (settle_same d).fw_prevMode
@[simp] theorem settle_fw_changing (d : Dev) : (settle d).fw.changing = d.fw.changing := (settle_same d).fw_changing
@[simp] theorem settle_fw_modeDt (d : Dev) : (settle d).fw.modeDt = d.fw.modeDt := (settle_same d).fw_modeDt
@[simp] theorem settle_fw_sessions (d : Dev) : (settle d).fw.sessions = d.fw.sessions := (settle_same d).fw_sessions
@[simp] theorem settle_fw_chains (d : Dev) : (settle d).fw.chains = d.fw.chains := (settle_same d).fw_chains
@[simp] theorem settle_fw_bulks (d : Dev) : (settle d).fw.bulks = d.fw.bulks := (settle_same d).fw_bulks
@[simp] theorem settle_fw_commits (d : Dev) : (settle d).fw.commits = d.fw.commits := (settle_same d).fw_commits
@[simp] theorem settle_fw_waits (d : Dev) : (settle d).fw.waits = d.fw.waits := (settle_same d).fw_waits
@[simp] theorem settle_fw_discard (d : Dev) : (settle d).fw.discard = d.fw.discard := (settle_same d).fw_discard
@[simp] theorem settle_fw_gainClamp (d : Dev) : (settle d).fw.gainClamp = d.fw.gainClamp := (settle_same d).fw_gainClamp
@[simp] theorem settle_fw_stageOverrun (d : Dev) : (settle d).fw.stageOverrun = d.fw.stageOverrun := (settle_same d).fw_stageOverrun
@[simp] theorem settle_fw_srUnbridged (d : Dev) : (settle d).fw.srUnbridged = d.fw.srUnbridged := (settle_same d).fw_srUnbridged
@[simp] theorem settle_fw_resetPending (d : Dev) : (settle d).fw.resetPending = d.fw.resetPending := (settle_same d).fw_resetPending
@[simp] theorem settle_fw_restart (d : Dev) : (settle d).fw.restart = d.fw.restart := (settle_same d).fw_restart
@[simp] theorem settle_fw_restartTimes (d : Dev) : (settle d).fw.restartTimes = d.fw.restartTimes := (settle_same d).fw_restartTimes
@[simp] theorem settle_fw_reported (d : Dev) : (settle d).fw.reported = d.fw.reported := (settle_same d).fw_reported
@[simp] theorem settle_fw_recoveryBoot (d : Dev) : (settle d).fw.recoveryBoot = d.fw.recoveryBoot := (settle_same d).fw_recoveryBoot
@[simp] theorem settle_hif_ctrlUp (d : Dev) : (settle d).hif.ctrlUp = d.hif.ctrlUp := (settle_same d).hif_ctrlUp
@[simp] theorem settle_hif_restarting (d : Dev) : (settle d).hif.restarting = d.hif.restarting := (settle_same d).hif_restarting
@[simp] theorem settle_hif_fwSlot (d : Dev) : (settle d).hif.fwSlot = d.hif.fwSlot := (settle_same d).hif_fwSlot
@[simp] theorem settle_hif_hostBoot (d : Dev) : (settle d).hif.hostBoot = d.hif.hostBoot := (settle_same d).hif_hostBoot
@[simp] theorem settle_hif_irqMode (d : Dev) : (settle d).hif.irqMode = d.hif.irqMode := (settle_same d).hif_irqMode
@[simp] theorem settle_hif_irqEn (d : Dev) : (settle d).hif.irqEn = d.hif.irqEn := (settle_same d).hif_irqEn
@[simp] theorem settle_hif_spiIrqEn (d : Dev) : (settle d).hif.spiIrqEn = d.hif.spiIrqEn := (settle_same d).hif_spiIrqEn
@[simp] theorem settle_hif_fault (d : Dev) : (settle d).hif.fault = d.hif.fault := (settle_same d).hif_fault
@[simp] theorem settle_hif_accessErr (d : Dev) : (settle d).hif.accessErr = d.hif.accessErr := (settle_same d).hif_accessErr
@[simp] theorem settle_hif_mbxLost (d : Dev) : (settle d).hif.mbxLost = d.hif.mbxLost := (settle_same d).hif_mbxLost
@[simp] theorem settle_hif_ctrlRestarts (d : Dev) : (settle d).hif.ctrlRestarts = d.hif.ctrlRestarts := (settle_same d).hif_ctrlRestarts
@[simp] theorem settle_hif_deviceEpoch (d : Dev) : (settle d).hif.deviceEpoch = d.hif.deviceEpoch := (settle_same d).hif_deviceEpoch
@[simp] theorem settle_hif_msixMask (d : Dev) : (settle d).hif.msixMask = d.hif.msixMask := (settle_same d).hif_msixMask
@[simp] theorem settle_hif_msixTable (d : Dev) : (settle d).hif.msixTable = d.hif.msixTable := (settle_same d).hif_msixTable
@[simp] theorem settle_hif_dblH2D (d : Dev) : (settle d).hif.dblH2D = d.hif.dblH2D := (settle_same d).hif_dblH2D
@[simp] theorem settle_hif_dblD2H (d : Dev) : (settle d).hif.dblD2H = d.hif.dblD2H := (settle_same d).hif_dblD2H
@[simp] theorem settle_hif_dblD2HEn (d : Dev) : (settle d).hif.dblD2HEn = d.hif.dblD2HEn := (settle_same d).hif_dblD2HEn
@[simp] theorem settle_hif_i2cLatch (d : Dev) : (settle d).hif.i2cLatch = d.hif.i2cLatch := (settle_same d).hif_i2cLatch
@[simp] theorem settle_hif_readData (d : Dev) : (settle d).hif.readData = d.hif.readData := (settle_same d).hif_readData
@[simp] theorem settle_mtx_park (d : Dev) : (settle d).mtx.park = d.mtx.park := (settle_same d).mtx_park
@[simp] theorem settle_mtx_isolated (d : Dev) : (settle d).mtx.isolated = d.mtx.isolated := (settle_same d).mtx_isolated
@[simp] theorem settle_mtx_last (d : Dev) : (settle d).mtx.last = d.mtx.last := (settle_same d).mtx_last
@[simp] theorem settle_tiles_cores (d : Dev) : (settle d).tiles.cores = d.tiles.cores := (settle_same d).tiles_cores
@[simp] theorem settle_tiles_mem (d : Dev) : (settle d).tiles.mem = d.tiles.mem := (settle_same d).tiles_mem
@[simp] theorem settle_tiles_sched (d : Dev) : (settle d).tiles.sched = d.tiles.sched := (settle_same d).tiles_sched
@[simp] theorem settle_twin_cfg (d : Dev) : (settle d).twin.cfg = d.twin.cfg := (settle_same d).twin_cfg
@[simp] theorem settle_twin_state (d : Dev) : (settle d).twin.state = d.twin.state := (settle_same d).twin_state
@[simp] theorem settle_twin_partner (d : Dev) : (settle d).twin.partner = d.twin.partner := (settle_same d).twin_partner
@[simp] theorem settle_twin_partnerId (d : Dev) : (settle d).twin.partnerId = d.twin.partnerId := (settle_same d).twin_partnerId
@[simp] theorem settle_twin_linkCtrl (d : Dev) : (settle d).twin.linkCtrl = d.twin.linkCtrl := (settle_same d).twin_linkCtrl
@[simp] theorem settle_twin_lanes (d : Dev) : (settle d).twin.lanes = d.twin.lanes := (settle_same d).twin_lanes
@[simp] theorem settle_twin_helloSent (d : Dev) : (settle d).twin.helloSent = d.twin.helloSent := (settle_same d).twin_helloSent
@[simp] theorem settle_twin_hello (d : Dev) : (settle d).twin.hello = d.twin.hello := (settle_same d).twin_hello
@[simp] theorem settle_twin_handshake (d : Dev) : (settle d).twin.handshake = d.twin.handshake := (settle_same d).twin_handshake
@[simp] theorem settle_twin_major (d : Dev) : (settle d).twin.major = d.twin.major := (settle_same d).twin_major
@[simp] theorem settle_twin_minor (d : Dev) : (settle d).twin.minor = d.twin.minor := (settle_same d).twin_minor
@[simp] theorem settle_twin_refusal (d : Dev) : (settle d).twin.refusal = d.twin.refusal := (settle_same d).twin_refusal
@[simp] theorem settle_twin_partnerRestarting (d : Dev) : (settle d).twin.partnerRestarting = d.twin.partnerRestarting := (settle_same d).twin_partnerRestarting
@[simp] theorem settle_twin_rxSeq (d : Dev) : (settle d).twin.rxSeq = d.twin.rxSeq := (settle_same d).twin_rxSeq
@[simp] theorem settle_twin_parts (d : Dev) : (settle d).twin.parts = d.twin.parts := (settle_same d).twin_parts
@[simp] theorem settle_twin_nextTicket (d : Dev) : (settle d).twin.nextTicket = d.twin.nextTicket := (settle_same d).twin_nextTicket
@[simp] theorem settle_twin_issued (d : Dev) : (settle d).twin.issued = d.twin.issued := (settle_same d).twin_issued
@[simp] theorem settle_twin_working (d : Dev) : (settle d).twin.working = d.twin.working := (settle_same d).twin_working
@[simp] theorem settle_twin_tickets (d : Dev) : (settle d).twin.tickets = d.twin.tickets := (settle_same d).twin_tickets
@[simp] theorem settle_twin_applied (d : Dev) : (settle d).twin.applied = d.twin.applied := (settle_same d).twin_applied
@[simp] theorem settle_twin_markers (d : Dev) : (settle d).twin.markers = d.twin.markers := (settle_same d).twin_markers
@[simp] theorem settle_twin_markerMiss (d : Dev) : (settle d).twin.markerMiss = d.twin.markerMiss := (settle_same d).twin_markerMiss
@[simp] theorem settle_twin_hbMissed (d : Dev) : (settle d).twin.hbMissed = d.twin.hbMissed := (settle_same d).twin_hbMissed
@[simp] theorem settle_twin_hbSeen (d : Dev) : (settle d).twin.hbSeen = d.twin.hbSeen := (settle_same d).twin_hbSeen
@[simp] theorem settle_twin_hbSeq (d : Dev) : (settle d).twin.hbSeq = d.twin.hbSeq := (settle_same d).twin_hbSeq
@[simp] theorem settle_twin_lost (d : Dev) : (settle d).twin.lost = d.twin.lost := (settle_same d).twin_lost
@[simp] theorem settle_twin_sigs (d : Dev) : (settle d).twin.sigs = d.twin.sigs := (settle_same d).twin_sigs
@[simp] theorem settle_twin_sigPartner (d : Dev) : (settle d).twin.sigPartner = d.twin.sigPartner := (settle_same d).twin_sigPartner
@[simp] theorem settle_twin_sigLocalRegs (d : Dev) : (settle d).twin.sigLocalRegs = d.twin.sigLocalRegs := (settle_same d).twin_sigLocalRegs
@[simp] theorem settle_twin_sigPartnerRegs (d : Dev) : (settle d).twin.sigPartnerRegs = d.twin.sigPartnerRegs := (settle_same d).twin_sigPartnerRegs
@[simp] theorem settle_twin_matched (d : Dev) : (settle d).twin.matched = d.twin.matched := (settle_same d).twin_matched
@[simp] theorem settle_twin_loops (d : Dev) : (settle d).twin.loops = d.twin.loops := (settle_same d).twin_loops
@[simp] theorem settle_twin_portBlks (d : Dev) : (settle d).twin.portBlks = d.twin.portBlks := (settle_same d).twin_portBlks
@[simp] theorem settle_twin_b0 (d : Dev) : (settle d).twin.b0 = d.twin.b0 := (settle_same d).twin_b0
@[simp] theorem settle_twin_txStart (d : Dev) : (settle d).twin.txStart = d.twin.txStart := (settle_same d).twin_txStart
@[simp] theorem settle_twin_partnerStart (d : Dev) : (settle d).twin.partnerStart = d.twin.partnerStart := (settle_same d).twin_partnerStart
@[simp] theorem settle_twin_applyAt (d : Dev) : (settle d).twin.applyAt = d.twin.applyAt := (settle_same d).twin_applyAt
@[simp] theorem settle_twin_swap (d : Dev) : (settle d).twin.swap = d.twin.swap := (settle_same d).twin_swap
@[simp] theorem settle_twin_ledger (d : Dev) : (settle d).twin.ledger = d.twin.ledger := (settle_same d).twin_ledger
@[simp] theorem settle_twin_retry (d : Dev) : (settle d).twin.retry = d.twin.retry := (settle_same d).twin_retry
@[simp] theorem settle_twin_downCnt (d : Dev) : (settle d).twin.downCnt = d.twin.downCnt := (settle_same d).twin_downCnt
@[simp] theorem settle_twin_diverge (d : Dev) : (settle d).twin.diverge = d.twin.diverge := (settle_same d).twin_diverge
@[simp] theorem settle_twin_resyncs (d : Dev) : (settle d).twin.resyncs = d.twin.resyncs := (settle_same d).twin_resyncs

theorem noteOne_notes (d : Dev) (n : DspNote) : (noteOne d n).tiles = d.tiles := by cases n <;> simp [noteOne, matrixError]
theorem settleNotes_notes (d : Dev) : (settleNotes d).tiles.notes = [] := by
  have h := foldl_rel (fun a b : Dev => b.tiles = a.tiles) (fun _ => rfl) (fun _ _ _ h k => k.trans h) noteOne noteOne_notes
    d.tiles.notes { d with tiles := { d.tiles with notes := [] } }
  unfold settleNotes; rw [h]
theorem settleMsix_kept (d : Dev) : (settleMsix d).tiles = d.tiles ∧ (settleMsix d).twin = d.twin := by
  unfold settleMsix; dsimp only
  rw [hif_tiles, hif_twin]
  refine foldl_rel (fun a b : Dev => b.tiles = a.tiles ∧ b.twin = a.twin) (fun _ => ⟨rfl, rfl⟩)
    (fun _ _ _ h k => ⟨k.1.trans h.1, k.2.trans h.2⟩) _ (fun x v => ?_) _ d
  repeat' (first | exact ⟨rfl, rfl⟩ | split)
@[simp] theorem settle_notes (d : Dev) : (settle d).tiles.notes = [] := by
  unfold settle; rw [(settleMsix_kept _).1]; exact settleNotes_notes d
@[simp] theorem settle_waiting (d : Dev) : (settle d).twin.waiting = [] := by
  unfold settle; rw [(settleMsix_kept _).2, linkFlush_waiting]

@[simp] theorem clearOut_aon (d : Dev) : (clearOut d).aon = d.aon := rfl
@[simp] theorem clearOut_power (d : Dev) : (clearOut d).power = d.power := rfl
@[simp] theorem clearOut_flash (d : Dev) : (clearOut d).flash = d.flash := rfl
@[simp] theorem clearOut_fw (d : Dev) : (clearOut d).fw = d.fw := rfl
@[simp] theorem clearOut_mbx (d : Dev) : (clearOut d).mbx = d.mbx := rfl
@[simp] theorem clearOut_time (d : Dev) : (clearOut d).time = d.time := rfl
@[simp] theorem clearOut_dom (d : Dev) : (clearOut d).dom = d.dom := rfl
@[simp] theorem clearOut_scene (d : Dev) : (clearOut d).scene = d.scene := rfl
@[simp] theorem clearOut_chain (d : Dev) : (clearOut d).chain = d.chain := rfl
@[simp] theorem clearOut_mantle (d : Dev) : (clearOut d).mantle = d.mantle := rfl
@[simp] theorem clearOut_seam (d : Dev) : (clearOut d).seam = d.seam := rfl
@[simp] theorem clearOut_mics (d : Dev) : (clearOut d).mics = d.mics := rfl
@[simp] theorem clearOut_cal (d : Dev) : (clearOut d).cal = d.cal := rfl
@[simp] theorem clearOut_track (d : Dev) : (clearOut d).track = d.track := rfl
@[simp] theorem clearOut_sense (d : Dev) : (clearOut d).sense = d.sense := rfl
@[simp] theorem clearOut_selftest (d : Dev) : (clearOut d).selftest = d.selftest := rfl
@[simp] theorem clearOut_ports (d : Dev) : (clearOut d).ports = d.ports := rfl
@[simp] theorem clearOut_render (d : Dev) : (clearOut d).render = d.render := rfl
@[simp] theorem clearOut_tiles (d : Dev) : (clearOut d).tiles = d.tiles := rfl
@[simp] theorem clearOut_dma (d : Dev) : (clearOut d).dma = d.dma := rfl
@[simp] theorem clearOut_mtx (d : Dev) : (clearOut d).mtx = d.mtx := rfl
@[simp] theorem clearOut_free (d : Dev) : (clearOut d).free = d.free := rfl
@[simp] theorem clearOut_hif_ctrlUp (d : Dev) : (clearOut d).hif.ctrlUp = d.hif.ctrlUp := rfl
@[simp] theorem clearOut_hif_restarting (d : Dev) : (clearOut d).hif.restarting = d.hif.restarting := rfl
@[simp] theorem clearOut_hif_fwSlot (d : Dev) : (clearOut d).hif.fwSlot = d.hif.fwSlot := rfl
@[simp] theorem clearOut_hif_hostBoot (d : Dev) : (clearOut d).hif.hostBoot = d.hif.hostBoot := rfl
@[simp] theorem clearOut_hif_irqMode (d : Dev) : (clearOut d).hif.irqMode = d.hif.irqMode := rfl
@[simp] theorem clearOut_hif_irqEn (d : Dev) : (clearOut d).hif.irqEn = d.hif.irqEn := rfl
@[simp] theorem clearOut_hif_spiIrqEn (d : Dev) : (clearOut d).hif.spiIrqEn = d.hif.spiIrqEn := rfl
@[simp] theorem clearOut_hif_fault (d : Dev) : (clearOut d).hif.fault = d.hif.fault := rfl
@[simp] theorem clearOut_hif_accessErr (d : Dev) : (clearOut d).hif.accessErr = d.hif.accessErr := rfl
@[simp] theorem clearOut_hif_mbxLost (d : Dev) : (clearOut d).hif.mbxLost = d.hif.mbxLost := rfl
@[simp] theorem clearOut_hif_ctrlRestarts (d : Dev) : (clearOut d).hif.ctrlRestarts = d.hif.ctrlRestarts := rfl
@[simp] theorem clearOut_hif_deviceEpoch (d : Dev) : (clearOut d).hif.deviceEpoch = d.hif.deviceEpoch := rfl
@[simp] theorem clearOut_hif_msixMask (d : Dev) : (clearOut d).hif.msixMask = d.hif.msixMask := rfl
@[simp] theorem clearOut_hif_msixTable (d : Dev) : (clearOut d).hif.msixTable = d.hif.msixTable := rfl
@[simp] theorem clearOut_hif_dblH2D (d : Dev) : (clearOut d).hif.dblH2D = d.hif.dblH2D := rfl
@[simp] theorem clearOut_hif_dblD2H (d : Dev) : (clearOut d).hif.dblD2H = d.hif.dblD2H := rfl
@[simp] theorem clearOut_hif_dblD2HEn (d : Dev) : (clearOut d).hif.dblD2HEn = d.hif.dblD2HEn := rfl
@[simp] theorem clearOut_hif_i2cLatch (d : Dev) : (clearOut d).hif.i2cLatch = d.hif.i2cLatch := rfl
@[simp] theorem clearOut_twin_cfg (d : Dev) : (clearOut d).twin.cfg = d.twin.cfg := rfl
@[simp] theorem clearOut_twin_state (d : Dev) : (clearOut d).twin.state = d.twin.state := rfl
@[simp] theorem clearOut_twin_partner (d : Dev) : (clearOut d).twin.partner = d.twin.partner := rfl
@[simp] theorem clearOut_twin_partnerId (d : Dev) : (clearOut d).twin.partnerId = d.twin.partnerId := rfl
@[simp] theorem clearOut_twin_linkCtrl (d : Dev) : (clearOut d).twin.linkCtrl = d.twin.linkCtrl := rfl
@[simp] theorem clearOut_twin_lanes (d : Dev) : (clearOut d).twin.lanes = d.twin.lanes := rfl
@[simp] theorem clearOut_twin_helloSent (d : Dev) : (clearOut d).twin.helloSent = d.twin.helloSent := rfl
@[simp] theorem clearOut_twin_hello (d : Dev) : (clearOut d).twin.hello = d.twin.hello := rfl
@[simp] theorem clearOut_twin_handshake (d : Dev) : (clearOut d).twin.handshake = d.twin.handshake := rfl
@[simp] theorem clearOut_twin_major (d : Dev) : (clearOut d).twin.major = d.twin.major := rfl
@[simp] theorem clearOut_twin_minor (d : Dev) : (clearOut d).twin.minor = d.twin.minor := rfl
@[simp] theorem clearOut_twin_refusal (d : Dev) : (clearOut d).twin.refusal = d.twin.refusal := rfl
@[simp] theorem clearOut_twin_partnerRestarting (d : Dev) : (clearOut d).twin.partnerRestarting = d.twin.partnerRestarting := rfl
@[simp] theorem clearOut_twin_rxSeq (d : Dev) : (clearOut d).twin.rxSeq = d.twin.rxSeq := rfl
@[simp] theorem clearOut_twin_parts (d : Dev) : (clearOut d).twin.parts = d.twin.parts := rfl
@[simp] theorem clearOut_twin_nextTicket (d : Dev) : (clearOut d).twin.nextTicket = d.twin.nextTicket := rfl
@[simp] theorem clearOut_twin_issued (d : Dev) : (clearOut d).twin.issued = d.twin.issued := rfl
@[simp] theorem clearOut_twin_working (d : Dev) : (clearOut d).twin.working = d.twin.working := rfl
@[simp] theorem clearOut_twin_tickets (d : Dev) : (clearOut d).twin.tickets = d.twin.tickets := rfl
@[simp] theorem clearOut_twin_applied (d : Dev) : (clearOut d).twin.applied = d.twin.applied := rfl
@[simp] theorem clearOut_twin_markers (d : Dev) : (clearOut d).twin.markers = d.twin.markers := rfl
@[simp] theorem clearOut_twin_markerMiss (d : Dev) : (clearOut d).twin.markerMiss = d.twin.markerMiss := rfl
@[simp] theorem clearOut_twin_hbMissed (d : Dev) : (clearOut d).twin.hbMissed = d.twin.hbMissed := rfl
@[simp] theorem clearOut_twin_hbSeen (d : Dev) : (clearOut d).twin.hbSeen = d.twin.hbSeen := rfl
@[simp] theorem clearOut_twin_hbSeq (d : Dev) : (clearOut d).twin.hbSeq = d.twin.hbSeq := rfl
@[simp] theorem clearOut_twin_lost (d : Dev) : (clearOut d).twin.lost = d.twin.lost := rfl
@[simp] theorem clearOut_twin_sigs (d : Dev) : (clearOut d).twin.sigs = d.twin.sigs := rfl
@[simp] theorem clearOut_twin_sigPartner (d : Dev) : (clearOut d).twin.sigPartner = d.twin.sigPartner := rfl
@[simp] theorem clearOut_twin_sigLocalRegs (d : Dev) : (clearOut d).twin.sigLocalRegs = d.twin.sigLocalRegs := rfl
@[simp] theorem clearOut_twin_sigPartnerRegs (d : Dev) : (clearOut d).twin.sigPartnerRegs = d.twin.sigPartnerRegs := rfl
@[simp] theorem clearOut_twin_matched (d : Dev) : (clearOut d).twin.matched = d.twin.matched := rfl
@[simp] theorem clearOut_twin_loops (d : Dev) : (clearOut d).twin.loops = d.twin.loops := rfl
@[simp] theorem clearOut_twin_portBlks (d : Dev) : (clearOut d).twin.portBlks = d.twin.portBlks := rfl
@[simp] theorem clearOut_twin_b0 (d : Dev) : (clearOut d).twin.b0 = d.twin.b0 := rfl
@[simp] theorem clearOut_twin_txStart (d : Dev) : (clearOut d).twin.txStart = d.twin.txStart := rfl
@[simp] theorem clearOut_twin_partnerStart (d : Dev) : (clearOut d).twin.partnerStart = d.twin.partnerStart := rfl
@[simp] theorem clearOut_twin_applyAt (d : Dev) : (clearOut d).twin.applyAt = d.twin.applyAt := rfl
@[simp] theorem clearOut_twin_swap (d : Dev) : (clearOut d).twin.swap = d.twin.swap := rfl
@[simp] theorem clearOut_twin_ledger (d : Dev) : (clearOut d).twin.ledger = d.twin.ledger := rfl
@[simp] theorem clearOut_twin_retry (d : Dev) : (clearOut d).twin.retry = d.twin.retry := rfl
@[simp] theorem clearOut_twin_downCnt (d : Dev) : (clearOut d).twin.downCnt = d.twin.downCnt := rfl
@[simp] theorem clearOut_twin_diverge (d : Dev) : (clearOut d).twin.diverge = d.twin.diverge := rfl
@[simp] theorem clearOut_twin_resyncs (d : Dev) : (clearOut d).twin.resyncs = d.twin.resyncs := rfl
@[simp] theorem clearOut_twin_waiting (d : Dev) : (clearOut d).twin.waiting = d.twin.waiting := rfl
@[simp] theorem clearOut_twin_txSeq (d : Dev) : (clearOut d).twin.txSeq = d.twin.txSeq := rfl
@[simp] theorem clearOut_twin_unacked (d : Dev) : (clearOut d).twin.unacked = d.twin.unacked := rfl
@[simp] theorem clearOut_hif_msixPend (d : Dev) : (clearOut d).hif.msixPend = d.hif.msixPend := rfl
@[simp] theorem clearOut_hif_msixCond (d : Dev) : (clearOut d).hif.msixCond = d.hif.msixCond := rfl

@[simp] theorem clearOut_hostWrites (d : Dev) : (clearOut d).hostWrites = [] := rfl
@[simp] theorem clearOut_readData (d : Dev) : (clearOut d).hif.readData = [] := rfl
@[simp] theorem clearOut_net (d : Dev) : (clearOut d).net = { d.net with wire := [] } := rfl

/-- A meaning on the device always answers a next state; its queue is the one it was given. -/
theorem run_eq (f : Dev → Dev) (s : State) : run f s = .next { s with dev := settle (f (clearOut s.dev)) } := rfl

end Sys2Proof.Machine
end

