-- ==== Sys2Proof/Laws/Exec.lean ====
section
/-! SUPPORT. What any command can answer: a next state made by one change of the device and settled, or the fault of an
operand that spells another row. -/

namespace Sys2Proof.Machine

/-- An outcome that is a settled change of the device, or the fault otherRow. -/
def IsRun (s : State) (o : Host.Outcome State Fault Refusal) : Prop := (∃ f : Dev → Dev, o = run f s) ∨ o = .fault .otherRow

theorem reqRow_isRun (op : Op) (i : Nat) (os : List Nat) (j : Judge1) (r : Req) (s : State) : IsRun s (reqRow op i os j r s) := by
  unfold reqRow; split
  · exact Or.inr rfl
  · exact Or.inl ⟨_, rfl⟩
theorem coreRow_isRun (own : Word → Bool) (c : Fin 64) (i : Issue) (e : Option (DspCore → AOut)) (s : State) :
    IsRun s (coreRow own c i e s) := by
  unfold coreRow; split
  · exact Or.inl ⟨_, rfl⟩
  · exact Or.inr rfl
theorem dmaRow_isRun (own : Nat) (ch : Fin 32) (i : DmaIssue) (f : Dev → List Byte → Dev) (s : State) :
    IsRun s (dmaRow own ch i f s) := by
  unfold dmaRow; split
  · exact Or.inl ⟨_, rfl⟩
  · exact Or.inr rfl

theorem isRun_hello (s : State) (r : Req) : IsRun s (exec (.hello r) s) := by
  show IsRun s (execHello r s); unfold execHello reqRow1; exact Or.inl ⟨_, rfl⟩
theorem isRun_version (s : State) (r : Req) : IsRun s (exec (.version r) s) := by
  show IsRun s (execVersion r s); unfold execVersion reqRow1; exact Or.inl ⟨_, rfl⟩
theorem isRun_caps (s : State) (r : Req) : IsRun s (exec (.caps r) s) := by
  show IsRun s (execCaps r s); unfold execCaps reqRow1; exact Or.inl ⟨_, rfl⟩
theorem isRun_ping (s : State) (r : Req) : IsRun s (exec (.ping r) s) := by
  show IsRun s (execPing r s); unfold execPing reqRow1; exact Or.inl ⟨_, rfl⟩
theorem isRun_bye (s : State) (r : Req) : IsRun s (exec (.bye r) s) := by
  show IsRun s (execBye r s); unfold execBye reqRow1; exact Or.inl ⟨_, rfl⟩
theorem isRun_modeSet (s : State) (r : Req) : IsRun s (exec (.modeSet r) s) := by
  show IsRun s (execModeSet r s); unfold execModeSet reqRow1; exact Or.inl ⟨_, rfl⟩
theorem isRun_modeGet (s : State) (r : Req) : IsRun s (exec (.modeGet r) s) := by
  show IsRun s (execModeGet r s); unfold execModeGet reqRow1; exact Or.inl ⟨_, rfl⟩
theorem isRun_resetReq (s : State) (r : Req) : IsRun s (exec (.resetReq r) s) := by
  show IsRun s (execResetReq r s); unfold execResetReq reqRow1; exact Or.inl ⟨_, rfl⟩
theorem isRun_telemetryGetCounters (s : State) (r : Req) : IsRun s (exec (.telemetryGetCounters r) s) := by
  show IsRun s (execTelemetryGetCounters r s); unfold execTelemetryGetCounters; exact reqRow_isRun _ _ _ _ _ _
theorem isRun_telemetryGetBlock (s : State) (r : Req) : IsRun s (exec (.telemetryGetBlock r) s) := by
  show IsRun s (execTelemetryGetBlock r s); unfold execTelemetryGetBlock; exact reqRow_isRun _ _ _ _ _ _
theorem isRun_logRead (s : State) (r : Req) : IsRun s (exec (.logRead r) s) := by
  show IsRun s (execLogRead r s); unfold execLogRead reqRow1; exact Or.inl ⟨_, rfl⟩
theorem isRun_outLatencyGet (s : State) (r : Req) : IsRun s (exec (.outLatencyGet r) s) := by
  show IsRun s (execOutLatencyGet r s); unfold execOutLatencyGet reqRow1; exact Or.inl ⟨_, rfl⟩
theorem isRun_domainCfgSet (s : State) (r : Req) : IsRun s (exec (.domainCfgSet r) s) := by
  show IsRun s (execDomainCfgSet r s); unfold execDomainCfgSet; exact reqRow_isRun _ _ _ _ _ _
theorem isRun_domainCfgStart (s : State) (r : Req) : IsRun s (exec (.domainCfgStart r) s) := by
  show IsRun s (execDomainCfgStart r s); unfold execDomainCfgStart; exact reqRow_isRun _ _ _ _ _ _
theorem isRun_domainStop (s : State) (r : Req) : IsRun s (exec (.domainStop r) s) := by
  show IsRun s (execDomainStop r s); unfold execDomainStop; exact reqRow_isRun _ _ _ _ _ _
theorem isRun_domainCfgRealign (s : State) (r : Req) : IsRun s (exec (.domainCfgRealign r) s) := by
  show IsRun s (execDomainCfgRealign r s); unfold execDomainCfgRealign; exact reqRow_isRun _ _ _ _ _ _
theorem isRun_domainCfgGet (s : State) (r : Req) : IsRun s (exec (.domainCfgGet r) s) := by
  show IsRun s (execDomainCfgGet r s); unfold execDomainCfgGet; exact reqRow_isRun _ _ _ _ _ _
theorem isRun_ptpCfg (s : State) (r : Req) : IsRun s (exec (.ptpCfg r) s) := by
  show IsRun s (execPtpCfg r s); unfold execPtpCfg reqRow1; exact Or.inl ⟨_, rfl⟩
theorem isRun_pulseCfg (s : State) (r : Req) : IsRun s (exec (.pulseCfg r) s) := by
  show IsRun s (execPulseCfg r s); unfold execPulseCfg reqRow1; exact Or.inl ⟨_, rfl⟩
theorem isRun_captureCfg (s : State) (r : Req) : IsRun s (exec (.captureCfg r) s) := by
  show IsRun s (execCaptureCfg r s); unfold execCaptureCfg reqRow1; exact Or.inl ⟨_, rfl⟩
theorem isRun_layoutBegin (s : State) (r : Req) : IsRun s (exec (.layoutBegin r) s) := by
  show IsRun s (execLayoutBegin r s); unfold execLayoutBegin reqRow1; exact Or.inl ⟨_, rfl⟩
theorem isRun_layoutSpk (s : State) (r : Req) : IsRun s (exec (.layoutSpk r) s) := by
  show IsRun s (execLayoutSpk r s); unfold execLayoutSpk reqRow1; exact Or.inl ⟨_, rfl⟩
theorem isRun_layoutCommit (s : State) (r : Req) : IsRun s (exec (.layoutCommit r) s) := by
  show IsRun s (execLayoutCommit r s); unfold execLayoutCommit reqRow1; exact Or.inl ⟨_, rfl⟩
theorem isRun_objCfg (s : State) (r : Req) : IsRun s (exec (.objCfg r) s) := by
  show IsRun s (execObjCfg r s); unfold execObjCfg reqRow1; exact Or.inl ⟨_, rfl⟩
theorem isRun_objUpdate (s : State) (r : Req) : IsRun s (exec (.objUpdate r) s) := by
  show IsRun s (execObjUpdate r s); unfold execObjUpdate reqRow1; exact Or.inl ⟨_, rfl⟩
theorem isRun_objUpdateBatch (s : State) (r : Req) : IsRun s (exec (.objUpdateBatch r) s) := by
  show IsRun s (execObjUpdateBatch r s); unfold execObjUpdateBatch reqRow1; exact Or.inl ⟨_, rfl⟩
theorem isRun_objQuery (s : State) (r : Req) : IsRun s (exec (.objQuery r) s) := by
  show IsRun s (execObjQuery r s); unfold execObjQuery reqRow1; exact Or.inl ⟨_, rfl⟩
theorem isRun_routeSet (s : State) (r : Req) : IsRun s (exec (.routeSet r) s) := by
  show IsRun s (execRouteSet r s); unfold execRouteSet reqRow1; exact Or.inl ⟨_, rfl⟩
theorem isRun_busCfg (s : State) (r : Req) : IsRun s (exec (.busCfg r) s) := by
  show IsRun s (execBusCfg r s); unfold execBusCfg reqRow1; exact Or.inl ⟨_, rfl⟩
theorem isRun_matrixDirect (s : State) (r : Req) : IsRun s (exec (.matrixDirect r) s) := by
  show IsRun s (execMatrixDirect r s); unfold execMatrixDirect reqRow1; exact Or.inl ⟨_, rfl⟩
theorem isRun_chainCfgColumn (s : State) (r : Req) : IsRun s (exec (.chainCfgColumn r) s) := by
  show IsRun s (execChainCfgColumn r s); unfold execChainCfgColumn; exact reqRow_isRun _ _ _ _ _ _
theorem isRun_chainCfgBassGroup (s : State) (r : Req) : IsRun s (exec (.chainCfgBassGroup r) s) := by
  show IsRun s (execChainCfgBassGroup r s); unfold execChainCfgBassGroup; exact reqRow_isRun _ _ _ _ _ _
theorem isRun_eqSet (s : State) (r : Req) : IsRun s (exec (.eqSet r) s) := by
  show IsRun s (execEqSet r s); unfold execEqSet reqRow1; exact Or.inl ⟨_, rfl⟩
theorem isRun_delaySet (s : State) (r : Req) : IsRun s (exec (.delaySet r) s) := by
  show IsRun s (execDelaySet r s); unfold execDelaySet reqRow1; exact Or.inl ⟨_, rfl⟩
theorem isRun_dynCfgSet (s : State) (r : Req) : IsRun s (exec (.dynCfgSet r) s) := by
  show IsRun s (execDynCfgSet r s); unfold execDynCfgSet; exact reqRow_isRun _ _ _ _ _ _
theorem isRun_grRead (s : State) (r : Req) : IsRun s (exec (.grRead r) s) := by
  show IsRun s (execGrRead r s); unfold execGrRead; exact reqRow_isRun _ _ _ _ _ _
theorem isRun_outGain (s : State) (r : Req) : IsRun s (exec (.outGain r) s) := by
  show IsRun s (execOutGain r s); unfold execOutGain reqRow1; exact Or.inl ⟨_, rfl⟩
theorem isRun_outMute (s : State) (r : Req) : IsRun s (exec (.outMute r) s) := by
  show IsRun s (execOutMute r s); unfold execOutMute reqRow1; exact Or.inl ⟨_, rfl⟩
theorem isRun_firLoadMap (s : State) (r : Req) : IsRun s (exec (.firLoadMap r) s) := by
  show IsRun s (execFirLoadMap r s); unfold execFirLoadMap; exact reqRow_isRun _ _ _ _ _ _
theorem isRun_firLoadData (s : State) (r : Req) : IsRun s (exec (.firLoadData r) s) := by
  show IsRun s (execFirLoadData r s); unfold execFirLoadData; exact reqRow_isRun _ _ _ _ _ _
theorem isRun_firCommit (s : State) (r : Req) : IsRun s (exec (.firCommit r) s) := by
  show IsRun s (execFirCommit r s); unfold execFirCommit reqRow1; exact Or.inl ⟨_, rfl⟩
theorem isRun_firStatus (s : State) (r : Req) : IsRun s (exec (.firStatus r) s) := by
  show IsRun s (execFirStatus r s); unfold execFirStatus reqRow1; exact Or.inl ⟨_, rfl⟩
theorem isRun_haloCfgSet (s : State) (r : Req) : IsRun s (exec (.haloCfgSet r) s) := by
  show IsRun s (execHaloCfgSet r s); unfold execHaloCfgSet; exact reqRow_isRun _ _ _ _ _ _
theorem isRun_haloCfgOrient (s : State) (r : Req) : IsRun s (exec (.haloCfgOrient r) s) := by
  show IsRun s (execHaloCfgOrient r s); unfold execHaloCfgOrient; exact reqRow_isRun _ _ _ _ _ _
theorem isRun_haloCfgGet (s : State) (r : Req) : IsRun s (exec (.haloCfgGet r) s) := by
  show IsRun s (execHaloCfgGet r s); unfold execHaloCfgGet; exact reqRow_isRun _ _ _ _ _ _
theorem isRun_seamCfgSet (s : State) (r : Req) : IsRun s (exec (.seamCfgSet r) s) := by
  show IsRun s (execSeamCfgSet r s); unfold execSeamCfgSet; exact reqRow_isRun _ _ _ _ _ _
theorem isRun_seamCfgGet (s : State) (r : Req) : IsRun s (exec (.seamCfgGet r) s) := by
  show IsRun s (execSeamCfgGet r s); unfold execSeamCfgGet; exact reqRow_isRun _ _ _ _ _ _
theorem isRun_micCfgSet (s : State) (r : Req) : IsRun s (exec (.micCfgSet r) s) := by
  show IsRun s (execMicCfgSet r s); unfold execMicCfgSet; exact reqRow_isRun _ _ _ _ _ _
theorem isRun_micCfgGet (s : State) (r : Req) : IsRun s (exec (.micCfgGet r) s) := by
  show IsRun s (execMicCfgGet r s); unfold execMicCfgGet; exact reqRow_isRun _ _ _ _ _ _
theorem isRun_toneDetCfgSet (s : State) (r : Req) : IsRun s (exec (.toneDetCfgSet r) s) := by
  show IsRun s (execToneDetCfgSet r s); unfold execToneDetCfgSet; exact reqRow_isRun _ _ _ _ _ _
theorem isRun_toneDetCfgStop (s : State) (r : Req) : IsRun s (exec (.toneDetCfgStop r) s) := by
  show IsRun s (execToneDetCfgStop r s); unfold execToneDetCfgStop; exact reqRow_isRun _ _ _ _ _ _
theorem isRun_toneDetCfgGet (s : State) (r : Req) : IsRun s (exec (.toneDetCfgGet r) s) := by
  show IsRun s (execToneDetCfgGet r s); unfold execToneDetCfgGet; exact reqRow_isRun _ _ _ _ _ _
theorem isRun_calStartMeasure (s : State) (r : Req) : IsRun s (exec (.calStartMeasure r) s) := by
  show IsRun s (execCalStartMeasure r s); unfold execCalStartMeasure; exact reqRow_isRun _ _ _ _ _ _
theorem isRun_calStartDesign (s : State) (r : Req) : IsRun s (exec (.calStartDesign r) s) := by
  show IsRun s (execCalStartDesign r s); unfold execCalStartDesign; exact reqRow_isRun _ _ _ _ _ _
theorem isRun_calStartAbort (s : State) (r : Req) : IsRun s (exec (.calStartAbort r) s) := by
  show IsRun s (execCalStartAbort r s); unfold execCalStartAbort; exact reqRow_isRun _ _ _ _ _ _
theorem isRun_calResult (s : State) (r : Req) : IsRun s (exec (.calResult r) s) := by
  show IsRun s (execCalResult r s); unfold execCalResult reqRow1; exact Or.inl ⟨_, rfl⟩
theorem isRun_trackCfgSet (s : State) (r : Req) : IsRun s (exec (.trackCfgSet r) s) := by
  show IsRun s (execTrackCfgSet r s); unfold execTrackCfgSet; exact reqRow_isRun _ _ _ _ _ _
theorem isRun_trackCfgGet (s : State) (r : Req) : IsRun s (exec (.trackCfgGet r) s) := by
  show IsRun s (execTrackCfgGet r s); unfold execTrackCfgGet; exact reqRow_isRun _ _ _ _ _ _
theorem isRun_trackCfgRead (s : State) (r : Req) : IsRun s (exec (.trackCfgRead r) s) := by
  show IsRun s (execTrackCfgRead r s); unfold execTrackCfgRead; exact reqRow_isRun _ _ _ _ _ _
theorem isRun_trackProposalList (s : State) (r : Req) : IsRun s (exec (.trackProposalList r) s) := by
  show IsRun s (execTrackProposalList r s); unfold execTrackProposalList; exact reqRow_isRun _ _ _ _ _ _
theorem isRun_trackProposalRead (s : State) (r : Req) : IsRun s (exec (.trackProposalRead r) s) := by
  show IsRun s (execTrackProposalRead r s); unfold execTrackProposalRead; exact reqRow_isRun _ _ _ _ _ _
theorem isRun_trackProposalDiscard (s : State) (r : Req) : IsRun s (exec (.trackProposalDiscard r) s) := by
  show IsRun s (execTrackProposalDiscard r s); unfold execTrackProposalDiscard; exact reqRow_isRun _ _ _ _ _ _
theorem isRun_portCfgSet (s : State) (r : Req) : IsRun s (exec (.portCfgSet r) s) := by
  show IsRun s (execPortCfgSet r s); unfold execPortCfgSet; exact reqRow_isRun _ _ _ _ _ _
theorem isRun_portCfgGet (s : State) (r : Req) : IsRun s (exec (.portCfgGet r) s) := by
  show IsRun s (execPortCfgGet r s); unfold execPortCfgGet; exact reqRow_isRun _ _ _ _ _ _
theorem isRun_portCfgSource (s : State) (r : Req) : IsRun s (exec (.portCfgSource r) s) := by
  show IsRun s (execPortCfgSource r s); unfold execPortCfgSource; exact reqRow_isRun _ _ _ _ _ _
theorem isRun_csRead (s : State) (r : Req) : IsRun s (exec (.csRead r) s) := by
  show IsRun s (execCsRead r s); unfold execCsRead; exact reqRow_isRun _ _ _ _ _ _
theorem isRun_csWrite (s : State) (r : Req) : IsRun s (exec (.csWrite r) s) := by
  show IsRun s (execCsWrite r s); unfold execCsWrite; exact reqRow_isRun _ _ _ _ _ _
theorem isRun_slotMask (s : State) (r : Req) : IsRun s (exec (.slotMask r) s) := by
  show IsRun s (execSlotMask r s); unfold execSlotMask reqRow1; exact Or.inl ⟨_, rfl⟩
theorem isRun_alignGroupSet (s : State) (r : Req) : IsRun s (exec (.alignGroupSet r) s) := by
  show IsRun s (execAlignGroupSet r s); unfold execAlignGroupSet; exact reqRow_isRun _ _ _ _ _ _
theorem isRun_alignGroupGet (s : State) (r : Req) : IsRun s (exec (.alignGroupGet r) s) := by
  show IsRun s (execAlignGroupGet r s); unfold execAlignGroupGet; exact reqRow_isRun _ _ _ _ _ _
theorem isRun_alignGroupDissolve (s : State) (r : Req) : IsRun s (exec (.alignGroupDissolve r) s) := by
  show IsRun s (execAlignGroupDissolve r s); unfold execAlignGroupDissolve; exact reqRow_isRun _ _ _ _ _ _
theorem isRun_netPortCfgSet (s : State) (r : Req) : IsRun s (exec (.netPortCfgSet r) s) := by
  show IsRun s (execNetPortCfgSet r s); unfold execNetPortCfgSet; exact reqRow_isRun _ _ _ _ _ _
theorem isRun_netPortCfgGet (s : State) (r : Req) : IsRun s (exec (.netPortCfgGet r) s) := by
  show IsRun s (execNetPortCfgGet r s); unfold execNetPortCfgGet; exact reqRow_isRun _ _ _ _ _ _
theorem isRun_netPortCfgFilter (s : State) (r : Req) : IsRun s (exec (.netPortCfgFilter r) s) := by
  show IsRun s (execNetPortCfgFilter r s); unfold execNetPortCfgFilter; exact reqRow_isRun _ _ _ _ _ _
theorem isRun_flowRxCfgSet (s : State) (r : Req) : IsRun s (exec (.flowRxCfgSet r) s) := by
  show IsRun s (execFlowRxCfgSet r s); unfold execFlowRxCfgSet; exact reqRow_isRun _ _ _ _ _ _
theorem isRun_flowRxCfgLeg (s : State) (r : Req) : IsRun s (exec (.flowRxCfgLeg r) s) := by
  show IsRun s (execFlowRxCfgLeg r s); unfold execFlowRxCfgLeg; exact reqRow_isRun _ _ _ _ _ _
theorem isRun_flowTxCfgSet (s : State) (r : Req) : IsRun s (exec (.flowTxCfgSet r) s) := by
  show IsRun s (execFlowTxCfgSet r s); unfold execFlowTxCfgSet; exact reqRow_isRun _ _ _ _ _ _
theorem isRun_flowTxCfgLeg (s : State) (r : Req) : IsRun s (exec (.flowTxCfgLeg r) s) := by
  show IsRun s (execFlowTxCfgLeg r s); unfold execFlowTxCfgLeg; exact reqRow_isRun _ _ _ _ _ _
theorem isRun_flowTxCfgSource (s : State) (r : Req) : IsRun s (exec (.flowTxCfgSource r) s) := by
  show IsRun s (execFlowTxCfgSource r s); unfold execFlowTxCfgSource; exact reqRow_isRun _ _ _ _ _ _
theorem isRun_flowState (s : State) (r : Req) : IsRun s (exec (.flowState r) s) := by
  show IsRun s (execFlowState r s); unfold execFlowState reqRow1; exact Or.inl ⟨_, rfl⟩
theorem isRun_gateListSet (s : State) (r : Req) : IsRun s (exec (.gateListSet r) s) := by
  show IsRun s (execGateListSet r s); unfold execGateListSet; exact reqRow_isRun _ _ _ _ _ _
theorem isRun_gateListClear (s : State) (r : Req) : IsRun s (exec (.gateListClear r) s) := by
  show IsRun s (execGateListClear r s); unfold execGateListClear; exact reqRow_isRun _ _ _ _ _ _
theorem isRun_twinCfgSet (s : State) (r : Req) : IsRun s (exec (.twinCfgSet r) s) := by
  show IsRun s (execTwinCfgSet r s); unfold execTwinCfgSet; exact reqRow_isRun _ _ _ _ _ _
theorem isRun_twinCfgGet (s : State) (r : Req) : IsRun s (exec (.twinCfgGet r) s) := by
  show IsRun s (execTwinCfgGet r s); unfold execTwinCfgGet; exact reqRow_isRun _ _ _ _ _ _
theorem isRun_twinState (s : State) (r : Req) : IsRun s (exec (.twinState r) s) := by
  show IsRun s (execTwinState r s); unfold execTwinState reqRow1; exact Or.inl ⟨_, rfl⟩
theorem isRun_twinSwap (s : State) (r : Req) : IsRun s (exec (.twinSwap r) s) := by
  show IsRun s (execTwinSwap r s); unfold execTwinSwap reqRow1; exact Or.inl ⟨_, rfl⟩
theorem isRun_graphLoad (s : State) (r : Req) : IsRun s (exec (.graphLoad r) s) := by
  show IsRun s (execGraphLoad r s); unfold execGraphLoad reqRow1; exact Or.inl ⟨_, rfl⟩
theorem isRun_graphStart (s : State) (r : Req) : IsRun s (exec (.graphStart r) s) := by
  show IsRun s (execGraphStart r s); unfold execGraphStart reqRow1; exact Or.inl ⟨_, rfl⟩
theorem isRun_graphStop (s : State) (r : Req) : IsRun s (exec (.graphStop r) s) := by
  show IsRun s (execGraphStop r s); unfold execGraphStop reqRow1; exact Or.inl ⟨_, rfl⟩
theorem isRun_taskCancel (s : State) (r : Req) : IsRun s (exec (.taskCancel r) s) := by
  show IsRun s (execTaskCancel r s); unfold execTaskCancel reqRow1; exact Or.inl ⟨_, rfl⟩
theorem isRun_fwUpdateBegin (s : State) (r : Req) : IsRun s (exec (.fwUpdateBegin r) s) := by
  show IsRun s (execFwUpdateBegin r s); unfold execFwUpdateBegin reqRow1; exact Or.inl ⟨_, rfl⟩
theorem isRun_fwChunk (s : State) (r : Req) : IsRun s (exec (.fwChunk r) s) := by
  show IsRun s (execFwChunk r s); unfold execFwChunk reqRow1; exact Or.inl ⟨_, rfl⟩
theorem isRun_fwCommit (s : State) (r : Req) : IsRun s (exec (.fwCommit r) s) := by
  show IsRun s (execFwCommit r s); unfold execFwCommit reqRow1; exact Or.inl ⟨_, rfl⟩
theorem isRun_fwSlotInfo (s : State) (r : Req) : IsRun s (exec (.fwSlotInfo r) s) := by
  show IsRun s (execFwSlotInfo r s); unfold execFwSlotInfo reqRow1; exact Or.inl ⟨_, rfl⟩
theorem isRun_selftestRun (s : State) (r : Req) : IsRun s (exec (.selftestRun r) s) := by
  show IsRun s (execSelftestRun r s); unfold execSelftestRun reqRow1; exact Or.inl ⟨_, rfl⟩
theorem isRun_hatreCellTake (s : State) (ch : Fin 8) : IsRun s (exec (.hatreCellTake ch) s) := by
  show IsRun s (execHatreCellTake ch s); unfold execHatreCellTake; exact Or.inl ⟨_, rfl⟩
theorem isRun_messageChainTimeout (s : State) (ch : Fin 8) : IsRun s (exec (.messageChainTimeout ch) s) := by
  show IsRun s (execMessageChainTimeout ch s); unfold execMessageChainTimeout; exact Or.inl ⟨_, rfl⟩
theorem isRun_outboundCellPlace (s : State) (ch : Fin 8) : IsRun s (exec (.outboundCellPlace ch) s) := by
  show IsRun s (execOutboundCellPlace ch s); unfold execOutboundCellPlace; exact Or.inl ⟨_, rfl⟩
theorem isRun_inPost (s : State) (via : Via) (ch : Fin 8) (v : Word) : IsRun s (exec (.inPost via ch v) s) := by
  show IsRun s (execInPost via ch v s); unfold execInPost; exact Or.inl ⟨_, rfl⟩
theorem isRun_outPop (s : State) (via : Via) (ch : Fin 8) (v : Word) : IsRun s (exec (.outPop via ch v) s) := by
  show IsRun s (execOutPop via ch v s); unfold execOutPop; exact Or.inl ⟨_, rfl⟩
theorem isRun_senderReset (s : State) (via : Via) (ch : Fin 8) (v : Word) : IsRun s (exec (.senderReset via ch v) s) := by
  show IsRun s (execSenderReset via ch v s); unfold execSenderReset; exact Or.inl ⟨_, rfl⟩
theorem isRun_mbxIrqWrite (s : State) (via : Via) (ch : Fin 8) (v : Word) : IsRun s (exec (.mbxIrqWrite via ch v) s) := by
  show IsRun s (execMbxIrqWrite via ch v s); unfold execMbxIrqWrite; exact Or.inl ⟨_, rfl⟩
theorem isRun_warmReset (s : State) (via : Via) (v : Word) : IsRun s (exec (.warmReset via v) s) := by
  show IsRun s (execWarmReset via v s); unfold execWarmReset; exact Or.inl ⟨_, rfl⟩
theorem isRun_ctrlRestart (s : State) (via : Via) (v : Word) : IsRun s (exec (.ctrlRestart via v) s) := by
  show IsRun s (execCtrlRestart via v s); unfold execCtrlRestart; exact Or.inl ⟨_, rfl⟩
theorem isRun_hifIrqStatusWrite (s : State) (via : Via) (v : Word) : IsRun s (exec (.hifIrqStatusWrite via v) s) := by
  show IsRun s (execHifIrqStatusWrite via v s); unfold execHifIrqStatusWrite; exact Or.inl ⟨_, rfl⟩
theorem isRun_hifFaultWrite (s : State) (via : Via) (v : Word) : IsRun s (exec (.hifFaultWrite via v) s) := by
  show IsRun s (execHifFaultWrite via v s); unfold execHifFaultWrite; exact Or.inl ⟨_, rfl⟩
theorem isRun_msiXUnmask (s : State) (vector : Fin 16) : IsRun s (exec (.msiXUnmask vector) s) := by
  show IsRun s (execMsiXUnmask vector s); unfold execMsiXUnmask; exact Or.inl ⟨_, rfl⟩
theorem isRun_dblH2dSet (s : State) (via : Via) (v : Word) : IsRun s (exec (.dblH2dSet via v) s) := by
  show IsRun s (execDblH2dSet via v s); unfold execDblH2dSet; exact Or.inl ⟨_, rfl⟩
theorem isRun_dblD2hWrite (s : State) (via : Via) (v : Word) : IsRun s (exec (.dblD2hWrite via v) s) := by
  show IsRun s (execDblD2hWrite via v s); unfold execDblD2hWrite; exact Or.inl ⟨_, rfl⟩
theorem isRun_timeSnapshot (s : State) (via : Via) (now' : Elapsed) : IsRun s (exec (.timeSnapshot via now') s) := by
  show IsRun s (execTimeSnapshot via now' s); unfold execTimeSnapshot; exact Or.inl ⟨_, rfl⟩
theorem isRun_timeIrqWrite (s : State) (via : Via) (v : Word) : IsRun s (exec (.timeIrqWrite via v) s) := by
  show IsRun s (execTimeIrqWrite via v s); unfold execTimeIrqWrite; exact Or.inl ⟨_, rfl⟩
theorem isRun_capW3Read (s : State) (via : Via) (i : Fin 4) : IsRun s (exec (.capW3Read via i) s) := by
  show IsRun s (execCapW3Read via i s); unfold execCapW3Read; exact Or.inl ⟨_, rfl⟩
theorem isRun_senseButtonRead (s : State) (via : Via) : IsRun s (exec (.senseButtonRead via) s) := by
  show IsRun s (execSenseButtonRead via s); unfold execSenseButtonRead; exact Or.inl ⟨_, rfl⟩
theorem isRun_grHoldRead (s : State) (column : Nat) : IsRun s (exec (.grHoldRead column) s) := by
  show IsRun s (execGrHoldRead column s); unfold execGrHoldRead; exact Or.inl ⟨_, rfl⟩
theorem isRun_compLoRead (s : State) : IsRun s (exec (.compLoRead) s) := by
  show IsRun s (execCompLoRead s); unfold execCompLoRead; exact Or.inl ⟨_, rfl⟩
theorem isRun_descDataAccess (s : State) (write : Option Word) : IsRun s (exec (.descDataAccess write) s) := by
  show IsRun s (execDescDataAccess write s); unfold execDescDataAccess; exact Or.inl ⟨_, rfl⟩
theorem isRun_netStatusRead (s : State) (via : Via) (port : Fin 4) : IsRun s (exec (.netStatusRead via port) s) := by
  show IsRun s (execNetStatusRead via port s); unfold execNetStatusRead; exact Or.inl ⟨_, rfl⟩
theorem isRun_halfRxRead (s : State) (via : Via) (port : Fin 4) : IsRun s (exec (.halfRxRead via port) s) := by
  show IsRun s (execHalfRxRead via port s); unfold execHalfRxRead; exact Or.inl ⟨_, rfl⟩
theorem isRun_halfTxRead (s : State) (via : Via) (port : Fin 4) : IsRun s (exec (.halfTxRead via port) s) := by
  show IsRun s (execHalfTxRead via port s); unfold execHalfTxRead; exact Or.inl ⟨_, rfl⟩
theorem isRun_ringTailWrite (s : State) (via : Via) (ring : Fin 8) (v : Word) : IsRun s (exec (.ringTailWrite via ring v) s) := by
  show IsRun s (execRingTailWrite via ring v s); unfold execRingTailWrite; exact Or.inl ⟨_, rfl⟩
theorem isRun_ringCtrlWrite (s : State) (via : Via) (ring : Fin 8) (v : Word) : IsRun s (exec (.ringCtrlWrite via ring v) s) := by
  show IsRun s (execRingCtrlWrite via ring v s); unfold execRingCtrlWrite; exact Or.inl ⟨_, rfl⟩
theorem isRun_tdmMaskArm (s : State) (port : Fin 8) (v : Word) : IsRun s (exec (.tdmMaskArm port v) s) := by
  show IsRun s (execTdmMaskArm port v s); unfold execTdmMaskArm; exact Or.inl ⟨_, rfl⟩
theorem isRun_dmaCmdStart (s : State) (via : Via) (ch : Fin 32) : IsRun s (exec (.dmaCmdStart via ch) s) := by
  show IsRun s (execDmaCmdStart via ch s); unfold execDmaCmdStart; exact Or.inl ⟨_, rfl⟩
theorem isRun_dmaCmdAbort (s : State) (via : Via) (ch : Fin 32) : IsRun s (exec (.dmaCmdAbort via ch) s) := by
  show IsRun s (execDmaCmdAbort via ch s); unfold execDmaCmdAbort; exact Or.inl ⟨_, rfl⟩
theorem isRun_dmaCmdPause (s : State) (via : Via) (ch : Fin 32) : IsRun s (exec (.dmaCmdPause via ch) s) := by
  show IsRun s (execDmaCmdPause via ch s); unfold execDmaCmdPause; exact Or.inl ⟨_, rfl⟩
theorem isRun_dmaCmdResume (s : State) (via : Via) (ch : Fin 32) : IsRun s (exec (.dmaCmdResume via ch) s) := by
  show IsRun s (execDmaCmdResume via ch s); unfold execDmaCmdResume; exact Or.inl ⟨_, rfl⟩
theorem isRun_dmaIrqWrite (s : State) (via : Via) (ch : Fin 32) (v : Word) : IsRun s (exec (.dmaIrqWrite via ch v) s) := by
  show IsRun s (execDmaIrqWrite via ch v s); unfold execDmaIrqWrite; exact Or.inl ⟨_, rfl⟩
theorem isRun_cqTailWrite (s : State) (via : Via) (ch : Fin 32) (v : Word) : IsRun s (exec (.cqTailWrite via ch v) s) := by
  show IsRun s (execCqTailWrite via ch v s); unfold execCqTailWrite; exact Or.inl ⟨_, rfl⟩
theorem isRun_registerWrite (s : State) (via : Via) (addr : Word) (v : Word) (be : BitVec 4) : IsRun s (exec (.registerWrite via addr v be) s) := by
  show IsRun s (execRegisterWrite via addr v be s); unfold execRegisterWrite; exact Or.inl ⟨_, rfl⟩
theorem isRun_spiTransaction (s : State) (t : SpiIn) : IsRun s (exec (.spiTransaction t) s) := by
  show IsRun s (execSpiTransaction t s); unfold execSpiTransaction; exact Or.inl ⟨_, rfl⟩
theorem isRun_i2cRead (s : State) (off : Half) (n : Nat) : IsRun s (exec (.i2cRead off n) s) := by
  show IsRun s (execI2cRead off n s); unfold execI2cRead; exact Or.inl ⟨_, rfl⟩
theorem isRun_pcieReset (s : State) : IsRun s (exec (.pcieReset) s) := by
  show IsRun s (execPcieReset s); unfold execPcieReset; exact Or.inl ⟨_, rfl⟩
theorem isRun_perstN (s : State) : IsRun s (exec (.perstN) s) := by
  show IsRun s (execPerstN s); unfold execPerstN; exact Or.inl ⟨_, rfl⟩
theorem isRun_controlProcessorFault (s : State) (cause : Nat) : IsRun s (exec (.controlProcessorFault cause) s) := by
  show IsRun s (execControlProcessorFault cause s); unfold execControlProcessorFault; exact Or.inl ⟨_, rfl⟩
theorem isRun_watchdog (s : State) : IsRun s (exec (.watchdog) s) := by
  show IsRun s (execWatchdog s); unfold execWatchdog; exact Or.inl ⟨_, rfl⟩
theorem isRun_ctrlRestartComplete (s : State) : IsRun s (exec (.ctrlRestartComplete) s) := by
  show IsRun s (execCtrlRestartComplete s); unfold execCtrlRestartComplete; exact Or.inl ⟨_, rfl⟩
theorem isRun_vddAonRise (s : State) (straps : Straps) : IsRun s (exec (.vddAonRise straps) s) := by
  show IsRun s (execVddAonRise straps s); unfold execVddAonRise; exact Or.inl ⟨_, rfl⟩
theorem isRun_vddAonLoss (s : State) : IsRun s (exec (.vddAonLoss) s) := by
  show IsRun s (execVddAonLoss s); unfold execVddAonLoss; exact Or.inl ⟨_, rfl⟩
theorem isRun_resetNAssert (s : State) : IsRun s (exec (.resetNAssert) s) := by
  show IsRun s (execResetNAssert s); unfold execResetNAssert; exact Or.inl ⟨_, rfl⟩
theorem isRun_resetNRelease (s : State) (straps : Straps) : IsRun s (exec (.resetNRelease straps) s) := by
  show IsRun s (execResetNRelease straps s); unfold execResetNRelease; exact Or.inl ⟨_, rfl⟩
theorem isRun_refclkStop (s : State) : IsRun s (exec (.refclkStop) s) := by
  show IsRun s (execRefclkStop s); unfold execRefclkStop; exact Or.inl ⟨_, rfl⟩
theorem isRun_refclkRestored (s : State) : IsRun s (exec (.refclkRestored) s) := by
  show IsRun s (execRefclkRestored s); unfold execRefclkRestored; exact Or.inl ⟨_, rfl⟩
theorem isRun_bootStepFail (s : State) (reason : Byte) : IsRun s (exec (.bootStepFail reason) s) := by
  show IsRun s (execBootStepFail reason s); unfold execBootStepFail; exact Or.inl ⟨_, rfl⟩
theorem isRun_bootStartSuccess (s : State) : IsRun s (exec (.bootStartSuccess) s) := by
  show IsRun s (execBootStartSuccess s); unfold execBootStartSuccess; exact Or.inl ⟨_, rfl⟩
theorem isRun_hostImageLoad (s : State) (image : List Byte) : IsRun s (exec (.hostImageLoad image) s) := by
  show IsRun s (execHostImageLoad image s); unfold execHostImageLoad; exact Or.inl ⟨_, rfl⟩
theorem isRun_hostBootTimeout (s : State) : IsRun s (exec (.hostBootTimeout) s) := by
  show IsRun s (execHostBootTimeout s); unfold execHostBootTimeout; exact Or.inl ⟨_, rfl⟩
theorem isRun_wake (s : State) (pin dbl : Bool) : IsRun s (exec (.wake pin dbl) s) := by
  show IsRun s (execWake pin dbl s); unfold execWake; exact Or.inl ⟨_, rfl⟩
theorem isRun_modeTransitionComplete (s : State) (timedOut : Bool) : IsRun s (exec (.modeTransitionComplete timedOut) s) := by
  show IsRun s (execModeTransitionComplete timedOut s); unfold execModeTransitionComplete; exact Or.inl ⟨_, rfl⟩
theorem isRun_powerDomainSwitch (s : State) (pd : Fin 16) : IsRun s (exec (.powerDomainSwitch pd) s) := by
  show IsRun s (execPowerDomainSwitch pd s); unfold execPowerDomainSwitch; exact Or.inl ⟨_, rfl⟩
theorem isRun_domainBoundary (s : State) (d : Fin 3) (m : Boundary) : IsRun s (exec (.domainBoundary d m) s) := by
  show IsRun s (execDomainBoundary d m s); unfold execDomainBoundary; exact Or.inl ⟨_, rfl⟩
theorem isRun_domainLock (s : State) (d : Fin 3) (dt : DT) : IsRun s (exec (.domainLock d dt) s) := by
  show IsRun s (execDomainLock d dt s); unfold execDomainLock; exact Or.inl ⟨_, rfl⟩
theorem isRun_acquireTimeout (s : State) (d : Fin 3) : IsRun s (exec (.acquireTimeout d) s) := by
  show IsRun s (execAcquireTimeout d s); unfold execAcquireTimeout; exact Or.inl ⟨_, rfl⟩
theorem isRun_holdoverExpired (s : State) (d : Fin 3) : IsRun s (exec (.holdoverExpired d) s) := by
  show IsRun s (execHoldoverExpired d s); unfold execHoldoverExpired; exact Or.inl ⟨_, rfl⟩
theorem isRun_slewingClear (s : State) (d : Fin 3) : IsRun s (exec (.slewingClear d) s) := by
  show IsRun s (execSlewingClear d s); unfold execSlewingClear; exact Or.inl ⟨_, rfl⟩
theorem isRun_closingStateClear (s : State) (d : Fin 3) : IsRun s (exec (.closingStateClear d) s) := by
  show IsRun s (execClosingStateClear d s); unfold execClosingStateClear; exact Or.inl ⟨_, rfl⟩
theorem isRun_realignComplete (s : State) (d : Fin 3) : IsRun s (exec (.realignComplete d) s) := by
  show IsRun s (execRealignComplete d s); unfold execRealignComplete; exact Or.inl ⟨_, rfl⟩
theorem isRun_windowDeadline (s : State) (d : Fin 3) (window : Fin 8) (missed : List Nat) : IsRun s (exec (.windowDeadline d window missed) s) := by
  show IsRun s (execWindowDeadline d window missed s); unfold execWindowDeadline; exact Or.inl ⟨_, rfl⟩
theorem isRun_blockPublish (s : State) (d : Fin 3) : IsRun s (exec (.blockPublish d) s) := by
  show IsRun s (execBlockPublish d s); unfold execBlockPublish; exact Or.inl ⟨_, rfl⟩
theorem isRun_columnRampIn (s : State) (column : Nat) : IsRun s (exec (.columnRampIn column) s) := by
  show IsRun s (execColumnRampIn column s); unfold execColumnRampIn; exact Or.inl ⟨_, rfl⟩
theorem isRun_matrixGroupComplete (s : State) (d : Fin 3) (group : Fin 20) : IsRun s (exec (.matrixGroupComplete d group) s) := by
  show IsRun s (execMatrixGroupComplete d group s); unfold execMatrixGroupComplete; exact Or.inl ⟨_, rfl⟩
theorem isRun_taskDispatch (s : State) (tile : Fin 8) : IsRun s (exec (.taskDispatch tile) s) := by
  show IsRun s (execTaskDispatch tile s); unfold execTaskDispatch; exact Or.inl ⟨_, rfl⟩
theorem isRun_storeErrorResponse (s : State) (core : Fin 64) (addr storePc : Word) : IsRun s (exec (.storeErrorResponse core addr storePc) s) := by
  show IsRun s (execStoreErrorResponse core addr storePc s); unfold execStoreErrorResponse; exact Or.inl ⟨_, rfl⟩
theorem isRun_vadd (s : State) (core : Fin 64) (i : Issue) : IsRun s (exec (.vadd core i) s) := by
  show IsRun s (execVadd core i s); unfold execVadd; exact coreRow_isRun _ _ _ _ _
theorem isRun_vsub (s : State) (core : Fin 64) (i : Issue) : IsRun s (exec (.vsub core i) s) := by
  show IsRun s (execVsub core i s); unfold execVsub; exact coreRow_isRun _ _ _ _ _
theorem isRun_vmin (s : State) (core : Fin 64) (i : Issue) : IsRun s (exec (.vmin core i) s) := by
  show IsRun s (execVmin core i s); unfold execVmin; exact coreRow_isRun _ _ _ _ _
theorem isRun_vmax (s : State) (core : Fin 64) (i : Issue) : IsRun s (exec (.vmax core i) s) := by
  show IsRun s (execVmax core i s); unfold execVmax; exact coreRow_isRun _ _ _ _ _
theorem isRun_vabs (s : State) (core : Fin 64) (i : Issue) : IsRun s (exec (.vabs core i) s) := by
  show IsRun s (execVabs core i s); unfold execVabs; exact coreRow_isRun _ _ _ _ _
theorem isRun_vneg (s : State) (core : Fin 64) (i : Issue) : IsRun s (exec (.vneg core i) s) := by
  show IsRun s (execVneg core i s); unfold execVneg; exact coreRow_isRun _ _ _ _ _
theorem isRun_vand (s : State) (core : Fin 64) (i : Issue) : IsRun s (exec (.vand core i) s) := by
  show IsRun s (execVand core i s); unfold execVand; exact coreRow_isRun _ _ _ _ _
theorem isRun_vor (s : State) (core : Fin 64) (i : Issue) : IsRun s (exec (.vor core i) s) := by
  show IsRun s (execVor core i s); unfold execVor; exact coreRow_isRun _ _ _ _ _
theorem isRun_vxor (s : State) (core : Fin 64) (i : Issue) : IsRun s (exec (.vxor core i) s) := by
  show IsRun s (execVxor core i s); unfold execVxor; exact coreRow_isRun _ _ _ _ _
theorem isRun_vshl (s : State) (core : Fin 64) (i : Issue) : IsRun s (exec (.vshl core i) s) := by
  show IsRun s (execVshl core i s); unfold execVshl; exact coreRow_isRun _ _ _ _ _
theorem isRun_vasr (s : State) (core : Fin 64) (i : Issue) : IsRun s (exec (.vasr core i) s) := by
  show IsRun s (execVasr core i s); unfold execVasr; exact coreRow_isRun _ _ _ _ _
theorem isRun_vrsr (s : State) (core : Fin 64) (i : Issue) : IsRun s (exec (.vrsr core i) s) := by
  show IsRun s (execVrsr core i s); unfold execVrsr; exact coreRow_isRun _ _ _ _ _
theorem isRun_vlsr (s : State) (core : Fin 64) (i : Issue) : IsRun s (exec (.vlsr core i) s) := by
  show IsRun s (execVlsr core i s); unfold execVlsr; exact coreRow_isRun _ _ _ _ _
theorem isRun_vmov (s : State) (core : Fin 64) (i : Issue) : IsRun s (exec (.vmov core i) s) := by
  show IsRun s (execVmov core i s); unfold execVmov; exact coreRow_isRun _ _ _ _ _
theorem isRun_valign (s : State) (core : Fin 64) (i : Issue) : IsRun s (exec (.valign core i) s) := by
  show IsRun s (execValign core i s); unfold execValign; exact coreRow_isRun _ _ _ _ _
theorem isRun_vcmplt (s : State) (core : Fin 64) (i : Issue) : IsRun s (exec (.vcmplt core i) s) := by
  show IsRun s (execVcmplt core i s); unfold execVcmplt; exact coreRow_isRun _ _ _ _ _
theorem isRun_vsel (s : State) (core : Fin 64) (i : Issue) : IsRun s (exec (.vsel core i) s) := by
  show IsRun s (execVsel core i s); unfold execVsel; exact coreRow_isRun _ _ _ _ _
theorem isRun_amul (s : State) (core : Fin 64) (i : Issue) : IsRun s (exec (.amul core i) s) := by
  show IsRun s (execAmul core i s); unfold execAmul; exact coreRow_isRun _ _ _ _ _
theorem isRun_amac (s : State) (core : Fin 64) (i : Issue) : IsRun s (exec (.amac core i) s) := by
  show IsRun s (execAmac core i s); unfold execAmac; exact coreRow_isRun _ _ _ _ _
theorem isRun_amsu (s : State) (core : Fin 64) (i : Issue) : IsRun s (exec (.amsu core i) s) := by
  show IsRun s (execAmsu core i s); unfold execAmsu; exact coreRow_isRun _ _ _ _ _
theorem isRun_aadd (s : State) (core : Fin 64) (i : Issue) : IsRun s (exec (.aadd core i) s) := by
  show IsRun s (execAadd core i s); unfold execAadd; exact coreRow_isRun _ _ _ _ _
theorem isRun_aclr (s : State) (core : Fin 64) (i : Issue) : IsRun s (exec (.aclr core i) s) := by
  show IsRun s (execAclr core i s); unfold execAclr; exact coreRow_isRun _ _ _ _ _
theorem isRun_ald (s : State) (core : Fin 64) (i : Issue) : IsRun s (exec (.ald core i) s) := by
  show IsRun s (execAld core i s); unfold execAld; exact coreRow_isRun _ _ _ _ _
theorem isRun_asum (s : State) (core : Fin 64) (i : Issue) : IsRun s (exec (.asum core i) s) := by
  show IsRun s (execAsum core i s); unfold execAsum; exact coreRow_isRun _ _ _ _ _
theorem isRun_amov (s : State) (core : Fin 64) (i : Issue) : IsRun s (exec (.amov core i) s) := by
  show IsRun s (execAmov core i s); unfold execAmov; exact coreRow_isRun _ _ _ _ _
theorem isRun_ext (s : State) (core : Fin 64) (i : Issue) : IsRun s (exec (.ext core i) s) := by
  show IsRun s (execExt core i s); unfold execExt; exact coreRow_isRun _ _ _ _ _
theorem isRun_add (s : State) (core : Fin 64) (i : Issue) : IsRun s (exec (.add core i) s) := by
  show IsRun s (execAdd core i s); unfold execAdd; exact coreRow_isRun _ _ _ _ _
theorem isRun_sub (s : State) (core : Fin 64) (i : Issue) : IsRun s (exec (.sub core i) s) := by
  show IsRun s (execSub core i s); unfold execSub; exact coreRow_isRun _ _ _ _ _
theorem isRun_and (s : State) (core : Fin 64) (i : Issue) : IsRun s (exec (.and core i) s) := by
  show IsRun s (execAnd core i s); unfold execAnd; exact coreRow_isRun _ _ _ _ _
theorem isRun_or (s : State) (core : Fin 64) (i : Issue) : IsRun s (exec (.or core i) s) := by
  show IsRun s (execOr core i s); unfold execOr; exact coreRow_isRun _ _ _ _ _
theorem isRun_xor (s : State) (core : Fin 64) (i : Issue) : IsRun s (exec (.xor core i) s) := by
  show IsRun s (execXor core i s); unfold execXor; exact coreRow_isRun _ _ _ _ _
theorem isRun_shl (s : State) (core : Fin 64) (i : Issue) : IsRun s (exec (.shl core i) s) := by
  show IsRun s (execShl core i s); unfold execShl; exact coreRow_isRun _ _ _ _ _
theorem isRun_asr (s : State) (core : Fin 64) (i : Issue) : IsRun s (exec (.asr core i) s) := by
  show IsRun s (execAsr core i s); unfold execAsr; exact coreRow_isRun _ _ _ _ _
theorem isRun_lsr (s : State) (core : Fin 64) (i : Issue) : IsRun s (exec (.lsr core i) s) := by
  show IsRun s (execLsr core i s); unfold execLsr; exact coreRow_isRun _ _ _ _ _
theorem isRun_mul (s : State) (core : Fin 64) (i : Issue) : IsRun s (exec (.mul core i) s) := by
  show IsRun s (execMul core i s); unfold execMul; exact coreRow_isRun _ _ _ _ _
theorem isRun_slt (s : State) (core : Fin 64) (i : Issue) : IsRun s (exec (.slt core i) s) := by
  show IsRun s (execSlt core i s); unfold execSlt; exact coreRow_isRun _ _ _ _ _
theorem isRun_sltu (s : State) (core : Fin 64) (i : Issue) : IsRun s (exec (.sltu core i) s) := by
  show IsRun s (execSltu core i s); unfold execSltu; exact coreRow_isRun _ _ _ _ _
theorem isRun_jr (s : State) (core : Fin 64) (i : Issue) : IsRun s (exec (.jr core i) s) := by
  show IsRun s (execJr core i s); unfold execJr; exact coreRow_isRun _ _ _ _ _
theorem isRun_callr (s : State) (core : Fin 64) (i : Issue) : IsRun s (exec (.callr core i) s) := by
  show IsRun s (execCallr core i s); unfold execCallr; exact coreRow_isRun _ _ _ _ _
theorem isRun_addi (s : State) (core : Fin 64) (i : Issue) : IsRun s (exec (.addi core i) s) := by
  show IsRun s (execAddi core i s); unfold execAddi; exact coreRow_isRun _ _ _ _ _
theorem isRun_movi (s : State) (core : Fin 64) (i : Issue) : IsRun s (exec (.movi core i) s) := by
  show IsRun s (execMovi core i s); unfold execMovi; exact coreRow_isRun _ _ _ _ _
theorem isRun_movhi (s : State) (core : Fin 64) (i : Issue) : IsRun s (exec (.movhi core i) s) := by
  show IsRun s (execMovhi core i s); unfold execMovhi; exact coreRow_isRun _ _ _ _ _
theorem isRun_mtp (s : State) (core : Fin 64) (i : Issue) : IsRun s (exec (.mtp core i) s) := by
  show IsRun s (execMtp core i s); unfold execMtp; exact coreRow_isRun _ _ _ _ _
theorem isRun_mfp (s : State) (core : Fin 64) (i : Issue) : IsRun s (exec (.mfp core i) s) := by
  show IsRun s (execMfp core i s); unfold execMfp; exact coreRow_isRun _ _ _ _ _
theorem isRun_mtn (s : State) (core : Fin 64) (i : Issue) : IsRun s (exec (.mtn core i) s) := by
  show IsRun s (execMtn core i s); unfold execMtn; exact coreRow_isRun _ _ _ _ _
theorem isRun_mfn (s : State) (core : Fin 64) (i : Issue) : IsRun s (exec (.mfn core i) s) := by
  show IsRun s (execMfn core i s); unfold execMfn; exact coreRow_isRun _ _ _ _ _
theorem isRun_mtl (s : State) (core : Fin 64) (i : Issue) : IsRun s (exec (.mtl core i) s) := by
  show IsRun s (execMtl core i s); unfold execMtl; exact coreRow_isRun _ _ _ _ _
theorem isRun_mfl (s : State) (core : Fin 64) (i : Issue) : IsRun s (exec (.mfl core i) s) := by
  show IsRun s (execMfl core i s); unfold execMfl; exact coreRow_isRun _ _ _ _ _
theorem isRun_vins (s : State) (core : Fin 64) (i : Issue) : IsRun s (exec (.vins core i) s) := by
  show IsRun s (execVins core i s); unfold execVins; exact coreRow_isRun _ _ _ _ _
theorem isRun_vext (s : State) (core : Fin 64) (i : Issue) : IsRun s (exec (.vext core i) s) := by
  show IsRun s (execVext core i s); unfold execVext; exact coreRow_isRun _ _ _ _ _
theorem isRun_vbc (s : State) (core : Fin 64) (i : Issue) : IsRun s (exec (.vbc core i) s) := by
  show IsRun s (execVbc core i s); unfold execVbc; exact coreRow_isRun _ _ _ _ _
theorem isRun_mts (s : State) (core : Fin 64) (i : Issue) : IsRun s (exec (.mts core i) s) := by
  show IsRun s (execMts core i s); unfold execMts; exact coreRow_isRun _ _ _ _ _
theorem isRun_mfs (s : State) (core : Fin 64) (i : Issue) : IsRun s (exec (.mfs core i) s) := by
  show IsRun s (execMfs core i s); unfold execMfs; exact coreRow_isRun _ _ _ _ _
theorem isRun_br (s : State) (core : Fin 64) (i : Issue) : IsRun s (exec (.br core i) s) := by
  show IsRun s (execBr core i s); unfold execBr; exact coreRow_isRun _ _ _ _ _
theorem isRun_call (s : State) (core : Fin 64) (i : Issue) : IsRun s (exec (.call core i) s) := by
  show IsRun s (execCall core i s); unfold execCall; exact coreRow_isRun _ _ _ _ _
theorem isRun_rep (s : State) (core : Fin 64) (i : Issue) : IsRun s (exec (.rep core i) s) := by
  show IsRun s (execRep core i s); unfold execRep; exact coreRow_isRun _ _ _ _ _
theorem isRun_ldv (s : State) (core : Fin 64) (i : Issue) : IsRun s (exec (.ldv core i) s) := by
  show IsRun s (execLdv core i s); unfold execLdv; exact coreRow_isRun _ _ _ _ _
theorem isRun_stv (s : State) (core : Fin 64) (i : Issue) : IsRun s (exec (.stv core i) s) := by
  show IsRun s (execStv core i s); unfold execStv; exact coreRow_isRun _ _ _ _ _
theorem isRun_lds (s : State) (core : Fin 64) (i : Issue) : IsRun s (exec (.lds core i) s) := by
  show IsRun s (execLds core i s); unfold execLds; exact coreRow_isRun _ _ _ _ _
theorem isRun_sts (s : State) (core : Fin 64) (i : Issue) : IsRun s (exec (.sts core i) s) := by
  show IsRun s (execSts core i s); unfold execSts; exact coreRow_isRun _ _ _ _ _
theorem isRun_ldb (s : State) (core : Fin 64) (i : Issue) : IsRun s (exec (.ldb core i) s) := by
  show IsRun s (execLdb core i s); unfold execLdb; exact coreRow_isRun _ _ _ _ _
theorem isRun_nop (s : State) (core : Fin 64) (i : Issue) : IsRun s (exec (.nop core i) s) := by
  show IsRun s (execNop core i s); unfold execNop; exact coreRow_isRun _ _ _ _ _
theorem isRun_tfetch (s : State) (core : Fin 64) (i : Issue) : IsRun s (exec (.tfetch core i) s) := by
  show IsRun s (execTfetch core i s); unfold execTfetch; exact coreRow_isRun _ _ _ _ _
theorem isRun_tdone (s : State) (core : Fin 64) (i : Issue) : IsRun s (exec (.tdone core i) s) := by
  show IsRun s (execTdone core i s); unfold execTdone; exact coreRow_isRun _ _ _ _ _
theorem isRun_sync (s : State) (core : Fin 64) (i : Issue) : IsRun s (exec (.sync core i) s) := by
  show IsRun s (execSync core i s); unfold execSync; exact coreRow_isRun _ _ _ _ _
theorem isRun_trap (s : State) (core : Fin 64) (i : Issue) : IsRun s (exec (.trap core i) s) := by
  show IsRun s (execTrap core i s); unfold execTrap; exact coreRow_isRun _ _ _ _ _
theorem isRun_move (s : State) (ch : Fin 32) (i : DmaIssue) : IsRun s (exec (.move ch i) s) := by
  show IsRun s (execMove ch i s); unfold execMove; exact dmaRow_isRun _ _ _ _ _
theorem isRun_loop (s : State) (ch : Fin 32) (i : DmaIssue) : IsRun s (exec (.loop ch i) s) := by
  show IsRun s (execLoop ch i s); unfold execLoop; exact dmaRow_isRun _ _ _ _ _
theorem isRun_wait (s : State) (ch : Fin 32) (i : DmaIssue) : IsRun s (exec (.wait ch i) s) := by
  show IsRun s (execWait ch i s); unfold execWait; exact dmaRow_isRun _ _ _ _ _
theorem isRun_signal (s : State) (ch : Fin 32) (i : DmaIssue) : IsRun s (exec (.signal ch i) s) := by
  show IsRun s (execSignal ch i s); unfold execSignal; exact dmaRow_isRun _ _ _ _ _
theorem isRun_stop (s : State) (ch : Fin 32) (i : DmaIssue) : IsRun s (exec (.stop ch i) s) := by
  show IsRun s (execStop ch i s); unfold execStop; exact dmaRow_isRun _ _ _ _ _
theorem isRun_dmaBurst (s : State) (ch : Fin 32) (b : BurstIn) : IsRun s (exec (.dmaBurst ch b) s) := by
  show IsRun s (execDmaBurst ch b s); unfold execDmaBurst; exact Or.inl ⟨_, rfl⟩
theorem isRun_waitConditionMet (s : State) (ch : Fin 32) : IsRun s (exec (.waitConditionMet ch) s) := by
  show IsRun s (execWaitConditionMet ch s); unfold execWaitConditionMet; exact Or.inl ⟨_, rfl⟩
theorem isRun_waitTimeout (s : State) (ch : Fin 32) : IsRun s (exec (.waitTimeout ch) s) := by
  show IsRun s (execWaitTimeout ch s); unfold execWaitTimeout; exact Or.inl ⟨_, rfl⟩
theorem isRun_matrixGrant (s : State) (idle : Bool) (accesses : List MatrixReq) : IsRun s (exec (.matrixGrant idle accesses) s) := by
  show IsRun s (execMatrixGrant idle accesses s); unfold execMatrixGrant; exact Or.inl ⟨_, rfl⟩
theorem isRun_layoutCompileComplete (s : State) : IsRun s (exec (.layoutCompileComplete) s) := by
  show IsRun s (execLayoutCompileComplete s); unfold execLayoutCompileComplete; exact Or.inl ⟨_, rfl⟩
theorem isRun_firLoadComplete (s : State) : IsRun s (exec (.firLoadComplete) s) := by
  show IsRun s (execFirLoadComplete s); unfold execFirLoadComplete; exact Or.inl ⟨_, rfl⟩
theorem isRun_graphLoadComplete (s : State) (slot : Fin 2) : IsRun s (exec (.graphLoadComplete slot) s) := by
  show IsRun s (execGraphLoadComplete slot s); unfold execGraphLoadComplete; exact Or.inl ⟨_, rfl⟩
theorem isRun_bulkFetchComplete (s : State) (ch : Fin 8) (data : List Byte) (err : Bool) : IsRun s (exec (.bulkFetchComplete ch data err) s) := by
  show IsRun s (execBulkFetchComplete ch data err s); unfold execBulkFetchComplete; exact Or.inl ⟨_, rfl⟩
theorem isRun_bulkFetchTimeout (s : State) (ch : Fin 8) : IsRun s (exec (.bulkFetchTimeout ch) s) := by
  show IsRun s (execBulkFetchTimeout ch s); unfold execBulkFetchTimeout; exact Or.inl ⟨_, rfl⟩
theorem isRun_selftestComplete (s : State) (res : TestResult) : IsRun s (exec (.selftestComplete res) s) := by
  show IsRun s (execSelftestComplete res s); unfold execSelftestComplete; exact Or.inl ⟨_, rfl⟩
theorem isRun_busUnbindRampEnd (s : State) (column : Nat) : IsRun s (exec (.busUnbindRampEnd column) s) := by
  show IsRun s (execBusUnbindRampEnd column s); unfold execBusUnbindRampEnd; exact Or.inl ⟨_, rfl⟩
theorem isRun_oldLayoutUnbind (s : State) : IsRun s (exec (.oldLayoutUnbind) s) := by
  show IsRun s (execOldLayoutUnbind s); unfold execOldLayoutUnbind; exact Or.inl ⟨_, rfl⟩
theorem isRun_objectDisableRelease (s : State) (object : Nat) : IsRun s (exec (.objectDisableRelease object) s) := by
  show IsRun s (execObjectDisableRelease object s); unfold execObjectDisableRelease; exact Or.inl ⟨_, rfl⟩
theorem isRun_ptpMessageRx (s : State) (port : Fin 4) (m : PtpRx) : IsRun s (exec (.ptpMessageRx port m) s) := by
  show IsRun s (execPtpMessageRx port m s); unfold execPtpMessageRx; exact Or.inl ⟨_, rfl⟩
theorem isRun_announceReceiptTimeout (s : State) (port : Fin 4) : IsRun s (exec (.announceReceiptTimeout port) s) := by
  show IsRun s (execAnnounceReceiptTimeout port s); unfold execAnnounceReceiptTimeout; exact Or.inl ⟨_, rfl⟩
theorem isRun_ptpMessageTx (s : State) (port : Fin 4) (kind : Fin 3) : IsRun s (exec (.ptpMessageTx port kind) s) := by
  show IsRun s (execPtpMessageTx port kind s); unfold execPtpMessageTx; exact Or.inl ⟨_, rfl⟩
theorem isRun_pulseEdge (s : State) (output : Fin 8) : IsRun s (exec (.pulseEdge output) s) := by
  show IsRun s (execPulseEdge output s); unfold execPulseEdge; exact Or.inl ⟨_, rfl⟩
theorem isRun_pulseCfgTakeEffect (s : State) (output : Fin 8) : IsRun s (exec (.pulseCfgTakeEffect output) s) := by
  show IsRun s (execPulseCfgTakeEffect output s); unfold execPulseCfgTakeEffect; exact Or.inl ⟨_, rfl⟩
theorem isRun_captureEdge (s : State) (input : Fin 4) (falling : Bool) (e : EdgeIn) : IsRun s (exec (.captureEdge input falling e) s) := by
  show IsRun s (execCaptureEdge input falling e s); unfold execCaptureEdge; exact Or.inl ⟨_, rfl⟩
theorem isRun_wordClockAbsent (s : State) (input : Fin 3) : IsRun s (exec (.wordClockAbsent input) s) := by
  show IsRun s (execWordClockAbsent input s); unfold execWordClockAbsent; exact Or.inl ⟨_, rfl⟩
theorem isRun_wordClockPresent (s : State) (input : Fin 3) : IsRun s (exec (.wordClockPresent input) s) := by
  show IsRun s (execWordClockPresent input s); unfold execWordClockPresent; exact Or.inl ⟨_, rfl⟩
theorem isRun_netFrameRx (s : State) (port : Fin 4) (f : RxFrame) : IsRun s (exec (.netFrameRx port f) s) := by
  show IsRun s (execNetFrameRx port f s); unfold execNetFrameRx; exact Or.inl ⟨_, rfl⟩
theorem isRun_evCounterHalf (s : State) (port : Fin 4) : IsRun s (exec (.evCounterHalf port) s) := by
  show IsRun s (execEvCounterHalf port s); unfold execEvCounterHalf; exact Or.inl ⟨_, rfl⟩
theorem isRun_legDown (s : State) (flow : Fin 256) (leg : Fin 2) : IsRun s (exec (.legDown flow leg) s) := by
  show IsRun s (execLegDown flow leg s); unfold execLegDown; exact Or.inl ⟨_, rfl⟩
theorem isRun_txPacketQueue (s : State) (flow : Fin 256) (first : MT) : IsRun s (exec (.txPacketQueue flow first) s) := by
  show IsRun s (execTxPacketQueue flow first s); unfold execTxPacketQueue; exact Or.inl ⟨_, rfl⟩
theorem isRun_txMediaDrop (s : State) (port : Fin 4) (flow : Fin 256) : IsRun s (exec (.txMediaDrop port flow) s) := by
  show IsRun s (execTxMediaDrop port flow s); unfold execTxMediaDrop; exact Or.inl ⟨_, rfl⟩
theorem isRun_hostFrameStart (s : State) (ring : Fin 4) (descs : List TxDesc) (underrun : Bool) : IsRun s (exec (.hostFrameStart ring descs underrun) s) := by
  show IsRun s (execHostFrameStart ring descs underrun s); unfold execHostFrameStart; exact Or.inl ⟨_, rfl⟩
theorem isRun_txFrameComplete (s : State) (port : Fin 4) (queue : Fin 8) (dt : DT) : IsRun s (exec (.txFrameComplete port queue dt) s) := by
  show IsRun s (execTxFrameComplete port queue dt s); unfold execTxFrameComplete; exact Or.inl ⟨_, rfl⟩
theorem isRun_gateChangeTime (s : State) (port : Fin 4) : IsRun s (exec (.gateChangeTime port) s) := by
  show IsRun s (execGateChangeTime port s); unfold execGateChangeTime; exact Or.inl ⟨_, rfl⟩
theorem isRun_gateIntervalEdge (s : State) (port : Fin 4) : IsRun s (exec (.gateIntervalEdge port) s) := by
  show IsRun s (execGateIntervalEdge port s); unfold execGateIntervalEdge; exact Or.inl ⟨_, rfl⟩
theorem isRun_linkUp (s : State) (port : Fin 4) : IsRun s (exec (.linkUp port) s) := by
  show IsRun s (execLinkUp port s); unfold execLinkUp; exact Or.inl ⟨_, rfl⟩
theorem isRun_linkDown (s : State) (port : Fin 4) (remoteFault : Bool) : IsRun s (exec (.linkDown port remoteFault) s) := by
  show IsRun s (execLinkDown port remoteFault s); unfold execLinkDown; exact Or.inl ⟨_, rfl⟩
theorem isRun_arpResolveTimeout (s : State) (port : Fin 4) (addr : List Byte) : IsRun s (exec (.arpResolveTimeout port addr) s) := by
  show IsRun s (execArpResolveTimeout port addr s); unfold execArpResolveTimeout; exact Or.inl ⟨_, rfl⟩
theorem isRun_arpRefresh (s : State) (port : Fin 4) (addr : List Byte) : IsRun s (exec (.arpRefresh port addr) s) := by
  show IsRun s (execArpRefresh port addr s); unfold execArpRefresh; exact Or.inl ⟨_, rfl⟩
theorem isRun_membershipReport (s : State) (port : Fin 4) (group : List Byte) : IsRun s (exec (.membershipReport port group) s) := by
  show IsRun s (execMembershipReport port group s); unfold execMembershipReport; exact Or.inl ⟨_, rfl⟩
theorem isRun_aes3FrameRx (s : State) (i : Fin 16) (f : AesFrame) : IsRun s (exec (.aes3FrameRx i f) s) := by
  show IsRun s (execAes3FrameRx i f s); unfold execAes3FrameRx; exact Or.inl ⟨_, rfl⟩
theorem isRun_aes3RxLock (s : State) (i : Fin 16) : IsRun s (exec (.aes3RxLock i) s) := by
  show IsRun s (execAes3RxLock i s); unfold execAes3RxLock; exact Or.inl ⟨_, rfl⟩
theorem isRun_aes3RxClockFault (s : State) (i : Fin 16) : IsRun s (exec (.aes3RxClockFault i) s) := by
  show IsRun s (execAes3RxClockFault i s); unfold execAes3RxClockFault; exact Or.inl ⟨_, rfl⟩
theorem isRun_aes3RxAbsent (s : State) (i : Fin 16) : IsRun s (exec (.aes3RxAbsent i) s) := by
  show IsRun s (execAes3RxAbsent i s); unfold execAes3RxAbsent; exact Or.inl ⟨_, rfl⟩
theorem isRun_tdmFrame (s : State) (n : Fin 8) (f : TdmIn) : IsRun s (exec (.tdmFrame n f) s) := by
  show IsRun s (execTdmFrame n f s); unfold execTdmFrame; exact Or.inl ⟨_, rfl⟩
theorem isRun_tdmClockLock (s : State) (n : Fin 8) : IsRun s (exec (.tdmClockLock n) s) := by
  show IsRun s (execTdmClockLock n s); unfold execTdmClockLock; exact Or.inl ⟨_, rfl⟩
theorem isRun_tdmStartComplete (s : State) (n : Fin 8) : IsRun s (exec (.tdmStartComplete n) s) := by
  show IsRun s (execTdmStartComplete n s); unfold execTdmStartComplete; exact Or.inl ⟨_, rfl⟩
theorem isRun_tdmStopComplete (s : State) (n : Fin 8) : IsRun s (exec (.tdmStopComplete n) s) := by
  show IsRun s (execTdmStopComplete n s); unfold execTdmStopComplete; exact Or.inl ⟨_, rfl⟩
theorem isRun_tdmNoClock (s : State) (n : Fin 8) : IsRun s (exec (.tdmNoClock n) s) := by
  show IsRun s (execTdmNoClock n s); unfold execTdmNoClock; exact Or.inl ⟨_, rfl⟩
theorem isRun_portClockRecovered (s : State) (kind index : Nat) : IsRun s (exec (.portClockRecovered kind index) s) := by
  show IsRun s (execPortClockRecovered kind index s); unfold execPortClockRecovered; exact Or.inl ⟨_, rfl⟩
theorem isRun_slipRampIn (s : State) (kind index : Nat) : IsRun s (exec (.slipRampIn kind index) s) := by
  show IsRun s (execSlipRampIn kind index s); unfold execSlipRampIn; exact Or.inl ⟨_, rfl⟩
theorem isRun_mappingLost (s : State) (kind index : Nat) : IsRun s (exec (.mappingLost kind index) s) := by
  show IsRun s (execMappingLost kind index s); unfold execMappingLost; exact Or.inl ⟨_, rfl⟩
theorem isRun_micStartComplete (s : State) (mic : Fin 8) : IsRun s (exec (.micStartComplete mic) s) := by
  show IsRun s (execMicStartComplete mic s); unfold execMicStartComplete; exact Or.inl ⟨_, rfl⟩
theorem isRun_micLock (s : State) (mic : Fin 8) : IsRun s (exec (.micLock mic) s) := by
  show IsRun s (execMicLock mic s); unfold execMicLock; exact Or.inl ⟨_, rfl⟩
theorem isRun_micStuck (s : State) (mic : Fin 8) : IsRun s (exec (.micStuck mic) s) := by
  show IsRun s (execMicStuck mic s); unfold execMicStuck; exact Or.inl ⟨_, rfl⟩
theorem isRun_detectorWindowEnd (s : State) (det : Fin 8) : IsRun s (exec (.detectorWindowEnd det) s) := by
  show IsRun s (execDetectorWindowEnd det s); unfold execDetectorWindowEnd; exact Or.inl ⟨_, rfl⟩
theorem isRun_bridgeAcquireLock (s : State) (bridge : Fin 256) : IsRun s (exec (.bridgeAcquireLock bridge) s) := by
  show IsRun s (execBridgeAcquireLock bridge s); unfold execBridgeAcquireLock; exact Or.inl ⟨_, rfl⟩
theorem isRun_bridgeAcquireTimeout (s : State) (bridge : Fin 256) : IsRun s (exec (.bridgeAcquireTimeout bridge) s) := by
  show IsRun s (execBridgeAcquireTimeout bridge s); unfold execBridgeAcquireTimeout; exact Or.inl ⟨_, rfl⟩
theorem isRun_bridgeRange (s : State) (bridge : Fin 256) : IsRun s (exec (.bridgeRange bridge) s) := by
  show IsRun s (execBridgeRange bridge s); unfold execBridgeRange; exact Or.inl ⟨_, rfl⟩
theorem isRun_bridgeRangeExpiry (s : State) (bridge : Fin 256) : IsRun s (exec (.bridgeRangeExpiry bridge) s) := by
  show IsRun s (execBridgeRangeExpiry bridge s); unfold execBridgeRangeExpiry; exact Or.inl ⟨_, rfl⟩
theorem isRun_bridgeEndsRendering (s : State) (bridge : Fin 256) : IsRun s (exec (.bridgeEndsRendering bridge) s) := by
  show IsRun s (execBridgeEndsRendering bridge s); unfold execBridgeEndsRendering; exact Or.inl ⟨_, rfl⟩
theorem isRun_senseUpdate (s : State) (ms : List Sensed) : IsRun s (exec (.senseUpdate ms) s) := by
  show IsRun s (execSenseUpdate ms s); unfold execSenseUpdate; exact Or.inl ⟨_, rfl⟩
theorem isRun_railFaultTimeout (s : State) : IsRun s (exec (.railFaultTimeout) s) := by
  show IsRun s (execRailFaultTimeout s); unfold execRailFaultTimeout; exact Or.inl ⟨_, rfl⟩
theorem isRun_jackInsertion (s : State) (inserted : Bool) : IsRun s (exec (.jackInsertion inserted) s) := by
  show IsRun s (execJackInsertion inserted s); unfold execJackInsertion; exact Or.inl ⟨_, rfl⟩
theorem isRun_accessoryJudged (s : State) (tip sleeve : Nat) : IsRun s (exec (.accessoryJudged tip sleeve) s) := by
  show IsRun s (execAccessoryJudged tip sleeve s); unfold execAccessoryJudged; exact Or.inl ⟨_, rfl⟩
theorem isRun_buttonPress (s : State) (ohms : Nat) (pressed : Bool) : IsRun s (exec (.buttonPress ohms pressed) s) := by
  show IsRun s (execButtonPress ohms pressed s); unfold execButtonPress; exact Or.inl ⟨_, rfl⟩
theorem isRun_buttonLong (s : State) : IsRun s (exec (.buttonLong) s) := by
  show IsRun s (execButtonLong s); unfold execButtonLong; exact Or.inl ⟨_, rfl⟩
theorem isRun_trackWindowEnd (s : State) (d : Fin 3) (b : MT) : IsRun s (exec (.trackWindowEnd d b) s) := by
  show IsRun s (execTrackWindowEnd d b s); unfold execTrackWindowEnd; exact Or.inl ⟨_, rfl⟩
theorem isRun_proposalPost (s : State) (speaker : Nat) : IsRun s (exec (.proposalPost speaker) s) := by
  show IsRun s (execProposalPost speaker s); unfold execProposalPost; exact Or.inl ⟨_, rfl⟩
theorem isRun_linkFrameRx (s : State) (bytes : List Byte) (crc : Word) : IsRun s (exec (.linkFrameRx bytes crc) s) := by
  show IsRun s (execLinkFrameRx bytes crc s); unfold execLinkFrameRx; exact Or.inl ⟨_, rfl⟩
theorem isRun_linkFrameResend (s : State) (seq : Word) : IsRun s (exec (.linkFrameResend seq) s) := by
  show IsRun s (execLinkFrameResend seq s); unfold execLinkFrameResend; exact Or.inl ⟨_, rfl⟩
theorem isRun_linkAckFrame (s : State) : IsRun s (exec (.linkAckFrame) s) := by
  show IsRun s (execLinkAckFrame s); unfold execLinkAckFrame; exact Or.inl ⟨_, rfl⟩
theorem isRun_linkHello (s : State) : IsRun s (exec (.linkHello) s) := by
  show IsRun s (execLinkHello s); unfold execLinkHello; exact Or.inl ⟨_, rfl⟩
theorem isRun_laneLockChange (s : State) (lane : Fin 2) (locked : Bool) : IsRun s (exec (.laneLockChange lane locked) s) := by
  show IsRun s (execLaneLockChange lane locked s); unfold execLaneLockChange; exact Or.inl ⟨_, rfl⟩
theorem isRun_markerMissing (s : State) (marker : Bool) (heartbeats : BitVec 4) : IsRun s (exec (.markerMissing marker heartbeats) s) := by
  show IsRun s (execMarkerMissing marker heartbeats s); unfold execMarkerMissing; exact Or.inl ⟨_, rfl⟩
theorem isRun_promotion (s : State) : IsRun s (exec (.promotion) s) := by
  show IsRun s (execPromotion s); unfold execPromotion; exact Or.inl ⟨_, rfl⟩
theorem isRun_resyncCopyComplete (s : State) (copy' : Regions) : IsRun s (exec (.resyncCopyComplete copy') s) := by
  show IsRun s (execResyncCopyComplete copy' s); unfold execResyncCopyComplete; exact Or.inl ⟨_, rfl⟩
theorem isRun_verifyComplete (s : State) : IsRun s (exec (.verifyComplete) s) := by
  show IsRun s (execVerifyComplete s); unfold execVerifyComplete; exact Or.inl ⟨_, rfl⟩
theorem isRun_resyncTimeout (s : State) : IsRun s (exec (.resyncTimeout) s) := by
  show IsRun s (execResyncTimeout s); unfold execResyncTimeout; exact Or.inl ⟨_, rfl⟩
theorem isRun_linkingTimeout (s : State) : IsRun s (exec (.linkingTimeout) s) := by
  show IsRun s (execLinkingTimeout s); unfold execLinkingTimeout; exact Or.inl ⟨_, rfl⟩
theorem isRun_twinSwapTakeEffect (s : State) : IsRun s (exec (.twinSwapTakeEffect) s) := by
  show IsRun s (execTwinSwapTakeEffect s); unfold execTwinSwapTakeEffect; exact Or.inl ⟨_, rfl⟩
theorem isRun_micAcquireTimeout (s : State) (mic : Fin 8) : IsRun s (exec (.micAcquireTimeout mic) s) := by
  show IsRun s (execMicAcquireTimeout mic s); unfold execMicAcquireTimeout; exact Or.inl ⟨_, rfl⟩
theorem isRun_tdmClockFault (s : State) (n : Fin 8) : IsRun s (exec (.tdmClockFault n) s) := by
  show IsRun s (execTdmClockFault n s); unfold execTdmClockFault; exact Or.inl ⟨_, rfl⟩
theorem isRun_aes3RxLocking (s : State) (i : Fin 16) : IsRun s (exec (.aes3RxLocking i) s) := by
  show IsRun s (execAes3RxLocking i s); unfold execAes3RxLocking; exact Or.inl ⟨_, rfl⟩
theorem isRun_aes3FrameTx (s : State) (i : Fin 16) : IsRun s (exec (.aes3FrameTx i) s) := by
  show IsRun s (execAes3FrameTx i s); unfold execAes3FrameTx; exact Or.inl ⟨_, rfl⟩
theorem isRun_deferredResetBegin (s : State) : IsRun s (exec (.deferredResetBegin) s) := by
  show IsRun s (execDeferredResetBegin s); unfold execDeferredResetBegin; exact Or.inl ⟨_, rfl⟩
theorem isRun_slotEraseComplete (s : State) : IsRun s (exec (.slotEraseComplete) s) := by
  show IsRun s (execSlotEraseComplete s); unfold execSlotEraseComplete; exact Or.inl ⟨_, rfl⟩
theorem isRun_hostTimeout (s : State) (ch : Fin 32) : IsRun s (exec (.hostTimeout ch) s) := by
  show IsRun s (execHostTimeout ch s); unfold execHostTimeout; exact Or.inl ⟨_, rfl⟩
theorem isRun_delayReqTx (s : State) (port : Fin 4) : IsRun s (exec (.delayReqTx port) s) := by
  show IsRun s (execDelayReqTx port s); unfold execDelayReqTx; exact Or.inl ⟨_, rfl⟩
theorem isRun_signatureMissing (s : State) : IsRun s (exec (.signatureMissing) s) := by
  show IsRun s (execSignatureMissing s); unfold execSignatureMissing; exact Or.inl ⟨_, rfl⟩

/-- Every command answers so. -/
theorem exec_isRun (s : State) : ∀ c : Instr, IsRun s (exec c s)
  | .hello r => isRun_hello s r
  | .version r => isRun_version s r
  | .caps r => isRun_caps s r
  | .ping r => isRun_ping s r
  | .bye r => isRun_bye s r
  | .modeSet r => isRun_modeSet s r
  | .modeGet r => isRun_modeGet s r
  | .resetReq r => isRun_resetReq s r
  | .telemetryGetCounters r => isRun_telemetryGetCounters s r
  | .telemetryGetBlock r => isRun_telemetryGetBlock s r
  | .logRead r => isRun_logRead s r
  | .outLatencyGet r => isRun_outLatencyGet s r
  | .domainCfgSet r => isRun_domainCfgSet s r
  | .domainCfgStart r => isRun_domainCfgStart s r
  | .domainStop r => isRun_domainStop s r
  | .domainCfgRealign r => isRun_domainCfgRealign s r
  | .domainCfgGet r => isRun_domainCfgGet s r
  | .ptpCfg r => isRun_ptpCfg s r
  | .pulseCfg r => isRun_pulseCfg s r
  | .captureCfg r => isRun_captureCfg s r
  | .layoutBegin r => isRun_layoutBegin s r
  | .layoutSpk r => isRun_layoutSpk s r
  | .layoutCommit r => isRun_layoutCommit s r
  | .objCfg r => isRun_objCfg s r
  | .objUpdate r => isRun_objUpdate s r
  | .objUpdateBatch r => isRun_objUpdateBatch s r
  | .objQuery r => isRun_objQuery s r
  | .routeSet r => isRun_routeSet s r
  | .busCfg r => isRun_busCfg s r
  | .matrixDirect r => isRun_matrixDirect s r
  | .chainCfgColumn r => isRun_chainCfgColumn s r
  | .chainCfgBassGroup r => isRun_chainCfgBassGroup s r
  | .eqSet r => isRun_eqSet s r
  | .delaySet r => isRun_delaySet s r
  | .dynCfgSet r => isRun_dynCfgSet s r
  | .grRead r => isRun_grRead s r
  | .outGain r => isRun_outGain s r
  | .outMute r => isRun_outMute s r
  | .firLoadMap r => isRun_firLoadMap s r
  | .firLoadData r => isRun_firLoadData s r
  | .firCommit r => isRun_firCommit s r
  | .firStatus r => isRun_firStatus s r
  | .haloCfgSet r => isRun_haloCfgSet s r
  | .haloCfgOrient r => isRun_haloCfgOrient s r
  | .haloCfgGet r => isRun_haloCfgGet s r
  | .seamCfgSet r => isRun_seamCfgSet s r
  | .seamCfgGet r => isRun_seamCfgGet s r
  | .micCfgSet r => isRun_micCfgSet s r
  | .micCfgGet r => isRun_micCfgGet s r
  | .toneDetCfgSet r => isRun_toneDetCfgSet s r
  | .toneDetCfgStop r => isRun_toneDetCfgStop s r
  | .toneDetCfgGet r => isRun_toneDetCfgGet s r
  | .calStartMeasure r => isRun_calStartMeasure s r
  | .calStartDesign r => isRun_calStartDesign s r
  | .calStartAbort r => isRun_calStartAbort s r
  | .calResult r => isRun_calResult s r
  | .trackCfgSet r => isRun_trackCfgSet s r
  | .trackCfgGet r => isRun_trackCfgGet s r
  | .trackCfgRead r => isRun_trackCfgRead s r
  | .trackProposalList r => isRun_trackProposalList s r
  | .trackProposalRead r => isRun_trackProposalRead s r
  | .trackProposalDiscard r => isRun_trackProposalDiscard s r
  | .portCfgSet r => isRun_portCfgSet s r
  | .portCfgGet r => isRun_portCfgGet s r
  | .portCfgSource r => isRun_portCfgSource s r
  | .csRead r => isRun_csRead s r
  | .csWrite r => isRun_csWrite s r
  | .slotMask r => isRun_slotMask s r
  | .alignGroupSet r => isRun_alignGroupSet s r
  | .alignGroupGet r => isRun_alignGroupGet s r
  | .alignGroupDissolve r => isRun_alignGroupDissolve s r
  | .netPortCfgSet r => isRun_netPortCfgSet s r
  | .netPortCfgGet r => isRun_netPortCfgGet s r
  | .netPortCfgFilter r => isRun_netPortCfgFilter s r
  | .flowRxCfgSet r => isRun_flowRxCfgSet s r
  | .flowRxCfgLeg r => isRun_flowRxCfgLeg s r
  | .flowTxCfgSet r => isRun_flowTxCfgSet s r
  | .flowTxCfgLeg r => isRun_flowTxCfgLeg s r
  | .flowTxCfgSource r => isRun_flowTxCfgSource s r
  | .flowState r => isRun_flowState s r
  | .gateListSet r => isRun_gateListSet s r
  | .gateListClear r => isRun_gateListClear s r
  | .twinCfgSet r => isRun_twinCfgSet s r
  | .twinCfgGet r => isRun_twinCfgGet s r
  | .twinState r => isRun_twinState s r
  | .twinSwap r => isRun_twinSwap s r
  | .graphLoad r => isRun_graphLoad s r
  | .graphStart r => isRun_graphStart s r
  | .graphStop r => isRun_graphStop s r
  | .taskCancel r => isRun_taskCancel s r
  | .fwUpdateBegin r => isRun_fwUpdateBegin s r
  | .fwChunk r => isRun_fwChunk s r
  | .fwCommit r => isRun_fwCommit s r
  | .fwSlotInfo r => isRun_fwSlotInfo s r
  | .selftestRun r => isRun_selftestRun s r
  | .hatreCellTake ch => isRun_hatreCellTake s ch
  | .messageChainTimeout ch => isRun_messageChainTimeout s ch
  | .outboundCellPlace ch => isRun_outboundCellPlace s ch
  | .inPost via ch v => isRun_inPost s via ch v
  | .outPop via ch v => isRun_outPop s via ch v
  | .senderReset via ch v => isRun_senderReset s via ch v
  | .mbxIrqWrite via ch v => isRun_mbxIrqWrite s via ch v
  | .warmReset via v => isRun_warmReset s via v
  | .ctrlRestart via v => isRun_ctrlRestart s via v
  | .hifIrqStatusWrite via v => isRun_hifIrqStatusWrite s via v
  | .hifFaultWrite via v => isRun_hifFaultWrite s via v
  | .msiXUnmask vector => isRun_msiXUnmask s vector
  | .dblH2dSet via v => isRun_dblH2dSet s via v
  | .dblD2hWrite via v => isRun_dblD2hWrite s via v
  | .timeSnapshot via now' => isRun_timeSnapshot s via now'
  | .timeIrqWrite via v => isRun_timeIrqWrite s via v
  | .capW3Read via i => isRun_capW3Read s via i
  | .senseButtonRead via => isRun_senseButtonRead s via
  | .grHoldRead column => isRun_grHoldRead s column
  | .compLoRead => isRun_compLoRead s
  | .descDataAccess write => isRun_descDataAccess s write
  | .netStatusRead via port => isRun_netStatusRead s via port
  | .halfRxRead via port => isRun_halfRxRead s via port
  | .halfTxRead via port => isRun_halfTxRead s via port
  | .ringTailWrite via ring v => isRun_ringTailWrite s via ring v
  | .ringCtrlWrite via ring v => isRun_ringCtrlWrite s via ring v
  | .tdmMaskArm port v => isRun_tdmMaskArm s port v
  | .dmaCmdStart via ch => isRun_dmaCmdStart s via ch
  | .dmaCmdAbort via ch => isRun_dmaCmdAbort s via ch
  | .dmaCmdPause via ch => isRun_dmaCmdPause s via ch
  | .dmaCmdResume via ch => isRun_dmaCmdResume s via ch
  | .dmaIrqWrite via ch v => isRun_dmaIrqWrite s via ch v
  | .cqTailWrite via ch v => isRun_cqTailWrite s via ch v
  | .registerWrite via addr v be => isRun_registerWrite s via addr v be
  | .spiTransaction t => isRun_spiTransaction s t
  | .i2cRead off n => isRun_i2cRead s off n
  | .pcieReset => isRun_pcieReset s
  | .perstN => isRun_perstN s
  | .controlProcessorFault cause => isRun_controlProcessorFault s cause
  | .watchdog => isRun_watchdog s
  | .ctrlRestartComplete => isRun_ctrlRestartComplete s
  | .vddAonRise straps => isRun_vddAonRise s straps
  | .vddAonLoss => isRun_vddAonLoss s
  | .resetNAssert => isRun_resetNAssert s
  | .resetNRelease straps => isRun_resetNRelease s straps
  | .refclkStop => isRun_refclkStop s
  | .refclkRestored => isRun_refclkRestored s
  | .bootStepFail reason => isRun_bootStepFail s reason
  | .bootStartSuccess => isRun_bootStartSuccess s
  | .hostImageLoad image => isRun_hostImageLoad s image
  | .hostBootTimeout => isRun_hostBootTimeout s
  | .wake pin dbl => isRun_wake s pin dbl
  | .modeTransitionComplete timedOut => isRun_modeTransitionComplete s timedOut
  | .powerDomainSwitch pd => isRun_powerDomainSwitch s pd
  | .domainBoundary d m => isRun_domainBoundary s d m
  | .domainLock d dt => isRun_domainLock s d dt
  | .acquireTimeout d => isRun_acquireTimeout s d
  | .holdoverExpired d => isRun_holdoverExpired s d
  | .slewingClear d => isRun_slewingClear s d
  | .closingStateClear d => isRun_closingStateClear s d
  | .realignComplete d => isRun_realignComplete s d
  | .windowDeadline d window missed => isRun_windowDeadline s d window missed
  | .blockPublish d => isRun_blockPublish s d
  | .columnRampIn column => isRun_columnRampIn s column
  | .matrixGroupComplete d group => isRun_matrixGroupComplete s d group
  | .taskDispatch tile => isRun_taskDispatch s tile
  | .storeErrorResponse core addr storePc => isRun_storeErrorResponse s core addr storePc
  | .vadd core i => isRun_vadd s core i
  | .vsub core i => isRun_vsub s core i
  | .vmin core i => isRun_vmin s core i
  | .vmax core i => isRun_vmax s core i
  | .vabs core i => isRun_vabs s core i
  | .vneg core i => isRun_vneg s core i
  | .vand core i => isRun_vand s core i
  | .vor core i => isRun_vor s core i
  | .vxor core i => isRun_vxor s core i
  | .vshl core i => isRun_vshl s core i
  | .vasr core i => isRun_vasr s core i
  | .vrsr core i => isRun_vrsr s core i
  | .vlsr core i => isRun_vlsr s core i
  | .vmov core i => isRun_vmov s core i
  | .valign core i => isRun_valign s core i
  | .vcmplt core i => isRun_vcmplt s core i
  | .vsel core i => isRun_vsel s core i
  | .amul core i => isRun_amul s core i
  | .amac core i => isRun_amac s core i
  | .amsu core i => isRun_amsu s core i
  | .aadd core i => isRun_aadd s core i
  | .aclr core i => isRun_aclr s core i
  | .ald core i => isRun_ald s core i
  | .asum core i => isRun_asum s core i
  | .amov core i => isRun_amov s core i
  | .ext core i => isRun_ext s core i
  | .add core i => isRun_add s core i
  | .sub core i => isRun_sub s core i
  | .and core i => isRun_and s core i
  | .or core i => isRun_or s core i
  | .xor core i => isRun_xor s core i
  | .shl core i => isRun_shl s core i
  | .asr core i => isRun_asr s core i
  | .lsr core i => isRun_lsr s core i
  | .mul core i => isRun_mul s core i
  | .slt core i => isRun_slt s core i
  | .sltu core i => isRun_sltu s core i
  | .jr core i => isRun_jr s core i
  | .callr core i => isRun_callr s core i
  | .addi core i => isRun_addi s core i
  | .movi core i => isRun_movi s core i
  | .movhi core i => isRun_movhi s core i
  | .mtp core i => isRun_mtp s core i
  | .mfp core i => isRun_mfp s core i
  | .mtn core i => isRun_mtn s core i
  | .mfn core i => isRun_mfn s core i
  | .mtl core i => isRun_mtl s core i
  | .mfl core i => isRun_mfl s core i
  | .vins core i => isRun_vins s core i
  | .vext core i => isRun_vext s core i
  | .vbc core i => isRun_vbc s core i
  | .mts core i => isRun_mts s core i
  | .mfs core i => isRun_mfs s core i
  | .br core i => isRun_br s core i
  | .call core i => isRun_call s core i
  | .rep core i => isRun_rep s core i
  | .ldv core i => isRun_ldv s core i
  | .stv core i => isRun_stv s core i
  | .lds core i => isRun_lds s core i
  | .sts core i => isRun_sts s core i
  | .ldb core i => isRun_ldb s core i
  | .nop core i => isRun_nop s core i
  | .tfetch core i => isRun_tfetch s core i
  | .tdone core i => isRun_tdone s core i
  | .sync core i => isRun_sync s core i
  | .trap core i => isRun_trap s core i
  | .move ch i => isRun_move s ch i
  | .loop ch i => isRun_loop s ch i
  | .wait ch i => isRun_wait s ch i
  | .signal ch i => isRun_signal s ch i
  | .stop ch i => isRun_stop s ch i
  | .dmaBurst ch b => isRun_dmaBurst s ch b
  | .waitConditionMet ch => isRun_waitConditionMet s ch
  | .waitTimeout ch => isRun_waitTimeout s ch
  | .matrixGrant idle accesses => isRun_matrixGrant s idle accesses
  | .layoutCompileComplete => isRun_layoutCompileComplete s
  | .firLoadComplete => isRun_firLoadComplete s
  | .graphLoadComplete slot => isRun_graphLoadComplete s slot
  | .bulkFetchComplete ch data err => isRun_bulkFetchComplete s ch data err
  | .bulkFetchTimeout ch => isRun_bulkFetchTimeout s ch
  | .selftestComplete res => isRun_selftestComplete s res
  | .busUnbindRampEnd column => isRun_busUnbindRampEnd s column
  | .oldLayoutUnbind => isRun_oldLayoutUnbind s
  | .objectDisableRelease object => isRun_objectDisableRelease s object
  | .ptpMessageRx port m => isRun_ptpMessageRx s port m
  | .announceReceiptTimeout port => isRun_announceReceiptTimeout s port
  | .ptpMessageTx port kind => isRun_ptpMessageTx s port kind
  | .pulseEdge output => isRun_pulseEdge s output
  | .pulseCfgTakeEffect output => isRun_pulseCfgTakeEffect s output
  | .captureEdge input falling e => isRun_captureEdge s input falling e
  | .wordClockAbsent input => isRun_wordClockAbsent s input
  | .wordClockPresent input => isRun_wordClockPresent s input
  | .netFrameRx port f => isRun_netFrameRx s port f
  | .evCounterHalf port => isRun_evCounterHalf s port
  | .legDown flow leg => isRun_legDown s flow leg
  | .txPacketQueue flow first => isRun_txPacketQueue s flow first
  | .txMediaDrop port flow => isRun_txMediaDrop s port flow
  | .hostFrameStart ring descs underrun => isRun_hostFrameStart s ring descs underrun
  | .txFrameComplete port queue dt => isRun_txFrameComplete s port queue dt
  | .gateChangeTime port => isRun_gateChangeTime s port
  | .gateIntervalEdge port => isRun_gateIntervalEdge s port
  | .linkUp port => isRun_linkUp s port
  | .linkDown port remoteFault => isRun_linkDown s port remoteFault
  | .arpResolveTimeout port addr => isRun_arpResolveTimeout s port addr
  | .arpRefresh port addr => isRun_arpRefresh s port addr
  | .membershipReport port group => isRun_membershipReport s port group
  | .aes3FrameRx i f => isRun_aes3FrameRx s i f
  | .aes3RxLock i => isRun_aes3RxLock s i
  | .aes3RxClockFault i => isRun_aes3RxClockFault s i
  | .aes3RxAbsent i => isRun_aes3RxAbsent s i
  | .tdmFrame n f => isRun_tdmFrame s n f
  | .tdmClockLock n => isRun_tdmClockLock s n
  | .tdmStartComplete n => isRun_tdmStartComplete s n
  | .tdmStopComplete n => isRun_tdmStopComplete s n
  | .tdmNoClock n => isRun_tdmNoClock s n
  | .portClockRecovered kind index => isRun_portClockRecovered s kind index
  | .slipRampIn kind index => isRun_slipRampIn s kind index
  | .mappingLost kind index => isRun_mappingLost s kind index
  | .micStartComplete mic => isRun_micStartComplete s mic
  | .micLock mic => isRun_micLock s mic
  | .micStuck mic => isRun_micStuck s mic
  | .detectorWindowEnd det => isRun_detectorWindowEnd s det
  | .bridgeAcquireLock bridge => isRun_bridgeAcquireLock s bridge
  | .bridgeAcquireTimeout bridge => isRun_bridgeAcquireTimeout s bridge
  | .bridgeRange bridge => isRun_bridgeRange s bridge
  | .bridgeRangeExpiry bridge => isRun_bridgeRangeExpiry s bridge
  | .bridgeEndsRendering bridge => isRun_bridgeEndsRendering s bridge
  | .senseUpdate ms => isRun_senseUpdate s ms
  | .railFaultTimeout => isRun_railFaultTimeout s
  | .jackInsertion inserted => isRun_jackInsertion s inserted
  | .accessoryJudged tip sleeve => isRun_accessoryJudged s tip sleeve
  | .buttonPress ohms pressed => isRun_buttonPress s ohms pressed
  | .buttonLong => isRun_buttonLong s
  | .trackWindowEnd d b => isRun_trackWindowEnd s d b
  | .proposalPost speaker => isRun_proposalPost s speaker
  | .linkFrameRx bytes crc => isRun_linkFrameRx s bytes crc
  | .linkFrameResend seq => isRun_linkFrameResend s seq
  | .linkAckFrame => isRun_linkAckFrame s
  | .linkHello => isRun_linkHello s
  | .laneLockChange lane locked => isRun_laneLockChange s lane locked
  | .markerMissing marker heartbeats => isRun_markerMissing s marker heartbeats
  | .promotion => isRun_promotion s
  | .resyncCopyComplete copy' => isRun_resyncCopyComplete s copy'
  | .verifyComplete => isRun_verifyComplete s
  | .resyncTimeout => isRun_resyncTimeout s
  | .linkingTimeout => isRun_linkingTimeout s
  | .twinSwapTakeEffect => isRun_twinSwapTakeEffect s
  | .micAcquireTimeout mic => isRun_micAcquireTimeout s mic
  | .tdmClockFault n => isRun_tdmClockFault s n
  | .aes3RxLocking i => isRun_aes3RxLocking s i
  | .aes3FrameTx i => isRun_aes3FrameTx s i
  | .deferredResetBegin => isRun_deferredResetBegin s
  | .slotEraseComplete => isRun_slotEraseComplete s
  | .hostTimeout ch => isRun_hostTimeout s ch
  | .delayReqTx port => isRun_delayReqTx s port
  | .signatureMissing => isRun_signatureMissing s

end Sys2Proof.Machine
end

