-- ==== Sys2Proof/Laws/Memory.lean ====
section
/-! SUPPORT. Banks and the canonical byte memory: a read after a write, and that every memory operation keeps the
canonical form. -/

namespace Sys2Proof.Machine

/-! Banks. -/

@[simp] theorem tabGet_tabSet_same {α : Type} [Inhabited α] (t : Tab α) (i : Nat) (a : α) : tabGet (tabSet t i a) i = a := by
  induction t with
  | nil => simp [tabSet, tabGet]
  | cons p t ih =>
    obtain ⟨k, v⟩ := p
    by_cases h1 : i < k
    · simp [tabSet, tabGet, h1]
    · by_cases h2 : k = i
      · simp [tabSet, tabGet, h2]
      · simp [tabSet, tabGet, h1, h2, ih]

theorem tabGet_tabSet_ne {α : Type} [Inhabited α] (t : Tab α) (i j : Nat) (a : α) (h : j ≠ i) :
    tabGet (tabSet t i a) j = tabGet t j := by
  induction t with
  | nil => simp [tabSet, tabGet, h.symm]
  | cons p t ih =>
    obtain ⟨k, v⟩ := p
    by_cases h1 : i < k
    · simp [tabSet, tabGet, h1, h.symm]
    · by_cases h2 : k = i
      · subst h2; simp [tabSet, tabGet, h.symm]
      · simp [tabSet, tabGet, h1, h2, ih]

@[simp] theorem tabGet_tabMod_same {α : Type} [Inhabited α] (t : Tab α) (i : Nat) (f : α → α) :
    tabGet (tabMod t i f) i = f (tabGet t i) := tabGet_tabSet_same _ _ _

theorem tabGet_tabMod_ne {α : Type} [Inhabited α] (t : Tab α) (i j : Nat) (f : α → α) (h : j ≠ i) :
    tabGet (tabMod t i f) j = tabGet t j := tabGet_tabSet_ne _ _ _ _ h

/-- A second change of an entry overrides the first. -/
@[simp] theorem tabSet_tabSet {α : Type} (t : Tab α) (i : Nat) (a b : α) : tabSet (tabSet t i a) i b = tabSet t i b := by
  induction t with
  | nil => simp [tabSet]
  | cons p t ih =>
    obtain ⟨k, v⟩ := p
    by_cases h : i < k
    · simp [tabSet, h]
    · by_cases h' : k = i
      · simp [tabSet, h']
      · simp [tabSet, h, h', ih]

/-! Reads of memory. -/

theorem memRead_low (m : List Host.Cell) (lo a : Nat) (h : memWfFrom lo m = true) (ha : a < lo) : memRead m a = memDefault := by
  induction m generalizing lo with
  | nil => rfl
  | cons p t ih =>
    obtain ⟨k, v⟩ := p
    simp only [memWfFrom, Bool.and_eq_true, decide_eq_true_eq] at h
    have hk : k ≠ a := by omega
    simp only [memRead, hk, if_false]
    exact ih (k + 1) h.2 (by omega)

/-- A read of the byte just written gives it. -/
theorem memRead_memWrite_same (m : List Host.Cell) (lo a : Nat) (b : Byte) (h : memWfFrom lo m = true) :
    memRead (memWrite m a b) a = b := by
  induction m generalizing lo with
  | nil =>
    by_cases hb : b = memDefault
    · simp [memWrite, hb, memRead]
    · simp [memWrite, hb, memRead]
  | cons p t ih =>
    obtain ⟨k, v⟩ := p
    have h' := h
    simp only [memWfFrom, Bool.and_eq_true, decide_eq_true_eq] at h'
    by_cases h1 : a < k
    · by_cases hb : b = memDefault
      · have hk : k ≠ a := by omega
        simp [memWrite, h1, hb, memRead, hk, memRead_low t (k + 1) a h'.2 (by omega)]
      · simp [memWrite, h1, hb, memRead]
    · by_cases h2 : k = a
      · by_cases hb : b = memDefault
        · simp [memWrite, h2, hb, memRead_low t (k + 1) a h'.2 (by omega)]
        · simp [memWrite, h2, hb, memRead]
      · simp [memWrite, h1, h2, memRead, ih (k + 1) h'.2]

/-- A write leaves every other byte alone. -/
theorem memRead_memWrite_ne (m : List Host.Cell) (a c : Nat) (b : Byte) (h : c ≠ a) : memRead (memWrite m a b) c = memRead m c := by
  induction m with
  | nil =>
    by_cases hb : b = memDefault
    · simp [memWrite, hb]
    · simp [memWrite, hb, memRead, h.symm]
  | cons p t ih =>
    obtain ⟨k, v⟩ := p
    by_cases h1 : a < k
    · by_cases hb : b = memDefault
      · simp [memWrite, h1, hb]
      · simp [memWrite, h1, hb, memRead, h.symm]
    · by_cases h2 : k = a
      · subst h2
        by_cases hb : b = memDefault
        · simp [memWrite, hb, memRead, h.symm]
        · simp [memWrite, hb, memRead, h.symm]
      · simp [memWrite, h1, h2, memRead, ih]

/-- A write of several bytes leaves every byte outside them alone. -/
theorem memRead_memWriteBytes_ne (m : List Host.Cell) (a c : Nat) (bs : List Byte) (h : c < a ∨ a + bs.length ≤ c) :
    memRead (memWriteBytes m a bs) c = memRead m c := by
  induction bs generalizing m a with
  | nil => rfl
  | cons b bs ih =>
    simp only [List.length_cons] at h
    rw [memWriteBytes, ih _ _ (by omega), memRead_memWrite_ne _ _ _ _ (by omega)]

/-! The canonical form. -/

theorem memWfFrom_mono (m : List Host.Cell) (lo lo' : Nat) (h : memWfFrom lo m = true) (hl : lo' ≤ lo) : memWfFrom lo' m = true := by
  cases m with
  | nil => rfl
  | cons p t =>
    obtain ⟨k, v⟩ := p
    simp only [memWfFrom, Bool.and_eq_true, decide_eq_true_eq] at h ⊢
    exact ⟨⟨by omega, h.1.2⟩, h.2⟩

theorem memWfFrom_memWrite (m : List Host.Cell) (lo a : Nat) (b : Byte) (h : memWfFrom lo m = true) (ha : lo ≤ a) :
    memWfFrom lo (memWrite m a b) = true := by
  induction m generalizing lo with
  | nil =>
    by_cases hb : b = memDefault
    · simp [memWrite, hb, memWfFrom]
    · simp [memWrite, hb, memWfFrom, ha]
  | cons p t ih =>
    obtain ⟨k, v⟩ := p
    have h' := h
    simp only [memWfFrom, Bool.and_eq_true, decide_eq_true_eq] at h'
    by_cases h1 : a < k
    · by_cases hb : b = memDefault
      · simpa [memWrite, h1, hb] using h
      · have : memWfFrom (a + 1) ((k, v) :: t) = true := by
          simp only [memWfFrom, Bool.and_eq_true, decide_eq_true_eq]; exact ⟨⟨by omega, h'.1.2⟩, h'.2⟩
        rw [memWrite, if_pos h1, if_neg hb, memWfFrom, this, Bool.and_true, Bool.and_eq_true]
        exact ⟨decide_eq_true ha, bne_iff_ne.mpr hb⟩
    · by_cases h2 : k = a
      · by_cases hb : b = memDefault
        · rw [memWrite, if_neg h1, if_pos h2, if_pos hb]
          exact memWfFrom_mono t (k + 1) lo h'.2 (by omega)
        · subst h2
          simp [memWrite, hb, memWfFrom, ha, h'.2]
      · have := ih (k + 1) h'.2 (by omega)
        simp [memWrite, h1, h2, memWfFrom, h'.1, this]

/-- A write of one byte keeps the canonical form. -/
theorem memWf_memWrite (m : List Host.Cell) (a : Nat) (b : Byte) (h : memWf m = true) : memWf (memWrite m a b) = true :=
  memWfFrom_memWrite m 0 a b h (Nat.zero_le _)

/-- A write of several bytes keeps the canonical form. -/
theorem memWf_memWriteBytes (m : List Host.Cell) (a : Nat) (bs : List Byte) (h : memWf m = true) : memWf (memWriteBytes m a bs) = true := by
  induction bs generalizing m a with
  | nil => exact h
  | cons b bs ih => exact ih _ _ (memWf_memWrite m a b h)

theorem memWfFrom_memClear (m : List Host.Cell) (lo : Nat) (p : Nat → Bool) (h : memWfFrom lo m = true) :
    memWfFrom lo (memClear m p) = true := by
  induction m generalizing lo with
  | nil => rfl
  | cons q t ih =>
    obtain ⟨k, v⟩ := q
    simp only [memWfFrom, Bool.and_eq_true, decide_eq_true_eq] at h
    have := ih (k + 1) h.2
    unfold memClear at this ⊢
    by_cases hp : p k = true
    · rw [List.filter_cons_of_neg (by simp [hp])]
      exact memWfFrom_mono _ _ _ this (by omega)
    · rw [List.filter_cons_of_pos (by simp [hp])]
      simp only [memWfFrom, Bool.and_eq_true, decide_eq_true_eq]
      exact ⟨h.1, this⟩

/-- Clearing cells keeps the canonical form. -/
theorem memWf_memClear (m : List Host.Cell) (p : Nat → Bool) (h : memWf m = true) : memWf (memClear m p) = true :=
  memWfFrom_memClear m 0 p h

/-- A fold of writes keeps the canonical form. -/
theorem memWf_foldl {α : Type} (f : List Host.Cell → α → List Host.Cell) (hf : ∀ m a, memWf m = true → memWf (f m a) = true)
    (l : List α) (m : List Host.Cell) (h : memWf m = true) : memWf (l.foldl f m) = true := by
  induction l generalizing m with
  | nil => exact h
  | cons a t ih => exact ih _ (hf m a h)

end Sys2Proof.Machine
end

