-- ==== Sys2Proof/Laws/Request.lean ====
section
/-! SUPPORT. What a request does where no check turns it away before its own rule: the rule's judgement, carried out. -/

namespace Sys2Proof.Machine

@[simp] theorem takes_req (s : State) (op : Op) (r : Req) : (takes s op r).req = r := rfl
@[simp] theorem takes_op (s : State) (op : Op) (r : Req) : (takes s op r).op = op := rfl
@[simp] theorem takes_mode (s : State) (op : Op) (r : Req) : (takes s op r).mode = mode s.dev := rfl
@[simp] theorem longEnough_takes (s : State) (op : Op) (r : Req) (n : Nat) : longEnough (takes s op r) n = decide (n ≤ r.payload.length) := rfl

/-- The judgement of a rule carried out on the quiet device. -/
def judged (s : State) (j : Judge1) (t : Taken) : State :=
  let x := j (quiet s) t none
  after s (finish x.1 t none x.2)

/-- A served request reaches its rule. -/
theorem reqRow1_served {s : State} {op : Op} {j : Judge1} {r : Req} (h : served s (takes s op r)) :
    reqRow1 op j r s = .next (judged s j (takes s op r)) := by
  have hc : takesCells (clearOut s.dev) = true := h.2.1
  have hg : gate (clearOut s.dev) (takenOf (clearOut s.dev) op r (getMbx (clearOut s.dev) r.ch.val).epoch) = none := h.2.2
  simp only [reqRow1, run, takeReq, hc, judgeReq, hg, if_true]
  rfl

/-- A served request whose row is not another row's. -/
theorem reqRow_served {s : State} {op : Op} {i : Nat} {os : List Nat} {j : Judge1} {r : Req} (h : served s (takes s op r))
    (ho : os.contains (u8 r.payload i) = false) : reqRow op i os j r s = .next (judged s j (takes s op r)) := by
  have : ¬(i < r.payload.length ∧ os.contains (u8 r.payload i) = true) := by rintro ⟨_, h⟩; rw [ho] at h; cases h
  rw [reqRow, if_neg this]
  exact reqRow1_served h

/-! The ways a judgement ends. -/

theorem judged_ok {s : State} {j : Judge1} {t : Taken} {d : Dev} {body : List Byte} {b : Bool} (h : j (quiet s) t none = (d, .now .ok body b)) :
    judged s j t = granted s t d body b := by simp only [judged, h, finish, granted, answered]; rfl
theorem judged_late {s : State} {j : Judge1} {t : Taken} {d : Dev} {body : List Byte} {b : Bool} (h : j (quiet s) t none = (d, .now .late body b)) :
    judged s j t = answered s t d .late body b := by simp only [judged, h, finish, answered]; rfl
theorem judged_commit {s : State} {j : Judge1} {t : Taken} {d : Dev} {dom : Nat} (h : j (quiet s) t none = (d, .commit dom)) :
    judged s j t = committed s t d dom := by simp only [judged, h, finish, committed]; rfl
theorem judged_wait {s : State} {j : Judge1} {t : Taken} {d : Dev} {w : WaitFor} (h : j (quiet s) t none = (d, .wait w)) :
    judged s j t = awaits s t d w := by simp only [judged, h, finish, awaits]; rfl
theorem judged_done {s : State} {j : Judge1} {t : Taken} {d : Dev} (h : j (quiet s) t none = (d, .done)) : judged s j t = underWay s t d := by
  simp only [judged, h, finish, underWay]
theorem judged_fetch {s : State} {j : Judge1} {t : Taken} {d : Dev} {o : Nat}
    (h : j (quiet s) t none = (d, .fetch (bulkRef t.req.payload o).1 (bulkRef t.req.payload o).2.1 (bulkRef t.req.payload o).2.2)) :
    judged s j t = fetches s t d o := by simp only [judged, h, finish, fetches]; rfl

/-! The shared ways a change is taken. -/

/-- A change of a speaker chain. -/
theorem judged_chainChanges {s : State} {j : Judge1} {t : Taken} {dom : Option Nat} {f : Apply1} {d : Dev} {body : List Byte}
    (hf : f (quiet s) t none = (d, .ok, body)) (h : j (quiet s) t none = chainCommit (quiet s) t dom f) :
    judged s j t = chainChanges s t dom d body := by
  unfold chainCommit at h
  unfold chainChanges
  cases dom with
  | none => simp [hf] at h ⊢; exact judged_ok h
  | some n =>
    simp [hf] at h ⊢
    by_cases hc : atOnceMode t = true ∨ domRuns (getDom (quiet s) n).state = false
    · rw [if_pos hc] at h; rw [if_pos (by exact hc)]; exact judged_ok h
    · rw [if_neg hc] at h; rw [if_neg (by exact hc)]; exact judged_commit h

/-- A shadow commit, or a change at once in CONFIG. -/
theorem judged_changes {s : State} {j : Judge1} {t : Taken} {dom : Nat} {f : Apply1} {d : Dev} {body : List Byte}
    (hf : f (quiet s) t none = (d, .ok, body)) (h : j (quiet s) t none = commitOr (quiet s) t dom f) : judged s j t = changes s t dom d body := by
  unfold commitOr at h
  unfold changes
  simp [hf] at h ⊢
  by_cases hc : atOnceMode t = true
  · rw [if_pos hc] at h; rw [if_pos hc]; exact judged_ok h
  · rw [if_neg hc] at h; rw [if_neg hc]; exact judged_commit h

/-- A change that may need a power domain. -/
theorem judged_changesPd {s : State} {j : Judge1} {t : Taken} {dom pd : Nat} {needs : Bool} {f : Apply1} {d : Dev} {body : List Byte}
    (hf : f (quiet s) t none = (d, .ok, body)) (h : j (quiet s) t none = commitPd (quiet s) t dom pd needs f) :
    judged s j t = changesPd s t dom pd needs (powerPlan d) body := by
  unfold commitPd at h
  unfold changesPd
  simp [hf] at h ⊢
  by_cases hc : atOnceMode t = true
  · rw [if_pos hc] at h; rw [if_pos hc]
    by_cases hp : needs = true ∧ pdOn (powerPlan d) pd = false
    · rw [if_pos hp] at h; rw [if_pos hp]; exact judged_wait h
    · rw [if_neg hp] at h; rw [if_neg hp]; exact judged_ok h
  · rw [if_neg hc] at h; rw [if_neg hc]; exact judged_commit h

/-! The requests of the table. -/

/-- A row that another row's payload does not spell. -/
theorem reqRow_own {op : Op} {i : Nat} {os : List Nat} {j : Judge1} {r : Req} {s : State} (h : actionOk r i os = true) :
    reqRow op i os j r s = run (takeReq op j r) s := by
  unfold reqRow
  simp only [actionOk, Bool.not_eq_true', Bool.and_eq_false_iff, decide_eq_false_iff_not] at h
  split
  · rename_i h'
    rcases h with h | h
    · exact absurd h'.1 h
    · rw [h'.2] at h; cases h
  · rfl

/-- A well-formed request is taken and judged by its row's rule. -/
theorem exec_request {c : Instr} {op : Op} {j : Judge1} {r : Req} {s : State} (h : requestRow c = some (op, j, r)) (hw : c.wf = true) :
    exec c s = run (takeReq op j r) s := by
  cases c <;> simp only [requestRow, Option.some.injEq, Prod.mk.injEq, reduceCtorEq] at h <;>
    (obtain ⟨rfl, rfl, rfl⟩ := h
     first
     | exact reqRow_own (by simp only [Instr.wf, Bool.and_eq_true] at hw; exact hw.2)
     | rfl)

end Sys2Proof.Machine
end

