-- ==== Sys2Proof/Tests/Slice0.lean ====
section
/-! SUPPORT. Tests: an ill-formed operand for each check of WellFormed, a witness that meets the hypotheses of each statement (a theorem
test_wit_<statement>, its parts at boundary values of their ranges), and a few single steps.  Expected results are the spec's. -/

namespace Sys2Proof.Tests
open Sys2Proof.Machine
set_option Elab.async false

/-! States and messages. -/

/-- A payload of n bytes that begins with l. -/
def pad (l : List Nat) (n : Nat) : List Byte := (l ++ List.replicate (n - l.length) 0).map (BitVec.ofNat 8)
/-- A message of channel 0. -/
def msg (l : List Nat) (n : Nat) : Req := { ch := 0, tag := 1, replyReq := true, bulk := false, payload := pad l n }
/-- With a bulk reference. -/
def bmsg (l : List Nat) (n : Nat) : Req := { msg l n with bulk := true }
/-- Little-endian fields. -/
def w2 (v : Nat) : List Nat := [v % 256, v / 256 % 256]
def w4 (v : Nat) : List Nat := w2 (v % 65536) ++ w2 (v / 65536)
/-- A bulk reference to len bytes. -/
def region (len : Nat) : List Nat := w4 0x1000 ++ w4 0 ++ w4 len ++ w4 0

/-- Firmware runs in mode m with a session open on channel 0 and every power domain on; then changed by f. -/
def running (m : Mode) (f : Dev → Dev := id) : State :=
  let d := State.reset.dev
  { State.reset with dev := f { d with
    fw := { d.fw with mode := m, sessions := [(0, { isOpen := true, major := 3, minor := 4, mask := 0xFFE })] }
    hif := { d.hif with ctrlUp := true }
    power := { en := 0xFFFF, on := 0xFFFF, switching := 0 } } }
/-- D0 renders at 48 kHz, its last boundary at MT 1,600. -/
def locked (d : Dev) : Dev :=
  { d with dom := tabMod d.dom 0 (fun x => { x with state := .locked, mt := 1600, dt := 1000000, started := true, rendered := true }) }
def config : State := running .config
def service : State := running .service locked

/-! Session, time and scene requests. -/

abbrev ok (s : State) (op : Op) (r : Req) : Prop := served s (takes s op r) ∧ reqOk r = true

theorem test_wit_session_hello : let r := msg ([1, 0, 0, 0] ++ w4 0xFFE ++ [3, 4]) 32
    let r8 := msg ([8, 0, 0, 0] ++ w4 0 ++ [3, 4, 2, 0, 9, 9, 9, 9, 9, 9, 9, 9, 9, 9, 9, 9]) 32
    ok config .hello r ∧ bestVer r.payload = some (3, 4) ∧ ok config .hello r8 ∧ bestVer r8.payload = some (3, 4) ∧ isZero r8.payload 1 3 = true := by decide
theorem test_wit_session_plain : ok config .bye (msg [] 0) ∧ ok config .version (msg [] 0) ∧ ok config .caps (msg [] 0) ∧ ok config .ping (msg [1] 44) ∧
    ok config .modeGet (msg [] 0) ∧ ok config .fwSlotInfo (msg [] 0) := by decide
theorem test_wit_session_modeSet : let s := running .twin locked
    ok config .modeSet (msg [4] 4) ∧ modeOf 4 = some (mode config.dev) ∧ config.dev.fw.changing = none ∧ ok config .modeSet (msg [5] 4) ∧
    (modeTargets .config).contains .service = true ∧ ok s .modeSet (msg [4] 4) ∧ domRenders s.dev 0 = true ∧ (modeTargets .twin).contains .config = true ∧
    ok (running .twin) .modeSet (msg [4] 4) ∧ domRenders (running .twin).dev 0 = false := by decide
theorem test_wit_session_resetReq : let k := [0xD2, 0xC3]
    ok config .resetReq (msg ([0, 0] ++ k) 4) ∧ u16 (msg ([0, 0] ++ k) 4).payload 2 = 0xC3D2 ∧ ok config .resetReq (msg ([2, 2] ++ k) 4) ∧
    ok config .resetReq (msg ([2, 15] ++ k) 4) ∧ ok service .resetReq (msg ([1, 0] ++ k) 4) := by decide
theorem test_wit_session_counters : let r := msg ([0, 1, 0, 0] ++ w2 1 ++ w2 0) 8
    let r12 := msg ([0, 12, 0, 0] ++ (List.replicate 12 (w2 0x3B ++ w2 255)).flatten) 52
    ok config .telemetryGet r ∧ counterRange 1 = some 1 ∧ ok config .telemetryGet r12 ∧ counterRange 0x3B = some 256 ∧ u16 r12.payload 50 = 255 := by decide
theorem test_wit_session_block : let r := msg ([1, 0] ++ w2 1 ++ w4 0x40000000) 8
    let r11 := msg ([1, 0] ++ w2 11 ++ w4 (0x40120000 - 44)) 8
    let rb := bmsg ([1, 0] ++ w2 16384 ++ w4 0x40110000 ++ region 65536) 24
    ok config .telemetryGet r ∧ ok config .telemetryGet r11 ∧ u32 r11.payload 4 % 65536 + 44 = 65536 ∧ u32 r11.payload 4 ≤ 0x4011FFFF ∧
    ok config .telemetryGet rb ∧ bulkOk (bulkRef rb.payload 8) = true ∧ u32 rb.payload 4 % 65536 + 65536 ≤ 65536 ∧ (bulkRef rb.payload 8).2.1 = 4 * 16384 := by
  decide
theorem test_wit_session_log : let e : LogEntry := default
    let s := running .config (fun d => { d with fw := { d.fw with log := [e], logSeq := 1 } })
    ok s .logRead (msg (w4 0 ++ w2 1) 6) ∧ (0 : Word) = s.dev.fw.logSeq - BitVec.ofNat 32 s.dev.fw.log.length ∧
    ok s .logRead (bmsg (w4 0 ++ w2 1 ++ [0, 0] ++ region 32) 24) ∧ ok s .logRead (bmsg (w4 0 ++ w2 8192 ++ [0, 0] ++ region 262144) 24) ∧
    bulkOk (bulkRef (bmsg (w4 0 ++ w2 1 ++ [0, 0] ++ region 32) 24).payload 8) = true := by decide
theorem test_wit_session_latency : let input : Src := { kind := 2, chan := 0, index := 0 }
    let s := running .config (fun d => { d with ports := { d.ports with
      aesRx := [(0, { (default : AesRx) with cfg := { (default : AesRxCfg) with enable := true } })]
      aesTx := [(0, { (default : AesTx) with cfg := { (default : AesTxCfg) with enable := true }, chA := { src := input } })] } })
    let r := msg ([2, 0] ++ w2 0 ++ w2 0xFFFF ++ w2 0xFFFF ++ [1, 0] ++ w2 0) 12
    ok s .outLatencyGet r ∧ srcRange input = true ∧ (pathSegs (quiet s) input none none 1 0 0).isSome = true := by decide
/-- An update: its slot is erased, written and committed, in UPDATE. -/
def updating (x : Slot) : State := running .update (fun d => { d with flash := { d.flash with running := 1, update := some (0, 0), slots := tabSet d.flash.slots 0 x } })
theorem test_wit_session_update : let s := updating { state := .incomplete, length := 33554432 }
    ok s .fwUpdateBegin (msg ([0, 0, 0, 0] ++ w4 1 ++ w4 0) 12) ∧ updateMode (takes s .fwUpdateBegin (msg [] 12)) = true ∧ otherUpdate s.dev 0 = false ∧
    s.dev.flash.running ≠ 0 ∧ ok s .fwUpdateBegin (msg ([0, 0, 0, 0] ++ w4 33554432 ++ w4 0) 12) ∧ ok s .fwChunk (msg (w4 0 ++ w2 1 ++ [0, 0, 7]) 9) ∧
    ok s .fwChunk (msg (w4 0 ++ w2 48 ++ [0, 0]) 56) ∧ erasing s.dev 0 = false ∧ ok s .fwChunk (bmsg (w4 0 ++ region 4096) 20) ∧
    bulkOk (bulkRef (bmsg (w4 0 ++ region 4096) 20).payload 4) = true := by decide
theorem test_wit_session_commit : let s := updating { state := .incomplete, length := 1, received := 1, bytes := [7], crc := 0 }
    ok s .fwCommit (msg [0, 3, 0, 0] 4) ∧ crc32c [(7 : Byte)] ≠ 0 ∧ erasing s.dev 0 = false := by decide
theorem test_wit_session_selftest : ok service .selftestRun (msg [0, 7] 4) ∧ u32 (msg [0, 7] 4).payload 0 < 2048 ∧ u32 (msg [0, 7] 4).payload 0 / 16 % 16 = 0 ∧
    ok (running .selftest) .selftestRun (msg [15] 4) ∧ ok service .selftestRun (msg [0] 4) ∧ service.dev.selftest.mask = none := by decide

def domMsg (n a src flags rate allot hold : Nat) : Req := msg ([n, a, src, flags] ++ w4 rate ++ w2 allot ++ w2 hold) 12
def oneRate : State := running .singleRate
def acquiring : State := running .service (fun d => { d with dom := tabMod d.dom 2 (fun x => { x with state := .acquire }) })
theorem test_wit_clock_domainCfg_set : let r := domMsg 0 0 0 0 48000 256 60
    let q := domMsg 2 0 0 31 44100 0 3600
    (domCfgBad r.payload = false ∧ ok service .domainCfg r ∧ domRuns (getDom service.dev 0).state = true ∧ domBridgesOk service.dev 0 48000 = true ∧
     domFits service.dev 0 48000 256 = true ∧ domChainsOk service.dev 0 48000 = true) ∧
    (domCfgBad q.payload = false ∧ ok service .domainCfg q ∧ (getDom service.dev 2).state = .stopped ∧ domBridgesOk service.dev 2 44100 = true ∧
     domFits service.dev 2 44100 0 = true ∧ domChainsOk service.dev 2 44100 = true) ∧
    (ok oneRate .domainCfg (domMsg 1 0 0 0 48000 0 1) ∧ domFits oneRate.dev 1 48000 0 = true ∧ domBridgesOk oneRate.dev 1 48000 = true) := by decide
theorem test_wit_clock_domainCfg_actions :
    (ok service .domainCfg (msg [2, 1] 2) ∧ ok oneRate .domainCfg (msg [0, 1] 2) ∧ ok service .domainCfg (msg [0, 1] 2)) ∧
    (ok oneRate .domainCfg (msg [1, 2] 2) ∧ ok service .domainCfg (msg [1, 2] 2) ∧ ok service .domainCfg (msg [0, 2] 2) ∧ ok acquiring .domainCfg (msg [2, 2] 2)) ∧
    (ok acquiring .domainCfg (msg [2, 3] 2) ∧ ok service .domainCfg (msg [0, 3] 2) ∧ refValid service.dev 0 (getDom service.dev 0).cfg = true) ∧
    ok service .domainCfg (msg [2, 4] 2) := by decide
theorem test_wit_clock_time : let ptp (c : Nat) := msg ([c, 0, 0, 15, 0, 0, 0, 0, 0, 0, 0, 0, 0, 0, 0, 0] ++ w4 1000 ++ w4 10) 24
    let pulse (n mode tb start width : Nat) := msg ([n, mode, tb, 0] ++ w4 start ++ w4 0 ++ w4 0 ++ w4 width ++ w4 0) 24
    ok config .ptpCfg (ptp 0) ∧ ptpCfgBad (ptp 0).payload = false ∧ ok config .ptpCfg (ptp 3) ∧ ptpCfgBad (ptp 3).payload = false ∧ ok config .pulseCfg (pulse 7 1 0 20000 10) ∧
    pulseBad config.dev (pulseCfgOf (pulse 7 1 0 20000 10).payload) = false ∧ config.dev.time.dt = 0 ∧ ok config .pulseCfg (pulse 0 0 0 0 0) ∧
    pulseBad config.dev (pulseCfgOf (pulse 0 0 0 0 0).payload) = false ∧ ok config .captureCfg (msg ([3, 3, 3, 2] ++ w4 100) 8) ∧
    ok config .captureCfg (msg ([0, 0, 0, 0] ++ w4 1000000000) 8) := by decide

/-! Ill-formed operands: one for each check. -/

def long : Req := msg [] 449
/-- A message whose byte i is v. -/
def act (i v : Nat) : Req := msg (List.replicate i 0 ++ [v]) 24
def word (w : Word) : Issue := { w := w }
def dmaWord (l : List Nat) : DmaIssue := { word := pad l 32 }

set_option maxRecDepth 4000 in
theorem test_wf_payload : [Instr.hello long, .ping long, .objUpdate long, .matrixDirect long, .slotMask long, .graphLoad long, .selftestRun long].all (fun i => !i.wf) = true ∧
    (Instr.ping (msg [] 448)).wf = true := by decide
set_option maxRecDepth 4000 in
theorem test_wf_action : [Instr.telemetryGetCounters (act 0 1), .telemetryGetBlock (act 0 0), .domainCfgSet (act 1 4), .domainCfgStart (act 1 0), .domainStop (act 1 3),
    .domainCfgRealign (act 1 2), .domainCfgGet (act 1 1), .chainCfgColumn (act 0 1), .chainCfgBassGroup (act 0 0), .dynCfgSet (act 2 1), .grRead (act 2 0),
    .firLoadMap (act 16 1), .firLoadData (act 16 0), .haloCfgSet (act 0 2), .haloCfgOrient (act 0 0), .haloCfgGet (act 0 1), .seamCfgSet (act 2 1), .seamCfgGet (act 2 0),
    .micCfgSet (act 1 1), .micCfgGet (act 1 0), .toneDetCfgSet (act 1 2), .toneDetCfgStop (act 1 0), .toneDetCfgGet (act 1 1), .calStartMeasure (act 0 1),
    .calStartDesign (act 0 2), .calStartAbort (act 0 0), .trackCfgSet (act 0 1), .trackCfgGet (act 0 0), .trackCfgRead (act 0 1), .trackProposalList (act 0 2),
    .trackProposalRead (act 0 0), .trackProposalDiscard (act 0 1), .portCfgSet (act 2 4), .portCfgGet (act 2 3), .portCfgSource (act 2 1), .csRead (act 2 4),
    .csWrite (act 2 3), .alignGroupSet (act 1 2), .alignGroupGet (act 1 0), .alignGroupDissolve (act 1 1), .netPortCfgSet (act 1 1), .netPortCfgGet (act 1 2),
    .netPortCfgFilter (act 1 0), .flowRxCfgSet (act 2 1), .flowRxCfgLeg (act 2 0), .flowTxCfgSet (act 2 2), .flowTxCfgLeg (act 2 0), .flowTxCfgSource (act 2 1),
    .gateListSet (act 17 1), .gateListClear (act 17 0), .twinCfgSet (act 0 1), .twinCfgGet (act 0 0)].all (fun i => !i.wf) = true ∧
    [Instr.domainCfgSet (act 1 5), .domainCfgGet (act 1 4), .firLoadData (act 16 1), .csWrite (act 2 4)].all (·.wf) = true := by decide
theorem test_wf_ranges : [Instr.grHoldRead 640, .columnRampIn 640, .busUnbindRampEnd 640, .objectDisableRelease 1024, .timeSnapshot .pcie [(3, 1)],
    .captureEdge 0 true ⟨4, [(3, 0)]⟩, .domainBoundary 0 { pdm := [(8, [])] }, .matrixGrant true [{ master := 16, addr := 0, read := true }],
    .hostFrameStart 0 [{ (default : TxDesc) with bytes := pad [] 31 }] default, .arpResolveTimeout 0 (pad [] 5), .arpRefresh 0 [], .membershipReport 0 (pad [] 15),
    .portClockRecovered 2 16, .portClockRecovered 3 8, .portClockRecovered 0 0, .slipRampIn 1 16, .slipRampIn 4 256, .slipRampIn 5 0, .mappingLost 1 0, .mappingLost 0 16,
    .mappingLost 3 8, .senseUpdate [.rail 8 default], .senseUpdate [.temp 8 default], .senseUpdate [.cable 16 default default], .senseUpdate [.loss 10 default default]].all (fun i => !i.wf) = true ∧
    [Instr.grHoldRead 639, .columnRampIn 639, .busUnbindRampEnd 0, .objectDisableRelease 1023, .timeSnapshot .pcie [(2, 1)], .portClockRecovered 2 15, .slipRampIn 4 255,
      .mappingLost 3 7, .arpRefresh 0 (pad [] 16)].all (·.wf) = true := by decide
set_option maxRecDepth 4000 in
/-- A word of another row, for every row of the tiles and of the DMA engine. -/
theorem test_wf_words : [Instr.vadd 0 (word 0), .vsub 0 (word 0), .vmin 0 (word 0), .vmax 0 (word 0), .vabs 0 (word 0), .vneg 0 (word 0), .vand 0 (word 0), .vor 0 (word 0),
    .vxor 0 (word 0), .vshl 0 (word 0), .vasr 0 (word 0), .vrsr 0 (word 0), .vlsr 0 (word 0), .vmov 0 (word 0), .valign 0 (word 0), .vcmplt 0 (word 0), .vsel 0 (word 0),
    .amul 0 (word 0), .amac 0 (word 0), .amsu 0 (word 0), .aadd 0 (word 0), .aclr 0 (word 0), .ald 0 (word 0), .asum 0 (word 0), .amov 0 (word 0), .ext 0 (word 0),
    .add 0 (word 0), .sub 0 (word 0), .and 0 (word 0), .or 0 (word 0), .xor 0 (word 0), .shl 0 (word 0), .asr 0 (word 0), .lsr 0 (word 0), .mul 0 (word 0), .slt 0 (word 0),
    .sltu 0 (word 0), .jr 0 (word 0), .callr 0 (word 0), .addi 0 (word 0), .movi 0 (word 0), .movhi 0 (word 0), .mtp 0 (word 0), .mfp 0 (word 0), .mtn 0 (word 0),
    .mfn 0 (word 0), .mtl 0 (word 0), .mfl 0 (word 0), .vins 0 (word 0), .vext 0 (word 0), .vbc 0 (word 0), .mts 0 (word 0), .mfs 0 (word 0), .br 0 (word 0),
    .call 0 (word 0), .rep 0 (word 0), .ldv 0 (word 0), .stv 0 (word 0), .lds 0 (word 0), .sts 0 (word 0), .ldb 0 (word 0), .nop 0 (word 1), .tfetch 0 (word 0),
    .tdone 0 (word 0), .sync 0 (word 0), .trap 0 (word 0), .move 0 (dmaWord [2]), .loop 0 (dmaWord [1]), .wait 0 (dmaWord [1]), .signal 0 (dmaWord [1]), .stop 0 (dmaWord [1]),
    .stop 0 { word := pad [5] 31 }].all (fun i => !i.wf) = true := by decide
/-- An operand of another row is the one fault there is; a step on it changes nothing. -/
theorem test_wf_fault : exec (.vadd 0 (word 0)) config = .fault .otherRow ∧ exec (.telemetryGetBlock (act 0 0)) config = .fault .otherRow ∧
    exec (.stop 0 (dmaWord [1])) config = .fault .otherRow := ⟨rfl, rfl, rfl⟩
/-- A word of no row is the ADD row's, where it raises ILLEGAL (R279). -/
theorem test_wf_illegal_word : (Instr.add 0 (word 0x7C000000)).wf = true ∧ (Instr.add 0 (word 0x10000000)).wf = true := by decide

/-! The host interface. -/

def withMbx (m : Mailbox) : State := running .config (fun d => { d with mbx := [(0, m)] })
def rows (n : Nat) (c : List Byte) : List (List Byte) := List.replicate n c

theorem test_wit_mailbox : hostReaches config .pcie ∧ hostReaches config .spi ∧ ownsMbx .pcie 0 = true ∧ ownsMbx .pcie 7 = true ∧ ownsMbx .spi 4 = true ∧
    (1 : Word).getLsbD 0 = true ∧ (getMbx (withMbx { (default : Mailbox) with inFifo := rows 7 (pad [] 64) }).dev 0).inFifo.length < 8 ∧
    8 ≤ (getMbx (withMbx { (default : Mailbox) with inFifo := rows 8 (pad [] 64) }).dev 0).inFifo.length ∧
    ¬ (running .off (fun d => { d with hif := { d.hif with ctrlUp := false } })).dev.hif.ctrlUp = true := by unfold hostReaches; decide
theorem test_wit_cells : let stale := pad [4, 0, 0, 0, 0, 0, 0, 1] 64
    let back := pad [0, 128] 64
    u8 stale 7 ≠ (getMbx config.dev 0).epoch.toNat ∧ u8 back 7 = (getMbx config.dev 0).epoch.toNat ∧ 0x8000 ≤ u16 back 0 ∧
    (getMbx (withMbx { (default : Mailbox) with inFifo := [stale, back] }).dev 0).inFifo = stale :: [back] ∧ config.dev.fw.queue = [] := by decide
theorem test_wit_chain_timeout : let k : Chain := { (default : Chain) with opcode := 4 }
    tabGet (running .config (fun d => { d with fw := { d.fw with chains := [(0, some k)] } })).dev.fw.chains 0 = some k := by decide
def waiting (ch : Nat) : OutMsg := { ch := ch, opcode := 0x8004, tag := 1, bulk := false, payload := [0], isReply := true }
theorem test_wit_outbound : takeOut 0 [waiting 1, waiting 0, waiting 0] = some (waiting 0, [waiting 1, waiting 0]) ∧
    (getMbx (withMbx { (default : Mailbox) with outFifo := rows 31 [] }).dev 0).outFifo.length < 32 ∧
    takeOut 5 [waiting 5] = some (waiting 5, []) ∧ (let t : Twin := { (default : Twin) with lanes := 1, handshake := true, linkCtrl := 7 }
      linkUp t = true ∧ linkCarries t = true) ∧ Settled config.dev := by decide
theorem test_wit_key : (0xC3D20001 : Word) >>> 16 = 0xC3D2 ∧ (0xC3D10001 : Word) >>> 16 ≠ 0xC3D2 := by decide
theorem test_wit_powered : (∀ p, p < 4 → pdOn config.dev (netPd p) = true) ∧ pdOn config.dev (blockPd 0x40040C00) = true ∧ pdOn config.dev (blockPd 0x40090100) = true ∧
    pdOn config.dev (blockPd 0x40090204) = true ∧ pdOn config.dev (blockPd 0x400505E0) = true ∧ pdOn config.dev 2 = true ∧ pdOn config.dev 15 = true := by decide
theorem test_wit_rings : let x : Ring := { (default : Ring) with size := 8, head := 4 }
    ((11 : Word) - x.head).toNat < x.size.toNat ∧ x.size.toNat ≤ ((12 : Word) - x.head).toNat ∧ (12 : Word) ≠ x.head := by decide
/-- Channel 0 of the DMA engine in a state. -/
def dmaIn (st : DmaState) : State := running .config (fun d => { d with dma := { d.dma with ch := [(0, { (default : DmaChan) with state := st })] } })
theorem test_wit_dma_states : dmaStopped (getDma config.dev 0).state = true ∧ (getDma (dmaIn .running).dev 0).state = .running ∧
    (getDma (dmaIn .paused).dev 0).state = .paused ∧ dmaStopped (getDma (dmaIn .running).dev 0).state = false := by decide
theorem test_wit_serial : (3 : BitVec 4) ≠ 15 ∧ ¬(0x1000 ≤ 0x3000 ∧ 0x3000 < 0x3000 ∧ 0x3000 % 0x400 < 0x40) ∧ (0x80 : Byte) &&& 0x3F = 0 ∧ (0x80 : Byte).getLsbD 7 = true ∧
    (0x40 : Byte) &&& 0x3F = 0 ∧ (0x01 : Byte) &&& 0x3F ≠ 0 ∧ 0x1001 % 4 ≠ 0 := by decide

/-! Supplies, starts, modes and power. -/

def aonOf (f : Aon → Aon) : State := running .config (fun d => { d with aon := f d.aon })
theorem test_wit_supplies : (aonOf (fun a => { a with vddAon := false })).dev.aon.vddAon = false ∧
    (let a := (aonOf (fun a => { a with vddAon := true, resetN := true, refclk := true })).dev.aon
     a.vddAon = true ∧ a.resetN = true ∧ a.refclk = true) ∧
    (let a := (aonOf (fun a => { a with vddAon := true, resetN := false, refclk := true })).dev.aon
     a.vddAon = true ∧ a.resetN = false ∧ a.refclk = true) ∧
    (let a := (aonOf (fun a => { a with vddAon := true, resetN := true, refclk := false })).dev.aon
     a.vddAon = true ∧ a.resetN = true ∧ a.refclk = false) := by decide
/-- A start after n failures. -/
def starting (n : Nat) (host : Bool) (cell : List Byte) : State :=
  { State.reset with dev := { State.reset.dev with
      aon := { State.reset.dev.aon with bootcnt := BitVec.ofNat _ n, bootSrc := host }
      hif := { State.reset.dev.hif with dblH2D := 1 }
      mbx := [(0, { (default : Mailbox) with inCell := cell })] } }
theorem test_wit_starts : State.reset.dev.fw.mode = .boot ∧ State.reset.dev.hif.ctrlUp = false ∧ (starting 1 false []).dev.aon.bootcnt.toNat < 2 ∧
    2 ≤ (starting 2 false []).dev.aon.bootcnt.toNat ∧ (starting 0 true []).dev.aon.bootSrc = true ∧ State.reset.dev.flash.hostImage = [] ∧
    State.reset.dev.hif.dblH2D.getLsbD 0 = false ∧ (starting 0 true []).dev.hif.dblH2D.getLsbD 0 = true := by decide
theorem test_wit_bootSlot : (bootSlot State.reset.dev.flash 0).isSome = true := by decide +kernel
theorem test_wit_hostImage : let c := pad (w4 0 ++ w4 0 ++ w4 2097153) 64
    2097152 < u32 (getMbx (starting 0 true c).dev 0).inCell 8 ∧ u32 (getMbx (starting 0 true (pad (w4 0 ++ w4 0 ++ w4 2097152) 64)).dev 0).inCell 8 ≤ 2097152 := by decide
theorem test_wit_restarts : config.dev.hif.ctrlUp = true ∧ config.dev.hif.restarting = false ∧
    (let s := running .config (fun d => { d with hif := { d.hif with ctrlUp := false, restarting := true }, fw := { d.fw with restart := some default } })
     s.dev.hif.ctrlUp = false ∧ s.dev.hif.restarting = true ∧ s.dev.fw.restart = some default) ∧ config.dev.fw.resetPending = [] := by decide
theorem test_wit_modes :
    (let s := running .retain (fun d => { d with aon := { d.aon with wakeEn := 3 }, hif := { d.hif with dblH2D := 0x80000000 } })
     s.dev.fw.mode = .retain ∧ s.dev.fw.changing = none ∧ s.dev.aon.wakeEn.getLsbD 0 = true ∧ s.dev.aon.wakeEn.getLsbD 1 = true ∧ s.dev.hif.dblH2D.getLsbD 31 = true) ∧
    (let s := running .config (fun d => { d with fw := { d.fw with changing := some { target := .twin, cause := 0, asked := none } }
                                                 twin := { d.twin with state := .linking } })
     (s.dev.fw.changing.map (·.target)) = some .twin ∧ s.dev.twin.state = .linking ∧ s.dev.hif.ctrlUp = true) ∧
    (config.dev.power.switching.getLsbD 15 = false ∧ (0x8000 : Half).getLsbD 15 = true) ∧ (updating {}).dev.flash.update = some (0, 0) := by decide

/-! Domains and the render period. -/

def domOf (f : Domain → Domain) : State := running .service (fun d => { d with dom := tabMod d.dom 2 f })
theorem test_wit_boundary : domRuns (getDom service.dev 0).state = true ∧ (getDom acquiring.dev 2).state = .acquire ∧ (getDom acquiring.dev 2).closing = none := by decide
theorem test_wit_lock : (let x := getDom (domOf (fun x => { x with state := .acquire, within := 64 })).dev 2
      x.state = .acquire ∧ 64 ≤ x.within ∧ slaved (domOf id).dev = false ∧ refValid (domOf id).dev 2 x.cfg = true) ∧
    (getDom acquiring.dev 2).within < 64 ∧ (getDom (domOf (fun x => { x with state := .holdover })).dev 2).state = .holdover ∧ mode service.dev ≠ .singleRate ∧
    service.dev.fw.changing = none ∧ (let x := getDom (domOf (fun x => { x with state := .locked, within := 64 })).dev 2; x.state = .locked ∧ 64 ≤ x.within) := by decide
theorem test_wit_closing : (let c : Closing := { (default : Closing) with b := 1600, counts := true }
      let x := getDom (domOf (fun x => { x with state := .realign, mt := 1632, closing := some c })).dev 2
      x.closing = some c ∧ c.cleared = false ∧ mtGe x.mt (c.b + 16) = true ∧ mtGe x.mt (c.b + 32) = true ∧ x.state = .realign) ∧
    mtGe (1631 : MT) (1600 + 32) = false := by decide
/-- Column 3 is bound to D0, which renders its period up to MT 1,616. -/
def rendering : State := running .service (fun d => { locked d with
  scene := { d.scene with cols := [(3, { (default : Column) with bind := { (default : Binding) with mode := 1, dom := 0 } })] }
  render := { d.render with dom := [(0, { (default : DomRender) with active := true, published := false, b := 1616 })], gates := [(3, { (default : Gate) with phase := .zero, clean := 4 })] } })
theorem test_wit_render : let r := getRender rendering.dev 0
    r.active = true ∧ r.published = false ∧ 7 ∉ r.cut ∧ chainOf rendering.dev 0 3 = true ∧ chainOf rendering.dev 0 4 = false ∧ (getRender config.dev 0).active = false ∧
    colDomOf rendering.dev 3 = some 0 ∧ (tabGet rendering.dev.render.gates 3).phase = .zero ∧ 4 ≤ (tabGet rendering.dev.render.gates 3).clean ∧
    domRenders rendering.dev 0 = true := by decide
theorem test_wit_dispatch : let s := running .service (fun d => { d with tiles := { d.tiles with
      sched := { d.tiles.sched with ctrl := 0x10000, tasks := [(5, { (default : Task) with used := true, state := .ready })] }
      cores := [(1, { (default : DspCore) with fetching := some 4 })] } })
    pdOn s.dev 1 = true ∧ pdOn s.dev 10 = true ∧ s.dev.tiles.sched.ctrl.getLsbD 16 = true ∧ readyOrder s.dev.tiles.sched 0 = [5] ∧ idleCores s.dev.tiles 0 = [1] := by decide

/-! DSP cores: a word of each row, in the formats of R273, at a core that can issue it. -/

def fmt (l : List (Nat × Nat)) : Word := l.foldl (fun w x => w ||| (BitVec.ofNat 32 x.2 <<< x.1)) 0
def vv (fn : Nat) : Word := fmt [(26, 1), (21, 3), (16, 1), (11, 2), (10, 1), (5, 4), (0, fn)]
def ac (fn : Nat) : Word := fmt [(26, 2), (23, 7), (18, 1), (13, 2), (10, 6), (9, 1), (6, 5), (0, fn)]
def sr (fn sd sb : Nat) : Word := fmt [(26, 4), (22, sd), (18, 2), (14, sb), (0, fn)]
def xf (fn dst src ln : Nat) : Word := fmt [(26, 8), (21, dst), (16, src), (13, ln), (0, fn)]
def mw (opc reg am imm : Nat) : Word := fmt [(26, opc), (21, reg), (18, 1), (16, am), (0, imm)]
def pairOf (a m : Word) : Issue := { w := a ||| 0x80000000, next := m, cycles := 1 }
/-- Core 5, idle at the boot ROM, with P1 in its data memory, S2 = 7 and one lane of V1. -/
def core5 (f : DspCore → DspCore := id) : State := running .service (fun d => { d with tiles := { d.tiles with
  cores := [(5, f { (default : DspCore) with p := [(1, 0xE0000100)], s := [(2, 7)], v := [(8, 0x80000000)] })] } })
def can (s : State) (w : Word) (own : Word → Bool) : Bool :=
  let c := getCore s.dev.tiles 5
  own w && pdOn s.dev 10 && c.fetching.isNone && !fetchFails c (word w) && issueMatches s.dev.tiles 5 c (word w) && !pairIllegal (word w) && !isPair w

theorem test_wit_vector_words : (List.range 17).all (fun n => can core5 (vv n) (isVV n)) = true := by decide
theorem test_wit_accumulator_words : (List.range 8).all (fun n => can core5 (ac n) (isAC n)) = true ∧
    can core5 (fmt [(26, 3), (21, 3), (18, 7), (12, 63), (11, 1)]) isRX = true := by decide
theorem test_wit_scalar_words : (List.range 11).all (fun n => can core5 (sr n 15 3) (isSR n)) = true ∧
    [(5, 0x8000), (6, 0xFFFF), (7, 1)].all (fun x => can core5 (fmt [(26, x.1), (22, 4), (0, x.2)]) (isOpc x.1)) = true := by decide
theorem test_wit_transfer_words : [0, 2, 4].all (fun n => can core5 (xf n 7 15 0) (isXF n)) = true ∧ [1, 3, 5].all (fun n => can core5 (xf n 15 7 0) (isXF n)) = true ∧
    can core5 (xf 6 31 15 7) (isXF 6) = true ∧ can core5 (xf 7 15 31 7) (isXF 7) = true ∧ can core5 (xf 8 31 2 0) (isXF 8) = true ∧
    [0, 1, 2, 8].all (fun n => can core5 (xf 9 n 2 0) (isXF 9)) = true ∧ (List.range 9).all (fun n => can core5 (xf 10 3 n 0) (isXF 10)) = true := by decide
theorem test_wit_control_words : can core5 (sr 11 0 0) (isSR 11) = true ∧ can core5 (sr 12 0 0) (isSR 12) = true ∧ can core5 (fmt [(26, 10), (0, 0xFFFF)]) (isOpc 10) = true ∧
    (List.range 7).all (fun n => can core5 (fmt [(26, 9), (22, 2), (19, n), (0, 0x7FFF)]) (isOpc 9)) = true ∧
    [0, 1, 2, 4095].all (fun n => can core5 (fmt [(26, 11), (13, n), (0, 1)]) (isOpc 11)) = true ∧ can core5 (fmt [(26, 11), (25, 1), (13, 2), (0, 8191)]) (isOpc 11) = true ∧
    (let w := fmt [(26, 11), (13, 2), (0, 1)]
     let s := core5 (fun c => { c with pc := 0xE0100000 })
     let s : State := { s with dev := { s.dev with tiles := { s.dev.tiles with mem := [(0x20250000, 1), (0x20250001, 0x40), (0x20250003, 0x2C)] } } }
     w = 0x2C004001 ∧ can s w (isOpc 11) = true ∧ isPair (coreWord s.dev.tiles 5 0xE0100004) = false ∧ (getCore s.dev.tiles 5).rpt.length < 4) := by decide
theorem test_wit_system_words : (List.range 5).all (fun n => can core5 (fmt [(22, 2), (18, 2), (0, n)]) (isSys n) || n == 0) = true ∧ can core5 0 (isSys 0) = true ∧
    (getCore core5.dev.tiles 5).failed = none ∧
    (let s := core5 (fun c => { c with task := 0x60 })
     let t : Task := { (default : Task) with used := true, state := .running, core := 5 }
     let s : State := { s with dev := { s.dev with tiles := { s.dev.tiles with sched := { s.dev.tiles.sched with tasks := [(descIx 0x60, t)] } } } }
     (getCore s.dev.tiles 5).task ≠ 0 ∧ getTask s.dev.tiles (descIx (getCore s.dev.tiles 5).task) = t) := by decide
theorem test_wit_memory_words : [0x10, 0x11, 0x12, 0x13, 0x14].all (fun o => [0, 1, 2, 3].all (fun am => can core5 (mw o 9 am 4095) (isOpc o))) = true ∧
    [0x10, 0x11, 0x12, 0x13, 0x14].all (fun o => mAccess core5.dev.tiles 5 (getCore core5.dev.tiles 5) (mw o 9 0 1) false == .fine) = true ∧
    (let a := (mAddr (getCore core5.dev.tiles 5) (mw 0x13 9 0 1)).ea
     a = 0xE0000104 ∧ coreTarget 5 a.toNat = some (.data 5, 0x20140104) ∧ mirrorOff 0x20140104 = none) ∧ memWf core5.dev.tiles.mem = true := by decide
theorem test_wit_pairs : [(vv 0, isVV 0), (vv 1, isVV 1), (vv 13, isVV 13), (vv 14, isVV 14), (vv 16, isVV 16), (ac 1, isAC 1), (ac 6, isAC 6),
      (fmt [(26, 3), (21, 3), (18, 7)], isRX), (sr 1 0 3, isSR 1), (sr 8 0 3, isSR 8), (fmt [(26, 5), (22, 4)], isOpc 5), (fmt [(26, 7), (22, 4)], isOpc 7),
      (xf 0 3 2 0, isXF 0), (xf 1 3 2 0, isXF 1), (xf 6 3 2 0, isXF 6), (xf 8 3 2 0, isXF 8), (xf 9 2 2 0, isXF 9), (xf 10 3 2 0, isXF 10), (0, isSys 0)].all (fun x =>
      [0x10, 0x11, 0x12, 0x13, 0x14].all (fun o =>
        let i := pairOf x.1 (mw o 9 2 1)
        let c := getCore core5.dev.tiles 5
        x.2 i.w && isPair i.w && !fetchFails c i && issueMatches core5.dev.tiles 5 c i && !pairIllegal i && mAccess core5.dev.tiles 5 c i.next false == .fine)) = true := by decide
theorem test_wit_exceptions : let c := getCore core5.dev.tiles 5
    let bad : Issue := { word (vv 0) with fetchBad := true }
    (fetchFails c bad = true ∧ c.failed = none ∧ c.fetching = none) ∧ pairIllegal (pairOf 0 0) = true ∧ isSys 0 (pairOf 0 0).w = true ∧ fetchFails c (pairOf 0 0) = false ∧
    issueMatches core5.dev.tiles 5 c (pairOf 0 0) = true ∧
    (let x := core5 (fun c => { c with p := [(1, 0xE0000101)] })
     can x (mw 0x12 9 0 0) (isOpc 0x12) = true ∧ (mAddr (getCore x.dev.tiles 5) (mw 0x12 9 0 0)).ea.toNat % 4 ≠ 0) ∧
    (getCore (core5 (fun c => { c with failed := some (0x36000000, 0xE0100000) })).dev.tiles 5).failed = some (0x36000000, 0xE0100000) := by decide

/-- The core after a command. -/
def after5 (c : Instr) (s : State) : Option DspCore :=
  match exec c s with
  | .next t => some (getCore t.dev.tiles 5)
  | _ => none
/-- The examples of R266: EXT with SH = 31. -/
theorem test_ext : let a : Tab (BitVec 80) := [(56, 3 * 2 ^ 30), (57, 5 * 2 ^ 30), (58, 2 ^ 30), (59, BitVec.ofInt 80 (-3 * 2 ^ 30)), (60, 2 ^ 62)]
    let w := fmt [(26, 3), (21, 3), (18, 7), (12, 31)]
    let x := after5 (.ext 5 (word (w + 0x800))) (core5 (fun c => { c with a := a }))
    let y := after5 (.ext 5 (word w)) (core5 (fun c => { c with a := a }))
    x.map (fun c => ((List.range 5).map (fun j => tabGet c.v (24 + j)), c.satf)) = some ([2, 2, 0, 0xFFFFFFFE, 0x7FFFFFFF], true) ∧
    y.map (fun c => ((List.range 5).map (fun j => tabGet c.v (24 + j)), c.satf)) = some ([2, 2, 0, 0xFFFFFFFE, 0x80000000], true) := by decide +kernel
/-- VABS of −2³¹: −2³¹ without SAT, 2³¹ − 1 with it; both set SATF (R267). -/
theorem test_vabs : let w := fmt [(26, 1), (21, 3), (16, 1), (0, 4)]
    (after5 (.vabs 5 (word w)) core5).map (fun c => (tabGet c.v 24, c.satf)) = some (0x80000000, true) ∧
    (after5 (.vabs 5 (word (w + 0x400))) core5).map (fun c => (tabGet c.v 24, c.satf)) = some (0x7FFFFFFF, true) := by decide +kernel
/-- An access with MODULO wraps in its buffer (R269): P1 = 0x100 before its end at 0x110, of length 0x10 bytes. -/
theorem test_modulo : (after5 (.lds 5 (word (mw 0x12 9 2 4 + 0x1000))) (core5 (fun c => { c with p := [(1, 0xE0000108)], l := [(1, 16)] }))).map (fun c => tabGet c.p 1) =
    some 0xE0000108 := by decide +kernel

/-! The DMA engine and the matrix. -/

def dmaOf (n : Nat) (f : DmaChan → DmaChan) (g : Dev → Dev := id) : State :=
  running .service (fun d => g { d with dma := { d.dma with ch := [(n, f { (default : DmaChan) with state := .running })] } })
/-- Two channels' instructions: a MOVE of 64 bytes from host space to the pool, in each checked form. -/
def moveWord (flags mf swap burst line len : Nat) : List Byte :=
  pad ([1, flags, mf, swap, burst, line, 0, 0] ++ w4 0x1000 ++ w4 0 ++ w4 0x30000000 ++ w4 0 ++ w4 len ++ w4 0) 32
theorem test_wit_dma_words : let c := getDma (dmaOf 8 id).dev 8
    let m := moveWord 4 1 3 16 0 64
    c.state = .running ∧ c.move = none ∧ (m.length = 32 ∧ dmaRowOwn 1 { word := m } = true) ∧
    moveBad 8 m = false ∧ u32 m 24 ≠ 0 ∧ moveCheck (moveAddrs c m) m = none ∧ u8 m 1 < 8 ∧ bit (u8 m 1) 1 = false ∧
    (let l (n : Nat) := pad ([2, 0, 0, 0] ++ w4 n ++ w2 1) 32
     let c : DmaChan := { c with pc := 1, act0 := some 1, lc0 := 1 }
     loopBad c (l 0) = false ∧ loopBad c (l 4294967295) = false ∧ c.lc0.toNat = 1 ∧ loopBad { c with act0 := none, lc0 := 0 } (l 1) = false) ∧
    (let w (k i : Nat) := pad [3, 0, k, i] 32
     waitBad 8 (w 2 31) = false ∧ waitBad 8 (w 5 31) = false ∧ waitBad 7 (w 5 7) = false ∧ waitBad 8 (w 4 7) = false ∧
     waitHolds (dmaOf 8 id).dev 8 { kind := 2, index := 31 } false = false ∧
     waitHolds (dmaOf 8 id (fun d => { d with hif := { d.hif with dblH2D := 0x80000000 } })).dev 8 { kind := 2, index := 31 } false = true ∧
     waitHolds (dmaOf 8 id (fun d => { d with dma := { d.dma with flags := 0x80000000 } })).dev 8 { kind := 5, index := 31 } false = true) := by decide
theorem test_wit_dma_signal_stop : let g (k i f : Nat) (a : Nat) := pad ([4, 0, k, i, f, 0, 0, 0] ++ w4 a ++ w4 0 ++ w4 7) 32
    signalBad 8 (g 1 31 0 0) = false ∧ signalBad 8 (g 2 31 0 0) = false ∧ signalBad 7 (g 2 7 0 0) = false ∧ signalBad 8 (g 3 0 1 0x1000) = false ∧
    signalBad 8 (g 3 0 0 0x30000000) = false ∧ dmaDenies (dmaOf 8 id).dev 8 0x30000000 = none ∧ isZero (pad [5] 32) 2 30 = true ∧
    dmaRowOwn 5 { word := pad [5] 32 } = true ∧ dmaRowOwn 1 { word := pad [6] 32 } = true ∧ dmaRowOwn 1 { word := pad [255, 8] 32 } = true ∧
    (getDma (dmaOf 8 id).dev 8).cqSize = 0 ∧ dmaDenies (dmaOf 8 id).dev 8 (dmaPcAddr (getDma (dmaOf 8 id).dev 8)) = none := by decide
theorem test_wit_dma_burst : let mv : DmaMove := { mflags := 1, burst := 4, total := 32, left := 32 }
    let s := dmaOf 8 (fun c => { c with move := some mv, src := 0x1000, dst := 0x31FFFFF0 })
    let k := min mv.burst (mv.left / 4)
    let c := getDma s.dev 8
    c.state = .running ∧ c.move = some mv ∧ mv.line = 0 ∧ mv.swap = 0 ∧ mv.held = [] ∧ mv.mflags = 1 ∧ bit mv.flags 1 = false ∧ 0 < k ∧ mv.left % 4 = 0 ∧
    4 * k ≤ (pad [] 16).length ∧ c.dst.toNat % 4 = 0 ∧ 0x30000000 ≤ c.dst.toNat ∧ c.dst.toNat + 4 * k ≤ 0x32000000 ∧ pdOn s.dev 14 = true ∧
    memWf s.dev.tiles.mem = true ∧ c.src.toNat + 4 * k < 2 ^ 64 ∧ 4 * k < mv.left ∧ { mv with left := 16 }.left = 4 * k ∧ (pad [1, 2, 3, 4] 4).length % 2 = 0 ∧
    dmaTurn s.dev.dma (8 :: [9, 3].filter (burstReady s.dev)) = some 8 := by decide
theorem test_dma_turn : dmaTurn { lastHost := 2, lastDev := 31, devLast := true } [9, 8, 2, 5] = some 5 ∧
    dmaTurn { lastHost := 2, lastDev := 8, devLast := false } [9, 8, 2, 5] = some 9 ∧ dmaTurn { lastHost := 2 } [2] = some 2 ∧
    dmaTurn { lastDev := 9 } [9, 8] = some 8 ∧ burstReady service.dev 8 = false := by decide
theorem test_wit_dma_waits : let w : DmaWait := { kind := 2, index := 3, stop := some 5000 }
    let st : DmaChan → DmaChan := fun c => { c with state := .waiting, wait := some w }
    let up : Dev → Dev := fun d => { d with hif := { d.hif with dblH2D := 8 } }
    (getDma (dmaOf 8 st).dev 8).wait = some w ∧ (getDma (dmaOf 8 st).dev 8).state = .waiting ∧ waitHolds (dmaOf 8 st).dev 8 w true = false ∧
    waitHolds (dmaOf 8 st).dev 8 w false = false ∧ waitHolds (dmaOf 8 st up).dev 8 w true = true ∧ waitHolds (dmaOf 8 st up).dev 8 w false = true ∧
    (let mv : DmaMove := { mflags := 1 }
     bit mv.mflags 0 = true) ∧ (getDma (dmaOf 7 id).dev 7).move = none ∧ (getDma (dmaOf 7 id).dev 7).state = .running := by decide
theorem test_wit_matrix : (5 < 16 ∧ service.dev.mtx.isolated.getLsbD 5 = false) ∧ mtxTarget 0x30000000 = some 10 ∧
    mtxReach 10 { master := 1, addr := 0x30000000, read := true } = true ∧
    mtxTarget 0x10000000 = none ∧ mtxPrivate service.dev { master := 3, addr := 0x10000000, read := false } = false := by decide
theorem test_wit_matrix_round : mtxRound (some 15) [0, 15] = some 0 ∧ mtxRound (some 3) [1, 3, 9] = some 9 := by decide

/-! Work that engines and firmware finish. -/

/-- GRAPH_LOAD on channel 2, its region's 4 bytes still on their way. -/
def fetching (live : Bool) (crc : Word) : State := running .config (fun d =>
  { d with fw := { d.fw with bulks := [{ taken := { op := .graphLoad, req := { bmsg [] 24 with ch := 2 } }, addr := 0x1000, len := 4, crc := crc, live := live }] } })
/-- The check value of CRC-32C: that of "123456789" is 0xE3069283. -/
theorem test_crc : crc32c ((List.range 9).map (fun i => BitVec.ofNat 8 (49 + i))) = 0xE3069283 := by decide +kernel
theorem test_wit_fetch : (fetchOf (fetching true 0).dev 2).isSome = true ∧ fetchOf (fetching true 0).dev 0 = none ∧ (fetching true 0).dev.hif.ctrlUp = true ∧
    (fetchOf (fetching true 0).dev 2).map (·.live) = some true ∧ (fetchOf (fetching false 0).dev 2).map (·.live) = some false ∧
    (let bs := pad [1, 2, 3, 4] 4
     crc32c (slice bs 0 4) ≠ 0 ∧ (fetchOf (fetching true (crc32c bs)).dev 2).map (·.crc) = some (crc32c (slice bs 0 4))) := by decide +kernel
def anyTaken : Taken := { op := .layoutCommit, req := msg [] 8 }
theorem test_wit_compile : let j : LayoutJob := { taken := anyTaken, busesOnly := true, atMt := none }
    let s (m : Mode) := running m (fun d => { d with scene := { d.scene with job := some j, layout := some {} } })
    let e := running .config (fun d => { d with scene := { d.scene with job := some j } })
    ((s .config).dev.scene.job = some j ∧ j.result = none ∧ inConfig (mode (s .config).dev) = true ∧
      (match compileLayout (quiet (s .config)) j with | .ok _ => true | .error _ => false) = true) ∧
    (inConfig (mode (s .service).dev) = false ∧ (match compileLayout (quiet (s .service)) j with | .ok _ => true | .error _ => false) = true) ∧
    (match compileLayout (quiet e) j with | .ok _ => false | .error _ => true) = true := by decide +kernel
theorem test_wit_finished : ((running .config (fun d => { d with mantle := { d.mantle with load := some { asked := none, chans := [511] } } })).dev.mantle.load.isSome = true) ∧
    (let s := running .config (fun d => { d with tiles := { d.tiles with sched := { d.tiles.sched with slots := [(1, { (default : Image) with state := .loading })] } } })
     (tabGet s.dev.tiles.sched.slots 1).state = .loading) ∧
    (running .selftest (fun d => { d with selftest := { d.selftest with mask := some 2047 } })).dev.selftest.mask = some 2047 ∧
    (let u : Unbind := { (default : Unbind) with stop := 1600 }
     let s := running .service (fun d => let d := locked d; { d with scene := { d.scene with cols := [(639, { (default : Column) with unbind := some u })] } })
     (639 ≠ 512) ∧ (getCol s.dev.scene 639).unbind = some u ∧ effDom s.dev (getCol s.dev.scene 639).bind.dom = 0 ∧ domRenders s.dev 0 = true ∧
     mtGe (mtOf s.dev 0) u.stop = true) ∧
    (let s := running .config (fun d => { d with scene := { d.scene with layout := some {}, oldCols := [3] } })
     s.dev.scene.layout = some {} ∧ s.dev.scene.objs = [] ∧ s.dev.scene.layoutEnd = none ∧ 3 ∈ s.dev.scene.oldCols) ∧
    (let s := running .service (fun d => let d := locked d; { d with scene := { d.scene with objs := [(1023, { (default : Obj) with disable := some 1600 })] } })
     (getObj s.dev.scene 1023).disable = some 1600 ∧ mtGe (mtOf s.dev (effDom s.dev (getObj s.dev.scene 1023).domain)) 1600 = true) := by decide +kernel

/-! The time unit. -/

/-- PTP port 3 is up in a role, its clock in a state. -/
def ptp (role : PtpRole) (st : PtpState := .acquiring) (f : PtpPort → PtpPort := id) : State := running .service (fun d => { d with
  net := { d.net with ports := [(3, { (default : NetPort) with up := true })] }
  time := { d.time with ptp := { d.time.ptp with state := st, cfg := { d.time.ptp.cfg with clockType := 2, portMask := 8 }
                                                 ports := [(3, f { (default : PtpPort) with role := role })] } } })
theorem test_wit_ptp : ptpEnabled service.dev 3 = false ∧ ptpEnabled (ptp .slave).dev 3 = true ∧ (getPtpPort (ptp .slave).dev 3).role = .slave ∧
    (getPtpPort (ptp .master).dev 3).role = .master ∧ ptpEnabled (ptp .master).dev 3 = true ∧
    (getPtpPort (ptp .slave .acquiring (fun p => { p with pendingSync := some (65535, -1, 7) })).dev 3).pendingSync = some (65535, -1, 7) ∧
    (getPtpPort (ptp .slave .acquiring (fun p => { p with delayTx := some 9 })).dev 3).delayTx = some 9 ∧
    (∀ k : Fin 4, k ≠ 3 → (getPtpPort (ptp .slave).dev k.val).foreign = []) ∧ (ptp .slave).dev.time.ptp.cfg.clockType ≠ 0 ∧
    (ptp .slave .acquiring).dev.time.ptp.state = .acquiring ∧ (ptp .slave .synced).dev.time.ptp.state = .synced := by decide
theorem test_wit_servo : (ptp .slave).dev.time.ptp.state = .acquiring ∧
    (let c := (ptp .slave).dev.time.ptp.cfg
     c.stepThreshold ≠ 0xFFFFFFFF ∧ c.stepThreshold < (-1000001 : Int).natAbs ∧ (1000000 : Int).natAbs ≤ c.stepThreshold ∧ c.syncThreshold < (1001 : Int).natAbs ∧
     (1000 : Int).natAbs ≤ c.syncThreshold) ∧
    (let s := ptp .slave
     let d := { s.dev with time := { s.dev.time with ptp := { s.dev.time.ptp with within := 7 } } }
     7 ≤ d.time.ptp.within) := by decide
def pulses (p : Pulse) : State := running .service (fun d => { d with time := { d.time with dt := 20000, pulses := [(7, p)] } })
def captures (c : Capture) : State := running .service (fun d => { d with time := { d.time with dt := 1099, caps := [(3, { c with edge := 3 })] } })
theorem test_wit_pulses : (tabGet (pulses default).dev.time.pulses 7).running = false ∧ (tabGet (pulses default).dev.time.pulses 7).pending = none ∧
    (let p : Pulse := { (default : Pulse) with running := true, next := 20001 }
     (tabGet (pulses p).dev.time.pulses 7).running = true ∧ (tabGet (pulses p).dev.time.pulses 7).cfg.timebase = 0) ∧
    (let p : Pulse := { (default : Pulse) with running := true, cfg := { (default : PulseCfg) with timebase := 3 } }
     (tabGet (pulses p).dev.time.pulses 7).cfg.timebase ≠ 0 ∧ domRuns (getDom (pulses p).dev (3 - 1)).state = false) ∧
    (let p : Pulse := { (default : Pulse) with pending := some (default, 20000) }
     (tabGet (pulses p).dev.time.pulses 7).pending = some (default, 20000)) := by decide
theorem test_wit_captures : bit (tabGet (captures default).dev.time.caps 3).edge 0 = true ∧ bit (tabGet (captures default).dev.time.caps 3).edge 1 = true ∧
    bit (tabGet service.dev.time.caps 3).edge 0 = false ∧ (tabGet (captures default).dev.time.caps 3).prev = none ∧
    (tabGet (captures default).dev.time.caps 3).fifo.length < 16 ∧
    (let c : Capture := { (default : Capture) with prev := some 1000 }
     (tabGet (captures c).dev.time.caps 3).prev = some 1000 ∧ ((captures c).dev.time.dt - 1000).toNat < (tabGet (captures c).dev.time.caps 3).minInterval) ∧
    16 ≤ (tabGet (captures { (default : Capture) with fifo := List.replicate 16 default }).dev.time.caps 3).fifo.length := by decide
theorem test_wit_word_clocks : tabGet service.dev.time.wcPresent 2 = false ∧
    (let s := running .service (fun d => { d with time := { d.time with wcPresent := [(2, true)] }, dom := tabMod d.dom 2 (fun x => { x with cfg := { x.cfg with source := 2 } }) })
     tabGet s.dev.time.wcPresent 2 = true ∧ (getDom s.dev 2).cfg.source = 2) := by decide

/-! The network. -/

def netOf (f : NetPort → NetPort) (g : Net → Net := id) : State := running .service (fun d => let d := locked d
  { d with net := g { d.net with ports := [(2, f { (default : NetPort) with up := true, cfg := { (default : NetCfg) with speed := 1, mac := pad [2] 6, ip4 := true } })] } })
def up : State := netOf id
/-- A frame of n bytes with its FCS to an address, of a type. -/
def frame (dst : List Nat) (etype n : Nat) (fcs : Bool := true) : RxFrame := { bytes := pad (dst ++ List.replicate (12 - dst.length) 0 ++ [etype / 256, etype % 256]) (n - 4), fcsOk := fcs }
def takenIn (f : RxFrame) : Bool := decide (64 ≤ f.bytes.length + 4) && decide (f.bytes.length + 4 ≤ frameLimit (getNet up.dev 2).cfg (ethOf f.bytes).tci.isSome + 4) && f.fcsOk &&
  !(ethOf f.bytes).tci.isSome
theorem test_wit_frames : (getNet service.dev 2).up = false ∧ (getNet up.dev 2).up = true ∧ (frame [2] 0 63).bytes.length + 4 < 64 ∧
    frameLimit (getNet up.dev 2).cfg false + 4 = 1518 ∧ 1518 < (frame [2] 0 1519).bytes.length + 4 ∧ (frame [2] 0 64 false).fcsOk = false ∧
    takenIn (frame [2] 0x8808 64) = true ∧ takenIn (frame [2] 0x88F7 1518) = true ∧ (ethOf (frame [2] 0x8808 64).bytes).etype = 0x8808 ∧
    (ethOf (frame [2] 0x88F7 1518).bytes).etype = 0x88F7 ∧
    (let own := frame [2, 0, 0, 0, 0, 0] 0x1234 64
     let other := frame [4, 0, 0, 0, 0, 0] 0x1234 64
     takenIn own = true ∧ ipOf (ethOf own.bytes) = none ∧ (ethOf own.bytes).dst = portMac up.dev 2 ∧ takenIn other = true ∧ ipOf (ethOf other.bytes) = none ∧
     (ethOf other.bytes).dst ≠ portMac up.dev 2 ∧ (ethOf other.bytes).dst.all (· == 0xFF) = false ∧ (ethOf own.bytes).etype = 0x1234 ∧
     (List.range 16).all (fun k => !filterHit (tabGet up.dev.net.filters k) 2 (ethOf own.bytes) none && !filterHit (tabGet up.dev.net.filters k) 2 (ethOf other.bytes) none) = true) := by
  decide +kernel
theorem test_wit_counters_legs : (getNet up.dev 2).evRx = 0 ∧ (getNet up.dev 2).evTx = 0 ∧ (getNet (netOf (fun x => { x with evRx := 1 })).dev 2).evRx ≠ 0 ∧
    (getNet (netOf (fun x => { x with evRx := 1 })).dev 2).evLast = none ∧ (tabGet (tabGet up.dev.net.rxFlows 255).legs 1).up = false ∧
    (let s := netOf id (fun n => { n with rxFlows := [(255, { (default : RxFlow) with legs := [(1, { (default : RxLeg) with up := true })] })] })
     (tabGet (tabGet s.dev.net.rxFlows 255).legs 1).up = true) := by decide +kernel
def ring (n : Nat) (f : Ring → Ring := id) : State := netOf id (fun x => { x with rings := [(n, f { (default : Ring) with ctrl := 1, size := 256, tail := 1 })] })
theorem test_wit_ring_rx : ringPosted (getRing (ring 0 (fun r => { r with tail := 0 })).dev 0) = 0 ∧ ringPosted (getRing (ring 0).dev 0) = 1 ∧
    max 1 (((frame [2] 0 64).bytes.length + 2047) / 2048) = 1 ∧ max 1 (((frame [2] 0 2053).bytes.length + 2047) / 2048) = 2 := by decide +kernel
/-- A descriptor of n bytes of the first port-2 segment, first and last. -/
def desc (n : Nat) : TxDesc := { bytes := pad (List.replicate 8 0 ++ w2 n ++ w2 3 ++ [2, 6]) 32, data := pad [] n }
theorem test_wit_transmit : let f : TxFrame := { (default : TxFrame) with kind := .media 255 1 1600, queue := 7, frames := [pad [] 60] }
    (getNet (netOf (fun x => { x with sending := some f })).dev 2).sending = some f ∧ f.queue = 7 ∧ (getNet up.dev 2).queue = [] ∧ (getNet up.dev 2).sending = none ∧
    (let s := netOf (fun x => { x with sending := some f, queue := [f] })
     takeMedia 255 (getNet s.dev 2).queue = some (f, []) ∧ (getNet s.dev 2).sending.isSome = true) := by decide +kernel
theorem test_wit_host_frames : let s := ring 7
    1 ≤ ringPosted (tabGet s.dev.net.rings 7) ∧ ringBusy s.dev 7 = false ∧ (tabGet s.dev.net.rings 7).stalled = false ∧ hostFrames s.dev [desc 0] = none ∧
    (hostFrames s.dev [desc 60]).isSome = true ∧ u8 ((desc 60).bytes) 12 = 2 ∧ (getNet s.dev 2).up = true ∧ (getNet s.dev 2).sending.isSome = false ∧
    (hostFrames (running .service).dev [desc 60]).isSome = true ∧ (getNet (running .service).dev 2).up = false := by decide +kernel
/-- Flow 255 sends from D0 on port 2 while a frame is on its way. -/
def sender : State := netOf (fun x => { x with sending := some default }) (fun n => { n with txFlows := [(255, { (default : TxFlow) with
  cfg := { (default : TxFlowCfg) with enable := true, ports := 4, ptime := 0 }, legs := [(0, { (default : TxLeg) with set := true, dst := pad [239, 1, 2, 3] 16 })] })] })
theorem test_wit_flows : let x := tabGet sender.dev.net.txFlows 255
    txRuns service.dev (tabGet service.dev.net.txFlows 255).cfg = false ∧ txRuns sender.dev x.cfg = true ∧ packetSamples x.cfg.ptime (rateOf sender.dev 0) ≠ 0 ∧
    (unwrapMt sender.dev.time.dt (rateOf sender.dev 0) 96).toNat % max 1 (packetSamples x.cfg.ptime (rateOf sender.dev 0)) = 0 ∧ flowPorts x.cfg.ports = [2] ∧
    (tabGet x.legs 0).set = true ∧ twinSends sender.dev 0 = true ∧ (legMac sender.dev 2 x.cfg.ipv6 (tabGet x.legs 0)).isSome = true ∧
    (getNet sender.dev 2).sending.isSome = true := by decide +kernel
theorem test_wit_links : let g : GateList := { start := 0, cycle := 100, entries := [(1, 50), (2, 50)] }
    let t : Taken := { op := .gateList, req := bmsg [] 40 }
    (let s := netOf (fun x => { x with up := false })
     (getNet s.dev 2).up = false ∧ (getNet s.dev 2).cfg.speed ≠ 0 ∧ pdOn s.dev (netPd 2) = true ∧ netModeDown (mode s.dev) = false) ∧
    netModeDown (mode (running .update).dev) = true ∧ (getNet up.dev 2).gatePend = none ∧ (getNet up.dev 2).gates = none ∧
    (getNet (netOf (fun x => { x with gatePend := some (some g, 5000, t) })).dev 2).gatePend = some (some g, 5000, t) ∧
    (let s := netOf (fun x => { x with gates := some g, gateIx := 1 })
     (getNet s.dev 2).gates = some g ∧ gateIxAt g s.dev.time.dt.toNat ≠ (getNet s.dev 2).gateIx) := by decide +kernel
theorem test_wit_neighbours : let a := pad [10, 0, 0, 1] 4
    let m : Member1 := { group := a, source := [], reports := 1 }
    let s := netOf (fun x => { x with asking := [(a, 5)], neigh := [{ addr := a, mac := pad [] 6, dt := 0 }], members := [m], sending := some default })
    let q := netOf (fun x => { x with neigh := [{ addr := a, mac := pad [] 6, dt := 0 }], sending := some default })
    (getNet s.dev 2).asking.any (fun k => k.1 == a) = true ∧ (getNet up.dev 2).asking.any (fun k => k.1 == a) = false ∧
    (getNet up.dev 2).neigh.any (fun n => n.addr == a) = false ∧
    ((getNet q.dev 2).neigh.any (fun n => n.addr == a) = true ∧ (getNet q.dev 2).asking = [] ∧ a.length = 4 ∧ (getNet q.dev 2).cfg.ip4 = true ∧ (getNet q.dev 2).sending.isSome = true ∧
      (getNet q.dev 2).up = true) ∧
    (getNet s.dev 2).members.any (fun m => m.group == a && m.reports != 0) = true ∧ (getNet up.dev 2).members.any (fun m => m.group == a && m.reports != 0) = false := by decide +kernel

/-! Audio ports. -/

def portsOf (f : Ports → Ports) : State := running .service (fun d => let d := locked d; { d with ports := f { d.ports with ctrl := 1 } })
def aes (f : AesRx → AesRx) : State := portsOf (fun p => { p with aesRx := [(15, f { (default : AesRx) with cfg := { (default : AesRxCfg) with enable := true } })] })
def atx (f : AesTx → AesTx) : State := portsOf (fun p => { p with aesTx := [(15, f { (default : AesTx) with cfg := { (default : AesTxCfg) with enable := true } })] })
def tdm (f : Tdm → Tdm) : State := portsOf (fun p => { p with tdm := [(7, f { (default : Tdm) with cfg := { (default : TdmCfg) with enable := true, target := true } })] })
def quietGate : SlipGate := { (default : SlipGate) with phase := .zero, clean := 4 }
theorem test_wit_aes : ((getAes (aes (fun r => { r with frames := 8 })).dev 15).state = .absent ∧ 8 ≤ (getAes (aes (fun r => { r with frames := 8 })).dev 15).frames) ∧
    (getAes (aes id).dev 15).frames < 8 ∧
    (let r := getAes (aes (fun r => { r with state := .locking, seenZ := true, frames := 4096, eps := -200000 })).dev 15
     r.cfg.enable = true ∧ r.state = .locking ∧ r.seenZ = true ∧ 4096 ≤ r.frames ∧ r.eps.natAbs ≤ 200000) ∧ single (aes id).dev = false ∧
    (let r := getAes (aes (fun r => { r with state := .locked, eps := -200001 })).dev 15
     r.state = .locked ∧ 200000 < r.eps.natAbs) ∧ portsRun service.dev = false ∧ portsRun (aes id).dev = true ∧
    (let r := getAes (aes (fun r => { r with state := .locked, map := { (default : Elastic) with next := 1664 } })).dev 15
     let f : AesFrame := { (default : AesFrame) with mt := 1664 }
     r.state = .locked ∧ f.z = false ∧ elasticIn r.map f.mt f.frac = true ∧ mtDiff r.map.next (mtOf (aes id).dev r.cfg.domain) ≤ 64 ∧ r.errs = [] ∧
     f.a.parity = false ∧ f.a.biphase = false ∧ f.b.parity = false ∧ f.b.biphase = false ∧ r.nonA = false ∧ r.nonB = false ∧ r.cfg.vmute = false ∧ r.wl20 = false) ∧
    (getAtx (atx id).dev 15).phase = .off ∧
    (let x := getAtx (atx (fun t => { t with phase := .running })).dev 15
     x.phase = .running ∧ x.cfg.enable = true ∧ domRuns (getDom (atx id).dev (effDom (atx id).dev x.cfg.domain)).state = true) := by decide
theorem test_wit_tdm : ((getTdm (tdm (fun t => { t with state := .noClock, frames := 64 })).dev 7).state = .noClock ∧
      64 ≤ (getTdm (tdm (fun t => { t with state := .noClock, frames := 64 })).dev 7).frames) ∧ (getTdm (tdm id).dev 7).state ≠ .noClock ∧
    (let s := tdm (fun t => { t with state := .starting, frames := 64 })
     (getTdm s.dev 7).state = .starting ∧ 64 ≤ (getTdm s.dev 7).frames ∧ single s.dev = false) ∧
    (let s := tdm (fun t => { t with state := .stopping, frames := 64, pend := some { t.cfg with slots := 16 } })
     (getTdm s.dev 7).state = .stopping ∧ 64 ≤ (getTdm s.dev 7).frames ∧ ((getTdm s.dev 7).pend.getD (getTdm s.dev 7).cfg).enable = true ∧
     ((getTdm s.dev 7).pend.getD (getTdm s.dev 7).cfg).target = true) ∧
    (let s := tdm (fun t => { t with state := .stopping, frames := 64, pend := some {} })
     ((getTdm s.dev 7).pend.getD (getTdm s.dev 7).cfg).enable = false) ∧
    (let s := tdm (fun t => { t with state := .running, eps := 200001, gate := { quietGate with phase := .passing } })
     (getTdm s.dev 7).cfg.target = true ∧ (getTdm s.dev 7).state = .running ∧ slipCounts (getTdm s.dev 7).gate = true ∧ 200000 < (getTdm s.dev 7).eps.natAbs ∧
     domRuns (getDom s.dev (effDom s.dev (getTdm s.dev 7).cfg.domain)).state = true ∧ (getTdm s.dev 7).armed = false) ∧
    (tdm (fun t => { t with cfg := { t.cfg with target := false } })).dev.ports.tdm.any (fun kv => !kv.2.cfg.target) = true ∧ (getTdm (tdm id).dev 7).eps.natAbs ≤ 200000 ∧
    (let s := tdm (fun t => { t with state := .clockFault, frames := 48000 })
     (getTdm s.dev 7).state = .clockFault ∧ tdmRate s.dev 7 ≤ (getTdm s.dev 7).frames) ∧
    ((default : TdmIn).bclkOk = true ∧ (200000 : Int).natAbs ≤ 200000) := by decide
theorem test_wit_slips : (quietGate.phase = .zero ∧ 4 ≤ quietGate.clean) ∧
    (let s := portsOf (fun p => { p with aesRx := [(15, { (default : AesRx) with state := .locked, miss := 48000 })]
                                         groups := [(0, { (default : AlignGroup) with members := [{ kind := 0, index := 15 }] })] })
     aesGrouped s.dev 15 = true ∧ (getAes s.dev 15).state = .locked ∧ aesRate s.dev 15 ≤ (getAes s.dev 15).miss) ∧
    (getAes (aes id).dev 15).miss < aesRate (aes id).dev 15 ∧
    (let s := aes (fun r => { r with state := .clockFault, frames := 48000 })
     (getAes s.dev 15).state = .clockFault ∧ aesRate s.dev 15 ≤ (getAes s.dev 15).frames) := by decide

/-! Bridges, microphones, detectors. -/

def bridge (f : Bridge → Bridge) : State := running .service (fun d => let d := locked d
  { d with seam := { d.seam with br := [(255, f { (default : Bridge) with cfg := { (default : SeamCfg) with enable := true, kind := 2, index := 15 } })] }
           ports := { d.ports with aesRx := [(15, { (default : AesRx) with cfg := { (default : AesRxCfg) with enable := true } })] } })
def mic (f : Mic → Mic) (x : Det := default) : State := running .service (fun d => let d := locked d
  { d with mics := { d.mics with mic := [(7, f { (default : Mic) with cfg := { (default : MicCfg) with enable := true } })], det := [(7, x)] } })
theorem test_wit_bridges : (getBr (bridge id).dev 255).follower = false ∧
    (let x := getBr (bridge (fun x => { x with state := .acquire, loop := { x.loop with fine := 64 } })).dev 255
     x.state = .acquire ∧ 64 ≤ x.loop.fine) ∧ (getBr (bridge id).dev 255).state ≠ .acquire ∧ (getBr (bridge id).dev 255).state ≠ .track ∧
    (let x := getBr (bridge (fun x => { x with state := .acquire, loop := { x.loop with blocks := 2000, fine := 63 } })).dev 255
     x.state = .acquire ∧ 2000 ≤ x.loop.blocks ∧ x.loop.fine < 64) ∧
    (let x := getBr (bridge (fun x => { x with state := .track, loop := { x.loop with off := 64 } })).dev 255
     x.state = .track ∧ 64 ≤ x.loop.off) ∧
    (let s := bridge (fun x => { x with state := .range, mt := 48000, since := 0 })
     (getBr s.dev 255).state = .range ∧ ((bridgeEnds (quiet s) 255).2.f : Int) ≤ mtDiff (getBr s.dev 255).mt (getBr s.dev 255).since) ∧
    (let s := bridge (fun x => { x with state := .waiting })
     (getBr s.dev 255).state = .waiting ∧ (getBr s.dev 255).cfg.enable = true ∧ (bridgeEnds (quiet s) 255).1.rendering = true ∧
     (bridgeEnds (quiet s) 255).2.rendering = true) := by decide
theorem test_wit_mics : (let m := getMic (mic (fun m => { m with state := .start, bitsRun := 62500, outsRun := 64 })).dev 7
      m.state = .start ∧ 62500 ≤ m.bitsRun ∧ 64 ≤ m.outsRun) ∧ (getMic (mic id).dev 7).state ≠ .start ∧
    (let m := getMic (mic (fun m => { m with state := .acquire, loop := { m.loop with fine := 64 } })).dev 7
     m.state = .acquire ∧ 64 ≤ m.loop.fine) ∧
    (let m := getMic (mic (fun m => { m with state := .acquire, loop := { m.loop with blocks := 2000 } })).dev 7
     m.state = .acquire ∧ 2000 ≤ m.loop.blocks ∧ m.loop.fine < 64) ∧
    (let s := mic (fun m => { m with same := 65536 })
     65536 ≤ (getMic s.dev 7).same ∧ (getMic s.dev 7).stuck = false ∧ clkRuns s.dev.mics.mic 7 = true) ∧ (getMic (mic id).dev 7).same < 65536 ∧
    (let r : DetRun := { t0 := 1600 }
     (tabGet (mic id { (default : Det) with ended := [r] }).dev.mics.det 7).ended = r :: []) ∧ (tabGet (mic id).dev.mics.det 7).ended = [] := by decide

/-! Sensing and tracking. -/

def senses (f : Sense → Sense) : State := running .service (fun d => { d with sense := f d.sense })
theorem test_wit_sense : pdOn State.reset.dev 15 = false ∨ pdOn (running .service (fun d => { d with power := { d.power with on := 0 } })).dev 15 = false := by decide
theorem test_wit_jack : pdOn service.dev 15 = true ∧ service.dev.sense.inserted = false ∧
    (let u := (senses (fun u => { u with inserted := true })).dev.sense
     u.inserted = true ∧ u.accessory = 0) ∧
    (let u := (senses (fun u => { u with inserted := true, accessory := 2 })).dev.sense
     u.accessory = 2 ∧ buttonOf 70 = some 0 ∧ buttonOf 680 = some 3 ∧ u.held = none ∧ u.fifo.length < 8) ∧
    8 ≤ (senses (fun u => { u with inserted := true, accessory := 2, fifo := List.replicate 8 default })).dev.sense.fifo.length ∧
    (senses (fun u => { u with inserted := true, accessory := 2, held := some (3, true) })).dev.sense.held = some (3, true) := by decide
theorem test_wit_rails : (let s := senses (fun u => { u with rails := [(7, { (default : Sensor) with state := 2 })] })
      s.dev.hif.ctrlUp = true ∧ s.dev.sense.rails.any (fun kv => kv.2.state == 2) = true ∧ mode s.dev = .service ∧ s.dev.fw.changing = none) ∧
    service.dev.sense.rails.any (fun kv => kv.2.state == 2) = false ∧
    (let r := railRange 0
     r.2.1 - 1 < r.2.1 ∧ r.2.1 ≤ r.1.1 ∧ r.1.1 ≤ r.1.2 ∧ r.1.2 ≤ r.2.2) := by decide
def tracking (f : Track → Track) : State := running .service (fun d => let d := locked d
  { d with scene := { d.scene with layout := some {} }, track := f { d.track with cfg := { d.track.cfg with enable := true, windowMs := 100 } } })
theorem test_wit_tracking : (let s := tracking id
      s.dev.track.cfg.enable = true ∧ mode s.dev = .service ∧ s.dev.fw.changing = none ∧ (layDom s.dev).isSome = true ∧ s.dev.track.broken = false ∧
      mtDiff (mtOf s.dev ((layDom s.dev).getD 0)) s.dev.track.start < ((s.dev.track.cfg.windowMs * rateOf s.dev 0 / 1000 : Nat) : Int)) ∧
    (tracking (fun k => { k with broken := true })).dev.track.broken = true ∧ service.dev.track.cfg.enable = false ∧
    (let s := tracking (fun k => { k with start := 1600 - 4800 })
     ((s.dev.track.cfg.windowMs * rateOf s.dev 0 / 1000 : Nat) : Int) ≤ mtDiff (mtOf s.dev ((layDom s.dev).getD 0)) s.dev.track.start) ∧
    tabGet (tracking id).dev.track.props 3 = none ∧
    (let q : Proposal := { (default : Proposal) with waiting := true }
     let s := tracking (fun k => { k with props := [(3, some q)] })
     tabGet s.dev.track.props 3 = some q ∧ q.waiting = true ∧ firBusy s.dev = false ∧ spkExtent s.dev 3 = none) := by decide

/-! The link and the pair. -/

def twin (st : PairState) (f : Twin → Twin := id) (m : Mode := .twin) : State := running m (fun d => let d := locked d
  { d with twin := f { d.twin with state := st, lanes := 3, linkCtrl := 7, handshake := true, cfg := { d.twin.cfg with enable := true, hbPorts := 15 } } })
/-- A link frame with its CRC, of class 5 with an empty body. -/
def linkIn (flags seq : Nat) : List Byte := linkFrame 5 flags (BitVec.ofNat 32 seq) 7 []
theorem test_wit_link_frames : let w := (twin .leader).dev.twin
    (let f := linkIn 0 1
     linkCarries w = true ∧ pdOn (twin .leader).dev 5 = true ∧ f.length = 20 + u16 f 2 ∧ u16 f 2 ≤ 8192 ∧ (f.take 16).length = 16 + u16 (f.take 16) 2 ∧
     crc32c (f.take (16 + u16 f 2)) = BitVec.ofNat 32 (u32 f (16 + u16 f 2)) ∧ BitVec.ofNat 32 (u32 f 4) = w.rxSeq + 1 ∧ bit (u8 f 1) 1 = false ∧ w.handshake = true) ∧
    (let f := linkIn 2 1
     bit (u8 f 1) 1 = true ∧ crc32c (f.take 16) = BitVec.ofNat 32 (u32 f 16)) ∧
    (let f := linkIn 0 2
     BitVec.ofNat 32 (u32 f 4) ≠ w.rxSeq + 1 ∧ crc32c (f.take 16) = BitVec.ofNat 32 (u32 f 16)) ∧ linkCarries service.dev.twin = false ∧
    crc32c ((pad [1] 20).take 16) ≠ BitVec.ofNat 32 (u32 (pad [1] 20) 16) := by decide +kernel
theorem test_wit_resend : let u (n : Nat) : LinkSent := { seq := 9, bytes := linkIn 0 9, tries := n }
    (twin .leader).dev.twin.unacked.find? (fun u => u.seq == 9) = none ∧
    (twin .leader (fun t => { t with unacked := [u 2] })).dev.twin.unacked.find? (fun u => u.seq == 9) = some (u 2) ∧ (u 2).tries < 3 ∧ 3 ≤ (u 3).tries := by decide +kernel
theorem test_wit_lanes : (let w := (twin .off).dev.twin
      w.state = .off) ∧
    (let s := twin .leader (fun t => { t with handshake := false })
     s.dev.twin.state ≠ .off ∧ s.dev.twin.handshake = false ∧ s.dev.twin.hello = none ∧ pdOn s.dev 5 = true ∧ linkCarries s.dev.twin = true ∧ s.dev.twin.waiting = []) ∧
    (let w := (twin .leader).dev.twin
     w.linkCtrl.getLsbD 0 = true ∧ w.linkCtrl.getLsbD 1 = true ∧ w.linkCtrl.getLsbD 2 = true ∧ w.lanes &&& ~~~(BitVec.ofNat 2 (2 ^ 1)) ≠ 0) ∧
    service.dev.twin.linkCtrl.getLsbD 2 = false ∧ service.dev.twin.lanes = 0 ∧
    (let w := (twin .leader (fun t => { t with lanes := 2 })).dev.twin
     w.lanes ≠ 0 ∧ w.lanes &&& ~~~(BitVec.ofNat 2 (2 ^ 1)) = 0) := by decide +kernel
theorem test_wit_markers : mode service.dev ≠ .twin ∧ mode (twin .leader).dev = .twin ∧ (twin .leader).dev.twin.state ≠ .off ∧ slaved (twin .leader).dev = false ∧
    (let s := twin .synced (fun t => { t with markerMiss := 2, hbMissed := [(0, 2), (1, 2), (2, 2), (3, 2)] })
     slaved s.dev = true ∧ (∀ p ∈ hbList s.dev, (15 : BitVec 4).getLsbD p = true ∧ 2 ≤ tabGet s.dev.twin.hbMissed p) ∧ 2 ≤ s.dev.twin.markerMiss ∧ linkUp s.dev.twin = true) := by
  decide +kernel
theorem test_wit_pair : (twin .leader).dev.twin.state ≠ .linking ∧
    ((twin .linking).dev.twin.state = .linking ∧ (twin .linking).dev.twin.hbSeen = false) ∧
    (let s := twin .linking (fun t => { t with hbSeen := true })
     s.dev.twin.hbSeen = true ∧ hbLost s.dev = false) ∧ (twin .leader).dev.twin.lost = false ∧
    (let s := twin .synced (fun t => { t with lost := true })
     s.dev.twin.lost = true ∧ slaved s.dev = true) ∧
    (let s := twin .resync (fun t => { t with b0 := some 1600 })
     s.dev.twin.state = .resync ∧ s.dev.twin.b0 ≠ none ∧ linkUp s.dev.twin = true) ∧
    (let s := twin .verify (fun t => { t with matched := 8 })
     s.dev.twin.state = .verify ∧ 8 ≤ s.dev.twin.matched) ∧
    ((twin .leader (fun t => { t with partner := 6 })).dev.twin.state = .leader ∧ (twin .leader (fun t => { t with partner := 6 })).dev.twin.partner = 6) := by decide +kernel
theorem test_wit_swap : (let s := twin .leader (fun t => { t with partner := 6, swap := some (default, 1600, default) })
      s.dev.twin.swap = some (default, 1600, default) ∧ mtLater 1600 (hbMt s.dev) = false ∧ mtLater 1601 (hbMt s.dev) = true ∧ s.dev.twin.state = .leader ∧ s.dev.twin.partner = 6) ∧
    (let s := twin .synced (fun t => { t with partner := 2, swap := some (default, 1600, default) })
     s.dev.twin.state = .synced ∧ s.dev.twin.partner = 2 ∧ mtLater 1600 (hbMt s.dev) = false) ∧
    (let s := twin .leaderSolo (fun t => { t with swap := some (default, 1600, default) })
     (s.dev.twin.state = .leader → s.dev.twin.partner ≠ 6) ∧ (s.dev.twin.state = .synced → s.dev.twin.partner ≠ 2) ∧ s.dev.twin.swap = some (default, 1600, default)) := by decide +kernel

/-! Arithmetic, the step, and what every command keeps. -/

theorem test_wit_ramps : (1 ≤ 480 ∧ 480 < 2147483648) ∧ ((default : Ramp).cur.n = 0 ∨ mtGe 0 (default : Ramp).cur.t = true) ∧
    ((-18000 : Int) < -17999 ∧ (18000 : Int) ≤ 18000) ∧ ((-9001 : Int) < -9000 ∧ (-1 : Int) < 0) ∧ ((-14400 : Int) ≤ -14400) ∧ 16 < rampLen 10000 48000 := by decide
theorem test_wit_step : ({ config with pending := [.perstN] } : State).pending = .perstN :: [] ∧ config.pending = [] ∧ timeRuns (running .config (fun d => { d with aon := { d.aon with vddAon := true, resetN := true, refclk := true } })).dev = true ∧
    timeRuns (running .config (fun d => { d with aon := { d.aon with refclk := false } })).dev = false ∧ Instr.wf .perstN = true := by decide
theorem test_wit_settled : Settled State.reset.dev ∧ Settled config.dev := by decide
theorem test_wit_requests : (∃ j, requestRow (.ping (msg [] 0)) = some (.ping, j, msg [] 0)) ∧ config.dev.hif.ctrlUp = true ∧ State.reset.dev.hif.ctrlUp = false ∧
    (getSession State.reset.dev 0).isOpen = false ∧ (getSession config.dev 0).isOpen = true ∧ verLacks .trackCfg 3 4 = false ∧
    (∃ op : Op, verLacks op 3 0 = true) ∧ mode (running .safe).dev = .safe ∧ opCode .domainCfg / 256 ≠ 0 ∧ opCode .domainCfg / 256 ≠ 0x0E ∧
    (getMbx config.dev 0).epoch = (takenOf (quiet config) .ping (msg [] 0) 0).epoch ∧ config.dev.twin.issued = [] :=
  ⟨⟨_, rfl⟩, by decide, by decide, by decide, by decide, by decide, ⟨.taskCancel, by decide⟩, by decide, by decide, by decide, by decide, by decide⟩
/-- R407's reset vectors, R9's and R106's steps: spec values of ramp lengths (R99: 16 samples at least). -/
theorem test_ramp_lengths : rampLen 10000 48000 = 480 ∧ rampLen 0 48000 = 16 := by decide

/-- A firmware image of one empty section, signed with key 0; its signature and its key's hash are the implementation's (Config). -/
def bare : List Byte := pad (w4 0x57465A4F ++ w2 1 ++ w2 0 ++ w4 272 ++ List.replicate 8 0 ++ w2 1) 272
def image : List Byte := bare.take 24 ++ p32 (crc32c bare).toNat ++ bare.drop 28
set_option maxRecDepth 100000 in
theorem test_wit_session_image : imageCrcOk image = true ∧ imageKey image = 0 ∧ imageFlags image = 0 := by decide +kernel
theorem test_wit_session_commit_signed (h : Config.signatureOk image = true) :
    let f : Flash := { (default : Flash) with keyHash := [(0, Config.sha384 (slice image (image.length - 192) 96))] }
    imageSigned f image = true := by
  have hk := test_wit_session_image.2.1
  have hf := test_wit_session_image.2.2
  have hr : (default : Flash).revoked.getLsbD 0 = false := by decide
  simp only [imageSigned, hk, hf, h, hr, tabGet]
  simp [bit]

/-! Scene requests. -/

def obj (f : Obj → Obj := id) : Obj := f { (default : Obj) with enabled := true }
/-- A scene: objects 5 and (a direct one) 1023 are enabled, buses 576 and a direct column 3 are bound in D0, a layout of D0 stands. -/
def sceneOf (f : Scene → Scene := id) (m : Mode := .service) : State := running m (fun d => let d := locked d
  { d with scene := f { d.scene with
      objs := [(5, obj), (1023, obj (fun o => { o with direct := true }))], layout := some {}
      cols := [(3, { (default : Column) with bind := { (default : Binding) with mode := 1 } }), (576, { (default : Column) with bind := { (default : Binding) with mode := 2 } })] } })
def both (p : Mode → Bool) : Bool := p .config && p .service
def grantsIn (m : Mode) (op : Op) (r : Req) : Bool := decide (served (sceneOf id m) (takes (sceneOf id m) op r)) && reqOk r && inModes (takes (sceneOf id m) op r) modes4
theorem test_wit_scene_layoutBegin : let r := msg ([0, 0] ++ w2 3 ++ w4 0 ++ w4 2000000 ++ w4 9) 16
    both (fun m => grantsIn m .layoutBegin r) = true ∧ (sceneOf).dev.scene.job = none ∧ effDom (sceneOf).dev 0 = 0 ∧
    grantsIn .singleRate .layoutBegin r = true := by decide
/-- Three speakers, at right, in front, above. -/
def spks : Req := msg ([3, 0, 0, 0] ++ (w2 0 ++ [0, 0] ++ w4 65536 ++ w4 0 ++ w4 0) ++ (w2 1 ++ [0, 0] ++ w4 0 ++ w4 65536 ++ w4 0) ++ (w2 511 ++ [1, 0] ++ w4 0 ++ w4 0 ++ w4 65536)) 52
theorem test_wit_scene_layoutSpk : let s := sceneOf (fun sc => { sc with build := some { dom := 0, count := 3, rIn := 0, rampUs := 0, id := 0 } })
    let es := (List.range 3).filterMap (spkEntry spks.payload)
    ok s .layoutSpk spks ∧ es.length = 3 ∧ (es.map (·.no)).eraseDups.length = 3 ∧ (es.all (fun e => !busBound s.dev.scene e.no)) = true ∧
    s.dev.scene.build.isSome = true := by decide
theorem test_wit_scene_layoutCommit : let s (m : Mode) := sceneOf (fun sc => { sc with build := some { dom := 0, count := 3, rIn := 0, rampUs := 0, id := 0 } }) m
    let r (t k : Nat) := msg (w4 t ++ [k]) 8
    ok (s .service) .layoutCommit (r 0 0) ∧ ok (s .config) .layoutCommit (r 0 1) ∧ (s .service).dev.scene.build ≠ none ∧ ok sceneOf .layoutCommit (r 0 2) ∧
    (sceneOf).dev.scene.build = none ∧ (sceneOf).dev.scene.layout ≠ none ∧ ok (s .service) .layoutCommit (r 3200 1) ∧
    atOnceMode (takes (s .service) .layoutCommit (r 3200 1)) = false ∧ mtDiff (BitVec.ofNat 32 3200) (selBoundary (s .service).dev 0) ≤ 8 * rateOf (s .service).dev 0 := by decide
theorem test_wit_scene_objCfg : let on := msg (w2 9 ++ [0, 0, 0, 0, 0, 1, 0, 0, 0, 0] ++ w4 10000) 16
    let r0 := msg (w2 5 ++ [0]) 16
    both (fun m => grantsIn m .objCfg on && (objCfgOf (takes (sceneOf id m) .objCfg on)).enable && !objCfgBad (quiet (sceneOf id m)) (takes (sceneOf id m) .objCfg on) &&
      !(getObj (sceneOf id m).dev.scene 9).enabled && objFits (quiet (sceneOf id m)) (objCfgOf (takes (sceneOf id m) .objCfg on))) = true ∧
    (objCfgOf (takes sceneOf .objCfg on)).src.kind = 0 ∧
    both (fun m => grantsIn m .objCfg r0 && !(objCfgOf (takes (sceneOf id m) .objCfg r0)).enable && !objCfgBad (quiet (sceneOf id m)) (takes (sceneOf id m) .objCfg r0)) = true ∧
    (getObj (sceneOf).dev.scene 5).disable = none ∧ grantsIn .service .objCfg (msg (w2 0xFFFF ++ [0, 0, 0, 0, 0, 0, 0, 10]) 16) = true := by decide +kernel
def upd (t : Nat) : Req := msg (w2 5 ++ w2 1 ++ w4 t ++ [0, 0] ++ w2 0 ++ w2 0 ++ w2 0 ++ w4 65536 ++ w4 0 ++ w4 0) 44
theorem test_wit_scene_objUpdate : both (fun m => grantsIn m .objUpdate (upd 1632)) = true ∧ (updOf (slice (upd 1632).payload 0 44) none).isSome = true ∧
    (getObj (sceneOf).dev.scene 5).enabled = true ∧ isLeader (sceneOf).dev = false ∧ judgeAt (quiet sceneOf) 0 1632 = .onTime ∧
    (match judgeAt (quiet sceneOf) 0 1599 with | .late _ => true | _ => false) = true ∧
    (match updOf (slice (upd 1632).payload 0 44) none with | some u => (enqueueMeta (sceneOf).dev.scene (updEntry (quiet sceneOf) u)).isSome | none => false) = true ∧
    grantsIn .service .objUpdateBatch (bmsg (region 2816) 16) = true ∧ bulkOk (bulkRef (bmsg (region 2816) 16).payload 0) = true ∧
    grantsIn .service .objQuery (msg (w2 1023) 2) = true := by decide +kernel
def route (t : Nat) : Req := msg (w2 5 ++ [1, 0] ++ w4 t ++ w4 0 ++ [1, 0, 0, 0] ++ [0, 0] ++ w2 0) 20
theorem test_wit_scene_routeSet : both (fun m => grantsIn m .routeSet (route 1632)) = true ∧ routeShapeBad (route 1632).payload = false ∧ (routeOf (route 0).payload).mode = 1 ∧
    layoutIn (quiet sceneOf) 0 = true ∧ colTakes (quiet sceneOf) 0 576 = true ∧ (getCol (sceneOf).dev.scene 576).bind.mode = 2 ∧ (sceneOf).dev.scene.queue = [] := by decide +kernel
def busMsg (c m : Nat) : Req := msg (w2 c ++ [m, 0] ++ w2 0 ++ w2 9000 ++ [0]) 12
theorem test_wit_scene_busCfg : [(3, 1), (577, 2), (639, 3), (512, 4), (576, 0)].all (fun x => let r := busMsg x.1 x.2
      both (fun m => let s := sceneOf id m
        grantsIn m .busCfg r && !busShapeBad r.payload && (x.2 == 0 || bindingFits (quiet s) (busTrial s.dev.scene (busCols s.dev.scene x.1 x.2) (busDest (busCfgOf s.dev.scene r.payload) x.1))))) = true ∧
    (sceneOf).dev.scene.oldCols = [] ∧ (getCol (sceneOf).dev.scene 3).unbind = none := by decide +kernel
def direct (t : Nat) : Req := msg (w2 1023 ++ [1, 1] ++ w4 t ++ w4 0 ++ w2 3 ++ w2 0) 16
theorem test_wit_scene_matrixDirect : both (fun m => grantsIn m .matrixDirect (direct 1632)) = true ∧ directShapeBad (direct 1632).payload = false ∧
    (getObj (sceneOf).dev.scene 1023).direct = true ∧ directCols (direct 0).payload = [(3, 0)] ∧ colOk 3 = true ∧ colTakes (quiet sceneOf) 0 3 = true ∧
    (getCol (sceneOf).dev.scene 3).bind.mode ≠ 2 ∧ (enqueueDirect (sceneOf).dev.scene { (default : DirectEntry) with obj := 1023, dom := 0, t := 1632 }).isSome = true := by decide +kernel

/-! Chain, convolution and sensing requests. -/

def grants5 (s : State) (op : Op) (r : Req) : Bool := decide (served s (takes s op r)) && reqOk r && inModes (takes s op r) modes5
/-- The scene with LFE speaker 511, and a bass group on it. -/
def chains (m : Mode) : State := let s := sceneOf (fun sc => { sc with layout := some { spks := [{ no := 511, type := 1, x := 1, y := 0, z := 0 }] } }) m
  { s with dev := { s.dev with chain := { s.dev.chain with groups := [(15, { (default : BassGroup) with order := 2, crossover := 80000, dests := [511] })] } } }
theorem test_wit_chain_cfg : let r := msg ([0, 0] ++ w2 3 ++ [31, 3, 15, 64]) 8
    let aux := msg ([0, 0] ++ w2 639 ++ [0, 0, 255, 0]) 8
    let g := msg ([1, 3] ++ w2 15 ++ w4 20000 ++ w2 0 ++ [1, 0] ++ w2 511) 14
    let off := msg ([1, 0] ++ w2 0 ++ w4 300000) 12
    both (fun m => grants5 (chains m) .chainCfg r && grants5 (chains m) .chainCfg aux && grants5 (chains m) .chainCfg g && grants5 (chains m) .chainCfg off) = true ∧
    chainCol 3 = true ∧ chainCol 639 = true ∧ (tabGet (chains .service).dev.chain.groups 15).dests ≠ [] ∧ (bassGroupOf g.payload).dests = [511] ∧
    spkType (chains .service).dev.scene.layout 511 = some 1 ∧ (bassGroupOf off.payload).dests = [] ∧ groupHasMembers (quiet (chains .service)) 0 = false := by decide
theorem test_wit_chain_eq : let r := msg (w2 3 ++ [2, 0] ++ ([0, 1] ++ w2 0 ++ w4 10000 ++ w2 0x2800 ++ [0, 0]) ++ ([15, 0] ++ w2 0 ++ w4 10000 ++ w2 0x20)) 28
    both (fun m => grants5 (chains m) .eqSet r) = true ∧ (List.range 2).all (fun i => !eqEntryBad r.payload (colRate (chains .service).dev 3) 2 i) = true ∧
    ((List.range 2).map (fun i => (eqEntry r.payload i).1)).eraseDups.length = 2 := by decide +kernel
def dyn : Req := msg (w2 3 ++ [0, 15] ++ w2 59536 ++ w2 100 ++ w2 2400 ++ w2 0 ++ w4 50 ++ w4 5000000 ++ w4 1000 ++ w2 0 ++ w2 600 ++ w4 500000 ++ w4 5000 ++ w4 2000) 40
theorem test_wit_chain_delay_dyn : let r := msg ([2, 0, 0, 0] ++ w2 3 ++ w2 4096 ++ w2 639 ++ w2 0) 12
    let c := (quiet (chains .service))
    both (fun m => grants5 (chains m) .delaySet r && grants5 (chains m) .dynCfg dyn && grants5 (chains m) .dynCfg (msg (w2 3 ++ [1, 12]) 4)) = true ∧
    (delayPairs r.payload).all (fun x => chainCol x.1 && decide (x.2 ≤ 4096) && tapsFit c (takes (chains .service) .delaySet r) none x.1) = true ∧ ((delayPairs r.payload).map Prod.fst).eraseDups.length = 2 ∧
    dynOk (dynCfgOf dyn.payload) = true ∧ peakOk (dynCfgOf dyn.payload) (colRate c 3) = true ∧
    tapsFit c (takes (chains .service) .dynCfg dyn) none 3 = true ∧ (List.range 12).all (fun i => chainCol (3 + i)) = true := by decide +kernel
theorem test_wit_chain_out : let r (fl t : Nat) := msg (w2 3 ++ w2 0 ++ w4 t ++ w4 2000000 ++ [fl]) 16
    both (fun m => grants5 (chains m) .outGain (r 0 0) && grants5 (chains m) .outMute (r 1 3200)) = true ∧ chainCol 3 = true ∧ boundCol (chains .service).dev 3 = true ∧
    domRuns (getDom (chains .service).dev (colDom (chains .service).dev 3)).state = true ∧ atOnceMode (takes (chains .service) .outGain (r 1 3200)) = false ∧
    mtDiff 3200 (selBoundary (quiet (chains .service)) 0) ≤ 8 * colRate (chains .service).dev 3 ∧ boundCol (chains .service).dev 9 = false := by decide +kernel
/-- MANTLE channel 3 serves column 3 with taps loaded in both sets. -/
def mantle (m : Mode) : State := let s := chains m
  let e : Extent := { role := 0, target := 3, lam := 256, state := .loaded, latch := some 0, ready := true }
  { s with dev := { s.dev with mantle := { s.dev.mantle with ch := [(3, { (default : MChan) with a := some e, b := some e })] } } }
theorem test_wit_mantle : let ld (a : Nat) := bmsg (region 2052 ++ [a, 0]) 20
    let c (t fl : Nat) := msg ([0, 0] ++ w2 3 ++ w4 t ++ [fl, 64]) 12
    both (fun m => grants5 (mantle m) .firLoad (ld 0) && grants5 (mantle m) .firLoad (ld 1) && grants5 (mantle m) .firCommit (c 0 0) && grants5 (mantle m) .firCommit (c 3200 1) &&
      grants5 (mantle m) .firStatus (msg [1] 1) && grants5 (mantle m) .firStatus (msg [0, 0, 0, 0, 6] 5)) = true ∧
    bulkOk (bulkRef (ld 0).payload 0) = true ∧ firBusy (quiet (mantle .service)) = false ∧ commitFault (quiet (mantle .service)) (commitChans (quiet (mantle .service)) (c 0 0).payload) = none ∧
    commitFault (quiet (mantle .config)) [3] = none ∧ mtDiff 3200 (selBoundary (quiet (mantle .service)) ((commitDomOf (quiet (mantle .service)) none [3]).getD 0)) ≤ 8 * 48000 ∧
    (commitDomOf (quiet (mantle .service)) none [3]).map (fun k => domRuns (getDom (quiet (mantle .service)) k).state) = some true := by
  decide +kernel
/-- HALO is bound in D0. -/
def halo (m : Mode) : State := sceneOf (fun sc => { sc with cols := (List.range 64).map (fun i => (512 + i, { (default : Column) with bind := { (default : Binding) with mode := 4 } })) }) m
theorem test_wit_halo : let st := msg ([0, 3] ++ w2 0 ++ w4 2000000) 8
    let o (fl t : Nat) := msg ([1, fl] ++ w2 36000 ++ w2 9000 ++ w2 0 ++ w4 t) 12
    both (fun m => grants5 (halo m) .haloCfg st && grants5 (halo m) .haloCfg (o 0 0) && grants5 (halo m) .haloCfg (o 1 3200) && grants5 (halo m) .haloCfg (o 1 0) &&
      grants5 (halo m) .haloCfg (msg [2] 1)) = true ∧ haloDom (quiet (halo .service)) = some 0 ∧ haloDom (quiet (sceneOf)) = none ∧ i16 (o 0 0).payload 4 = 9000 ∧
    mtDiff 3200 (selBoundary (quiet (halo .service)) 0) ≤ 8 * 48000 ∧ 0 ≤ mtDiff (blockOf 3200) (selBoundary (quiet (halo .service)) 0) ∧
    mtDiff (blockOf 0) (selBoundary (quiet (halo .service)) 0) < 0 := by decide +kernel
/-- An AES3 receiver on D1 at 96 kHz, microphone 7 on D0. -/
def sense (m : Mode) (f : Dev → Dev := id) : State := let s := mantle m
  { s with dev := f { s.dev with
      dom := tabMod s.dev.dom 1 (fun x => { x with state := .locked, cfg := { x.cfg with rate := 96000 } })
      ports := { s.dev.ports with aesRx := [(15, { (default : AesRx) with cfg := { (default : AesRxCfg) with enable := true, domain := 1 } })] }
      mics := { s.dev.mics with mic := [(7, { (default : Mic) with state := .track, cfg := { (default : MicCfg) with enable := true } })] }
      scene := { s.dev.scene with layout := some { spks := [{ no := 3, type := 0, x := 1, y := 0, z := 0 }] } } } }
theorem test_wit_seam : let r := msg (w2 255 ++ [0, 1, 2, 0] ++ w2 15 ++ [1]) 12
    both (fun m => grants5 (sense m) .seamCfg r && grants5 (sense .singleRate) .seamCfg r && grants5 (sense m) .seamCfg (msg (w2 255 ++ [1]) 3)) = true ∧
    [Mode.config, .service].all (fun m => let v := storedView (quiet (sense m))
      let c := seamCfgOf r.payload
      srcRange (seamSrc c) && srcDom v (seamSrc c) == some 1 && c.outDom == 0 && ratioOk (rateOf v 1) (rateOf v 0)) = true ∧ isZero r.payload 9 3 = true ∧
    (let v := storedView (quiet (sense .singleRate))
     srcDom v (seamSrc (seamCfgOf r.payload)) = some 1 ∧ ratioOk (rateOf v 1) (rateOf v 0) = true) := by decide +kernel
theorem test_wit_mic_det : let s := msg [7, 0, 0, 3, 0, 63, 0, 0] 8
    let d (fl t : Nat) := msg ([7, 0, fl, 0] ++ w4 1000 ++ w4 65536 ++ w4 t) 16
    both (fun m => grants5 (sense m) .micCfg s && grants5 (sense m) .micCfg (msg [7, 1] 2) && grants5 (sense m) .toneDetCfg (d 0 0) && grants5 (sense m) .toneDetCfg (d 2 3200) &&
      grants5 (sense m) .toneDetCfg (msg [7, 1] 2) && grants5 (sense m) .toneDetCfg (msg [7, 2] 2)) = true ∧ (getMic (quiet (sense .service)) 7).cfg.enable = true ∧
    (micCfgOf s.payload).domain = effDom (quiet (sense .service)) (getMic (quiet (sense .service)) 7).cfg.domain ∧ mode (quiet (sense .config)) = .config ∧
    pathMode (quiet (sense .config)) ≠ .singleRate := by decide +kernel
theorem test_wit_cal_measure : let r := msg ([0, 1] ++ w2 3 ++ w2 1 ++ [128, 1] ++ w2 59536 ++ [12, 16] ++ w4 0 ++ w4 0 ++ w4 0 ++ w4 256) 36
    let s := sense .calibrate
    let c := calCfgOf (quiet s) r.payload
    ok s .calStart r ∧ tMode (takes s .calStart r) = .calibrate ∧ measureBad (quiet s) r.payload = false ∧ c.spks.length * c.mics.length * c.irTaps ≤ 6291456 ∧
    c.mics.length * capLen c ≤ 2097152 ∧ c.mics = [7] ∧ (getMic (quiet s) 7).state = .track ∧ measuring (quiet s) = false := by decide +kernel
theorem test_wit_cal_design : let r := msg ([1, 0] ++ w2 3 ++ w2 1 ++ [128, 0] ++ w4 256 ++ w4 20000 ++ w4 20000000 ++ w2 1200 ++ w2 2400 ++ w2 600 ++ [24, 0]) 28
    let s := sense .calibrate (fun d => { d with cal := { d.cal with resp := [(pairIx 3 7, { (default : Response) with h := [1] })] } })
    ok s .calStart r ∧ designBad (quiet s) r.payload = false ∧ designSpks (quiet s) 3 1 = [3] ∧ (spkPowers (quiet s) (designCfgOf r.payload) 3).isSome = true ∧
    (spkExtent (quiet s) 3).isSome = true ∧ (spkExtent (quiet s) 3).all (fun x => decide ((designCfgOf r.payload).taps ≤ x.2.lam) && !fading (getMch (quiet s) x.1) &&
      !heldCommit (quiet s) x.1) = true ∧ firBusy (quiet s) = false ∧ ok s .calStart (msg [2] 1) ∧ s.dev.cal.run = none ∧
    (let g := msg ([0, 0] ++ w2 3 ++ w2 1 ++ [7]) 7
     let b := bmsg ([1, 0] ++ w2 3 ++ w2 1 ++ [7, 0] ++ region 4) 24
     ok s .calResult g ∧ (tabGet (quiet s).cal.resp (pairIx 3 7)).h ≠ [] ∧ ok s .calResult b ∧ bulkOk (bulkRef b.payload 8) = true ∧ (bulkRef b.payload 8).2.1 = 4) := by
  decide +kernel
theorem test_wit_track : let r := msg ([0, 5] ++ w2 3 ++ w2 1 ++ [128, 0] ++ w2 60000 ++ w2 50) 12
    let q : Proposal := { (default : Proposal) with valid := 1 }
    let s := sense .service (fun d => { d with track := { d.track with reps := [(3, some default)], props := [(3, some q)] } })
    ok s .trackCfg r ∧ spksIn (quiet s) 3 1 = true ∧ micsBound (quiet s) 128 = true ∧ ok s .trackCfg (msg [1] 1) ∧ ok s .trackCfg (msg [2, 0, 3, 0] 4) ∧
    (tabGet (quiet s).track.reps 3).isSome = true ∧
    (let l (a n : Nat) := bmsg ([a, 0] ++ w2 3 ++ w4 0 ++ region n) 24
     ok s .trackProposal (l 0 64) ∧ ok s .trackProposal (l 1 12) ∧ bulkOk (bulkRef (l 0 64).payload 8) = true ∧ bulkOk (bulkRef (l 1 12).payload 8) = true ∧
     (firRegion [((spkChan (quiet s) 3).getD 0xFFFF, proposalTaps (quiet s) 3 q)]).length ≤ 12 ∧ ok s .trackProposal (msg [2, 0, 3, 0] 4) ∧
     tabGet (quiet s).track.props 3 = some q) := by decide +kernel

/-! Port, network, pair and graph requests. -/

def grantsAll (op : Op) (r : Req) : Bool := both (fun m => grants5 (sense m) op r)
theorem test_wit_port_set : let a (kind e : Nat) (l : List Nat) := msg ([kind, 7, 0, e, 0, 0, 0, 0] ++ l) 20
    let rx := a 0 1 [3]
    let tx := a 1 1 [1, 3, 20]
    let td := a 2 1 ([0, 1, 2, 32] ++ w4 0 ++ [24, 28, 0])
    [rx, tx, td].all (fun r => grantsAll .portCfg r && !portSetBad (quiet (sense .service)) r.payload && !portSetBad (quiet (sense .config)) r.payload &&
      !portOn (quiet (sense .service)) (u8 r.payload 0) 7) = true ∧ portKinds 2 7 = true ∧ (getTdm (quiet (sense .service)) 7).state = .stopped ∧
    grantsAll .portCfg (msg [1, 15, 1] 3) = true ∧
    (let s := sense .service (fun d => { d with ports := { d.ports with tdm := [(7, { (default : Tdm) with state := .running })] } })
     (getTdm (quiet s) 7).state = .running ∧ portOn (quiet (sense .service)) 0 15 = true ∧ effDom (quiet (sense .service)) (portDom (quiet (sense .service)) 0 15) = 1) := by
  decide +kernel
theorem test_wit_port_more : let src (kind first n : Nat) := msg ([kind, 7, 2, 0, 0, 0, 0, 0, first, n, 0, 0]) (12 + 4 * n)
    let cs := msg [0, 15, 3, 0, 0, 0, 0, 0, 1] 9
    let wr (m : Nat) := msg [1, 15, 4, 0, 0, 0, 0, 0, m, 3] 36
    let s := sense .service (fun d => { d with ports := { d.ports with aesRx := [(15, { (default : AesRx) with blkB := some default })] } })
    grantsAll .portCfg (src 1 0 2) = true ∧ grantsAll .portCfg (src 2 22 10) = true ∧ (List.range 10).all (fun j => srcFits (quiet s) 0 (srcEntry (src 2 22 10).payload (12 + 4 * j)) &&
      (srcEntry (src 2 22 10).payload (12 + 4 * j)).kind != 7) = true ∧ ok s .portCfg cs ∧ (getAes (quiet s) 15).blkB = some default ∧ grantsAll .portCfg (wr 0) = true ∧
    grantsAll .portCfg (wr 1) = true := by decide +kernel
theorem test_wit_slot_group : let r (fl t : Nat) := msg ([7, fl, 0, 0] ++ w4 0 ++ w4 3 ++ w4 t) 16
    let s := sense .service (fun d => { d with ports := { d.ports with tdm := [(7, { (default : Tdm) with state := .running })] } })
    grants5 s .slotMask (r 7 3200) = true ∧ grants5 s .slotMask (r 0 0) = true ∧ (getTdm (quiet s) 7).cfg.slots = 2 ∧ mtDiff 3200 (mtOf (quiet s) 0) ≤ 8 * rateOf (quiet s) 0 ∧
    (getTdm (quiet s) 7).armed = false ∧ (getTdm (quiet s) 7).state = .running ∧ grantsAll .slotMask (r 6 0) = true ∧ (getTdm (quiet (sense .service)) 7).state = .stopped ∧
    (let g := msg ([7, 0, 1, 0] ++ [0, 0] ++ w2 15) 8
     let ms := alignMembers g.payload
     grantsAll .alignGroup g = true ∧ ms = [{ kind := 0, index := 15 }] ∧ memberDom (quiet (sense .service)) { kind := 0, index := 15 } = some 1 ∧
     memberGroup (quiet (sense .service)).ports 0 15 = none) ∧ grantsAll .alignGroup (msg [7, 1] 2) = true ∧ grantsAll .alignGroup (msg [7, 2] 2) = true := by decide +kernel
theorem test_wit_net : let c := msg ([3, 0, 2, 2, 14, 32, 128, 0, 2, 0, 0, 0, 0, 1]) 44
    grantsAll .netPortCfg c = true ∧ netCfgBad c.payload = false ∧ needsJumbo (quiet (sense .service)) 3 = false ∧ grantsAll .netPortCfg (msg [3, 1] 2) = true ∧
    grantsAll .netPortCfg (msg [15, 2, 15, 63, 3] 16) = true := by decide +kernel
theorem test_wit_net_flows : let rx (e : Nat) := msg (w2 255 ++ [0, e, 0, 0, 1, 2, 0, 96] ++ w2 960 ++ w4 0 ++ w4 0 ++ w2 0 ++ w2 1) 32
    let md := msg (w2 255 ++ [0, 3, 2, 5, 0, 0, 0, 127] ++ w2 0 ++ w4 0 ++ w4 0 ++ w2 0 ++ w2 512) 32
    let leg := msg (w2 255 ++ [1, 1] ++ w2 5004) 40
    let d := quiet (sense .service)
    grantsAll .flowRxCfg (rx 0) = true ∧ grantsAll .flowRxCfg (rx 1) = true ∧ grantsAll .flowRxCfg md = true ∧
    [rx 0, rx 1, md].all (fun r => !rxCfgBad d r.payload false && !legClash d 255 (rxCfgOf r.payload) (getRx d 255).legs && rxFits d 255 (rxCfgOf r.payload)) = true ∧
    verOf 3 4 = 4 ∧ (getRx d 255).cfg.enable = false ∧ grantsAll .flowRxCfg leg = true ∧
    (let tx := msg (w2 255 ++ [0, 1, 0, 0, 1, 2, 0, 127, 6, 63] ++ w4 0 ++ [255]) 20
     let src := msg (w2 255 ++ [2, 52, 12]) 56
     grantsAll .flowTxCfg tx = true ∧ txCfgBad d tx.payload = false ∧ (getTx d 255).cfg.enable = false ∧ grantsAll .flowTxCfg (msg (w2 255 ++ [1, 1]) 24) = true ∧
     grantsAll .flowTxCfg src = true ∧ (List.range 12).all (fun j => srcFits d 0 (srcEntry src.payload (8 + 4 * j)) && (srcEntry src.payload (8 + 4 * j)).kind != 7) = true) ∧
    grantsAll .flowState (msg (w2 255 ++ [0]) 3) = true ∧ grantsAll .flowState (msg (w2 255 ++ [1]) 3) = true ∧
    (let g (a n : Nat) := bmsg (region 8 ++ [3, a] ++ w2 n ++ w4 0 ++ w4 0 ++ w4 1000000000) 32
     grantsAll .gateList (g 0 256) = true ∧ bulkOk (bulkRef (g 0 256).payload 0) = true ∧ grantsAll .gateList (g 1 0) = true) := by decide +kernel
theorem test_wit_twin : let c (e : Nat) := msg ([0, e, 2, 1, 15, 0, 0, 0, 255, 2] ++ List.replicate 14 0 ++ w2 65535 ++ w2 0 ++ w4 7) 32
    let sw (t : Nat) := msg (w4 t ++ [1]) 8
    let five : Req := { sw 3200 with ch := 5 }
    let lead := twin .leader (fun t => { t with partner := 6 })
    let open5 (s : State) : State := { s with dev := { s.dev with fw := { s.dev.fw with sessions := (5, { isOpen := true, major := 3, minor := 4 }) :: s.dev.fw.sessions } } }
    both (fun m => decide (ok (running m) .twinCfg (c 3))) = true ∧ twinCfgBad (c 3).payload = false ∧ micRenders (quiet (running .service)) = false ∧ ok config .twinCfg (msg [1] 1) ∧
    ok config .twinState (msg [] 0) ∧ ok lead .twinSwap (sw 3200) ∧ tMode (takes lead .twinSwap (sw 3200)) = .twin ∧ lead.dev.twin.swap = none ∧
    (served (open5 (twin .synced)) (takes (open5 (twin .synced)) .twinSwap five) ∧ five.ch.val = 5 ∧ (twin .synced).dev.twin.state = .synced) := by decide +kernel
def graphs (m : Mode) : State := running m (fun d => let d := locked d
  { d with tiles := { d.tiles with sched := { d.tiles.sched with slots := [(1, { (default : Image) with state := .loaded, count := 1 })] } } })
/-- Domains 1 and 2 run slot 0, so that every budget of a start is an image's own. -/
def graphs3 (m : Mode) : State := running m (fun d => let d := locked d
  { d with tiles := { d.tiles with sched := { d.tiles.sched with running := [(1, some 0), (2, some 0)], slots := [(0, { (default : Image) with state := .loaded, count := 1 }), (1, { (default : Image) with state := .loaded, count := 1 })] } } })
theorem test_wit_graph : let ld := bmsg (region 4096 ++ [1]) 20
    let st (names fl t : Nat) := msg ([1, names, fl, 0] ++ w4 t) 8
    let d := quiet (graphs .service)
    let g := d.tiles.sched
    let gives (dest : Option Nat) : Bool := runsFit g (fun n => if n == 0 then dest else toRun g n) (graphRate d)
    let d3 := quiet (graphs3 .service)
    runsFit d3.tiles.sched (fun n => if n == 0 then some 1 else toRun d3.tiles.sched n) (graphRate d3) = true ∧ (tabGet d3.tiles.sched.slots 1).state = .loaded ∧
    tabGet d3.tiles.sched.switches 0 = none ∧ mtDiff 3200 (selBoundary d3 0) ≤ 8 * rateOf d3 0 ∧
    both (fun m => grants5 (graphs m) .graphLoad ld && grants5 (graphs3 m) .graphStart (st 1 1 3200) && grants5 (graphs m) .graphStop (st 1 0 0) && grants5 (graphs m) .graphStop (st 6 0 0)) = true ∧
    bulkOk (bulkRef ld.payload 0) = true ∧ slotRuns g 1 = false ∧ graphBusy d = false ∧ (tabGet g.slots 1).state = .loaded ∧ tabGet g.switches 0 = none ∧
    mtDiff 3200 (selBoundary d 0) ≤ 8 * rateOf d 0 ∧ gives none = true ∧ (getDom d 1).state = .stopped ∧ (getDom d 2).state = .stopped ∧
    (getDom d 0).state ≠ .stopped ∧ domRuns (getDom d 0).state = true := by decide +kernel
theorem test_wit_cancel : let c (inst mt : Nat) := msg ([inst, 0xFF, 0, 0] ++ w2 83 ++ w2 0 ++ w4 mt) 12
    let d := quiet (graphs .service)
    both (fun m => grants5 (graphs m) .taskCancel (c 0 1600) && grants5 (graphs m) .taskCancel (c 1 1616)) = true ∧ (1600 : MT) = mtOf d 0 ∧ mtLater 1616 (mtOf d 0) = true ∧
    cancelIndex d none 0 83 = some 83 ∧ cancelIndex d (some 1) 0 0 = some 0 ∧ d.tiles.sched.cancels = [] ∧
    cancelRuns d.tiles.sched { instance_ := false, slot := none, dom := 0, task := 83, mt := 1600, taken := takes (graphs .service) .taskCancel (c 0 1600) } = true := by decide +kernel

/-! Further cases of the statements. -/

theorem test_wit_idle : config.dev.net.rings = [] ∧ [(0, { (default : Ring) with irqHeld := true })].all (fun kv => !kv.2.irqHeld) = false := by decide
theorem test_wit_cell_chains : let c := pad [0, 128, 0, 0, 9] 64
    let s (k : Chain) := running .config (fun d => { d with mbx := [(0, { (default : Mailbox) with inFifo := [c] })], fw := { d.fw with chains := [(0, some k)] } })
    u8 c 7 = 0 ∧ 0x8000 ≤ u16 c 0 ∧ tabGet config.dev.fw.chains 0 = none ∧
    (let k : Chain := { (default : Chain) with opcode := 4, tag := 9 }
     tabGet (s k).dev.fw.chains 0 = some k ∧ k.opcode ≠ BitVec.ofNat 16 (u16 c 0)) ∧
    (let k : Chain := { (default : Chain) with opcode := 0x8000, tag := 8 }
     tabGet (s k).dev.fw.chains 0 = some k ∧ k.tag ≠ BitVec.ofNat 16 (u16 c 4)) := by decide
theorem test_wit_time_powered : pdOn config.dev 1 = true ∧ pdOn (running .config (fun d => { d with power := { d.power with on := 0 } })).dev 1 = false := by decide
theorem test_wit_image_fails : let f := State.reset.dev.flash
    let none2 : Flash := { f with rec0 := [], rec1 := [] }
    (bootSlot f 0).map (fun k => imageFails f (tabGet f.slots k).bytes false) = some (some 1) ∧ bootSlot none2 0 = none ∧ (starting 0 false []).dev.aon.bootSrc = false ∧
    tempFault (starting 0 false []).dev = false ∧ railFault (starting 0 false []).dev = false := by decide +kernel
theorem test_wit_image_placed : imagePlaced image false = true := by decide +kernel
theorem test_wit_image_passes (h : Config.signatureOk image = true) :
    let f : Flash := { (default : Flash) with keyHash := [(0, Config.sha384 (slice image (image.length - 192) 96))] }
    imageFails f image false = none := by
  have hs := test_wit_session_commit_signed h
  simp only [imageFails, test_wit_session_image.1, test_wit_image_placed]
  simp only [hs]
  decide
theorem test_wit_load_error : let t : Taken := { op := .firLoad, req := msg [] 20 }
    let s (e : Option Status) := running .config (fun d => { d with mantle := { d.mantle with load := some { asked := some t, chans := [3], busErr := e } } })
    fetchOf (s none).dev 0 = none ∧ ((s none).dev.mantle.load.map (fun l => l.asked.map (·.req.ch.val))) = some (some 0) ∧ config.dev.mantle.load = none ∧
    ((s none).dev.mantle.load.map (·.busErr)) = some none ∧ ((s (some .timeout)).dev.mantle.load.map (·.busErr)) = some (some .timeout) := by decide
theorem test_wit_unbind : let u (t : MT) (g : Bool) : Unbind := { (default : Unbind) with stop := t, group := g }
    let s (t : MT) (g : Bool) := running .service (fun d => let d := locked d
      { d with scene := { d.scene with cols := [(512, { (default : Column) with bind := { (default : Binding) with mode := 4 }, unbind := some (u t g) }),
        (513, { (default : Column) with bind := { (default : Binding) with mode := 4 }, unbind := some (u t g) })] } })
    (getCol (s 1600 true).dev.scene 513).unbind = some (u 1600 true) ∧ [512, 513].all (unbindEnded (s 1600 true).dev) = true ∧
    haloCols.filter (fun k => ((getCol (s 1600 true).dev.scene k).unbind.map (·.group)).getD false) = [512, 513] ∧
    [512, 513].all (unbindEnded (s 1601 true).dev) = false ∧ [512].all (unbindEnded (s 1601 false).dev) = false ∧ [512].all (unbindEnded (s 1600 false).dev) = true := by
  decide +kernel
theorem test_wit_ptp_headers : let c := (ptp .slave).dev.time.ptp.cfg
    let src : PortId := { clock := 5, port := 1 }
    let h : PtpHeader := { domainNumber := c.domainNumber, src := src }
    ((ptp .slave).dev.hif.ctrlUp = true ∧ h.v6 = (c.transport == 1) ∧ h.major = 2 ∧ h.minor ≤ 1 ∧ h.domainNumber = c.domainNumber ∧ h.unicast = false) ∧
    ({ h with v6 := true }.v6 ≠ (c.transport == 1)) ∧ ({ h with major := 1 }.major ≠ 2) ∧ (1 < { h with minor := 2 }.minor) ∧
    { h with domainNumber := 255 }.domainNumber ≠ c.domainNumber ∧
    (let s := (ptp .slave .synced (fun p => { p with foreign := [(src, default)] }))
     let s : State := { s with dev := { s.dev with time := { s.dev.time with ptp := { s.dev.time.ptp with parent := some ⟨5, src, 3⟩ } } } }
     s.dev.time.ptp.parent = some ⟨5, src, 3⟩ ∧ (getPtpPort s.dev 3).foreign.all (fun f => f.1 == src) = true ∧ (getPtpPort s.dev 3).role = .slave ∧ ptpEnabled s.dev 3 = true) ∧
    ptpEnabled up.dev 2 = false ∧ (let s := netOf id
      let s : State := { s with dev := { s.dev with time := { s.dev.time with ptp := { s.dev.time.ptp with cfg := { s.dev.time.ptp.cfg with clockType := 1, portMask := 4 } } } } }
      ptpEnabled s.dev 2 = true ∧ s.dev.hif.ctrlUp = true) := by decide +kernel
theorem test_wit_capture_width : ¬ ((4 : Nat) < 4) ∧ (3 : Nat) < 4 ∧ Instr.wf (.captureEdge 0 true ⟨4, []⟩) = true := by decide
theorem test_wit_port_modes : single (portsOf id).dev = false ∧
    (let s : State := { aes (fun r => { r with state := .locking, seenZ := true, rateHz := 48000 }) with
        dev := { (aes (fun r => { r with state := .locking, seenZ := true, rateHz := 48000 })).dev with fw := { (aes id).dev.fw with mode := .singleRate } } }
     single s.dev = true ∧ (getAes s.dev 15).rateHz ≠ 0 ∧ (getAes s.dev 15).cfg.nominal = 0) ∧
    (let s := tdm (fun t => { t with state := .noClock, frames := 64 })
     tdmRunsOn s.dev 7 = true ∧ tdmRunsOn { s.dev with dom := tabMod s.dev.dom 0 (fun x => { x with state := .stopped }) } 7 = false) ∧
    (let s := tdm (fun t => { t with state := .running, startCopy := true })
     (getTdm s.dev 7).startCopy = true ∧ (getTdm s.dev 7).armed = false) ∧ (getTdm (tdm id).dev 7).startCopy = false ∧
    aesGrouped (aes id).dev 15 = false ∧ gapLost 1600 0 1601 0 = 0 ∧ slipCounts { quietGate with phase := .passing } = true := by decide +kernel
theorem test_wit_seam_ctrl : (bridge id).dev.seam.ctrl.getLsbD 0 = false ∧
    (let s := bridge (fun x => { x with follower := true })
     (getBr s.dev 255).follower = true) ∧ ((1 : Word).getLsbD 0 = true) ∧
    (let s := bridge (fun x => { x with state := .acquire, loop := { x.loop with fine := 64 } })
     let s : State := { s with dev := { s.dev with seam := { s.dev.seam with ctrl := 1 } } }
     s.dev.seam.ctrl.getLsbD 0 = true ∧ (getBr s.dev 255).state = .acquire ∧ 64 ≤ (getBr s.dev 255).loop.fine ∧ (getBr s.dev 255).follower = false) := by decide +kernel
theorem test_wit_window_names : (layDom (tracking id).dev).getD 0 = 0 ∧ mtOf (tracking id).dev 0 = 1600 ∧ (1601 : MT) ≠ mtOf (tracking id).dev 0 ∧ (0 : Nat) ≠ (1 : Fin 3).val := by
  decide +kernel
theorem test_wit_copy_domains : let m (st : Nat) (s : State) : State := { s with dev := { s.dev with twin := { s.dev.twin with markers := [(1, { (default : Marker) with state := st })] } } }
    domsFollow (m 2 (twin .resync)).dev = false ∧ domsFollow (m 0 (twin .resync)).dev = true ∧ (twin .resync (fun t => { t with b0 := some 1600 })).dev.twin.b0 ≠ none := by
  decide +kernel
/-- D0 in REALIGN, its closing period from MT 1,600, the last boundary at t. -/
def realigning (t : MT) : State := running .service (fun d => let d := locked d
  { d with dom := tabMod d.dom 0 (fun x => { x with state := .realign, mt := t, closing := some { b := 1600, cleared := false, counts := true } }) })
theorem test_wit_realigning : ok (realigning 1616) .domainCfg (msg [0, 2] 2) ∧ realignCounts (realigning 1616).dev 0 = true ∧ realignCounts (realigning 1632).dev 0 = false ∧
    (getDom (realigning 1632).dev 0).state = .realign ∧ domChainsOk (storedView oneRate.dev) 1 48000 = true ∧ pulseBad config.dev { (default : PulseCfg) with } = false := by decide +kernel
theorem test_wit_fir_cases : (let c := commitDomOf (quiet (mantle .service)) (some 0) [3]
      c = some 0 ∧ domRuns (getDom (quiet (mantle .service)) 0).state = true) ∧
    (let s : State := { mantle .service with dev := { (mantle .service).dev with dom := [] } }
     commitDomOf (quiet s) none [3] = some 0 ∧ domRuns (getDom (quiet s) 0).state = false ∧ commitFault (quiet s) [3] = none ∧ (firSnap (quiet s)).mt = 0) ∧
    (let s : State := { mantle .service with dev := { (mantle .service).dev with scene := { (mantle .service).dev.scene with cols := [] } } }
     commitDomOf (quiet s) none [3] = none ∧ commitFault (quiet s) [3] = none ∧ mode (quiet s) ≠ .twin ∧ [3].all (fun m => chanReady (getMch (quiet s) m)) = true) ∧
    (let e : Extent := { role := 0, target := 3, lam := 256, state := .loaded, latch := some 0, ready := false }
     chanReady { (default : MChan) with a := some e, b := some e } = false) ∧ 3 < nSpeakers ∧ u8 (msg [2, 0, 3, 0] 4).payload 1 = 0 := by decide +kernel
theorem test_wit_slot_start : (getTdm (quiet (sense .service)) 6).state ≠ .starting ∧ (getTdm (quiet (sense .service)) 6).state ≠ .running := by decide +kernel

end Sys2Proof.Tests
end

/-! Settling and time: what the interrupt messages of R407 and R408 write, and the statements about the step as a whole. -/

namespace Sys2Proof.Machine

/-! Sums of bit fields. -/

/-- The number whose bit v is p v, for v below n, as `settleMsix` sums it. -/
def bitSum (p : Nat → Bool) (n : Nat) : Nat := (List.range n).foldl (fun a v => a + 2 ^ v * b2n (p v)) 0

theorem bitSum_succ (p : Nat → Bool) (n : Nat) : bitSum p (n + 1) = 2 ^ n * b2n (p n) + bitSum p n := by
  simp [bitSum, List.range_succ, Nat.add_comm]

theorem bitSum_lt (p : Nat → Bool) (n : Nat) : bitSum p n < 2 ^ n := by
  induction n with
  | zero => simp [bitSum]
  | succ n ih => rw [bitSum_succ]; cases p n <;> simp [b2n] <;> omega

theorem testBit_bitSum (p : Nat → Bool) (n i : Nat) : (bitSum p n).testBit i = (decide (i < n) && p i) := by
  induction n with
  | zero => simp [bitSum]
  | succ n ih =>
    rw [bitSum_succ, Nat.testBit_two_pow_mul_add _ (bitSum_lt p n), ih]
    rcases Nat.lt_trichotomy i n with h | rfl | h
    · simp [h, Nat.lt_succ_of_lt h]
    · cases p i <;> simp [b2n]
    · have hn : ¬ i < n := by omega
      have hs : ¬ i < n + 1 := by omega
      have h1 : i - n = (i - n - 1) + 1 := by omega
      rw [h1]
      cases p n <;> simp [b2n, hn, hs, Nat.testBit_succ]

/-! Interrupt messages. -/

/-- d' differs from d in nothing but pending bits, recorded conditions and sent messages. -/
def MsixSame (d d' : Dev) : Prop :=
  d' = { d with hif := { d.hif with msixPend := d'.hif.msixPend, msixCond := d'.hif.msixCond, msixSent := d'.hif.msixSent } }

theorem MsixSame.refl (d : Dev) : MsixSame d d := rfl
theorem MsixSame.trans {a b c : Dev} (h : MsixSame a b) (k : MsixSame b c) : MsixSame a c := by
  unfold MsixSame at *; rw [k, h]

/-- No source of an interrupt is among what MsixSame lets change. -/
theorem MsixSame.vecPends {a b : Dev} (h : MsixSame a b) (v : Nat) : vecPends b v = vecPends a v := by
  rw [h]; rfl

/-- The message or the pending bit of vector v, where its condition has become true. -/
def msixSignal (d : Dev) (v : Nat) : Dev :=
  if vecPends d v && !d.hif.msixCond.getLsbD v then
    hif d (fun h => if h.msixMask.getLsbD v then { h with msixPend := h.msixPend ||| BitVec.ofNat 16 (2 ^ v) }
                    else { h with msixSent := h.msixSent ++ [v] })
  else d

theorem msixSignal_same (d : Dev) (v : Nat) : MsixSame d (msixSignal d v) := by
  unfold msixSignal
  split
  · cases hm : d.hif.msixMask.getLsbD v <;> simp only [hif, hm, if_true, if_false, Bool.false_eq_true] <;> rfl
  · exact MsixSame.refl d

theorem cond_msixSame (d : Dev) (c : Half) : MsixSame d (hif d (fun h => { h with msixCond := c })) := rfl

/-- Every vector is signalled, and the conditions in force are recorded. -/
theorem settleMsix_eq (d : Dev) :
    settleMsix d = hif ((List.range 15).foldl msixSignal d)
      (fun h => { h with msixCond := BitVec.ofNat 16 (bitSum (vecPends ((List.range 15).foldl msixSignal d)) 15) }) := rfl

theorem settleMsix_msixSame (d : Dev) : MsixSame d (settleMsix d) := by
  rw [settleMsix_eq]
  exact (foldl_rel MsixSame MsixSame.refl (fun _ _ _ => MsixSame.trans) _ msixSignal_same _ d).trans (cond_msixSame _ _)

/-- The recorded conditions are those in force (R407). -/
theorem settleMsix_cond (d : Dev) (v : Nat) (hv : v < 15) : (settleMsix d).hif.msixCond.getLsbD v = vecPends (settleMsix d) v := by
  have hsame := foldl_rel MsixSame MsixSame.refl (fun _ _ _ => MsixSame.trans) _ msixSignal_same (List.range 15) d
  rw [(settleMsix_msixSame d).vecPends, settleMsix_eq, ← hsame.vecPends]
  rw [hif_hif, BitVec.getLsbD_ofNat, testBit_bitSum]
  have hv16 : v < 16 := by omega
  simp [hv, hv16]

/-! Settled states. -/

theorem settled_settle (d : Dev) : Settled (settle d) :=
  ⟨settle_notes d, settle_waiting d, fun v hv => settleMsix_cond _ v hv⟩

/-- Raising held interrupts settles what it changes. -/
theorem settled_ringsDue {d : Dev} (h : Settled d) : Settled (ringsDue d) := by
  unfold ringsDue
  split
  · obtain ⟨hnotes, hwaiting, _⟩ := h
    refine ⟨?_, ?_, fun v hv => settleMsix_cond _ v hv⟩
    · rw [(settleMsix_kept _).1]; exact hnotes
    · rw [(settleMsix_kept _).2]; exact hwaiting
  · exact h

/-- A TIME cycle keeps a settled state settled: no source of an interrupt is a count of DT. -/
theorem settled_idle {s : State} (h : Settled s.dev) : Settled (idle s).dev := by
  unfold idle
  split
  · exact settled_ringsDue h
  · exact h

/-- What a command answers is settled. -/
theorem settled_exec {c : Instr} {s t : State} (h : exec c s = .next t) : Settled t.dev := by
  rcases exec_isRun s c with ⟨f, hf⟩ | hf
  · rw [hf] at h
    cases h
    exact settled_settle _
  · rw [hf] at h
    cases h

/-- Settles O4: a command's answer is settled by its own `settle`; a TIME cycle keeps what the state before it had. -/
theorem everyStepLeavesNothingToSettle : Obligations.EveryStepLeavesNothingToSettle := by
  intro s t hs ht
  unfold step at ht
  split at ht
  · cases ht
    exact settled_idle hs
  · exact settled_exec ht

/-! Matrix errors. -/

@[simp] theorem matrixError_mtx (d : Dev) (m : Nat) (read : Bool) (a : Word) :
    (matrixError d m read a).mtx = { d.mtx with err := d.mtx.err + 1, errAddr := a, errInfo := fields [(31, 1), (8, b2n read), (0, m)] } := by
  simp [matrixError]

/-- While firmware does not run no event is produced (R417, R520). -/
theorem evFault_down (d : Dev) (kind code index dom : Nat) (mt : MT) (a b c : Nat) (h : d.hif.ctrlUp = false) :
    evFault d kind code index dom mt a b c = d := by
  simp [evFault, event, h]

/-- A device is itself with its own error registers written again. -/
theorem with_mtx_of_eq {d : Dev} {m : Matrix} (h : d.mtx = m) : d = { d with mtx := m } := by
  subst h; rfl

/-- Settles O5: `settle_same` names what settling writes, and the report of a matrix error writes the event's fields alone. -/
theorem settlingReportsMatrixErrors : Obligations.SettlingReportsMatrixErrors := by
  refine ⟨fun d => ?_, fun d m read a => ⟨matrixError_mtx d m read a, ?_, fun h => ?_⟩⟩
  · have hset := settle_same d
    unfold SetSame at hset
    rw [settle_notes, settle_waiting] at hset
    exact ⟨_, _, _, _, _, _, _, _, _, _, _, _, _, hset⟩
  · rw [matrixError_mtx]
    exact with_mtx_of_eq (matrixError_mtx d m read a)
  · rw [matrixError_mtx]
    exact evFault_down _ _ _ _ _ _ _ _ _ h

end Sys2Proof.Machine

namespace Sys2Proof.Machine

/-! TIME cycles on an empty queue. -/

/-- DT and its fraction as one count of 2⁻³² ns. -/
def timeCount (t : TimeUnit) : Nat := t.dt.toNat * 2 ^ 32 + t.frac.toNat

theorem timeCount_lt (t : TimeUnit) : timeCount t < 2 ^ 96 := by
  have hdt := t.dt.isLt
  have hfrac := t.frac.isLt
  unfold timeCount
  omega

/-- A TIME cycle adds one increment (R48). -/
theorem timeCount_timeTick (t : TimeUnit) : timeCount (timeTick t) = (timeCount t + t.incr) % 2 ^ 96 := by
  have hdt := t.dt.isLt
  have hfrac := t.frac.isLt
  simp only [timeCount, timeTick, BitVec.toNat_add, BitVec.toNat_ofNat]
  omega

theorem tabGet_map {α : Type} [Inhabited α] (f : α → α) (hf : f default = default) (t : Tab α) (i : Nat) :
    tabGet (t.map (fun kv => (kv.1, f kv.2))) i = f (tabGet t i) := by
  induction t with
  | nil => simp [tabGet, hf]
  | cons kv t ih =>
    by_cases h : kv.1 = i
    · simp [tabGet, h]
    · simp [tabGet, h, ih]

/-- Raising a held interrupt moves neither end of the ring. -/
@[simp] theorem ringMature_head (t : DT) (r : Ring) : (ringMature t r).head = r.head := by
  unfold ringMature; split <;> rfl
@[simp] theorem ringMature_tail (t : DT) (r : Ring) : (ringMature t r).tail = r.tail := by
  unfold ringMature; split <;> rfl
theorem ringMature_irqPend (t : DT) (r : Ring) (h : r.irqPend = true) : (ringMature t r).irqPend = true := by
  unfold ringMature; split
  · rfl
  · exact h

/-- t is s after n TIME cycles: only the clock, the rings and the interrupt messages differ; the count of DT has gone on by n
increments; a ring keeps its ends and what it has raised; and where no interrupt is held the clock alone differs. -/
structure Cycled (n : Nat) (s t : State) : Prop where
  eq : t = { s with dev := { s.dev with
    time := { s.dev.time with dt := t.dev.time.dt, frac := t.dev.time.frac }
    net := { s.dev.net with rings := t.dev.net.rings }
    hif := { s.dev.hif with msixPend := t.dev.hif.msixPend, msixCond := t.dev.hif.msixCond, msixSent := t.dev.hif.msixSent } } }
  count : timeCount t.dev.time = (timeCount s.dev.time + n * s.dev.time.incr) % 2 ^ 96
  ring : ∀ r, (tabGet t.dev.net.rings r).head = (tabGet s.dev.net.rings r).head ∧
    (tabGet t.dev.net.rings r).tail = (tabGet s.dev.net.rings r).tail ∧
    ((tabGet s.dev.net.rings r).irqPend = true → (tabGet t.dev.net.rings r).irqPend = true)
  calm : (∀ kv, kv ∈ s.dev.net.rings → kv.2.irqHeld = false) →
    t.dev.net.rings = s.dev.net.rings ∧ t.dev.hif.msixPend = s.dev.hif.msixPend ∧ t.dev.hif.msixCond = s.dev.hif.msixCond ∧
    t.dev.hif.msixSent = s.dev.hif.msixSent

theorem Cycled.refl (s : State) : Cycled 0 s s where
  eq := rfl
  count := by rw [Nat.zero_mul, Nat.add_zero, Nat.mod_eq_of_lt (timeCount_lt _)]
  ring _ := ⟨rfl, rfl, id⟩
  calm _ := ⟨rfl, rfl, rfl, rfl⟩

theorem Cycled.pending {n : Nat} {s t : State} (h : Cycled n s t) : t.pending = s.pending := by rw [h.eq]
theorem Cycled.incr {n : Nat} {s t : State} (h : Cycled n s t) : t.dev.time.incr = s.dev.time.incr := by rw [h.eq]
/-- Whether the clock runs does not depend on what a cycle changes. -/
theorem Cycled.timeRuns {n : Nat} {s t : State} (h : Cycled n s t) : timeRuns t.dev = timeRuns s.dev := by rw [h.eq]; rfl

theorem Cycled.trans {m n : Nat} {s t u : State} (h : Cycled m s t) (k : Cycled n t u) : Cycled (m + n) s u where
  eq := by rw [k.eq, h.eq]
  count := by rw [k.count, h.count, h.incr, Nat.mod_add_mod, Nat.add_mul, Nat.add_assoc]
  ring r := by
    obtain ⟨hh, ht, hp⟩ := h.ring r
    obtain ⟨kh, kt, kp⟩ := k.ring r
    exact ⟨kh.trans hh, kt.trans ht, kp ∘ hp⟩
  calm hs := by
    obtain ⟨h1, h2, h3, h4⟩ := h.calm hs
    obtain ⟨k1, k2, k3, k4⟩ := k.calm (h1 ▸ hs)
    exact ⟨k1.trans h1, k2.trans h2, k3.trans h3, k4.trans h4⟩

/-- Raising held interrupts does nothing where none is held. -/
theorem ringsDue_calm {d : Dev} (h : ∀ kv, kv ∈ d.net.rings → kv.2.irqHeld = false) : ringsDue d = d := by
  unfold ringsDue
  rw [if_neg]
  simp only [List.any_eq_true, not_exists, not_and]
  intro kv hkv
  simp [h kv hkv]

/-- What raising held interrupts changes. -/
theorem ringsDue_eq (d : Dev) : ringsDue d = { d with
    net := { d.net with rings := (ringsDue d).net.rings }
    hif := { d.hif with msixPend := (ringsDue d).hif.msixPend, msixCond := (ringsDue d).hif.msixCond, msixSent := (ringsDue d).hif.msixSent } } := by
  unfold ringsDue
  split
  · refine Eq.trans (settleMsix_msixSame _) ?_
    rw [settleMsix_msixSame]; rfl
  · rfl

theorem ringsDue_ring (d : Dev) (r : Nat) :
    (tabGet (ringsDue d).net.rings r).head = (tabGet d.net.rings r).head ∧ (tabGet (ringsDue d).net.rings r).tail = (tabGet d.net.rings r).tail ∧
    ((tabGet d.net.rings r).irqPend = true → (tabGet (ringsDue d).net.rings r).irqPend = true) := by
  unfold ringsDue
  split
  · rw [settleMsix_msixSame]
    simp only [netMod_net]
    rw [tabGet_map (ringMature (now d)) rfl]
    exact ⟨ringMature_head _ _, ringMature_tail _ _, ringMature_irqPend _ _⟩
  · exact ⟨rfl, rfl, id⟩

/-- The device after its clock has ticked, before what that makes due. -/
def ticked (d : Dev) : Dev := { d with time := timeTick d.time }

theorem idle_eq {s : State} (h : timeRuns s.dev = true) : idle s = { s with dev := ringsDue (ticked s.dev) } := by
  rw [idle, if_pos h]; rfl

theorem ringsDue_ticked_time (d : Dev) : (ringsDue (ticked d)).time = timeTick d.time := by rw [ringsDue_eq]; rfl

/-- One TIME cycle. -/
theorem cycled_idle {s : State} (h : timeRuns s.dev = true) : Cycled 1 s (idle s) := by
  rw [idle_eq h]
  refine ⟨?_, ?_, fun r => ringsDue_ring (ticked s.dev) r, fun hs => ?_⟩
  · refine (congrArg (fun d => { s with dev := d }) (ringsDue_eq (ticked s.dev))).trans ?_
    simp only [ringsDue_ticked_time]; rfl
  · rw [ringsDue_ticked_time, timeCount_timeTick, Nat.one_mul]
  · have hcalm : ringsDue (ticked s.dev) = ticked s.dev := ringsDue_calm hs
    rw [hcalm]
    exact ⟨rfl, rfl, rfl, rfl⟩

theorem step_nil {s : State} (h : s.pending = []) : step s = .next (idle s) := by
  unfold step; rw [h]

/-- n steps on an empty queue are n TIME cycles. -/
theorem runs_cycled (n : Nat) (s : State) (hp : s.pending = []) (hr : timeRuns s.dev = true) : ∃ t, Runs n s t ∧ Cycled n s t := by
  induction n generalizing s with
  | zero => exact ⟨s, rfl, Cycled.refl s⟩
  | succ n ih =>
    have hc := cycled_idle hr
    obtain ⟨t, hruns, ht⟩ := ih (idle s) (hc.pending.trans hp) (hc.timeRuns.trans hr)
    exact ⟨t, ⟨idle s, step_nil hp, hruns⟩, Nat.add_comm n 1 ▸ hc.trans ht⟩

/-- While the clock does not run, steps on an empty queue change nothing. -/
theorem runs_stopped (n : Nat) (s : State) (hp : s.pending = []) (hr : timeRuns s.dev = false) : Runs n s s := by
  have hidle : idle s = s := by simp [idle, hr]
  induction n with
  | zero => rfl
  | succ n ih => exact ⟨s, (step_nil hp).trans (congrArg _ hidle), ih⟩

/-- Settles O2, by induction on the number of steps: cycles compose, and their counts add up. -/
theorem idleStepsAdvanceTime : Obligations.IdleStepsAdvanceTime := by
  intro n s hp
  refine ⟨fun hr => ?_, runs_stopped n s hp⟩
  obtain ⟨t, hruns, ht⟩ := runs_cycled n s hp hr
  exact ⟨_, _, _, _, _, _, ht.eq ▸ hruns, ht.count, ht.ring, ht.calm⟩

end Sys2Proof.Machine

/-! What no part of a boundary's work changes: DT, and the media time, device time and phase that the boundary itself gave a domain. -/

namespace Sys2Proof.Machine

/-! The clocks of a device. -/

/-- What a domain's record says of its last boundary: its media time, its device time, the phase measured there. -/
def domClock (x : Domain) : MT × DT × Int := (x.mt, x.dt, x.phase)

/-- The clock of each domain of a bank. -/
def clocks (t : Tab Domain) (n : Nat) : MT × DT × Int := domClock (tabGet t n)

/-- DT and the clocks of the domains. -/
def clock (d : Dev) : DT × (Nat → MT × DT × Int) := (d.time.dt, clocks d.dom)

theorem clock_time {d d' : Dev} (h : clock d' = clock d) : d'.time.dt = d.time.dt := congrArg Prod.fst h
theorem clock_getDom {d d' : Dev} (h : clock d' = clock d) (n : Nat) : domClock (getDom d' n) = domClock (getDom d n) :=
  congrFun (congrArg Prod.snd h) n

/-! The clocks of a record read off its fields, and back.  Proved by rewriting, not by rfl: simp takes no definitional step in the side
conditions of the rules for changes and folds below. -/

@[simp] theorem clock_mk (aon power flash fw hif mbx) (time : TimeUnit) (dom : Tab Domain) (scene chain mantle seam mics cal track sense selftest
    ports net twin render tiles dma mtx hostWrites free) :
    clock (Dev.mk aon power flash fw hif mbx time dom scene chain mantle seam mics cal track sense selftest ports net twin render tiles dma mtx
      hostWrites free) = (time.dt, clocks dom) := by simp only [clock]
@[simp] theorem clock_eta (d : Dev) : (d.time.dt, clocks d.dom) = clock d := by simp only [clock]

@[simp] theorem domClock_mk (state cfg stored mt dt phase freqPpb refPpb freqHist realignPending holdoverExpired slewing acquireTimeout within
    validSince holdoverSince closing stopReq realignReq nextCfg refLost realigns relock rendered wcRuns started) :
    domClock (Domain.mk state cfg stored mt dt phase freqPpb refPpb freqHist realignPending holdoverExpired slewing acquireTimeout within validSince
      holdoverSince closing stopReq realignReq nextCfg refLost realigns relock rendered wcRuns started) = (mt, dt, phase) := by simp only [domClock]
@[simp] theorem domClock_eta (x : Domain) : (x.mt, x.dt, x.phase) = domClock x := by simp only [domClock]

@[simp] theorem domClock_domEnter (x : Domain) (new : DomState) : domClock (domEnter x new) = domClock x := by simp [domEnter]
@[simp] theorem domClock_domClearFlags (x : Domain) : domClock (domClearFlags x) = domClock x := by simp [domClearFlags]
@[simp] theorem domClock_domPaced (x : Domain) : domClock (domPaced x) = domClock x := by simp [domPaced]

/-- A domain changed in nothing its clock holds keeps the clocks of the bank. -/
@[simp] theorem clocks_tabMod (t : Tab Domain) (n : Nat) (f : Domain → Domain) (h : ∀ x, domClock (f x) = domClock x) :
    clocks (tabMod t n f) = clocks t := by
  funext k
  by_cases hk : k = n
  · subst hk; simp [clocks, h]
  · simp [clocks, tabGet_tabMod_ne _ _ _ _ hk]

@[simp] theorem clock_domMod (d : Dev) (n : Nat) (f : Domain → Domain) (h : ∀ x, domClock (f x) = domClock x) :
    clock (domMod d n f) = clock d := by
  simp [domMod, clocks_tabMod _ _ _ h]
@[simp] theorem clock_timeMod (d : Dev) (f : TimeUnit → TimeUnit) (h : ∀ t, (f t).dt = t.dt) : clock (timeMod d f) = clock d := by
  simp [timeMod, h]

/-- A fold keeps what each of its steps keeps. -/
theorem foldl_keeps {σ α γ : Type} (p : σ → γ) (f : σ → α → σ) (h : ∀ x a, p (f x a) = p x) (l : List α) (x : σ) :
    p (l.foldl f x) = p x :=
  foldl_rel (fun x y => p y = p x) (fun _ => rfl) (fun _ _ _ hxy hyz => hyz.trans hxy) f h l x

@[simp] theorem clock_foldl {α : Type} (f : Dev → α → Dev) (h : ∀ d a, clock (f d a) = clock d) (l : List α) (d : Dev) :
    clock (l.foldl f d) = clock d := foldl_keeps clock f h l d
@[simp] theorem clock_foldl_fst {α β : Type} (f : Dev × β → α → Dev × β) (h : ∀ x a, clock (f x a).1 = clock x.1) (l : List α)
    (x : Dev × β) : clock (l.foldl f x).1 = clock x.1 := foldl_keeps (fun x => clock x.1) f h l x

end Sys2Proof.Machine

namespace Sys2Proof.Machine

section
variable (d : Dev) (t : Taken) (b : Option (List Byte)) (m : Option MT)

/-! The log, the queue, replies, events, and the answers of requests. -/

@[simp] theorem clock_fw (f : Fw → Fw) : clock (fw d f) = clock d := by simp [fw]
@[simp] theorem clock_addLog (code severity ch : Nat) (args : List Byte) : clock (addLog d code severity ch args) = clock d := by simp [addLog]
@[simp] theorem clock_mbxMod (ch : Nat) (f : Mailbox → Mailbox) : clock (mbxMod d ch f) = clock d := by simp [mbxMod]
@[simp] theorem clock_sessionMod (ch : Nat) (f : Session → Session) : clock (sessionMod d ch f) = clock d := by simp [sessionMod]
@[simp] theorem clock_queueMsg (m : OutMsg) : clock (queueMsg d m) = clock d := by simp [queueMsg]
@[simp] theorem clock_queueReply (t : Taken) (m : OutMsg) : clock (queueReply d t m) = clock d := by
  unfold queueReply; dsimp only
  (repeat' split) <;> simp
@[simp] theorem clock_reply (t : Taken) (st : Status) (body : List Byte) (bulk : Bool) : clock (reply d t st body bulk) = clock d := by
  unfold reply
  (repeat' split) <;> simp
@[simp] theorem clock_eventTo (n : Nat) (payload : List Byte) (ch : Nat) : clock (eventTo d n payload ch) = clock d := by
  unfold eventTo; dsimp only
  (repeat' split) <;> simp
@[simp] theorem clock_event (n : Nat) (payload : List Byte) : clock (event d n payload) = clock d := by simp [event, apply_ite clock]
@[simp] theorem clock_evFault (kind code index domain : Nat) (mt : MT) (a0 a1 a2 : Nat) :
    clock (evFault d kind code index domain mt a0 a1 a2) = clock d := by simp [evFault]
@[simp] theorem clock_evPortClock (kind index new old flags : Nat) (mt : MT) (dt : DT) :
    clock (evPortClock d kind index new old flags mt dt) = clock d := by simp [evPortClock]
@[simp] theorem clock_bad : clock (bad d).1 = clock d := by simp [bad]
@[simp] theorem clock_ans (st : Status) : clock (ans d st).1 = clock d := by simp [ans]
@[simp] theorem clock_ansB (st : Status) (body : List Byte) : clock (ansB d st body).1 = clock d := by simp [ansB]
@[simp] theorem clock_countClamps (cs : List Int) : clock (countClamps d cs) = clock d := by simp [countClamps]
@[simp] theorem clock_deposit (addr : Nat) (bytes : List Byte) : clock (deposit d addr bytes) = clock d := by simp [deposit]

/-! Parts of the device changed alone, and what is given to the link. -/

@[simp] theorem clock_linkSend (cls : Nat) (body : List Byte) : clock (linkSend d cls body) = clock d := by
  unfold linkSend; split <;> simp
@[simp] theorem clock_twinMod (f : Twin → Twin) : clock (twinMod d f) = clock d := by simp [twinMod]
@[simp] theorem clock_netMod (f : Net → Net) : clock (netMod d f) = clock d := by simp [netMod]
@[simp] theorem clock_portsMod (f : Ports → Ports) : clock (portsMod d f) = clock d := by simp [portsMod]
@[simp] theorem clock_sceneMod (f : Scene → Scene) : clock (sceneMod d f) = clock d := by simp [sceneMod]
@[simp] theorem clock_tilesMod (f : Tiles → Tiles) : clock (tilesMod d f) = clock d := by simp [tilesMod]
@[simp] theorem clock_ringMod (r : Nat) (f : Ring → Ring) : clock (ringMod d r f) = clock d := by simp [ringMod]
@[simp] theorem clock_capMod (i : Nat) (f : Capture → Capture) : clock (capMod d i f) = clock d := by simp [capMod]
@[simp] theorem clock_netPortMod (p : Nat) (f : NetPort → NetPort) : clock (netPortMod d p f) = clock d := by simp [netPortMod]

/-! Waiting requests withdrawn (R428): none of them holds a clock. -/

@[simp] theorem clock_dropWait (w : WaitFor) : clock (dropWait d w) = clock d := by
  cases w <;> simp [dropWait]
@[simp] theorem clock_dropCommit (c : Commit) : clock (dropCommit d c) = clock d := by simp [dropCommit]
@[simp] theorem clock_dropWaits (w : Wait) : clock (dropWaits d w) = clock d := by simp [dropWaits]
@[simp] theorem clock_dropSwitch (r : SwitchReq) : clock (dropSwitch d r) = clock d := by simp [dropSwitch]
@[simp] theorem clock_dropCancel (c : Cancel) : clock (dropCancel d c) = clock d := by simp [dropCancel]
@[simp] theorem clock_dropMode : clock (dropMode d) = clock d := by
  unfold dropMode
  (repeat' split) <;> simp
/-- Withdrawing a waiting request keeps the clocks. -/
theorem clock_pendingWork {w : Taken × (Dev → Dev)} (hw : w ∈ pendingWork d) (e : Dev) : clock (w.2 e) = clock e := by
  revert w
  simp only [pendingWork, List.forall_mem_append, List.forall_mem_map, List.forall_mem_flatMap]
  simp
@[simp] theorem clock_cancelWhere (p : Taken → Bool) : clock (cancelWhere d p) = clock d := by
  refine List.foldlRecOn (motive := fun e => clock e = clock d) _ _ rfl (fun e he w hw => ?_)
  split
  · rw [clock_reply, clock_pendingWork d hw, he]
  · exact he
@[simp] theorem clock_answerStanding (p : Taken → Bool) : clock (answerStanding d p) = clock d := by simp [answerStanding]
@[simp] theorem clock_dropBulks (ch : Nat) : clock (dropBulks d ch) = clock d := by simp [dropBulks]
@[simp] theorem clock_cancelChannel (ch : Nat) : clock (cancelChannel d ch) = clock d := by simp [cancelChannel]

/-! The sample state of a domain taken at once, ended and cleared (R64, R521). -/

@[simp] theorem clock_objsWhere (p : Obj → Bool) (f : Obj → Obj) : clock (objsWhere d p f) = clock d := by simp [objsWhere]
@[simp] theorem clock_chainsWhere (p : Nat → Bool) (f : Nat → Chain1 → Chain1) : clock (chainsWhere d p f) = clock d := by simp [chainsWhere]
@[simp] theorem clock_mchansWhere (p : MChan → Bool) (f : MChan → MChan) : clock (mchansWhere d p f) = clock d := by simp [mchansWhere]
@[simp] theorem clock_sceneRun (f : Scene → Scene) : clock (sceneRun d f) = clock d := by simp [sceneRun]
@[simp] theorem clock_listChains (n : Nat) : clock (listChains d n) = clock d := by simp [listChains]
@[simp] theorem clock_objsAtOnce (n : Nat) (q : Nat → Bool) : clock (objsAtOnce d n q) = clock d := by simp [objsAtOnce]
@[simp] theorem clock_stageAtOnce (n : Nat) (q : Nat → Bool) : clock (stageAtOnce d n q) = clock d := by
  unfold stageAtOnce; dsimp only; split <;> simp
@[simp] theorem clock_stageEndNow (n : Nat) : clock (stageEndNow d n) = clock d := by simp [stageEndNow]
@[simp] theorem clock_stageRampsEnd (n : Nat) : clock (stageRampsEnd d n) = clock d := by
  unfold stageRampsEnd; dsimp only; split <;> simp
@[simp] theorem clock_buffersClear (n : Nat) : clock (buffersClear d n) = clock d := by simp [buffersClear]
@[simp] theorem clock_stageClear (n : Nat) : clock (stageClear d n) = clock d := by
  unfold stageClear; dsimp only; split <;> simp

/-! Power domains asked for and planned (R498), and a measurement stopped. -/

@[simp] theorem clock_powerAsk (w : Half) : clock (powerAsk d w) = clock d := by simp [powerAsk]
@[simp] theorem clock_powerPlan : clock (powerPlan d) = clock d := by simp [powerPlan]
@[simp] theorem clock_needPd (pd : Nat) : clock (needPd d pd) = clock d := by
  unfold needPd; split <;> simp
@[simp] theorem clock_calStop : clock (calStop d) = clock d := by
  unfold calStop; split <;> simp

/-! Edges that DMA channels wait for (R462). -/

@[simp] theorem clock_dmaEdge (kind i : Nat) : clock (dmaEdge d kind i) = clock d := by simp [dmaEdge]

/-! Requests judged, answered and ticketed (R424–R434, R377–R379). -/

@[simp] theorem clock_ledgerAdd (no : Word) (dom : Nat) (st : MT) : clock (ledgerAdd d no dom st) = clock d := by simp [ledgerAdd]
@[simp] theorem clock_sendTicket (kind queue dom : Nat) (st : MT) (taken : Option Taken) (rest : List Byte) :
    clock (sendTicket d kind queue dom st taken rest) = clock d := by simp [sendTicket]
@[simp] theorem clock_commandTicket (t : Taken) (dom : Nat) (b : Option (List Byte)) (works : Bool) :
    clock (commandTicket d t dom b works) = clock d := by
  unfold commandTicket
  (repeat' split) <;> simp
@[simp] theorem clock_completionTicket (t : Taken) (mts : List MT) : clock (completionTicket d t mts) = clock d := by
  unfold completionTicket; dsimp only
  (repeat' split) <;> simp
@[simp] theorem clock_finish (t : Taken) (b : Option (List Byte)) (a : Ans) : clock (finish d t b a) = clock d := by
  unfold finish
  (repeat' split) <;> simp
@[simp] theorem clock_commitOr (t : Taken) (dom : Nat) (f : Apply1) (h : ∀ d t m, clock (f d t m).1 = clock d) :
    clock (commitOr d t dom f).1 = clock d := by
  unfold commitOr
  split <;> simp [h]
@[simp] theorem clock_needFetch (t : Taken) (o : Nat) : clock (needFetch d t o).1 = clock d := by
  unfold needFetch; dsimp only; split <;> simp

/-! Domain states, and what a mode transition does at its acceptance (R60, R75–R77, R480): a domain takes settings and flags, never a clock. -/

@[simp] theorem clock_domState (n : Nat) (new : DomState) (mt : MT) (dt : DT) : clock (domState d n new mt dt) = clock d := by
  unfold domState; dsimp only; split <;> simp
@[simp] theorem clock_domStart (n : Nat) (c : DomCfg) : clock (domStart d n c) = clock d := by simp [domStart]
@[simp] theorem clock_domFollow (n : Nat) (c : DomCfg) : clock (domFollow d n c) = clock d := by
  unfold domFollow; dsimp only
  (repeat' split) <;> simp
@[simp] theorem clock_stopQueues (n : Nat) : clock (stopQueues d n) = clock d := by simp [stopQueues]
@[simp] theorem clock_stopNow (n : Nat) : clock (stopNow d n) = clock d := by
  unfold stopNow; dsimp only; split <;> simp
@[simp] theorem clock_stopSoon (n : Nat) : clock (stopSoon d n) = clock d := by
  unfold stopSoon
  (repeat' split) <;> simp
@[simp] theorem clock_singleAssign : clock (singleAssign d) = clock d := by simp [singleAssign]
@[simp] theorem clock_singleRefresh : clock (singleRefresh d) = clock d := by
  unfold singleRefresh; dsimp only; split <;> simp
@[simp] theorem clock_enterSingle : clock (enterSingle d) = clock d := by
  unfold enterSingle; dsimp only
  (repeat' split) <;> simp
@[simp] theorem clock_applyStored : clock (applyStored d) = clock d := by
  unfold applyStored
  apply clock_foldl
  intro d n
  split <;> simp
@[simp] theorem clock_aesRelock (i : Nat) : clock (aesRelock d i) = clock d := by
  unfold aesRelock; dsimp only; split <;> simp
@[simp] theorem clock_leaveSingle : clock (leaveSingle d) = clock d := by simp [leaveSingle]
@[simp] theorem clock_evCalDone (st : Status) (measured : Nat) (mt : MT) (disturbed : Nat) :
    clock (evCalDone d st measured mt disturbed) = clock d := by simp [evCalDone]
@[simp] theorem clock_calReport : clock (calReport d) = clock d := by
  unfold calReport; split <;> simp
@[simp] theorem clock_calAbort : clock (calAbort d) = clock d := by simp [calAbort]
@[simp] theorem clock_calRefs (r : CalRun) : clock (calRefs d r) = clock d := by
  unfold calRefs; split <;> simp
@[simp] theorem clock_leaveCal : clock (leaveCal d) = clock d := by
  unfold leaveCal; dsimp only; split <;> simp
@[simp] theorem clock_evTwin (kind : Nat) (new old : PairState) (detail : Nat) (mt : MT) (groups : Nat) :
    clock (evTwin d kind new old detail mt groups) = clock d := by simp [evTwin]
@[simp] theorem clock_pairEv (kind : Nat) (new : PairState) (mt : MT) (groups : Nat) : clock (pairEv d kind new mt groups) = clock d := by
  simp [pairEv]
@[simp] theorem clock_pairTo (new : PairState) (mt : MT) : clock (pairTo d new mt) = clock d := by
  unfold pairTo; split <;> simp
@[simp] theorem clock_enterTwin : clock (enterTwin d) = clock d := by
  unfold enterTwin; split <;> simp
@[simp] theorem clock_ownReferences (mt : MT) : clock (ownReferences d mt) = clock d := by simp [ownReferences, apply_ite clock]
@[simp] theorem clock_ownInputs : clock (ownInputs d) = clock d := by simp [ownInputs, apply_ite clock]
@[simp] theorem clock_releaseIssued : clock (releaseIssued d) = clock d := by simp [releaseIssued]
@[simp] theorem clock_leaveTwin : clock (leaveTwin d) = clock d := by
  unfold leaveTwin; dsimp only
  (repeat' split) <;> simp
@[simp] theorem clock_beginMode (target : Mode) (cause : Nat) (asked : Option Taken) : clock (beginMode d target cause asked) = clock d := by
  simp [beginMode, apply_ite clock]

/-! The session and system requests (R435–R447). -/

@[simp] theorem clock_judgeHello : clock (judgeHello d t b).1 = clock d := by
  unfold judgeHello; dsimp only
  (repeat' split) <;> simp
@[simp] theorem clock_judgeVersion : clock (judgeVersion d t b).1 = clock d := by simp [judgeVersion]
@[simp] theorem clock_judgeCaps : clock (judgeCaps d t b).1 = clock d := by simp [judgeCaps]
@[simp] theorem clock_judgePing : clock (judgePing d t b).1 = clock d := by simp [judgePing]
@[simp] theorem clock_judgeBye : clock (judgeBye d t b).1 = clock d := by simp [judgeBye]
@[simp] theorem clock_judgeModeSet : clock (judgeModeSet d t b).1 = clock d := by
  unfold judgeModeSet; dsimp only
  (repeat' split) <;> simp
@[simp] theorem clock_judgeModeGet : clock (judgeModeGet d t b).1 = clock d := by simp [judgeModeGet]
@[simp] theorem clock_judgeResetReq : clock (judgeResetReq d t b).1 = clock d := by
  unfold judgeResetReq; dsimp only
  (repeat' split) <;> simp
@[simp] theorem clock_judgeCounters : clock (judgeCounters d t b).1 = clock d := by
  unfold judgeCounters; dsimp only
  (repeat' split) <;> simp
@[simp] theorem clock_judgeBlock : clock (judgeBlock d t b).1 = clock d := by
  unfold judgeBlock; dsimp only
  (repeat' split) <;> simp
@[simp] theorem clock_judgeLogRead : clock (judgeLogRead d t b).1 = clock d := by
  unfold judgeLogRead; dsimp only
  (repeat' split) <;> simp
@[simp] theorem clock_judgeOutLatency : clock (judgeOutLatency d t b).1 = clock d := by
  unfold judgeOutLatency; dsimp only
  (repeat' split) <;> simp

/-! The firmware-update requests (R448). -/

@[simp] theorem clock_judgeUpdateBegin : clock (judgeUpdateBegin d t b).1 = clock d := by
  unfold judgeUpdateBegin; dsimp only
  (repeat' split) <;> simp
@[simp] theorem clock_programChunk (slot off : Nat) (bs : List Byte) : clock (programChunk d slot off bs).1 = clock d := by
  unfold programChunk; dsimp only
  (repeat' split) <;> simp
@[simp] theorem clock_judgeChunk : clock (judgeChunk d t b).1 = clock d := by
  unfold judgeChunk; dsimp only
  (repeat' split) <;> simp
@[simp] theorem clock_judgeFwCommit : clock (judgeFwCommit d t b).1 = clock d := by
  unfold judgeFwCommit; dsimp only
  (repeat' split) <;> simp
@[simp] theorem clock_judgeSlotInfo : clock (judgeSlotInfo d t b).1 = clock d := by simp [judgeSlotInfo]

/-! The lines of bridges filled to the boundary. -/

@[simp] theorem clock_bridgeFill (i : Nat) : clock (bridgeFill d i) = clock d := by
  unfold bridgeFill; dsimp only; split <;> simp
@[simp] theorem clock_bridgesFill (n : Nat) : clock (bridgesFill d n) = clock d := by simp [bridgesFill]

/-! DOMAIN_CFG, and the state of a domain at its boundary (R60–R66): judged and reported, its clock kept. -/

@[simp] theorem clock_beginClosing (n : Nat) (b : MT) (dt : DT) (stop : Bool) : clock (beginClosing d n b dt stop) = clock d := by
  unfold beginClosing; dsimp only
  (repeat' split) <;> simp
@[simp] theorem clock_refsChanged : clock (refsChanged d) = clock d := by simp [refsChanged]
@[simp] theorem clock_judgeDomain (n : Nat) (b : MT) (dt : DT) (phase : Int) : clock (judgeDomain d n b dt phase) = clock d := by
  simp [judgeDomain, apply_ite clock]
@[simp] theorem clock_takeCfg (n : Nat) (c : DomCfg) : clock (takeCfg d n c) = clock d := by simp [takeCfg]
@[simp] theorem clock_takeNext (n : Nat) : clock (takeNext d n) = clock d := by
  unfold takeNext; dsimp only
  (repeat' split) <;> simp
@[simp] theorem clock_stopClosing (n : Nat) (b : MT) (dt : DT) : clock (stopClosing d n b dt) = clock d := by simp [stopClosing]
@[simp] theorem clock_judgeBoundary (n : Nat) (b : MT) (dt : DT) (phase : Int) : clock (judgeBoundary d n b dt phase) = clock d := by
  unfold judgeBoundary; dsimp only
  (repeat' split) <;> simp
@[simp] theorem clock_domAns (n : Nat) (st : Status) : clock (domAns d n st).1 = clock d := by simp [domAns]
@[simp] theorem clock_domRefuse (n : Nat) (st : Status) : clock (domRefuse d n st).1 = clock d := by simp [domRefuse]
@[simp] theorem clock_ratePorts (n : Nat) : clock (ratePorts d n) = clock d := by simp [ratePorts, apply_ite clock]
@[simp] theorem clock_judgeDomSet : clock (judgeDomSet d t b).1 = clock d := by
  unfold judgeDomSet; dsimp only
  (repeat' split) <;> simp
@[simp] theorem clock_judgeDomStart : clock (judgeDomStart d t b).1 = clock d := by
  unfold judgeDomStart; dsimp only
  (repeat' split) <;> simp
@[simp] theorem clock_judgeDomStop : clock (judgeDomStop d t b).1 = clock d := by
  unfold judgeDomStop; dsimp only
  (repeat' split) <;> simp
@[simp] theorem clock_judgeDomRealign : clock (judgeDomRealign d t b).1 = clock d := by
  unfold judgeDomRealign; dsimp only
  (repeat' split) <;> simp
@[simp] theorem clock_judgeDomGet : clock (judgeDomGet d t b).1 = clock d := by
  unfold judgeDomGet; dsimp only; split <;> simp
@[simp] theorem clock_applyDomCfg : clock (applyDomCfg d t) = clock d := by
  unfold applyDomCfg; dsimp only
  (repeat' split) <;> simp
@[simp] theorem clock_domCfgReply : clock (domCfgReply d t) = clock d := by simp [domCfgReply]

/-! The graph requests, switches and cancels (R299, R305, R306). -/

@[simp] theorem clock_graphErr (slot : Nat) (e : GErr) : clock (graphErr d slot e).1 = clock d := by simp [graphErr]
@[simp] theorem clock_judgeGraphLoad : clock (judgeGraphLoad d t b).1 = clock d := by
  unfold judgeGraphLoad; dsimp only
  (repeat' split) <;> simp
@[simp] theorem clock_graphSwitch (n : Nat) (dest : Option Nat) (b : MT) : clock (graphSwitch d n dest b) = clock d := by simp [graphSwitch]
@[simp] theorem clock_switchAnswer (no : Nat) : clock (switchAnswer d no) = clock d := by
  unfold switchAnswer
  (repeat' split) <;> simp
@[simp] theorem clock_graphBoundary (n : Nat) (b : MT) : clock (graphBoundary d n b) = clock d := by
  unfold graphBoundary
  (repeat' split) <;> simp
@[simp] theorem clock_graphChange (t : Taken) (slotByte : Nat) (dest : Option Nat) : clock (graphChange d t slotByte dest).1 = clock d := by
  simp [graphChange, apply_ite Prod.fst, apply_ite clock]
@[simp] theorem clock_judgeGraphStart : clock (judgeGraphStart d t b).1 = clock d := by
  unfold judgeGraphStart; dsimp only
  (repeat' split) <;> simp
@[simp] theorem clock_judgeGraphStop : clock (judgeGraphStop d t b).1 = clock d := by
  unfold judgeGraphStop
  (repeat' split) <;> simp
@[simp] theorem clock_judgeTaskCancel : clock (judgeTaskCancel d t b).1 = clock d := by
  unfold judgeTaskCancel; dsimp only
  (repeat' split) <;> simp
@[simp] theorem clock_cancelBoundary (n : Nat) (b : MT) : clock (cancelBoundary d n b) = clock d := by simp [cancelBoundary, apply_ite clock]

/-! The channels of MANTLE outside a request (R200–R204). -/

@[simp] theorem clock_mantleMod (f : Mantle → Mantle) : clock (mantleMod d f) = clock d := by simp [mantleMod]
@[simp] theorem clock_unboundChans : clock (unboundChans d) = clock d := by simp [unboundChans]
@[simp] theorem clock_swapChans (cs : List Nat) (fade : Option (MT × Nat)) : clock (swapChans d cs fade) = clock d := by simp [swapChans]
@[simp] theorem clock_commitPut (c : MCommit) (x : Option MCommit) : clock (commitPut d c x) = clock d := by simp [commitPut]
@[simp] theorem clock_commitEnd (c : MCommit) (fade : Option (MT × Nat)) (st : Status) (mt : MT) : clock (commitEnd d c fade st mt) = clock d := by
  simp [commitEnd]
@[simp] theorem clock_commitJudge (c : MCommit) : clock (commitJudge d c) = clock d := by
  unfold commitJudge; dsimp only
  (repeat' split) <;> simp
@[simp] theorem clock_commitTry (c : MCommit) (b : MT) : clock (commitTry d c b) = clock d := by
  unfold commitTry
  (repeat' split) <;> simp
@[simp] theorem clock_commitUnbound (c : MCommit) : clock (commitUnbound d c) = clock d := by
  unfold commitUnbound; dsimp only
  (repeat' split) <;> simp
@[simp] theorem clock_commitsUnbound : clock (commitsUnbound d) = clock d := by simp [commitsUnbound, apply_ite clock]
@[simp] theorem clock_chansFreed : clock (chansFreed d) = clock d := by simp [chansFreed]

/-! Objects, metadata, routing and direct entries (R79–R104). -/

@[simp] theorem clock_queueTicket (op : Nat × Nat) (queue dom obj : Nat) (t : MT) (late : Bool) (record : List Byte) (taken : Option Taken) :
    clock (queueTicket d op queue dom obj t late record taken) = clock d := by
  unfold queueTicket; split <;> simp
@[simp] theorem clock_acceptMeta (e : MetaEntry) (record : List Byte) (taken : Option Taken) : clock (acceptMeta d e record taken).1 = clock d := by
  unfold acceptMeta; dsimp only
  (repeat' split) <;> simp
@[simp] theorem clock_updAns (st : Status) (sel : MT) : clock (updAns d st sel).1 = clock d := by simp [updAns]
@[simp] theorem clock_judgeObjUpdate : clock (judgeObjUpdate d t b).1 = clock d := by
  unfold judgeObjUpdate; dsimp only
  (repeat' split) <;> simp
@[simp] theorem clock_batchStep (t : Taken) (n : Nat) (acc : BatchRun) (i : Nat) (r : List Byte) (common : Option MT) :
    clock (batchStep t n acc i r common).d = clock acc.d := by
  unfold batchStep; dsimp only
  (repeat' split) <;> simp
/-- Records of a batch judged one after the other. -/
theorem clock_batchSteps (t : Taken) (n : Nat) (common : Option MT) (r : Nat → List Byte) (l : List Nat) (acc : BatchRun) :
    clock (l.foldl (fun acc i => batchStep t n acc i (r i) common) acc).d = clock acc.d :=
  foldl_keeps (fun x => clock x.d) _ (fun _ _ => clock_batchStep ..) l acc
@[simp] theorem clock_judgeObjBatch : clock (judgeObjBatch d t b).1 = clock d := by
  unfold judgeObjBatch; dsimp only
  (repeat' split) <;> simp [clock_batchSteps]
@[simp] theorem clock_judgeObjQuery : clock (judgeObjQuery d t b).1 = clock d := by
  unfold judgeObjQuery; dsimp only; split <;> simp
@[simp] theorem clock_judgeRouteSet : clock (judgeRouteSet d t b).1 = clock d := by
  unfold judgeRouteSet; dsimp only
  (repeat' split) <;> simp
@[simp] theorem clock_directAns (st : Status) (sel : MT) : clock (directAns d st sel).1 = clock d := by simp [directAns]
@[simp] theorem clock_judgeMatrixDirect : clock (judgeMatrixDirect d t b).1 = clock d := by
  unfold judgeMatrixDirect; dsimp only
  (repeat' split) <;> simp
@[simp] theorem clock_applyObjCfg : clock (applyObjCfg d t m).1 = clock d := by
  unfold applyObjCfg; dsimp only
  (repeat' split) <;> simp
@[simp] theorem clock_judgeObjCfg : clock (judgeObjCfg d t b).1 = clock d := by
  unfold judgeObjCfg; dsimp only
  (repeat' split) <;> simp

/-! Column bindings and the layout (R105–R114). -/

@[simp] theorem clock_columnFirClear (c : Nat) : clock (columnFirClear d c) = clock d := by simp [columnFirClear]
@[simp] theorem clock_columnKeepRate (c : Nat) (old : Binding) : clock (columnKeepRate d c old) = clock d := by simp [columnKeepRate]
@[simp] theorem clock_chainsMoved (n : Nat) (b : MT) : clock (chainsMoved d n b) = clock d := by simp [chainsMoved]
@[simp] theorem clock_joinGate (c : Nat) (dest : Binding) : clock (joinGate d c dest) = clock d := by simp [joinGate]
@[simp] theorem clock_bindColumn (c : Nat) (dest : Binding) : clock (bindColumn d c dest) = clock d := by simp [bindColumn, apply_ite clock]
@[simp] theorem clock_busRamps (cols : List Nat) (dest : Nat → Binding) (n : Nat) (b : MT) (c : Nat) (ts : List Taken) :
    clock (busRamps d cols dest n b c ts) = clock d := by simp [busRamps]
@[simp] theorem clock_applyBus (ts : List Taken) (b : Option MT) : clock (applyBus d ts b) = clock d := by
  unfold applyBus; dsimp only
  (repeat' split) <;> simp
@[simp] theorem clock_applyBusCfg : clock (applyBusCfg d t m).1 = clock d := by simp [applyBusCfg]
@[simp] theorem clock_judgeBusCfg : clock (judgeBusCfg d t b).1 = clock d := by
  unfold judgeBusCfg; dsimp only
  (repeat' split) <;> simp
@[simp] theorem clock_judgeLayoutBegin : clock (judgeLayoutBegin d t b).1 = clock d := by
  unfold judgeLayoutBegin; dsimp only
  (repeat' split) <;> simp
@[simp] theorem clock_judgeLayoutSpk : clock (judgeLayoutSpk d t b).1 = clock d := by
  unfold judgeLayoutSpk; dsimp only
  (repeat' split) <;> simp
@[simp] theorem clock_judgeLayoutCommit : clock (judgeLayoutCommit d t b).1 = clock d := by
  unfold judgeLayoutCommit; dsimp only
  (repeat' split) <;> simp
@[simp] theorem clock_applyLayout (j : LayoutJob) (l : Layout) (gs : Tab Mesh) (b : Option MT) : clock (applyLayout d j l gs b) = clock d := by
  unfold applyLayout; dsimp only
  (repeat' split) <;> simp [apply_ite clock]
@[simp] theorem clock_layoutDone (j : LayoutJob) (l : Layout) (gs : Tab Mesh) (b : Option MT) (st : Status) :
    clock (layoutDone d j l gs b st) = clock d := by simp [layoutDone]
@[simp] theorem clock_layoutBoundary (n : Nat) (b : MT) : clock (layoutBoundary d n b) = clock d := by
  unfold layoutBoundary
  (repeat' split) <;> simp

/-! The speaker-chain requests (R163–R187). -/

@[simp] theorem clock_chainCfgMod (c : Nat) (f : ChainCfg → ChainCfg) : clock (chainCfgMod d c f) = clock d := by simp [chainCfgMod]
@[simp] theorem clock_chainMod (c : Nat) (f : Chain1 → Chain1) : clock (chainMod d c f) = clock d := by simp [chainMod]
@[simp] theorem clock_chainRefuse (st : Status) : clock (chainRefuse d st).1 = clock d := by simp [chainRefuse]
@[simp] theorem clock_chainCommit (t : Taken) (dom : Option Nat) (f : Apply1) (h : ∀ d t m, clock (f d t m).1 = clock d) :
    clock (chainCommit d t dom f).1 = clock d := by
  unfold chainCommit; dsimp only
  (repeat' split) <;> simp [h]
@[simp] theorem clock_applyChainColumn : clock (applyChainColumn d t m).1 = clock d := by simp [applyChainColumn]
@[simp] theorem clock_judgeChainColumn : clock (judgeChainColumn d t b).1 = clock d := by
  unfold judgeChainColumn; dsimp only
  (repeat' split) <;> simp
@[simp] theorem clock_applyBassGroup : clock (applyBassGroup d t m).1 = clock d := by simp [applyBassGroup]
@[simp] theorem clock_judgeBassGroup : clock (judgeBassGroup d t b).1 = clock d := by
  unfold judgeBassGroup; dsimp only
  (repeat' split) <;> simp
@[simp] theorem clock_applyEqSet : clock (applyEqSet d t m).1 = clock d := by simp [applyEqSet]
@[simp] theorem clock_judgeEqSet : clock (judgeEqSet d t b).1 = clock d := by
  unfold judgeEqSet; dsimp only
  (repeat' split) <;> simp
@[simp] theorem clock_applyDelaySet : clock (applyDelaySet d t m).1 = clock d := by
  unfold applyDelaySet; dsimp only; split <;> simp
@[simp] theorem clock_judgeDelaySet : clock (judgeDelaySet d t b).1 = clock d := by
  unfold judgeDelaySet; dsimp only
  (repeat' split) <;> simp
@[simp] theorem clock_applyDynSet : clock (applyDynSet d t m).1 = clock d := by
  unfold applyDynSet; dsimp only; split <;> simp
@[simp] theorem clock_judgeDynSet : clock (judgeDynSet d t b).1 = clock d := by
  unfold judgeDynSet; dsimp only
  (repeat' split) <;> simp
@[simp] theorem clock_judgeGrRead : clock (judgeGrRead d t b).1 = clock d := by
  unfold judgeGrRead; dsimp only; split <;> simp
@[simp] theorem clock_applyOut (mute : Bool) : clock (applyOut mute d t m).1 = clock d := by
  unfold applyOut; split <;> simp
@[simp] theorem clock_judgeOut (mute : Bool) : clock (judgeOut mute d t b).1 = clock d := by
  unfold judgeOut; dsimp only
  (repeat' split) <;> simp

/-! The convolution and HALO requests, loads and held commits (R190–R213). -/

@[simp] theorem clock_judgeMap (setB : Bool) (r : List Byte) : clock (judgeMap d setB r).1 = clock d := by
  unfold judgeMap; dsimp only
  (repeat' split) <;> simp
@[simp] theorem clock_beginLoad (asked : Option Taken) (rs : List (Nat × List F32)) : clock (beginLoad d asked rs) = clock d := by simp [beginLoad]
@[simp] theorem clock_judgeData (t : Taken) (r : List Byte) : clock (judgeData d t r).1 = clock d := by
  unfold judgeData; dsimp only
  (repeat' split) <;> simp
@[simp] theorem clock_judgeFirLoad : clock (judgeFirLoad d t b).1 = clock d := by
  unfold judgeFirLoad; dsimp only
  (repeat' split) <;> simp
@[simp] theorem clock_loadFinish : clock (loadFinish d) = clock d := by
  unfold loadFinish
  (repeat' split) <;> simp
@[simp] theorem clock_commitHold (t : Taken) (cs : List Nat) (named : Option Nat) (atMt : Option MT) (n : Nat) :
    clock (commitHold d t cs named atMt n).1 = clock d := by
  unfold commitHold; dsimp only
  (repeat' split) <;> simp
@[simp] theorem clock_judgeFirCommit : clock (judgeFirCommit d t b).1 = clock d := by
  unfold judgeFirCommit; dsimp only
  (repeat' split) <;> simp
@[simp] theorem clock_haloMod (f : Halo → Halo) : clock (haloMod d f) = clock d := by simp [haloMod]
@[simp] theorem clock_mantleBoundary (n : Nat) (b : MT) : clock (mantleBoundary d n b) = clock d := by
  unfold mantleBoundary; dsimp only
  (repeat' split) <;> simp
@[simp] theorem clock_firSnapTake (n : Nat) (b : MT) : clock (firSnapTake d n b) = clock d := by
  unfold firSnapTake; split <;> simp
@[simp] theorem clock_judgeFirStatus : clock (judgeFirStatus d t b).1 = clock d := by
  unfold judgeFirStatus; dsimp only
  (repeat' split) <;> simp
@[simp] theorem clock_haloAns (st : Status) (mt : MT) : clock (haloAns d st mt).1 = clock d := by simp [haloAns]
@[simp] theorem clock_applyHaloSet : clock (applyHaloSet d t m).1 = clock d := by simp [applyHaloSet]
@[simp] theorem clock_judgeHaloSet : clock (judgeHaloSet d t b).1 = clock d := by
  unfold judgeHaloSet; dsimp only
  (repeat' split) <;> simp
@[simp] theorem clock_judgeHaloOrient : clock (judgeHaloOrient d t b).1 = clock d := by
  unfold judgeHaloOrient; dsimp only
  (repeat' split) <;> simp
@[simp] theorem clock_judgeHaloGet : clock (judgeHaloGet d t b).1 = clock d := by
  unfold judgeHaloGet
  (repeat' split) <;> simp

/-! PTP, pulse and capture configuration (R55, R70, R72): a configuration does not step DT. -/

@[simp] theorem clock_ptpMod (f : Ptp → Ptp) : clock (ptpMod d f) = clock d := by simp [ptpMod]
@[simp] theorem clock_ptpPortMod (i : Nat) (f : PtpPort → PtpPort) : clock (ptpPortMod d i f) = clock d := by simp [ptpPortMod]
@[simp] theorem clock_ptpTo (new : PtpState) : clock (ptpTo d new) = clock d := by
  unfold ptpTo; dsimp only; split <;> simp
@[simp] theorem clock_putRoles (r : Nat → PtpRole) : clock (putRoles d r) = clock d := by simp [putRoles]
@[simp] theorem clock_slaveRoles (sp : Nat) (b : Heard) : clock (slaveRoles d sp b) = clock d := by simp [slaveRoles]
@[simp] theorem clock_ownRoles : clock (ownRoles d) = clock d := by simp [ownRoles]
@[simp] theorem clock_selectForeign (sp : Nat) (b : Heard) (switch : Bool) : clock (selectForeign d sp b switch) = clock d := by
  unfold selectForeign; dsimp only
  (repeat' split) <;> simp
@[simp] theorem clock_selectOwn : clock (selectOwn d) = clock d := by
  unfold selectOwn; dsimp only
  (repeat' split) <;> simp
@[simp] theorem clock_bmca : clock (bmca d) = clock d := by
  unfold bmca
  split
  · rfl
  · split <;> simp
@[simp] theorem clock_masterLost : clock (masterLost d) = clock d := by
  unfold masterLost; split <;> simp
@[simp] theorem clock_ptpListen : clock (ptpListen d) = clock d := by
  unfold ptpListen; split <;> simp
@[simp] theorem clock_ptpLinks : clock (ptpLinks d) = clock d := by
  unfold ptpLinks; split <;> simp
@[simp] theorem clock_ptpTake (c : PtpCfg) : clock (ptpTake d c) = clock d := by
  unfold ptpTake; dsimp only
  (repeat' split) <;> simp
@[simp] theorem clock_judgePtpCfg : clock (judgePtpCfg d t b).1 = clock d := by
  unfold judgePtpCfg; dsimp only
  (repeat' split) <;> simp
@[simp] theorem clock_pulseMod (i : Nat) (f : Pulse → Pulse) : clock (pulseMod d i f) = clock d := by simp [pulseMod]
@[simp] theorem clock_judgePulseCfg : clock (judgePulseCfg d t b).1 = clock d := by
  unfold judgePulseCfg; dsimp only
  (repeat' split) <;> simp
@[simp] theorem clock_judgeCaptureCfg : clock (judgeCaptureCfg d t b).1 = clock d := by
  unfold judgeCaptureCfg; dsimp only; split <;> simp

/-! Bridges, microphones and detectors (R215–R240). -/

@[simp] theorem clock_brMod (i : Nat) (f : Bridge → Bridge) : clock (brMod d i f) = clock d := by simp [brMod]
@[simp] theorem clock_micMod (i : Nat) (f : Mic → Mic) : clock (micMod d i f) = clock d := by simp [micMod]
@[simp] theorem clock_detMod (i : Nat) (f : Det → Det) : clock (detMod d i f) = clock d := by simp [detMod]
@[simp] theorem clock_commitPd (t : Taken) (dom pd : Nat) (needs : Bool) (f : Apply1) (h : ∀ d t m, clock (f d t m).1 = clock d) :
    clock (commitPd d t dom pd needs f).1 = clock d := by
  unfold commitPd; dsimp only
  (repeat' split) <;> simp [h]
@[simp] theorem clock_applySeam : clock (applySeam d t m).1 = clock d := by simp [applySeam]
@[simp] theorem clock_seamRefuse (i : Nat) (st : Status) : clock (seamRefuse d i st).1 = clock d := by simp [seamRefuse]
@[simp] theorem clock_judgeSeamSet : clock (judgeSeamSet d t b).1 = clock d := by
  unfold judgeSeamSet; dsimp only
  (repeat' split) <;> simp
@[simp] theorem clock_judgeSeamGet : clock (judgeSeamGet d t b).1 = clock d := by
  unfold judgeSeamGet; dsimp only; split <;> simp
@[simp] theorem clock_applyMic : clock (applyMic d t m).1 = clock d := by simp [applyMic]
@[simp] theorem clock_micRefuse (i : Nat) (st : Status) : clock (micRefuse d i st).1 = clock d := by simp [micRefuse]
@[simp] theorem clock_judgeMicSet : clock (judgeMicSet d t b).1 = clock d := by
  unfold judgeMicSet; dsimp only
  (repeat' split) <;> simp
@[simp] theorem clock_judgeMicGet : clock (judgeMicGet d t b).1 = clock d := by
  unfold judgeMicGet; dsimp only; split <;> simp
@[simp] theorem clock_detRefuse (i : Nat) (st : Status) : clock (detRefuse d i st).1 = clock d := by simp [detRefuse]
@[simp] theorem clock_applyDet : clock (applyDet d t m).1 = clock d := by
  unfold applyDet; dsimp only; split <;> simp
@[simp] theorem clock_judgeDetSet : clock (judgeDetSet d t b).1 = clock d := by
  unfold judgeDetSet; dsimp only
  (repeat' split) <;> simp
@[simp] theorem clock_judgeDetStop : clock (judgeDetStop d t b).1 = clock d := by
  unfold judgeDetStop; dsimp only
  (repeat' split) <;> simp
@[simp] theorem clock_judgeDetGet : clock (judgeDetGet d t b).1 = clock d := by
  unfold judgeDetGet; dsimp only
  (repeat' split) <;> simp
@[simp] theorem clock_takePdm (pdm : List (Nat × List Bool)) : clock (takePdm d pdm) = clock d := by simp [takePdm, apply_ite clock]
@[simp] theorem clock_micLand (n : Nat) (b : MT) (i : Nat) : clock (micLand d n b i) = clock d := by
  unfold micLand; dsimp only
  (repeat' split) <;> simp
@[simp] theorem clock_micsLand (n : Nat) (b : MT) : clock (micsLand d n b) = clock d := by simp [micsLand]
@[simp] theorem clock_bridgeLand (n : Nat) (b : MT) (dt : DT) (i : Nat) : clock (bridgeLand d n b dt i) = clock d := by
  unfold bridgeLand; dsimp only; split <;> simp
@[simp] theorem clock_bridgesLand (n : Nat) (b : MT) (dt : DT) : clock (bridgesLand d n b dt) = clock d := by simp [bridgesLand]
@[simp] theorem clock_micsBoundary (n : Nat) (b : MT) : clock (micsBoundary d n b) = clock d := by simp [micsBoundary, apply_ite clock]
@[simp] theorem clock_bridgesLed (n : Nat) (k : MT) : clock (bridgesLed d n k).1 = clock d := by
  unfold bridgesLed
  split
  · rfl
  · refine clock_foldl_fst _ (fun x i => ?_) _ _
    dsimp only
    split
    · rfl
    · split <;> simp
@[simp] theorem clock_bridgesBoundary (n : Nat) (b : MT) (dt : DT) (ends : List EndCount) : clock (bridgesBoundary d n b dt ends) = clock d := by
  simp [bridgesBoundary, apply_ite clock]

/-! Calibration, tracking and self-test (R241–R255). -/

@[simp] theorem clock_calMod (f : Cal → Cal) : clock (calMod d f) = clock d := by simp [calMod]
@[simp] theorem clock_trackMod (f : Track → Track) : clock (trackMod d f) = clock d := by simp [trackMod]
@[simp] theorem clock_judgeMeasure : clock (judgeMeasure d t b).1 = clock d := by
  unfold judgeMeasure; dsimp only
  (repeat' split) <;> simp
@[simp] theorem clock_applyMeasure : clock (applyMeasure d t m).1 = clock d := by simp [applyMeasure]
@[simp] theorem clock_calLand (n : Nat) (b : MT) (good : List Nat) : clock (calLand d n b good) = clock d := by simp [calLand]
@[simp] theorem clock_calRespond (r : CalRun) (f slot s : Nat) : clock (calRespond d r f slot s).1 = clock d := by
  unfold calRespond; split <;> simp
@[simp] theorem clock_calTake (f : Nat) (b : MT) (r : CalRun) : clock (calTake d f b r).1 = clock d := by
  unfold calTake
  (repeat' split) <;> simp
@[simp] theorem clock_calSlot (b : MT) : clock (calSlot d b) = clock d := by
  unfold calSlot; dsimp only
  (repeat' split) <;> simp
@[simp] theorem clock_calBoundary (n : Nat) (b : MT) : clock (calBoundary d n b) = clock d := by
  unfold calBoundary; dsimp only
  (repeat' split) <;> simp
@[simp] theorem clock_judgeDesign : clock (judgeDesign d t b).1 = clock d := by
  unfold judgeDesign; dsimp only
  (repeat' split) <;> simp
@[simp] theorem clock_judgeAbort : clock (judgeAbort d t b).1 = clock d := by
  unfold judgeAbort
  (repeat' split) <;> simp
@[simp] theorem clock_depositReply (t : Taken) (o : Nat) (bs : List Byte) : clock (depositReply d t o bs).1 = clock d := by simp [depositReply]
@[simp] theorem clock_judgeCalResult : clock (judgeCalResult d t b).1 = clock d := by
  unfold judgeCalResult; dsimp only
  (repeat' split) <;> simp
@[simp] theorem clock_trackRestart : clock (trackRestart d) = clock d := by simp [trackRestart]
@[simp] theorem clock_judgeTrackSet : clock (judgeTrackSet d t b).1 = clock d := by
  unfold judgeTrackSet; dsimp only
  (repeat' split) <;> simp
@[simp] theorem clock_judgeTrackGet : clock (judgeTrackGet d t b).1 = clock d := by
  unfold judgeTrackGet; split <;> simp
@[simp] theorem clock_judgeTrackRead : clock (judgeTrackRead d t b).1 = clock d := by
  unfold judgeTrackRead; dsimp only
  (repeat' split) <;> simp
@[simp] theorem clock_judgePropList : clock (judgePropList d t b).1 = clock d := by
  unfold judgePropList; dsimp only; split <;> simp
@[simp] theorem clock_judgePropRead : clock (judgePropRead d t b).1 = clock d := by
  unfold judgePropRead; dsimp only
  (repeat' split) <;> simp
@[simp] theorem clock_judgePropDiscard : clock (judgePropDiscard d t b).1 = clock d := by
  unfold judgePropDiscard; dsimp only
  (repeat' split) <;> simp
@[simp] theorem clock_trackLand (n : Nat) (b : MT) : clock (trackLand d n b) = clock d := by
  unfold trackLand; dsimp only
  (repeat' split) <;> simp
@[simp] theorem clock_judgeSelftest : clock (judgeSelftest d t b).1 = clock d := by
  unfold judgeSelftest; dsimp only
  (repeat' split) <;> simp

/-! Fault gates of outputs (R257). -/

@[simp] theorem clock_muteClass (cls : Nat) : clock (muteClass d cls) = clock d := by simp [muteClass]
@[simp] theorem clock_mutesBoundary (n : Nat) (b : MT) : clock (mutesBoundary d n b) = clock d :=
  clock_foldl _ (fun d cls => by split <;> rfl) _ _

/-! AES3, TDM and alignment groups (R309–R335). -/

@[simp] theorem clock_aesMod (i : Nat) (f : AesRx → AesRx) : clock (aesMod d i f) = clock d := by simp [aesMod]
@[simp] theorem clock_atxMod (i : Nat) (f : AesTx → AesTx) : clock (atxMod d i f) = clock d := by simp [atxMod]
@[simp] theorem clock_tdmMod (n : Nat) (f : Tdm → Tdm) : clock (tdmMod d n f) = clock d := by simp [tdmMod]
@[simp] theorem clock_aesTo (i : Nat) (old : AesState) : clock (aesTo d i old) = clock d := by
  unfold aesTo; dsimp only; split <;> simp
@[simp] theorem clock_tdmTo (n : Nat) (old : TdmState) : clock (tdmTo d n old) = clock d := by
  unfold tdmTo; dsimp only; split <;> simp
@[simp] theorem clock_aesStep (i : Nat) (f : AesRx → AesRx) : clock (aesStep d i f) = clock d := by simp [aesStep]
@[simp] theorem clock_tdmStep (n : Nat) (f : Tdm → Tdm) : clock (tdmStep d n f) = clock d := by simp [tdmStep]
@[simp] theorem clock_memberLost (kind index : Nat) (v : Bool) : clock (memberLost d kind index v) = clock d := by simp [memberLost]
@[simp] theorem clock_evUnderrun (kind index cause : Nat) (mt : MT) (slips : Word) : clock (evUnderrun d kind index cause mt slips) = clock d := by
  simp [evUnderrun]
@[simp] theorem clock_applyPort : clock (applyPort d t m).1 = clock d := by
  unfold applyPort; dsimp only
  (repeat' split) <;> simp
@[simp] theorem clock_portRefuse (st : Status) : clock (portRefuse d st).1 = clock d := by simp [portRefuse]
@[simp] theorem clock_judgePortSet : clock (judgePortSet d t b).1 = clock d := by
  unfold judgePortSet; dsimp only
  (repeat' split) <;> simp
@[simp] theorem clock_judgePortSource : clock (judgePortSource d t b).1 = clock d := by
  unfold judgePortSource; dsimp only
  (repeat' split) <;> simp
@[simp] theorem clock_judgeCsWrite : clock (judgeCsWrite d t b).1 = clock d := by
  unfold judgeCsWrite; dsimp only
  (repeat' split) <;> simp
@[simp] theorem clock_judgeCsRead : clock (judgeCsRead d t b).1 = clock d := by
  unfold judgeCsRead; dsimp only
  (repeat' split) <;> simp
@[simp] theorem clock_judgePortGet : clock (judgePortGet d t b).1 = clock d := by
  unfold judgePortGet; dsimp only; split <;> simp
@[simp] theorem clock_judgeSlotMask : clock (judgeSlotMask d t b).1 = clock d := by
  unfold judgeSlotMask; dsimp only
  (repeat' split) <;> simp
@[simp] theorem clock_memberJoins (m : GMember) : clock (memberJoins d m) = clock d := by
  unfold memberJoins
  (repeat' split) <;> simp
@[simp] theorem clock_applyGroup : clock (applyGroup d t m).1 = clock d := by simp [applyGroup]
@[simp] theorem clock_groupRefuse (st : Status) : clock (groupRefuse d st).1 = clock d := by simp [groupRefuse]
@[simp] theorem clock_judgeGroupSet : clock (judgeGroupSet d t b).1 = clock d := by
  unfold judgeGroupSet; dsimp only
  (repeat' split) <;> simp
@[simp] theorem clock_judgeGroupGet : clock (judgeGroupGet d t b).1 = clock d := by simp [judgeGroupGet, apply_ite Prod.fst, apply_ite clock]
@[simp] theorem clock_judgeGroupDissolve : clock (judgeGroupDissolve d t b).1 = clock d := by
  unfold judgeGroupDissolve; dsimp only
  (repeat' split) <;> simp
@[simp] theorem clock_portsLand (n : Nat) (b : MT) : clock (portsLand d n b) = clock d := by simp [portsLand, apply_ite clock]
@[simp] theorem clock_portsBoundary (n : Nat) (b : MT) : clock (portsBoundary d n b) = clock d := by simp [portsBoundary, apply_ite clock]

/-! The transmit side of a network port (R339–R345, R360). -/

@[simp] theorem clock_rxFlowMod (i : Nat) (f : RxFlow → RxFlow) : clock (rxFlowMod d i f) = clock d := by simp [rxFlowMod]
@[simp] theorem clock_txFlowMod (i : Nat) (f : TxFlow → TxFlow) : clock (txFlowMod d i f) = clock d := by simp [txFlowMod]
@[simp] theorem clock_nsTx (p i n : Nat) : clock (nsTx d p i n) = clock d := by simp [nsTx]
@[simp] theorem clock_netSticky (p i : Nat) : clock (netSticky d p i) = clock d := by simp [netSticky]
@[simp] theorem clock_ringAdvance (r n : Nat) : clock (ringAdvance d r n) = clock d := by simp [ringAdvance]
@[simp] theorem clock_txDone (ring n status : Nat) (stamp : DT) : clock (txDone d ring n status stamp) = clock d := by
  unfold txDone; split <;> simp
@[simp] theorem clock_pump (p : Nat) : clock (pump d p) = clock d := by
  unfold pump; dsimp only
  (repeat' split) <;> simp
@[simp] theorem clock_enqueue (p : Nat) (f : TxFrame) : clock (enqueue d p f) = clock d := by simp [enqueue]
@[simp] theorem clock_fwFrame (p proto : Nat) (target : List Byte) : clock (fwFrame d p proto target) = clock d := by
  unfold fwFrame; split <;> simp
@[simp] theorem clock_dropSegments (p ring : Nat) : clock (dropSegments d p ring) = clock d := by simp [dropSegments]
@[simp] theorem clock_askAddr (p : Nat) (a : List Byte) : clock (askAddr d p a) = clock d := by
  unfold askAddr; dsimp only
  (repeat' split) <;> simp
@[simp] theorem clock_askAll : clock (askAll d) = clock d := by
  unfold askAll
  apply clock_foldl
  intro d kv
  split
  · rfl
  · apply clock_foldl
    intro d pl
    dsimp only
    repeat' split
    all_goals simp
@[simp] theorem clock_joinGroups : clock (joinGroups d) = clock d := by simp [joinGroups]
@[simp] theorem clock_linkChanged (p : Nat) (up : Bool) : clock (linkChanged d p up) = clock d := by simp [linkChanged]
@[simp] theorem clock_linkDown (p : Nat) (remote : Bool) : clock (linkDown d p remote) = clock d := by
  unfold linkDown; dsimp only
  (repeat' split) <;> simp

/-! Network ports, flows and gate lists (R338, R345–R359). -/

@[simp] theorem clock_judgeNetSet : clock (judgeNetSet d t b).1 = clock d := by
  unfold judgeNetSet; dsimp only
  (repeat' split) <;> simp
@[simp] theorem clock_judgeNetGet : clock (judgeNetGet d t b).1 = clock d := by
  unfold judgeNetGet; dsimp only; split <;> simp
@[simp] theorem clock_judgeNetFilter : clock (judgeNetFilter d t b).1 = clock d := by
  unfold judgeNetFilter; dsimp only
  (repeat' split) <;> simp
@[simp] theorem clock_flowRefuse (st : Status) : clock (flowRefuse d st).1 = clock d := by simp [flowRefuse]
@[simp] theorem clock_rxSet (i : Nat) (c : RxFlowCfg) (fade : Bool) : clock (rxSet d i c fade) = clock d := by
  unfold rxSet; dsimp only
  (repeat' split) <;> simp
@[simp] theorem clock_rxLeg (i leg : Nat) (p : List Byte) : clock (rxLeg d i leg p) = clock d := by simp [rxLeg]
@[simp] theorem clock_applyFlowRx : clock (applyFlowRx d t m).1 = clock d := by
  unfold applyFlowRx; dsimp only
  (repeat' split) <;> simp
@[simp] theorem clock_judgeFlowRxSet : clock (judgeFlowRxSet d t b).1 = clock d := by
  unfold judgeFlowRxSet; dsimp only
  (repeat' split) <;> simp
@[simp] theorem clock_judgeFlowRxLeg : clock (judgeFlowRxLeg d t b).1 = clock d := by
  unfold judgeFlowRxLeg; dsimp only
  (repeat' split) <;> simp
@[simp] theorem clock_applyFlowTx : clock (applyFlowTx d t m).1 = clock d := by
  unfold applyFlowTx; dsimp only
  (repeat' split) <;> simp
@[simp] theorem clock_judgeFlowTxSet : clock (judgeFlowTxSet d t b).1 = clock d := by
  unfold judgeFlowTxSet; dsimp only
  (repeat' split) <;> simp
@[simp] theorem clock_judgeFlowTxLeg : clock (judgeFlowTxLeg d t b).1 = clock d := by
  unfold judgeFlowTxLeg; dsimp only
  (repeat' split) <;> simp
@[simp] theorem clock_judgeFlowTxSource : clock (judgeFlowTxSource d t b).1 = clock d := by
  unfold judgeFlowTxSource; dsimp only
  (repeat' split) <;> simp
@[simp] theorem clock_judgeFlowState : clock (judgeFlowState d t b).1 = clock d := by
  unfold judgeFlowState; dsimp only
  (repeat' split) <;> simp
@[simp] theorem clock_pendGate (p : Nat) (g : Option GateList) (t : Nat) (asked : Taken) : clock (pendGate d p g t asked) = clock d := by
  unfold pendGate; split <;> simp
@[simp] theorem clock_gateRefuse (st : Status) : clock (gateRefuse d st).1 = clock d := by simp [gateRefuse]
@[simp] theorem clock_judgeGateSet : clock (judgeGateSet d t b).1 = clock d := by
  unfold judgeGateSet; dsimp only
  (repeat' split) <;> simp
@[simp] theorem clock_judgeGateClear : clock (judgeGateClear d t b).1 = clock d := by
  unfold judgeGateClear; split <;> simp
@[simp] theorem clock_flowLand (i : Nat) (b : MT) : clock (flowLand d i b) = clock d := by
  unfold flowLand; dsimp only
  (repeat' split) <;> simp
@[simp] theorem clock_flowsLand (n : Nat) (b : MT) : clock (flowsLand d n b) = clock d := by simp [flowsLand, apply_ite clock]
@[simp] theorem clock_flowsView (n : Nat) (b : MT) : clock (flowsView d n b) = clock d := by simp [flowsView]

/-! The pair: requests, heartbeats, divergence, resynchronisation (R373–R398). -/

@[simp] theorem clock_judgeTwinSet : clock (judgeTwinSet d t b).1 = clock d := by
  unfold judgeTwinSet; dsimp only
  (repeat' split) <;> simp
@[simp] theorem clock_judgeTwinGet : clock (judgeTwinGet d t b).1 = clock d := by
  unfold judgeTwinGet; split <;> simp
@[simp] theorem clock_judgeTwinState : clock (judgeTwinState d t b).1 = clock d := by simp [judgeTwinState]
@[simp] theorem clock_judgeTwinSwap : clock (judgeTwinSwap d t b).1 = clock d := by
  unfold judgeTwinSwap; dsimp only
  (repeat' split) <;> simp
@[simp] theorem clock_enterResync (kind : Nat) (mt : MT) (groups : Nat) : clock (enterResync d kind mt groups) = clock d := by simp [enterResync]
@[simp] theorem clock_diverge (mt : MT) (groups : Nat) : clock (diverge d mt groups) = clock d := by
  unfold diverge; split <;> simp
@[simp] theorem clock_heartbeats (n : Nat) (b : MT) : clock (heartbeats d n b) = clock d := by
  unfold heartbeats; split <;> simp
@[simp] theorem clock_compareSigs (dom : Nat) (block : MT) : clock (compareSigs d dom block) = clock d := by
  unfold compareSigs; dsimp only
  (repeat' split) <;> simp
@[simp] theorem clock_ownSigs (s : Sig) : clock (ownSigs d s) = clock d := by simp [ownSigs]

/-! The render period (R28–R32). -/

@[simp] theorem clock_renderMod (n : Nat) (f : DomRender → DomRender) : clock (renderMod d n f) = clock d := by simp [renderMod]
@[simp] theorem clock_objsPath (n : Nat) (k : MT) : clock (objsPath d n k) = clock d := by simp [objsPath]
@[simp] theorem clock_voidObjs (n : Nat) (p : Nat → Bool) : clock (voidObjs d n p) = clock d := by simp [voidObjs]
@[simp] theorem clock_matrixOut (n : Nat) (r : DomRender) (k : MT) : clock (matrixOut d n r k).1 = clock d := by simp [matrixOut]
@[simp] theorem clock_chanRun (n : Nat) (r : DomRender) (m : Nat) (k : MT) (xs : List Int) : clock (chanRun d n r m k xs).1 = clock d := by
  unfold chanRun; split <;> simp
@[simp] theorem clock_chainCol1 (n : Nat) (r : DomRender) (k : MT) (cols : Tab (List Int)) (c : Nat) :
    clock (chainCol1 d n r k cols c).1 = clock d := by
  unfold chainCol1
  (repeat' split) <;> simp
@[simp] theorem clock_haloRot (n : Nat) (r : DomRender) (k : MT) (cols : Tab (List Int)) : clock (haloRot d n r k cols).1 = clock d := by
  simp [haloRot]
@[simp] theorem clock_hrirSum (n : Nat) (r : DomRender) (k : MT) (rot : List (List Int)) : clock (hrirSum d n r k rot).1 = clock d := by
  simp [hrirSum, apply_ite Prod.fst, apply_ite clock]
@[simp] theorem clock_earOut (k : MT) (ys : List Int) : clock (earOut d k ys).1 = clock d := by simp [earOut]
@[simp] theorem clock_publishOne (n : Nat) (closing : Bool) (k : MT) (no : Nat) (complete : Bool) (ys : List Int) :
    clock (publishOne d n closing k no complete ys) = clock d := by simp [publishOne]
@[simp] theorem clock_publishPorts (n : Nat) (b k : MT) : clock (publishPorts d n b k) = clock d := by
  unfold publishPorts
  dsimp only
  rw [clock_foldl, clock_foldl]
  · intro d p
    split <;> simp
  · intro d p
    simp
@[simp] theorem clock_publish (n : Nat) : clock (publish d n) = clock d := by
  unfold publish; dsimp only
  (repeat' split) <;> simp

/-! The rule of each request by its opcode, and what a shadow commit does at its boundary (R35). -/

/-- A rule of a request keeps the clocks. -/
def KeepsClock (j : Judge1) : Prop := ∀ d t b, clock (j d t b).1 = clock d
theorem keepsClock_judgeOf (op : Op) (p : List Byte) : KeepsClock (judgeOf op p) := by
  unfold judgeOf
  repeat' split
  all_goals
    intro d t b
    simp
@[simp] theorem clock_judgeOf (op : Op) (p : List Byte) : clock (judgeOf op p d t b).1 = clock d :=
  keepsClock_judgeOf op p d t b
@[simp] theorem clock_applyOf (op : Op) (p : List Byte) : clock (applyOf op p d t m).1 = clock d := by
  unfold applyOf
  split <;> (try split) <;> simp
@[simp] theorem clock_commitOne (n : Nat) (b : MT) (c : Commit) : clock (commitOne d n b c) = clock d := by
  unfold commitOne; dsimp only
  (repeat' split) <;> simp
@[simp] theorem clock_firTogether (n : Nat) (b : MT) : clock (firTogether d n b) = clock d := by simp [firTogether]
@[simp] theorem clock_commitsAt (n : Nat) (b : MT) : clock (commitsAt d n b) = clock d := by
  unfold commitsAt; dsimp only; split <;> simp

/-! The parts of a boundary's work (R31, R34, R35). -/

@[simp] theorem clock_runTicket (t : Ticket) : clock (runTicket d t) = clock d := by
  unfold runTicket; split <;> simp
@[simp] theorem clock_ticketsAt (n : Nat) (b : MT) : clock (ticketsAt d n b) = clock d := by simp [ticketsAt, apply_ite clock]
@[simp] theorem clock_pairBoundary (n : Nat) (b : MT) : clock (pairBoundary d n b) = clock d := by
  unfold pairBoundary; dsimp only
  (repeat' split) <;> simp
@[simp] theorem clock_gatesZero (n : Nat) : clock (gatesZero d n) = clock d := by simp [gatesZero]
@[simp] theorem clock_joinRender (n : Nat) (x : Domain) (r : DomRender) : clock (joinRender d n x r) = clock d := by
  unfold joinRender; dsimp only
  (repeat' split) <;> simp
@[simp] theorem clock_renderBegin (n : Nat) (b : MT) : clock (renderBegin d n b) = clock d := by
  unfold renderBegin; dsimp only
  (repeat' split) <;> simp
@[simp] theorem clock_selectAt (n : Nat) (b : MT) : clock (selectAt d n b) = clock d := by
  unfold selectAt; dsimp only; split <;> simp
@[simp] theorem clock_boundaryLands (n : Nat) (b : MT) (m : Boundary) : clock (boundaryLands d n b m) = clock d := by
  unfold boundaryLands; dsimp only
  (repeat' split) <;> simp
@[simp] theorem clock_boundaryTakes (n : Nat) (b : MT) (m : Boundary) : clock (boundaryTakes d n b m) = clock d := by
  unfold boundaryTakes; dsimp only; split <;> simp
@[simp] theorem clock_boundaryFollows (n : Nat) (b : MT) (m : Boundary) : clock (boundaryFollows d n b m) = clock d := by
  unfold boundaryFollows; dsimp only
  (repeat' split) <;> simp

end

end Sys2Proof.Machine

namespace Sys2Proof.Machine

/-! The boundary itself (R59, R61, R64). -/

@[simp] theorem dtTo_dom (d : Dev) (dt : DT) : (dtTo d dt).dom = d.dom := by unfold dtTo; split <;> rfl
@[simp] theorem dtTo_scene (d : Dev) (dt : DT) : (dtTo d dt).scene = d.scene := by unfold dtTo; split <;> rfl
@[simp] theorem dtTo_render (d : Dev) (dt : DT) : (dtTo d dt).render = d.render := by unfold dtTo; split <;> rfl
/-- DT is brought forward, never back. -/
theorem dtTo_time_dt (d : Dev) (dt : DT) : (dtTo d dt).time.dt = if d.time.dt.toNat < dt.toNat then dt else d.time.dt := by
  unfold dtTo; split <;> rfl
/-- The validity of a reference does not depend on DT (R60). -/
@[simp] theorem refValid_dtTo (d : Dev) (dt : DT) (n : Nat) (c : DomCfg) : refValid (dtTo d dt) n c = refValid d n c := by
  unfold dtTo; split <;> rfl

theorem getDom_of_dom {d d' : Dev} (h : d'.dom = d.dom) (n : Nat) : getDom d' n = getDom d n := congrArg (tabGet · n) h
@[simp] theorem getDom_domMod_same (d : Dev) (n : Nat) (f : Domain → Domain) : getDom (domMod d n f) n = f (getDom d n) :=
  tabGet_tabMod_same _ _ _

@[simp] theorem getDom_settle (d : Dev) (n : Nat) : getDom (settle d) n = getDom d n := getDom_of_dom (settle_dom d) n
@[simp] theorem getDom_quiet (s : State) (n : Nat) : getDom (quiet s) n = getDom s.dev n := rfl
@[simp] theorem refValid_quiet (s : State) (n : Nat) (c : DomCfg) : refValid (quiet s) n c = refValid s.dev n c := rfl
@[simp] theorem getDom_dtTo (d : Dev) (dt : DT) (n : Nat) : getDom (dtTo d dt) n = getDom d n := getDom_of_dom (dtTo_dom d dt) n

theorem exec_domainBoundary (n : Fin 3) (m : Boundary) (s : State) :
    exec (.domainBoundary n m) s = .next (after s (domainBoundary (quiet s) n.val m)) := rfl

/-- A boundary of a domain that runs: its work leaves the clocks as the boundary gave them. -/
theorem clock_domainBoundary {d : Dev} {n : Nat} {m : Boundary} (h : domRuns (getDom d n).state = true) :
    clock (domainBoundary d n m) = clock (domMod (publish (dtTo d m.dt) n) n (fun x => domMeasured { x with mt := nextMt (getDom d n).mt } m)) := by
  unfold domainBoundary
  simp only [getDom_dtTo, h, Bool.true_or, if_true]
  rw [clock_boundaryFollows, clock_boundaryTakes, clock_boundaryLands, clock_dmaEdge]

theorem domainBoundary_domClock {d : Dev} {n : Nat} {m : Boundary} (h : domRuns (getDom d n).state = true) :
    domClock (getDom (domainBoundary d n m) n) = (nextMt (getDom d n).mt, m.dt, m.phase) := by
  rw [clock_getDom (clock_domainBoundary h), getDom_domMod_same]; rfl

theorem domainBoundary_dt {d : Dev} {n : Nat} {m : Boundary} (h : domRuns (getDom d n).state = true) :
    (domainBoundary d n m).time.dt = if d.time.dt.toNat < m.dt.toNat then m.dt else d.time.dt := by
  rw [clock_time (clock_domainBoundary h), domMod_time, clock_time (clock_publish ..), dtTo_time_dt]

/-- What a boundary in ACQUIRE leaves in its domain: what it measured, and the count of blocks within 100 ns (R60). -/
def acquireBlock (d : Dev) (n : Nat) (m : Boundary) (x : Domain) : Domain :=
  { domMeasured x m with within := if refValid d n x.cfg && decide (m.phase.natAbs ≤ 100) then x.within + 1 else 0 }

/-- A boundary of a domain in ACQUIRE with no closing period (R60, R64). -/
theorem domainBoundary_acquire {d : Dev} {n : Nat} {m : Boundary} (h : (getDom d n).state = .acquire) (hc : (getDom d n).closing = none) :
    domainBoundary d n m = pairBoundary (domMod (dtTo d m.dt) n (acquireBlock d n m)) n (getDom d n).mt := by
  have hruns : domRuns DomState.acquire = false := rfl
  have hblock : acquireBlock (dtTo d m.dt) n m = acquireBlock d n m := by
    funext x
    simp [acquireBlock]
  rw [← hblock]
  simp only [domainBoundary, getDom_dtTo, h, hc, hruns, Bool.false_or, Bool.false_eq_true, if_false, if_true]
  rfl

@[simp] theorem linkSend_dom (d : Dev) (cls : Nat) (body : List Byte) : (linkSend d cls body).dom = d.dom := by
  unfold linkSend; split <;> rfl
@[simp] theorem linkSend_scene (d : Dev) (cls : Nat) (body : List Byte) : (linkSend d cls body).scene = d.scene := by
  unfold linkSend; split <;> rfl
@[simp] theorem linkSend_render (d : Dev) (cls : Nat) (body : List Byte) : (linkSend d cls body).render = d.render := by
  unfold linkSend; split <;> rfl

/-- A domain whose media time does not run exchanges nothing but its marker. -/
theorem pairBoundary_stopped {d : Dev} {n : Nat} (h : mtRuns (getDom d n) = false) (b : MT) :
    pairBoundary d n b = d ∨ pairBoundary d n b = linkSend d 0 (markerBytes d n) := by
  have hdom : getDom (linkSend d 0 (markerBytes d n)) n = getDom d n := getDom_of_dom (linkSend_dom ..) n
  unfold pairBoundary
  split
  · exact Or.inl rfl
  · right
    simp [hdom, h]

/-- Where media time does not run, the pair's part of a boundary keeps the domains and what renders. -/
theorem pairBoundary_stopped_keeps {d : Dev} {n : Nat} (h : mtRuns (getDom d n) = false) (b : MT) :
    (pairBoundary d n b).dom = d.dom ∧ (pairBoundary d n b).scene = d.scene ∧ (pairBoundary d n b).render = d.render := by
  rcases pairBoundary_stopped h b with hp | hp <;> rw [hp]
  · exact ⟨rfl, rfl, rfl⟩
  · exact ⟨linkSend_dom .., linkSend_scene .., linkSend_render ..⟩

/-- Settles O23: every part of a boundary's work keeps the clocks, so a running domain keeps what the boundary gave it; in ACQUIRE the
boundary's work is the domain's count and a marker. -/
theorem boundariesAdvanceMediaTime : Obligations.BoundariesAdvanceMediaTime := by
  intro n m s
  refine ⟨fun hruns => ⟨_, exec_domainBoundary n m s, ?_⟩, fun hacq hclosing => ⟨_, exec_domainBoundary n m s, ?_⟩⟩
  · have hclock := domainBoundary_domClock (d := quiet s) (m := m) hruns
    simp only [domClock, Prod.mk.injEq] at hclock
    obtain ⟨hmt, hdt, hphase⟩ := hclock
    have htime := domainBoundary_dt (d := quiet s) (m := m) hruns
    simp only [after, getDom_settle, settle_time]
    exact ⟨hmt, hdt, hphase, htime⟩
  · rw [domainBoundary_acquire (d := quiet s) hacq hclosing]
    have hstops : mtRuns (getDom (domMod (dtTo (quiet s) m.dt) n.val (acquireBlock (quiet s) n.val m)) n.val) = false := by
      simp [mtRuns, acquireBlock, domMeasured, hacq, hclosing, domRuns]
    obtain ⟨hdom, hscene, hrender⟩ := pairBoundary_stopped_keeps hstops (getDom (quiet s) n.val).mt
    have hx := getDom_of_dom hdom n.val
    rw [getDom_domMod_same, getDom_dtTo] at hx
    simp only [after, getDom_settle, settle_scene, settle_render, hx, hscene, hrender]
    refine ⟨rfl, hacq, ?_, dtTo_scene .., dtTo_render ..⟩
    simp [acquireBlock]

end Sys2Proof.Machine

/-! Objects made at once: what OBJ_CFG leaves of them. -/

namespace Sys2Proof.Machine

/-! Objects under a change of the scene: whether an object is enabled, and its source. -/

@[simp] theorem getObj_objMod_same (sc : Scene) (no : Nat) (f : Obj → Obj) : getObj (objMod sc no f) no = f (getObj sc no) :=
  tabGet_tabMod_same _ _ _
theorem getObj_objMod_ne (sc : Scene) (no k : Nat) (f : Obj → Obj) (h : k ≠ no) : getObj (objMod sc no f) k = getObj sc k :=
  tabGet_tabMod_ne _ _ _ _ h

/-- Whether an object is enabled, and its source. -/
def inUse (o : Obj) : Bool × Src := (o.enabled, o.src)

/-- A change of one object that keeps whether it is enabled and its source keeps those of every object. -/
theorem inUse_objMod (sc : Scene) (no k : Nat) {f : Obj → Obj} (h : ∀ o, inUse (f o) = inUse o) :
    inUse (getObj (objMod sc no f) k) = inUse (getObj sc k) := by
  by_cases hk : k = no
  · subst hk; rw [getObj_objMod_same, h]
  · rw [getObj_objMod_ne _ _ _ _ hk]

/-- What p reads of a bank's entries survives a change of the listed ones that keeps it. -/
theorem tabGet_map_keeps {α γ : Type} [Inhabited α] (p : α → γ) (f : Nat × α → α) (h : ∀ kv, p (f kv) = p kv.2) (t : Tab α) (i : Nat) :
    p (tabGet (t.map (fun kv => (kv.1, f kv))) i) = p (tabGet t i) := by
  induction t with
  | nil => rfl
  | cons kv t ih =>
    by_cases hk : kv.1 = i
    · simp [tabGet, hk, h]
    · simp [tabGet, hk, ih]

theorem inUse_sceneView (d : Dev) (k : Nat) : inUse (getObj (sceneView d) k) = inUse (getObj d.scene k) := by
  unfold sceneView
  split
  · exact tabGet_map_keeps inUse (fun kv => { kv.2 with domain := 0 }) (fun _ => rfl) d.scene.objs k
  · rfl

theorem inUse_sceneBack (old new : Scene) (k : Nat) : inUse (getObj (sceneBack old new) k) = inUse (getObj new k) :=
  tabGet_map_keeps inUse (fun kv => if objCharged (getObj old kv.1) then { kv.2 with domain := (getObj old kv.1).domain } else kv.2)
    (fun kv => by by_cases h : objCharged (getObj old kv.1) = true <;> simp [h, inUse]) new.objs k

/-- A change made in the data path's view leaves what it makes there, but for the stored domains. -/
theorem inUse_sceneRun (d : Dev) (f : Scene → Scene) (k : Nat) :
    inUse (getObj (sceneRun d f).scene k) = inUse (getObj (f (sceneView d)) k) := by
  unfold sceneRun
  cases h : (pathMode d == .singleRate) with
  | true => exact inUse_sceneBack _ _ k
  | false => simp [sceneView, h]

theorem inUse_applyTargets (sc : Scene) (no : Nat) (ts : List (Nat × Int)) (mix : Option (Int × Int)) (only : Bool) (t : MT) (n : Nat) (S : MT)
    (k : Nat) : inUse (getObj (applyTargets sc no ts mix only t n S) k) = inUse (getObj sc k) :=
  inUse_objMod sc no k (fun _ => rfl)

theorem inUse_sparseChange (sc : Scene) (no : Nat) (b : MT) (n k : Nat) : inUse (getObj (sparseChange sc no b n) k) = inUse (getObj sc k) := by
  unfold sparseChange
  extract_lets sc1 o tg sc2 sc3
  have hfirst : inUse (getObj sc1 k) = inUse (getObj sc k) := inUse_objMod sc no k (fun _ => rfl)
  have htargets : inUse (getObj sc3 k) = inUse (getObj sc1 k) := inUse_applyTargets sc2 no tg.ents none o.direct b n b k
  refine (inUse_objMod sc3 no k ?_).trans (htargets.trans hfirst)
  exact fun _ => rfl

/-- A configuration of an enabled object gives it its source and leaves the others (R83). -/
theorem inUse_changeObj (sc : Scene) (c : ObjCfg) (f : Nat) (b : MT) (k : Nat) :
    inUse (getObj (changeObj sc c f b) k) = if k = c.obj then ((getObj sc c.obj).enabled, c.src) else inUse (getObj sc k) := by
  have hwritten (o' : Obj) (ho : inUse o' = ((getObj sc c.obj).enabled, c.src)) :
      inUse (getObj (objMod sc c.obj (fun _ => o')) k) = if k = c.obj then ((getObj sc c.obj).enabled, c.src) else inUse (getObj sc k) := by
    by_cases hk : k = c.obj
    · subst hk; rw [getObj_objMod_same, if_pos rfl, ho]
    · rw [getObj_objMod_ne _ _ _ _ hk, if_neg hk]
  unfold changeObj
  extract_lets _ _ _ _ sparse _ _ _ _ _ _ _ _ o' written sparsed _
  have hsparse : inUse (getObj sparsed k) = inUse (getObj written k) := by
    cases h : sparse with
    | true => simp only [sparsed, h, if_true, inUse_sparseChange]
    | false => simp only [sparsed, h, Bool.false_eq_true, if_false]
  split
  · refine (inUse_objMod sparsed c.obj k ?_).trans (hsparse.trans (hwritten o' rfl))
    exact fun _ => rfl
  · exact hsparse.trans (hwritten o' rfl)

/-- What an OBJ_CFG makes of the scene at once, o being the object before it. -/
def objCfgScene (o : Obj) (c : ObjCfg) (f : Nat) (sc : Scene) : Scene :=
  if !c.enable then objMod (discardQueued sc (fun o _ => o == c.obj)) c.obj releaseObj
  else
    let sc := if o.enabled then changeObj sc c f 0 else objMod sc c.obj (fun _ => enableObj sc c f 0)
    objMod sc c.obj (objAtOnce sc f)

/-- The device with the clamp of the path trim that an OBJ_CFG gives counted. -/
def trimCounted (d : Dev) (t : Taken) : Dev := if (objCfgOf t).path.isSome then countClamps d [i16 t.req.payload 16] else d

@[simp] theorem trimCounted_scene (d : Dev) (t : Taken) : (trimCounted d t).scene = d.scene := by unfold trimCounted; split <;> rfl

theorem applyObjCfg_none (d : Dev) (t : Taken) (h : u16 t.req.payload 0 ≠ 0xFFFF) : applyObjCfg d t none =
    (sceneRun (trimCounted d t) (objCfgScene (getObj d.scene (objCfgOf t).obj) (objCfgOf t) (rateIn d (objCfgOf t).dom)), .ok, mtBody none) := by
  unfold applyObjCfg trimCounted
  simp only [if_neg h]
  cases (objCfgOf t).path <;> rfl

/-- An OBJ_CFG that takes effect at once answers OK. -/
theorem applyObjCfg_answers (d : Dev) (t : Taken) (h : u16 t.req.payload 0 ≠ 0xFFFF) :
    applyObjCfg d t none = ((applyObjCfg d t none).1, .ok, mtBody none) := by rw [applyObjCfg_none d t h]

theorem applyObjCfg_floor (d : Dev) (t : Taken) (h : u16 t.req.payload 0 = 0xFFFF) : applyObjCfg d t none =
    (sceneRun d (fun sc => floorChange sc (u8 t.req.payload 2) (u8 t.req.payload 9) (rateIn d (u8 t.req.payload 2)) none), .ok, mtBody none) := by
  simp only [applyObjCfg, if_pos h]

/-- An enabling or changing OBJ_CFG: its object is enabled with its source, the others are as they were (R80, R83). -/
theorem inUse_objCfgScene_enable {o : Obj} {c : ObjCfg} (f : Nat) {sc : Scene} (hen : c.enable = true)
    (ho : (getObj sc c.obj).enabled = o.enabled) (k : Nat) :
    inUse (getObj (objCfgScene o c f sc) k) = if k = c.obj then (true, c.src) else inUse (getObj sc k) := by
  simp only [objCfgScene, hen, Bool.not_true, Bool.false_eq_true, if_false]
  refine (inUse_objMod _ c.obj k ?_).trans ?_
  · exact fun _ => rfl
  · cases hwas : o.enabled with
    | true => simp only [if_true, inUse_changeObj, ho.trans hwas]
    | false =>
      by_cases hk : k = c.obj
      · subst hk; simp [inUse, enableObj]
      · simp [getObj_objMod_ne _ _ _ _ hk, hk]

/-- A disabling OBJ_CFG leaves its object not enabled (R83). -/
theorem objCfgScene_disable {o : Obj} {c : ObjCfg} (f : Nat) (sc : Scene) (hen : c.enable = false) :
    (getObj (objCfgScene o c f sc) c.obj).enabled = false := by
  simp [objCfgScene, hen, releaseObj]

section
variable {d : Dev} {t : Taken} (hno : u16 t.req.payload 0 ≠ 0xFFFF)
include hno

theorem inUse_applyObjCfg_enable (hen : (objCfgOf t).enable = true) (k : Nat) :
    inUse (getObj (applyObjCfg d t none).1.scene k) = if k = u16 t.req.payload 0 then (true, (objCfgOf t).src) else inUse (getObj d.scene k) := by
  rw [applyObjCfg_none d t hno]
  have hview (i : Nat) : inUse (getObj (sceneView (trimCounted d t)) i) = inUse (getObj d.scene i) := by rw [inUse_sceneView, trimCounted_scene]
  rw [inUse_sceneRun, inUse_objCfgScene_enable _ hen (congrArg Prod.fst (hview (objCfgOf t).obj)), hview]
  rfl

theorem applyObjCfg_disable (hen : (objCfgOf t).enable = false) :
    (getObj (applyObjCfg d t none).1.scene (u16 t.req.payload 0)).enabled = false := by
  rw [applyObjCfg_none d t hno]
  exact (congrArg Prod.fst (inUse_sceneRun ..)).trans (objCfgScene_disable _ _ hen)

end

end Sys2Proof.Machine

/-! Bindings made at once: what BUS_CFG leaves of the columns. -/

namespace Sys2Proof.Machine

/-! What a change of a binding keeps of the scene (R107, R200–R203). -/

@[simp] theorem queueReply_scene (d : Dev) (t : Taken) (m : OutMsg) : (queueReply d t m).scene = d.scene := by
  unfold queueReply; dsimp only
  (repeat' split) <;> rfl
@[simp] theorem reply_scene (d : Dev) (t : Taken) (st : Status) (body : List Byte) (bulk : Bool) : (reply d t st body bulk).scene = d.scene := by
  unfold reply
  (repeat' split) <;> simp
@[simp] theorem sendTicket_scene (d : Dev) (kind queue dom : Nat) (st : MT) (taken : Option Taken) (rest : List Byte) :
    (sendTicket d kind queue dom st taken rest).scene = d.scene := by simp [sendTicket, ledgerAdd]
@[simp] theorem completionTicket_scene (d : Dev) (t : Taken) (mts : List MT) : (completionTicket d t mts).scene = d.scene := by
  unfold completionTicket; dsimp only
  (repeat' split) <;> simp
@[simp] theorem mchansWhere_scene (d : Dev) (p : MChan → Bool) (f : MChan → MChan) : (mchansWhere d p f).scene = d.scene := rfl
@[simp] theorem swapChans_scene (d : Dev) (cs : List Nat) (fade : Option (MT × Nat)) : (swapChans d cs fade).scene = d.scene := rfl
@[simp] theorem commitPut_scene (d : Dev) (c : MCommit) (x : Option MCommit) : (commitPut d c x).scene = d.scene := rfl
@[simp] theorem commitEnd_scene (d : Dev) (c : MCommit) (fade : Option (MT × Nat)) (st : Status) (mt : MT) :
    (commitEnd d c fade st mt).scene = d.scene := by simp [commitEnd]
@[simp] theorem commitJudge_scene (d : Dev) (c : MCommit) : (commitJudge d c).scene = d.scene := by
  unfold commitJudge; dsimp only
  (repeat' split) <;> simp
@[simp] theorem commitUnbound_scene (d : Dev) (c : MCommit) : (commitUnbound d c).scene = d.scene := by
  unfold commitUnbound; dsimp only
  (repeat' split) <;> simp
@[simp] theorem commitsUnbound_scene (d : Dev) : (commitsUnbound d).scene = d.scene := by
  unfold commitsUnbound
  rw [foldl_keeps Dev.scene _ commitUnbound_scene, foldl_keeps Dev.scene]
  exact fun d c => by split <;> simp
@[simp] theorem chansFreed_scene (d : Dev) : (chansFreed d).scene = d.scene := by simp [chansFreed, unboundChans]
@[simp] theorem columnKeepRate_scene (d : Dev) (c : Nat) (old : Binding) : (columnKeepRate d c old).scene = d.scene := rfl
@[simp] theorem columnFirClear_scene (d : Dev) (c : Nat) : (columnFirClear d c).scene = d.scene := rfl
@[simp] theorem joinGate_scene (d : Dev) (c : Nat) (dest : Binding) : (joinGate d c dest).scene = d.scene := rfl

/-- The bindings of all columns. -/
def binds (sc : Scene) (k : Nat) : Binding := (getCol sc k).bind

/-- A column takes a binding and no other column's changes. -/
theorem binds_bindColumn (d : Dev) (c : Nat) (dest : Binding) (k : Nat) :
    binds (bindColumn d c dest).scene k = if k = c then dest else binds d.scene k := by
  unfold bindColumn
  extract_lets old moved frees kept bound orphaned cleared freed joined
  have hkept : kept.scene = d.scene := by simp only [kept]; split <;> rfl
  have hbound : binds bound.scene k = if k = c then dest else binds d.scene k := by
    simp only [bound, binds, getCol, sceneMod_scene, hkept]
    by_cases hk : k = c
    · rw [hk, tabGet_tabMod_same, if_pos rfl]
    · rw [tabGet_tabMod_ne _ _ _ _ hk, if_neg hk]
  have horphaned : orphaned.scene = bound.scene := by
    simp only [orphaned]
    split
    · exact foldl_keeps Dev.scene _ (fun _ _ => evFault_scene ..) _ bound
    · rfl
  have hjoined : joined.scene = bound.scene := by
    simp only [joined, freed, cleared]
    rw [joinGate_scene]
    split <;> simp [horphaned]
  split
  · exact hbound
  · rw [← hbound, ← hjoined]
    (repeat' split) <;> rfl

/-- Columns bound in turn, each as dest says. -/
theorem binds_bindColumns (dest : Nat → Binding) (cols : List Nat) (d : Dev) (k : Nat) :
    binds (cols.foldl (fun d k => bindColumn d k (dest k)) d).scene k = if k ∈ cols then dest k else binds d.scene k := by
  induction cols generalizing d with
  | nil => rfl
  | cons c cols ih =>
    rw [List.foldl_cons, ih, binds_bindColumn]
    by_cases hmem : k ∈ cols
    · rw [if_pos hmem, if_pos (List.mem_cons_of_mem c hmem)]
    · by_cases hk : k = c
      · rw [if_neg hmem, if_pos hk, hk, if_pos List.mem_cons_self]
      · rw [if_neg hmem, if_neg hk, if_neg (fun h => (List.mem_cons.1 h).elim hk hmem)]

/-- A BUS_CFG that takes effect at once binds the columns it names (R107). -/
theorem binds_applyBusCfg (d : Dev) (t : Taken) {k : Nat} (hk : k ∈ busCols d.scene (u16 t.req.payload 0) (u8 t.req.payload 2)) :
    binds (applyBusCfg d t none).1.scene k = busDest (busCfgOf d.scene t.req.payload) (u16 t.req.payload 0) k := by
  have hmode : (busDest (busCfgOf d.scene t.req.payload) (u16 t.req.payload 0) (u16 t.req.payload 0)).mode = u8 t.req.payload 2 := by
    simp [busDest, busCfgOf]
  have happly : (applyBusCfg d t none).1 = (busCols d.scene (u16 t.req.payload 0) (u8 t.req.payload 2)).foldl
      (fun e k => bindColumn e k (busDest (busCfgOf d.scene t.req.payload) (u16 t.req.payload 0) k)) d := by
    simp only [applyBusCfg, applyBus, List.getLast?_singleton, hmode]
  rw [happly, binds_bindColumns, if_pos hk]

end Sys2Proof.Machine

/-! Chapter 3's requests judged: what each rule answers where nothing refuses the request. -/

namespace Sys2Proof.Machine

/-! Requests whose row is their opcode's only one, carried out. -/

section
variable {s : State} {op : Op} {j : Judge1} {r : Req} {d : Dev} {body : List Byte} (hs : served s (takes s op r))
include hs

theorem reqRow1_granted (h : j (quiet s) (takes s op r) none = (d, .now .ok body)) :
    reqRow1 op j r s = .next (granted s (takes s op r) d body) := by rw [reqRow1_served hs, judged_ok h]

/-- Answered OK or LATE, as an entry of a queue was judged. -/
theorem reqRow1_asJudged {w : Bool} (h : j (quiet s) (takes s op r) none = (d, .now (if w then .late else .ok) body)) :
    reqRow1 op j r s = .next (answered s (takes s op r) d (if w then .late else .ok) body) := by
  rw [reqRow1_served hs]
  cases w with
  | true => rw [judged_late h]; rfl
  | false => exact congrArg _ (judged_ok h)

theorem reqRow1_fetches {o : Nat} (h : j (quiet s) (takes s op r) none = (d, .fetch (bulkRef r.payload o).1 (bulkRef r.payload o).2.1
    (bulkRef r.payload o).2.2)) : reqRow1 op j r s = .next (fetches s (takes s op r) d o) := by rw [reqRow1_served hs, judged_fetch h]

theorem reqRow1_underWay (h : j (quiet s) (takes s op r) none = (d, .done)) :
    reqRow1 op j r s = .next (underWay s (takes s op r) d) := by rw [reqRow1_served hs, judged_done h]

theorem reqRow1_changes {dom : Nat} {f : Apply1} (hf : f (quiet s) (takes s op r) none = (d, .ok, body))
    (h : j (quiet s) (takes s op r) none = commitOr (quiet s) (takes s op r) dom f) :
    reqRow1 op j r s = .next (changes s (takes s op r) dom d body) := by rw [reqRow1_served hs, judged_changes hf h]

end

theorem longEnough_of_le {t : Taken} {n : Nat} (h : n ≤ t.req.payload.length) : longEnough t n = true := decide_eq_true h

/-! Layouts (R109–R112). -/

/-- The build that a LAYOUT_BEGIN starts (R109). -/
def buildOf (p : List Byte) : Build :=
  { dom := u8 p 0, count := u16 p 2, rIn := u32 p 4, rampUs := if u32 p 8 = 0 then 100000 else u32 p 8, id := BitVec.ofNat 32 (u32 p 12) }

section
variable {d : Dev} {t : Taken} (hm : inModes t modes4 = true)
include hm

theorem judgeLayoutBegin_ok (hlen : 16 ≤ t.req.payload.length) (hn : u8 t.req.payload 0 ≤ 2) (h1 : u8 t.req.payload 1 = 0)
    (h3 : 3 ≤ u16 t.req.payload 2) (hmax : u16 t.req.payload 2 ≤ nSpeakers) (hr : u32 t.req.payload 4 ≤ 2147483647)
    (hramp : u32 t.req.payload 8 ≤ 2000000) (hsingle : tMode t = .singleRate → u8 t.req.payload 0 = 0) (hjob : d.scene.job = none)
    (hl : ∀ l, d.scene.layout = some l →
      effDom d l.dom = u8 t.req.payload 0 ∨ d.scene.objs.any (fun kv => kv.2.enabled && !kv.2.direct) = false) :
    judgeLayoutBegin d t none = (sceneMod d (fun sc => { sc with build := some (buildOf t.req.payload) }), .now .ok []) := by
  have hfields : (!longEnough t 16 || decide (2 < u8 t.req.payload 0) || u8 t.req.payload 1 != 0 || decide (u16 t.req.payload 2 < 3) ||
      decide (nSpeakers < u16 t.req.payload 2) || decide (2147483647 < u32 t.req.payload 4) || decide (2000000 < u32 t.req.payload 8) ||
      (tMode t == .singleRate && u8 t.req.payload 0 != 0)) = false := by
    simpa [longEnough_of_le hlen, h1, Nat.not_lt.2, hn, h3, hmax, hr, hramp] using hsingle
  have hbusy : (d.scene.job.isSome || ((d.scene.layout.map (fun l => effDom d l.dom != u8 t.req.payload 0)) == some true &&
      d.scene.objs.any (fun kv => kv.2.enabled && !kv.2.direct))) = false := by
    rw [hjob]
    cases hlay : d.scene.layout with
    | none => rfl
    | some l => rcases hl l hlay with h | h <;> simp [h]
  simp only [judgeLayoutBegin, hm, hfields, hbusy, ans, Bool.not_true, Bool.false_eq_true, if_false]
  rfl

theorem judgeLayoutSpk_ok {b : Build} {es : List Spk} (hlen : 4 + 16 * u8 t.req.payload 0 ≤ t.req.payload.length)
    (h1 : 1 ≤ u8 t.req.payload 0) (h3 : u8 t.req.payload 0 ≤ 3) (hz : isZero t.req.payload 1 3 = true) (hb : d.scene.build = some b)
    (hjob : d.scene.job = none) (hes : es = (List.range (u8 t.req.payload 0)).filterMap (spkEntry t.req.payload))
    (hall : es.length = u8 t.req.payload 0) (hdup : (es.map (·.no)).eraseDups.length = u8 t.req.payload 0)
    (hnew : ∀ e, e ∈ es → b.spks.any (fun x => x.no == e.no) = false ∧ busBound d.scene e.no = false)
    (hroom : b.spks.length + u8 t.req.payload 0 ≤ b.count) :
    judgeLayoutSpk d t none = (sceneMod d (fun sc => { sc with build := some { b with spks := b.spks ++ es } }), .now .ok []) := by
  have hfields : (!longEnough t 4 || u8 t.req.payload 0 == 0 || decide (3 < u8 t.req.payload 0) ||
      !longEnough t (4 + 16 * u8 t.req.payload 0) || !isZero t.req.payload 1 3) = false := by
    have h0 : u8 t.req.payload 0 ≠ 0 := by omega
    simp [longEnough_of_le hlen, longEnough_of_le (Nat.le_of_add_right_le hlen), hz, h0, h3]
  have hspks : ¬ (es.length ≠ u8 t.req.payload 0 ∨ (es.map (·.no)).eraseDups.length ≠ u8 t.req.payload 0 ∨
      (es.map (·.no)).any (fun c => b.spks.any (fun s => s.no == c) || busBound d.scene c) = true) := by
    rintro (h | h | h)
    · exact h hall
    · exact h hdup
    · obtain ⟨e, he, hbad⟩ := List.any_eq_true.1 (List.any_map ▸ h)
      obtain ⟨hbuild, hbus⟩ := hnew e he
      simp [hbuild, hbus] at hbad
  subst hes
  simp only [judgeLayoutSpk, hm, hfields, hb, hjob, ans, Bool.not_true, Bool.false_eq_true, if_false, if_neg hspks, if_neg (Nat.not_lt.2 hroom)]
  rfl

/-- A LAYOUT_COMMIT of a build that names no MT, or whose MT CONFIG leaves unread. -/
theorem judgeLayoutCommit_build {b : Build} (hlen : 8 ≤ t.req.payload.length) (hz : isZero t.req.payload 5 3 = true)
    (hjob : d.scene.job = none) (hb : d.scene.build = some b)
    (hflags : u8 t.req.payload 4 = 0 ∨ (u8 t.req.payload 4 = 1 ∧ atOnceMode t = true)) :
    judgeLayoutCommit d t none = (sceneMod d (fun sc => { sc with job := some (layoutJob sc t false none) }), .done) := by
  have hbits : bit 0 0 = false ∧ bit 0 1 = false ∧ bit 1 1 = false := by decide
  rcases hflags with h | ⟨h, ho⟩
  · simp [judgeLayoutCommit, hm, longEnough_of_le hlen, hz, hjob, hb, h, hbits]
  · simp [judgeLayoutCommit, hm, longEnough_of_le hlen, hz, hjob, hb, h, ho, hbits]

/-- A LAYOUT_COMMIT of a build that names an MT that R112 allows. -/
theorem judgeLayoutCommit_buildAt {b : Build} (hlen : 8 ≤ t.req.payload.length) (hz : isZero t.req.payload 5 3 = true)
    (hjob : d.scene.job = none) (hb : d.scene.build = some b) (hflags : u8 t.req.payload 4 = 1) (ho : atOnceMode t = false)
    (h16 : u32 t.req.payload 0 % 16 = 0)
    (hfar : mtDiff (BitVec.ofNat 32 (u32 t.req.payload 0)) (selBoundary d (effDom d b.dom)) ≤ 8 * rateOf d (effDom d b.dom)) :
    judgeLayoutCommit d t none =
      (sceneMod d (fun sc => { sc with job := some (layoutJob sc t false (some (BitVec.ofNat 32 (u32 t.req.payload 0)))) }), .done) := by
  have hbits : bit 1 0 = true ∧ bit 1 1 = false := by decide
  simp [judgeLayoutCommit, hm, longEnough_of_le hlen, hz, hjob, hb, hflags, ho, hbits, h16, Int.not_lt.2 hfar]

/-- A LAYOUT_COMMIT of the bindings alone. -/
theorem judgeLayoutCommit_buses (hlen : 8 ≤ t.req.payload.length) (hz : isZero t.req.payload 5 3 = true)
    (hjob : d.scene.job = none) (hflags : u8 t.req.payload 4 = 2) (hb : d.scene.build = none) (hl : d.scene.layout ≠ none) :
    judgeLayoutCommit d t none = (sceneMod d (fun sc => { sc with job := some (layoutJob sc t true none) }), .done) := by
  have hbits : bit 2 0 = false ∧ bit 2 1 = true := by decide
  simp [judgeLayoutCommit, hm, longEnough_of_le hlen, hz, hjob, hb, hl, hflags, hbits]

/-! Objects (R82–R84). -/

/-- The domain byte of an OBJ_CFG, which SINGLE_RATE fixes at 0, and its length. -/
abbrev objCfgHead (t : Taken) : Prop :=
  16 ≤ t.req.payload.length ∧ u8 t.req.payload 2 ≤ 2 ∧ (tMode t = .singleRate → u8 t.req.payload 2 = 0)

omit hm in
theorem objCfgHead_passes (h : objCfgHead t) :
    (!longEnough t 16 || decide (2 < u8 t.req.payload 2) || (tMode t == .singleRate && u8 t.req.payload 2 != 0)) = false := by
  obtain ⟨hlen, hdom, hsingle⟩ := h
  simpa [longEnough_of_le hlen, Nat.not_lt.2 hdom] using hsingle

/-- An OBJ_CFG that enables or changes its object is a change in the object's domain. -/
theorem judgeObjCfg_enables (hh : objCfgHead t) (hno : u16 t.req.payload 0 ≠ 0xFFFF) (hok : objCfgBad d t = false)
    (hdis : (getObj d.scene (u16 t.req.payload 0)).disable = none) (hen : (objCfgOf t).enable = true)
    (hdom : (getObj d.scene (u16 t.req.payload 0)).enabled = false ∨
      effDom d (getObj d.scene (u16 t.req.payload 0)).domain = (objCfgOf t).dom)
    (htile : (objCfgOf t).src.kind = 5 → (portSlotDom d.tiles.sched (objCfgOf t).src.index).isSome = true)
    (hsrc : (objCfgOf t).src.kind ≠ 0 → srcDom d (objSrc (objCfgOf t).src) = some (effDom d (objCfgOf t).dom))
    (hfits : objFits d (objCfgOf t) = true) :
    judgeObjCfg d t none = commitOr d t (objCfgOf t).dom applyObjCfg := by
  have hobj : (objCfgOf t).obj = u16 t.req.payload 0 := rfl
  have hdom' : ((getObj d.scene (u16 t.req.payload 0)).enabled &&
      effDom d (getObj d.scene (u16 t.req.payload 0)).domain != (objCfgOf t).dom) = false := by
    rcases hdom with h | h <;> simp [h]
  have htile' : ¬ ((objCfgOf t).src.kind = 5 ∧ (portSlotDom d.tiles.sched (objCfgOf t).src.index).isNone = true) := by
    rintro ⟨hkind, hnone⟩
    rw [Option.isNone_iff_eq_none.1 hnone] at htile
    cases htile hkind
  have hsrc' : ¬ ((objCfgOf t).src.kind ≠ 0 ∧ srcDom d (objSrc (objCfgOf t).src) ≠ some (effDom d (objCfgOf t).dom)) :=
    fun ⟨hkind, hne⟩ => hne (hsrc hkind)
  simp only [judgeObjCfg, hm, objCfgHead_passes hh, if_neg hno, hobj, hok, hdis, hen, hdom', if_neg htile', if_neg hsrc', hfits,
    Option.isSome_none, Bool.false_and, Bool.not_true, Bool.false_eq_true, if_false]

/-- An OBJ_CFG that disables its object is a change in the domain the object is rendered in. -/
theorem judgeObjCfg_disables (hh : objCfgHead t) (hno : u16 t.req.payload 0 ≠ 0xFFFF) (hok : objCfgBad d t = false)
    (hdis : (getObj d.scene (u16 t.req.payload 0)).disable = none) (hen : (objCfgOf t).enable = false) :
    judgeObjCfg d t none = commitOr d t (if (getObj d.scene (u16 t.req.payload 0)).enabled
      then effDom d (getObj d.scene (u16 t.req.payload 0)).domain else (objCfgOf t).dom) applyObjCfg := by
  have hobj : (objCfgOf t).obj = u16 t.req.payload 0 := rfl
  simp only [judgeObjCfg, hm, objCfgHead_passes hh, if_neg hno, hobj, hok, hdis, hen,
    Option.isSome_none, Bool.false_and, Bool.not_true, Bool.not_false, Bool.false_eq_true, if_false, if_true]

/-- An OBJ_CFG of object 0xFFFF sets a domain's priority floor. -/
theorem judgeObjCfg_floor (hh : objCfgHead t) (hno : u16 t.req.payload 0 = 0xFFFF) (hfloor : u8 t.req.payload 9 ≤ 10) :
    judgeObjCfg d t none = commitOr d t (u8 t.req.payload 2) applyObjCfg := by
  simp only [judgeObjCfg, hm, objCfgHead_passes hh, if_pos hno, if_neg (Nat.not_lt.2 hfloor), Bool.not_true, Bool.false_eq_true, if_false]

/-! Timed updates and routes (R87, R88, R91, R131). -/

omit hm in
/-- An entry that is judged on time or late, and that the queue takes, is queued as judged. -/
theorem acceptMeta_queued {e : MetaEntry} {sc' : Scene} {w : Bool} {record : List Byte} {taken : Option Taken} (hl : isLeader d = false)
    (hj : (judgeAt d e.dom e.t = .onTime ∧ w = false) ∨ ((∃ b, judgeAt d e.dom e.t = .late b) ∧ w = true))
    (hq : enqueueMeta d.scene { e with late := w, hold := applyHold d e.dom } = some sc') :
    acceptMeta d e record taken = ({ d with scene := sc' }, if w then .late else .ok) := by
  have hl' : isLeader { d with scene := sc' } = false := hl
  rcases hj with ⟨hj, rfl⟩ | ⟨⟨b, hj⟩, rfl⟩ <;> simp [acceptMeta, hj, hq, queueTicket, hl']

/-- OBJ_UPDATE in CONFIG. -/
theorem judgeObjUpdate_atOnce {u : Update} (hlen : 44 ≤ t.req.payload.length) (hu : updOf (slice t.req.payload 0 44) none = some u)
    (hen : (getObj d.scene u.obj).enabled = true) (ho : atOnceMode t = true) :
    judgeObjUpdate d t none = updAns (sceneMod (countClamps d u.clamps) (fun sc => objMod sc u.obj (fun o => updNow o u))) .ok 0 := by
  simp [judgeObjUpdate, hm, longEnough_of_le hlen, hu, hen, ho]

/-- OBJ_UPDATE elsewhere. -/
theorem judgeObjUpdate_queued {u : Update} {sc' : Scene} {w : Bool} (hlen : 44 ≤ t.req.payload.length)
    (hu : updOf (slice t.req.payload 0 44) none = some u) (hen : (getObj d.scene u.obj).enabled = true) (ho : atOnceMode t = false)
    (hruns : domRuns (getDom d (updEntry d u).dom).state = true) (hl : isLeader d = false)
    (hj : (judgeAt d (updEntry d u).dom u.t = .onTime ∧ w = false) ∨ ((∃ b, judgeAt d (updEntry d u).dom u.t = .late b) ∧ w = true))
    (hq : enqueueMeta d.scene { updEntry d u with late := w, hold := applyHold d (updEntry d u).dom } = some sc') :
    judgeObjUpdate d t none =
      updAns (countClamps { d with scene := sc' } u.clamps) (if w then .late else .ok) (selBoundary d (updEntry d u).dom) := by
  have hacc := acceptMeta_queued (record := slice t.req.payload 0 44) (taken := some t) hl hj hq
  have hst : ((if w then Status.late else .ok) == Status.ok || (if w then Status.late else .ok) == Status.late) = true := by cases w <;> rfl
  simp only [judgeObjUpdate, hm, longEnough_of_le hlen, hu, hen, ho, hruns, hacc, hst, Bool.not_true, Bool.false_eq_true, if_false, if_true]

/-- OBJ_UPDATE_BATCH fetches its region. -/
theorem judgeObjBatch_fetches (hlen : 16 ≤ t.req.payload.length) (hbulk : t.req.bulk = true) (hok : bulkOk (bulkRef t.req.payload 0) = true) :
    judgeObjBatch d t none =
      (d, .fetch (bulkRef t.req.payload 0).1 (bulkRef t.req.payload 0).2.1 (bulkRef t.req.payload 0).2.2) := by
  simp [judgeObjBatch, needFetch, hm, longEnough_of_le hlen, hbulk, hok]

omit hm in
theorem judgeObjQuery_ok (hlen : 2 ≤ t.req.payload.length) (hno : u16 t.req.payload 0 < nObjects) :
    let n := effDom d (getObj d.scene (u16 t.req.payload 0)).domain
    judgeObjQuery d t none = ansB d .ok (objQueryBody d.scene (u16 t.req.payload 0) n (mtOf d n)) := by
  simp [judgeObjQuery, longEnough_of_le hlen, Nat.not_le.2 hno]

/-- What a ROUTE_SET of an object of domain n names is there: the layout that pans n's objects for PANNED, aux buses of n bound to mode 2
for its sends (R131). -/
abbrev routeTakes (d : Dev) (n : Nat) (rt : Route) : Prop :=
  (rt.mode = 1 → layoutIn d n = true) ∧
    ∀ x, x ∈ rt.sends → x.bus < nAux ∧ colTakes d n (576 + x.bus) = true ∧ (getCol d.scene (576 + x.bus)).bind.mode = 2

omit hm in
theorem routeTakes_passes {n : Nat} {rt : Route} (h : routeTakes d n rt) :
    ((rt.mode == 1 && !layoutIn d n) ||
      rt.sends.any (fun x => !(decide (x.bus < nAux) && colTakes d n (576 + x.bus) && (getCol d.scene (576 + x.bus)).bind.mode == 2))) = false := by
  obtain ⟨hpan, hsends⟩ := h
  rw [Bool.or_eq_false_iff, List.any_eq_false]
  refine ⟨by simpa using hpan, fun x hx => ?_⟩
  obtain ⟨hbus, hcol, hmode⟩ := hsends x hx
  simp [hbus, hcol, hmode]

/-- ROUTE_SET in CONFIG. -/
theorem judgeRouteSet_atOnce (hp : routeShapeBad t.req.payload = false) (hen : (getObj d.scene (u16 t.req.payload 0)).enabled = true)
    (hr : routeTakes d (effDom d (getObj d.scene (u16 t.req.payload 0)).domain) (routeOf t.req.payload)) (ho : atOnceMode t = true) :
    judgeRouteSet d t none = updAns (sceneMod (countClamps d (routeClamps t.req.payload))
      (fun sc => objMod sc (u16 t.req.payload 0) (fun o => applyRoute o (routeOf t.req.payload)))) .ok 0 := by
  simp only [judgeRouteSet, hm, hp, hen, routeTakes_passes hr, ho, Bool.not_true, Bool.false_eq_true, if_false, if_true]

/-- The entry of a ROUTE_SET (R131). -/
def routeEntry (d : Dev) (p : List Byte) : MetaEntry :=
  let o := getObj d.scene (u16 p 0)
  { obj := u16 p 0, dom := effDom d o.domain, t := BitVec.ofNat 32 (u32 p 4), mask := 0, vals := {}, route := some (routeOf p),
    rampUs := some (if u32 p 8 = 0 then o.defRampUs else u32 p 8), late := false }

/-- ROUTE_SET elsewhere. -/
theorem judgeRouteSet_queued {sc' : Scene} (hp : routeShapeBad t.req.payload = false)
    (hen : (getObj d.scene (u16 t.req.payload 0)).enabled = true)
    (hr : routeTakes d (routeEntry d t.req.payload).dom (routeOf t.req.payload)) (ho : atOnceMode t = false)
    (hruns : domRuns (getDom d (routeEntry d t.req.payload).dom).state = true) (hl : isLeader d = false)
    (hj : judgeAt d (routeEntry d t.req.payload).dom (routeEntry d t.req.payload).t = .onTime)
    (hq : enqueueMeta d.scene { routeEntry d t.req.payload with hold := applyHold d (routeEntry d t.req.payload).dom } = some sc') :
    judgeRouteSet d t none = updAns (countClamps { d with scene := sc' } (routeClamps t.req.payload)) .ok
      (selBoundary d (routeEntry d t.req.payload).dom) := by
  have hacc := fun record => acceptMeta_queued (e := routeEntry d t.req.payload) (w := false) (record := record) (taken := some t) hl
    (.inl ⟨hj, rfl⟩) hq
  simp only [routeEntry] at hr hruns hacc
  simp only [judgeRouteSet, hm, hp, hen, routeTakes_passes hr, ho, hruns, hacc, Bool.not_true, Bool.false_eq_true, if_false]
  rfl

/-! Direct writes (R133, R134). -/

/-- The columns of a direct write are of the object's domain and not bound to mode 2 (R133). -/
abbrev directTakes (d : Dev) (n : Nat) (cols : List (Nat × Int)) : Prop :=
  ∀ c, c ∈ cols → colOk c.1 = true ∧ colTakes d n c.1 = true ∧ (getCol d.scene c.1).bind.mode ≠ 2

omit hm in
theorem directTakes_passes {n : Nat} {cols : List (Nat × Int)} (h : directTakes d n cols) :
    cols.any (fun c => !(colOk c.1 && colTakes d n c.1) || (getCol d.scene c.1).bind.mode == 2) = false := by
  refine List.any_eq_false.2 fun c hc => ?_
  obtain ⟨hcol, htakes, hmode⟩ := h c hc
  simp [hcol, htakes, hmode]

/-- MATRIX_DIRECT in CONFIG. -/
theorem judgeMatrixDirect_atOnce (hp : directShapeBad t.req.payload = false) (hen : (getObj d.scene (u16 t.req.payload 0)).enabled = true)
    (hdir : (getObj d.scene (u16 t.req.payload 0)).direct = true)
    (hc : directTakes d (effDom d (getObj d.scene (u16 t.req.payload 0)).domain) (directCols t.req.payload)) (ho : atOnceMode t = true) :
    judgeMatrixDirect d t none = directAns (sceneMod (countClamps d (directClamps t.req.payload)) (fun sc =>
      objMod sc (u16 t.req.payload 0) (fun o => directWrite o (bit (u8 t.req.payload 3) 0) (directCols t.req.payload)))) .ok 0 := by
  simp only [judgeMatrixDirect, hm, hp, hen, hdir, directTakes_passes hc, ho, Bool.not_true, Bool.false_eq_true, if_false, if_true]

/-- The entry of a MATRIX_DIRECT that is judged on time (R133). -/
def directEntry (d : Dev) (p : List Byte) : DirectEntry :=
  let o := getObj d.scene (u16 p 0)
  { obj := u16 p 0, dom := effDom d o.domain, t := BitVec.ofNat 32 (u32 p 4), rampUs := if u32 p 8 = 0 then o.defRampUs else u32 p 8,
    clear := bit (u8 p 3) 0, cols := directCols p, late := false, hold := applyHold d (effDom d o.domain) }

/-- MATRIX_DIRECT elsewhere. -/
theorem judgeMatrixDirect_queued {sc' : Scene} (hp : directShapeBad t.req.payload = false)
    (hen : (getObj d.scene (u16 t.req.payload 0)).enabled = true) (hdir : (getObj d.scene (u16 t.req.payload 0)).direct = true)
    (hc : directTakes d (directEntry d t.req.payload).dom (directCols t.req.payload)) (ho : atOnceMode t = false)
    (hruns : domRuns (getDom d (directEntry d t.req.payload).dom).state = true) (hl : isLeader d = false)
    (hj : judgeAt d (directEntry d t.req.payload).dom (directEntry d t.req.payload).t = .onTime)
    (hq : enqueueDirect d.scene (directEntry d t.req.payload) = some sc') :
    judgeMatrixDirect d t none = directAns (countClamps { d with scene := sc' } (directClamps t.req.payload)) .ok
      (selBoundary d (directEntry d t.req.payload).dom) := by
  have hl' : isLeader (countClamps { d with scene := sc' } (directClamps t.req.payload)) = false := hl
  simp only [directEntry] at hc hruns hj hq ⊢
  simp only [judgeMatrixDirect, hm, hp, hen, hdir, directTakes_passes hc, ho, hruns, hj, hq, queueTicket, hl', Bool.not_true,
    Bool.false_eq_true, if_false]

/-! Bindings (R106, R107). -/

/-- BUS_CFG that no rule of R106 or R107 refuses. -/
theorem judgeBusCfg_changes {no m : Nat} (hno : no = u16 t.req.payload 0) (hmode : m = u8 t.req.payload 2)
    (hp : busShapeBad t.req.payload = false) (haux : m = 2 ∨ m = 3 → 576 ≤ no) (hhalo : m = 4 → no = 512)
    (hlay : m = 3 ∨ m = 4 → layoutIn d (effDom d (u8 t.req.payload 3)) = true) (hsingle : tMode t = .singleRate → u8 t.req.payload 3 = 0)
    (hspk : ∀ l, d.scene.layout = some l → l.spks.any (fun x => x.no == no) = false)
    (hwaits : atOnceMode t = false → d.scene.oldCols.contains no = false ∧ ∀ k, k ∈ busCols d.scene no m → (getCol d.scene k).unbind = none)
    (hjob : ∀ b, d.scene.job ≠ none → d.scene.build = some b → b.spks.any (fun x => x.no == no) = false)
    (hfits : m = 0 ∨ bindingFits d (busTrial d.scene (busCols d.scene no m) (busDest (busCfgOf d.scene t.req.payload) no)) = true) :
    judgeBusCfg d t none = commitOr d t
      (if (getCol d.scene no).bind.mode ≠ 0 then effDom d (getCol d.scene no).bind.dom else u8 t.req.payload 3) applyBusCfg := by
  subst hno hmode
  have hargs : (((u8 t.req.payload 2 == 2 || u8 t.req.payload 2 == 3) && decide (u16 t.req.payload 0 < 576)) ||
      (u8 t.req.payload 2 == 4 && u16 t.req.payload 0 != 512) ||
      ((u8 t.req.payload 2 == 3 || u8 t.req.payload 2 == 4) && !layoutIn d (effDom d (u8 t.req.payload 3))) ||
      (tMode t == .singleRate && u8 t.req.payload 3 != 0) ||
      (d.scene.layout.map (fun l => l.spks.any (fun x => x.no == u16 t.req.payload 0))) == some true) = false := by
    have hnamed : (d.scene.layout.map (fun l => l.spks.any (fun x => x.no == u16 t.req.payload 0)) == some true) = false := by
      cases h : d.scene.layout with
      | none => rfl
      | some l => simp [hspk l h]
    simp only [hnamed, Bool.or_false, Bool.or_eq_false_iff, Bool.and_eq_false_imp, Bool.or_eq_true, beq_iff_eq, decide_eq_false_iff_not,
      Nat.not_lt, bne_eq_false_iff_eq, Bool.not_eq_false']
    exact ⟨⟨⟨haux, hhalo⟩, hlay⟩, hsingle⟩
  have hbusy : ((!atOnceMode t && (d.scene.oldCols.contains (u16 t.req.payload 0) ||
        (busCols d.scene (u16 t.req.payload 0) (u8 t.req.payload 2)).any (fun k => (getCol d.scene k).unbind.isSome))) ||
      (d.scene.job.isSome && (d.scene.build.map (fun b => b.spks.any (fun x => x.no == u16 t.req.payload 0))) == some true)) = false := by
    simp only [Bool.or_eq_false_iff, Bool.and_eq_false_imp, Bool.not_eq_true', List.any_eq_false, Option.not_isSome_iff_eq_none]
    refine ⟨hwaits, fun h => ?_⟩
    cases hb : d.scene.build with
    | none => rfl
    | some b => simp [hjob b (Option.isSome_iff_ne_none.1 h) hb]
  have hroom : ¬ (u8 t.req.payload 2 ≠ 0 ∧ bindingFits d (busTrial d.scene (busCols d.scene (u16 t.req.payload 0) (u8 t.req.payload 2))
      (busDest (busCfgOf d.scene t.req.payload) (u16 t.req.payload 0))) = false) := by
    rintro ⟨hbind, hfull⟩
    rcases hfits with h | h
    · exact hbind h
    · rw [h] at hfull; cases hfull
  simp only [judgeBusCfg, hm, hp, hargs, hbusy, if_neg hroom, Bool.not_true, Bool.false_eq_true, if_false]

end

end Sys2Proof.Machine

/-! The statements about objects, layouts, routes, bindings and direct writes. -/

namespace Sys2Proof.Machine

/-- Settles O11: the record is R80's, whose mute stops the gain of any object. -/
theorem enabledObjectsHaveTheDefaultRecord : Obligations.EnabledObjectsHaveTheDefaultRecord := by
  intro sc c f b
  refine ⟨rfl, rfl, fun floor => rfl, fun o hmute floor => ?_⟩
  simp [gObj, hmute]

/-- Settles O54: each request is judged as its rule says and answered as the judgement ends; what an OBJ_CFG or a BUS_CFG makes of the
scene at once is said by `inUse_applyObjCfg_enable`, `applyObjCfg_disable` and `binds_applyBusCfg`.  Two clauses are the model's choices:
what a disabling OBJ_CFG does not read (log entry 115), and the 0 that a reply in CONFIG names as its boundary (log entry 116). -/
theorem sceneRequestsTakeEffect : Obligations.SceneRequestsTakeEffect := by
  intro r s p d sc no o n scene
  refine ⟨?_, ?_, ?_, ?_, ?_, ?_, ?_, ?_, ?_, ?_, ?_⟩
  · rintro _ rfl hs hm hlen hdom h1 h3 hmax hr hramp hsingle hjob hl
    exact reqRow1_granted hs (judgeLayoutBegin_ok hm hlen hdom h1 h3 hmax hr hramp hsingle hjob hl)
  · rintro _ b es rfl hs hm k hlen h1 h3 hz hb hjob hes hall hdup hnew hroom
    exact reqRow1_granted hs (judgeLayoutSpk_ok hm hlen h1 h3 hz hb hjob hes hall hdup hnew hroom)
  · rintro _ rfl hs hm hlen hz hjob
    refine ⟨fun hflags hb => ?_, fun hflags hb hl => ?_, ?_⟩
    · obtain ⟨b, hb⟩ := Option.ne_none_iff_exists'.1 hb
      exact reqRow1_underWay hs (judgeLayoutCommit_build hm hlen hz hjob hb hflags)
    · exact reqRow1_underWay hs (judgeLayoutCommit_buses hm hlen hz hjob hflags hb hl)
    · intro b hflags ho hb h16 k hfar
      exact reqRow1_underWay hs (judgeLayoutCommit_buildAt hm hlen hz hjob hb hflags ho h16 hfar)
  · rintro t c rfl hs hm hlen hdom hsingle hno hc hok hdis
    subst hc
    refine ⟨fun hen hd htile hsrc hfits => ⟨?_, fun _ => ⟨?_, ?_, fun k hk => ?_⟩⟩, fun hen => ⟨?_, fun _ => ?_⟩⟩
    · exact reqRow1_changes hs (applyObjCfg_answers _ _ hno) (judgeObjCfg_enables hm ⟨hlen, hdom, hsingle⟩ hno hok hdis hen hd htile hsrc hfits)
    · exact congrArg Prod.fst ((inUse_applyObjCfg_enable hno hen _).trans (if_pos rfl))
    · exact congrArg Prod.snd ((inUse_applyObjCfg_enable hno hen _).trans (if_pos rfl))
    · exact congrArg Prod.fst ((inUse_applyObjCfg_enable hno hen k).trans (if_neg hk))
    · exact reqRow1_changes hs (applyObjCfg_answers _ _ hno) (judgeObjCfg_disables hm ⟨hlen, hdom, hsingle⟩ hno hok hdis hen)
    · exact applyObjCfg_disable hno hen
  · rintro t rfl hs hm hlen hdom hsingle hno hfloor
    exact reqRow1_changes hs (applyObjCfg_floor _ _ hno) (judgeObjCfg_floor hm ⟨hlen, hdom, hsingle⟩ hno hfloor)
  · rintro t u rfl hs hm hlen hu hen
    refine ⟨fun ho => ⟨?_, ?_, fun k hk => getObj_objMod_ne _ _ _ _ hk⟩, ?_⟩
    · exact reqRow1_granted hs (judgeObjUpdate_atOnce hm hlen hu hen ho)
    · exact congrArg Obj.st (getObj_objMod_same ..)
    · intro sc' w ho k hruns hl hj hq
      exact reqRow1_asJudged hs (judgeObjUpdate_queued hm hlen hu hen ho hruns hl hj hq)
  · rintro t rfl hs hm hlen hbulk hok
    exact reqRow1_fetches hs (judgeObjBatch_fetches hm hlen hbulk hok)
  · rintro t rfl hs hlen hno
    exact reqRow1_granted hs (judgeObjQuery_ok hlen hno)
  · rintro t rfl hs hm hp hen rt hpan hsends
    refine ⟨fun ho => ⟨?_, ?_⟩, fun sc' ho hruns hl hj hq => ?_⟩
    · exact reqRow1_granted hs (judgeRouteSet_atOnce hm hp hen ⟨hpan, hsends⟩ ho)
    · exact getObj_objMod_same ..
    · exact reqRow1_granted hs (judgeRouteSet_queued hm hp hen ⟨hpan, hsends⟩ ho hruns hl hj hq)
  · rintro t rfl hs hm hp m named haux hhalo hlay hsingle hspk hwaits hjob hfits
    refine ⟨?_, fun _ k hk => binds_applyBusCfg d _ hk⟩
    exact reqRow1_changes hs rfl (judgeBusCfg_changes hm rfl rfl hp haux hhalo hlay hsingle hspk hwaits hjob hfits)
  · rintro t rfl hs hm hp hen hdir hc
    refine ⟨fun ho => ⟨?_, getObj_objMod_same ..⟩, fun sc' ho hruns hl hj hq => ?_⟩
    · exact reqRow1_granted hs (judgeMatrixDirect_atOnce hm hp hen hdir hc ho)
    · exact reqRow1_granted hs (judgeMatrixDirect_queued hm hp hen hdir hc ho hruns hl hj hq)

end Sys2Proof.Machine

/-! Ramps and host values: where a ramp stands, in what interval it stays, and the range R8, R18 and R86 bring a host value into. -/

namespace Sys2Proof.Machine

/-! Whole steps toward zero (R124). -/

/-- A number of at most n steps of x / n, truncated toward zero, does not pass a nonnegative x. -/
theorem mul_tdiv_le_of_nonneg {x m n : Int} (hx : 0 ≤ x) (hm : m ≤ n) (hn : 0 ≤ n) : m * x.tdiv n ≤ x :=
  calc m * x.tdiv n ≤ n * x.tdiv n := Int.mul_le_mul_of_nonneg_right hm (Int.tdiv_nonneg hx hn)
    _ ≤ x := Int.mul_tdiv_self_le hx

theorem steps_between {x m n : Int} (h0 : 0 ≤ m) (hm : m ≤ n) : min 0 x ≤ m * x.tdiv n ∧ m * x.tdiv n ≤ max 0 x := by
  have hn : 0 ≤ n := Int.le_trans h0 hm
  rcases Int.le_total 0 x with hx | hx
  · have lower : 0 ≤ m * x.tdiv n := Int.mul_nonneg h0 (Int.tdiv_nonneg hx hn)
    have upper := mul_tdiv_le_of_nonneg hx hm hn
    omega
  · have hx' : 0 ≤ -x := Int.neg_nonneg_of_nonpos hx
    have upper : 0 ≤ m * (-x).tdiv n := Int.mul_nonneg h0 (Int.tdiv_nonneg hx' hn)
    have lower := mul_tdiv_le_of_nonneg hx' hm hn
    rw [Int.neg_tdiv, Int.mul_neg] at upper lower
    omega

/-! Where a ramp stands (R124). -/

theorem mtDiff_add_ofNat (t : MT) {k : Nat} (hk : k < 2147483648) : mtDiff (t + BitVec.ofNat 32 k) t = k := by
  have hnat : (BitVec.ofNat 32 k).toNat = k := Nat.mod_eq_of_lt (by omega)
  rw [mtDiff, BitVec.add_comm, BitVec.add_sub_cancel, BitVec.toInt_eq_toNat_of_lt (by omega), hnat]

/-- From its start sample on a ramp governs. -/
theorem segOf_of_le {r : Ramp} {k : MT} (h : 0 ≤ mtDiff k r.cur.t) : segOf r k = r.cur :=
  if_pos (.inr (decide_eq_true h))

theorem segAt_of_running {g : Seg} {k : MT} (h0 : 0 ≤ mtDiff k g.t) (hn : mtDiff k g.t + 1 < g.n) :
    segAt g k = g.v0 + (mtDiff k g.t + 1) * (g.v1 - g.v0).tdiv g.n := by
  rw [segAt, if_neg (by omega), if_neg (by omega), if_neg (by omega)]

theorem segAt_of_reached {g : Seg} {k : MT} (h0 : 0 ≤ mtDiff k g.t) (hn : g.n ≤ mtDiff k g.t + 1) : segAt g k = g.v1 := by
  by_cases hz : g.n = 0
  · rw [segAt, if_pos hz]
  · rw [segAt, if_neg hz, if_neg (by omega), if_pos (by omega)]

/-- From its start sample on a new ramp stands where its one segment does. -/
theorem rampAt_rampTo_add (r : Ramp) (v : Int) (t : MT) (n : Nat) {k : Nat} (hk : k < 2147483648) :
    rampAt (rampTo r v t n) (t + BitVec.ofNat 32 k) = segAt { v0 := rampAt r (t - 1), v1 := v, t := t, n := n } (t + BitVec.ofNat 32 k) := by
  have h0 : 0 ≤ mtDiff (t + BitVec.ofNat 32 k) t := mtDiff_add_ofNat t hk ▸ Int.natCast_nonneg k
  have hseg : segOf (rampTo r v t n) (t + BitVec.ofNat 32 k) = (rampTo r v t n).cur := segOf_of_le h0
  rw [rampAt, hseg, rampTo]

theorem rampAt_rampTo_running (r : Ramp) (v : Int) (t : MT) {n k : Nat} (hn : n < 2147483648) (hk : k + 1 < n) :
    rampAt (rampTo r v t n) (t + BitVec.ofNat 32 k) = rampAt r (t - 1) + (k + 1) * (v - rampAt r (t - 1)).tdiv n := by
  have hlt : k < 2147483648 := by omega
  have hd := mtDiff_add_ofNat t hlt
  rw [rampAt_rampTo_add r v t n hlt, segAt_of_running (by simp only [hd]; omega) (by simp only [hd]; omega), hd]

theorem rampAt_rampTo_reached (r : Ramp) (v : Int) (t : MT) {n k : Nat} (hk : k < 2147483648) (hn : n ≤ k + 1) :
    rampAt (rampTo r v t n) (t + BitVec.ofNat 32 k) = v := by
  have hd := mtDiff_add_ofNat t hk
  rw [rampAt_rampTo_add r v t n hk, segAt_of_reached (by simp only [hd]; omega) (by simp only [hd]; omega)]

theorem rampAt_rampTo_between (r : Ramp) (v : Int) (t : MT) {n k : Nat} (hn : n < 2147483648) (hk : k < 2147483648) :
    min (rampAt r (t - 1)) v ≤ rampAt (rampTo r v t n) (t + BitVec.ofNat 32 k) ∧
      rampAt (rampTo r v t n) (t + BitVec.ofNat 32 k) ≤ max (rampAt r (t - 1)) v := by
  by_cases h : k + 1 < n
  · rw [rampAt_rampTo_running r v t hn h]
    have hsteps := steps_between (x := v - rampAt r (t - 1)) (m := k + 1) (n := n) (by omega) (by omega)
    omega
  · rw [rampAt_rampTo_reached r v t hk (by omega)]
    exact ⟨Int.min_le_right _ _, Int.le_max_right _ _⟩

/-- Before its start a new ramp leaves the samples the ramp it replaces governed. -/
theorem rampAt_rampTo_before {r : Ramp} {t k : MT} {n : Nat} (v : Int) (hn : n ≠ 0) (hk : mtDiff k t < 0)
    (hr : r.cur.n = 0 ∨ mtGe k r.cur.t = true) : rampAt (rampTo r v t n) k = rampAt r k := by
  have hlt : ¬(n = 0 ∨ mtGe k t = true) := not_or.2 ⟨hn, fun h => Int.not_le.2 hk (of_decide_eq_true h)⟩
  have hnew : segOf (rampTo r v t n) k = r.cur := (if_neg hlt).trans (if_pos hr)
  have hold : segOf r k = r.cur := if_pos hr
  rw [rampAt, rampAt, hnew, hold]

/-! Host values brought into range (R8, R18, R86). -/

theorem reduceAz_of_mem {az : Int} (h : -18000 < az) (h' : az ≤ 18000) : reduceAz az = az := if_pos ⟨h, h'⟩

theorem reduceAz_bounds (az : Int) : -18000 < reduceAz az ∧ reduceAz az ≤ 18000 := by
  unfold reduceAz
  split <;> omega

theorem reduceAz_sub_emod (az : Int) : (reduceAz az - az) % 36000 = 0 := by
  unfold reduceAz
  split <;> omega

/-- A whole turn does not change an azimuth: both reductions lie in one turn and differ by whole turns. -/
theorem reduceAz_add_turn (az : Int) : reduceAz (az + 36000) = reduceAz az := by
  have := reduceAz_bounds az
  have := reduceAz_bounds (az + 36000)
  have := reduceAz_sub_emod az
  have := reduceAz_sub_emod (az + 36000)
  omega

theorem polarXyz_eq_none {el dist : Int} (az : Int) (h : el < -9000 ∨ 9000 < el ∨ dist < 0) : polarXyz az el dist = none := if_pos h

theorem polarXyz_add_turn (az el dist : Int) : polarXyz (az + 36000) el dist = polarXyz az el dist := by
  rw [polarXyz, polarXyz, reduceAz_add_turn]

theorem clampCdb_bounds (c : Int) : -14400 ≤ clampCdb c ∧ clampCdb c ≤ 2400 := by
  unfold clampCdb clampI
  omega

theorem cdbClamps_eq_false_iff (c : Int) : cdbClamps c = false ↔ clampCdb c = c := by
  simp only [cdbClamps, Bool.or_eq_false_iff, decide_eq_false_iff_not, clampCdb, clampI]
  omega

theorem cdbGain_eq_zero {c : Int} (h : c ≤ -14400) : cdbGain c = 0 := if_pos h

/-- `rne` rounds down with at most half of d left over, up with at least half. -/
theorem rne_cases (n : Int) (d : Nat) :
    rne n d = n / d ∧ 2 * (n % d) ≤ d ∨ rne n d = n / d + 1 ∧ d ≤ 2 * (n % d) := by
  simp only [rne]
  omega

/-- What `rne` answers lies at most half of d from n / d, told without the fraction. -/
theorem rne_nearest (n : Int) {d : Nat} (hd : 0 < d) : 2 * (rne n d * d - n).natAbs ≤ d := by
  have hdiv := Int.mul_ediv_add_emod n d
  have hlt := Int.emod_lt_of_pos n (Int.natCast_pos.2 hd)
  have hge := Int.emod_nonneg n (Int.ne_of_gt (Int.natCast_pos.2 hd))
  rw [Int.mul_comm] at hdiv
  rcases rne_cases n d with ⟨hq, hr⟩ | ⟨hq, hr⟩
  · rw [hq]
    omega
  · rw [hq, Int.add_mul, Int.one_mul]
    omega

theorem le_rampLen (us f : Nat) : 16 ≤ rampLen us f := Nat.le_max_left ..

/-- Past its least length a ramp has the nearest whole number of samples. -/
theorem rampLen_eq_rne {us f : Nat} (h : 16 < rampLen us f) : (rampLen us f : Int) = rne (us * f) 1000000 := by
  have hus : rampLen us f = usSamples us f := by
    rw [rampLen] at h ⊢
    omega
  rw [hus, usSamples] at h
  rw [hus, usSamples, Int.toNat_of_nonneg (by omega), Int.natCast_mul]

theorem rampLen_nearest {us f : Nat} (h : 16 < rampLen us f) : 2 * ((rampLen us f : Int) * 1000000 - us * f).natAbs ≤ 1000000 := by
  rw [rampLen_eq_rne h]
  exact rne_nearest (us * f) (by decide)

/-- Settles O51: up to n samples a ramp stands at its steps, from then on at its target; the host values are those of R8, R18 and R86. -/
theorem rampsGoInWholeStepsAndHostValuesAreBroughtIntoRange : Obligations.RampsGoInWholeStepsAndHostValuesAreBroughtIntoRange := by
  refine ⟨fun r v t n h1 hn => ⟨?_, ?_, ?_, ?_⟩, fun az => ⟨?_, ?_, ?_, ?_⟩, fun az el dist => ⟨?_, ?_⟩, fun c => ⟨?_, ?_, ?_, ?_⟩,
    fun us f => ⟨le_rampLen us f, rampLen_nearest⟩, by decide, by decide, by decide⟩
  · exact fun k hk => rampAt_rampTo_running r v t hn hk
  · exact fun k hk hlt => rampAt_rampTo_reached r v t hlt hk
  · exact fun k hk => rampAt_rampTo_between r v t hn hk
  · exact fun k hk hr => rampAt_rampTo_before v (Nat.ne_of_gt h1) hk hr
  · exact (reduceAz_bounds az).1
  · exact (reduceAz_bounds az).2
  · exact reduceAz_sub_emod az
  · exact reduceAz_of_mem
  · exact polarXyz_eq_none az
  · exact polarXyz_add_turn az el dist
  · exact (clampCdb_bounds c).1
  · exact (clampCdb_bounds c).2
  · exact cdbClamps_eq_false_iff c
  · exact cdbGain_eq_zero

end Sys2Proof.Machine

/-! Banks whose entries a list changes one after another, and the chain columns of a device so changed. -/

namespace Sys2Proof.Machine

/-! Lists without repetitions, as the rules judge them. -/

theorem length_eraseDups_le {α : Type} [BEq α] (l : List α) : l.eraseDups.length ≤ l.length := by
  match l with
  | [] => simp
  | a :: l =>
    have htail := length_eraseDups_le (l.filter (fun b => !b == a))
    have hfilter := List.length_filter_le (fun b => !b == a) l
    rw [List.eraseDups_cons, List.length_cons, List.length_cons]
    omega
termination_by l.length
decreasing_by exact Nat.lt_succ_of_le (List.length_filter_le ..)

/-- A list that loses nothing when its repetitions are erased has none. -/
theorem nodup_of_length_eraseDups {α : Type} [BEq α] [LawfulBEq α] {l : List α} (h : l.eraseDups.length = l.length) : l.Nodup := by
  induction l with
  | nil => exact List.nodup_nil
  | cons a l ih =>
    rw [List.eraseDups_cons, List.length_cons, List.length_cons] at h
    have htail := length_eraseDups_le (l.filter (fun b => !b == a))
    have hfilter := List.length_filter_le (fun b => !b == a) l
    have hall : ∀ b ∈ l, (!b == a) = true := List.length_filter_eq_length_iff.1 (by omega)
    rw [List.filter_eq_self.2 hall] at h
    have hmem : a ∉ l := fun ha => by simpa using hall a ha
    exact List.nodup_cons.2 ⟨hmem, ih (by omega)⟩

/-! Entries of a bank changed one after another. -/

section
variable {α β : Type} [Inhabited α] (key : β → Nat) (f : β → α → α)

/-- The bank after the changes f x of the entries key x. -/
def tabMods (xs : List β) (t : Tab α) : Tab α := xs.foldl (fun t x => tabMod t (key x) (f x)) t

theorem tabMods_cons (x : β) (xs : List β) (t : Tab α) : tabMods key f (x :: xs) t = tabMods key f xs (tabMod t (key x) (f x)) := rfl

/-- An entry that no change names. -/
theorem tabGet_tabMods_unnamed {xs : List β} {k : Nat} (h : ∀ x, x ∈ xs → key x ≠ k) (t : Tab α) :
    tabGet (tabMods key f xs t) k = tabGet t k := by
  induction xs generalizing t with
  | nil => rfl
  | cons x xs ih =>
    obtain ⟨hx, hxs⟩ := List.forall_mem_cons.1 h
    rw [tabMods_cons, ih hxs, tabGet_tabMod_ne _ _ _ _ hx.symm]

/-- Where no entry is named twice, a change finds its entry as it was. -/
theorem tabGet_tabMods_nodup {xs : List β} (hn : (xs.map key).Nodup) {x : β} (hx : x ∈ xs) (t : Tab α) :
    tabGet (tabMods key f xs t) (key x) = f x (tabGet t (key x)) := by
  induction xs generalizing t with
  | nil => cases hx
  | cons y ys ih =>
    obtain ⟨hy, hys⟩ := List.nodup_cons.1 hn
    rw [tabMods_cons]
    rcases List.mem_cons.1 hx with rfl | hx
    · have hrest : ∀ z, z ∈ ys → key z ≠ key x := fun z hz h => hy (h ▸ List.mem_map_of_mem hz)
      rw [tabGet_tabMods_unnamed key f hrest, tabGet_tabMod_same]
    · have hne : key x ≠ key y := fun h => hy (h ▸ List.mem_map_of_mem hx)
      rw [ih hys hx, tabGet_tabMod_ne _ _ _ _ hne]

/-- One change of several entries, which may be made again. -/
theorem tabGet_tabMods_idem {g : α → α} (hg : ∀ v, g (g v) = g v) {xs : List Nat} {k : Nat} (hk : k ∈ xs) (t : Tab α) :
    tabGet (tabMods id (fun _ => g) xs t) k = g (tabGet t k) := by
  induction xs generalizing t with
  | nil => cases hk
  | cons y ys ih =>
    rw [tabMods_cons]
    by_cases hys : k ∈ ys
    · rw [ih hys]
      by_cases hy : k = y
      · subst hy; rw [id, tabGet_tabMod_same, hg]
      · rw [id, tabGet_tabMod_ne _ _ _ _ hy]
    · obtain rfl : k = y := (List.mem_cons.1 hk).resolve_right hys
      have hrest : ∀ z, z ∈ ys → id z ≠ k := fun z hz h => hys (h ▸ hz)
      rw [tabGet_tabMods_unnamed _ _ hrest, id, tabGet_tabMod_same]

end

/-! Chain columns changed one after another. -/

/-- The device whose chain columns are those of the bank. -/
def withCols (d : Dev) (cols : Tab Chain1) : Dev := { d with chain := { d.chain with cols := cols } }

theorem foldl_chainMod {β : Type} (key : β → Nat) (f : β → Chain1 → Chain1) (xs : List β) (d : Dev) :
    xs.foldl (fun d x => chainMod d (key x) (f x)) d = withCols d (tabMods key f xs d.chain.cols) := by
  induction xs generalizing d with
  | nil => rfl
  | cons x xs ih => exact ih _

@[simp] theorem getChain_chainMod_same (d : Dev) (c : Nat) (f : Chain1 → Chain1) : getChain (chainMod d c f) c = f (getChain d c) :=
  tabGet_tabMod_same ..
theorem getChain_chainMod_ne (d : Dev) (f : Chain1 → Chain1) {c k : Nat} (h : k ≠ c) : getChain (chainMod d c f) k = getChain d k :=
  tabGet_tabMod_ne _ _ _ _ h

@[simp] theorem getChain_chainCfgMod_same (d : Dev) (c : Nat) (f : ChainCfg → ChainCfg) :
    getChain (chainCfgMod d c f) c = { getChain d c with cfg := f (getChain d c).cfg } := getChain_chainMod_same ..
theorem getChain_chainCfgMod_ne (d : Dev) (f : ChainCfg → ChainCfg) {c k : Nat} (h : k ≠ c) :
    getChain (chainCfgMod d c f) k = getChain d k := getChain_chainMod_ne _ _ h

end Sys2Proof.Machine

/-! Chapter 6's requests judged: what each rule answers where nothing refuses the request, and what it makes of the columns. -/

namespace Sys2Proof.Machine

/-! Requests about chains, carried out. -/

section
variable {s : State} {op : Op} {j : Judge1} {r : Req} (hs : served s (takes s op r))
include hs

/-- A served request whose action a is none of the other rows'. -/
theorem reqRow_served_action {i a : Nat} {os : List Nat} (ha : u8 r.payload i = a) (ho : os.contains a = false) :
    reqRow op i os j r s = .next (judged s j (takes s op r)) := reqRow_served hs (ha ▸ ho)

theorem reqRow_chainChanges {d : Dev} {body : List Byte} {dom : Option Nat} {f : Apply1} {i a : Nat} {os : List Nat}
    (ha : u8 r.payload i = a) (ho : os.contains a = false) (hf : f (quiet s) (takes s op r) none = (d, .ok, body))
    (h : j (quiet s) (takes s op r) none = chainCommit (quiet s) (takes s op r) dom f) :
    reqRow op i os j r s = .next (chainChanges s (takes s op r) dom d body) := by
  rw [reqRow_served_action hs ha ho, judged_chainChanges hf h]

theorem reqRow1_chainChanges {d : Dev} {body : List Byte} {dom : Option Nat} {f : Apply1}
    (hf : f (quiet s) (takes s op r) none = (d, .ok, body))
    (h : j (quiet s) (takes s op r) none = chainCommit (quiet s) (takes s op r) dom f) :
    reqRow1 op j r s = .next (chainChanges s (takes s op r) dom d body) := by
  rw [reqRow1_served hs, judged_chainChanges hf h]

end

/-! The rules of CHAIN_CFG, EQ_SET, DELAY_SET and DYN_CFG. -/

/-- A column's configuration as a CHAIN_CFG sets it (R163, R166). -/
def columnCfg (p : List Byte) (x : ChainCfg) : ChainCfg :=
  { x with
    byBass := bit (u8 p 4) 0, byEq := bit (u8 p 4) 1, byFir := bit (u8 p 4) 2, byDelay := bit (u8 p 4) 3, byDyn := bit (u8 p 4) 4
    invert := bit (u8 p 5) 0, ownLp := bit (u8 p 5) 1, group := u8 p 6, xfade := if u8 p 7 = 0 then 1 else u8 p 7 }

section
variable {d : Dev} {t : Taken} {p : List Byte} (hp : t.req.payload = p) (hm : inModes t modes5 = true)
include hp hm

/-! CHAIN_CFG (R163, R166). -/

theorem judgeChainColumn_commits (hlen : 8 ≤ p.length) (h0 : u8 p 0 = 0) (h1 : u8 p 1 = 0) (hc : chainCol (u16 p 2) = true)
    (hby : u8 p 4 ≤ 31) (hfl : u8 p 5 ≤ 3) (hg : u8 p 6 ≤ 15 ∨ u8 p 6 = 255) (hx : u8 p 7 ≤ 64) (haux : 576 ≤ u16 p 2 → u8 p 6 = 255)
    (hdest : u8 p 6 ≤ 15 → (tabGet d.chain.groups (u8 p 6)).order = 0 ∨ (tabGet d.chain.groups (u8 p 6)).dests ≠ []) :
    judgeChainColumn d t none = chainCommit d t (colDomOf d (u16 p 2)) applyChainColumn := by
  subst hp
  rw [judgeChainColumn, if_neg (by simp [hm]), if_neg]
  have hgroup : 15 < u8 t.req.payload 6 → u8 t.req.payload 6 = 255 := by omega
  simpa [longEnough_of_le hlen, h0, h1, hc, hby, hfl, hx, Nat.not_lt.2, and_assoc, Nat.lt_succ_iff] using
    ⟨hgroup, haux, fun h => (hdest h).resolve_left⟩

theorem judgeBassGroup_commits (hlen : 12 ≤ p.length) (h0 : u8 p 0 = 1) (ho : (bassGroupOf p).order ≤ 3) (hg : u16 p 2 ≤ 15)
    (hlow : 20000 ≤ (bassGroupOf p).crossover) (hhigh : (bassGroupOf p).crossover ≤ 300000) (hn : u8 p 10 ≤ 8) (h11 : u8 p 11 = 0)
    (hlen' : 12 + 2 * u8 p 10 ≤ p.length) (hspk : ∀ x, x ∈ (bassGroupOf p).dests → spkType d.scene.layout x = some 1)
    (hdup : (bassGroupOf p).dests.eraseDups.length = (bassGroupOf p).dests.length)
    (hdest : (bassGroupOf p).order ≠ 0 → (bassGroupOf p).dests ≠ [])
    (hbusy : (bassGroupOf p).order = 0 ∨ (bassGroupOf p).dests = [] → groupHasMembers d (u16 p 2) = false) :
    judgeBassGroup d t none = chainCommit d t (d.scene.layout.map (fun l => effDom d l.dom)) applyBassGroup := by
  subst hp
  rw [judgeBassGroup, if_neg (by simp [hm]), if_neg, if_neg]
  · simpa using hbusy
  · simpa [longEnough_of_le hlen, longEnough_of_le hlen', h0, ho, hg, hlow, hhigh, hn, h11, hdup, Nat.not_lt.2] using And.intro hspk hdest

/-! EQ_SET (R170). -/

theorem judgeEqSet_commits (hlen : 4 ≤ p.length) (hc : chainCol (u16 p 0) = true) (h1 : 1 ≤ u8 p 2) (h4 : u8 p 2 ≤ 4) (h3 : u8 p 3 = 0)
    (hlen' : 4 + 12 * u8 p 2 ≤ p.length) (hok : ∀ i, i < u8 p 2 → eqEntryBad p (colRate d (u16 p 0)) (u8 p 2) i = false)
    (hdup : ((List.range (u8 p 2)).map (fun i => (eqEntry p i).1)).eraseDups.length = u8 p 2) :
    judgeEqSet d t none = chainCommit d t (colDomOf d (u16 p 0)) applyEqSet := by
  subst hp
  rw [judgeEqSet, if_neg (by simp [hm]), if_neg]
  simpa [longEnough_of_le hlen, longEnough_of_le hlen', hc, h4, h3, hdup, Nat.not_lt.2] using And.intro (Nat.ne_of_gt h1) hok

/-! DELAY_SET (R173) and DYN_CFG (R179). -/

theorem judgeDelaySet_commits (hlen : 4 ≤ p.length) (h1 : 1 ≤ u8 p 0) (h12 : u8 p 0 ≤ 12) (hz : isZero p 1 3 = true)
    (hlen' : 4 + 4 * u8 p 0 ≤ p.length) (hok : ∀ x, x ∈ delayPairs p → chainCol x.1 = true ∧ x.2 ≤ 4096)
    (hdup : ((delayPairs p).map Prod.fst).eraseDups.length = u8 p 0) :
    judgeDelaySet d t none = chainCommit d t ((delayPairs p).filterMap (fun x => colDomOf d x.1)).head? applyDelaySet := by
  subst hp
  rw [judgeDelaySet, if_neg (by simp [hm]), if_neg]
  simpa [longEnough_of_le hlen, longEnough_of_le hlen', h12, hz, hdup, Nat.not_lt.2] using
    And.intro (Nat.ne_of_gt h1) (fun c a h => hok (c, a) h)

theorem judgeDynSet_commits (hlen : 40 ≤ p.length) (hc : chainCol (u16 p 0) = true) (h2 : u8 p 2 = 0) (h3 : u8 p 3 ≤ 15)
    (hdyn : dynOk (dynCfgOf p) = true) (hpeak : peakOk (dynCfgOf p) (colRate d (u16 p 0)) = true) :
    judgeDynSet d t none = chainCommit d t (colDomOf d (u16 p 0)) applyDynSet := by
  subst hp
  rw [judgeDynSet, if_neg (by simp [hm]), if_neg]
  simp [longEnough_of_le hlen, hc, h2, h3, hdyn, hpeak, Nat.not_lt.2]

end

section
variable {d : Dev} {t : Taken} {p : List Byte} {b : Option MT} (hp : t.req.payload = p)
include hp

theorem getChain_applyChainColumn :
    getChain (applyChainColumn d t b).1 (u16 p 2) = { getChain d (u16 p 2) with cfg := columnCfg p (getChain d (u16 p 2)).cfg } := by
  subst hp
  exact getChain_chainCfgMod_same ..

/-- The bands of an EQ_SET, one after another. -/
theorem bands_applyEqSet : (getChain (applyEqSet d t b).1 (u16 p 0)).cfg.bands =
    tabMods (fun i => (eqEntry p i).1) (fun i _ => (eqEntry p i).2) (List.range (u8 p 2)) (getChain d (u16 p 0)).cfg.bands := by
  subst hp
  exact congrArg (fun x => x.cfg.bands) (getChain_chainCfgMod_same ..)

/-- A DELAY_SET whose taps all fit the lines (R172) sets the alignment of every column that it names. -/
theorem applyDelaySet_fits (hfit : ∀ x, x ∈ delayPairs p → tapsFit d t b x.1 = true) :
    applyDelaySet d t b =
      (withCols d (tabMods Prod.fst (fun x y => { y with cfg := { y.cfg with align := x.2 } }) (delayPairs p) d.chain.cols), .ok, mtBody b) := by
  subst hp
  rw [applyDelaySet, if_pos (List.all_eq_true.2 hfit), ← foldl_chainMod]
  rfl

theorem applyDynSet_fits (hfit : tapsFit d t b (u16 p 0) = true) :
    applyDynSet d t b = (chainCfgMod d (u16 p 0) (fun x => { x with dyn := dynCfgOf p }), .ok, mtBody b) := by
  subst hp
  exact if_pos hfit

end

/-! GR_READ (R180). -/

/-- A column whose hold values have been read. -/
def clearHolds (x : Chain1) : Chain1 := { x with st := { x.st with holdC := 0, holdL := 0 } }

/-- The columns that a GR_READ names. -/
def grCols (p : List Byte) : List Nat := (List.range (u8 p 3)).map (u16 p 0 + ·)

theorem mem_grCols {p : List Byte} {k : Nat} : k ∈ grCols p ↔ ∃ i, i < u8 p 3 ∧ u16 p 0 + i = k := by simp [grCols]

/-- The device after a GR_READ. -/
def grCleared (d : Dev) (p : List Byte) : Dev := withCols d (tabMods id (fun _ => clearHolds) (grCols p) d.chain.cols)

theorem getChain_grCleared_mem {d : Dev} {p : List Byte} {k : Nat} (hk : k ∈ grCols p) :
    getChain (grCleared d p) k = clearHolds (getChain d k) := tabGet_tabMods_idem (g := clearHolds) (fun _ => rfl) hk _

theorem getChain_grCleared_not_mem {d : Dev} {p : List Byte} {k : Nat} (hk : k ∉ grCols p) :
    getChain (grCleared d p) k = getChain d k := tabGet_tabMods_unnamed id _ (fun x hx (h : x = k) => hk (h ▸ hx)) _

theorem judgeGrRead_ok {d : Dev} {t : Taken} {p : List Byte} (hp : t.req.payload = p) (hlen : 4 ≤ p.length) (h2 : u8 p 2 = 1)
    (h1 : 1 ≤ u8 p 3) (h12 : u8 p 3 ≤ 12) (hc : ∀ i, i < u8 p 3 → chainCol (u16 p 0 + i) = true) :
    judgeGrRead d t none = (grCleared d p, .now .ok
      (zeros 3 ++ p32 (mtOf d (if boundCol d (u16 p 0) then colDom d (u16 p 0) else effDom d 0)).toNat ++
        (List.range (u8 p 3)).flatMap (fun i => p16 (getChain d (u16 p 0 + i)).st.holdC ++ p16 (getChain d (u16 p 0 + i)).st.holdL))) := by
  subst hp
  rw [judgeGrRead, if_neg]
  · rw [grCleared, ← foldl_chainMod]
    simp only [List.flatMap_map]
    rfl
  · simpa [longEnough_of_le hlen, h2, h12, Nat.not_lt.2] using And.intro (Nat.ne_of_gt h1) hc

/-! OUT_GAIN and OUT_MUTE (R181–R184). -/

/-- What the rules ask of the fields of an OUT_GAIN or OUT_MUTE (R181, R182). -/
structure OutFields (mute : Bool) (p : List Byte) : Prop where
  long : 16 ≤ p.length
  col : chainCol (u16 p 0) = true
  muted : mute = true → u8 p 2 ≤ 1 ∧ u8 p 3 = 0
  ramp : u32 p 8 ≤ 2000000
  flags : u8 p 12 ≤ 3
  rest : isZero p 13 3 = true

/-- The device with a gain that R8 clamps counted. -/
def outCounted (d : Dev) (p : List Byte) (mute : Bool) : Dev := if mute then d else countClamps d [i16 p 2]

@[simp] theorem outCounted_cols (d : Dev) (p : List Byte) (mute : Bool) : (outCounted d p mute).chain.cols = d.chain.cols := by
  cases mute <;> rfl
@[simp] theorem outCols_outCounted (d : Dev) (p q : List Byte) (mute : Bool) : outCols (outCounted d p mute) q = outCols d q := by
  cases mute <;> rfl

/-- The device with every column that the message names changed alike. -/
def outMods (mute : Bool) (d : Dev) (p : List Byte) (g : Chain1 → Chain1) : Dev :=
  withCols (outCounted d p mute) (tabMods id (fun _ => g) (outCols d p) d.chain.cols)

theorem getChain_outMods_mem {mute : Bool} {d : Dev} {p : List Byte} {g : Chain1 → Chain1} (hg : ∀ y, g (g y) = g y) {k : Nat}
    (hk : k ∈ outCols d p) : getChain (outMods mute d p g) k = g (getChain d k) := tabGet_tabMods_idem hg hk _

theorem getChain_outMods_not_mem {mute : Bool} {d : Dev} {p : List Byte} {g : Chain1 → Chain1} {k : Nat} (hk : k ∉ outCols d p) :
    getChain (outMods mute d p g) k = getChain d k := tabGet_tabMods_unnamed id _ (fun x hx (h : x = k) => hk (h ▸ hx)) _

theorem foldl_outCols (mute : Bool) (d : Dev) (p : List Byte) (g : Chain1 → Chain1) :
    (outCols (outCounted d p mute) p).foldl (fun e k => chainMod e k g) (outCounted d p mute) = outMods mute d p g := by
  rw [outMods, ← outCounted_cols d p mute, ← foldl_chainMod, outCols_outCounted]
  rfl

/-- A target stored without a ramp: the muting or the gain that the message names. -/
theorem outSet_stored (mute : Bool) (p : List Byte) (y : Chain1) : outSet y mute (outTarget p mute) none =
    if mute then { y with muteSet := u8 p 2 == 1 } else { y with goutSet := cdbGain (clampCdb (i16 p 2)) } := by
  cases mute with
  | false => rfl
  | true => by_cases h : u8 p 2 = 1 <;> simp [outSet, outTarget, unity, h]

theorem outSet_idem (mute : Bool) (v : Int) (y : Chain1) : outSet (outSet y mute v none) mute v none = outSet y mute v none := by
  cases mute <;> rfl

/-- A timed target set aside until its MT (R184). -/
def outWaits (mute : Bool) (x : Timed) (y : Chain1) : Chain1 :=
  if mute then { y with timedMute := some x } else { y with timedGain := some x }

theorem outWaits_idem (mute : Bool) (x : Timed) (y : Chain1) : outWaits mute x (outWaits mute x y) = outWaits mute x y := by
  cases mute <;> rfl

/-- Whether the MT that a message names has passed. -/
def outLate (d : Dev) (p : List Byte) : Bool :=
  decide (mtDiff (blockOf (BitVec.ofNat 32 (u32 p 4))) (selBoundary d (colDom d (u16 p 0))) < 0)

/-- The ramp that a timed message asks for. -/
def outTimed (mute : Bool) (d : Dev) (p : List Byte) : Timed :=
  { t := if mtDiff (blockOf (BitVec.ofNat 32 (u32 p 4))) (selBoundary d (colDom d (u16 p 0))) < 0 then selBoundary d (colDom d (u16 p 0))
      else BitVec.ofNat 32 (u32 p 4)
    n := outLen (outUs p) (colRate d (u16 p 0)), target := outTarget p mute }

section
variable {mute : Bool} {d : Dev} {t : Taken} {p : List Byte} (hp : t.req.payload = p)
include hp

theorem applyOut_stores : applyOut mute d t none = (outMods mute d p (fun y => outSet y mute (outTarget p mute) none), .ok, mtBody none) := by
  subst hp
  rw [← foldl_outCols]
  rfl

variable (hm : inModes t modes5 = true) (hf : OutFields mute p)
include hm hf

theorem judgeOut_commits (hnow : atOnceMode t = true ∨ boundCol d (u16 p 0) = false ∨
      domRuns (getDom d (colDom d (u16 p 0))).state = false ∨ bit (u8 p 12) 0 = false) :
    judgeOut mute d t none = chainCommit d t (colDomOf d (u16 p 0)) (applyOut mute) := by
  subst hp
  obtain ⟨hlen, hc, hmute, hramp, hfl, hz⟩ := hf
  rw [judgeOut, if_neg (by simp [hm]), if_neg, if_pos]
  · simpa [or_assoc] using hnow
  · simpa [longEnough_of_le hlen, hc, hramp, hfl, hz, Nat.not_lt.2] using hmute

theorem judgeOut_waits (ho : atOnceMode t = false) (hb : boundCol d (u16 p 0) = true)
    (hr : domRuns (getDom d (colDom d (u16 p 0))).state = true) (htimed : bit (u8 p 12) 0 = true)
    (hfar : mtDiff (BitVec.ofNat 32 (u32 p 4)) (selBoundary d (colDom d (u16 p 0))) ≤ 8 * colRate d (u16 p 0)) :
    judgeOut mute d t none = (outMods mute d p (outWaits mute (outTimed mute d p)),
      .now (if outLate d p then .late else .ok) (mtBody (some (outTimed mute d p).t))) := by
  subst hp
  obtain ⟨hlen, hc, hmute, hramp, hfl, hz⟩ := hf
  rw [judgeOut, if_neg (by simp [hm]), if_neg, if_neg (by simp [ho, hb, hr, htimed]), if_neg (Int.not_lt.2 hfar), ← foldl_outCols]
  · simp only [outTimed, outLate, decide_eq_true_eq]
    rfl
  · simpa [longEnough_of_le hlen, hc, hramp, hfl, hz, Nat.not_lt.2] using hmute

end

end Sys2Proof.Machine

/-! The statement about the speaker chain's requests. -/

namespace Sys2Proof.Machine

/-- Settles O55: each request is judged as its rule says; what it makes of the columns is said by `tabGet_tabMods_nodup` where no entry is
named twice (EQ_SET, DELAY_SET) and by `tabGet_tabMods_idem` where every column is changed alike (GR_READ, OUT_GAIN, OUT_MUTE).  Clauses that
are the model's choices: the rate an unbound column is judged at and the one boundary of a DELAY_SET (log entry 80), and the ranges that a
section of type off keeps to (log entry 121). -/
theorem chainRequestsTakeEffect : Obligations.ChainRequestsTakeEffect := by
  intro r s p d c out
  have hout : ∀ (mute : Bool) (op : Op) (i : Instr), exec i s = reqRow1 op (judgeOut mute) r s → out mute i (takes s op r) := by
    intro mute op i hexec hs hm hlen hc hmute hramp hfl hz
    have hf : OutFields mute p := ⟨hlen, hc, hmute, hramp, hfl, hz⟩
    rw [hexec]
    refine ⟨fun hnow => ?_, fun ho hb hr htimed hfar => ?_⟩
    · have happly := applyOut_stores (mute := mute) (d := d) (t := takes s op r) rfl
      rw [happly]
      refine ⟨reqRow1_chainChanges hs happly (judgeOut_commits rfl hm hf hnow), fun k hk => ?_, fun k hk => getChain_outMods_not_mem hk⟩
      exact (getChain_outMods_mem (outSet_idem _ _) hk).trans (outSet_stored ..)
    · have hanswer := reqRow1_asJudged hs (judgeOut_waits rfl hm hf ho hb hr htimed hfar)
      simp only [outLate, decide_eq_true_eq] at hanswer
      exact ⟨_, hanswer, fun k hk => getChain_outMods_mem (outWaits_idem _ _) hk, fun k hk => getChain_outMods_not_mem hk⟩
  refine ⟨?_, ?_, ?_, ?_, ?_, ?_, fun t ht => ht ▸ hout false _ _ rfl, fun t ht => ht ▸ hout true _ _ rfl⟩
  · rintro _ rfl hs hm hlen h0 h1 m hc hby hfl hg hx haux hdest e
    have hcol : getChain e m = _ := getChain_applyChainColumn rfl
    refine ⟨reqRow_chainChanges hs h0 rfl rfl (judgeChainColumn_commits rfl hm hlen h0 h1 hc hby hfl hg hx haux hdest), rfl, rfl,
      fun k hk => getChain_chainCfgMod_ne _ _ hk, ?_, ?_⟩
    · rw [hcol]
    · rw [hcol]; rfl
  · rintro _ rfl hs hm hlen h0 g b ho hg hlow hhigh hn h11 hlen' hspk hdup hdest hbusy e
    exact ⟨reqRow_chainChanges hs h0 rfl rfl (judgeBassGroup_commits rfl hm hlen h0 ho hg hlow hhigh hn h11 hlen' hspk hdup hdest hbusy), rfl,
      tabGet_tabSet_same .., fun k hk => tabGet_tabSet_ne _ _ _ _ hk⟩
  · rintro _ rfl hs hm hlen hc n h1 h4 h3 hlen' hok hdup e bands
    have hbands : bands = _ := bands_applyEqSet rfl
    have hnodup := nodup_of_length_eraseDups (hdup.trans (by simp))
    refine ⟨reqRow1_chainChanges hs rfl (judgeEqSet_commits rfl hm hlen hc h1 h4 h3 hlen' hok hdup),
      fun k hk => getChain_chainCfgMod_ne _ _ hk, fun i hi => ?_, fun k hk => ?_⟩
    · rw [hbands]
      exact tabGet_tabMods_nodup _ _ hnodup (List.mem_range.2 hi) _
    · rw [hbands]
      exact tabGet_tabMods_unnamed _ _ (fun i hi => hk i (List.mem_range.1 hi)) _
  · rintro _ rfl hs hm hlen n h1 h12 hz hlen' hok hdup e
    have happly := applyDelaySet_fits (d := d) (t := takes s .delaySet r) (b := none) rfl (fun x hx => (hok x hx).2.2)
    have he : e = _ := congrArg Prod.fst happly
    have hnodup := nodup_of_length_eraseDups (hdup.trans (by simp [delayPairs, n]))
    refine ⟨?_, fun x hx => ?_, fun k hk => ?_⟩
    · rw [he]
      exact reqRow1_chainChanges hs happly (judgeDelaySet_commits rfl hm hlen h1 h12 hz hlen' (fun x hx => ⟨(hok x hx).1, (hok x hx).2.1⟩) hdup)
    · rw [he]
      exact tabGet_tabMods_nodup _ _ hnodup hx _
    · rw [he]
      exact tabGet_tabMods_unnamed _ _ hk _
  · rintro _ rfl hs hm hlen hc h2 h3 hdyn hpeak hfit e
    have happly := applyDynSet_fits (d := d) (t := takes s .dynCfg r) (b := none) rfl hfit
    have he : e = _ := congrArg Prod.fst happly
    rw [he]
    exact ⟨reqRow_chainChanges hs h2 rfl happly (judgeDynSet_commits rfl hm hlen hc h2 h3 hdyn hpeak), rfl, getChain_chainCfgMod_same ..,
      fun k hk => getChain_chainCfgMod_ne _ _ hk⟩
  · rintro _ rfl hs hlen h2 n h1 h12 hc
    refine ⟨grCleared d p, ?_, rfl, rfl, fun i hi => ?_, fun k hk => ?_⟩
    · exact (reqRow_served_action hs h2 rfl).trans (congrArg _ (judged_ok (judgeGrRead_ok rfl hlen h2 h1 h12 hc)))
    · exact getChain_grCleared_mem (mem_grCols.2 ⟨i, hi, rfl⟩)
    · refine getChain_grCleared_not_mem (fun h => ?_)
      obtain ⟨i, hi, rfl⟩ := mem_grCols.1 h
      omega

end Sys2Proof.Machine

/-! Chapter 7's requests judged: what each rule answers where nothing refuses the request, what a swap makes of the channels, and what
FIR_STATUS and HALO_CFG report. -/

namespace Sys2Proof.Machine

/-- A row whose action byte spells none of the other rows runs as if its opcode were its own. -/
theorem reqRow_eq_reqRow1 {op : Op} {i a : Nat} {os : List Nat} {j : Judge1} {r : Req} {s : State} (ha : u8 r.payload i = a)
    (ho : os.contains a = false) : reqRow op i os j r s = reqRow1 op j r s :=
  if_neg (fun ⟨_, h⟩ => Bool.false_ne_true ((ha ▸ ho).symm.trans h))

/-! Fields of a reply. -/

@[simp] theorem length_leBytes (n v : Nat) : (leBytes n v).length = n := by
  induction n generalizing v with
  | zero => rfl
  | succ n ih => exact congrArg (· + 1) (ih _)

theorem leNat_leBytes (n v : Nat) : leNat (leBytes n v) = v % 256 ^ n := by
  induction n generalizing v with
  | zero => exact (Nat.mod_one v).symm
  | succ n ih =>
    have hlow : (BitVec.ofNat 8 v).toNat = v % 256 := BitVec.toNat_ofNat v 8
    rw [leBytes, leNat, ih, hlow, Nat.pow_succ', Nat.mod_mul]

/-- The bytes after a field are what stands there. -/
theorem slice_append (x y : List Byte) : slice (x ++ y) x.length y.length = y := by simp [slice]

theorem u16_append_p16 (x : List Byte) (v : Nat) : u16 (x ++ p16 v) x.length = v % 65536 := by
  have hfield := slice_append x (p16 v)
  rw [p16, length_leBytes] at hfield
  rw [u16, p16, hfield]
  exact leNat_leBytes 2 v

/-! A swap (R203). -/

theorem swapChan_extents (sc : Scene) (fade : Option (MT × Nat)) (c : MChan) :
    (swapChan sc fade c).a = c.a ∧ (swapChan sc fade c).b = c.b ∧ (swapChan sc fade c).activeB = !c.activeB := by
  unfold swapChan
  extract_lets x
  split <;> exact ⟨rfl, rfl, rfl⟩

/-- A swap without a crossfade leaves none. -/
theorem swapChan_none_fade (sc : Scene) (c : MChan) : (swapChan sc none c).fade = none := by
  unfold swapChan
  extract_lets x
  split <;> rfl

theorem ch_swapChans (d : Dev) (cs : List Nat) (fade : Option (MT × Nat)) :
    (swapChans d cs fade).mantle.ch = tabMods id (fun _ => swapChan d.scene fade) cs d.mantle.ch := rfl

theorem getMch_swapChans_mem {d : Dev} {cs : List Nat} {fade : Option (MT × Nat)} (hn : cs.Nodup) {k : Nat} (hk : k ∈ cs) :
    getMch (swapChans d cs fade) k = swapChan d.scene fade (getMch d k) := by
  have hkeys : (cs.map id).Nodup := (List.map_id cs).symm ▸ hn
  rw [getMch, ch_swapChans]
  exact tabGet_tabMods_nodup id _ hkeys hk _

theorem getMch_swapChans_not_mem {d : Dev} {cs : List Nat} {fade : Option (MT × Nat)} {k : Nat} (hk : k ∉ cs) :
    getMch (swapChans d cs fade) k = getMch d k := by
  rw [getMch, ch_swapChans]
  exact tabGet_tabMods_unnamed id _ (fun x hx (h : x = k) => hk (h ▸ hx)) _

/-- A swap changes no extent of any channel. -/
theorem getMch_swapChans_extents {d : Dev} {cs : List Nat} {fade : Option (MT × Nat)} (hn : cs.Nodup) (k : Nat) :
    (getMch (swapChans d cs fade) k).a = (getMch d k).a ∧ (getMch (swapChans d cs fade) k).b = (getMch d k).b := by
  by_cases hk : k ∈ cs
  · obtain ⟨ha, hb, _⟩ := swapChan_extents d.scene fade (getMch d k)
    rw [getMch_swapChans_mem hn hk]
    exact ⟨ha, hb⟩
  · rw [getMch_swapChans_not_mem hk]
    exact ⟨rfl, rfl⟩

/-- A swap at once takes the named channels to their other sets, without a crossfade. -/
theorem getMch_swapChans_none_swapped {d : Dev} {cs : List Nat} (hn : cs.Nodup) {k : Nat} (hk : k ∈ cs) :
    (getMch (swapChans d cs none) k).activeB = !(getMch d k).activeB ∧ (getMch (swapChans d cs none) k).fade = none := by
  rw [getMch_swapChans_mem hn hk]
  exact ⟨(swapChan_extents ..).2.2, swapChan_none_fade ..⟩

/-! FIR_LOAD (R198, R199). -/

/-- FIR_LOAD fetches its region: that of a MAP, which names a set, or of a DATA, which names none. -/
theorem judgeFirLoad_fetches {d : Dev} {t : Taken} {p : List Byte} (hp : t.req.payload = p) (hm : inModes t modes5 = true)
    (hlen : 20 ≤ p.length) (hbulk : t.req.bulk = true) (haction : u8 p 16 = 0 ∧ u8 p 17 ≤ 1 ∨ u8 p 16 = 1 ∧ u8 p 17 = 0)
    (h18 : u16 p 18 = 0) (hok : bulkOk (bulkRef p 0) = true) (hbusy : firBusy d = false) :
    judgeFirLoad d t none = (d, .fetch (bulkRef p 0).1 (bulkRef p 0).2.1 (bulkRef p 0).2.2) := by
  subst hp
  have hfetch : needFetch d t 0 = (d, .fetch (bulkRef t.req.payload 0).1 (bulkRef t.req.payload 0).2.1 (bulkRef t.req.payload 0).2.2) := by
    simp [needFetch, hbulk, hok]
  rw [judgeFirLoad, if_neg (by simp [hm]), if_neg, if_neg (by simp [hbusy]), hfetch]
  rcases haction with ⟨h16, h17⟩ | ⟨h16, h17⟩ <;> simp [longEnough_of_le hlen, hbulk, h16, h17, h18, hok]

/-! FIR_COMMIT (R201–R203). -/

/-- What R201 asks of the fields of a FIR_COMMIT. -/
structure CommitFields (p : List Byte) : Prop where
  long : 12 ≤ p.length
  scope : u8 p 0 = 0 ∧ u16 p 2 ≤ 639 ∨ u8 p 0 = 1 ∧ u8 p 1 ≤ 2
  flags : u8 p 8 ≤ 1
  blocks : u8 p 9 ≤ 64
  rest : u16 p 10 = 0

theorem CommitFields.passes {t : Taken} {p : List Byte} (hp : t.req.payload = p) (hf : CommitFields p) :
    (!longEnough t 12 || decide (1 < u8 p 0) || (u8 p 0 == 1 && decide (2 < u8 p 1)) || (u8 p 0 == 0 && decide (639 < u16 p 2)) ||
      decide (1 < u8 p 8) || decide (64 < u8 p 9) || u16 p 10 != 0) = false := by
  subst hp
  obtain ⟨hlen, hscope, hflags, hblocks, hrest⟩ := hf
  rcases hscope with ⟨h0, h2⟩ | ⟨h0, h1⟩
  · simp [longEnough_of_le hlen, h0, h2, hflags, hblocks, hrest]
  · simp [longEnough_of_le hlen, h0, h1, hflags, hblocks, hrest]

/-- The domain that a FIR_COMMIT of scope DOMAIN names. -/
def commitNamed (p : List Byte) : Option Nat := if u8 p 0 = 1 then some (u8 p 1) else none

/-- The MT that a FIR_COMMIT names. -/
def commitAtMt (p : List Byte) : Option MT := if bit (u8 p 8) 0 then some (BitVec.ofNat 32 (u32 p 4)) else none

/-- The length of the crossfade that a FIR_COMMIT asks for, in samples. -/
def commitLen (p : List Byte) : Nat := 16 * (if u8 p 9 = 0 then 8 else u8 p 9)

/-- A commit as it is held (R203): on a pair not before the boundary that is next in its domain. -/
def heldRecord (d : Dev) (t : Taken) (cs : List Nat) (named : Option Nat) (atMt : Option MT) (n : Nat) (judged : Bool) : MCommit :=
  { taken := t, chans := cs, atMt := atMt, n := n, named := named, judged := judged
    st := if mode d == .twin && !isFollower d then some (selBoundary d ((commitDomOf d named cs).getD 0)) else none }

/-- The device with a commit held. -/
def commitHeld (d : Dev) (t : Taken) (cs : List Nat) (named : Option Nat) (atMt : Option MT) (n : Nat) (judged : Bool) : Dev :=
  mantleMod d (fun m => { m with commits := m.commits ++ [heldRecord d t cs named atMt n judged] })

section
variable {d : Dev} {t : Taken} {p : List Byte} (hp : t.req.payload = p) (hm : inModes t modes5 = true) (hf : CommitFields p)
include hp hm hf

theorem judgeFirCommit_atOnce (ho : atOnceMode t = true) (hc : commitFault d (commitChans d p) = none) :
    judgeFirCommit d t none = (swapChans d (commitChans d p) none, .now .ok (commitBody (commitChans d p).length 0 0xFFFF)) := by
  subst hp
  simp only [judgeFirCommit, hm, hf.passes rfl, ho, hc, Bool.not_true, Bool.false_eq_true, if_false, if_true]

/-- Elsewhere a commit that names no MT, or one that R201 allows, is held. -/
theorem judgeFirCommit_holds (ho : atOnceMode t = false) (htimed : bit (u8 p 8) 0 = true → u32 p 4 % 16 = 0 ∧
      mtDiff (BitVec.ofNat 32 (u32 p 4)) (selBoundary d ((commitDomOf d (commitNamed p) (commitChans d p)).getD 0)) ≤
        8 * rateOf d ((commitDomOf d (commitNamed p) (commitChans d p)).getD 0)) :
    judgeFirCommit d t none = commitHold d t (commitChans d p) (commitNamed p) (commitAtMt p) (commitLen p) := by
  subst hp
  rw [judgeFirCommit, if_neg (by simp [hm]), if_neg (by simp [hf.passes rfl]), if_neg (by simp [ho]), if_neg]
  · simp only [ho, Bool.not_false, Bool.and_true]
    rfl
  · simpa [ho, commitNamed] using htimed

end

section
variable {d : Dev} {t : Taken} {cs : List Nat} {named : Option Nat} {atMt : Option MT} {n : Nat}

/-- A commit whose domain runs is held unjudged until the domain's boundary (R214). -/
theorem commitHold_runs {k : Nat} (hk : commitDomOf d named cs = some k) (hr : domRuns (getDom d k).state = true) :
    commitHold d t cs named atMt n = (commitHeld d t cs named atMt n false, .done) := by
  simp [commitHold, commitHeld, heldRecord, hk, hr]

/-- A commit whose domain does not run is judged when it is taken. -/
theorem commitHold_stopped {k : Nat} (hk : commitDomOf d named cs = some k) (hr : domRuns (getDom d k).state = false)
    (hc : commitFault d cs = none) : commitHold d t cs named atMt n = (commitHeld d t cs named atMt n true, .done) := by
  simp [commitHold, commitHeld, heldRecord, hk, hr, hc]

/-- A commit of channels without a bound target that are READY swaps them at once. -/
theorem commitHold_ready (hk : commitDomOf d named cs = none) (hc : commitFault d cs = none) (htwin : mode d ≠ .twin)
    (hr : cs.all (fun m => chanReady (getMch d m)) = true) :
    commitHold d t cs named atMt n = ansB (swapChans d cs none) .ok (commitBody cs.length 0 0xFFFF) := by
  have htwin' : (mode d != .twin) = true := bne_iff_ne.2 htwin
  simp only [commitHold, hk, hc, htwin', hr, Option.map_none, Option.isNone_none, Bool.and_self, if_true]
  rfl

/-- A commit of channels without a bound target that are not all READY waits for them. -/
theorem commitHold_unready (hk : commitDomOf d named cs = none) (hc : commitFault d cs = none)
    (hr : cs.all (fun m => chanReady (getMch d m)) = false) :
    commitHold d t cs named atMt n = (commitHeld d t cs named atMt n true, .done) := by
  simp only [commitHold, commitHeld, heldRecord, hk, hc, hr, Bool.and_false, Bool.false_eq_true, if_false]
  rfl

end

/-! FIR_STATUS (R205). -/

/-- Where D0 does not run FIR_STATUS describes MANTLE as it is. -/
theorem firSnap_stopped {d : Dev} (h : domRuns (getDom d 0).state = false) : firSnap d = firSnapOf d 0 := by
  unfold firSnap
  split <;> simp [h]

section
variable {d : Dev} {t : Taken} {p : List Byte} (hp : t.req.payload = p)
include hp

theorem judgeFirStatus_summary (hlen : 1 ≤ p.length) (h0 : u8 p 0 = 1) : judgeFirStatus d t none =
    (d, .now .ok ((firSnap d).head ++ p32 (firSnap d).mt.toNat ++ (firSnap d).tail ++ p32 tapBudget)) := by
  subst hp
  rw [judgeFirStatus, if_neg (by simp [longEnough_of_le hlen, h0]), if_pos h0]
  rfl

theorem judgeFirStatus_channels (hlen : 5 ≤ p.length) (h0 : u8 p 0 = 0) (h1 : u8 p 1 = 0) (hc : 1 ≤ u8 p 4) (h6 : u8 p 4 ≤ 6)
    (hin : u16 p 2 + u8 p 4 ≤ 640) : judgeFirStatus d t none = (d, .now .ok (zeros 3 ++ p32 (firSnap d).mt.toNat ++
      (List.range (u8 p 4)).flatMap (fun i =>
        (((firSnap d).chans.find? (fun kv => kv.1 == u16 p 2 + i)).map Prod.snd).getD (zeros 8)))) := by
  subst hp
  have hlen1 : 1 ≤ t.req.payload.length := by omega
  have hnotSummary : u8 t.req.payload 0 ≠ 1 := by omega
  rw [judgeFirStatus, if_neg (by simp [longEnough_of_le hlen1, h0]), if_neg hnotSummary,
    if_neg (by simp [longEnough_of_le hlen, h1, h6, Nat.ne_of_gt hc]), if_neg (Nat.not_lt.2 hin)]
  rfl

/-! HALO_CFG (R210, R211). -/

omit hp in
theorem length_haloBody (d : Dev) (mt : MT) : (haloBody d mt).length = 13 := by
  simp only [haloBody, p8, p16, p32, s16, List.length_append, length_leBytes]

/-- SET stored at once: no crossfade of the rotation, and no ramp. -/
theorem halo_applyHaloSet_none : (applyHaloSet d t none).1.mantle.halo =
    { d.mantle.halo with rotate := bit (u8 p 1) 0, gain := clampCdb (i16 p 2), muted := bit (u8 p 1) 1, rotOld := none } := by
  subst hp
  rfl

omit hp in
theorem applyHaloSet_answers (d : Dev) (t : Taken) (b : Option MT) :
    applyHaloSet d t b = ((applyHaloSet d t b).1, .ok, haloBody (applyHaloSet d t b).1 (b.getD 0)) := rfl

variable (hm : inModes t modes5 = true)
include hm

theorem judgeHaloSet_commits (hlen : 8 ≤ p.length) (h0 : u8 p 0 = 0) (h1 : u8 p 1 ≤ 3) (hramp : u32 p 4 ≤ 2000000) {n : Nat}
    (hn : haloDom d = some n) : judgeHaloSet d t none = commitOr d t n applyHaloSet := by
  subst hp
  rw [judgeHaloSet, if_neg (by simp [hm]), if_neg (by simp [longEnough_of_le hlen, h0, h1, hramp])]
  simp only [hn]

/-- Where no HALO column is bound a SET is stored at once. -/
theorem judgeHaloSet_stores (hlen : 8 ≤ p.length) (h0 : u8 p 0 = 0) (h1 : u8 p 1 ≤ 3) (hramp : u32 p 4 ≤ 2000000)
    (hn : haloDom d = none) : judgeHaloSet d t none = haloAns (applyHaloSet d t none).1 .ok 0 := by
  subst hp
  rw [judgeHaloSet, if_neg (by simp [hm]), if_neg (by simp [longEnough_of_le hlen, h0, h1, hramp])]
  simp only [hn]
  rfl

theorem judgeHaloGet_ok (hlen : 1 ≤ p.length) (h0 : u8 p 0 = 2) : judgeHaloGet d t none = (d, .now .ok (haloBody d 0)) := by
  subst hp
  rw [judgeHaloGet, if_neg (by simp [hm]), if_neg (by simp [longEnough_of_le hlen, h0])]
  rfl

end

/-- What R211 asks of the fields of an ORIENT. -/
structure OrientFields (p : List Byte) : Prop where
  long : 12 ≤ p.length
  flags : u8 p 1 ≤ 1
  low : -9000 ≤ i16 p 4
  high : i16 p 4 ≤ 9000

theorem OrientFields.passes {t : Taken} {p : List Byte} (hp : t.req.payload = p) (hf : OrientFields p) :
    (!longEnough t 12 || decide (1 < u8 p 1) || decide (i16 p 4 < -9000) || decide (9000 < i16 p 4)) = false := by
  subst hp
  obtain ⟨hlen, hflags, hlow, hhigh⟩ := hf
  simp [longEnough_of_le hlen, hflags, hlow, hhigh]

/-- The device with an orientation pending that applies from block k on. -/
def orientPending (d : Dev) (p : List Byte) (k : MT) : Dev := haloMod d (fun h => { h with pending := some (orientOf p, k) })

section
variable {d : Dev} {t : Taken} {p : List Byte} {n : Nat} (hp : t.req.payload = p) (hm : inModes t modes5 = true) (hf : OrientFields p)
  (hn : haloDom d = some n)
include hp hm hf hn

/-- An ORIENT in CONFIG or of a domain that does not run is in force at once. -/
theorem judgeHaloOrient_atOnce (ho : atOnceMode t = true ∨ domRuns (getDom d n).state = false) : judgeHaloOrient d t none =
    haloAns (haloMod d (fun h => { h with orient := orientOf p, pending := none })) .ok 0 := by
  subst hp
  have hnow : (atOnceMode t || !domRuns (getDom d n).state) = true := by simpa using ho
  simp only [judgeHaloOrient, hm, hf.passes rfl, hn, hnow, Bool.not_true, Bool.false_eq_true, if_false, if_true]

variable (ho : atOnceMode t = false) (hr : domRuns (getDom d n).state = true)
include ho hr

theorem judgeHaloOrient_untimed (htimed : bit (u8 p 1) 0 = false) : judgeHaloOrient d t none =
    haloAns (orientPending d p (selBoundary d n)) .ok (selBoundary d n) := by
  subst hp
  simp only [judgeHaloOrient, hm, hf.passes rfl, hn, ho, hr, htimed, Bool.not_true, Bool.not_false, Bool.or_false, Bool.false_eq_true,
    if_false, if_true]
  rfl

variable (htimed : bit (u8 p 1) 0 = true) (hfar : mtDiff (BitVec.ofNat 32 (u32 p 8)) (selBoundary d n) ≤ 8 * rateOf d n)
include htimed hfar

theorem judgeHaloOrient_onTime (hge : 0 ≤ mtDiff (blockOf (BitVec.ofNat 32 (u32 p 8))) (selBoundary d n)) : judgeHaloOrient d t none =
    haloAns (orientPending d p (blockOf (BitVec.ofNat 32 (u32 p 8)))) .ok (blockOf (BitVec.ofNat 32 (u32 p 8))) := by
  subst hp
  simp only [judgeHaloOrient, hm, hf.passes rfl, hn, ho, hr, htimed, if_neg (Int.not_lt.2 hfar), if_pos hge, Bool.not_true, Bool.or_false,
    Bool.false_eq_true, if_false]
  rfl

theorem judgeHaloOrient_late (hlt : mtDiff (blockOf (BitVec.ofNat 32 (u32 p 8))) (selBoundary d n) < 0) : judgeHaloOrient d t none =
    haloAns (orientPending d p (selBoundary d n)) .late (selBoundary d n) := by
  subst hp
  simp only [judgeHaloOrient, hm, hf.passes rfl, hn, ho, hr, htimed, if_neg (Int.not_lt.2 hfar), if_neg (Int.not_le.2 hlt), Bool.not_true,
    Bool.or_false, Bool.false_eq_true, if_false]
  rfl

end

end Sys2Proof.Machine

/-! The statement about convolution's and HALO's requests. -/

namespace Sys2Proof.Machine

/-- Settles O56: each request is judged as its rule says.  What a swap makes of the channels is said by `getMch_swapChans_extents`,
`getMch_swapChans_none_swapped` and `getMch_swapChans_not_mem`; `commitHold` has a lemma for each way a commit is taken.  Clauses that are
the model's choices: the domain of a commit and when it is judged (log entry 81), HALO_CFG where no HALO column is bound, and the block
from which a timed orientation applies (log entry 82). -/
theorem mantleRequestsTakeEffect : Obligations.MantleRequestsTakeEffect := by
  intro r s p d h halo
  refine ⟨?_, ?_, ?_, ?_, ?_, ?_⟩
  · rintro _ rfl hs hm hlen hbulk h17 h18 hok hbusy
    refine ⟨fun h16 => ?_, fun h16 h17 => ?_⟩
    · exact (reqRow_eq_reqRow1 h16 rfl).trans (reqRow1_fetches hs (judgeFirLoad_fetches rfl hm hlen hbulk (.inl ⟨h16, h17⟩) h18 hok hbusy))
    · exact (reqRow_eq_reqRow1 h16 rfl).trans (reqRow1_fetches hs (judgeFirLoad_fetches rfl hm hlen hbulk (.inr ⟨h16, h17⟩) h18 hok hbusy))
  · rintro _ rfl hs hm hlen cs named n hscope hflags hblocks hrest
    have hf : CommitFields p := ⟨hlen, hscope, hflags, hblocks, hrest⟩
    refine ⟨?_, ?_⟩
    · intro ho hc e
      refine ⟨reqRow1_granted hs (judgeFirCommit_atOnce rfl hm hf ho hc), fun hnodup k => ?_⟩
      obtain ⟨ha, hb⟩ := getMch_swapChans_extents (d := d) (fade := none) hnodup k
      refine ⟨ha, hb, fun hk => ?_, fun hk => ?_⟩
      · exact getMch_swapChans_none_swapped hnodup (List.contains_iff_mem.1 hk)
      · exact getMch_swapChans_not_mem (fun hmem => Bool.false_ne_true (hk.symm.trans (List.contains_iff_mem.2 hmem)))
    · intro ho mt timed htimed held
      have hjudge := judgeFirCommit_holds (d := d) rfl hm hf ho htimed
      refine ⟨fun k hk => ⟨fun hr => ?_, fun hr hc => ?_⟩, fun hk hc htwin => ⟨fun hr => ?_, fun hr => ?_⟩⟩
      · exact reqRow1_underWay hs (hjudge.trans (commitHold_runs hk hr))
      · exact reqRow1_underWay hs (hjudge.trans (commitHold_stopped hk hr hc))
      · exact reqRow1_granted hs (hjudge.trans (commitHold_ready hk hc htwin hr))
      · exact reqRow1_underWay hs (hjudge.trans (commitHold_unready hk hc hr))
  · rintro _ rfl hs mt
    refine ⟨fun hlen h0 => ?_, fun hlen h0 h1 hc h6 hin => ?_, fun hstop => ?_⟩
    · exact reqRow1_granted hs (judgeFirStatus_summary rfl hlen h0)
    · exact reqRow1_granted hs (judgeFirStatus_channels rfl hlen h0 h1 hc h6 hin)
    · have hsnap : firSnap d = firSnapOf d 0 := firSnap_stopped hstop
      simp only [mt, hsnap]
      exact ⟨rfl, rfl, rfl, u16_append_p16 .., rfl⟩
  · rintro _ rfl hs hm hlen h0 h1 hramp e
    have hrow : exec (.haloCfgSet r) s = reqRow1 .haloCfg judgeHaloSet r s := reqRow_eq_reqRow1 h0 rfl
    rw [hrow]
    refine ⟨fun n hn => ?_, fun hn => ?_, halo_applyHaloSet_none rfl⟩
    · exact reqRow1_changes hs (applyHaloSet_answers ..) (judgeHaloSet_commits rfl hm hlen h0 h1 hramp hn)
    · exact reqRow1_granted hs (judgeHaloSet_stores rfl hm hlen h0 h1 hramp hn)
  · rintro _ rfl hs hm hlen h0 hflags hlow hhigh n hn mt o S wait
    have hf : OrientFields p := ⟨hlen, hflags, hlow, hhigh⟩
    have hrow : exec (.haloCfgOrient r) s = reqRow1 .haloCfg judgeHaloOrient r s := reqRow_eq_reqRow1 h0 rfl
    rw [hrow]
    refine ⟨fun ho => ?_, fun ho hr => ⟨fun htimed => ?_, fun htimed hfar => ⟨fun hge => ?_, fun hlt => ?_⟩⟩⟩
    · exact reqRow1_granted hs (judgeHaloOrient_atOnce rfl hm hf hn ho)
    · exact reqRow1_granted hs (judgeHaloOrient_untimed rfl hm hf hn ho hr htimed)
    · exact reqRow1_granted hs (judgeHaloOrient_onTime rfl hm hf hn ho hr htimed hfar hge)
    · exact reqRow1_asJudged (w := true) hs (judgeHaloOrient_late rfl hm hf hn ho hr htimed hfar hlt)
  · rintro _ rfl hs hm hlen h0
    exact ⟨(reqRow_eq_reqRow1 h0 rfl).trans (reqRow1_granted hs (judgeHaloGet_ok rfl hm hlen h0)), length_haloBody ..⟩

end Sys2Proof.Machine

/-! The bridges, microphones and detectors of a device: what a change of one of them leaves. -/

namespace Sys2Proof.Machine

/-- Two changes that agree on an entry as it is make the same bank. -/
theorem tabMod_congr {α : Type} [Inhabited α] {t : Tab α} {i : Nat} {f g : α → α} (h : f (tabGet t i) = g (tabGet t i)) :
    tabMod t i f = tabMod t i g := congrArg (tabSet t i) h

section
variable {d : Dev} {i j : Nat}

/-! Bridges. -/

theorem brMod_congr {f g : Bridge → Bridge} (h : f (getBr d i) = g (getBr d i)) : brMod d i f = brMod d i g := by
  rw [brMod, tabMod_congr h]; rfl
@[simp] theorem getBr_brMod_same (f : Bridge → Bridge) : getBr (brMod d i f) i = f (getBr d i) := tabGet_tabMod_same ..
theorem getBr_brMod_ne (f : Bridge → Bridge) (h : j ≠ i) : getBr (brMod d i f) j = getBr d j := tabGet_tabMod_ne _ _ _ _ h
@[simp] theorem getBr_settle (d : Dev) (i : Nat) : getBr (settle d) i = getBr d i := by rw [getBr, settle_seam]; rfl

/-! Microphones. -/

theorem micMod_congr {f g : Mic → Mic} (h : f (getMic d i) = g (getMic d i)) : micMod d i f = micMod d i g := by
  rw [micMod, tabMod_congr h]; rfl
@[simp] theorem getMic_micMod_same (f : Mic → Mic) : getMic (micMod d i f) i = f (getMic d i) := tabGet_tabMod_same ..
theorem getMic_micMod_ne (f : Mic → Mic) (h : j ≠ i) : getMic (micMod d i f) j = getMic d j := tabGet_tabMod_ne _ _ _ _ h
@[simp] theorem getMic_settle (d : Dev) (i : Nat) : getMic (settle d) i = getMic d i := by rw [getMic, settle_mics]; rfl

/-! Detectors. -/

@[simp] theorem getDet_detMod_same (f : Det → Det) : getDet (detMod d i f) i = f (getDet d i) := tabGet_tabMod_same ..
@[simp] theorem getDet_settle (d : Dev) (i : Nat) : getDet (settle d) i = getDet d i := by rw [getDet, settle_mics]; rfl

end

end Sys2Proof.Machine

/-! Chapter 8 between boundaries: what each change of a bridge, a microphone or a detector makes, and where it makes none. -/

namespace Sys2Proof.Machine

/-! Bridges (R222–R225, R228).  No change is made while SEAM_CTRL.ENABLE is 0. -/

/-- A bridge's loop begun anew at its ends (R223). -/
abbrev bridgeInit (e : EndInfo × EndInfo) (l : Loop) : Loop :=
  loopInit l (targetPos e.1.count e.1.frac (deltaIn e.1.f)) (rhoNom e.1.f e.2.f)

section
variable {d : Dev} {i : Nat}

theorem bridgeLock_of (hon : seamOn d) (hs : (getBr d i).state = .acquire) (hfine : 64 ≤ (getBr d i).loop.fine)
    (hown : (getBr d i).follower = false) : bridgeLock d i = brMod d i (fun x =>
      { x with state := .track, gate := gateZero, loop := { x.loop with timeout := false, off := 0 } }) :=
  brMod_congr (if_pos ⟨hon, hs, hfine, by simp [hown]⟩)

theorem getBr_bridgeLock_of_not (h : ¬ seamOn d ∨ (getBr d i).state ≠ .acquire ∨ (getBr d i).loop.fine < 64 ∨ (getBr d i).follower = true) :
    getBr (bridgeLock d i) i = getBr d i := by
  refine (getBr_brMod_same _).trans (if_neg ?_)
  rintro ⟨hon, hs, hfine, hown⟩
  rcases h with h | h | h | h
  · exact h hon
  · exact h hs
  · omega
  · simp [h] at hown

theorem bridgeTimeout_of (hon : seamOn d) (hs : (getBr d i).state = .acquire) (hblocks : 2000 ≤ (getBr d i).loop.blocks)
    (hfine : (getBr d i).loop.fine < 64) (hown : (getBr d i).follower = false) : bridgeTimeout d i = brMod d i (fun x =>
      { x with loop := bridgeInit (bridgeEnds d i) { x.loop with timeout := true } }) :=
  brMod_congr (if_pos ⟨hon, hs, hblocks, hfine, by simp [hown]⟩)

theorem getBr_bridgeTimeout_off (h : ¬ seamOn d) : getBr (bridgeTimeout d i) i = getBr d i :=
  (getBr_brMod_same _).trans (if_neg fun hc => h hc.1)

/-- A bridge that has left its range: its output fades, and the exit is counted at it. -/
theorem getBr_bridgeRange_of (hon : seamOn d) (hs : (getBr d i).state = .track) (hoff : 64 ≤ (getBr d i).loop.off) :
    getBr (bridgeRange d i) i = { bridgeFade (getBr d i) (getBr d i).mt with
      state := .range, ranges := cInc (getBr d i).ranges, since := (getBr d i).mt } ∧
    ∀ j, j ≠ i → getBr (bridgeRange d i) j = getBr d j := by
  rw [bridgeRange, if_pos ⟨hon, hs, hoff⟩]
  simp only [getBr, evFault_seam]
  exact ⟨getBr_brMod_same _, fun j hj => getBr_brMod_ne _ hj⟩

theorem bridgeRange_of_not (h : ¬ seamOn d ∨ (getBr d i).state ≠ .track ∨ (getBr d i).loop.off < 64) : bridgeRange d i = d := by
  refine if_neg ?_
  rintro ⟨hon, hs, hoff⟩
  rcases h with h | h | h
  · exact h hon
  · exact h hs
  · omega

theorem getBr_bridgeExpiry_of (hon : seamOn d) (hs : (getBr d i).state = .range)
    (hsince : ((bridgeEnds d i).2.f : Int) ≤ mtDiff (getBr d i).mt (getBr d i).since) : getBr (bridgeExpiry d i) i =
      { getBr d i with state := .acquire, loop := bridgeInit (bridgeEnds d i) {} } :=
  (getBr_brMod_same _).trans (if_pos ⟨hon, hs, hsince⟩)

theorem getBr_bridgeExpiry_off (h : ¬ seamOn d) : getBr (bridgeExpiry d i) i = getBr d i :=
  (getBr_brMod_same _).trans (if_neg fun hc => h hc.1)

theorem getBr_bridgeEndsRender_of (hon : seamOn d) (hs : (getBr d i).state = .waiting) (hen : (getBr d i).cfg.enable = true)
    (hin : (bridgeEnds d i).1.rendering = true) (hout : (bridgeEnds d i).2.rendering = true) : getBr (bridgeEndsRender d i) i =
      bridgeStart (getBr d i) (bridgeEnds d i).1 (bridgeEnds d i).2 (getDom d (bridgeEnds d i).2.dom).dt (getBr d i).mt :=
  (getBr_brMod_same _).trans (if_pos ⟨hon, hs, hen, hin, hout⟩)

theorem getBr_bridgeEndsRender_off (h : ¬ seamOn d) : getBr (bridgeEndsRender d i) i = getBr d i :=
  (getBr_brMod_same _).trans (if_neg fun hc => h hc.1)

theorem bridgeStart_state (br : Bridge) (a o : EndInfo) (dt : DT) (b : MT) :
    (bridgeStart br a o dt b).state = if exactHolds a o then .exact else .acquire := by
  unfold bridgeStart
  split <;> rfl

end

/-! Microphones (R235). -/

/-- A microphone's loop begun anew at rate f (R235). -/
abbrev micInit (f : Nat) (m : Mic) (l : Loop) : Loop := loopInit l (micTarget m f) (micRho f)

section
variable {d : Dev} {i : Nat}

theorem micStarted_of (hs : (getMic d i).state = .start) (hbits : 62500 ≤ (getMic d i).bitsRun) (houts : 64 ≤ (getMic d i).outsRun) :
    micStarted d i = micMod d i (fun m => { m with state := .acquire, loop := micInit (rateIn d (getMic d i).cfg.domain) m {} }) :=
  micMod_congr (if_pos ⟨hs, hbits, houts⟩)

theorem getMic_micStarted_of_not (h : (getMic d i).state ≠ .start ∨ (getMic d i).bitsRun < 62500) :
    getMic (micStarted d i) i = getMic d i := by
  refine (getMic_micMod_same _).trans (if_neg ?_)
  rintro ⟨hs, hbits, -⟩
  rcases h with h | h
  · exact h hs
  · omega

theorem micLocked_of (hs : (getMic d i).state = .acquire) (hfine : 64 ≤ (getMic d i).loop.fine) : micLocked d i = micMod d i (fun m =>
    { m with state := .track, gate := gateZero, loop := { m.loop with timeout := false } }) :=
  micMod_congr (if_pos ⟨hs, hfine⟩)

theorem micTimeout_of (hs : (getMic d i).state = .acquire) (hblocks : 2000 ≤ (getMic d i).loop.blocks)
    (hfine : (getMic d i).loop.fine < 64) : micTimeout d i = micMod d i (fun m =>
      { m with loop := micInit (rateIn d (getMic d i).cfg.domain) m { m.loop with timeout := true } }) :=
  micMod_congr (if_pos ⟨hs, hblocks, hfine⟩)

/-- A microphone found stuck is marked, and no other. -/
theorem getMic_micStick_of (hsame : 65536 ≤ (getMic d i).same) (hnew : (getMic d i).stuck = false) (hclk : clkRuns d.mics.mic i = true) :
    getMic (micStick d i) i = { getMic d i with stuck := true } ∧ ∀ j, j ≠ i → getMic (micStick d i) j = getMic d j := by
  rw [micStick, if_pos ⟨hsame, by simp [hnew], hclk⟩]
  simp only [getMic, evFault_mics]
  exact ⟨getMic_micMod_same _, fun j hj => getMic_micMod_ne _ hj⟩

theorem micStick_of_not (h : (getMic d i).same < 65536 ∨ (getMic d i).stuck = true) : micStick d i = d := by
  refine if_neg ?_
  rintro ⟨hsame, hnew, -⟩
  rcases h with h | h
  · omega
  · simp [h] at hnew

/-! Detectors (R237). -/

theorem getDet_detEnd_cons {r : DetRun} {rest : List DetRun} (h : (getDet d i).ended = r :: rest) :
    getDet (detEnd d i) i = { getDet d i with
      ended := rest, res := detResult (getDet d i) (rateIn d (getMic d i).cfg.domain) r (getDet d i).res } := by
  rw [detEnd, getDet_detMod_same, h]

theorem getDet_detEnd_nil (h : (getDet d i).ended = []) : getDet (detEnd d i) i = getDet d i := by
  rw [detEnd, getDet_detMod_same, h]

end

/-! The rows of those changes. -/

section
variable (k : Fin 256) (m : Fin 8) (s : State)

theorem exec_bridgeAcquireLock : exec (.bridgeAcquireLock k) s = .next (after s (bridgeLock (quiet s) k.val)) := rfl
theorem exec_bridgeAcquireTimeout : exec (.bridgeAcquireTimeout k) s = .next (after s (bridgeTimeout (quiet s) k.val)) := rfl
theorem exec_bridgeRange : exec (.bridgeRange k) s = .next (after s (bridgeRange (quiet s) k.val)) := rfl
theorem exec_bridgeRangeExpiry : exec (.bridgeRangeExpiry k) s = .next (after s (bridgeExpiry (quiet s) k.val)) := rfl
theorem exec_bridgeEndsRendering : exec (.bridgeEndsRendering k) s = .next (after s (bridgeEndsRender (quiet s) k.val)) := rfl
theorem exec_micStartComplete : exec (.micStartComplete m) s = .next (after s (micStarted (quiet s) m.val)) := rfl
theorem exec_micLock : exec (.micLock m) s = .next (after s (micLocked (quiet s) m.val)) := rfl
theorem exec_micAcquireTimeout : exec (.micAcquireTimeout m) s = .next (after s (micTimeout (quiet s) m.val)) := rfl
theorem exec_micStuck : exec (.micStuck m) s = .next (after s (micStick (quiet s) m.val)) := rfl
theorem exec_detectorWindowEnd : exec (.detectorWindowEnd m) s = .next (after s (detEnd (quiet s) m.val)) := rfl

end

/-- While SEAM_CTRL.ENABLE is 0 no row between boundaries changes its bridge (R228). -/
theorem bridgeRow_off {k : Fin 256} {s : State} (hoff : ¬ seamOn (quiet s)) {row : Instr}
    (hrow : row = .bridgeAcquireLock k ∨ row = .bridgeAcquireTimeout k ∨ row = .bridgeRange k ∨ row = .bridgeRangeExpiry k ∨
      row = .bridgeEndsRendering k) : ∃ t, exec row s = .next t ∧ getBr t.dev k.val = getBr (quiet s) k.val := by
  rcases hrow with rfl | rfl | rfl | rfl | rfl
  · exact ⟨_, exec_bridgeAcquireLock k s, (getBr_settle ..).trans (getBr_bridgeLock_of_not (.inl hoff))⟩
  · exact ⟨_, exec_bridgeAcquireTimeout k s, (getBr_settle ..).trans (getBr_bridgeTimeout_off hoff)⟩
  · exact ⟨_, exec_bridgeRange k s, (getBr_settle ..).trans (congrArg (getBr · _) (bridgeRange_of_not (.inl hoff)))⟩
  · exact ⟨_, exec_bridgeRangeExpiry k s, (getBr_settle ..).trans (getBr_bridgeExpiry_off hoff)⟩
  · exact ⟨_, exec_bridgeEndsRendering k s, (getBr_settle ..).trans (getBr_bridgeEndsRender_off hoff)⟩

/-- Settles O47: each row is its change of the quiet device, settled; settling keeps the bridges, the microphones and the detectors. -/
theorem bridgesMicrophonesAndDetectorsAdvance : Obligations.BridgesMicrophonesAndDetectorsAdvance := by
  refine ⟨?_, ?_⟩
  · intro k s i x e put on
    refine ⟨fun hoff row => bridgeRow_off hoff, fun hon hs hfine hown => ?_, fun h => ?_, fun hon hs hblocks hfine hown => ?_,
      fun hon hs hoff => ?_, fun h => ?_, fun hon hs hsince => ?_, fun hon hs hen hin hout => ?_⟩
    · rw [exec_bridgeAcquireLock, bridgeLock_of (d := quiet s) (i := k.val) hon hs hfine hown]
    · exact ⟨_, exec_bridgeAcquireLock k s, (getBr_settle ..).trans (getBr_bridgeLock_of_not (.inr h))⟩
    · rw [exec_bridgeAcquireTimeout, bridgeTimeout_of (d := quiet s) (i := k.val) hon hs hblocks hfine hown]
    · obtain ⟨hleft, hothers⟩ := getBr_bridgeRange_of (d := quiet s) (i := i) hon hs hoff
      refine ⟨_, exec_bridgeRange k s, ?_, ?_, ?_, fun j hj => (getBr_settle ..).trans (hothers j hj)⟩
      all_goals exact congrArg _ ((getBr_settle ..).trans hleft)
    · rw [exec_bridgeRange, bridgeRange_of_not (d := quiet s) (i := k.val) (.inr h)]
    · have hback := (getBr_settle ..).trans (getBr_bridgeExpiry_of (d := quiet s) (i := i) hon hs hsince)
      exact ⟨_, exec_bridgeRangeExpiry k s, congrArg Bridge.state hback, (congrArg Bridge.ranges hback :)⟩
    · have hstart := (getBr_settle ..).trans (getBr_bridgeEndsRender_of (d := quiet s) (i := i) hon hs hen hin hout)
      refine ⟨_, exec_bridgeEndsRendering k s, hstart, (congrArg Bridge.state hstart).trans (bridgeStart_state ..), fun j hj => ?_⟩
      exact (getBr_settle ..).trans (getBr_brMod_ne _ hj)
  · intro k s i m f put
    refine ⟨fun hs hbits houts => ?_, fun h => ?_, fun hs hfine => ?_, fun hs hblocks hfine => ?_, fun hsame hnew hclk => ?_, fun h => ?_,
      fun r rest h => ?_, fun h => ?_⟩
    · rw [exec_micStartComplete, micStarted_of (d := quiet s) (i := k.val) hs hbits houts]
      rfl
    · exact ⟨_, exec_micStartComplete k s, (getMic_settle ..).trans (getMic_micStarted_of_not h)⟩
    · rw [exec_micLock, micLocked_of (d := quiet s) (i := k.val) hs hfine]
    · rw [exec_micAcquireTimeout, micTimeout_of (d := quiet s) (i := k.val) hs hblocks hfine]
      rfl
    · obtain ⟨hstuck, hothers⟩ := getMic_micStick_of (d := quiet s) (i := i) hsame hnew hclk
      exact ⟨_, exec_micStuck k s, (getMic_settle ..).trans hstuck, fun j hj => (getMic_settle ..).trans (hothers j hj)⟩
    · rw [exec_micStuck, micStick_of_not (d := quiet s) (i := k.val) h]
    · exact ⟨_, exec_detectorWindowEnd k s, (getDet_settle ..).trans (getDet_detEnd_cons h)⟩
    · exact ⟨_, exec_detectorWindowEnd k s, (getDet_settle ..).trans (getDet_detEnd_nil h)⟩

end Sys2Proof.Machine

/-! Requests of chapters 8 and 9, carried out: rows whose judgement ends in a shadow commit, in a change that may need a power domain, or in a
deposit; and fields in the midst of a reply. -/

namespace Sys2Proof.Machine

section
variable {s : State} {op : Op} {j : Judge1} {r : Req} (hs : served s (takes s op r))
include hs

theorem reqRow1_committed {d : Dev} {dom : Nat} (h : j (quiet s) (takes s op r) none = (d, .commit dom)) :
    reqRow1 op j r s = .next (committed s (takes s op r) d dom) := by rw [reqRow1_served hs, judged_commit h]

theorem reqRow1_changesPd {d : Dev} {body : List Byte} {dom pd : Nat} {needs : Bool} {f : Apply1}
    (hf : f (quiet s) (takes s op r) none = (d, .ok, body))
    (h : j (quiet s) (takes s op r) none = commitPd (quiet s) (takes s op r) dom pd needs f) :
    reqRow1 op j r s = .next (changesPd s (takes s op r) dom pd needs (powerPlan d) body) := by
  rw [reqRow1_served hs, judged_changesPd hf h]

/-- A region is the one thing a quiet device writes to the host. -/
theorem reqRow1_deposits {o : Nat} {bs : List Byte} (h : j (quiet s) (takes s op r) none = depositReply (quiet s) (takes s op r) o bs) :
    reqRow1 op j r s = .next (granted s (takes s op r) { quiet s with hostWrites := [(u64 r.payload o, bs)] }
      (zeros 3 ++ p32 (crc32c bs).toNat) true) := by
  rw [reqRow1_served hs, judged_ok h]
  rfl

end

/-! Fields with others after them. -/

theorem slice_append_append (x y z : List Byte) : slice (x ++ (y ++ z)) x.length y.length = y := by simp [slice]

theorem u16_append_p16_append (x : List Byte) (v : Nat) (y : List Byte) : u16 (x ++ (p16 v ++ y)) x.length = v % 65536 := by
  have hfield := slice_append_append x (p16 v) y
  rw [p16, length_leBytes] at hfield
  rw [u16, p16, hfield]
  exact leNat_leBytes 2 v

theorem u32_append_p32_append (x : List Byte) (v : Nat) (y : List Byte) : u32 (x ++ (p32 v ++ y)) x.length = v % 2 ^ 32 := by
  have hfield := slice_append_append x (p32 v) y
  rw [p32, length_leBytes] at hfield
  rw [u32, p32, hfield]
  exact leNat_leBytes 4 v

end Sys2Proof.Machine

/-! Chapter 8's requests judged: what each rule answers where nothing refuses the request. -/

namespace Sys2Proof.Machine

/-! SEAM_CFG (R226, R227). -/

/-- What R226 asks of the fields of a SEAM_CFG SET. -/
structure SeamFields (p : List Byte) : Prop where
  long : 12 ≤ p.length
  bridge : u16 p 0 ≤ 255
  action : u8 p 2 = 0
  flags : u8 p 3 ≤ 1
  kindLow : 1 ≤ (seamCfgOf p).kind
  kindHigh : (seamCfgOf p).kind ≤ 7
  outDom : (seamCfgOf p).outDom ≤ 2
  rest : isZero p 9 3 = true
  source : srcRange (seamSrc (seamCfgOf p)) = true

/-- What R226 asks of the two ends: the source is of a domain n that is not the output's, at a ratio a bridge takes; on a pair it is no
microphone. -/
structure SeamEnds (d : Dev) (p : List Byte) (n : Nat) : Prop where
  inDom : srcDom (storedView d) (seamSrc (seamCfgOf p)) = some n
  differs : n ≠ (seamCfgOf p).outDom
  ratio : ratioOk (rateOf (storedView d) n) (rateOf (storedView d) (seamCfgOf p).outDom) = true
  pair : mode d = .twin → (seamCfgOf p).kind ≠ 7

/-- A change of a bridge gives it its configuration. -/
theorem bridgeSet_cfg (x : Bridge) (c : SeamCfg) (same : Bool) (b : MT) : (bridgeSet x c same b).cfg = c := by
  unfold bridgeSet
  extract_lets y
  split
  · assumption
  · (repeat' split) <;> rfl

section
variable {d : Dev} {t : Taken} {p : List Byte} (hp : t.req.payload = p)
include hp

theorem getBr_applySeam_same (b : Option MT) : (getBr (applySeam d t b).1 (u16 p 0)).cfg = seamCfgOf p := by
  subst hp
  exact (congrArg Bridge.cfg (getBr_brMod_same _)).trans (bridgeSet_cfg ..)

theorem getBr_applySeam_ne (b : Option MT) {k : Nat} (hk : k ≠ u16 p 0) : getBr (applySeam d t b).1 k = getBr d k := by
  subst hp
  exact getBr_brMod_ne _ hk

omit hp in
theorem applySeam_answers (d : Dev) (t : Taken) :
    applySeam d t none = ((applySeam d t none).1, .ok, seamBody (applySeam d t none).1 (u16 t.req.payload 0) 0) := rfl

theorem judgeSeamGet_ok (hlen : 3 ≤ p.length) (hi : u16 p 0 ≤ 255) (h2 : u8 p 2 = 1) : judgeSeamGet d t none =
    (d, .now .ok (seamBody d (u16 p 0) (mtOf d (effDom d (getBr d (u16 p 0)).cfg.outDom)))) := by
  subst hp
  rw [judgeSeamGet, if_neg (by simp [longEnough_of_le hlen, hi, h2])]
  rfl

variable {n : Nat} (hm : inModes t modes5 = true) (hf : SeamFields p) (he : SeamEnds d p n)
include hm hf he

/-- A SEAM_CFG SET that no rule refuses: SINGLE_RATE stores it, elsewhere it is a change of the output domain. -/
theorem judgeSeamSet_passes : judgeSeamSet d t none =
    if tMode t == .singleRate then
      let e : Dev := { d with seam := { d.seam with stored := tabSet d.seam.stored (u16 p 0) (seamCfgOf p) } }
      ansB e .ok (seamBody e (u16 p 0) 0)
    else commitOr d t (if (getBr d (u16 p 0)).cfg.enable then (getBr d (u16 p 0)).cfg.outDom else (seamCfgOf p).outDom) applySeam := by
  subst hp
  obtain ⟨hlen, hi, h2, h3, hlow, hhigh, hout, hz, hsrc⟩ := hf
  obtain ⟨hn, hne, hratio, htwin⟩ := he
  have hends : (n == (seamCfgOf t.req.payload).outDom ||
      !ratioOk (rateOf (storedView d) n) (rateOf (storedView d) (seamCfgOf t.req.payload).outDom)) = false := by simp [hne, hratio]
  have hpair : (mode d == .twin && (seamCfgOf t.req.payload).kind == 7) = false := by simpa using htwin
  rw [judgeSeamSet, if_neg (by simp [longEnough_of_le hlen, hi, h2]), if_neg (by simp [hm]), if_neg]
  · simp only [hn, hends, hpair, Bool.false_eq_true, if_false]
  · simpa [h3, hhigh, hout, hsrc, Nat.ne_of_gt hlow, isZero] using hz

end

/-! MIC_CFG (R236). -/

/-- A change of a microphone gives it its configuration. -/
theorem micSet_cfg (m : Mic) (c : MicCfg) (f : Nat) (b : MT) (atOnce : Bool) : (micSet m c f b atOnce).cfg = c := by
  unfold micSet
  dsimp only
  (repeat' split) <;> rfl

@[simp] theorem getMic_powerPlan (d : Dev) (i : Nat) : getMic (powerPlan d) i = getMic d i := rfl
@[simp] theorem getMic_countClamps (d : Dev) (cs : List Int) (i : Nat) : getMic (countClamps d cs) i = getMic d i := rfl

section
variable {d : Dev} {t : Taken} {p : List Byte} (hp : t.req.payload = p)
include hp

/-- Outside SINGLE_RATE a microphone takes its configuration as it is (R77). -/
theorem getMic_applyMic_same (b : Option MT) (hpath : pathMode d ≠ .singleRate) : (getMic (applyMic d t b).1 (u8 p 0)).cfg = micCfgOf p := by
  subst hp
  have hown : (pathMode d == .singleRate) = false := beq_false_of_ne hpath
  simp only [applyMic, hown, Bool.false_and, Bool.false_eq_true, if_false, getMic_powerPlan, getMic_micMod_same, micSet_cfg]

theorem getMic_applyMic_ne (b : Option MT) {k : Nat} (hk : k ≠ u8 p 0) : getMic (applyMic d t b).1 k = getMic d k := by
  subst hp
  simp only [applyMic, getMic_powerPlan, getMic_micMod_ne _ hk, getMic_countClamps]

theorem judgeMicSet_commits (hlen : 8 ≤ p.length) (hi : u8 p 0 ≤ 7) (h1 : u8 p 1 = 0) (hm : inModes t modes5 = true)
    (hdom : (micCfgOf p).domain ≤ 2) (hsingle : tMode t = .singleRate → (micCfgOf p).domain = 0) (h3 : u8 p 3 ≤ 3)
    (hfrac : (micCfgOf p).frac ≤ 63)
    (hkeep : (getMic d (u8 p 0)).cfg.enable = true → (micCfgOf p).domain = effDom d (getMic d (u8 p 0)).cfg.domain) :
    judgeMicSet d t none = commitPd d t (micCfgOf p).domain 6 (micCfgOf p).enable applyMic := by
  subst hp
  rw [judgeMicSet, if_neg (by simp [longEnough_of_le hlen, hi, h1]), if_neg (by simp [hm]), if_neg, if_neg]
  · simpa using hkeep
  · simpa [hdom, h3, hfrac, Nat.not_lt.2] using hsingle

theorem judgeMicGet_ok (hlen : 2 ≤ p.length) (hi : u8 p 0 ≤ 7) (h1 : u8 p 1 = 1) : judgeMicGet d t none =
    (d, .now .ok (micBody d (u8 p 0) (mtOf d (effDom d (getMic d (u8 p 0)).cfg.domain)))) := by
  subst hp
  rw [judgeMicGet, if_neg (by simp [longEnough_of_le hlen, hi, h1])]
  rfl

end

/-! TONE_DET_CFG (R238). -/

/-- What R238 asks of the fields of a TONE_DET_CFG SET at rate f. -/
structure DetFields (p : List Byte) (f : Nat) : Prop where
  long : 16 ≤ p.length
  mic : u8 p 0 ≤ 7
  action : u8 p 1 = 0
  flags : u8 p 2 ≤ 3
  rest : u8 p 3 = 0
  freqLow : 1000 ≤ u32 p 4
  freqHigh : u32 p 4 ≤ 450 * f
  lenLow : 16 ≤ u32 p 8
  lenHigh : u32 p 8 ≤ 65536
  timed : bit (u8 p 2) 1 = true → u32 p 12 % 16 = 0

theorem DetFields.passes {p : List Byte} {f : Nat} (hf : DetFields p f) :
    (decide (3 < u8 p 2) || u8 p 3 != 0 || decide (u32 p 4 < 1000) || decide (450 * f < u32 p 4) || decide (u32 p 8 < 16) ||
      decide (65536 < u32 p 8) || (bit (u8 p 2) 1 && u32 p 12 % 16 != 0)) = false := by
  obtain ⟨-, -, -, h2, h3, hlow, hhigh, hmin, hmax, htimed⟩ := hf
  simpa [h2, h3, hlow, hhigh, hmin, hmax, Nat.not_lt.2] using htimed

section
variable {d : Dev} {t : Taken} {p : List Byte} (hp : t.req.payload = p) (hen : (getMic d (u8 p 0)).cfg.enable = true)
include hp hen

/-- A detector set at once waits for the next boundary of its microphone's domain. -/
theorem applyDet_none : applyDet d t none =
    let e := detMod d (u8 p 0) (fun x => detSet x p (nextMt (mtOf d (effDom d (getMic d (u8 p 0)).cfg.domain))) false)
    (e, .ok, detReply (getDet e (u8 p 0))) := by
  subst hp
  rw [applyDet, if_neg (by simp [hen])]
  rfl

theorem judgeDetStop_ok (hlen : 2 ≤ p.length) (hi : u8 p 0 ≤ 7) (h1 : u8 p 1 = 1) (hm : inModes t modes5 = true) : judgeDetStop d t none =
    let e := detMod d (u8 p 0) (fun x => { x with stopping := true })
    (e, .now .ok (detReply (getDet e (u8 p 0)))) := by
  subst hp
  rw [judgeDetStop, if_neg (by simp [longEnough_of_le hlen, hi, h1]), if_neg (by simp [hm]), if_neg (by simp [hen])]
  rfl

theorem judgeDetGet_ok (hlen : 2 ≤ p.length) (hi : u8 p 0 ≤ 7) (h1 : u8 p 1 = 2) :
    judgeDetGet d t none = (d, .now .ok (detReply (getDet d (u8 p 0)))) := by
  subst hp
  rw [judgeDetGet, if_neg (by simp [longEnough_of_le hlen, hi, h1]), if_neg (by simp [hen])]
  rfl

variable (hm : inModes t modes5 = true) (hf : DetFields p (rateOf d (effDom d (getMic d (u8 p 0)).cfg.domain)))
include hm hf

/-- A SET in CONFIG or of no given time is a change of the microphone's domain. -/
theorem judgeDetSet_commits (hnow : atOnceMode t = true ∨ bit (u8 p 2) 1 = false) :
    judgeDetSet d t none = commitOr d t (effDom d (getMic d (u8 p 0)).cfg.domain) applyDet := by
  subst hp
  rw [judgeDetSet, if_neg (by simp [longEnough_of_le hf.long, hf.mic, hf.action]), if_neg (by simp [hm]), if_neg (by simp [hf.passes]),
    if_neg (by simp [hen]), if_pos (by simpa using hnow)]

/-- A SET elsewhere that names its window's start: a boundary that has passed gives way to the one that is next. -/
theorem judgeDetSet_timed (ho : atOnceMode t = false) (hb : bit (u8 p 2) 1 = true) :
    let n := effDom d (getMic d (u8 p 0)).cfg.domain
    let t0 : MT := BitVec.ofNat 32 (u32 p 12)
    let late := decide (mtDiff t0 (selBoundary d n) < 0)
    let e := detMod d (u8 p 0) (fun x => detSet x p (if late then selBoundary d n else t0) late)
    mtDiff t0 (selBoundary d n) ≤ 8 * rateOf d n →
      judgeDetSet d t none = (e, .now (if late then .late else .ok) (detReply (getDet e (u8 p 0)))) := by
  subst hp
  intro n t0 late e hfar
  rw [judgeDetSet, if_neg (by simp [longEnough_of_le hf.long, hf.mic, hf.action]), if_neg (by simp [hm]), if_neg (by simp [hf.passes]),
    if_neg (by simp [hen]), if_neg (by simpa [ho] using hb), if_neg (Int.not_lt.2 hfar)]
  rfl

end

end Sys2Proof.Machine

/-! Chapter 9's requests judged: what each rule answers where nothing refuses the request. -/

namespace Sys2Proof.Machine

/-! CAL_START (R244, R248, R250). -/

theorem inModes_of_calibrate {t : Taken} {ms : List Mode} (hm : tMode t = .calibrate) (h : ms.contains .calibrate = true) :
    inModes t ms = true := by rw [inModes, hm, h]

section
variable {d : Dev} {t : Taken} {p : List Byte} (hp : t.req.payload = p)
include hp

theorem judgeMeasure_commits (hlen : 36 ≤ p.length) (h0 : u8 p 0 = 0) (hm : tMode t = .calibrate) (hok : measureBad d p = false)
    (hresp : (calCfgOf d p).spks.length * (calCfgOf d p).mics.length * (calCfgOf d p).irTaps ≤ 6291456)
    (hcap : (calCfgOf d p).mics.length * capLen (calCfgOf d p) ≤ 2097152)
    (htrack : ∀ k, k ∈ (calCfgOf d p).mics → (getMic d k).state = .track) (hbusy : measuring d = false) :
    judgeMeasure d t none = (d, .commit ((layDom d).getD 0)) := by
  subst hp
  have hmodes : inModes t [.calibrate] = true := inModes_of_calibrate hm rfl
  rw [judgeMeasure, if_neg (by simp [hmodes]), if_neg (by simp [longEnough_of_le hlen, h0, hok]), if_neg, if_neg]
  · simpa [hbusy] using htrack
  · simpa [Nat.not_lt.2] using And.intro hresp hcap

/-- ABORT cancels a MEASURE that is held, and ends the one that runs (R250). -/
theorem judgeAbort_ok (hlen : 1 ≤ p.length) (h0 : u8 p 0 = 2) (hm : inModes t [.calibrate, .service, .twin] = true) :
    judgeAbort d t none = (calAbort (cancelWhere d (fun x => x.op == .calStart && u8 x.req.payload 0 == 0)), .now .ok []) := by
  subst hp
  rw [judgeAbort, if_neg (by simp [hm]), if_neg (by simp [longEnough_of_le hlen, h0])]
  rfl

end

@[simp] theorem evCalDone_cal (d : Dev) (st : Status) (n : Nat) (mt : MT) (k : Nat) : (evCalDone d st n mt k).cal = d.cal :=
  (event_same ..).cal

theorem calStop_run (d : Dev) : (calStop d).cal.run = none := by
  unfold calStop
  split
  · assumption
  · rfl

/-- A measurement's end is reported once. -/
theorem calReport_cal (d : Dev) : (calReport d).cal = { d.cal with ended := none } := by
  unfold calReport
  split
  · next h => rw [← h]
  · exact evCalDone_cal ..

theorem calAbort_run (d : Dev) : (calAbort d).cal.run = none := by
  rw [calAbort, calReport_cal]
  exact calStop_run d
theorem calAbort_ended (d : Dev) : (calAbort d).cal.ended = none := by rw [calAbort, calReport_cal]

/-! DESIGN (R248). -/

@[simp] theorem length_designOf (c : DesignCfg) (f m : Nat) (ps : List F32) : (designOf c f m ps).length = c.taps := by
  simp [designOf, designTaps, tailWindow]

/-- Choices that agree on a list's members make the same list.  (The model's files do without Mathlib, and so do these.) -/
theorem filterMap_eq_of_mem {α β : Type} {f g : α → Option β} {l : List α} (h : ∀ a, a ∈ l → f a = g a) : l.filterMap f = l.filterMap g := by
  induction l with
  | nil => rfl
  | cons a l ih =>
    obtain ⟨ha, hl⟩ := List.forall_mem_cons.1 h
    rw [List.filterMap_cons, List.filterMap_cons, ha, ih hl]

/-- The speakers a design takes, each with its channel and the extent its taps go to. -/
def designExts (d : Dev) (ss : List Nat) : List (Nat × Nat × Extent) := ss.filterMap (fun s => (spkExtent d s).map (fun e => (s, e)))

/-- Those with the smoothed powers of their responses. -/
def designPows (d : Dev) (c : DesignCfg) (ss : List Nat) : List (Nat × Nat × Nat × List F32) :=
  (designExts d ss).filterMap (fun x => (spkPowers d c x.1).map (fun q => (x.1, x.2.1, q)))

/-- The channels a design loads, with their taps. -/
def designRecs (d : Dev) (c : DesignCfg) (f : Nat) (ss : List Nat) : List (Nat × List F32) :=
  (designPows d c ss).map (fun x => (x.2.1, designOf c f x.2.2.1 x.2.2.2))

/-- What R248 asks of a speaker: responses, and an inactive extent of its own that holds the taps, whose channel neither crossfades nor
waits for a commit. -/
structure Designable (d : Dev) (c : DesignCfg) (s : Nat) (m : Nat) (e : Extent) : Prop where
  powers : (spkPowers d c s).isSome = true
  extent : spkExtent d s = some (m, e)
  room : c.taps ≤ e.lam
  still : fading (getMch d m) = false
  free : heldCommit d m = false

section
variable {d : Dev} {c : DesignCfg} {ss : List Nat} (hss : ∀ s, s ∈ ss → ∃ m e, Designable d c s m e)
include hss

omit hss in
theorem mem_designExts {x : Nat × Nat × Extent} : x ∈ designExts d ss ↔ x.1 ∈ ss ∧ spkExtent d x.1 = some x.2 := by
  obtain ⟨s, x⟩ := x
  simp [designExts]

/-- Every speaker of such a design is one that it can be made for. -/
theorem designable_of_mem_designExts {x : Nat × Nat × Extent} (hx : x ∈ designExts d ss) : Designable d c x.1 x.2.1 x.2.2 := by
  obtain ⟨s, y⟩ := x
  obtain ⟨hmem, hext⟩ := mem_designExts.1 hx
  obtain ⟨m, e, h⟩ := hss s hmem
  obtain rfl : y = (m, e) := Option.some.inj (hext.symm.trans h.extent)
  exact h

theorem map_fst_designRecs (f : Nat) : (designRecs d c f ss).map Prod.fst = ss.filterMap (fun s => (spkExtent d s).map Prod.fst) := by
  simp only [designRecs, designPows, designExts, List.map_filterMap, List.filterMap_filterMap]
  refine filterMap_eq_of_mem fun s hs => ?_
  obtain ⟨m, e, h⟩ := hss s hs
  obtain ⟨q, hq⟩ := Option.isSome_iff_exists.1 h.powers
  simp [h.extent, hq]

omit hss in
theorem length_of_mem_designRecs {f : Nat} {x : Nat × List F32} (hx : x ∈ designRecs d c f ss) : x.2.length = c.taps := by
  obtain ⟨y, -, rfl⟩ := List.mem_map.1 hx
  exact length_designOf ..

variable {t : Taken} {p : List Byte} (hp : t.req.payload = p) (hc : c = designCfgOf p) (hspk : ss = designSpks d (u16 p 2) (u16 p 4))
include hp hc hspk

/-- A DESIGN that no rule refuses keeps its taps and begins their load. -/
theorem judgeDesign_loads (hlen : 28 ≤ p.length) (h0 : u8 p 0 = 1) (hm : tMode t = .calibrate) (hok : designBad d p = false)
    (hsome : ss ≠ []) (hbusy : firBusy d = false) :
    let f := rateOf d ((layDom d).getD 0)
    let curves (x : Cal) := (designPows d c ss).foldl (fun t q => tabSet t q.1 (curveOf q.2.2.1 f q.2.2.2)) x.curves
    judgeDesign d t none = (beginLoad (calMod d (fun x => { x with designPend := some (c, curves x), design := designRecs d c f ss })) (some t)
      (designRecs d c f ss), .done) := by
  subst hp hc
  have hmodes : inModes t [.calibrate] = true := inModes_of_calibrate hm rfl
  have hfound : ss.find? (fun s => (spkExtent d s).isNone || (spkPowers d (designCfgOf t.req.payload) s).isNone) = none := by
    refine List.find?_eq_none.2 fun s hs => ?_
    obtain ⟨m, e, h⟩ := hss s hs
    simp [h.extent, Option.isNone_iff_eq_none, Option.isSome_iff_ne_none.1 h.powers]
  have hroom : (designExts d ss).find? (fun x => decide (x.2.2.lam < (designCfgOf t.req.payload).taps)) = none :=
    List.find?_eq_none.2 fun x hx => by simpa using (designable_of_mem_designExts hss hx).room
  have hfree : (designExts d ss).find? (fun x => fading (getMch d x.2.1) || heldCommit d x.2.1) = none := by
    refine List.find?_eq_none.2 fun x hx => ?_
    have h := designable_of_mem_designExts hss hx
    simp [h.still, h.free]
  have hany : ss.isEmpty = false := by simpa using hsome
  subst hspk
  rw [judgeDesign, if_neg (by simp [hmodes]), if_neg (by simp [longEnough_of_le hlen, h0, hok]), if_neg (by simp [hany])]
  simp only [designExts] at hroom hfree
  simp only [hfound, hroom, hfree, hbusy, Bool.false_eq_true, if_false]
  rfl

end

theorem beginLoad_load (d : Dev) (asked : Option Taken) (rs : List (Nat × List F32)) :
    (beginLoad d asked rs).mantle.load = some { asked := asked, chans := rs.map Prod.fst } := rfl

/-! CAL_RESULT (R249). -/

section
variable {d : Dev} {t : Taken} {p : List Byte} (hp : t.req.payload = p) (hm : inModes t [.calibrate, .service, .twin] = true)
  (h1 : u8 p 1 = 0) (h6 : u8 p 6 ≤ 7)
include hp hm h1 h6

theorem judgeCalResult_summary (hlen : 7 ≤ p.length) (h0 : u8 p 0 = 0) (h4 : u16 p 4 = 1) (hspk : u16 p 2 < nSpeakers)
    (hkept : d.cal.skipped.contains (u16 p 2) = false) (hresp : (tabGet d.cal.resp (pairIx (u16 p 2) (u8 p 6))).h ≠ []) :
    judgeCalResult d t none = (d, .now .ok
      (p8 (b2n (tabGet d.cal.resp (pairIx (u16 p 2) (u8 p 6))).disturbed) ++ s16 (tabGet d.cal.resp (pairIx (u16 p 2) (u8 p 6))).peakLevel ++
        p32 (tabGet d.cal.resp (pairIx (u16 p 2) (u8 p 6))).peak ++ p32 (tabGet d.cal.resp (pairIx (u16 p 2) (u8 p 6))).onset ++
        s16 (tabGet d.cal.resp (pairIx (u16 p 2) (u8 p 6))).noise ++ zeros 2)) := by
  subst hp
  rw [judgeCalResult, if_neg (by simp [hm]), if_neg (by simp [longEnough_of_le hlen, h0, h1, h6]), if_pos h0,
    if_neg (by simp [h4, hspk]), if_neg (by simpa using hkept), if_neg (by simp [hresp])]
  rfl

theorem judgeCalResult_deposits (hlen : 24 ≤ p.length) (hbulk : t.req.bulk = true) (hok : bulkOk (bulkRef p 8) = true) (h0 : u8 p 0 = 1)
    (h4 : 1 ≤ u16 p 4) (hspk : u16 p 2 + u16 p 4 ≤ nSpeakers) {bs : List Byte}
    (hresp : ∀ k, k < u16 p 4 → (tabGet d.cal.resp (pairIx (u16 p 2 + k) (u8 p 6))).h ≠ [])
    (hbs : bs = (List.range (u16 p 4)).flatMap (fun k =>
      (tabGet d.cal.resp (pairIx (u16 p 2 + k) (u8 p 6))).h.flatMap (fun v => p32 v.toNat)))
    (hsize : bs.length = (bulkRef p 8).2.1) : judgeCalResult d t none = depositReply d t 8 bs := by
  subst hp
  have hlen7 : 7 ≤ t.req.payload.length := by omega
  have hdata : u8 t.req.payload 0 ≠ 0 := by omega
  rw [judgeCalResult, if_neg (by simp [hm]), if_neg (by simp [longEnough_of_le hlen7, h0, h1, h6]), if_neg hdata,
    if_neg (by simp [longEnough_of_le hlen, hbulk, hok]), if_pos h0, if_neg (by simp [hspk, Nat.ne_of_gt h4]), if_neg]
  · simp only [List.flatMap_map, ← hbs]
    exact if_neg (fun h => h hsize)
  · simpa using hresp

end

/-! TRACK_CFG (R253). -/

/-- What R253 asks of the fields of a TRACK_CFG SET. -/
structure TrackFields (d : Dev) (p : List Byte) : Prop where
  long : 12 ≤ p.length
  action : u8 p 0 = 0
  flags : u8 p 1 ≤ 7
  spks : spksIn d (trackCfgOf p).spkFirst (trackCfgOf p).spkCount = true
  mics : micsBound d (trackCfgOf p).mics = true
  rest : u8 p 7 = 0
  windowLow : 1000 ≤ (trackCfgOf p).windowMs
  windowHigh : (trackCfgOf p).windowMs ≤ 60000
  thresholdLow : 50 ≤ (trackCfgOf p).threshold
  thresholdHigh : (trackCfgOf p).threshold ≤ 1200

/-- The reply to TRACK_CFG GET. -/
def trackGetBody (k : Track) : List Byte :=
  p8 (b2n k.cfg.enable + 2 * b2n k.cfg.propose + 4 * b2n k.cfg.post) ++ p16 k.cfg.spkFirst ++ p16 k.cfg.spkCount ++ p8 k.cfg.mics ++ zeros 1 ++
    p16 k.cfg.windowMs ++ p16 k.cfg.threshold ++ p16 k.group ++ p32 k.skip.toNat

theorem length_trackGetBody (k : Track) : (trackGetBody k).length = 17 := by
  simp [trackGetBody, p8, p16, p32, zeros]

theorem trackGetBody_spkFirst (k : Track) : u16 (trackGetBody k) 1 = k.cfg.spkFirst % 65536 := by
  simp only [trackGetBody, List.append_assoc]
  exact u16_append_p16_append (p8 _) ..

theorem trackGetBody_threshold (k : Track) : u16 (trackGetBody k) 9 = k.cfg.threshold % 65536 := by
  rw [trackGetBody, List.append_assoc, List.append_assoc]
  exact u16_append_p16_append (p8 _ ++ p16 _ ++ p16 _ ++ p8 _ ++ zeros 1 ++ p16 _) ..

/-- The reply to TRACK_CFG READ: a speaker's report, and whether it has a proposal. -/
def trackReadBody (proposed : Bool) (q : TrackRep) : List Byte :=
  p8 (b2n q.incomplete + 2 * b2n proposed) ++ p16 q.valid ++ p32 q.mt.toNat ++
    (List.range 10).flatMap (fun i => s16 (clampI (-32768) 32767 (q.dev.getD i 0))) ++ s32 q.delay

theorem trackReadBody_valid (b : Bool) (q : TrackRep) : u16 (trackReadBody b q) 1 = q.valid % 65536 := by
  simp only [trackReadBody, List.append_assoc]
  exact u16_append_p16_append (p8 _) ..

theorem trackReadBody_mt (b : Bool) (q : TrackRep) : u32 (trackReadBody b q) 3 = q.mt.toNat := by
  rw [trackReadBody, List.append_assoc, List.append_assoc]
  exact (u32_append_p32_append (p8 _ ++ p16 _) ..).trans (Nat.mod_eq_of_lt q.mt.isLt)

section
variable {d : Dev} {t : Taken} {p : List Byte} (hp : t.req.payload = p)
include hp

/-- A SET that no rule refuses begins the rotation anew. -/
theorem judgeTrackSet_ok (hm : inModes t [.service, .twin] = true) (hf : TrackFields d p)
    (hdesign : (trackCfgOf p).propose = true → d.cal.lastDesign ≠ none) :
    judgeTrackSet d t none = (trackRestart (trackMod d (fun x => { x with cfg := trackCfgOf p })), .now .ok []) := by
  subst hp
  obtain ⟨hlen, h0, h1, hspks, hmics, h7, hwlow, hwhigh, htlow, hthigh⟩ := hf
  rw [judgeTrackSet, if_neg (by simp [hm]),
    if_neg (by simp [longEnough_of_le hlen, h0, h1, hspks, hmics, h7, hwlow, hwhigh, htlow, hthigh]), if_neg]
  · rfl
  · simpa using hdesign

theorem judgeTrackGet_ok (hlen : 1 ≤ p.length) (h0 : u8 p 0 = 1) : judgeTrackGet d t none = (d, .now .ok (trackGetBody d.track)) := by
  subst hp
  rw [judgeTrackGet, if_neg (by simp [longEnough_of_le hlen, h0])]
  rfl

theorem judgeTrackRead_ok {q : TrackRep} (hlen : 4 ≤ p.length) (h0 : u8 p 0 = 2) (hspk : u16 p 2 < nSpeakers)
    (hq : tabGet d.track.reps (u16 p 2) = some q) :
    judgeTrackRead d t none = (d, .now .ok (trackReadBody (tabGet d.track.props (u16 p 2)).isSome q)) := by
  subst hp
  rw [judgeTrackRead, if_neg (by simp [longEnough_of_le hlen, h0, hspk]), hq]
  rfl

end

/-! TRACK_PROPOSAL (R255). -/

/-- The bit map of a LIST: bit k says whether speaker k has a proposal. -/
def proposalMap (t : Tab (Option Proposal)) : List Byte :=
  (List.range 64).map (fun i => BitVec.ofNat 8 (bitSum (fun j => (tabGet t (8 * i + j)).isSome) 8))

theorem length_proposalMap (t : Tab (Option Proposal)) : (proposalMap t).length = 64 := by simp [proposalMap]

theorem proposalMap_bit (t : Tab (Option Proposal)) {k : Nat} (hk : k < 512) :
    ((proposalMap t).getD (k / 8) 0).getLsbD (k % 8) = (tabGet t k).isSome := by
  have hbyte : k / 8 < 64 := by omega
  have hbit : k % 8 < 8 := Nat.mod_lt _ (by decide)
  have hk' : 8 * (k / 8) + k % 8 = k := Nat.div_add_mod k 8
  have hget : (proposalMap t).getD (k / 8) 0 = BitVec.ofNat 8 (bitSum (fun j => (tabGet t (8 * (k / 8) + j)).isSome) 8) := by
    simp [proposalMap, List.getD_eq_getElem?_getD, hbyte]
  rw [hget, BitVec.getLsbD_ofNat, testBit_bitSum]
  simp [hbit, hk']

section
variable {d : Dev} {t : Taken} {p : List Byte} (hp : t.req.payload = p) (h1 : u8 p 1 = 0)
include hp h1

theorem judgePropList_deposits (hlen : 24 ≤ p.length) (h0 : u8 p 0 = 0) (hbulk : t.req.bulk = true) (hok : bulkOk (bulkRef p 8) = true)
    (hsize : 64 ≤ (bulkRef p 8).2.1) : judgePropList d t none = depositReply d t 8 (proposalMap d.track.props) := by
  subst hp
  rw [judgePropList, if_neg (by simp [longEnough_of_le hlen, h0, h1, depositOk, hbulk, hok, hsize])]
  rfl

theorem judgePropRead_deposits {q : Proposal} {bs : List Byte} (hlen : 24 ≤ p.length) (h0 : u8 p 0 = 1) (hbulk : t.req.bulk = true)
    (hok : bulkOk (bulkRef p 8) = true) (hspk : u16 p 2 < nSpeakers) (hq : tabGet d.track.props (u16 p 2) = some q)
    (hbs : bs = firRegion [((spkChan d (u16 p 2)).getD 0xFFFF, proposalTaps d (u16 p 2) q)]) (hsize : bs.length ≤ (bulkRef p 8).2.1) :
    judgePropRead d t none = depositReply d t 8 bs := by
  subst hp
  rw [judgePropRead, if_neg (by simp [longEnough_of_le hlen, h0, h1, hspk, hbulk, hok]), hq]
  simp only [← hbs]
  exact if_neg (by simp [depositOk, hbulk, hok, hsize])

theorem judgePropDiscard_ok {q : Proposal} (hlen : 4 ≤ p.length) (h0 : u8 p 0 = 2) (hspk : u16 p 2 < nSpeakers)
    (hq : tabGet d.track.props (u16 p 2) = some q) :
    judgePropDiscard d t none = (trackMod d (fun x => { x with props := tabSet x.props (u16 p 2) none }), .now .ok []) := by
  subst hp
  rw [judgePropDiscard, if_neg (by simp [longEnough_of_le hlen, h0, h1, hspk]), if_neg (by simp [hq])]
  rfl

end

end Sys2Proof.Machine

/-! The statement about bridges', microphones', detectors', calibration's and tracking's requests. -/

namespace Sys2Proof.Machine

/-- Settles O57: each request is judged as its rule says.  What a SET makes of its bridge, microphone or detector is said by
`getBr_applySeam_same`, `getMic_applyMic_same` and `applyDet_none`; a DESIGN's load by `map_fst_designRecs` and `length_of_mem_designRecs`.
Clauses that are the model's choices: in SINGLE_RATE a SEAM_CFG is stored (log entry 69) and a microphone is judged in domain 0 (log entry
72), an untimed window starts at the boundary that applies it (log entry 73), ABORT with no measurement answers OK (log entry 84), and
TRACK_PROPOSAL's bulk reference and the CRC of its deposits (log entry 85). -/
theorem senseRequestsTakeEffect : Obligations.SenseRequestsTakeEffect := by
  intro r s p d i m mic det
  refine ⟨?_, ?_, ?_, ?_, ?_, ?_, ?_, ?_, ?_, ?_, ?_, ?_, ?_⟩
  · rintro _ n rfl hs hlen hi h2 hm c v old h3 hlow hhigh hout hz hsrc hn hne hratio htwin
    have hrow : exec (.seamCfgSet r) s = reqRow1 .seamCfg judgeSeamSet r s := reqRow_eq_reqRow1 h2 rfl
    have hjudge := judgeSeamSet_passes (d := d) (t := takes s .seamCfg r) rfl hm ⟨hlen, hi, h2, h3, hlow, hhigh, hout, hz, hsrc⟩
      ⟨hn, hne, hratio, htwin⟩
    rw [hrow]
    refine ⟨fun hsingle => ?_, fun hmulti => ⟨?_, getBr_applySeam_same rfl none, fun k hk => getBr_applySeam_ne rfl none hk⟩⟩
    · exact reqRow1_granted hs (hjudge.trans (if_pos (beq_iff_eq.2 hsingle)))
    · exact reqRow1_changes hs (applySeam_answers ..) (hjudge.trans (if_neg (by simpa using hmulti)))
  · rintro _ rfl hs hlen hi h2
    exact (reqRow_eq_reqRow1 h2 rfl).trans (reqRow1_granted hs (judgeSeamGet_ok rfl hlen hi h2))
  · rintro _ rfl hs hlen hi h1 hm c hdom hsingle h3 hfrac hkeep a
    refine ⟨(reqRow_eq_reqRow1 h1 rfl).trans ?_, fun k hk => getMic_applyMic_ne rfl none hk, fun _ => getMic_applyMic_same rfl none⟩
    exact reqRow1_changesPd hs rfl (judgeMicSet_commits rfl hlen hi h1 hm hdom hsingle h3 hfrac hkeep)
  · rintro _ rfl hs hlen hi h1
    exact (reqRow_eq_reqRow1 h1 rfl).trans (reqRow1_granted hs (judgeMicGet_ok rfl hlen hi h1))
  · rintro _ rfl hs hlen hi h1 hm n f S t0 set h2 h3 hlow hhigh hmin hmax htimed hen
    have hrow : exec (.toneDetCfgSet r) s = reqRow1 .toneDetCfg judgeDetSet r s := reqRow_eq_reqRow1 h1 rfl
    have hf : DetFields p f := ⟨hlen, hi, h1, h2, h3, hlow, hhigh, hmin, hmax, htimed⟩
    rw [hrow]
    refine ⟨fun hnow => ?_, fun ho hb hfar => ?_⟩
    · exact reqRow1_changes hs (applyDet_none rfl hen) (judgeDetSet_commits rfl hen hm hf hnow)
    · have hanswer := reqRow1_asJudged hs (judgeDetSet_timed rfl hen hm hf ho hb hfar)
      simp only [decide_eq_true_eq] at hanswer
      exact hanswer
  · rintro _ rfl hs hlen hi hen
    refine ⟨fun h1 hm => ?_, fun h1 => ?_⟩
    · exact (reqRow_eq_reqRow1 h1 rfl).trans (reqRow1_granted hs (judgeDetStop_ok rfl hen hlen hi h1 hm))
    · exact (reqRow_eq_reqRow1 h1 rfl).trans (reqRow1_granted hs (judgeDetGet_ok rfl hen hlen hi h1))
  · rintro _ rfl hs hlen h0 hm hok c hresp hcap htrack hbusy
    exact (reqRow_eq_reqRow1 h0 rfl).trans (reqRow1_committed hs (judgeMeasure_commits rfl hlen h0 hm hok hresp hcap htrack hbusy))
  · rintro _ rfl hs hlen h0 hm hok c ss hsome hall hbusy
    have hss : ∀ k, k ∈ ss → ∃ m e, Designable d c k m e := by
      intro k hk
      obtain ⟨hpow, ⟨m, e⟩, hext, hroom, hstill, hfree⟩ := hall k hk
      exact ⟨m, e, hpow, hext, hroom, hstill, hfree⟩
    refine ⟨_, (reqRow_eq_reqRow1 h0 rfl).trans (reqRow1_underWay hs (judgeDesign_loads hss rfl rfl rfl hlen h0 hm hok hsome hbusy)), ?_, ?_, ?_⟩
    · rw [beginLoad_load, map_fst_designRecs hss]
    · exact map_fst_designRecs hss _
    · exact fun x hx => length_of_mem_designRecs hx
  · rintro _ rfl hs hlen h0 hm
    exact ⟨_, (reqRow_eq_reqRow1 h0 rfl).trans (reqRow1_granted hs (judgeAbort_ok rfl hlen h0 hm)), calAbort_run _, calAbort_ended _⟩
  · rintro _ rfl hs hm first h h1 h6
    refine ⟨fun hlen h0 h4 hspk hkept hresp => ?_, fun hlen hbulk hok h0 h4 hspk bs hresp hbs hsize => ?_⟩
    · exact reqRow1_granted hs (judgeCalResult_summary rfl hm h1 h6 hlen h0 h4 hspk hkept hresp)
    · exact reqRow1_deposits hs (judgeCalResult_deposits rfl hm h1 h6 hlen hbulk hok h0 h4 hspk hresp hbs hsize)
  · rintro _ rfl hs hm hlen h0 c h1 hspks hmics h7 hwlow hwhigh htlow hthigh hdesign
    exact (reqRow_eq_reqRow1 h0 rfl).trans
      (reqRow1_granted hs (judgeTrackSet_ok rfl hm ⟨hlen, h0, h1, hspks, hmics, h7, hwlow, hwhigh, htlow, hthigh⟩ hdesign))
  · rintro _ rfl hs
    refine ⟨fun hlen h0 => ⟨trackGetBody d.track, ?_, length_trackGetBody _, trackGetBody_spkFirst _, trackGetBody_threshold _⟩,
      fun q hlen h0 hspk hq => ⟨trackReadBody (tabGet d.track.props (u16 p 2)).isSome q, ?_, trackReadBody_valid _ q, trackReadBody_mt _ q⟩⟩
    · exact (reqRow_eq_reqRow1 h0 rfl).trans (reqRow1_granted hs (judgeTrackGet_ok rfl hlen h0))
    · exact (reqRow_eq_reqRow1 h0 rfl).trans (reqRow1_granted hs (judgeTrackRead_ok rfl hlen h0 hspk hq))
  · rintro _ rfl hs h1
    refine ⟨fun hlen h0 hbulk hok hsize => ⟨proposalMap d.track.props, length_proposalMap _, fun k hk => proposalMap_bit _ hk, ?_⟩,
      fun q bs hlen h0 hbulk hok hspk hq hbs hsize => ?_,
      fun q hlen h0 hspk hq => ⟨trackMod d (fun x => { x with props := tabSet x.props (u16 p 2) none }), ?_, rfl, tabGet_tabSet_same ..,
        fun k hk => ?_⟩⟩
    · exact (reqRow_eq_reqRow1 h0 rfl).trans (reqRow1_deposits hs (judgePropList_deposits rfl h1 hlen h0 hbulk hok hsize))
    · exact (reqRow_eq_reqRow1 h0 rfl).trans (reqRow1_deposits hs (judgePropRead_deposits rfl h1 hlen h0 hbulk hok hspk hq hbs hsize))
    · exact (reqRow_eq_reqRow1 h0 rfl).trans (reqRow1_granted hs (judgePropDiscard_ok rfl h1 hlen h0 hspk hq))
    · exact tabGet_tabSet_ne _ _ _ _ hk

end Sys2Proof.Machine

/-! Pairs of a core: their stages (R263–R272, R281–R286), and what a word of slot A issued alone leaves of its tiles. -/

namespace Sys2Proof.Machine

/-! The formats of slot A (R273). -/

/-- The core as a slot-A word finds it: the pair's cycles are counted (R280). -/
def cycled (c : DspCore) (i : Issue) : DspCore := { c with cycle := (c.cycle + i.cycles) % 2 ^ 64 }

theorem slotM_eq_false {w : Word} (h : opc w < 16) : slotM w = false := by
  simp only [slotM, Bool.and_eq_false_iff, decide_eq_false_iff_not]
  omega

theorem opc_of_isVV {n : Nat} {w : Word} (h : isVV n w = true) : opc w < 16 := by
  simp only [isVV, Bool.and_eq_true, beq_iff_eq] at h
  omega
theorem opc_of_isAC {n : Nat} {w : Word} (h : isAC n w = true) : opc w < 16 := by
  simp only [isAC, Bool.and_eq_true, beq_iff_eq] at h
  omega
theorem opc_of_isRX {w : Word} (h : isRX w = true) : opc w < 16 := by
  simp only [isRX, Bool.and_eq_true, beq_iff_eq] at h
  omega
theorem opc_of_isSR {n : Nat} {w : Word} (h : isSR n w = true) : opc w < 16 := by
  simp only [isSR, Bool.and_eq_true, beq_iff_eq] at h
  omega
theorem opc_of_isXF {n : Nat} {w : Word} (h : isXF n w = true) : opc w < 16 := by
  simp only [isXF, Bool.and_eq_true, beq_iff_eq] at h
  omega
theorem opc_of_isOpc {o : Nat} {w : Word} (ho : o < 16) (h : isOpc o w = true) : opc w < 16 := by
  simp only [isOpc, beq_iff_eq] at h
  omega

/-- The tiles once a pair has been issued: its cycles and corrected errors are counted. -/
def issued (T : Tiles) (core : Nat) (i : Issue) : Tiles :=
  { coreMod T core (fun _ => cycled (getCore T core) i) with
    sched := { T.sched with eccCorr := tabMod T.sched.eccCorr (core / 8) (· + BitVec.ofNat 32 i.corrected) } }

/-! The stages of a pair that is fetched, stands at the PC and is legal: `runPair` in named parts, tied to it by `runPair_eq`. -/

/-- The slot-M word of a pair. -/
def mWord (i : Issue) : Option Word := if slotM i.w then some i.w else if isPair i.w then some i.next else none

/-- The address of the slot-M word. -/
def mWordPc (c : DspCore) (i : Issue) : Word := if slotM i.w then c.pc else c.pc + 4

/-- What the slot-A word does; nothing where the pair has none. -/
def aOut (c : DspCore) : Option (DspCore → AOut) → AOut
  | some f => f c
  | none => aReg c

/-- How the pair's access ends. -/
def pairAccess (T : Tiles) (core : Nat) (c : DspCore) (i : Issue) : Access :=
  match mWord i with
  | some w => mAccess T core c w i.loadBad
  | none => .fine

/-- The cause that the access raises at the pair. -/
def accessCause (c : DspCore) : Option Word → Access → Option (Nat × Word)
  | some w, .cause n => some (n, (mAddr c w).ea)
  | some w, .matrixLoad => some (0x06, (mAddr c w).ea)
  | _, _ => none

/-- The lower of the causes of the two slots. -/
def lowerCause : Option (Nat × Word) → Option (Nat × Word) → Option (Nat × Word)
  | some a, some m => if a.1 ≤ m.1 then some a else some m
  | some a, none => some a
  | none, m => m

/-- The matrix error that the access leaves to be reported (R25). -/
def accessNoted (T : Tiles) (core : Nat) (c : DspCore) (o : AOut) : Option Word → Access → Tiles
  | some w, .matrixLoad => { T with notes := T.notes ++ [.matrixErr (8 + core / 8) true (mAddr c w).ea] }
  | some w, .late true => if o.cause.isNone then { T with notes := T.notes ++ [.matrixErr (8 + core / 8) false (mAddr c w).ea] } else T
  | _, _ => T

/-- The registers after both slots. -/
def pairRegs (T : Tiles) (core : Nat) (c : DspCore) (o : AOut) : Option Word → DspCore
  | some w => mRegs T core c o.core w
  | none => o.core

/-- The failed store on record after the pair. -/
def pairFailed (c x : DspCore) (i : Issue) : Option Word → Access → Option (Word × Word)
  | some w, .late _ => if x.failed.isNone then some ((mAddr c w).ea, mWordPc c i) else x.failed
  | _, _ => x.failed

/-- PC and repeat stack after the pair. -/
def pairNext (c : DspCore) (i : Issue) (o : AOut) : Word × List Rpt :=
  nextPc c o (if isPair i.w then [c.pc, c.pc + 4] else [c.pc]) (c.pc + (if isPair i.w then 8 else 4))

/-- The core after a pair that raises nothing. -/
def pairCore (T : Tiles) (core : Nat) (c : DspCore) (i : Issue) (o : AOut) (acc : Access) : DspCore :=
  let x := pairRegs T core c o (mWord i)
  { x with pc := (pairNext c i o).1, rpt := (pairNext c i o).2, failed := pairFailed c x i (mWord i) acc }

/-- The stores of a pair. -/
def pairStored (T : Tiles) (core : Nat) (c : DspCore) : Option Word → Access → Tiles
  | some w, .fine => coreStore T core (mStores c w)
  | _, _ => T

/-- TDONE of a pair. -/
def pairDone (T : Tiles) (core : Nat) (o : AOut) : Tiles :=
  match o.done with
  | some m => taskDone T core m.toNat
  | none => T

/-- A legal pair of the core c, the slot-A word's output being o: the exception of the lower cause, or the results of both slots. -/
def pairEnds (T : Tiles) (core : Nat) (c : DspCore) (i : Issue) (o : AOut) : Tiles :=
  let acc := pairAccess T core c i
  let T' := accessNoted T core c o (mWord i) acc
  match lowerCause o.cause (accessCause c (mWord i) acc) with
  | some (n, x) => takeException T' core n (if n = 0x08 then mWordPc c i else c.pc) x
  | none => pairDone (pairStored (coreMod T' core (fun _ => pairCore T' core c i o acc)) core c (mWord i) acc) core o

/-- A pair, stage by stage. -/
theorem runPair_eq (T : Tiles) (core : Nat) (i : Issue) (eff : Option (DspCore → AOut)) : runPair T core i eff =
    if (getCore T core).fetching.isSome then T
    else if fetchFails (cycled (getCore T core) i) i then takeException (issued T core i) core 0x01 (getCore T core).pc 0
    else if !issueMatches (issued T core i) core (cycled (getCore T core) i) i then issued T core i
    else if pairIllegal i then takeException (issued T core i) core 0x02 (getCore T core).pc 0
    else pairEnds (issued T core i) core (cycled (getCore T core) i) i (aOut (cycled (getCore T core) i) eff) := by
  unfold runPair pairEnds pairDone pairCore pairRegs pairStored pairFailed pairNext pairAccess accessNoted accessCause lowerCause mWord mWordPc aOut
  rfl

/-! Rows of cores. -/

/-- A core row whose tile is on runs its pair. -/
theorem coreRow_eq {own : Word → Bool} {core : Fin 64} {i : Issue} {s : State} (hown : own i.w = true)
    (hpd : pdOn s.dev (10 + core.val / 16) = true) (eff : Option (DspCore → AOut)) :
    coreRow own core i eff s = .next (after s (tilesMod (quiet s) (fun T => runPair T core.val i eff))) := by
  have hpd' : pdOn (clearOut s.dev) (10 + core.val / 16) = true := hpd
  rw [coreRow, if_pos hown, run_eq, if_pos hpd']
  rfl

/-- A core that issues its pair runs it to its end. -/
theorem coreRow_issues {own : Word → Bool} {core : Fin 64} {i : Issue} {s : State} (h : issues s core i) (hown : own i.w = true)
    (eff : Option (DspCore → AOut)) : coreRow own core i eff s =
      let c := cycled (getCore s.dev.tiles core.val) i
      .next (after s (tilesMod (quiet s) (fun T => pairEnds (issued T core.val i) core.val c i (aOut c eff)))) := by
  obtain ⟨hpd, hfetching, hfetch, hpc, hlegal⟩ := h
  rw [coreRow_eq hown hpd]
  have hrun : runPair s.dev.tiles core.val i eff = pairEnds (issued s.dev.tiles core.val i) core.val
      (cycled (getCore s.dev.tiles core.val) i) i (aOut (cycled (getCore s.dev.tiles core.val) i) eff) := by
    have hfetch' : fetchFails (cycled (getCore s.dev.tiles core.val) i) i = false := hfetch
    have hpc' : issueMatches (issued s.dev.tiles core.val i) core.val (cycled (getCore s.dev.tiles core.val) i) i = true := hpc
    rw [runPair_eq, hfetching, hfetch', hpc', hlegal]
    rfl
  exact congrArg (fun T => Host.Outcome.next (after s { quiet s with tiles := T })) hrun

/-- A word of slot A alone: its exception, or its own results. -/
theorem pairEnds_lone {i : Issue} (hpair : isPair i.w = false) (hA : opc i.w < 16) (T : Tiles) (core : Nat) (c : DspCore) (o : AOut) :
    pairEnds T core c i o = match o.cause with
      | some (n, x) => takeException T core n (if n = 0x08 then c.pc + 4 else c.pc) x
      | none => pairDone (coreMod T core (fun _ =>
          { o.core with pc := (nextPc c o [c.pc] (c.pc + 4)).1, rpt := (nextPc c o [c.pc] (c.pc + 4)).2 })) core o := by
  have hm : mWord i = none := by simp [mWord, slotM_eq_false hA, hpair]
  unfold pairEnds pairCore pairNext
  rw [hm, hpair]
  cases o.cause <;> simp [mWordPc, slotM_eq_false hA] <;> rfl

/-- The core of an issued pair written as x leaves the tiles that `coreLeft` names. -/
theorem coreMod_issued (T : Tiles) (core : Fin 64) (i : Issue) (x : DspCore) :
    coreMod (issued T core.val i) core.val (fun _ => { x with cycle := (cycled (getCore T core.val) i).cycle }) = coreLeft T core i x := by
  simp only [coreMod, issued, coreLeft, tabMod, tabSet_tabSet]
  rfl

section
variable {own : Word → Bool} {eff : Word → DspCore → AOut} {core : Fin 64} {i : Issue} {s : State} {x : DspCore}
  (h : issues s core i) (hpair : isPair i.w = false) (hA : opc i.w < 16) (hown : own i.w = true)
include h hpair hA hown

/-- A word of slot A alone that raises nothing and ends no task. -/
theorem aRow_gives {o : AOut} (ho : eff i.w (cycled (getCore s.dev.tiles core.val) i) = o) (hcause : o.cause = none) (hdone : o.done = none)
    (hx : let c := getCore s.dev.tiles core.val
      { o.core with pc := (nextPc c o [c.pc] (c.pc + 4)).1, rpt := (nextPc c o [c.pc] (c.pc + 4)).2 } =
      { x with cycle := (cycled c i).cycle }) :
    aRow own eff core i s = .next (coreGives s core i x) := by
  have hends : pairEnds (issued s.dev.tiles core.val i) core.val (cycled (getCore s.dev.tiles core.val) i) i o =
      coreLeft s.dev.tiles core i x := by
    rw [pairEnds_lone hpair hA, hcause, ← coreMod_issued, ← hx]
    simp only [pairDone, hdone]
    rfl
  rw [aRow, coreRow_issues h hown]
  dsimp only [aOut]
  rw [ho]
  exact congrArg (fun T => Host.Outcome.next (after s { quiet s with tiles := T })) hends

/-- A word of slot A alone that only changes registers. -/
theorem aRow_advances (ho : eff i.w (cycled (getCore s.dev.tiles core.val) i) =
      aReg { x with cycle := (cycled (getCore s.dev.tiles core.val) i).cycle }) :
    aRow own eff core i s = .next (coreGives s core i (advance (getCore s.dev.tiles core.val) 1 x)) := by
  refine aRow_gives h hpair hA hown ho rfl rfl ?_
  simp [advance, aReg, nextPc]

end

end Sys2Proof.Machine

/-! Scalar words and transfers: what each leaves of its core. -/

namespace Sys2Proof.Machine

theorem fld_lt (w : Word) (hi lo : Nat) : fld w hi lo < 2 ^ (hi - lo + 1) := Nat.mod_lt _ (Nat.two_pow_pos _)

/-- MOVHI keeps the low half and writes the high one (R276). -/
theorem movhi_value {f : Nat} (hf : f < 2 ^ 16) (y : Word) :
    BitVec.ofNat 32 (f * 65536 + y.toNat % 65536) = (BitVec.ofNat 32 f <<< 16) ||| (y &&& 0xFFFF) := by
  have hlow : y.toNat % 65536 < 2 ^ 16 := Nat.mod_lt _ (by decide)
  have hlarge : f * 65536 + y.toNat % 65536 < 2 ^ 32 := by omega
  have hshift : f <<< 16 = f * 65536 := Nat.shiftLeft_eq f 16
  have hhigh : f <<< 16 < 2 ^ 32 := hshift ▸ Nat.lt_of_le_of_lt (Nat.le_add_right _ _) hlarge
  have hword : f < 2 ^ 32 := by omega
  have hmask : y.toNat &&& 65535 = y.toNat % 65536 := Nat.and_two_pow_sub_one_eq_mod y.toNat 16
  have hor : f <<< 16 ||| y.toNat % 65536 = f * 65536 + y.toNat % 65536 := by
    rw [← Nat.shiftLeft_add_eq_or_of_lt hlow, hshift]
  apply BitVec.eq_of_toNat_eq
  rw [BitVec.toNat_or, BitVec.toNat_and, BitVec.toNat_shiftLeft, BitVec.toNat_ofNat, BitVec.toNat_ofNat, Nat.mod_eq_of_lt hlarge,
    Nat.mod_eq_of_lt hword, Nat.mod_eq_of_lt hhigh, ← hor, ← hmask]
  rfl

/-- Settles O28: each word changes its core to the one the statement gives (`aRow_advances`); SLT and SLTU compare as `slt` and `ult` do,
MOVHI by `movhi_value`. -/
theorem scalarWordsComputeSD : Obligations.ScalarWordsComputeSD := by
  intro core i s h hpair c w a b imm gives
  have sr {n : Nat} {row : Instr} {eff : Word → DspCore → AOut} {v : Word} (hrow : exec row s = aRow (isSR n) eff core i s)
      (ho : eff w (cycled c i) = srOut w (cycled c i) v) : gives (isSR n) row v :=
    fun hw => hrow.trans (aRow_advances h hpair (opc_of_isSR hw) hw ho)
  have op {n : Nat} {row : Instr} {eff : Word → DspCore → AOut} {v : Word} (hn : n < 16) (hrow : exec row s = aRow (isOpc n) eff core i s)
      (ho : eff w (cycled c i) = srOut w (cycled c i) v) : gives (isOpc n) row v :=
    fun hw => hrow.trans (aRow_advances h hpair (opc_of_isOpc hn hw) hw ho)
  refine ⟨fun hw => ?_, sr rfl rfl, sr rfl rfl, sr rfl rfl, sr rfl rfl, sr rfl rfl, sr rfl rfl, sr rfl rfl, sr rfl rfl, sr rfl ?_, sr rfl ?_,
    op (by decide) rfl rfl, op (by decide) rfl rfl, op (by decide) rfl ?_⟩
  case refine_1 =>
    exact aRow_advances (own := fun w => isSR 0 w || !isOther w) h hpair (opc_of_isSR hw) (Bool.or_eq_true_iff.2 (.inl hw)) rfl
  case refine_2 => simp only [BitVec.slt, decide_eq_true_eq]; rfl
  case refine_3 => simp only [BitVec.ult, decide_eq_true_eq]; rfl
  case refine_4 => rw [← movhi_value (fld_lt w 15 0)]; rfl

/-! Lanes of a register (R262): register r of a file holds lanes 8 r to 8 r + 7 of its bank. -/

/-- A bank with the lanes of register r written from xs. -/
def lanesSet {α : Type} (t : Tab α) (r : Nat) (xs : List α) : Tab α := xs.zipIdx.foldl (fun t p => tabSet t (8 * r + p.2) p.1) t

theorem vSet_eq (c : DspCore) (r : Nat) (xs : List Word) : vSet c r xs = { c with v := lanesSet c.v r xs } := rfl
theorem aSet_eq (c : DspCore) (r : Nat) (xs : List (BitVec 80)) : aSet c r xs = { c with a := lanesSet c.a r xs } := rfl

/-- A lane before the written ones or after them stays. -/
theorem tabGet_foldl_tabSet_of_not_mem {α : Type} [Inhabited α] (b k : Nat) (ps : List (α × Nat)) (t : Tab α) (h : ∀ p ∈ ps, k ≠ b + p.2) :
    tabGet (ps.foldl (fun t p => tabSet t (b + p.2) p.1) t) k = tabGet t k := by
  induction ps generalizing t with
  | nil => rfl
  | cons p ps ih =>
    rw [List.foldl_cons, ih _ fun q hq => h q (List.mem_cons_of_mem _ hq), tabGet_tabSet_ne _ _ _ _ (h p List.mem_cons_self)]

/-- Values written one after another from number b + n on are read back. -/
theorem tabGet_foldl_tabSet_zipIdx {α : Type} [Inhabited α] (b n : Nat) (xs : List α) (t : Tab α) (j : Nat) (hj : j < xs.length) :
    tabGet ((xs.zipIdx n).foldl (fun t p => tabSet t (b + p.2) p.1) t) (b + (n + j)) = xs[j] := by
  induction xs generalizing n t j with
  | nil => exact absurd hj (Nat.not_lt_zero j)
  | cons x xs ih =>
    rw [List.zipIdx_cons, List.foldl_cons]
    cases j with
    | zero =>
      rw [tabGet_foldl_tabSet_of_not_mem, Nat.add_zero, tabGet_tabSet_same, List.getElem_cons_zero]
      intro p hp
      have := List.le_snd_of_mem_zipIdx hp
      omega
    | succ j =>
      have hnext : n + (j + 1) = n + 1 + j := by omega
      rw [hnext, ih (n + 1) _ j (Nat.lt_of_succ_lt_succ hj), List.getElem_cons_succ]

theorem tabGet_lanesSet {α : Type} [Inhabited α] (t : Tab α) (r j : Nat) (xs : List α) (hj : j < xs.length) :
    tabGet (lanesSet t r xs) (8 * r + j) = xs[j] := by
  have h := tabGet_foldl_tabSet_zipIdx (8 * r) 0 xs t j hj
  rw [Nat.zero_add] at h
  exact h

theorem tabGet_lanesSet_ne {α : Type} [Inhabited α] (t : Tab α) {r q j : Nat} {xs : List α} (hlen : xs.length ≤ 8) (hj : j < 8) (hq : q ≠ r) :
    tabGet (lanesSet t r xs) (8 * q + j) = tabGet t (8 * q + j) := by
  refine tabGet_foldl_tabSet_of_not_mem _ _ _ _ fun p hp => ?_
  have := List.snd_lt_of_mem_zipIdx hp
  omega

/-! Transfers (R276, R280). -/

/-- The special registers that a legal MFS reads, CYCLE_LO apart (R280). -/
theorem specGet_eq (id : Nat) (c : DspCore) : ∀ f : Nat, f ≤ 8 → f ≠ 6 → specGet id c f = match f with
    | 0 => BitVec.ofNat 32 id
    | 1 => BitVec.ofNat 32 (32 * c.rpt.length + 2 * b2n c.aovf + b2n c.satf)
    | 2 => c.xvec
    | 3 => BitVec.ofNat 32 c.cause
    | 4 => c.xpc
    | 5 => c.xaddr
    | 7 => c.cycleHi
    | _ => c.task
  | 0, _, _ | 1, _, _ | 2, _, _ | 3, _, _ | 4, _, _ | 5, _, _ | 7, _, _ | 8, _, _ => rfl
  | 6, _, h => absurd rfl h
  | _ + 9, h, _ => absurd h (by omega)

/-- The source field of a legal MFS names a special register (R279, R280). -/
theorem mfs_source_le {i : Issue} (h : pairIllegal i = false) (hw : isXF 10 i.w = true) : xfS i.w ≤ 8 := by
  have hA := slotM_eq_false (opc_of_isXF hw)
  simp only [isXF, Bool.and_eq_true, beq_iff_eq] at hw
  obtain ⟨hopc, hfn⟩ := hw
  simp [pairIllegal, hA, aLegal, hopc, hfn] at h
  exact h.1.2.2

/-- Settles O29: each transfer changes its core to the one the statement gives (`aRow_advances`); MFS of a legal word reads the register its
source field names (`specGet_eq`). -/
theorem transfersMoveOneRegister : Obligations.TransfersMoveOneRegister := by
  intro core i s h hpair c d f ln gives
  obtain ⟨_, _, _, _, hlegal⟩ := id h
  have xf {n : Nat} {row : Instr} {eff : Word → DspCore → AOut} {x : DspCore} (hrow : exec row s = aRow (isXF n) eff core i s)
      (ho : isXF n i.w = true → eff i.w (cycled c i) = aReg { x with cycle := (cycled c i).cycle }) : gives n row x :=
    fun hw => hrow.trans (aRow_advances h hpair (opc_of_isXF hw) hw (ho hw))
  refine ⟨xf rfl fun _ => rfl, xf rfl fun _ => rfl, xf rfl fun _ => rfl, xf rfl fun _ => rfl, xf rfl fun _ => rfl, xf rfl fun _ => rfl,
    xf rfl fun _ => rfl, xf rfl fun _ => rfl, ?_, ?_, ?_, ?_, ?_, ?_⟩
  · intro hw
    refine ⟨vSet c d (List.replicate 8 (tabGet c.s f)), aRow_advances h hpair (opc_of_isXF hw) hw rfl, fun j hj => ?_, fun r j hj hr => ?_, rfl⟩
    · rw [vSet_eq, tabGet_lanesSet _ _ _ _ (by simpa using hj), List.getElem_replicate]
    · rw [vSet_eq, tabGet_lanesSet_ne _ (by simp) hj hr]
  · refine fun hd => xf rfl fun _ => ?_
    have hd' : xfD i.w = 1 := hd
    simp only [effMts, hd', if_true, Bool.and_comm (bit _ _)]
    rfl
  · refine fun hd => xf rfl fun _ => ?_
    have hd' : xfD i.w = 2 := hd
    simp only [effMts, hd', if_true]
    rfl
  · refine fun hd1 hd2 => xf rfl fun _ => ?_
    have hd1' : xfD i.w ≠ 1 := hd1
    have hd2' : xfD i.w ≠ 2 := hd2
    simp only [effMts, hd1', hd2', if_false]
    rfl
  · refine fun hf => xf rfl fun hw => ?_
    have hf' : xfS i.w ≠ 6 := hf
    simp only [effMfs, specGet_eq _ _ _ (mfs_source_le hlegal hw) hf', hf', if_false]
    rfl
  · intro hf t hw
    refine aRow_advances h hpair (opc_of_isXF hw) hw ?_
    have hf' : xfS i.w = 6 := hf
    simp only [effMfs, hf', if_true]
    rfl

end Sys2Proof.Machine

/-! Vector words: each lane from the same lane of the operands. -/

namespace Sys2Proof.Machine

theorem tabGet_lanesSet_range {α : Type} [Inhabited α] (t : Tab α) (r : Nat) (g : Nat → α) {j : Nat} (hj : j < 8) :
    tabGet (lanesSet t r ((List.range 8).map g)) (8 * r + j) = g j := by
  rw [tabGet_lanesSet _ _ _ _ (by simpa using hj), List.getElem_map, List.getElem_range]

theorem tabGet_lanesSet_range_ne {α : Type} [Inhabited α] (t : Tab α) {r q j : Nat} (g : Nat → α) (hj : j < 8) (hq : q ≠ r) :
    tabGet (lanesSet t r ((List.range 8).map g)) (8 * q + j) = tabGet t (8 * q + j) :=
  tabGet_lanesSet_ne _ (by simp) hj hq

/-- Saturation as the statements write it. -/
theorem clampI_eq (v : Int) : clampI i32Min i32Max v = max (-2147483648) (min 2147483647 v) := by
  unfold clampI i32Min i32Max
  split
  · omega
  · split <;> omega

theorem satW_fst (sat : Bool) (v : Int) :
    (satW sat v).1 = BitVec.ofInt 32 (if sat then max (-2147483648) (min 2147483647 v) else v) := by
  rw [← clampI_eq]
  rfl

theorem satW_snd (sat : Bool) (v : Int) : (satW sat v).2 = !(decide (-2147483648 ≤ v) && decide (v ≤ 2147483647)) := by
  simp only [satW, i32Min, i32Max, Bool.not_and, ← decide_not, Int.not_le]
  congr

/-- The core with the lanes of vector register r written. -/
def vLanes (c : DspCore) (r : Nat) (g : Nat → Word) : DspCore := { c with v := lanesSet c.v r ((List.range 8).map g) }

theorem vLanes_same (c : DspCore) (r : Nat) (g : Nat → Word) {j : Nat} (hj : j < 8) : tabGet (vLanes c r g).v (8 * r + j) = g j :=
  tabGet_lanesSet_range _ _ _ hj

theorem vLanes_ne (c : DspCore) {r q j : Nat} (g : Nat → Word) (hj : j < 8) (hq : q ≠ r) :
    tabGet (vLanes c r g).v (8 * q + j) = tabGet c.v (8 * q + j) :=
  tabGet_lanesSet_range_ne _ _ hj hq

/-- The core with the lanes of vector register r written and SATF set by any that overflows. -/
def vOut (c : DspCore) (r : Nat) (g : Nat → Word) (ovf : Nat → Bool) : DspCore :=
  { vLanes c r g with satf := c.satf || (List.range 8).any ovf }

theorem vOut_same (c : DspCore) (r : Nat) (g : Nat → Word) (ovf : Nat → Bool) {j : Nat} (hj : j < 8) :
    tabGet (vOut c r g ovf).v (8 * r + j) = g j := vLanes_same c r g hj

theorem vOut_ne (c : DspCore) {r q j : Nat} (g : Nat → Word) (ovf : Nat → Bool) (hj : j < 8) (hq : q ≠ r) :
    tabGet (vOut c r g ovf).v (8 * q + j) = tabGet c.v (8 * q + j) := vLanes_ne c g hj hq

/-- What a VV word makes of lane j. -/
def vvLane (w : Word) (c : DspCore) (f : Word → Word → Word → Word × Bool) (j : Nat) : Word × Bool :=
  f (tabGet c.v (8 * fld w 20 16 + j)) (tabGet c.v (8 * fld w 15 11 + j)) (tabGet c.v (8 * fld w 25 21 + j))

/-- A VV word's result, lane by lane. -/
theorem vvLanes_eq (w : Word) (c : DspCore) (f : Word → Word → Word → Word × Bool) :
    vvLanes w c f = aReg (vOut c (fld w 25 21) (fun j => (vvLane w c f j).1) (fun j => (vvLane w c f j).2)) := by
  have hlanes : ((vGet c (fld w 20 16)).zip ((vGet c (fld w 15 11)).zip (vGet c (fld w 25 21)))).map (fun x => f x.1 x.2.1 x.2.2) =
      (List.range 8).map (vvLane w c f) := by
    simp only [vGet, List.zip_map', List.map_map]
    rfl
  simp only [vvLanes, hlanes, vSet_eq, List.map_map, List.any_map]
  rfl

/-- A shift right rounds toward −∞. -/
theorem sshiftRight_eq_div (a : Word) (k : Nat) : BitVec.ofInt 32 (a.toInt / (2 : Int) ^ k) = a.sshiftRight k := by
  rw [BitVec.sshiftRight, Int.shiftRight_eq_div_pow]
  simp

/-- VALIGN's lanes: from lane k of VA on, then those of VB. -/
theorem take_drop_lanes {α : Type} (f g : Nat → α) {k : Nat} (hk : k < 8) :
    (((List.range 8).map f ++ (List.range 8).map g).drop k).take 8 =
      (List.range 8).map fun j => if j + k < 8 then f (j + k) else g (j + k - 8) := by
  refine List.ext_getElem (by simp; omega) fun j hj _ => ?_
  have hj8 : j < 8 := by simp at hj; omega
  by_cases hlow : j + k < 8
  · simp [Nat.add_comm k j, hlow]
  · simp [Nat.add_comm k j, hlow, List.getElem_append]

/-- VALIGN's result. -/
theorem effValign_eq (w : Word) (c : DspCore) : effValign w c = aReg (vLanes c (fld w 25 21) fun j =>
    if j + vvSh w % 8 < 8 then tabGet c.v (8 * fld w 20 16 + (j + vvSh w % 8)) else tabGet c.v (8 * fld w 15 11 + (j + vvSh w % 8 - 8))) := by
  rw [effValign, vGet, vGet, take_drop_lanes _ _ (Nat.mod_lt _ (by decide)), vSet_eq, vLanes]

/-- Settles O26: by `vvLanes_eq` each lane of VD is the row's function of the same lanes, which saturates or wraps by `satW_fst` and overflows by
`satW_snd`; VALIGN's lanes by `effValign_eq`. -/
theorem vectorWordsComputeLanes : Obligations.VectorWordsComputeLanes := by
  intro core i s h hpair c w sh fits narrow lane gives never
  have vv {fn : Nat} {row : Instr} {eff : Word → DspCore → AOut} {F : Word → Word → Word → Word × Bool} {f : Word → Word → Word → Word}
      {ovf : Word → Word → Bool} (hrow : exec row s = aRow (isVV fn) eff core i s) (heff : eff w (cycled c i) = vvLanes w (cycled c i) F)
      (hf : ∀ a b d, (F a b d).1 = f a b d) (hovf : ∀ a b d, (F a b d).2 = ovf a b) : gives fn row f ovf := by
    intro hw
    have hx := heff.trans (vvLanes_eq w _ F)
    simp only [vvLane, hf, hovf] at hx
    refine ⟨vOut c (fld w 25 21) (fun j => f (lane c (fld w 20 16) j) (lane c (fld w 15 11) j) (lane c (fld w 25 21) j))
        (fun j => ovf (lane c (fld w 20 16) j) (lane c (fld w 15 11) j)),
      hrow.trans (aRow_advances h hpair (opc_of_isVV hw) hw hx), fun j hj => ?_, fun r j hj hr => ?_, rfl⟩
    · exact vOut_same c (fld w 25 21) _ _ hj
    · exact vOut_ne c _ _ hj hr
  have sat {v : Int} : (satW (vvSat w) v).1 = narrow v := satW_fst _ _
  have out {v : Int} : (satW (vvSat w) v).2 = !fits v := satW_snd _ _
  clear_value gives
  refine ⟨vv rfl rfl (fun _ _ _ => sat) (fun _ _ _ => out), vv rfl rfl (fun _ _ _ => sat) (fun _ _ _ => out),
    vv rfl rfl (fun _ _ _ => rfl) (fun _ _ _ => rfl), vv rfl rfl (fun _ _ _ => rfl) (fun _ _ _ => rfl),
    vv rfl rfl (fun _ _ _ => sat) (fun _ _ _ => out), vv rfl rfl (fun _ _ _ => sat) (fun _ _ _ => out),
    vv rfl rfl (fun _ _ _ => rfl) (fun _ _ _ => rfl), vv rfl rfl (fun _ _ _ => rfl) (fun _ _ _ => rfl),
    vv rfl rfl (fun _ _ _ => rfl) (fun _ _ _ => rfl), vv rfl rfl (fun _ _ _ => sat) (fun _ _ _ => out),
    vv rfl rfl (fun a _ _ => sshiftRight_eq_div a _) (fun _ _ _ => rfl), vv rfl rfl (fun _ _ _ => rfl) (fun _ _ _ => rfl),
    vv rfl rfl (fun _ _ _ => rfl) (fun _ _ _ => rfl), vv rfl rfl (fun _ _ _ => rfl) (fun _ _ _ => rfl),
    vv rfl rfl (fun _ _ _ => rfl) (fun _ _ _ => rfl), vv rfl rfl (fun _ _ _ => rfl) (fun _ _ _ => rfl), fun hw => ?_⟩
  refine ⟨vLanes c (fld w 25 21) fun j => if j + sh % 8 < 8 then lane c (fld w 20 16) (j + sh % 8) else lane c (fld w 15 11) (j + sh % 8 - 8),
    aRow_advances h hpair (opc_of_isVV hw) hw (effValign_eq w _), fun j hj => ?_, fun r j hj hr => ?_, rfl⟩
  · exact vLanes_same _ _ _ hj
  · exact vLanes_ne _ _ hj hr

end Sys2Proof.Machine

/-! Accumulator words: each lane the exact value modulo 2^80. -/

namespace Sys2Proof.Machine

/-- The exact values of 80 bits (R265). -/
def fits80 (v : Int) : Bool := decide (-(2 : Int) ^ 79 ≤ v) && decide (v < (2 : Int) ^ 79)

theorem acc80_eq (v : Int) : acc80 v = (BitVec.ofInt 80 v, !fits80 v) := by
  have hhigh : (2 : Int) ^ 79 - 1 < v ↔ ¬ v < (2 : Int) ^ 79 := by omega
  simp only [acc80, fits80, Bool.not_and, ← decide_not, Int.not_le, hhigh]

/-- The core with the lanes of accumulator r written with exact values, and AOVF set by any outside. -/
def accLanes (c : DspCore) (r : Nat) (g : Nat → Int) : DspCore :=
  { c with a := lanesSet c.a r ((List.range 8).map fun j => BitVec.ofInt 80 (g j)), aovf := c.aovf || (List.range 8).any fun j => !fits80 (g j) }

theorem accLanes_same (c : DspCore) (r : Nat) (g : Nat → Int) {j : Nat} (hj : j < 8) :
    tabGet (accLanes c r g).a (8 * r + j) = BitVec.ofInt 80 (g j) := tabGet_lanesSet_range c.a r (fun j => BitVec.ofInt 80 (g j)) hj

theorem accLanes_ne (c : DspCore) {r q j : Nat} (g : Nat → Int) (hj : j < 8) (hq : q ≠ r) :
    tabGet (accLanes c r g).a (8 * q + j) = tabGet c.a (8 * q + j) := tabGet_lanesSet_range_ne c.a (fun j => BitVec.ofInt 80 (g j)) hj hq

theorem accOut_eq (w : Word) (c : DspCore) (g : Nat → Int) : accOut w c ((List.range 8).map g) = aReg (accLanes c (fld w 25 23) g) := by
  simp only [accOut, accLanes, aSet_eq, List.map_map, List.any_map, Function.comp_def, acc80_eq]

/-! The operands, lane by lane. -/

/-- The product of lane j: VB's own lane, or the one that the word names. -/
def prodLane (w : Word) (c : DspCore) (j : Nat) : Int :=
  let b := tabGet c.v (8 * fld w 17 13 + if bit w.toNat 9 then fld w 8 6 else j)
  (tabGet c.v (8 * fld w 22 18 + j)).toInt * (if bit w.toNat 5 then (b.toNat : Int) else b.toInt)

theorem prods_eq (w : Word) (c : DspCore) : prods w c = (List.range 8).map (prodLane w c) := by
  have hlane : fld w 8 6 < 8 := fld_lt w 8 6
  have hb : (if bit w.toNat 9 then List.replicate 8 ((vGet c (fld w 17 13)).getD (fld w 8 6) 0) else vGet c (fld w 17 13)) =
      (List.range 8).map fun j => tabGet c.v (8 * fld w 17 13 + if bit w.toNat 9 then fld w 8 6 else j) := by
    cases bit w.toNat 9
    · rfl
    · simp [vGet, hlane, List.map_const']
  unfold prods
  simp only [hb]
  simp only [vGet, List.zip_map', List.map_map]
  rfl

theorem accS_eq (w : Word) (c : DspCore) : accS w c = (List.range 8).map fun j => (tabGet c.a (8 * fld w 12 10 + j)).toInt := by
  simp only [accS, aGet, List.map_map]
  rfl

theorem accD_eq (w : Word) (c : DspCore) : accD w c = (List.range 8).map fun j => (tabGet c.a (8 * fld w 25 23 + j)).toInt := by
  simp only [accD, aGet, List.map_map]
  rfl

theorem zip_map_lanes (f g : Nat → Int) (op : Int → Int → Int) :
    (((List.range 8).map f).zip ((List.range 8).map g)).map (fun p => op p.1 p.2) = (List.range 8).map fun j => op (f j) (g j) := by
  simp only [List.zip_map', List.map_map]
  rfl

/-- EXT's result: each lane rounded to nearest even and narrowed (R266). -/
theorem effExt_eq (w : Word) (c : DspCore) :
    let v (j : Nat) : Int := shrRne (tabGet c.a (8 * fld w 20 18 + j)).toInt (fld w 17 12)
    effExt w c = aReg (vOut c (fld w 25 21) (fun j => (satW (bit w.toNat 11) (v j)).1) (fun j => (satW (bit w.toNat 11) (v j)).2)) := by
  simp only [effExt, aGet, vSet_eq, vOut, vLanes, List.map_map, List.any_map]
  rfl

/-- Settles O27: by `accOut_eq` each lane of AD is the exact value modulo 2^80 of the operands' lanes, and AOVF tells one outside; EXT by
`effExt_eq`. -/
theorem accumulatorWordsAreExact : Obligations.AccumulatorWordsAreExact := by
  intro core i s h hpair c w acc vec prod src dst fits gives
  have ac {fn : Nat} {row : Instr} {eff : Word → DspCore → AOut} {f : Nat → Int} {vs : List Int} (hrow : exec row s = aRow (isAC fn) eff core i s)
      (heff : eff w (cycled c i) = accOut w (cycled c i) vs) (hvs : vs = (List.range 8).map f) : gives fn row f := by
    intro hw
    have hx := heff.trans ((congrArg (accOut w _) hvs).trans (accOut_eq w _ f))
    refine ⟨accLanes c (fld w 25 23) f, hrow.trans (aRow_advances h hpair (opc_of_isAC hw) hw hx), fun j hj => ?_, fun r j hj hr => ?_, rfl⟩
    · exact accLanes_same c (fld w 25 23) f hj
    · exact accLanes_ne c f hj hr
  clear_value gives
  have hprods : prods w (cycled c i) = (List.range 8).map prod := prods_eq w _
  have hsrc : accS w (cycled c i) = (List.range 8).map src := accS_eq w _
  have hdst : accD w (cycled c i) = (List.range 8).map dst := accD_eq w _
  refine ⟨ac rfl rfl hprods, ac rfl rfl ?_, ac rfl rfl ?_, ac rfl rfl ?_, ac rfl rfl rfl, ac rfl rfl ?_, ac rfl rfl ?_, ac rfl rfl hsrc, ?_⟩
  case refine_1 => rw [hprods, hsrc]; exact zip_map_lanes src prod (· + ·)
  case refine_2 => rw [hprods, hsrc]; exact zip_map_lanes src prod (· - ·)
  case refine_3 => rw [hdst, hsrc]; exact zip_map_lanes dst src (· + ·)
  case refine_4 => rw [vGet, List.map_map]; rfl
  case refine_5 => rw [hsrc]; rfl
  intro hw v
  refine ⟨vOut c (fld w 25 21) (fun j => BitVec.ofInt 32 (if bit w.toNat 11 then max (-2147483648) (min 2147483647 (v j)) else v j))
      (fun j => decide (v j < -2147483648) || decide (2147483647 < v j)),
    aRow_advances h hpair (opc_of_isRX hw) hw ?_, fun j hj => ?_, fun r j hj hr => ?_, rfl⟩
  · rw [effExt_eq]
    simp only [satW_fst]
    rfl
  · exact vOut_same c (fld w 25 21) _ _ hj
  · exact vOut_ne c _ _ hj hr

end Sys2Proof.Machine

/-! Control words: where each leads. -/

namespace Sys2Proof.Machine

section
variable {own : Word → Bool} {eff : Word → DspCore → AOut} {core : Fin 64} {i : Issue} {s : State} {x : DspCore}
  (h : issues s core i) (hpair : isPair i.w = false) (hA : opc i.w < 16) (hown : own i.w = true)
include h hpair hA hown

/-- A word of slot A alone that jumps: PC is the target, and the repeats that do not hold it end (R272). -/
theorem aRow_jumps {t : Word} (ho : eff i.w (cycled (getCore s.dev.tiles core.val) i) =
      { core := { x with cycle := (cycled (getCore s.dev.tiles core.val) i).cycle }, jump := some t }) :
    aRow own eff core i s = .next (coreGives s core i { x with pc := t, rpt := popBranch t (getCore s.dev.tiles core.val).rpt }) :=
  aRow_gives h hpair hA hown ho rfl rfl rfl

end

/-- The word after one that is issued alone. -/
theorem afterPair_lone {w : Word} (h : isPair w = false) (c : DspCore) : afterPair w c = c.pc + 4 := by
  rw [afterPair, h]
  rfl

/-- Settles O31: a taken branch leads to its target (`aRow_jumps`); CALL and CALLR first write S15; REP's three cases are those of its count. -/
theorem controlWordsLeadToTheirTargets : Obligations.ControlWordsLeadToTheirTargets := by
  intro core i s h hpair c w goes target called
  have hafter : afterPair w (cycled c i) = c.pc + 4 := afterPair_lone hpair _
  refine ⟨fun hw => ?_, fun hw => ?_, fun hw => ?_, fun hw => ?_, ?_⟩
  · exact aRow_jumps h hpair (opc_of_isSR hw) hw rfl
  · refine aRow_jumps (x := called) h hpair (opc_of_isSR hw) hw ?_
    rw [effCallr, hafter]
    rfl
  · refine aRow_jumps (x := called) h hpair (opc_of_isOpc (by decide) hw) hw ?_
    rw [effCall, hafter]
    rfl
  · split
    case isTrue htaken =>
      refine aRow_jumps (x := c) h hpair (opc_of_isOpc (by decide) hw) hw ?_
      exact congrArg (AOut.mk _ · none none none none) (if_pos htaken)
    case isFalse hnot =>
      refine aRow_advances (x := c) h hpair (opc_of_isOpc (by decide) hw) hw ?_
      exact congrArg (AOut.mk _ · none none none none) (if_neg hnot)
  · intro hw n stop hstop
    have hopc : opc w < 16 := opc_of_isOpc (by decide) hw
    have hlast : repLastPair s.dev.tiles core.val w = false := by
      rw [repLastPair, afterPair_lone hpair]
      exact hstop
    have hrep : effRep (repLastPair s.dev.tiles core.val w) w (cycled c i) =
        if n = 0 then { core := cycled c i, skip := some (stop + 4) }
        else if n = 1 then aReg (cycled c i)
        else if 4 ≤ c.rpt.length then { core := cycled c i, cause := some (0x03, 0) }
        else { core := cycled c i, push := some { start := c.pc + 4, stop := stop, count := n } } := by
      rw [hlast, effRep, hafter]
      rfl
    refine ⟨fun h1 => ?_, fun h0 => ?_, fun h2 hdepth => ?_⟩
    · refine aRow_advances (x := c) h hpair hopc hw (hrep.trans ?_)
      rw [h1]
      rfl
    · have hskip := hrep.trans (if_pos h0)
      refine aRow_gives h hpair hopc hw hskip rfl rfl ?_
      have hback : stop + 4 - 4 = stop := by rw [BitVec.add_sub_cancel]
      simp only [nextPc, hback]
      rfl
    · have hpush := hrep.trans ((if_neg (by omega)).trans ((if_neg (by omega)).trans (if_neg (by omega))))
      exact aRow_gives h hpair hopc hw hpush rfl rfl rfl

end Sys2Proof.Machine

/-! What a core's pair can change: its own registers, the scheduler's records, and memory at targets that take its stores. -/

namespace Sys2Proof.Machine

/-! What ends and settles tasks changes the scheduler alone (R290–R296). -/

/-- T' differs from T in nothing but the scheduler. -/
def SchedOnly (T T' : Tiles) : Prop := T' = { T with sched := T'.sched }

theorem SchedOnly.refl (T : Tiles) : SchedOnly T T := rfl
theorem SchedOnly.trans {a b c : Tiles} (h : SchedOnly a b) (k : SchedOnly b c) : SchedOnly a c := by
  unfold SchedOnly at *
  rw [k, h]

theorem SchedOnly.cores {a b : Tiles} (h : SchedOnly a b) : b.cores = a.cores := by
  rw [h]
theorem SchedOnly.mem {a b : Tiles} (h : SchedOnly a b) : b.mem = a.mem := by
  rw [h]

theorem schedOnly_foldl {α : Type} {f : Tiles → α → Tiles} (h : ∀ T a, SchedOnly T (f T a)) (l : List α) (T : Tiles) :
    SchedOnly T (l.foldl f T) :=
  foldl_rel SchedOnly SchedOnly.refl (fun _ _ _ => SchedOnly.trans) f h l T

theorem schedMod_schedOnly (T : Tiles) (f : Sched → Sched) : SchedOnly T (schedMod T f) := rfl
theorem taskMod_schedOnly (T : Tiles) (i : Nat) (f : Task → Task) : SchedOnly T (taskMod T i f) := rfl

theorem noteOutcome_schedOnly (T : Tiles) (i : Nat) (o : Outcome) (core : Nat) : SchedOnly T (noteOutcome T i o core) := rfl

theorem markDone_schedOnly (T : Tiles) (i : Nat) (o : Outcome) (core : Nat) : SchedOnly T (markDone T i o core) :=
  (taskMod_schedOnly T i _).trans (noteOutcome_schedOnly _ _ _ _)

theorem deliver_schedOnly (T : Tiles) (slot e : Nat) (void : Bool) : SchedOnly T (deliver T slot e void) :=
  (schedMod_schedOnly T _).trans (schedOnly_foldl (fun _ _ => taskMod_schedOnly _ _ _) _ _)

theorem publishTask_schedOnly (T : Tiles) (i mask : Nat) : SchedOnly T (publishTask T i mask) :=
  schedOnly_foldl (fun _ _ => deliver_schedOnly _ _ _ _) _ _

/-- A task is done and its tokens are published. -/
theorem publish_markDone_schedOnly (T : Tiles) (i : Nat) (o : Outcome) (core mask : Nat) :
    SchedOnly T (publishTask (markDone T i o core) i mask) :=
  (markDone_schedOnly T i o core).trans (publishTask_schedOnly _ i mask)

theorem settleReady_schedOnly (n : Nat) (T : Tiles) : SchedOnly T (settleReady n T) := by
  induction n generalizing T with
  | zero => exact SchedOnly.refl T
  | succ n ih =>
    unfold settleReady
    dsimp only
    split
    · exact SchedOnly.refl T
    · refine SchedOnly.trans (schedOnly_foldl (fun U i => ?_) _ _) (ih _)
      split
      · exact publish_markDone_schedOnly _ _ _ _ _
      · split
        · exact publish_markDone_schedOnly _ _ _ _ _
        · exact taskMod_schedOnly _ _ _

theorem schedTick_schedOnly (T : Tiles) : SchedOnly T (schedTick T) := by
  unfold schedTick
  exact (settleReady_schedOnly 4097 T).trans (schedMod_schedOnly _ _)

theorem endCoreTask_schedOnly (T : Tiles) (core : Nat) (o : Outcome) : SchedOnly T (endCoreTask T core o) := by
  unfold endCoreTask
  dsimp only
  split
  · exact SchedOnly.refl T
  · split
    · exact publish_markDone_schedOnly _ _ _ _ _
    · exact SchedOnly.refl T

/-! The reach of a core (R281, R282). -/

/-- T' differs from T in no other core's registers, and in memory only where a target is open to stores of the core. -/
structure StaysInCore (core : Nat) (T T' : Tiles) : Prop where
  cores : ∀ k, k ≠ core → getCore T' k = getCore T k
  wf : memWf T.mem = true → memWf T'.mem = true
  mem : ∀ x, (∀ a tg d, coreTarget core a = some (tg, d) → storeOpen core tg = true → ¬ (d ≤ x ∧ x < d + 4)) →
    memRead T'.mem x = memRead T.mem x

theorem StaysInCore.trans {core : Nat} {a b c : Tiles} (h : StaysInCore core a b) (k : StaysInCore core b c) : StaysInCore core a c where
  cores n hn := (k.cores n hn).trans (h.cores n hn)
  wf hw := k.wf (h.wf hw)
  mem x hx := (k.mem x hx).trans (h.mem x hx)

/-- A change that keeps memory and every other core. -/
theorem staysInCore_of_mem_eq {core : Nat} {T T' : Tiles} (hcores : ∀ k, k ≠ core → getCore T' k = getCore T k) (hmem : T'.mem = T.mem) :
    StaysInCore core T T' where
  cores := hcores
  wf hw := hmem ▸ hw
  mem x _ := by rw [hmem]

/-- A change that keeps memory and every core. -/
theorem staysInCore_of_eq {core : Nat} {T T' : Tiles} (hcores : T'.cores = T.cores) (hmem : T'.mem = T.mem) : StaysInCore core T T' :=
  staysInCore_of_mem_eq (fun k _ => congrArg (tabGet · k) hcores) hmem

theorem StaysInCore.refl (core : Nat) (T : Tiles) : StaysInCore core T T := staysInCore_of_eq rfl rfl

theorem SchedOnly.stays {T T' : Tiles} (h : SchedOnly T T') (core : Nat) : StaysInCore core T T' :=
  staysInCore_of_eq h.cores h.mem

/-- A change of the core's own registers. -/
theorem staysInCore_of_tabSet {core : Nat} {T T' : Tiles} {c : DspCore} (hcores : T'.cores = tabSet T.cores core c)
    (hmem : T'.mem = T.mem) : StaysInCore core T T' :=
  staysInCore_of_mem_eq (fun k hk => (congrArg (tabGet · k) hcores).trans (tabGet_tabSet_ne _ _ _ _ hk)) hmem

theorem coreMod_stays (T : Tiles) (core : Nat) (f : DspCore → DspCore) : StaysInCore core T (coreMod T core f) :=
  staysInCore_of_tabSet rfl rfl

theorem issued_stays (T : Tiles) (core : Nat) (i : Issue) : StaysInCore core T (issued T core i) :=
  staysInCore_of_tabSet rfl rfl

/-! An exception and TDONE change the core and the scheduler (R285, R294). -/

theorem takeException_stays (T : Tiles) (core code : Nat) (xpc xaddr : Word) : StaysInCore core T (takeException T core code xpc xaddr) := by
  unfold takeException
  refine ((endCoreTask_schedOnly T core .faulted).stays core).trans (StaysInCore.trans ?_ ((schedTick_schedOnly _).stays core))
  exact staysInCore_of_tabSet rfl rfl

theorem taskDone_stays (T : Tiles) (core mask : Nat) : StaysInCore core T (taskDone T core mask) := by
  unfold taskDone
  refine (coreMod_stays T core fun c => { c with task := 0 }).trans ?_
  dsimp only
  split
  · exact StaysInCore.refl core _
  · split
    · exact ((publish_markDone_schedOnly _ _ _ _ _).trans (schedTick_schedOnly _)).stays core
    · exact StaysInCore.refl core _

/-! Stores (R281). -/

/-- Every lane of an access that lies in one target lies in that target. -/
theorem oneTarget_lane {id : Nat} {lanes : List Word} {t : Target} (h : oneTarget id lanes = some t) {a : Word} (ha : a ∈ lanes) :
    (coreTarget id a.toNat).map Prod.fst = some t := by
  unfold oneTarget at h
  dsimp only at h
  have hmem : (coreTarget id a.toNat).map Prod.fst ∈
      lanes.flatMap (fun a => (List.range 4).map (fun i => (coreTarget id (a + BitVec.ofNat 32 i).toNat).map Prod.fst)) :=
    List.mem_flatMap.2 ⟨a, ha, List.mem_map.2 ⟨0, by simp, by simp⟩⟩
  generalize lanes.flatMap _ = ts at h hmem
  cases ts with
  | nil => cases h
  | cons u r =>
    obtain ⟨hall, hu⟩ : (∀ o ∈ r, o = u) ∧ u = some t := by simpa using h
    rcases List.mem_cons.1 hmem with hfirst | hrest
    · rw [hfirst, hu]
    · rw [hall _ hrest, hu]

/-- A store whose access is fine goes to targets that take it. -/
theorem storeOpen_of_fine {T : Tiles} {id : Nat} {c : DspCore} {w : Word} {loadBad : Bool} (h : mAccess T id c w loadBad = .fine)
    (hst : isStore w = true) {a : Word} (ha : a ∈ (mAddr c w).lanes) {tg : Target} {d : Nat} (ht : coreTarget id a.toNat = some (tg, d)) :
    storeOpen id tg = true := by
  unfold mAccess at h
  simp only [hst, if_true] at h
  split at h
  · cases h
  · split at h
    · split at h <;> cases h
    next t hone =>
      have hlane := oneTarget_lane hone ha
      rw [ht] at hlane
      cases hlane
      split at h
      next hopen => exact hopen
      · split at h <;> cases h

/-- The words of a store are those at its lanes. -/
theorem mem_mStores {c : DspCore} {w : Word} {p : Word × Word} (h : p ∈ mStores c w) : isStore w = true ∧ p.1 ∈ (mAddr c w).lanes := by
  unfold mStores at h
  dsimp only at h
  split at h
  next ho => exact ⟨by simp [isStore, ho], (List.of_mem_zip h).1⟩
  next ho =>
    have hp : p.1 = (mAddr c w).ea := by rw [List.mem_singleton.1 h]
    refine ⟨by simp [isStore, ho], ?_⟩
    rw [hp]
    simp [mAddr, ho]
  · cases h

theorem length_p32 (v : Nat) : (p32 v).length = 4 := by rfl

theorem coreWords_stays {core : Nat} {ws : List (Word × Word)} (hopen : ∀ p ∈ ws, ∀ tg d, coreTarget core p.1.toNat = some (tg, d) →
    storeOpen core tg = true) (T : Tiles) : StaysInCore core T (coreWords T core ws) := by
  induction ws generalizing T with
  | nil => exact StaysInCore.refl core T
  | cons p ws ih =>
    obtain ⟨a, v⟩ := p
    unfold coreWords
    refine StaysInCore.trans ?_ (ih (fun q hq => hopen q (List.mem_cons_of_mem _ hq)) _)
    split
    next tg d ht =>
      split
      · exact StaysInCore.refl core T
      · refine ⟨fun _ _ => rfl, memWf_memWriteBytes _ _ _, fun x hx => memRead_memWriteBytes_ne _ _ _ _ ?_⟩
        have hout := hx _ tg d ht (hopen _ List.mem_cons_self tg d ht)
        rw [length_p32]
        omega
    · exact StaysInCore.refl core T

theorem coreStore_stays {core : Nat} {ws : List (Word × Word)} (hopen : ∀ p ∈ ws, ∀ tg d, coreTarget core p.1.toNat = some (tg, d) →
    storeOpen core tg = true) (T : Tiles) : StaysInCore core T (coreStore T core ws) := by
  unfold coreStore
  dsimp only
  split
  · exact (coreWords_stays hopen T).trans (staysInCore_of_eq rfl rfl)
  · exact coreWords_stays hopen T

/-! The pair (R263). -/

theorem accessNoted_stays (T : Tiles) (core : Nat) (c : DspCore) (o : AOut) (mw : Option Word) (acc : Access) :
    StaysInCore core T (accessNoted T core c o mw acc) := by
  unfold accessNoted
  split
  · exact staysInCore_of_eq rfl rfl
  · split
    · exact staysInCore_of_eq rfl rfl
    · exact StaysInCore.refl core T
  · exact StaysInCore.refl core T

theorem pairStored_stays {U : Tiles} {core : Nat} {c : DspCore} {i : Issue} (T : Tiles) :
    StaysInCore core T (pairStored T core c (mWord i) (pairAccess U core c i)) := by
  unfold pairStored
  split
  next w hmw hacc =>
    refine coreStore_stays (fun p hp tg d ht => ?_) T
    obtain ⟨hst, hlane⟩ := mem_mStores hp
    rw [pairAccess, hmw] at hacc
    exact storeOpen_of_fine hacc hst hlane ht
  · exact StaysInCore.refl core T

theorem pairDone_stays (T : Tiles) (core : Nat) (o : AOut) : StaysInCore core T (pairDone T core o) := by
  unfold pairDone
  split
  · exact taskDone_stays _ _ _
  · exact StaysInCore.refl core T

theorem pairEnds_stays (T : Tiles) (core : Nat) (c : DspCore) (i : Issue) (o : AOut) : StaysInCore core T (pairEnds T core c i o) := by
  unfold pairEnds
  dsimp only
  refine (accessNoted_stays T core c o (mWord i) (pairAccess T core c i)).trans ?_
  split
  · exact takeException_stays _ _ _ _ _
  · exact (coreMod_stays _ core _).trans ((pairStored_stays _).trans (pairDone_stays _ core o))

/-- Whatever a core issues stays in its reach. -/
theorem runPair_stays (T : Tiles) (core : Nat) (i : Issue) (eff : Option (DspCore → AOut)) : StaysInCore core T (runPair T core i eff) := by
  rw [runPair_eq]
  split
  · exact StaysInCore.refl core T
  · refine (issued_stays T core i).trans ?_
    split
    · exact takeException_stays _ _ _ _ _
    · split
      · exact StaysInCore.refl core _
      · split
        · exact takeException_stays _ _ _ _ _
        · exact pairEnds_stays _ _ _ _ _

/-- A core row that answers a state changed the tiles by its pair, or, with its tile off, nothing. -/
theorem coreRow_inv {own : Word → Bool} {core : Fin 64} {i : Issue} {eff : Option (DspCore → AOut)} {s t : State}
    (h : coreRow own core i eff s = .next t) : ∃ T, StaysInCore core.val s.dev.tiles T ∧ t.dev = settle { quiet s with tiles := T } := by
  unfold coreRow at h
  split at h
  · rw [run_eq] at h
    cases h
    dsimp only
    split
    · exact ⟨_, runPair_stays _ _ _ _, congrArg settle rfl⟩
    · exact ⟨_, StaysInCore.refl _ _, congrArg settle rfl⟩
  · cases h

/-- Settles O35: the pair stays in its core's reach (`runPair_stays`), and settling it writes only reports. -/
theorem coreInstructionsStayInTheirCore : Obligations.CoreInstructionsStayInTheirCore := by
  intro own eff core i s t h
  obtain ⟨T, hstays, ht⟩ := coreRow_inv h
  have hcores : t.dev.tiles.cores = T.cores := by rw [ht, settle_tiles_cores]
  have hmem : t.dev.tiles.mem = T.mem := by rw [ht, settle_tiles_mem]
  refine ⟨fun k hk => ?_, ?_, ?_, ?_, ?_, ?_, ?_, ?_, ?_, ?_, ?_, ?_, ?_, ?_, ?_, ?_, fun hwf => ?_, fun x hx => ?_⟩
  case refine_1 =>
    rw [getCore, hcores]
    exact hstays.cores k hk
  case refine_17 =>
    rw [hmem]
    exact hstays.wf hwf
  case refine_18 =>
    rw [hmem]
    exact hstays.mem x hx
  case refine_16 =>
    have hmode : t.dev.fw.mode = s.dev.fw.mode := by
      rw [ht, settle_fw_mode]
      rfl
    exact hmode
  all_goals
    rw [ht]
    simp [quiet]

end Sys2Proof.Machine

/-! A bank of tasks that lists one number twice: `tabGet` reads its first record, and the scheduler's search for ready tasks finds both. -/

namespace Sys2Proof.Machine

/-- The record of task 0 that `tabGet` reads: it runs on core 0, has a void input and no void entry. -/
def firstListed : Task := { used := true, state := .running, voidIn := 1 }

/-- The second record of task 0: it waits for nothing. -/
def listedAgain : Task := { used := true, state := .waiting }

/-- Task 0 in a state and with an outcome, listed twice. -/
def twice (st : TaskState) (o : Outcome) : Tab Task := [(0, { firstListed with state := st, outcome := o }), (0, listedAgain)]

/-- Core 0 runs task 0 in a device that lists the task twice. -/
def twiceListed : State := { dev := {
  power := { on := 0xFFFF }
  tiles := { cores := [(0, { task := descAddr 0 })], sched := { tasks := twice .running .ok } } } }

theorem noteOutcome_tasks (T : Tiles) (i : Nat) (o : Outcome) (core : Nat) : (noteOutcome T i o core).sched.tasks = T.sched.tasks := by
  unfold noteOutcome schedMod
  cases o with
  | ok => rfl
  | _ =>
    simp only [reduceCtorEq, if_false]
    split <;> rfl

/-- Task 0 ends as VOID, whatever it was. -/
theorem markDone_twice {T : Tiles} {st : TaskState} {o : Outcome} (h : T.sched.tasks = twice st o) (o' : Outcome) (core : Nat) :
    (markDone T 0 o' core).sched.tasks = twice .done o' := by
  rw [markDone, noteOutcome_tasks, taskMod, schedMod, h]
  rfl

theorem publishTask_twice {T : Tiles} {st : TaskState} {o : Outcome} (h : T.sched.tasks = twice st o) (mask : Nat) : publishTask T 0 mask = T := by
  unfold publishTask getTask
  rw [h]
  rfl

/-- A round of readiness finds task 0 by its second record and ends it as VOID. -/
theorem settleReady_succ_twice (n : Nat) {T : Tiles} {o : Outcome} (h : T.sched.tasks = twice .done o) :
    settleReady (n + 1) T = settleReady n (markDone T 0 .void 0) := by
  have hfound : tabFind T.sched.tasks (fun t => t.used && t.state == .waiting && t.counter == 0) = [0] := by
    rw [h]
    rfl
  have hfirst : getTask T 0 = { firstListed with state := .done, outcome := o } := by
    rw [getTask, h]
    rfl
  rw [settleReady, hfound]
  simp only [List.isEmpty_cons, Bool.false_eq_true, if_false, List.foldl_cons, List.foldl_nil, hfirst]
  rw [if_pos (by decide), publishTask_twice (markDone_twice h .void 0)]

/-- Once done, task 0 does not stay as it was done. -/
theorem settleReady_twice (n : Nat) {T : Tiles} {o : Outcome} (h : T.sched.tasks = twice .done o) :
    (settleReady (n + 1) T).sched.tasks = twice .done .void := by
  induction n generalizing T o with
  | zero =>
    rw [settleReady_succ_twice 0 h]
    exact markDone_twice h .void 0
  | succ n ih =>
    rw [settleReady_succ_twice (n + 1) h]
    exact ih (markDone_twice h .void 0)

theorem schedTick_twice {T : Tiles} {o : Outcome} (h : T.sched.tasks = twice .done o) : (schedTick T).sched.tasks = twice .done .void :=
  settleReady_twice 4096 h

/-- Task 0 done by its core, before readiness is settled. -/
theorem publish_markDone_twice {T : Tiles} (h : T.sched.tasks = twice .running .ok) (o : Outcome) (core mask : Nat) :
    (publishTask (markDone T 0 o core) 0 mask).sched.tasks = twice .done o := by
  rw [publishTask_twice (markDone_twice h o core)]
  exact markDone_twice h o core

/-- What a core that runs task 0 reads of it. -/
theorem getTask_twice {T : Tiles} (h : T.sched.tasks = twice .running .ok) : getTask T 0 = firstListed := by
  rw [getTask, h]
  rfl

theorem taskDone_twice {T : Tiles} (hcore : (getCore T 0).task = descAddr 0) (h : T.sched.tasks = twice .running .ok) (mask : Nat) :
    (taskDone T 0 mask).sched.tasks = twice .done .void := by
  have hleft : (coreMod T 0 fun c => { c with task := 0 }).sched.tasks = twice .running .ok := h
  have hruns : getTask (coreMod T 0 fun c => { c with task := 0 }) (descIx (descAddr 0)) = firstListed := getTask_twice hleft
  simp only [taskDone, hcore, hruns]
  rw [if_neg (by decide), if_pos (by decide)]
  exact schedTick_twice (publish_markDone_twice hleft .ok _ _)

theorem endCoreTask_twice {T : Tiles} (hcore : (getCore T 0).task = descAddr 0) (h : T.sched.tasks = twice .running .ok) (o : Outcome) :
    (endCoreTask T 0 o).sched.tasks = twice .done o := by
  have hruns : getTask T (descIx (descAddr 0)) = firstListed := getTask_twice h
  simp only [endCoreTask, hcore, hruns]
  rw [if_neg (by decide), if_pos (by decide)]
  exact publish_markDone_twice h o _ _

theorem takeException_twice {T : Tiles} (hcore : (getCore T 0).task = descAddr 0) (h : T.sched.tasks = twice .running .ok) (code : Nat)
    (xpc xaddr : Word) : (takeException T 0 code xpc xaddr).sched.tasks = twice .done .void :=
  schedTick_twice (endCoreTask_twice hcore h .faulted)

/-- Such a bank shows neither the outcome of TDONE nor that of an exception. -/
theorem outcome_of_twice {T : Tiles} (h : T.sched.tasks = twice .done .void) {o : Outcome} (ho : o ≠ .void) :
    ¬ (getTask T 0).outcome = o := by
  rw [getTask, h]
  exact ho.symm

theorem getTask_settle (d : Dev) (k : Nat) : getTask (settle d).tiles k = getTask d.tiles k :=
  congrArg (fun q : Sched => tabGet q.tasks k) (settle_tiles_sched d)

/-- Refutes O32 in its clause on TDONE's task: where the bank of tasks lists a number twice, settling readiness finds the record that `tabGet`
does not read, and the task that TDONE has just made DONE with outcome OK ends as VOID.  The statement ranges over every state and does not ask
that the bank lists a number once. -/
theorem not_systemWordsTakeEffect : ¬ Obligations.SystemWordsTakeEffect := by
  intro h
  let i : Issue := { w := 2 }
  let c : DspCore := getCore twiceListed.dev.tiles 0
  have hissues : issues twiceListed 0 i := by
    refine ⟨?_, ?_, ?_, ?_, ?_⟩ <;> decide
  obtain ⟨-, -, -, htdone, -⟩ := h 0 i twiceListed hissues (by decide)
  obtain ⟨hexec, hall⟩ := htdone (by decide) (by decide)
  obtain ⟨-, -, htask⟩ := hall _ hexec
  obtain ⟨-, hout⟩ := htask (by decide) (by decide) (by decide) (by decide)
  rw [after, getTask_settle] at hout
  have hend : (taskDone (coreLeft twiceListed.dev.tiles 0 i (advance c 1 c)) 0 (tabGet c.s (fld i.w 21 18)).toNat).sched.tasks =
      twice .done .void := taskDone_twice rfl rfl _
  exact absurd hout (outcome_of_twice hend (by decide))

/-- Refutes O34 in its clause on the task's outcome: in the same state, a word of VADD that is not fetched raises cause 1, and the task that the
exception has just made FAULTED ends as VOID. -/
theorem not_coreExceptionsAreTaken : ¬ Obligations.CoreExceptionsAreTaken := by
  intro h
  let i : Issue := { w := 0x04000000, fetchBad := true }
  obtain ⟨-, hfetch, -⟩ := h 0 i twiceListed (by decide) (by decide)
  obtain ⟨t, ht, -, -, -, -, hfaulted⟩ := hfetch (by decide) (by decide) (by decide)
  have hout := hfaulted (by decide) (by decide) (by decide) (by decide)
  have hrow := coreRow_eq (own := isVV 0) (core := 0) (i := i) (s := twiceListed) (by decide) (by decide) (some (effVadd i.w))
  cases hrow.symm.trans ht
  rw [after, getTask_settle] at hout
  have hrun : runPair twiceListed.dev.tiles 0 i (some (effVadd i.w)) = takeException (issued twiceListed.dev.tiles 0 i) 0 1 0xE0200000 0 := by
    rw [runPair_eq, if_neg (by decide), if_pos (by decide)]
    rfl
  have hend : (runPair twiceListed.dev.tiles 0 i (some (effVadd i.w))).sched.tasks = twice .done .void := by
    rw [hrun]
    exact takeException_twice rfl rfl _ _ _
  exact absurd hout (outcome_of_twice hend (by decide))

end Sys2Proof.Machine

/-! Audio ports as state (chapter 12): what one change makes of its port, what it leaves of the others, and what an event, a reply or a
settling leaves of them all. -/

namespace Sys2Proof.Machine

section
variable {d d' : Dev} {i j : Nat}

/-! The ports are read from their bank alone. -/

theorem getAes_of_ports (h : d'.ports = d.ports) (i : Nat) : getAes d' i = getAes d i := congrArg (fun p : Ports => tabGet p.aesRx i) h
theorem getAtx_of_ports (h : d'.ports = d.ports) (i : Nat) : getAtx d' i = getAtx d i := congrArg (fun p : Ports => tabGet p.aesTx i) h
theorem getTdm_of_ports (h : d'.ports = d.ports) (i : Nat) : getTdm d' i = getTdm d i := congrArg (fun p : Ports => tabGet p.tdm i) h

@[simp] theorem getAes_settle (d : Dev) (i : Nat) : getAes (settle d) i = getAes d i := getAes_of_ports (settle_ports d) i
@[simp] theorem getAtx_settle (d : Dev) (i : Nat) : getAtx (settle d) i = getAtx d i := getAtx_of_ports (settle_ports d) i
@[simp] theorem getTdm_settle (d : Dev) (i : Nat) : getTdm (settle d) i = getTdm d i := getTdm_of_ports (settle_ports d) i

/-! A change of one port. -/

@[simp] theorem getAes_aesMod_same (f : AesRx → AesRx) : getAes (aesMod d i f) i = f (getAes d i) := tabGet_tabMod_same ..
theorem getAes_aesMod_ne (f : AesRx → AesRx) (h : j ≠ i) : getAes (aesMod d i f) j = getAes d j := tabGet_tabMod_ne _ _ _ _ h
@[simp] theorem getAtx_atxMod_same (f : AesTx → AesTx) : getAtx (atxMod d i f) i = f (getAtx d i) := tabGet_tabMod_same ..
theorem getAtx_atxMod_ne (f : AesTx → AesTx) (h : j ≠ i) : getAtx (atxMod d i f) j = getAtx d j := tabGet_tabMod_ne _ _ _ _ h
@[simp] theorem getTdm_tdmMod_same (f : Tdm → Tdm) : getTdm (tdmMod d i f) i = f (getTdm d i) := tabGet_tabMod_same ..
theorem getTdm_tdmMod_ne (f : Tdm → Tdm) (h : j ≠ i) : getTdm (tdmMod d i f) j = getTdm d j := tabGet_tabMod_ne _ _ _ _ h

theorem atxMod_congr {f g : AesTx → AesTx} (h : f (getAtx d i) = g (getAtx d i)) : atxMod d i f = atxMod d i g := by
  simp only [atxMod, portsMod, tabMod_congr h]

theorem getAtx_clip (d : Dev) (n : Nat) (f : Word → Word) (i : Nat) :
    getAtx (portsMod d (fun p => { p with clip := tabMod p.clip n f })) i = getAtx d i := rfl
theorem getTdm_clip (d : Dev) (n : Nat) (f : Word → Word) (i : Nat) :
    getTdm (portsMod d (fun p => { p with clip := tabMod p.clip n f })) i = getTdm d i := rfl

/-! Events and replies. -/

@[simp] theorem evUnderrun_ports (d : Dev) (kind index cause : Nat) (mt : MT) (slips : Word) :
    (evUnderrun d kind index cause mt slips).ports = d.ports := by simp [evUnderrun]
@[simp] theorem aesTo_ports (d : Dev) (i : Nat) (old : AesState) : (aesTo d i old).ports = d.ports := by
  simp only [aesTo, apply_ite Dev.ports, evPortClock_ports, ite_self]
@[simp] theorem tdmTo_ports (d : Dev) (n : Nat) (old : TdmState) : (tdmTo d n old).ports = d.ports := by
  simp only [tdmTo, apply_ite Dev.ports, evPortClock_ports, ite_self]

@[simp] theorem getAes_aesStep_same (f : AesRx → AesRx) : getAes (aesStep d i f) i = f (getAes d i) :=
  (getAes_of_ports (aesTo_ports ..) i).trans (getAes_aesMod_same f)
theorem getAes_aesStep_ne (f : AesRx → AesRx) (h : j ≠ i) : getAes (aesStep d i f) j = getAes d j :=
  (getAes_of_ports (aesTo_ports ..) j).trans (getAes_aesMod_ne f h)
@[simp] theorem getTdm_tdmStep_same (f : Tdm → Tdm) : getTdm (tdmStep d i f) i = f (getTdm d i) :=
  (getTdm_of_ports (tdmTo_ports ..) i).trans (getTdm_tdmMod_same f)
theorem getTdm_tdmStep_ne (f : Tdm → Tdm) (h : j ≠ i) : getTdm (tdmStep d i f) j = getTdm d j :=
  (getTdm_of_ports (tdmTo_ports ..) j).trans (getTdm_tdmMod_ne f h)

@[simp] theorem queueReply_ports (d : Dev) (t : Taken) (m : OutMsg) : (queueReply d t m).ports = d.ports := by
  unfold queueReply; dsimp only
  (repeat' split) <;> rfl
@[simp] theorem reply_ports (d : Dev) (t : Taken) (st : Status) (body : List Byte) (bulk : Bool) : (reply d t st body bulk).ports = d.ports := by
  unfold reply
  (repeat' split) <;> simp
@[simp] theorem answerMask_ports (d : Dev) (n : Nat) : (answerMask d n).ports = d.ports :=
  foldl_keeps Dev.ports _ (fun _ _ => reply_ports ..) _ _

end

end Sys2Proof.Machine

/-! AES3 receivers and transmitters between boundaries (R314–R318): what each row makes of its port. -/

namespace Sys2Proof.Machine

/-- A receiver's frequency is right: the rate that it has identified is the configured one where it runs on its own clock, elsewhere
within 200 ppm of its domain. -/
theorem aesFreqOk_iff {own : Bool} {c : AesRxCfg} {eps : Int} {rate : Nat} : aesFreqOk own c eps rate = true ↔
    if own = true then rate ≠ 0 ∧ (c.nominal = 0 ∨ rate = c.nominal) else eps.natAbs ≤ 200000 := by
  cases own <;> simp [aesFreqOk, epsOk]

section
variable {d : Dev} {i : Nat}

/-! Receivers. -/

theorem getAes_aesLocking_of (hen : (getAes d i).cfg.enable = true) (hs : (getAes d i).state = .absent) (hframes : 8 ≤ (getAes d i).frames) :
    getAes (aesLocking d i) i =
      { getAes d i with state := .locking, frames := 0, seenZ := false, sinceZ := 0, csA := [], csB := [], usA := [], usB := [] } := by
  rw [aesLocking, getAes_aesStep_same, if_pos ⟨hen, hs, hframes⟩]

theorem getAes_aesLocking_of_not (h : (getAes d i).state ≠ .absent ∨ (getAes d i).frames < 8 ∨ (getAes d i).cfg.enable = false) :
    getAes (aesLocking d i) i = getAes d i := by
  rw [aesLocking, getAes_aesStep_same, if_neg]
  rintro ⟨hen, hs, hframes⟩
  rcases h with h | h | h
  · exact h hs
  · omega
  · exact Bool.false_ne_true (h.symm.trans hen)

theorem getAes_aesLockOn_of (hen : (getAes d i).cfg.enable = true) (hs : (getAes d i).state = .locking) (hz : (getAes d i).seenZ = true)
    (hframes : single d = true ∨ 4096 ≤ (getAes d i).frames)
    (hfreq : aesFreqOk (single d) (getAes d i).cfg (getAes d i).eps (getAes d i).rateHz = true) :
    getAes (aesLockOn d i) i = aesLock (getAes d i) (aesGrouped d i && !single d) := by
  simp only [aesLockOn, getAes_aesStep_same]
  exact if_pos ⟨hen, hs, hz, hfreq, hframes⟩

theorem getAes_aesClockFault_of (hs : (getAes d i).state = .locking ∨ (getAes d i).state = .locked)
    (hfreq : aesFreqOk (single d) (getAes d i).cfg (getAes d i).eps (getAes d i).rateHz = false) :
    getAes (aesClockFault d i) i = { aesFade (getAes d i) .clockFault with clkFault := cInc (getAes d i).clkFault } := by
  simp only [aesClockFault]
  rw [if_pos ⟨hs, by simp [hfreq]⟩]
  split
  · exact (getAes_of_ports (evUnderrun_ports ..) i).trans (getAes_aesStep_same _)
  · exact getAes_aesStep_same _

theorem aesClockFault_of_freqOk (hfreq : aesFreqOk (single d) (getAes d i).cfg (getAes d i).eps (getAes d i).rateHz = true) :
    aesClockFault d i = d := if_neg (by simp [hfreq])

theorem getAes_aesAbsent (d : Dev) (i : Nat) : (getAes (aesAbsent d i) i).state = .absent ∧ (getAes (aesAbsent d i) i).frames = 0 := by
  rw [aesAbsent, getAes_aesStep_same]
  split
  case isTrue hs => exact ⟨hs, rfl⟩
  case isFalse => exact ⟨rfl, rfl⟩

theorem aesTake_off (h : portsRun d = false ∨ (getAes d i).cfg.enable = false) (f : AesFrame) : aesTake d i f = d :=
  if_pos (by simpa using h)

/-- No error of the line in either subframe. -/
structure CleanLine (f : AesFrame) : Prop where
  parA : f.a.parity = false
  biphA : f.a.biphase = false
  parB : f.b.parity = false
  biphB : f.b.biphase = false

/-- A subframe without line error gives its word, where nothing mutes it and 24 bits count (R311, R313). -/
theorem subSample_word {r : AesRx} {s : AesSub} (hp : s.parity = false) (hb : s.biphase = false) (hv : r.cfg.vmute = false) (hw : r.wl20 = false)
    (prev : Int) : subSample r false s prev = sext 24 s.word.toNat * 256 := by
  simp [subSample, hp, hb, hv, hw, wordIn]

/-- A frame that comes without error, in the reference's reach, leads to no slip: it is taken at the next position (R315). -/
theorem aesFrameRx_clean {r : AesRx} {grouped own : Bool} {dmt : MT} {f : AesFrame} (hs : r.state = .locked) (hz : f.z = false)
    (hin : elasticIn r.map f.mt f.frac = true) (hroom : mtDiff r.map.next dmt < 64)
    (hgroup : grouped = false ∨ (slipCounts r.gate = true ∧ gapLost r.lastMt r.lastFrac f.mt f.frac = 0)) (hline : CleanLine f)
    (hnonA : r.nonA = false) (hnonB : r.nonB = false) (hv : r.cfg.vmute = false) (hw : r.wl20 = false) :
    ∃ r', aesFrameRx r grouped own dmt f = (r', none) ∧ r'.map.next = r.map.next + 1 ∧
      r'.outA = linePut 512 r.outA r.map.next (sext 24 f.a.word.toNat * 256) ∧
      r'.outB = linePut 512 r.outB r.map.next (sext 24 f.b.word.toNat * 256) ∧ r'.slips = r.slips ∧ r'.state = .locked ∧ r'.gate = r.gate := by
  have hlost : (if grouped = true ∧ r.state = .locked then gapLost r.lastMt r.lastFrac f.mt f.frac else 0) = 0 := by
    rcases hgroup with h | ⟨-, h⟩ <;> simp [h]
  have hkeep : elasticSkip r.map 0 = r.map := by simp [elasticSkip]
  have hroom' : ¬ 64 ≤ mtDiff r.map.next dmt := by omega
  have hplace : (!grouped || slipCounts r.gate) = true := by
    rcases hgroup with h | ⟨h, -⟩ <;> simp [h]
  obtain ⟨hpa, hba, hpb, hbb⟩ := hline
  simp only [aesFrameRx, hlost, hz]
  simp [hs, hkeep, hroom', hplace, hin, hpa, hba, hpb, hbb, hnonA, hnonB, subSample_word, hv, hw]

/-- In an enabled receiver of an engine that runs, outside SINGLE_RATE, a frame that leads to no slip changes its receiver alone. -/
theorem aesTake_noSlip {f : AesFrame} {r' : AesRx} (hrun : portsRun d = true) (hen : (getAes d i).cfg.enable = true) (hsingle : single d = false)
    (hf : aesFrameRx (getAes d i) (aesGrouped d i) false (mtOf d (getAes d i).cfg.domain) f = (r', none)) :
    aesTake d i f = aesMod d i (fun _ => r') := by
  simp [aesTake, hrun, hen, hsingle, hf]

/-! Transmitters. -/

/-- A frame of a transmitter that runs is the next of its block (R318). -/
theorem aesFrameTx_running {t : AesTx} (h : t.phase = .running) (i rate : Nat) (a b : Int × Bool) :
    ∃ o, (aesFrameTx t i rate a b).1.sent = some o ∧ o.z = decide (t.frame = 0) ∧ (aesFrameTx t i rate a b).1.next = t.next + 1 ∧
      (aesFrameTx t i rate a b).1.frame = (t.frame + 1) % 192 ∧ (aesFrameTx t i rate a b).1.phase = .running := by
  by_cases hz : t.frame = 0 <;> simp [aesFrameTx, hz, h]

theorem aesSend_off (hrun : portsRun d = false) : aesSend d i = atxMod d i (fun t => { t with phase := .off, sent := none }) := by
  simp [aesSend, hrun]

theorem aesSend_idle (hrun : portsRun d = true) (hp : (getAtx d i).phase = .off) :
    aesSend d i = atxMod d i (fun t => { t with sent := none }) := by
  simp only [aesSend, hrun, hp, Bool.not_true, Bool.false_eq_true, if_false, if_true]
  exact atxMod_congr (by rw [hp])

/-- The port of a slip is left as it is by the event that tells of it. -/
theorem getAtx_ite_evUnderrun (c : Prop) [Decidable c] (e : Dev) (kind index cause : Nat) (mt : MT) (slips : Word) (i : Nat) :
    getAtx (if c then evUnderrun e kind index cause mt slips else e) i = getAtx e i := by
  split
  · exact getAtx_of_ports (evUnderrun_ports ..) i
  · rfl

/-- A transmitter that is enabled and runs in a domain that runs sends its next frame. -/
theorem getAtx_aesSend_running (hrun : portsRun d = true) (hp : (getAtx d i).phase = .running) (hen : (getAtx d i).cfg.enable = true)
    (hdom : domRuns (getDom d (effDom d (getAtx d i).cfg.domain)).state = true) :
    ∃ t' rate a b, getAtx (aesSend d i) i = (aesFrameTx t' i rate a b).1 ∧ t'.phase = .running ∧ t'.next = (getAtx d i).next ∧
      t'.frame = (getAtx d i).frame := by
  have hopen : ((getDom d (effDom d (getAtx d i).cfg.domain)).state == .stopped) = false := by
    cases h : (getDom d (effDom d (getAtx d i).cfg.domain)).state <;> simp_all [domRuns]
  simp only [aesSend, hrun, hp, hen, hopen, Bool.not_true, Bool.false_and, Bool.or_false, Bool.false_eq_true, if_false, reduceCtorEq]
  exact ⟨_, _, _, _, (getAtx_ite_evUnderrun ..).trans ((getAtx_clip ..).trans (getAtx_atxMod_same _)), rfl, rfl, rfl⟩

end

/-! The rows of those changes. -/

section
variable (k : Fin 16) (f : AesFrame) (s : State)

theorem exec_aes3RxLocking : exec (.aes3RxLocking k) s = .next (after s (aesLocking (quiet s) k.val)) := rfl
theorem exec_aes3RxLock : exec (.aes3RxLock k) s = .next (after s (aesLockOn (quiet s) k.val)) := rfl
theorem exec_aes3RxClockFault : exec (.aes3RxClockFault k) s = .next (after s (aesClockFault (quiet s) k.val)) := rfl
theorem exec_aes3RxAbsent : exec (.aes3RxAbsent k) s = .next (after s (aesAbsent (quiet s) k.val)) := rfl
theorem exec_aes3FrameRx : exec (.aes3FrameRx k f) s = .next (after s (aesTake (quiet s) k.val f)) := rfl
theorem exec_aes3FrameTx : exec (.aes3FrameTx k) s = .next (after s (aesSend (quiet s) k.val)) := rfl

end

/-- Settles O44: each row is its change of the quiet device, settled; settling keeps the ports.  The rate that SINGLE_RATE asks of a
receiver to lock is the model's choice (log entry 128). -/
theorem aes3PortsFollowTheirFrames : Obligations.Aes3PortsFollowTheirFrames := by
  intro k s i r x same rateOk
  have hrate : aesFreqOk (single (quiet s)) r.cfg r.eps r.rateHz = true ↔ rateOk := aesFreqOk_iff
  refine ⟨fun hen hs hframes => ?_, fun h => ?_, fun hen hs hz hframes hok => ?_, fun hs hbad => ?_, fun hok => ?_, ?_, fun f => ⟨fun h => ?_, ?_⟩,
    fun hrun => ?_, fun hrun hp => ?_, fun hrun hp hen hdom => ?_⟩
  · exact ⟨_, exec_aes3RxLocking k s, (getAes_settle ..).trans (getAes_aesLocking_of (d := quiet s) (i := i) hen hs hframes)⟩
  · exact ⟨_, exec_aes3RxLocking k s, (getAes_settle ..).trans (getAes_aesLocking_of_not (d := quiet s) (i := i) h)⟩
  · have hlock := (getAes_settle ..).trans (getAes_aesLockOn_of (d := quiet s) (i := i) hen hs hz hframes (hrate.2 hok))
    refine ⟨_, exec_aes3RxLock k s, ?_, ?_, ?_, ?_⟩
    · exact congrArg AesRx.state hlock
    · exact congrArg (·.gate.phase) hlock
    · exact (congrArg AesRx.cfg hlock :)
    · exact (congrArg AesRx.slips hlock :)
  · have hfault := (getAes_settle ..).trans
      (getAes_aesClockFault_of (d := quiet s) (i := i) hs (Bool.eq_false_iff.2 (fun h => hbad (hrate.1 h))))
    refine ⟨_, exec_aes3RxClockFault k s, ?_, ?_, ?_⟩
    · exact congrArg AesRx.state hfault
    · exact congrArg AesRx.clkFault hfault
    · exact (congrArg AesRx.slips hfault :)
  · rw [exec_aes3RxClockFault, aesClockFault_of_freqOk (d := quiet s) (i := k.val) (hrate.2 hok)]
  · obtain ⟨hs, hframes⟩ := getAes_aesAbsent (quiet s) i
    exact ⟨_, exec_aes3RxAbsent k s, (congrArg AesRx.state (getAes_settle ..)).trans hs, (congrArg AesRx.frames (getAes_settle ..)).trans hframes⟩
  · rw [exec_aes3FrameRx, aesTake_off (d := quiet s) (i := k.val) h]
  · intro hrun hen hs hsingle hz hin hroom hgroup hpa hba hpb hbb hnonA hnonB hv hw
    obtain ⟨r', hf, hnext, hA, hB, hslips, hstate, hgate⟩ :=
      aesFrameRx_clean (own := false) hs hz hin hroom hgroup ⟨hpa, hba, hpb, hbb⟩ hnonA hnonB hv hw
    have htake := aesTake_noSlip (d := quiet s) (i := i) hrun hen hsingle hf
    have hmine : getAes (settle (aesTake (quiet s) i f)) i = r' := by rw [getAes_settle, htake, getAes_aesMod_same]
    refine ⟨_, exec_aes3FrameRx k f s, ?_, ?_, ?_, ?_, ?_, ?_, fun j hj => ?_⟩
    · exact (congrArg (·.map.next) hmine).trans hnext
    · exact (congrArg AesRx.outA hmine).trans hA
    · exact (congrArg AesRx.outB hmine).trans hB
    · exact (congrArg AesRx.slips hmine).trans hslips
    · exact (congrArg AesRx.state hmine).trans hstate
    · exact (congrArg AesRx.gate hmine).trans hgate
    · exact (getAes_settle ..).trans (htake ▸ getAes_aesMod_ne _ hj)
  · have hoff := (getAtx_settle ..).trans ((congrArg (getAtx · i) (aesSend_off (d := quiet s) (i := i) hrun)).trans (getAtx_atxMod_same _))
    exact ⟨_, exec_aes3FrameTx k s, congrArg AesTx.phase hoff, congrArg AesTx.sent hoff⟩
  · rw [exec_aes3FrameTx, aesSend_idle (d := quiet s) (i := k.val) hrun hp]
  · obtain ⟨x', rate, a, b, hsend, hphase, hnext, hframe⟩ := getAtx_aesSend_running (d := quiet s) (i := i) hrun hp hen hdom
    obtain ⟨o, hsent, hoz, hn, hfr, hph⟩ := aesFrameTx_running hphase i rate a b
    have hmine := (getAtx_settle ..).trans hsend
    refine ⟨_, o, exec_aes3FrameTx k s, ?_, ?_, ?_, ?_, ?_⟩
    · exact (congrArg AesTx.sent hmine).trans hsent
    · exact (congrArg AesTx.next hmine).trans (hn.trans (congrArg (· + 1) hnext))
    · exact (congrArg AesTx.frame hmine).trans (hfr.trans (congrArg (fun n => (n + 1) % 192) hframe))
    · exact (congrArg AesTx.phase hmine).trans hph
    · rw [hoz, hframe]
      rfl

end Sys2Proof.Machine

/-! TDM ports between boundaries (R320–R322, R324): what each row makes of its port. -/

namespace Sys2Proof.Machine

section
variable {d : Dev} {n : Nat}

/-! A change of state, where its conditions hold and where they do not. -/

theorem getTdm_tdmLock_of (hen : (getTdm d n).cfg.enable = true) (hs : (getTdm d n).state = .noClock) (hframes : 64 ≤ (getTdm d n).frames)
    (hruns : tdmRunsOn d n = true) :
    getTdm (tdmLock d n) n = tdmStart (tdmRefer (getTdm d n) (tdmGrouped d n 2) (tdmGrouped d n 3)) := by
  rw [tdmLock, getTdm_tdmStep_same, if_pos ⟨hen, hs, hframes, hruns⟩]

theorem getTdm_tdmLock_of_not
    (h : (getTdm d n).state ≠ .noClock ∨ (getTdm d n).frames < 64 ∨ (getTdm d n).cfg.enable = false ∨ tdmRunsOn d n = false) :
    getTdm (tdmLock d n) n = getTdm d n := by
  rw [tdmLock, getTdm_tdmStep_same, if_neg]
  rintro ⟨hen, hs, hframes, hruns⟩
  rcases h with h | h | h | h
  · exact h hs
  · omega
  · exact Bool.false_ne_true (h.symm.trans hen)
  · exact Bool.false_ne_true (h.symm.trans hruns)

theorem getTdm_tdmRun_of (hs : (getTdm d n).state = .starting) (hframes : 64 ≤ (getTdm d n).frames) (hsingle : single d = false) {g : SlipGate}
    (hg : g = { phase := .ramp, t := nextMt (mtOf d (effDom d (getTdm d n).cfg.domain)) }) :
    getTdm (tdmRun d n) n = { getTdm d n with state := .running, frames := 0, gate := g, gateT := g } := by
  subst hg
  simp only [tdmRun, getTdm_tdmStep_same, hsingle, Bool.false_and, Bool.false_eq_true, if_false, if_pos (And.intro hs hframes)]

theorem getTdm_tdmRun_of_not (h : (getTdm d n).state ≠ .starting ∨ (getTdm d n).frames < 64) : getTdm (tdmRun d n) n = getTdm d n := by
  simp only [tdmRun, getTdm_tdmStep_same]
  exact if_neg (fun ⟨hs, hframes⟩ => h.elim (· hs) (by omega))

/-- The bridges' assignment and the power domains asked for are no matter of the ports'. -/
theorem replanned_ports (d : Dev) : (powerPlan (if single d = true then singleAssign d else d)).ports = d.ports := by
  split <;> rfl
theorem getTdm_replanned (d : Dev) (n : Nat) : getTdm (powerPlan (if single d = true then singleAssign d else d)) n = getTdm d n :=
  getTdm_of_ports (replanned_ports d) n

/-- The end of STOPPING: the change that waited is in force (R321). -/
theorem getTdm_tdmStop_of (hs : (getTdm d n).state = .stopping) (hframes : 64 ≤ (getTdm d n).frames) {c : TdmCfg}
    (hc : c = (getTdm d n).pend.getD (getTdm d n).cfg) :
    (getTdm (tdmStop d n) n).cfg = c ∧ (getTdm (tdmStop d n) n).pend = none ∧ (c.enable = false → (getTdm (tdmStop d n) n).state = .stopped) ∧
      (c.enable = true → c.target = true → (getTdm (tdmStop d n) n).state = .noClock) := by
  subst hc
  simp only [tdmStop, getTdm_replanned, getTdm_tdmStep_same, if_pos (And.intro hs hframes)]
  refine ⟨?_, ?_, fun hoff => by simp [hoff], fun hon htarget => by simp [hon, htarget]⟩
  all_goals (repeat' split) <;> rfl

theorem getTdm_tdmStop_of_not (h : (getTdm d n).state ≠ .stopping ∨ (getTdm d n).frames < 64) : getTdm (tdmStop d n) n = getTdm d n := by
  simp only [tdmStop, getTdm_replanned, getTdm_tdmStep_same]
  exact if_neg (fun ⟨hs, hframes⟩ => h.elim (· hs) (by omega))

theorem getTdm_tdmNoClock_of (ht : (getTdm d n).cfg.target = true) (hs : (getTdm d n).state = .running ∨ (getTdm d n).state = .clockFault) :
    getTdm (tdmNoClock d n) n = { tdmFade (getTdm d n) with state := .noClock, frames := 0, dout := [] } := by
  rw [tdmNoClock, getTdm_tdmStep_same, if_pos ⟨ht, hs⟩]

theorem getTdm_tdmNoClock_master (ht : (getTdm d n).cfg.target = false) : getTdm (tdmNoClock d n) n = getTdm d n := by
  rw [tdmNoClock, getTdm_tdmStep_same, if_neg (by simp [ht])]

/-- A gate whose slips count fades from a slip on (R324). -/
theorem slipStart_fades {g : SlipGate} (h : slipCounts g = true) (k : MT) (last : List Int) : (slipStart g k last).phase = .fade := by
  cases hp : g.phase <;> simp [slipCounts, slipStart, hp] at h ⊢

theorem tdmFade_running {t : Tdm} (hs : t.state = .running) (hg : slipCounts t.gate = true) : (tdmFade t).gate.phase = .fade := by
  rw [tdmFade, if_pos hs]
  exact slipStart_fades hg _ _

theorem tdmFade_slips (t : Tdm) : (tdmFade t).slips = t.slips := by
  unfold tdmFade
  split <;> rfl

theorem getTdm_tdmFault_of (ht : (getTdm d n).cfg.target = true) (hs : (getTdm d n).state = .running) (heps : 200000 < (getTdm d n).eps.natAbs) :
    getTdm (tdmFault d n) n = { tdmFade (getTdm d n) with state := .clockFault, frames := 0 } := by
  simp only [tdmFault]
  rw [if_pos ⟨ht, hs, by simp [epsOk, heps]⟩]
  split
  · exact (getTdm_of_ports (evUnderrun_ports ..) n).trans (getTdm_tdmStep_same _)
  · exact getTdm_tdmStep_same _

theorem tdmFault_of_epsOk (heps : (getTdm d n).eps.natAbs ≤ 200000) : tdmFault d n = d := if_neg (by simp [epsOk, heps])

theorem getTdm_portRecover_of (hn : n < 8) (hs : (getTdm d n).state = .clockFault) (hframes : tdmRate d n ≤ (getTdm d n).frames) :
    getTdm (portRecover d 3 n) n = { tdmRefer (getTdm d n) (tdmGrouped d n 2) (tdmGrouped d n 3) with
      state := .running, frames := 0, gate := { (getTdm d n).gate with phase := .zero, clean := 0 }
      gateT := { (getTdm d n).gateT with phase := .zero, clean := 0 } } := by
  rw [portRecover, if_neg (by simp), if_pos ⟨rfl, hn⟩, getTdm_tdmStep_same, if_pos ⟨hs, hframes⟩]

/-! Mask copies (R322, R323). -/

theorem maskCopy_state (t : Tdm) (m : MT) (lead : Nat) : (maskCopy t m lead).1.state = t.state := by
  simp only [maskCopy]
  (repeat' split) <;> rfl
theorem maskCopy_cfg (t : Tdm) (m : MT) (lead : Nat) : (maskCopy t m lead).1.cfg = t.cfg := by
  simp only [maskCopy]
  (repeat' split) <;> rfl

/-- Without an arm a port in RUNNING copies nothing but shadows stored for its start. -/
theorem maskCopy_unarmed {t : Tdm} (h : t.armed = false) (hs : t.state = .running) (m : MT) (lead : Nat) :
    (maskCopy t m lead).1 = if t.startCopy = true then copyMasks t m else t := by
  have hlive : (t.startCopy && (t.state == .starting || t.state == .running)) = t.startCopy := by simp [hs]
  have hcopied : (if t.startCopy = true then copyMasks t m else t).armed = false := by split <;> exact h
  simp only [maskCopy, hlive, hcopied, Bool.not_false, Bool.true_or, if_true]

theorem maskCopy_none {t : Tdm} (h : t.armed = false) (hs : t.state = .running) (hstart : t.startCopy = false) (m : MT) (lead : Nat) :
    (maskCopy t m lead).1 = t := by rw [maskCopy_unarmed h hs, if_neg (by simp [hstart])]
theorem maskCopy_start {t : Tdm} (h : t.armed = false) (hs : t.state = .running) (hstart : t.startCopy = true) (m : MT) (lead : Nat) :
    (maskCopy t m lead).1 = copyMasks t m := by rw [maskCopy_unarmed h hs, if_pos hstart]

end

/-! Frames. -/

section
variable {t : Tdm} {n : Nat} {f : Nat} {gr gt inhibit : Bool} {both : Nat} {tx : Nat → MT → Int × Bool} {fr : TdmIn}

/-- A port in NO_CLOCK counts the good frames of its clock in a row, and carries nothing. -/
theorem tdmFrame_noClock (hs : t.state = .noClock) : let q := (tdmFrame t n f gr gt inhibit both tx fr).1
    q.state = .noClock ∧ q.frames = (if fr.bclkOk = true ∧ fr.epsPpb.natAbs ≤ 200000 then t.frames + 1 else 0) ∧ q.rx = t.rx ∧
      q.rxMask = t.rxMask ∧ q.slips = t.slips := by
  have hlive : tdmLive .noClock = false := rfl
  simp only [tdmFrame, hs, hlive, Bool.not_false, Bool.false_eq_true, if_false, if_true, true_or, epsOk, Bool.and_eq_true, decide_eq_true_eq, and_self]

/-- A port in RUNNING has a word for each slot, and the masks that are due at the frame. -/
theorem tdmFrame_running (hs : t.state = .running) : let q := (tdmFrame t n f gr gt inhibit both tx fr).1
    q.state = .running ∧ q.dout.length = t.cfg.slots ∧ q.lastMt = fr.mt ∧ q.eps = fr.epsPpb ∧
      ∃ m, q.rxMask = (maskCopy t m fr.armLead).1.rxMask ∧ q.txMask = (maskCopy t m fr.armLead).1.txMask := by
  have hlive : tdmLive .running = true := rfl
  simp only [tdmFrame, hs, hlive, maskCopy_state, maskCopy_cfg, Bool.not_true, Bool.false_eq_true, if_false, if_true, List.length_map,
    List.length_range, true_and]
  exact ⟨_, rfl, rfl⟩

end

section
variable {d : Dev} {n : Nat}

theorem tdmTake_off (hrun : portsRun d = false) (fr : TdmIn) : tdmTake d n fr = tdmMod d n (fun t => { t with dout := [] }) := by
  simp only [tdmTake, hrun, Bool.not_false, if_true]

/-- The count of clips, the answer to a copy of masks and the event of a slip leave every port as it is. -/
theorem getTdm_told (e : Dev) (dom : Nat) (w : Word → Word) (copied : Bool) (slip : Option (Nat × SlipCause × MT)) (n i : Nat) :
    let c := portsMod e (fun p => { p with clip := tabMod p.clip dom w })
    let a := if copied then answerMask c n else c
    getTdm (match slip with
      | some (k, c, m) => evUnderrun a k n c m (getTdm a n).slips
      | none => a) i = getTdm e i := by
  intro c a
  have ha : getTdm a i = getTdm e i := by
    cases copied with
    | true => exact getTdm_of_ports (answerMask_ports ..) i
    | false => rfl
  cases slip with
  | none => exact ha
  | some => exact (getTdm_of_ports (evUnderrun_ports ..) i).trans ha

/-- Outside SINGLE_RATE a frame of a port that no STOP of its domain has reached changes the port as the frame says, and settles its channels. -/
theorem getTdm_tdmTake (hrun : portsRun d = true) (hsingle : single d = false)
    (hstay : (getDom d (effDom d (getTdm d n).cfg.domain)).state ≠ .stopped ∨ (getTdm d n).state = .noClock) (fr : TdmIn) :
    ∃ f gr gt inhibit both tx chans, getTdm (tdmTake d n fr) n = { (tdmFrame (getTdm d n) n f gr gt inhibit both tx fr).1 with tx := chans } := by
  have hstop : ((getDom d (effDom d (getTdm d n).cfg.domain)).state == .stopped && (getDom d (effDom d (getTdm d n).cfg.domain)).closing.isNone &&
      ((getTdm d n).state == .starting || (getTdm d n).state == .running) && !tdmInhibit d n) = false := by
    rcases hstay with h | h <;> simp [h]
  simp only [tdmTake, hrun, hsingle, hstop, Bool.not_true, Bool.false_and, Bool.false_eq_true, if_false]
  exact ⟨_, _, _, _, _, _, _, (getTdm_told ..).trans (getTdm_tdmMod_same _)⟩

end

/-! The rows of those changes. -/

section
variable (k : Fin 8) (f : TdmIn) (s : State)

theorem exec_tdmClockLock : exec (.tdmClockLock k) s = .next (after s (tdmLock (quiet s) k.val)) := rfl
theorem exec_tdmStartComplete : exec (.tdmStartComplete k) s = .next (after s (tdmRun (quiet s) k.val)) := rfl
theorem exec_tdmStopComplete : exec (.tdmStopComplete k) s = .next (after s (tdmStop (quiet s) k.val)) := rfl
theorem exec_tdmNoClock : exec (.tdmNoClock k) s = .next (after s (tdmNoClock (quiet s) k.val)) := rfl
theorem exec_tdmClockFault : exec (.tdmClockFault k) s = .next (after s (tdmFault (quiet s) k.val)) := rfl
theorem exec_tdmFrame : exec (.tdmFrame k f) s = .next (after s (tdmTake (quiet s) k.val f)) := rfl
theorem exec_portClockRecovered (kind index : Nat) :
    exec (.portClockRecovered kind index) s = .next (after s (portRecover (quiet s) kind index)) := rfl

end

/-- Settles O45: each row is its change of the quiet device, settled; settling keeps the ports.  That a target port does not lock in a
STOPPED domain is the model's choice (log entry 128), and so is the copy of stored masks at a port's first frame (log entry 88). -/
theorem tdmPortsFollowTheirClock : Obligations.TdmPortsFollowTheirClock := by
  intro k s n x same
  refine ⟨⟨_, exec_tdmClockLock k s, fun hen hs hframes hruns => ?_, fun h => ?_⟩,
    ⟨_, exec_tdmStartComplete k s, fun hs hframes hsingle => ?_, fun h => ?_⟩,
    ⟨_, exec_tdmStopComplete k s, fun hs hframes => ?_, fun h => ?_⟩, ⟨_, exec_tdmNoClock k s, fun ht hs => ?_, fun ht => ?_⟩,
    ⟨_, exec_tdmClockFault k s, fun ht hs heps => ?_, fun heps => ?_⟩, fun hs hframes => ⟨_, exec_portClockRecovered s 3 n, ?_⟩,
    fun f => ⟨?_, ?_, ?_⟩⟩
  · have hlock := (getTdm_settle ..).trans (getTdm_tdmLock_of (d := quiet s) (n := n) hen hs hframes hruns)
    refine ⟨?_, ?_, ?_, ?_, ?_, ?_⟩
    · exact congrArg Tdm.state hlock
    · exact (congrArg Tdm.rxMask hlock :)
    · exact (congrArg Tdm.txMask hlock :)
    · exact congrArg Tdm.frames hlock
    · exact congrArg (·.gate.phase) hlock
    · exact congrArg (·.gateT.phase) hlock
  · exact (getTdm_settle ..).trans (getTdm_tdmLock_of_not (d := quiet s) (n := n) h)
  · exact (getTdm_settle ..).trans (getTdm_tdmRun_of (d := quiet s) (n := n) hs hframes hsingle rfl)
  · exact (getTdm_settle ..).trans (getTdm_tdmRun_of_not (d := quiet s) (n := n) h)
  · obtain ⟨hcfg, hpend, hoff, hon⟩ := getTdm_tdmStop_of (d := quiet s) (n := n) hs hframes rfl
    have hkeep : getTdm (settle (tdmStop (quiet s) n)) n = getTdm (tdmStop (quiet s) n) n := getTdm_settle ..
    refine ⟨(congrArg Tdm.cfg hkeep).trans hcfg, (congrArg Tdm.pend hkeep).trans hpend, fun he => ?_, fun he ht => ?_⟩
    · exact (congrArg Tdm.state hkeep).trans (hoff he)
    · exact (congrArg Tdm.state hkeep).trans (hon he ht)
  · exact (getTdm_settle ..).trans (getTdm_tdmStop_of_not (d := quiet s) (n := n) h)
  · have hlost := (getTdm_settle ..).trans (getTdm_tdmNoClock_of (d := quiet s) (n := n) ht hs)
    refine ⟨congrArg Tdm.state hlost, congrArg Tdm.frames hlost, fun hrun hg => ?_⟩
    exact (congrArg (·.gate.phase) hlost).trans (tdmFade_running hrun hg)
  · exact (getTdm_settle ..).trans (getTdm_tdmNoClock_master (d := quiet s) (n := n) ht)
  · have hfault := (getTdm_settle ..).trans (getTdm_tdmFault_of (d := quiet s) (n := n) ht hs heps)
    exact ⟨congrArg Tdm.state hfault, (congrArg Tdm.slips hfault).trans (tdmFade_slips _)⟩
  · have hsame := congrArg (getTdm · n) (tdmFault_of_epsOk (d := quiet s) (n := n) heps)
    exact (getTdm_settle ..).trans hsame
  · have hback := (getTdm_settle ..).trans (getTdm_portRecover_of (d := quiet s) k.isLt hs hframes)
    exact ⟨congrArg Tdm.state hback, congrArg (·.gate.phase) hback, congrArg (·.gateT.phase) hback⟩
  · intro hrun
    rw [exec_tdmFrame, tdmTake_off (d := quiet s) (n := k.val) hrun]
  · intro hrun hs hsingle
    obtain ⟨_, _, _, _, _, _, _, htake⟩ := getTdm_tdmTake (d := quiet s) (n := n) hrun hsingle (.inr hs) f
    have hmine := (getTdm_settle ..).trans htake
    obtain ⟨hstate, hcount, hrx, hmask, hslips⟩ := tdmFrame_noClock (t := getTdm (quiet s) n) hs
    refine ⟨_, exec_tdmFrame k f s, ?_, ?_, ?_, ?_, ?_⟩
    · exact (congrArg Tdm.state hmine).trans hstate
    · exact (congrArg Tdm.frames hmine).trans hcount
    · exact (congrArg Tdm.rx hmine).trans hrx
    · exact (congrArg Tdm.rxMask hmine).trans hmask
    · exact (congrArg Tdm.slips hmine).trans hslips
  · intro hrun hs hsingle hdom
    have hopen : (getDom (quiet s) (effDom (quiet s) (getTdm (quiet s) n).cfg.domain)).state ≠ .stopped := fun h =>
      Bool.false_ne_true ((congrArg domRuns h).symm.trans hdom)
    obtain ⟨_, _, _, _, _, _, _, htake⟩ := getTdm_tdmTake (d := quiet s) (n := n) hrun hsingle (.inl hopen) f
    have hmine := (getTdm_settle ..).trans htake
    obtain ⟨hstate, hwords, hmt, heps, m, hrx, htx⟩ := tdmFrame_running (t := getTdm (quiet s) n) hs
    refine ⟨_, exec_tdmFrame k f s, ?_, ?_, ?_, ?_, fun harm hstart => ?_, fun hstart harm => ⟨?_, ?_⟩⟩
    · exact (congrArg Tdm.state hmine).trans hstate
    · exact (congrArg (·.dout.length) hmine).trans hwords
    · exact (congrArg Tdm.lastMt hmine).trans hmt
    · exact (congrArg Tdm.eps hmine).trans heps
    · exact (congrArg Tdm.txMask hmine).trans (htx.trans (congrArg Tdm.txMask (maskCopy_none harm hs hstart _ _)))
    · exact (congrArg Tdm.rxMask hmine).trans (hrx.trans (congrArg Tdm.rxMask (maskCopy_start harm hs hstart _ _)))
    · exact (congrArg Tdm.txMask hmine).trans (htx.trans (congrArg Tdm.txMask (maskCopy_start harm hs hstart _ _)))

end Sys2Proof.Machine

/-! Chapter 12's requests about one port judged (R322, R323, R330–R333): what each rule answers where nothing refuses the request, and what it
makes of its port. -/

namespace Sys2Proof.Machine

/-! PORT_CFG SET (R330). -/

/-- A change of a port's settings gives it the configuration: at once, but that a TDM port which runs first stops. -/
theorem aesSet_cfg (r : AesRx) (c : AesRxCfg) : (aesSet r c).cfg = c := by
  unfold aesSet
  (repeat' split) <;> rfl
theorem atxSet_cfg (x : AesTx) (c : AesTxCfg) : (atxSet x c).cfg = c := by
  unfold atxSet
  split <;> rfl
theorem tdmSet_cfg (x : Tdm) (c : TdmCfg) : (tdmSet x c).cfg = c ∨ (tdmSet x c).pend = some c := by
  cases hs : x.state
  case stopped | noClock => exact .inl (by simp only [tdmSet, hs])
  case stopping => exact .inr (by simp only [tdmSet, hs])
  case starting | running | clockFault =>
    simp only [tdmSet, hs]
    split
    · exact .inl rfl
    · exact .inr rfl
theorem tdmSet_stopped {x : Tdm} (h : x.state = .stopped) (c : TdmCfg) :
    tdmSet x c = { x with cfg := c, state := if c.enable && c.target then .noClock else .stopped, frames := 0 } := by
  simp only [tdmSet, h]

theorem getAes_replanned (d : Dev) (i : Nat) : getAes (powerPlan (if single d = true then singleAssign d else d)) i = getAes d i :=
  getAes_of_ports (replanned_ports d) i
theorem getAtx_replanned (d : Dev) (i : Nat) : getAtx (powerPlan (if single d = true then singleAssign d else d)) i = getAtx d i :=
  getAtx_of_ports (replanned_ports d) i

section
variable {d : Dev} {t : Taken} {p : List Byte} (hp : t.req.payload = p) (h2 : u8 p 2 = 0)
include hp h2

/-- A SET changes its port alone. -/
theorem getAes_applyPort_set (h0 : u8 p 0 = 0) (b : Option MT) (j : Nat) : getAes (applyPort d t b).1 j =
    getAes (aesStep d (u8 p 1) (fun r => aesSet r { aesRxCfgOf p with domain := portKeepDom d (u8 p 0) (u8 p 1) (u8 p 4) })) j := by
  subst hp
  simp only [applyPort, h2, h0, if_true, getAes_replanned]

theorem getAtx_applyPort_set (h0 : u8 p 0 = 1) (b : Option MT) (j : Nat) : getAtx (applyPort d t b).1 j =
    getAtx (atxMod d (u8 p 1) (fun x => atxSet x { aesTxCfgOf p with domain := portKeepDom d (u8 p 0) (u8 p 1) (u8 p 4) })) j := by
  subst hp
  simp only [applyPort, h2, h0, Nat.reduceEqDiff, if_true, if_false, getAtx_replanned]

theorem getTdm_applyPort_set (h0 : u8 p 0 = 2) (b : Option MT) (j : Nat) : getTdm (applyPort d t b).1 j =
    getTdm (tdmStep d (u8 p 1) (fun x => tdmSet x { tdmCfgOf p with domain := portKeepDom d (u8 p 0) (u8 p 1) (u8 p 4) })) j := by
  subst hp
  simp only [applyPort, h2, h0, Nat.reduceEqDiff, if_true, if_false, getTdm_replanned]

theorem judgePortSet_commits (hm : inModes t modes5 = true) (hlen : 20 ≤ p.length) (hport : portKinds (u8 p 0) (u8 p 1) = true)
    (hok : portSetBad d p = false) (hdom : portOn d (u8 p 0) (u8 p 1) = true → u8 p 4 = effDom d (portDom d (u8 p 0) (u8 p 1))) :
    judgePortSet d t none = commitPd d t (u8 p 4) 6 (bit (u8 p 3) 0) applyPort := by
  subst hp
  rw [judgePortSet, if_neg (by simp [hm]), if_neg (by simp [longEnough_of_le hlen, hport, h2, hok]), if_neg]
  simpa using hdom

end

/-! PORT_CFG SOURCE (R331). -/

/-- Changes of numbered places made one after another, each of which leaves the places before it as they are. -/
theorem foldl_range_sets {σ α : Type} {step : σ → Nat → σ} {get : σ → Nat → α} {v : Nat → α} {n : Nat}
    (hset : ∀ x j, j < n → get (step x j) j = v j) (hkeep : ∀ x j k, j < k → k < n → get (step x k) j = get x j) (x : σ) :
    ∀ j, j < n → get ((List.range n).foldl step x) j = v j := by
  induction n with
  | zero => intro j hj; omega
  | succ n ih =>
    intro j hj
    rw [List.range_succ, List.foldl_append, List.foldl_cons, List.foldl_nil]
    rcases Nat.lt_succ_iff_lt_or_eq.1 hj with hlt | rfl
    · rw [hkeep _ _ _ hlt (Nat.lt_succ_self n)]
      exact ih (fun x k hk => hset x k (by omega)) (fun x k l hkl hl => hkeep x k l hkl (by omega)) j hlt
    · exact hset _ _ hj

/-- The source of a transmitter's channel A (0) or B. -/
def atxSrc (x : AesTx) (c : Nat) : Src := if c = 0 then x.chA.src else x.chB.src

theorem atxSrc_same (x : AesTx) (c : Nat) (a b : TxChan) :
    atxSrc (if c = 0 then { x with chA := a } else { x with chB := b }) c = if c = 0 then a.src else b.src := by
  unfold atxSrc
  split <;> rfl

theorem atxSrc_other (x : AesTx) {c : Nat} (hc : c ≠ 0) (a b : TxChan) :
    atxSrc (if c = 0 then { x with chA := a } else { x with chB := b }) 0 = atxSrc x 0 := by rw [if_neg hc]; rfl

section
variable {d : Dev} {t : Taken} {p : List Byte} (hp : t.req.payload = p) (h2 : u8 p 2 = 2)
include hp h2

/-- Outside a boundary each named channel of a TDM port takes its source. -/
theorem getTdm_applyPort_source (h0 : u8 p 0 = 2) (j : Nat) (hj : j < u8 p 9) :
    (tabGet (getTdm (applyPort d t none).1 (u8 p 1)).tx (u8 p 8 + j)).src = srcEntry p (12 + 4 * j) := by
  subst hp
  simp only [applyPort, h2, h0, Nat.reduceEqDiff, if_true, if_false]
  refine foldl_range_sets (get := fun d j => (tabGet (getTdm d (u8 t.req.payload 1)).tx (u8 t.req.payload 8 + j)).src)
    (v := fun j => srcEntry t.req.payload (12 + 4 * j)) (fun e k _ => ?_) (fun e k l hkl _ => ?_) d j hj
  · simp [txChanSet]
  · have hne : u8 t.req.payload 8 + k ≠ u8 t.req.payload 8 + l := by omega
    simp [tabGet_tabMod_ne _ _ _ _ hne]

/-- Outside a boundary each named channel of a transmitter, which has two, takes its source. -/
theorem getAtx_applyPort_source (h0 : u8 p 0 = 1) (hchans : u8 p 8 + u8 p 9 ≤ 2) (j : Nat) (hj : j < u8 p 9) :
    atxSrc (getAtx (applyPort d t none).1 (u8 p 1)) (u8 p 8 + j) = srcEntry p (12 + 4 * j) := by
  subst hp
  simp only [applyPort, h2, h0, Nat.reduceEqDiff, if_true, if_false]
  refine foldl_range_sets (get := fun d j => atxSrc (getAtx d (u8 t.req.payload 1)) (u8 t.req.payload 8 + j))
    (v := fun j => srcEntry t.req.payload (12 + 4 * j)) (fun e k _ => ?_) (fun e k l hkl hl => ?_) d j hj
  · simp only [getAtx_atxMod_same, atxSrc_same, txChanSet, ite_self]
  · have hk : u8 t.req.payload 8 + k = 0 := by omega
    have hl' : u8 t.req.payload 8 + l ≠ 0 := by omega
    simp only [getAtx_atxMod_same, hk, atxSrc_other _ hl']

theorem judgePortSource_commits (hm : inModes t modes5 = true) (hlen : 12 ≤ p.length) (hport : portKinds (u8 p 0) (u8 p 1) = true)
    (h0 : u8 p 0 ≠ 0) (h3 : u8 p 3 = 0) (h4 : u8 p 4 ≤ 2) (hz : isZero p 5 3 = true) (h9 : 1 ≤ u8 p 9) (h10 : u8 p 9 ≤ 10)
    (hchans : u8 p 8 + u8 p 9 ≤ if u8 p 0 = 1 then 2 else 32) (hz10 : u16 p 10 = 0) (hall : 12 + 4 * u8 p 9 ≤ p.length)
    (hsrc : ∀ j, j < u8 p 9 → srcFits d (portDom d (u8 p 0) (u8 p 1)) (srcEntry p (12 + 4 * j)) = true ∧
      (mode d = .twin → (srcEntry p (12 + 4 * j)).kind ≠ 7)) :
    judgePortSource d t none = commitOr d t (portDom d (u8 p 0) (u8 p 1)) applyPort := by
  subst hp
  have hfits : ((List.range (u8 t.req.payload 9)).map (fun j => srcEntry t.req.payload (12 + 4 * j))).any
      (fun s => !srcFits d (portDom d (u8 t.req.payload 0) (u8 t.req.payload 1)) s) = false := by
    simpa using fun j hj => (hsrc j hj).1
  have hmics : (mode d == .twin && ((List.range (u8 t.req.payload 9)).map (fun j => srcEntry t.req.payload (12 + 4 * j))).any
      (fun s => s.kind == 7)) = false := by
    simpa using fun htwin j hj => (hsrc j hj).2 htwin
  rw [judgePortSource, if_neg (by simp [hm]), if_neg, if_neg (Bool.eq_false_iff.1 hmics)]
  have hsome : u8 t.req.payload 9 ≠ 0 := by omega
  simp only [hfits]
  simpa [longEnough_of_le hlen, longEnough_of_le hall, hport, h2, h0, h3, h4, h10, hsome, hchans, hz10, isZero, Nat.not_lt.2] using hz

end

/-! Channel status (R332). -/

/-- The reply of a CS_READ of a block. -/
def csReadBody (b : CsBlock) (changed : Bool) : List Byte :=
  p8 (b2n (blockBit b.cs 0) + 2 * b2n b.crcBad + 4 * b2n (!blockBit b.cs 0) + 8 * b2n (blockBit b.cs 1) + 16 * b2n changed) ++ zeros 2 ++
    slice b.cs 0 24 ++ slice b.user 0 24

section
variable {d : Dev} {t : Taken} {p : List Byte} (hp : t.req.payload = p) (h3 : u8 p 3 = 0) (hz : isZero p 5 3 = true) (h8 : u8 p 8 ≤ 1)
include hp h3 hz h8

theorem judgeCsRead_ok {b : CsBlock} (hlen : 9 ≤ p.length) (h0 : u8 p 0 = 0) (h1 : u8 p 1 ≤ 15) (h2 : u8 p 2 = 3)
    (hb : (if u8 p 8 = 0 then (getAes d (u8 p 1)).blkA else (getAes d (u8 p 1)).blkB) = some b) :
    judgeCsRead d t none = (aesMod d (u8 p 1) (fun x => { x with changed := x.changed.set (u8 p 8) false }),
      .now .ok (csReadBody b ((getAes d (u8 p 1)).changed.getD (u8 p 8) false))) := by
  subst hp
  rw [judgeCsRead, if_neg]
  · simp only [hb]
    rfl
  · simpa [longEnough_of_le hlen, h0, h1, h2, h3, h8, isZero] using hz

theorem judgeCsWrite_commits (hm : inModes t modes5 = true) (hlen : 36 ≤ p.length) (h0 : u8 p 0 = 1) (h1 : u8 p 1 ≤ 15) (h2 : u8 p 2 = 4)
    (h4 : u8 p 4 ≤ 2) (h9 : u8 p 9 ≤ 3) (hz10 : u16 p 10 = 0) :
    judgeCsWrite d t none = commitOr d t (portDom d 1 (u8 p 1)) applyPort := by
  subst hp
  have hport : portKinds (u8 t.req.payload 0) (u8 t.req.payload 1) = true := by simp [portKinds, h0]; omega
  rw [judgeCsWrite, if_neg (by simp [hm]), if_neg]
  simp only [hport]
  simpa [longEnough_of_le hlen, h0, h2, h3, h4, h8, h9, hz10, isZero, Nat.not_lt.2] using hz

end

/-- The blocks of a CS_WRITE, written to the channel status or to the user data of the subframes that its mask names. -/
def csWritten (p : List Byte) (x : AesTx) : AesTx :=
  if u8 p 8 = 0 then { x with csA := if bit (u8 p 9) 0 then slice p 12 24 else x.csA, csB := if bit (u8 p 9) 1 then slice p 12 24 else x.csB }
  else { x with userA := if bit (u8 p 9) 0 then slice p 12 24 else x.userA, userB := if bit (u8 p 9) 1 then slice p 12 24 else x.userB }

theorem getAtx_applyPort_csWrite {d : Dev} {t : Taken} {p : List Byte} (hp : t.req.payload = p) (h2 : u8 p 2 = 4) (b : Option MT) :
    getAtx (applyPort d t b).1 (u8 p 1) = csWritten p (getAtx d (u8 p 1)) := by
  subst hp
  simp only [applyPort, h2, Nat.reduceEqDiff, if_false, getAtx_atxMod_same]
  rfl

/-! PORT_CFG GET (R333). -/

/-- A port's state as GET reports it. -/
def portCode (d : Dev) (kind i : Nat) : Nat :=
  if kind = 0 then aesCode (getAes d i).state else if kind = 1 then b2n ((getAtx d i).phase != .off) else tdmCode (getTdm d i).state

theorem portCode_lt (d : Dev) (kind i : Nat) : portCode d kind i < 256 := by
  have haes : ∀ s, aesCode s < 256 := by intro s; cases s <;> decide
  have htdm : ∀ s, tdmCode s < 256 := by intro s; cases s <;> decide
  have hbool : ∀ b, b2n b < 256 := by decide
  unfold portCode
  (repeat' split)
  · exact haes _
  · exact hbool _
  · exact htdm _

/-- A port's nominal rate. -/
def portRate (d : Dev) (kind i : Nat) : Nat :=
  if kind = 0 then aesRate d i else if kind = 1 then rateIn d (getAtx d i).cfg.domain else tdmRate d i

/-- A port's count of slips. -/
def portSlips (d : Dev) (kind i : Nat) : Word :=
  if kind = 0 then (getAes d i).slips else if kind = 1 then (getAtx d i).slips else (getTdm d i).slips

/-- The reply of a PORT_CFG GET. -/
def portGetBody (d : Dev) (kind i : Nat) : List Byte :=
  let r := getAes d i
  let m := getTdm d i
  let g := if kind < 2 then memberGroup d.ports kind i else (memberGroup d.ports 3 i).orElse (fun _ => memberGroup d.ports 2 i)
  let lost := if kind = 0 then r.mappingLost else kind == 2 && m.mappingLost
  p8 (portCode d kind i) ++ p8 (b2n (kind == 2 && tdmInhibit d i) + 2 * b2n g.isSome + 4 * b2n lost + 8 * b2n (kind == 0 && (r.nonA || r.nonB))) ++
    p8 (g.getD 255) ++ p32 (portRate d kind i) ++ s32 (if kind = 0 then r.eps else if kind = 2 ∧ m.cfg.target then m.eps else 0) ++
    p16 (if kind = 0 then refFrac r.map else if kind = 2 ∧ m.cfg.target then refFrac m.map else 0) ++ zeros 2 ++
    p32 (portSlips d kind i).toNat ++ p32 (if kind = 0 then (r.parityErr + r.biphaseErr).toNat else 0)

theorem length_portGetBody (d : Dev) (kind i : Nat) : (portGetBody d kind i).length = 23 := by
  simp [portGetBody, p8, p16, p32, s32, zeros]

theorem u8_p8_append (v : Nat) (y : List Byte) : u8 (p8 v ++ y) 0 = v % 256 := BitVec.toNat_ofNat v 8

theorem portGetBody_state (d : Dev) (kind i : Nat) : u8 (portGetBody d kind i) 0 = portCode d kind i := by
  simp only [portGetBody, List.append_assoc]
  exact (u8_p8_append ..).trans (Nat.mod_eq_of_lt (portCode_lt ..))

theorem portGetBody_rate (d : Dev) (kind i : Nat) : u32 (portGetBody d kind i) 3 = portRate d kind i % 2 ^ 32 := by
  simp only [portGetBody, List.append_assoc]
  rw [← List.append_assoc (p8 _), ← List.append_assoc]
  exact u32_append_p32_append (p8 _ ++ p8 _ ++ p8 _) ..

theorem portGetBody_slips (d : Dev) (kind i : Nat) : u32 (portGetBody d kind i) 15 = (portSlips d kind i).toNat := by
  rw [portGetBody, List.append_assoc]
  exact (u32_append_p32_append (p8 _ ++ p8 _ ++ p8 _ ++ p32 _ ++ s32 _ ++ p16 _ ++ zeros 2) ..).trans (Nat.mod_eq_of_lt (portSlips d kind i).isLt)

theorem judgePortGet_ok {d : Dev} {t : Taken} {p : List Byte} (hp : t.req.payload = p) (hlen : 3 ≤ p.length)
    (hport : portKinds (u8 p 0) (u8 p 1) = true) (h2 : u8 p 2 = 1) : judgePortGet d t none = (d, .now .ok (portGetBody d (u8 p 0) (u8 p 1))) := by
  subst hp
  rw [judgePortGet, if_neg (by simp [longEnough_of_le hlen, hport, h2])]
  rfl

/-! SLOT_MASK (R322, R323). -/

/-- Two changes of a TDM port one after the other. -/
theorem tdmMod_tdmMod (d : Dev) (n : Nat) (f g : Tdm → Tdm) : tdmMod (tdmMod d n f) n g = tdmMod d n (fun x => g (f x)) := by
  simp only [tdmMod, portsMod, tabMod, tabGet_tabSet_same, tabSet_tabSet]

/-- The masks of a SLOT_MASK, stored where it sets them. -/
def slotShadows (p : List Byte) (x : Tdm) : Tdm :=
  { x with rxShadow := if bit (u8 p 1) 1 then BitVec.ofNat 32 (u32 p 4) else x.rxShadow,
           txShadow := if bit (u8 p 1) 2 then BitVec.ofNat 32 (u32 p 8) else x.txShadow }

/-- What R323 asks of the fields of a SLOT_MASK. -/
structure SlotFields (d : Dev) (p : List Byte) : Prop where
  long : 16 ≤ p.length
  port : u8 p 0 ≤ 7
  flags : u8 p 1 ≤ 7
  rest : u16 p 2 = 0
  rx : bit (u8 p 1) 1 = true → u32 p 4 < 2 ^ (getTdm d (u8 p 0)).cfg.slots
  tx : bit (u8 p 1) 2 = true → u32 p 8 < 2 ^ (getTdm d (u8 p 0)).cfg.slots
  near : bit (u8 p 1) 0 = true → mtDiff (BitVec.ofNat 32 (u32 p 12)) (mtOf d (effDom d (getTdm d (u8 p 0)).cfg.domain)) ≤
    8 * rateOf d (effDom d (getTdm d (u8 p 0)).cfg.domain)

/-- A SLOT_MASK that no rule refuses: a port that carries frames is armed, another keeps the masks for its first frame. -/
theorem judgeSlotMask_passes {d : Dev} {t : Taken} {p : List Byte} (hp : t.req.payload = p) (hm : inModes t modes5 = true) (hf : SlotFields d p)
    (hfree : (getTdm d (u8 p 0)).armed = false) : judgeSlotMask d t none =
      if (getTdm d (u8 p 0)).state = .starting ∨ (getTdm d (u8 p 0)).state = .running then
        (tdmMod d (u8 p 0) (fun x => { slotShadows p x with
          armed := true, atMt := bit (u8 p 1) 0, maskAt := if bit (u8 p 1) 0 then BitVec.ofNat 32 (u32 p 12) else x.maskAt }), .wait (.slotMask (u8 p 0)))
      else (tdmMod d (u8 p 0) (fun x => { slotShadows p x with startCopy := true }), .now .ok (mtBody none)) := by
  subst hp
  obtain ⟨hlen, hport, hflags, hrest, hrx, htx, hnear⟩ := hf
  rw [judgeSlotMask, if_neg (by simp [hm]), if_neg, if_neg (by simp [hfree])]
  · simp only [tdmMod_tdmMod]
    rfl
  · simpa [longEnough_of_le hlen, hport, hflags, hrest] using ⟨⟨hrx, htx⟩, hnear⟩

end Sys2Proof.Machine

/-! Alignment groups (R327–R329): what SET, GET and DISSOLVE leave of the device, and what each answers where nothing refuses it. -/

namespace Sys2Proof.Machine

/-- e differs from d in nothing but its ports. -/
def PortsOnly (d e : Dev) : Prop := e = { d with ports := e.ports }

theorem PortsOnly.refl (d : Dev) : PortsOnly d d := rfl
theorem PortsOnly.trans {a b c : Dev} (h : PortsOnly a b) (k : PortsOnly b c) : PortsOnly a c := by
  unfold PortsOnly at *; rw [k, h]
theorem portsOnly_portsMod (d : Dev) (f : Ports → Ports) : PortsOnly d (portsMod d f) := rfl

/-! Members that join. -/

theorem memberJoins_portsOnly (d : Dev) (m : GMember) : PortsOnly d (memberJoins d m) := by
  unfold memberJoins
  (repeat' split) <;> rfl
theorem memberJoins_groups (d : Dev) (m : GMember) : (memberJoins d m).ports.groups = d.ports.groups := by
  unfold memberJoins
  (repeat' split) <;> rfl

/-- The members that a request gives its group, each with what it had lost in it. -/
def joiningMembers (d : Dev) (p : List Byte) : List GMember :=
  if u8 p 1 = 0 then (alignMembers p).map (fun m => { m with
    lost := (tabGet d.ports.groups (u8 p 0)).members.any (fun o => o.kind == m.kind && o.index == m.index && o.lost) }) else []

/-- A SET's members are those that it names. -/
theorem joiningMembers_set (d : Dev) {p : List Byte} (h1 : u8 p 1 = 0) :
    (joiningMembers d p).map (fun m => (m.kind, m.index)) = (alignMembers p).map (fun m => (m.kind, m.index)) := by
  rw [joiningMembers, if_pos h1, List.map_map]
  rfl
theorem joiningMembers_dissolve (d : Dev) {p : List Byte} (h1 : u8 p 1 = 2) : joiningMembers d p = [] := by
  rw [joiningMembers, if_neg (by omega)]

/-- The group's record after a change: its domain is that of its first member. -/
def groupRecord (d : Dev) (ms : List GMember) (b : Option MT) : AlignGroup :=
  { dom := match ms with
      | m :: _ => (memberDom d m).getD 0
      | [] => 0
    mt := b.getD 0, members := ms }

theorem applyGroup_portsOnly (d : Dev) (t : Taken) (b : Option MT) : PortsOnly d (applyGroup d t b).1 :=
  (portsOnly_portsMod d _).trans (foldl_rel PortsOnly .refl (fun _ _ _ => .trans) memberJoins memberJoins_portsOnly _ _)

/-! Losses that GET has reported (R329). -/

/-- What a member has lost is cleared once GET has reported it. -/
def lossSeen (d : Dev) (m : GMember) : Dev :=
  let d := memberLost d m.kind m.index false
  if m.kind = 0 then aesMod d m.index (fun r => { r with mappingLost := false })
  else if m.kind = 2 ∨ m.kind = 3 then tdmMod d m.index (fun r => { r with mappingLost := false }) else d

theorem lossSeen_portsOnly (d : Dev) (m : GMember) : PortsOnly d (lossSeen d m) := by
  simp only [lossSeen]
  (repeat' split) <;> rfl

theorem lossSeen_others (d : Dev) {m : GMember} {k : Nat} (hk : k ≠ m.index) :
    getAes (lossSeen d m) k = getAes d k ∧ getTdm (lossSeen d m) k = getTdm d k := by
  simp only [lossSeen]
  (repeat' split)
  · exact ⟨getAes_aesMod_ne _ hk, rfl⟩
  · exact ⟨rfl, getTdm_tdmMod_ne _ hk⟩
  · exact ⟨rfl, rfl⟩

theorem foldl_lossSeen_others {ms : List GMember} {k : Nat} (hk : k ∉ ms.map (·.index)) (d : Dev) :
    getAes (ms.foldl lossSeen d) k = getAes d k ∧ getTdm (ms.foldl lossSeen d) k = getTdm d k := by
  induction ms generalizing d with
  | nil => exact ⟨rfl, rfl⟩
  | cons m ms ih =>
    obtain ⟨hm, hms⟩ := not_or.1 (fun h => hk (List.mem_cons.2 h))
    obtain ⟨haes, htdm⟩ := ih hms (lossSeen d m)
    obtain ⟨haes', htdm'⟩ := lossSeen_others d hm
    exact ⟨haes.trans haes', htdm.trans htdm'⟩

/-! A group's record, and the rules' judgements. -/

/-- A group that is given members of one domain takes it. -/
theorem groupRecord_dom {d : Dev} {p : List Byte} {k : Nat} (h1 : u8 p 1 = 0) (hms : alignMembers p ≠ [])
    (hdom : ∀ m, m ∈ alignMembers p → memberDom d m = some k) (b : Option MT) : (groupRecord d (joiningMembers d p) b).dom = k := by
  cases h : alignMembers p with
  | nil => exact absurd h hms
  | cons m ms =>
    have hm := hdom m (h ▸ List.mem_cons_self)
    simp only [groupRecord, joiningMembers, h1, h, if_true, List.map_cons]
    exact congrArg (·.getD 0) hm

theorem eraseDups_map_const {α β : Type} [BEq β] [LawfulBEq β] {f : α → β} {l : List α} {b : β} (hl : l ≠ []) (h : ∀ a, a ∈ l → f a = b) :
    (l.map f).eraseDups = [b] := by
  cases l with
  | nil => exact absurd rfl hl
  | cons a l =>
    obtain ⟨ha, hrest⟩ := List.forall_mem_cons.1 h
    have hsame : (l.map f).filter (fun x => !x == b) = [] := by simpa using hrest
    rw [List.map_cons, List.eraseDups_cons, ha, hsame, List.eraseDups_nil]

section
variable {d : Dev} {t : Taken} {p : List Byte} (hp : t.req.payload = p)
include hp

/-- A change of a group is a change of its record alone among the groups. -/
theorem applyGroup_groups (b : Option MT) :
    (applyGroup d t b).1.ports.groups = tabSet d.ports.groups (u8 p 0) (groupRecord d (joiningMembers d p) b) := by
  subst hp
  exact foldl_keeps (fun e => e.ports.groups) memberJoins memberJoins_groups _ _

theorem group_applyGroup_same (b : Option MT) :
    tabGet (applyGroup d t b).1.ports.groups (u8 p 0) = groupRecord d (joiningMembers d p) b := by rw [applyGroup_groups hp, tabGet_tabSet_same]
theorem group_applyGroup_ne (b : Option MT) {g : Nat} (hg : g ≠ u8 p 0) :
    tabGet (applyGroup d t b).1.ports.groups g = tabGet d.ports.groups g := by rw [applyGroup_groups hp, tabGet_tabSet_ne _ _ _ _ hg]

theorem judgeGroupSet_commits {k : Nat} (hm : inModes t modes5 = true) (hlen : 4 ≤ p.length) (h0 : u8 p 0 ≤ 7) (h1 : u8 p 1 = 0) (h3 : u8 p 3 = 0)
    (hms : alignMembers p ≠ []) (hmany : (alignMembers p).length ≤ 12) (hall : 4 + 4 * (alignMembers p).length ≤ p.length)
    (hrest : ∀ j, j < (alignMembers p).length → u8 p (5 + 4 * j) = 0)
    (hmem : ∀ m, m ∈ alignMembers p → memberDom d m = some k ∧
      (memberGroup d.ports m.kind m.index = none ∨ memberGroup d.ports m.kind m.index = some (u8 p 0)))
    (hdup : ((alignMembers p).map (fun m => (m.kind, m.index))).eraseDups.length = (alignMembers p).length) :
    judgeGroupSet d t none = commitOr d t k applyGroup := by
  subst hp
  have hdoms : ((alignMembers t.req.payload).map (memberDom d)).eraseDups = [some k] := eraseDups_map_const hms (fun m h => (hmem m h).1)
  have hhead : (((alignMembers t.req.payload).map (memberDom d)).head?.getD none).getD 0 = k := by
    cases h : alignMembers t.req.payload with
    | nil => exact absurd h hms
    | cons m ms => simp [(hmem m (h ▸ List.mem_cons_self)).1]
  rw [judgeGroupSet, if_neg (by simp [hm]), if_neg, hhead]
  have hon : ((alignMembers t.req.payload).map (memberDom d)).any (·.isNone) = false := by
    simp only [List.any_map, List.any_eq_false, Function.comp_apply, Bool.not_eq_true]
    exact fun m h => by rw [(hmem m h).1]; rfl
  simp only [Bool.or_eq_true, not_or]
  refine ⟨⟨⟨⟨⟨⟨⟨⟨⟨⟨⟨?_, ?_⟩, ?_⟩, ?_⟩, ?_⟩, ?_⟩, ?_⟩, ?_⟩, ?_⟩, ?_⟩, ?_⟩, ?_⟩
  · simp [longEnough_of_le hlen]
  · simp [h0]
  · simp [h1]
  · simpa using hms
  · simp [hmany]
  · simp [h3]
  · simp [longEnough_of_le hall]
  · simpa using hrest
  · simp [hon]
  · simp [hdoms]
  · refine Bool.eq_false_iff.1 (List.any_eq_false.2 (fun m h => ?_))
    rcases (hmem m h).2 with hg | hg <;> simp [hg]
  · simp [hdup]

theorem judgeGroupGet_ok (hlen : 2 ≤ p.length) (h0 : u8 p 0 ≤ 7) (h1 : u8 p 1 = 1) : judgeGroupGet d t none =
    ((tabGet d.ports.groups (u8 p 0)).members.foldl lossSeen d,
      .now .ok (groupBody d (u8 p 0) (tabGet d.ports.groups (u8 p 0)).mt true)) := by
  subst hp
  rw [judgeGroupGet, if_neg (by simp [longEnough_of_le hlen, h0, h1])]
  rfl

theorem judgeGroupDissolve_commits (hm : inModes t modes5 = true) (hlen : 2 ≤ p.length) (h0 : u8 p 0 ≤ 7) (h1 : u8 p 1 = 2) :
    judgeGroupDissolve d t none = commitOr d t (tabGet d.ports.groups (u8 p 0)).dom applyGroup := by
  subst hp
  rw [judgeGroupDissolve, if_neg (by simp [hm]), if_neg (by simp [longEnough_of_le hlen, h0, h1])]

end

theorem applyGroup_answers (d : Dev) (t : Taken) :
    applyGroup d t none = ((applyGroup d t none).1, .ok, groupBody (applyGroup d t none).1 (u8 t.req.payload 0) 0 false) := rfl

theorem applyPort_answers (d : Dev) (t : Taken) : applyPort d t none = ((applyPort d t none).1, .ok, mtBody none) := rfl

/-- Settles O58: each request is judged as its rule says.  Clauses that are the model's choices: the MT that PORT_CFG's and CS_WRITE's replies
carry, when a SLOT_MASK is answered, and that masks are checked where the request sets them (log entry 88); that members of a group must be
enabled, and the MT that GET reports (log entry 128). -/
theorem portRequestsTakeEffect : Obligations.PortRequestsTakeEffect := by
  intro r s p d kind i n tdm a group
  refine ⟨?_, ?_, ?_, ?_, ?_, ?_, ?_, ?_, ?_⟩
  · rintro t rfl hs hm hlen hport h2 hok hdom
    refine ⟨(reqRow_eq_reqRow1 h2 rfl).trans ?_, fun h0 => ?_, fun h0 => ?_, fun h0 => ?_⟩
    · exact reqRow1_changesPd hs (applyPort_answers ..) (judgePortSet_commits rfl h2 hm hlen hport hok hdom)
    · have hset := getAes_applyPort_set (d := d) (t := takes s .portCfg r) rfl h2 h0 none
      refine ⟨?_, fun k hk => (hset k).trans (getAes_aesStep_ne _ hk)⟩
      exact (congrArg AesRx.cfg ((hset i).trans (getAes_aesStep_same _))).trans (aesSet_cfg ..)
    · have hset := getAtx_applyPort_set (d := d) (t := takes s .portCfg r) rfl h2 h0 none
      refine ⟨?_, fun k hk => (hset k).trans (getAtx_atxMod_ne _ hk)⟩
      exact (congrArg AesTx.cfg ((hset i).trans (getAtx_atxMod_same _))).trans (atxSet_cfg ..)
    · intro c
      have hset := getTdm_applyPort_set (d := d) (t := takes s .portCfg r) rfl h2 h0 none
      have hmine : getTdm (a (takes s .portCfg r)) i = tdmSet (getTdm d i) c := (hset i).trans (getTdm_tdmStep_same _)
      refine ⟨hmine ▸ tdmSet_cfg .., fun hstop => ?_, fun k hk => (hset k).trans (getTdm_tdmStep_ne _ hk)⟩
      rw [hmine, tdmSet_stopped hstop]
      exact ⟨rfl, rfl⟩
  · rintro t rfl hs hlen hport h2
    refine ⟨portGetBody d kind i, (reqRow_eq_reqRow1 h2 rfl).trans ?_, length_portGetBody .., ?_, ?_, ?_⟩
    · exact reqRow1_granted hs (judgePortGet_ok rfl hlen hport h2)
    · exact portGetBody_state ..
    · exact portGetBody_rate ..
    · exact portGetBody_slips ..
  · rintro t rfl hs hm hlen hport h0 h2 h3 h4 hz first count h9 h10 hchans hz10 hall hsrc
    refine ⟨(reqRow_eq_reqRow1 h2 rfl).trans ?_, fun htdm j hj => ?_, fun hatx j hj => ?_⟩
    · exact reqRow1_changes hs (applyPort_answers ..) (judgePortSource_commits rfl h2 hm hlen hport h0 h3 h4 hz h9 h10 hchans hz10 hall hsrc)
    · exact getTdm_applyPort_source (t := takes s .portCfg r) rfl h2 htdm j hj
    · exact getAtx_applyPort_source (t := takes s .portCfg r) rfl h2 hatx (Nat.le_trans hchans (Nat.le_of_eq (if_pos hatx))) j hj
  · rintro t b rfl hs hlen h0 h1 h2 h3 hz x pro h8 hb
    exact (reqRow_eq_reqRow1 h2 rfl).trans (reqRow1_granted hs (judgeCsRead_ok rfl h3 hz h8 hlen h0 h1 h2 hb))
  · rintro t rfl hs hm hlen h0 h1 h2 h3 h4 hz h8 h9 hz10 x bs
    have hwrite := getAtx_applyPort_csWrite (d := d) (t := takes s .portCfg r) rfl h2 none
    refine ⟨(reqRow_eq_reqRow1 h2 rfl).trans ?_, fun hcs => hwrite.trans (if_pos hcs), fun huser => hwrite.trans (if_neg ?_)⟩
    · exact reqRow1_changes hs (applyPort_answers ..) (judgeCsWrite_commits rfl h3 hz h8 hm hlen h0 h1 h2 h4 h9 hz10)
    · exact fun h => Nat.one_ne_zero (huser.symm.trans h)
  · rintro t rfl hs hm hlen hn fl mt dom masks hfl hrest hrx htx hnear hfree
    have hjudge := judgeSlotMask_passes (d := d) (t := takes s .slotMask r) rfl hm ⟨hlen, hn, hfl, hrest, hrx, htx, hnear⟩ hfree
    refine ⟨fun hlive => ?_, fun hstarting hrunning => ?_⟩
    · have hrow := (reqRow1_served hs).trans (congrArg _ (judged_wait (hjudge.trans (if_pos hlive))))
      exact ⟨_, hrow, rfl, getTdm_tdmMod_same _, fun k hk => getTdm_tdmMod_ne _ hk⟩
    · exact reqRow1_granted hs (hjudge.trans (if_neg (fun h => h.elim hstarting hrunning)))
  · rintro t k rfl hs hm hlen hn h1 h3 ms hms hmany hall hrest hmem hdup
    have hmine : tabGet (group (takes s .alignGroup r)).ports.groups n = groupRecord d (joiningMembers d p) none :=
      group_applyGroup_same rfl none
    refine ⟨(reqRow_eq_reqRow1 h1 rfl).trans ?_, applyGroup_portsOnly .., ?_, ?_, fun g hg => group_applyGroup_ne rfl none hg⟩
    · exact reqRow1_changes hs (applyGroup_answers ..) (judgeGroupSet_commits rfl hm hlen hn h1 h3 hms hmany hall hrest hmem hdup)
    · rw [hmine]
      exact groupRecord_dom h1 hms (fun m h => (hmem m h).1) none
    · rw [hmine]
      exact joiningMembers_set d h1
  · rintro t rfl hs hlen hn h1
    refine ⟨_, (reqRow_eq_reqRow1 h1 rfl).trans (reqRow1_granted hs (judgeGroupGet_ok rfl hlen hn h1)), ?_, fun k hk => ?_⟩
    · exact foldl_rel PortsOnly .refl (fun _ _ _ => .trans) lossSeen lossSeen_portsOnly _ _
    · exact foldl_lossSeen_others hk d
  · rintro t rfl hs hm hlen hn h1
    refine ⟨(reqRow_eq_reqRow1 h1 rfl).trans ?_, ?_, fun g hg => group_applyGroup_ne rfl none hg⟩
    · exact reqRow1_changes hs (applyGroup_answers ..) (judgeGroupDissolve_commits rfl hm hlen hn h1)
    · exact (congrArg AlignGroup.members (group_applyGroup_same rfl none)).trans (joiningMembers_dissolve d h1)

end Sys2Proof.Machine

/-! Host rings and DMA channels as registers of the window (R367, R455, R469): what each write of a host interface makes of its ring or channel. -/

namespace Sys2Proof.Machine

/-! The window's registers (R401). -/

section
variable {s : State} {via : Via} (h : hostReaches s via)
include h

theorem winReg_hostReaches (o : Nat) (v : Word) : winReg via o v (quiet s) = windowWrite (quiet s) via o v 15 := by
  obtain ⟨rfl | rfl, hpd⟩ := h
  · exact if_pos hpd
  · exact if_pos hpd

theorem dmaReg_hostReaches {n : Nat} (hn : n < 8) (o : Nat) (v : Word) :
    dmaReg via n o v (quiet s) = windowWrite (quiet s) via (0x4000 + 0x100 * n + o) v 15 := by
  rw [← winReg_hostReaches h]
  obtain ⟨rfl | rfl, -⟩ := h
  · exact if_pos hn
  · exact if_pos hn

end

/-- Offset o of ring r's block of registers. -/
theorem windowWrite_ring (d : Dev) (via : Via) (r : Fin 8) {o : Nat} (ho : o < 0x40) (v : Word) :
    windowWrite d via (0x4800 + o + 0x40 * r.val) v 15 = ringWrite d r.val o v := by
  have hr := r.isLt
  have hring : (0x4800 + o + 0x40 * r.val - 0x4800) / 0x40 = r.val := by omega
  have hoff : (0x4800 + o + 0x40 * r.val - 0x4800) % 0x40 = o := by omega
  simp only [windowWrite]
  rw [if_neg (by simp), if_neg (by omega), if_neg (by omega), if_neg (by omega), if_neg (by omega), if_pos (by omega), hring, hoff]

/-- Offset o of host channel n's block of registers, which PD_CTRL holds. -/
theorem windowWrite_dma {d : Dev} (hpd : pdOn d 1 = true) (via : Via) {n o : Nat} (hn : n < 8) (ho : o < 0x100) (v : Word) :
    windowWrite d via (0x4000 + 0x100 * n + o) v 15 = dmaWrite d n o v := by
  have hchan : (0x4000 + 0x100 * n + o - 0x4000) / 0x100 = n := by omega
  have hoff : (0x4000 + 0x100 * n + o) % 0x100 = o := by omega
  simp only [windowWrite]
  rw [if_neg (by simp), if_neg (by omega), if_neg (by omega), if_neg (by omega), if_pos (by omega), if_pos hpd, hchan, hoff]

/-! The rows of those writes. -/

section
variable {s : State} {via : Via} (h : hostReaches s via)
include h

theorem exec_ringTailWrite (r : Fin 8) (v : Word) : exec (.ringTailWrite via r v) s = .next (after s (ringTail (quiet s) r.val v)) :=
  congrArg (fun d => Host.Outcome.next (after s d)) ((winReg_hostReaches h _ v).trans (windowWrite_ring (o := 0x14) _ via r (by decide) v))

theorem exec_ringCtrlWrite (r : Fin 8) (v : Word) : exec (.ringCtrlWrite via r v) s = .next (after s (ringCtrl (quiet s) r.val v)) :=
  congrArg (fun d => Host.Outcome.next (after s d)) ((winReg_hostReaches h _ v).trans (windowWrite_ring (o := 0xC) _ via r (by decide) v))

variable {n : Fin 32} (hn : n.val < 8) (hpd : pdOn s.dev 1 = true)
include hn hpd

/-- A host-owned channel's register is written where PD_CTRL is on. -/
theorem run_dmaReg {o : Nat} (ho : o < 0x100) (v : Word) : run (dmaReg via n.val o v) s = .next (after s (dmaWrite (quiet s) n.val o v)) :=
  congrArg (fun d => Host.Outcome.next (after s d)) ((dmaReg_hostReaches h hn o v).trans (windowWrite_dma (d := quiet s) hpd via hn ho v))

theorem exec_dmaIrqWrite (v : Word) :
    exec (.dmaIrqWrite via n v) s = .next (after s (dmaMod (quiet s) n.val (fun c => { c with irq := c.irq &&& ~~~v }))) :=
  run_dmaReg h hn hpd (o := 0x3C) (by decide) v
theorem exec_cqTailWrite (v : Word) : exec (.cqTailWrite via n v) s = .next (after s (cqTail (quiet s) n.val v)) :=
  run_dmaReg h hn hpd (o := 0x20) (by decide) v
theorem exec_dmaCmdStart : exec (.dmaCmdStart via n) s = .next (after s (dmaStart (quiet s) n.val)) :=
  run_dmaReg h hn hpd (o := 0) (by decide) 1
theorem exec_dmaCmdAbort : exec (.dmaCmdAbort via n) s = .next (after s (dmaAbort (quiet s) n.val)) :=
  run_dmaReg h hn hpd (o := 0) (by decide) 2
theorem exec_dmaCmdPause : exec (.dmaCmdPause via n) s = .next (after s (dmaPause (quiet s) n.val)) :=
  run_dmaReg h hn hpd (o := 0) (by decide) 4
theorem exec_dmaCmdResume : exec (.dmaCmdResume via n) s = .next (after s (dmaResume (quiet s) n.val)) :=
  run_dmaReg h hn hpd (o := 0) (by decide) 8

end

section
variable {d : Dev} {n : Nat}

/-! RING_TAIL (R367). -/

theorem ringTail_of_fits {r : Nat} {v : Word} (h : (v - (tabGet d.net.rings r).head).toNat < (tabGet d.net.rings r).size.toNat ∨
    v = (tabGet d.net.rings r).head) : ringTail d r v =
      ringMod d r (fun x => { ringMature (now d) x with tail := v, irqPend := false, irqHeld := false }) :=
  if_neg (fun ⟨hpast, hne⟩ => h.elim (fun hlt => absurd hlt (Nat.not_lt.2 hpast)) hne)

/-! DMA channels. -/

@[simp] theorem getDma_settle (d : Dev) (k : Nat) : getDma (settle d) k = getDma d k := congrArg (fun m : Dma => tabGet m.ch k) (settle_dma d)
@[simp] theorem getDma_dmaMod_same (f : DmaChan → DmaChan) : getDma (dmaMod d n f) n = f (getDma d n) := tabGet_tabMod_same ..
theorem getDma_dmaMod_ne (f : DmaChan → DmaChan) {k : Nat} (h : k ≠ n) : getDma (dmaMod d n f) k = getDma d k := tabGet_tabMod_ne _ _ _ _ h
theorem dmaMod_congr {f g : DmaChan → DmaChan} (h : f (getDma d n) = g (getDma d n)) : dmaMod d n f = dmaMod d n g := by
  simp only [dmaMod, tabMod_congr h]

/-- A completion record is written for its channel alone. -/
theorem getDma_cqPut_ne (bs : List Byte) (irq : Bool) {k : Nat} (h : k ≠ n) : getDma (cqPut d n bs irq) k = getDma d k := by
  rw [cqPut, getDma_dmaMod_ne _ h, dmaPut]
  split <;> rfl

/-! DMA_CMD (R455). -/

theorem dmaStart_of_stopped (h : dmaStopped (getDma d n).state = true) : dmaStart d n = dmaMod d n (fun c =>
    { c with state := .running, pc := 0, act0 := none, act1 := none, seq := 0, move := none, wait := none, stalled := none }) :=
  dmaMod_congr (if_pos h)

/-- A channel that runs waits for nothing that its pause could end first. -/
theorem dmaPause_of_running (h : (getDma d n).state = .running) : dmaPause d n = dmaMod d n (fun c =>
    { c with state := .paused, prev := .running, remain := ((c.wait.bind (·.stop)).map (fun t => t.toNat - (now d).toNat)).getD 0 }) := by
  have hgoes : dmaPause d n = dmaMod d n (fun c => if c.state = .running ∨ c.state = .waiting then
      { c with state := .paused, prev := c.state, remain := ((c.wait.bind (·.stop)).map (fun t => t.toNat - (now d).toNat)).getD 0 } else c) := by
    cases hw : (getDma d n).wait <;> simp only [dmaPause, hw, h, reduceCtorEq, false_and, if_false]
  rw [hgoes]
  refine dmaMod_congr ?_
  simp only [h, true_or, if_true]

theorem dmaResume_of_paused (h : (getDma d n).state = .paused) : dmaResume d n = dmaMod d n (fun c =>
    { c with state := c.prev, wait := c.wait.map (fun w => { w with stop := w.stop.map (fun _ => now d + BitVec.ofNat 64 c.remain) }) }) :=
  dmaMod_congr (if_pos h)

/-- A channel at work is aborted, after a record of it where the queue has room; no other channel changes. -/
theorem dmaAbort_of_live (h : dmaStopped (getDma d n).state = false) : ∃ e,
    dmaAbort d n = dmaMod e n (fun c => { c with state := .aborted, move := none, wait := none, stalled := none }) ∧
    ∀ k, k ≠ n → getDma e k = getDma d k := by
  rw [dmaAbort, if_neg (Bool.eq_false_iff.1 h)]
  refine ⟨_, rfl, fun k hk => ?_⟩
  split
  · exact getDma_cqPut_ne _ _ hk
  · rfl

end

/-- Settles O17: each write reaches the register of its ring or channel (`windowWrite_ring`, `windowWrite_dma`).  Clauses that are the model's
choices: RING_TAIL's distance from RING_HEAD is counted modulo 2³² (log entry 23), and the hold-off of a held interrupt that is due begins anew
before the write clears the interrupt (log entry 74). -/
theorem ringAndDmaRegisterWrites : Obligations.RingAndDmaRegisterWrites := by
  intro via v s hvia
  refine ⟨fun r => ?_, fun n hn hpd => ⟨?_, ?_, fun hst => ?_, fun hst => ?_, fun hst => ?_, fun hst => ?_⟩⟩
  · intro x
    refine ⟨fun hfits => ?_, fun hpast hne => ?_, exec_ringCtrlWrite hvia r v⟩
    · rw [exec_ringTailWrite hvia, ringTail_of_fits (d := quiet s) hfits]
      rfl
    · exact (exec_ringTailWrite hvia r v).trans (congrArg (fun d => Host.Outcome.next (after s d)) (if_pos ⟨hpast, hne⟩))
  · exact exec_dmaIrqWrite hvia hn hpd v
  · exact exec_cqTailWrite hvia hn hpd v
  · rw [exec_dmaCmdStart hvia hn hpd, dmaStart_of_stopped (d := quiet s) hst]
  · rw [exec_dmaCmdPause hvia hn hpd, dmaPause_of_running (d := quiet s) hst]
    rfl
  · rw [exec_dmaCmdResume hvia hn hpd, dmaResume_of_paused (d := quiet s) hst]
    rfl
  · obtain ⟨e, habort, hothers⟩ := dmaAbort_of_live (d := quiet s) hst
    have hmine : getDma (settle (dmaAbort (quiet s) n.val)) n.val =
        { getDma e n.val with state := .aborted, move := none, wait := none, stalled := none } := by
      rw [habort, getDma_settle, getDma_dmaMod_same]
    refine ⟨_, exec_dmaCmdAbort hvia hn hpd, congrArg DmaChan.state hmine, congrArg DmaChan.move hmine, congrArg DmaChan.wait hmine, fun k hk => ?_⟩
    exact (getDma_settle ..).trans (habort ▸ (getDma_dmaMod_ne _ hk).trans (hothers k hk))

end Sys2Proof.Machine

/-! The network as state (chapter 13): ports, flows and rings read from their banks; what counters, PTP, replies and the transmit side leave of them. -/

namespace Sys2Proof.Machine

section
variable {d d' : Dev} {p i j k : Nat}

/-! Ports, flows and rings are read from their banks alone. -/

theorem getNet_of_net (h : d'.net = d.net) (k : Nat) : getNet d' k = getNet d k := congrArg (fun n : Net => tabGet n.ports k) h
theorem getRx_of_net (h : d'.net = d.net) (k : Nat) : getRx d' k = getRx d k := congrArg (fun n : Net => tabGet n.rxFlows k) h

@[simp] theorem getNet_settle (d : Dev) (k : Nat) : getNet (settle d) k = getNet d k := getNet_of_net (settle_net d) k
@[simp] theorem getRx_settle (d : Dev) (k : Nat) : getRx (settle d) k = getRx d k := getRx_of_net (settle_net d) k

/-! A change of one of them. -/

@[simp] theorem getNet_netPortMod_same (f : NetPort → NetPort) : getNet (netPortMod d p f) p = f (getNet d p) := tabGet_tabMod_same ..
theorem getNet_netPortMod_ne (f : NetPort → NetPort) (h : k ≠ p) : getNet (netPortMod d p f) k = getNet d k := tabGet_tabMod_ne _ _ _ _ h
@[simp] theorem getRx_rxFlowMod_same (f : RxFlow → RxFlow) : getRx (rxFlowMod d i f) i = f (getRx d i) := tabGet_tabMod_same ..
theorem getRx_rxFlowMod_ne (f : RxFlow → RxFlow) (h : k ≠ i) : getRx (rxFlowMod d i f) k = getRx d k := tabGet_tabMod_ne _ _ _ _ h
@[simp] theorem getTx_txFlowMod_same (f : TxFlow → TxFlow) : getTx (txFlowMod d i f) i = f (getTx d i) := tabGet_tabMod_same ..
theorem getTx_txFlowMod_ne (f : TxFlow → TxFlow) (h : k ≠ i) : getTx (txFlowMod d i f) k = getTx d k := tabGet_tabMod_ne _ _ _ _ h
@[simp] theorem getRing_ringMod_same (f : Ring → Ring) : getRing (ringMod d i f) i = f (getRing d i) := tabGet_tabMod_same ..
@[simp] theorem getNet_ringMod (d : Dev) (r : Nat) (f : Ring → Ring) (k : Nat) : getNet (ringMod d r f) k = getNet d k := rfl

/-- What a change keeps of a port, it keeps of every port. -/
theorem getNet_netPortMod_field {α : Type} (g : NetPort → α) {f : NetPort → NetPort} (h : ∀ x, g (f x) = g x) (k : Nat) :
    g (getNet (netPortMod d p f) k) = g (getNet d k) := by
  by_cases hk : k = p
  · subst hk; rw [getNet_netPortMod_same, h]
  · rw [getNet_netPortMod_ne f hk]

/-! Counters of ports (R368–R370). -/

@[simp] theorem nsRx_hif (d : Dev) (p i n : Nat) : (nsRx d p i n).hif = d.hif := rfl
@[simp] theorem nsRx_time (d : Dev) (p i n : Nat) : (nsRx d p i n).time = d.time := rfl
@[simp] theorem nsRx_hostWrites (d : Dev) (p i n : Nat) : (nsRx d p i n).hostWrites = d.hostWrites := rfl
@[simp] theorem nsRx_filters (d : Dev) (p i n : Nat) : (nsRx d p i n).net.filters = d.net.filters := rfl
@[simp] theorem getRing_nsRx (d : Dev) (p i n r : Nat) : getRing (nsRx d p i n) r = getRing d r := rfl
/-- What a receive counter leaves of every port. -/
theorem nsRx_field {α : Type} (g : NetPort → α)
    (hg : ∀ x rx half ev first, g { x with rx := rx, halfRx := half, evRx := ev, evFirst := first } = g x) (d : Dev) (p i n k : Nat) :
    g (getNet (nsRx d p i n) k) = g (getNet d k) := getNet_netPortMod_field g (fun _ => hg ..) k
@[simp] theorem getNet_nsRx_cfg (d : Dev) (p i n k : Nat) : (getNet (nsRx d p i n) k).cfg = (getNet d k).cfg :=
  nsRx_field NetPort.cfg (fun _ _ _ _ _ => rfl) d p i n k
@[simp] theorem getNet_nsRx_up (d : Dev) (p i n k : Nat) : (getNet (nsRx d p i n) k).up = (getNet d k).up :=
  nsRx_field NetPort.up (fun _ _ _ _ _ => rfl) d p i n k

@[simp] theorem rx_nsRx_same (d : Dev) (p i n : Nat) :
    tabGet (getNet (nsRx d p i n) p).rx i = tabGet (getNet d p).rx i + BitVec.ofNat 32 n := by
  simp only [nsRx, getNet_netPortMod_same, tabGet_tabSet_same]
theorem rx_nsRx_ne (d : Dev) (p n : Nat) (h : j ≠ i) : tabGet (getNet (nsRx d p i n) p).rx j = tabGet (getNet d p).rx j := by
  simp only [nsRx, getNet_netPortMod_same, tabGet_tabSet_ne _ _ _ _ h]

@[simp] theorem tx_nsTx_same (d : Dev) (p i n : Nat) :
    tabGet (getNet (nsTx d p i n) p).tx i = tabGet (getNet d p).tx i + BitVec.ofNat 32 n := by
  simp only [nsTx, getNet_netPortMod_same, tabGet_tabSet_same]
theorem tx_nsTx_ne (d : Dev) (p n : Nat) (h : j ≠ i) : tabGet (getNet (nsTx d p i n) p).tx j = tabGet (getNet d p).tx j := by
  simp only [nsTx, getNet_netPortMod_same, tabGet_tabSet_ne _ _ _ _ h]

/-- What a transmit counter leaves of every port. -/
theorem nsTx_field {α : Type} (g : NetPort → α)
    (hg : ∀ x tx half ev first, g { x with tx := tx, halfTx := half, evTx := ev, evFirst := first } = g x) (d : Dev) (p i n k : Nat) :
    g (getNet (nsTx d p i n) k) = g (getNet d k) := getNet_netPortMod_field g (fun _ => hg ..) k

/-! Replies, PTP and what a leg's loss reports leave the network alone. -/

@[simp] theorem queueReply_net (d : Dev) (t : Taken) (m : OutMsg) : (queueReply d t m).net = d.net := by
  unfold queueReply; dsimp only
  (repeat' split) <;> rfl
@[simp] theorem reply_net (d : Dev) (t : Taken) (st : Status) (body : List Byte) (bulk : Bool) : (reply d t st body bulk).net = d.net := by
  unfold reply
  (repeat' split) <;> simp
@[simp] theorem evUnderrun_net (d : Dev) (kind index cause : Nat) (mt : MT) (slips : Word) :
    (evUnderrun d kind index cause mt slips).net = d.net := by simp [evUnderrun]
@[simp] theorem refsChanged_net (d : Dev) : (refsChanged d).net = d.net := by
  apply foldl_keeps Dev.net
  exact fun _ _ => rfl
@[simp] theorem ptpTo_net (d : Dev) (new : PtpState) : (ptpTo d new).net = d.net := by
  unfold ptpTo; dsimp only
  split
  · rfl
  · rw [refsChanged_net, evPortClock_net]; rfl
@[simp] theorem putRoles_net (d : Dev) (r : Nat → PtpRole) : (putRoles d r).net = d.net := by
  apply foldl_keeps Dev.net
  exact fun _ _ => rfl
@[simp] theorem selectOwn_net (d : Dev) : (selectOwn d).net = d.net := by
  unfold selectOwn ownRoles; dsimp only
  (repeat' split) <;> simp [ptpMod]
@[simp] theorem selectForeign_net (d : Dev) (sp : Nat) (b : Heard) (switch : Bool) : (selectForeign d sp b switch).net = d.net := by
  unfold selectForeign slaveRoles; dsimp only
  (repeat' split) <;> simp [ptpMod]
@[simp] theorem masterLost_net (d : Dev) : (masterLost d).net = d.net := by
  unfold masterLost bmca
  (repeat' split) <;> simp
@[simp] theorem ptpListen_net (d : Dev) : (ptpListen d).net = d.net := by
  unfold ptpListen
  split
  · rfl
  · apply foldl_keeps Dev.net
    exact fun _ _ => rfl
@[simp] theorem ptpLinks_net (d : Dev) : (ptpLinks d).net = d.net := by
  unfold ptpLinks
  (repeat' split) <;> simp

/-- A link's change is counted at its port. -/
theorem getNet_linkChanged (d : Dev) (p : Nat) (up : Bool) (k : Nat) : getNet (linkChanged d p up) k = getNet (nsTx d p 20 1) k :=
  getNet_of_net (evFault_net ..) k

end

/-! The transmit side. -/

/-- e differs from d in nothing but what its network ports queue, send, ask for and belong to. -/
structure TxOnly (d e : Dev) : Prop where
  rest : e = { d with net := { d.net with ports := e.net.ports } }
  port : ∀ k, getNet e k = { getNet d k with
    queue := (getNet e k).queue, sending := (getNet e k).sending, asking := (getNet e k).asking, members := (getNet e k).members }

namespace TxOnly
variable {a b c d e : Dev}

theorem refl (d : Dev) : TxOnly d d := ⟨rfl, fun _ => rfl⟩
theorem trans (h : TxOnly a b) (h' : TxOnly b c) : TxOnly a c := by
  refine ⟨?_, fun k => ?_⟩
  · rw [h'.rest, h.rest]
  · rw [h'.port k, h.port k]

/-- What the transmit side leaves of every port. -/
theorem field (h : TxOnly d e) {α : Type} (g : NetPort → α)
    (hg : ∀ x q s a m, g { x with queue := q, sending := s, asking := a, members := m } = g x) (k : Nat) : g (getNet e k) = g (getNet d k) := by
  rw [h.port k, hg]

theorem cfg (h : TxOnly d e) (k : Nat) : (getNet e k).cfg = (getNet d k).cfg := h.field NetPort.cfg (fun _ _ _ _ _ => rfl) k
theorem up (h : TxOnly d e) (k : Nat) : (getNet e k).up = (getNet d k).up := h.field NetPort.up (fun _ _ _ _ _ => rfl) k
theorem tx (h : TxOnly d e) (k : Nat) : (getNet e k).tx = (getNet d k).tx := h.field NetPort.tx (fun _ _ _ _ _ => rfl) k
theorem time (h : TxOnly d e) : e.time = d.time := by have k := congrArg Dev.time h.rest; exact k
theorem rxFlows (h : TxOnly d e) : e.net.rxFlows = d.net.rxFlows := by have k := congrArg (fun x : Dev => x.net.rxFlows) h.rest; exact k
theorem txFlows (h : TxOnly d e) : e.net.txFlows = d.net.txFlows := by have k := congrArg (fun x : Dev => x.net.txFlows) h.rest; exact k
theorem getRx (h : TxOnly d e) (i : Nat) : getRx e i = getRx d i := congrArg (fun t : Tab RxFlow => tabGet t i) h.rxFlows
theorem getTx (h : TxOnly d e) (i : Nat) : getTx e i = getTx d i := congrArg (fun t : Tab TxFlow => tabGet t i) h.txFlows

/-- A change of a port's queue, frame in transmission, requests and memberships. -/
theorem netPortMod {f : NetPort → NetPort}
    (h : ∀ x, f x = { x with queue := (f x).queue, sending := (f x).sending, asking := (f x).asking, members := (f x).members })
    (d : Dev) (p : Nat) : TxOnly d (netPortMod d p f) := by
  refine ⟨rfl, fun k => ?_⟩
  by_cases hk : k = p
  · subst hk; rw [getNet_netPortMod_same]; exact h _
  · rw [getNet_netPortMod_ne f hk]

theorem foldl {α : Type} {f : Dev → α → Dev} (h : ∀ d a, TxOnly d (f d a)) (l : List α) (d : Dev) : TxOnly d (l.foldl f d) :=
  foldl_rel TxOnly refl (fun _ _ _ => trans) f h l d

end TxOnly

theorem pump_txOnly (d : Dev) (p : Nat) : TxOnly d (pump d p) := by
  unfold pump; dsimp only
  (repeat' split)
  · exact .refl _
  · exact .netPortMod (fun _ => rfl) ..
  · exact .refl _
theorem enqueue_txOnly (d : Dev) (p : Nat) (f : TxFrame) : TxOnly d (enqueue d p f) :=
  (TxOnly.netPortMod (fun _ => rfl) d p).trans (pump_txOnly ..)
theorem fwFrame_txOnly (d : Dev) (p proto : Nat) (target : List Byte) : TxOnly d (fwFrame d p proto target) := by
  unfold fwFrame
  split
  · exact enqueue_txOnly ..
  · exact .refl _
theorem askAddr_txOnly (d : Dev) (p : Nat) (a : List Byte) : TxOnly d (askAddr d p a) := by
  unfold askAddr
  extract_lets x fam
  split
  · exact .refl _
  · exact (TxOnly.netPortMod (fun _ => rfl) d p).trans (fwFrame_txOnly ..)
theorem askAll_txOnly (d : Dev) : TxOnly d (askAll d) := by
  refine TxOnly.foldl (fun d kv => ?_) _ _
  split
  · exact .refl _
  · refine TxOnly.foldl (fun d pl => ?_) _ _
    dsimp only
    (repeat' split)
    · exact .refl _
    · exact askAddr_txOnly ..
    · exact .refl _
theorem joinGroups_txOnly (d : Dev) : TxOnly d (joinGroups d) :=
  TxOnly.foldl (fun d p => (TxOnly.netPortMod (fun _ => rfl) d p).trans (TxOnly.foldl (fun _ _ => fwFrame_txOnly ..) _ _)) _ _

/-- A frame given to a port that is sending waits behind what the port has queued. -/
theorem enqueue_of_sending {d : Dev} {p : Nat} (h : (getNet d p).sending.isSome = true) (f : TxFrame) :
    enqueue d p f = netPortMod d p (fun x => { x with queue := x.queue ++ [f] }) := by
  rw [enqueue, pump, if_pos (by simp [h])]

/-- So does a frame of firmware, which runs, at a port that is up. -/
theorem fwFrame_of_sending {d : Dev} {p : Nat} (hup : (getNet d p).up = true) (hrun : d.hif.ctrlUp = true)
    (h : (getNet d p).sending.isSome = true) (proto : Nat) (target : List Byte) : fwFrame d p proto target =
      netPortMod d p (fun x => { x with queue := x.queue ++ [{ kind := .firmware proto target, queue := 6, dt := now d }] }) := by
  rw [fwFrame, if_pos (by simp [hup, hrun]), enqueue_of_sending h]

end Sys2Proof.Machine

/-! Received frames (R336, R337, R361, R368): what of a frame is counted where it ends, and where one that nothing claims goes. -/

namespace Sys2Proof.Machine

section
variable {d : Dev} {p : Nat} {f : RxFrame}

@[simp] theorem dtTo_net (d : Dev) (dt : DT) : (dtTo d dt).net = d.net := by
  unfold dtTo; split <;> rfl
@[simp] theorem dtTo_hif (d : Dev) (dt : DT) : (dtTo d dt).hif = d.hif := by
  unfold dtTo; split <;> rfl
@[simp] theorem dtTo_ptp (d : Dev) (dt : DT) : (dtTo d dt).time.ptp = d.time.ptp := by
  unfold dtTo; split <;> rfl
@[simp] theorem getNet_dtTo (d : Dev) (dt : DT) (k : Nat) : getNet (dtTo d dt) k = getNet d k := getNet_of_net (dtTo_net d dt) k

/-- The device at the frame, the line's events since the last one counted. -/
def rxLine (d : Dev) (p : Nat) (f : RxFrame) : Dev :=
  nsRx (nsRx (nsRx (dtTo d f.dt) p 25 f.pcsErr) p 26 f.fecCorr) p 27 f.fecUncorr

/-- A frame that is no error counted: itself, its bytes, its kind of destination and its size. -/
def rxCounted (d : Dev) (p : Nat) (f : RxFrame) : Dev :=
  nsRx (nsRx (nsRx (nsRx (rxLine d p f) p 0 1) p 1 (f.bytes.length + 4)) p (2 + castBin (ethOf f.bytes).dst) 1) p (5 + sizeBin (f.bytes.length + 4)) 1

@[simp] theorem rxLine_cfg (d : Dev) (p : Nat) (f : RxFrame) (k : Nat) : (getNet (rxLine d p f) k).cfg = (getNet d k).cfg := by simp [rxLine]
@[simp] theorem rxCounted_cfg (d : Dev) (p : Nat) (f : RxFrame) (k : Nat) : (getNet (rxCounted d p f) k).cfg = (getNet d k).cfg := by
  simp [rxCounted]
@[simp] theorem rxCounted_up (d : Dev) (p : Nat) (f : RxFrame) (k : Nat) : (getNet (rxCounted d p f) k).up = (getNet d k).up := by
  simp [rxCounted, rxLine]
@[simp] theorem rxCounted_hif (d : Dev) (p : Nat) (f : RxFrame) : (rxCounted d p f).hif = d.hif := by simp [rxCounted, rxLine]
@[simp] theorem rxCounted_ptp (d : Dev) (p : Nat) (f : RxFrame) : (rxCounted d p f).time.ptp = d.time.ptp := by simp [rxCounted, rxLine]
@[simp] theorem rxCounted_filters (d : Dev) (p : Nat) (f : RxFrame) : (rxCounted d p f).net.filters = d.net.filters := by simp [rxCounted, rxLine]

/-- A frame of legal length with a good FCS and no 802.1Q tag. -/
structure RxGood (c : NetCfg) (f : RxFrame) : Prop where
  long : 64 ≤ f.bytes.length + 4
  short : f.bytes.length + 4 ≤ frameLimit c (ethOf f.bytes).tci.isSome + 4
  fcs : f.fcsOk = true
  untagged : (ethOf f.bytes).tci.isSome = false

/-! Frames that end where they are counted. -/

theorem netRx_down (h : (getNet d p).up = false) : netRx d p f = d := if_pos (by simp [h])

section
variable (hup : (getNet d p).up = true)
include hup

theorem netRx_short (h : f.bytes.length + 4 < 64) : netRx d p f = nsRx (rxLine d p f) p (if f.fcsOk then 13 else 14) 1 := by
  rw [netRx, if_neg (by simp [hup])]
  exact if_pos h

theorem netRx_long (h : 64 ≤ f.bytes.length + 4) (hlim : frameLimit (getNet d p).cfg (ethOf f.bytes).tci.isSome + 4 < f.bytes.length + 4) :
    netRx d p f = nsRx (rxLine d p f) p (if f.fcsOk then 15 else 16) 1 := by
  rw [← rxLine_cfg d p f] at hlim
  rw [netRx, if_neg (by simp [hup])]
  exact (if_neg (Nat.not_lt.2 h)).trans (if_pos hlim)

theorem netRx_badFcs (h : 64 ≤ f.bytes.length + 4) (hlim : f.bytes.length + 4 ≤ frameLimit (getNet d p).cfg (ethOf f.bytes).tci.isSome + 4)
    (hfcs : f.fcsOk = false) : netRx d p f = nsRx (rxLine d p f) p 12 1 := by
  rw [← rxLine_cfg d p f] at hlim
  rw [netRx, if_neg (by simp [hup])]
  exact (if_neg (Nat.not_lt.2 h)).trans ((if_neg (Nat.not_lt.2 hlim)).trans (if_pos (by simp [hfcs])))

/-- A good frame of no IP packet and no ARP: a pause frame, a PTP message over IEEE 802.3, or one for the host (R361). -/
theorem netRx_nonIp (hgood : RxGood (getNet d p).cfg f) (hip : ipOf (ethOf f.bytes) = none) (harp : (ethOf f.bytes).etype ≠ 0x0806) :
    netRx d p f =
      if (ethOf f.bytes).etype = 0x8808 then nsRx (rxCounted d p f) p 17 1
      else if (ethOf f.bytes).etype = 0x88F7 then
        (if ptpEnabled d p = true ∧ d.hif.ctrlUp = true then ptpIgnore (nsRx (rxCounted d p f) p 20 1) else nsRx (rxCounted d p f) p 20 1)
      else routeHost (rxCounted d p f) p f (ethOf f.bytes) none (ingressDt (getNet d p).cfg f.dt) := by
  obtain ⟨hlong, hshort, hfcs, htag⟩ := hgood
  rw [← rxLine_cfg d p f] at hshort
  have hptp : ptpEnabled (nsRx (rxCounted d p f) p 20 1) p = ptpEnabled d p := by simp [ptpEnabled]
  have hrun : (nsRx (rxCounted d p f) p 20 1).hif.ctrlUp = d.hif.ctrlUp := by simp
  rw [← hptp, ← hrun, ← rxLine_cfg d p f, netRx, if_neg (by simp [hup])]
  refine (if_neg (Nat.not_lt.2 hlong)).trans ((if_neg (Nat.not_lt.2 hshort)).trans ((if_neg (by simp [hfcs])).trans ?_))
  simp only [htag, hip, isPtp, protoRx, harp, Bool.false_eq_true, if_false, Option.bind_none, Bool.or_false, beq_iff_eq]
  congr 1
  split
  case isTrue he => simp only [he, true_and]; rfl
  case isFalse => rfl

end

/-- An EtherType that is not IP's is of no IP packet. -/
theorem ipOf_of_etype {e : Eth} (h4 : e.etype ≠ 0x0800) (h6 : e.etype ≠ 0x86DD) : ipOf e = none := by
  rw [ipOf, if_neg h4, if_neg h6]

/-! Rules 5 to 7 of R361 where no filter matches. -/

/-- A port's MAC address is its configuration's. -/
theorem portMac_of_cfg {e : Dev} (h : (getNet e p).cfg = (getNet d p).cfg) : portMac e p = portMac d p := by rw [portMac, portMac, h]

theorem routeHost_rxCounted {e : Eth} {i : Option Ip} (h : ∀ k, k < 16 → filterHit (tabGet d.net.filters k) p e i = false) (stamp : DT) :
    routeHost (rxCounted d p f) p f e i stamp = if e.dst = portMac d p ∨ e.dst.all (· == 0xFF) then ringRx (rxCounted d p f) 0 p 0xFF f e i stamp
      else filtered (rxCounted d p f) p := by
  have hnone : (List.range 16).find? (fun k => filterHit (tabGet (rxCounted d p f).net.filters k) p e i) = none := by simpa using h
  rw [routeHost, hnone, portMac_of_cfg (rxCounted_cfg d p f p)]

/-! EV_COUNTER_HALF (R369). -/

theorem counterHalf_none (hrx : (getNet d p).evRx = 0) (htx : (getNet d p).evTx = 0) : counterHalf d p = d := if_pos (by simp [hrx, htx])

theorem getNet_counterHalf (hrx : (getNet d p).evRx ≠ 0) (hlast : (getNet d p).evLast = none) (hrun : d.hif.ctrlUp = true) :
    getNet (counterHalf d p) p = { getNet d p with evRx := 0, evTx := 0, evFirst := none, evLast := some (now d) } := by
  rw [counterHalf, if_neg (by simpa [hlast, hrun] using fun h => absurd h hrx), getNet_netPortMod_same, getNet_of_net (event_net ..), now, event_time]
  rfl

/-! LEG_DOWN (R349, R352). -/

theorem legDown_of_down {i leg : Nat} (h : (tabGet (getRx d i).legs leg).up = false) : legDown d i leg = d := if_pos (by simp [h])

/-- A leg that goes down changes no other leg and no other flow, whatever of an underrun it begins. -/
theorem getRx_legDown {i leg : Nat} (h : (tabGet (getRx d i).legs leg).up = true) :
    (getRx (legDown d i leg) i).legs = tabMod (getRx d i).legs leg (fun l => { l with up := false }) ∧
    ∀ k, k ≠ i → getRx (legDown d i leg) k = getRx d k := by
  rw [legDown, if_neg (by simp [h])]
  extract_lets e x e'
  have hmine : (getRx e i).legs = tabMod (getRx d i).legs leg (fun l => { l with up := false }) :=
    congrArg RxFlow.legs (getRx_rxFlowMod_same _)
  have hothers : ∀ k, k ≠ i → getRx e k = getRx d k := fun k hk => getRx_rxFlowMod_ne _ hk
  (repeat' split)
  · exact ⟨hmine, hothers⟩
  · rw [getRx_of_net (evUnderrun_net ..)]
    refine ⟨(congrArg RxFlow.legs (getRx_rxFlowMod_same _)).trans hmine, fun k hk => ?_⟩
    rw [getRx_of_net (evUnderrun_net ..)]
    exact (getRx_rxFlowMod_ne _ hk).trans (hothers k hk)
  · exact ⟨(congrArg RxFlow.legs (getRx_rxFlowMod_same _)).trans hmine, fun k hk => (getRx_rxFlowMod_ne _ hk).trans (hothers k hk)⟩

end

/-! Host receive rings (R360–R363). -/

theorem getRing_of_net {d d' : Dev} (h : d'.net = d.net) (r : Nat) : getRing d' r = getRing d r := congrArg (fun n : Net => tabGet n.rings r) h

@[simp] theorem ringMature_dropping (t : DT) (r : Ring) : (ringMature t r).dropping = r.dropping := by
  unfold ringMature; split <;> rfl

section
variable (d : Dev) (ring p n : Nat)

@[simp] theorem getNet_ringAdvance (k : Nat) : getNet (ringAdvance d ring n) k = getNet d k := rfl
theorem ringAdvance_head : (getRing (ringAdvance d ring n) ring).head = (getRing d ring).head + BitVec.ofNat 32 n := by
  simp only [ringAdvance, getRing_ringMod_same, ringMature_head]
theorem ringAdvance_dropping : (getRing (ringAdvance d ring n) ring).dropping = (getRing d ring).dropping := by
  simp only [ringAdvance, getRing_ringMod_same, ringMature_dropping]

variable (filter : Nat) (f : RxFrame) (stamp : DT) (flags tci : Nat)

/-- Steps that each make c writes to the host make c for each of them. -/
theorem length_hostWrites_foldl {α : Type} {g : Dev → α → Dev} {c : Nat}
    (h : ∀ d a, (g d a).hostWrites.length = d.hostWrites.length + c) (l : List α) (d : Dev) :
    (l.foldl g d).hostWrites.length = d.hostWrites.length + c * l.length := by
  induction l generalizing d with
  | nil => rfl
  | cons a l ih => rw [List.foldl_cons, ih, h, List.length_cons, Nat.mul_succ]; omega

/-- A frame is written to the host, for each of its n buffers its piece and the completion; then the ring's head moves past them. -/
theorem ringFill_eq : ∃ e, ringFill d ring p filter n f stamp flags tci = ringAdvance e ring n ∧ e.net = d.net ∧
    e.hostWrites.length = d.hostWrites.length + 2 * n := by
  refine ⟨_, rfl, ?_, ?_⟩
  · apply foldl_keeps Dev.net
    exact fun _ _ => rfl
  · refine (length_hostWrites_foldl (c := 2) (fun e k => ?_) _ _).trans (by rw [List.length_range])
    simp only [deposit, List.length_append, List.length_cons, List.length_nil]

end

/-- The buffers that a frame fills (R362). -/
def rxBuffers (f : RxFrame) : Nat := max 1 ((f.bytes.length + 2047) / 2048)

section
variable {d : Dev} {ring : Nat} {f : RxFrame} (p filter : Nat) (e : Eth) (i : Option Ip) (stamp : DT)

theorem ringRx_noDescriptor (h : ringPosted (getRing d ring) = 0) : ringRx d ring p filter f e i stamp =
    ringMod (nsRx d p 23 1) ring (fun r => { r with dropped := r.dropped + 1, dropping := r.dropping || ringRuns r }) := if_pos h

/-- A frame that the posted descriptors do not hold fills them all and is dropped. -/
theorem ringRx_partway (h0 : 0 < ringPosted (getRing d ring)) (h : ringPosted (getRing d ring) < rxBuffers f) :
    let t := ringRx d ring p filter f e i stamp
    (getRing t ring).head = (getRing d ring).head + BitVec.ofNat 32 (ringPosted (getRing d ring)) ∧ (getRing t ring).dropping = true ∧
      tabGet (getNet t p).rx 23 = tabGet (getNet d p).rx 23 + 1 := by
  obtain ⟨w, hfill, hnet, -⟩ := ringFill_eq (nsRx d p 23 1) ring p (ringPosted (getRing d ring)) filter f stamp
    (sumBits i + 256 * b2n e.tci.isSome + 8) (e.tci.getD 0)
  have ht : ringRx d ring p filter f e i stamp =
      ringMod (ringAdvance w ring (ringPosted (getRing d ring))) ring (fun r => { r with dropping := true }) :=
    (if_neg (Nat.ne_of_gt h0)).trans ((if_pos h).trans (congrArg (ringMod · ring _) hfill))
  intro t
  rw [show t = _ from ht, getRing_ringMod_same, ringAdvance_head, getRing_of_net hnet, getNet_ringMod, getNet_ringAdvance, getNet_of_net hnet]
  exact ⟨rfl, rfl, rx_nsRx_same ..⟩

/-- A frame that they hold is delivered and counted, its bad checksums after it. -/
theorem ringRx_delivered (h : rxBuffers f ≤ ringPosted (getRing d ring)) :
    let t := ringRx d ring p filter f e i stamp
    (getRing t ring).head = (getRing d ring).head + BitVec.ofNat 32 (rxBuffers f) ∧ (getRing t ring).dropping = false ∧
      tabGet (getNet t p).rx 21 = tabGet (getNet d p).rx 21 + 1 ∧ t.hostWrites.length = d.hostWrites.length + 2 * rxBuffers f := by
  have hone : 1 ≤ rxBuffers f := Nat.le_max_left ..
  have hsome : ringPosted (getRing d ring) ≠ 0 := by omega
  obtain ⟨w, hfill, hnet, hwrites⟩ := ringFill_eq (ringMod d ring (fun r => { r with dropping := false })) ring p (rxBuffers f) filter f stamp
    (sumBits i + 256 * b2n e.tci.isSome) (e.tci.getD 0)
  have hring : getRing w ring = { getRing d ring with dropping := false } := (getRing_of_net hnet ring).trans (getRing_ringMod_same _)
  have hport : getNet w p = getNet d p := getNet_of_net hnet p
  have ht : ringRx d ring p filter f e i stamp =
      if bit (sumBits i + 256 * b2n e.tci.isSome) 6 then nsRx (nsRx (ringAdvance w ring (rxBuffers f)) p 21 1) p 24 1
      else nsRx (ringAdvance w ring (rxBuffers f)) p 21 1 := by
    rw [← hfill]
    exact (if_neg hsome).trans (if_neg (Nat.not_lt.2 h))
  have hhead : (getRing (ringAdvance w ring (rxBuffers f)) ring).head = (getRing d ring).head + BitVec.ofNat 32 (rxBuffers f) := by
    rw [ringAdvance_head, hring]
  have hdropping : (getRing (ringAdvance w ring (rxBuffers f)) ring).dropping = false := by rw [ringAdvance_dropping, hring]
  have hcount : tabGet (getNet (nsRx (ringAdvance w ring (rxBuffers f)) p 21 1) p).rx 21 = tabGet (getNet d p).rx 21 + 1 := by
    rw [rx_nsRx_same, getNet_ringAdvance, hport]
    rfl
  intro t
  rw [show t = _ from ht]
  split
  · exact ⟨hhead, hdropping, (rx_nsRx_ne _ _ _ (by decide)).trans hcount, hwrites⟩
  · exact ⟨hhead, hdropping, hcount, hwrites⟩

end

/-! The rows of the received side. -/

theorem exec_netFrameRx (port : Fin 4) (f : RxFrame) (s : State) : exec (.netFrameRx port f) s = .next (after s (netRx (quiet s) port.val f)) := rfl
theorem exec_evCounterHalf (port : Fin 4) (s : State) : exec (.evCounterHalf port) s = .next (after s (counterHalf (quiet s) port.val)) := rfl
theorem exec_legDown (flow : Fin 256) (leg : Fin 2) (s : State) :
    exec (.legDown flow leg) s = .next (after s (legDown (quiet s) flow.val leg.val)) := rfl

/-- Settles O41: each frame ends as the lemmas on `netRx` and `routeHost` say, and a ring takes it as those on `ringRx` say; settling keeps the
network.  A PTP message over IEEE 802.3 is ignored by R52.  That a frame whose instant lies ahead brings DT forward is the model's choice (log
entry 67). -/
theorem receivedFramesAreRoutedAndRingsTakeThem : Obligations.ReceivedFramesAreRoutedAndRingsTakeThem := by
  refine ⟨fun port f s => ?_, fun d ring p filter f e i stamp => ?_⟩
  · intro p n e lim d0 d1 good
    have hgood : good → RxGood (getNet (quiet s) p).cfg f := fun ⟨hlong, hshort, hfcs, htag⟩ => ⟨hlong, hshort, hfcs, htag⟩
    refine ⟨fun hdown => ?_, fun hup => ⟨fun h => ?_, fun h hlim => ?_, fun h hlim hfcs => ?_, fun hg he => ?_, fun hg he => ?_,
      fun hg hpause hptp harp hip hfilters hdst => ?_, fun hg hpause hptp harp hip hfilters hdst hcast => ?_⟩,
      fun hrx htx => ?_, fun hrx hlast hrun => ?_, fun flow leg => ?_⟩
    · rw [exec_netFrameRx, netRx_down (d := quiet s) hdown]
    · rw [exec_netFrameRx, netRx_short (d := quiet s) hup h]
      rfl
    · rw [exec_netFrameRx, netRx_long (d := quiet s) hup h hlim]
      rfl
    · rw [exec_netFrameRx, netRx_badFcs (d := quiet s) hup h hlim hfcs]
      rfl
    · have hip : ipOf e = none := ipOf_of_etype (ne_of_eq_of_ne he (by decide)) (ne_of_eq_of_ne he (by decide))
      rw [exec_netFrameRx, netRx_nonIp (d := quiet s) hup (hgood hg) hip (ne_of_eq_of_ne he (by decide)), if_pos he]
      rfl
    · have hip : ipOf e = none := ipOf_of_etype (ne_of_eq_of_ne he (by decide)) (ne_of_eq_of_ne he (by decide))
      rw [exec_netFrameRx, netRx_nonIp (d := quiet s) hup (hgood hg) hip (ne_of_eq_of_ne he (by decide)),
        if_neg (ne_of_eq_of_ne he (by decide)), if_pos he]
      rfl
    · rw [exec_netFrameRx, netRx_nonIp (d := quiet s) hup (hgood hg) hip harp, if_neg hpause, if_neg hptp,
        routeHost_rxCounted (d := quiet s) (e := ethOf f.bytes) hfilters,
        if_pos (.inl hdst)]
      rfl
    · rw [exec_netFrameRx, netRx_nonIp (d := quiet s) hup (hgood hg) hip harp, if_neg hpause, if_neg hptp,
        routeHost_rxCounted (d := quiet s) (e := ethOf f.bytes) hfilters,
        if_neg (fun h => h.elim hdst (Bool.eq_false_iff.1 hcast))]
      rfl
    · rw [exec_evCounterHalf, counterHalf_none (d := quiet s) hrx htx]
    · exact ⟨_, exec_evCounterHalf port s, (getNet_settle ..).trans (getNet_counterHalf (d := quiet s) hrx hlast hrun)⟩
    · intro x
      refine ⟨fun hdown => ?_, fun hup => ?_⟩
      · rw [exec_legDown, legDown_of_down (d := quiet s) hdown]
      · obtain ⟨hlegs, hothers⟩ := getRx_legDown (d := quiet s) (i := flow.val) hup
        rw [← getRx_settle] at hlegs
        refine ⟨_, exec_legDown flow leg s, ?_, fun k hk => ?_, fun k hk => (getRx_settle ..).trans (hothers k hk)⟩
        · exact (congrArg (fun t => (tabGet t leg.val).up) hlegs).trans (congrArg RxLeg.up (tabGet_tabMod_same ..))
        · exact (congrArg (tabGet · k) hlegs).trans (tabGet_tabMod_ne _ _ _ _ hk)
  · intro r n t
    refine ⟨fun h => ?_, ringRx_partway p filter e i stamp, ringRx_delivered p filter e i stamp⟩
    rw [show t = _ from ringRx_noDescriptor p filter e i stamp h, getRing_ringMod_same]
    exact ⟨rfl, rfl, rfl, rx_nsRx_same ..⟩

end Sys2Proof.Machine

/-! Links, gate lists, neighbours and memberships between requests (R337, R339, R340, R344, R345): what each change makes of its port. -/

namespace Sys2Proof.Machine

section
variable {d : Dev} {p : Nat}

/-! Links (R337). -/

/-- A port as its link comes up, and as it goes down. -/
def portUp (d : Dev) (p : Nat) : Dev := netPortMod d p (fun x => { x with up := true, blockLock := true, remoteFault := false })
def portDown (d : Dev) (p : Nat) (rf : Bool) : Dev :=
  netPortMod d p (fun x => { x with up := false, blockLock := x.blockLock && rf, remoteFault := rf, sending := none })

section
variable (hdown : (getNet d p).up = false) (hspeed : (getNet d p).cfg.speed ≠ 0) (hpd : pdOn d (netPd p) = true)
  (hmode : netModeDown (mode d) = false)
include hdown hspeed hpd hmode

/-- After a link has come up and PTP listens, the transmit side sends what it has to. -/
theorem linkUpOp_txOnly : TxOnly (ptpListen (linkChanged (portUp d p) p true)) (linkUpOp d p) := by
  rw [linkUpOp, if_neg (by simp [hdown, hspeed, hpd, hmode])]
  refine TxOnly.trans ?_ ((askAll_txOnly _).trans (pump_txOnly ..))
  split
  · exact (fwFrame_txOnly ..).trans (fwFrame_txOnly ..)
  · exact .refl _

/-- What neither the transmit side nor a counter changes is as the port's change made it. -/
theorem linkUpOp_field {α : Type} (g : NetPort → α) (hg : ∀ x tx half ev first queue sending asking members, g { x with
      tx := tx, halfTx := half, evTx := ev, evFirst := first, queue := queue, sending := sending, asking := asking, members := members } = g x)
    (k : Nat) : g (getNet (linkUpOp d p) k) = g (getNet (portUp d p) k) := by
  rw [(linkUpOp_txOnly hdown hspeed hpd hmode).field g (fun _ _ _ _ _ => hg ..), getNet_of_net (ptpListen_net _), getNet_linkChanged]
  exact nsTx_field g (fun _ _ _ _ _ => hg ..) ..

theorem tx_linkUpOp : tabGet (getNet (linkUpOp d p) p).tx 20 = tabGet (getNet d p).tx 20 + 1 := by
  rw [(linkUpOp_txOnly hdown hspeed hpd hmode).tx, getNet_of_net (ptpListen_net _), getNet_linkChanged, tx_nsTx_same, portUp, getNet_netPortMod_same]
  rfl

end

theorem linkUpOp_of_not (h : (getNet d p).up = true ∨ (getNet d p).cfg.speed = 0 ∨ pdOn d (netPd p) = false ∨ netModeDown (mode d) = true) :
    linkUpOp d p = d := if_pos (by simpa [or_assoc] using h)

/-- What a sticky bit leaves of every port. -/
theorem netSticky_field {α : Type} (g : NetPort → α) (hg : ∀ x status, g { x with status := status } = g x) (d : Dev) (p i k : Nat) :
    g (getNet (netSticky d p i) k) = g (getNet d k) := getNet_netPortMod_field g (fun _ => hg ..) k
@[simp] theorem getNet_deposit (d : Dev) (addr : Nat) (bytes : List Byte) (k : Nat) : getNet (deposit d addr bytes) k = getNet d k := rfl
@[simp] theorem getNet_txDone (d : Dev) (ring n status : Nat) (stamp : DT) (k : Nat) : getNet (txDone d ring n status stamp) k = getNet d k := by
  unfold txDone; dsimp only
  split <;> rfl

/-- A frame truncated: counted, and a host's completed LINK_DOWN. -/
def truncateFrame (d : Dev) (p : Nat) (f : TxFrame) : Dev :=
  match f.kind with
  | .host ring n _ _ => txDone (dropSegments (nsTx d p 18 1) p ring) ring n 16 0
  | _ => nsTx d p 18 1

theorem linkDown_of_down (h : (getNet d p).up = false) (rf : Bool) : linkDown d p rf = portDown d p rf := if_pos (by simp [h])

theorem linkDown_of_up (h : (getNet d p).up = true) (rf : Bool) : linkDown d p rf = ptpLinks (linkChanged (netSticky
    ((getNet d p).sending.elim (portDown d p rf) (truncateFrame (portDown d p rf) p)) p 1) p false) := by
  rw [linkDown, if_neg (by simp [h])]
  cases (getNet d p).sending <;> rfl

/-- A truncated frame is counted at its port; the segments that waited behind it leave its queue. -/
theorem truncateFrame_field {α : Type} (g : NetPort → α) (hg : ∀ x queue, g { x with queue := queue } = g x) (d : Dev) (p : Nat) (f : TxFrame)
    (k : Nat) : g (getNet (truncateFrame d p f) k) = g (getNet (nsTx d p 18 1) k) := by
  unfold truncateFrame
  split
  · rw [getNet_txDone]
    exact getNet_netPortMod_field g (fun _ => hg ..) k
  · rfl

/-- What a link that goes down leaves of every port: all but the port's own state, its counters and its queue. -/
theorem linkDown_field {α : Type} (g : NetPort → α) (hg : ∀ x tx half ev first status queue,
    g { x with tx := tx, halfTx := half, evTx := ev, evFirst := first, status := status, queue := queue } = g x) (d : Dev) (p : Nat) (rf : Bool) (k : Nat) :
    g (getNet (linkDown d p rf) k) = g (getNet (portDown d p rf) k) := by
  have hcount : ∀ e i n, g (getNet (nsTx e p i n) k) = g (getNet e k) := fun e i n => nsTx_field g (fun _ _ _ _ _ => hg ..) e p i n k
  cases hup : (getNet d p).up with
  | false => rw [linkDown_of_down hup]
  | true =>
    rw [linkDown_of_up hup, getNet_of_net (ptpLinks_net _), getNet_linkChanged, hcount, netSticky_field g (fun _ _ => hg ..)]
    cases (getNet d p).sending with
    | none => rfl
    | some f => exact (truncateFrame_field g (fun _ _ => hg ..) _ p f k).trans (hcount ..)

/-- The counts of a link that goes down: itself, and the frame that it truncates. -/
theorem tx_linkDown (hup : (getNet d p).up = true) (rf : Bool) :
    tabGet (getNet (linkDown d p rf) p).tx 20 = tabGet (getNet d p).tx 20 + 1 ∧
    tabGet (getNet (linkDown d p rf) p).tx 18 = tabGet (getNet d p).tx 18 + (if (getNet d p).sending.isSome then 1 else 0) := by
  have hdown : (getNet (portDown d p rf) p).tx = (getNet d p).tx := by rw [portDown, getNet_netPortMod_same]
  rw [linkDown_of_up hup, getNet_of_net (ptpLinks_net _), getNet_linkChanged, tx_nsTx_same, tx_nsTx_ne _ _ _ (by decide),
    netSticky_field NetPort.tx (fun _ _ => rfl)]
  cases (getNet d p).sending with
  | none => exact ⟨congrArg (tabGet · 20 + 1) hdown, (congrArg (tabGet · 18) hdown).trans (BitVec.add_zero _).symm⟩
  | some f =>
    have hcut : (getNet (truncateFrame (portDown d p rf) p f) p).tx = _ := truncateFrame_field NetPort.tx (fun _ _ => rfl) _ p f p
    simp only [Option.elim_some, hcut]
    exact ⟨congrArg (· + 1) ((tx_nsTx_ne _ _ _ (by decide)).trans (congrArg (tabGet · 20) hdown)),
      (tx_nsTx_same ..).trans (congrArg (tabGet · 18 + 1) hdown)⟩

/-! Gate lists (R344, R345). -/

/-- A change of the gate list at its time: the port has the list and its interval, an overrun is noted, the request is answered and the next
frame may start. -/
theorem gateChange_of {g : Option GateList} {t : Nat} {asked : Taken} (h : (getNet d p).gatePend = some (g, t, asked)) : ∃ ix, ∃ ovr : Bool,
    let e := netPortMod (dtTo d (BitVec.ofNat 64 t)) p (fun x => { x with gates := g, gateIx := ix, gatePend := none })
    gateChange d p = pump (reply (if ovr then netSticky (nsTx e p 19 1) p 2 else e) asked .ok (zeros 3 ++ p64 t)) p := by
  rw [gateChange, h]
  exact ⟨_, _, rfl⟩

/-- The port takes the list at the time given, where DT has not passed it. -/
theorem gateChange_port {g : Option GateList} {t : Nat} {asked : Taken} (h : (getNet d p).gatePend = some (g, t, asked)) :
    (getNet (gateChange d p) p).gates = g ∧ (getNet (gateChange d p) p).gatePend = none ∧
      (gateChange d p).time.dt = if d.time.dt.toNat < (BitVec.ofNat 64 t).toNat then BitVec.ofNat 64 t else d.time.dt := by
  obtain ⟨ix, ovr, hchange⟩ := gateChange_of h
  have hfield : ∀ {α : Type} (g' : NetPort → α), (∀ x tx half ev first status queue sending asking members, g' { x with
        tx := tx, halfTx := half, evTx := ev, evFirst := first, status := status, queue := queue, sending := sending, asking := asking, members := members } = g' x) →
      g' (getNet (gateChange d p) p) = g' { getNet d p with gates := g, gateIx := ix, gatePend := none } := by
    intro α g' hg
    rw [hchange, (pump_txOnly ..).field g' (fun _ _ _ _ _ => hg ..), getNet_of_net (reply_net ..)]
    cases ovr with
    | true =>
      refine (netSticky_field g' (fun _ _ => hg ..) ..).trans ((nsTx_field g' (fun _ _ _ _ _ => hg ..) ..).trans ?_)
      rw [getNet_netPortMod_same, getNet_of_net (dtTo_net ..)]
    | false => exact congrArg g' ((getNet_netPortMod_same _).trans (by rw [getNet_of_net (dtTo_net ..)]))
  refine ⟨hfield NetPort.gates (fun _ _ _ _ _ _ _ _ _ _ => rfl), hfield NetPort.gatePend (fun _ _ _ _ _ _ _ _ _ _ => rfl), ?_⟩
  have hclock : clock (gateChange d p) = clock (dtTo d (BitVec.ofNat 64 t)) := by
    rw [hchange]
    simp [apply_ite clock]
  rw [clock_time hclock, dtTo]
  split <;> rfl

theorem gateChange_none (h : (getNet d p).gatePend = none) : gateChange d p = d := by rw [gateChange, h]

theorem gateEdge_none (h : (getNet d p).gates = none) : gateEdge d p = d := by simp only [gateEdge, h]

/-- Where DT has reached another interval of the list, the port is in it. -/
theorem gateEdge_port {g : GateList} (h : (getNet d p).gates = some g) (hix : gateIxAt g (now d).toNat ≠ (getNet d p).gateIx) :
    (getNet (gateEdge d p) p).gateIx = gateIxAt g (now d).toNat ∧ (getNet (gateEdge d p) p).gates = some g := by
  have hedge : gateEdge d p = pump (netPortMod d p (fun x => { x with gateIx := gateIxAt g (now d).toNat })) p := by
    simp only [gateEdge, h]
    rw [if_pos hix]
  rw [hedge, (pump_txOnly ..).field NetPort.gateIx (fun _ _ _ _ _ => rfl), (pump_txOnly ..).field NetPort.gates (fun _ _ _ _ _ => rfl),
    getNet_netPortMod_same]
  exact ⟨rfl, h⟩

/-! Neighbours and memberships (R339, R340). -/

variable {a : List Byte}

theorem arpTimeout_of (h : (getNet d p).asking.any (fun k => k.1 == a) = true) : arpTimeout d p a = netPortMod d p (fun x =>
    { x with asking := x.asking.filter (fun k => k.1 != a), neigh := x.neigh.filter (fun n => n.addr != a) }) := if_pos h
theorem arpTimeout_of_not (h : (getNet d p).asking.any (fun k => k.1 == a) = false) : arpTimeout d p a = d := if_neg (Bool.eq_false_iff.1 h)

theorem arpRefresh_of_not (h : (getNet d p).neigh.any (fun n => n.addr == a) = false) : arpRefresh d p a = d := if_neg (Bool.eq_false_iff.1 h)

/-- A neighbour's IPv4 address asked for again, where nothing else is: its request waits behind what is being sent. -/
theorem getNet_arpRefresh (hknown : (getNet d p).neigh.any (fun n => n.addr == a) = true) (hup : (getNet d p).up = true)
    (hrun : d.hif.ctrlUp = true) (hnone : (getNet d p).asking = []) (hlen : a.length = 4) (hfam : (getNet d p).cfg.ip4 = true)
    (hsend : (getNet d p).sending.isSome = true) : getNet (arpRefresh d p a) p = { getNet d p with
      asking := [(a, now d)], queue := (getNet d p).queue ++ [{ kind := .firmware 0 a, queue := 6, dt := now d }] } := by
  rw [arpRefresh, if_pos hknown, askAddr, if_neg (by simp [hlen, hfam, hup, hrun, hnone]), if_pos hlen, fwFrame_of_sending]
  · simp only [getNet_netPortMod_same, hnone]
    rfl
  · rwa [getNet_netPortMod_same]
  · exact hrun
  · rwa [getNet_netPortMod_same]

theorem memberReport_of_not (h : (getNet d p).members.any (fun m => m.group == a && m.reports != 0) = false) : memberReport d p a = d :=
  if_pos (by simp [h])

/-- A report that is due waits behind what is being sent. -/
theorem getNet_memberReport (hdue : (getNet d p).members.any (fun m => m.group == a && m.reports != 0) = true) (hup : (getNet d p).up = true)
    (hrun : d.hif.ctrlUp = true) (hsend : (getNet d p).sending.isSome = true) : getNet (memberReport d p a) p = { getNet d p with
      members := (getNet d p).members.map (fun m => if m.group = a then { m with reports := m.reports - 1 } else m),
      queue := (getNet d p).queue ++ [{ kind := .firmware 5 a, queue := 6, dt := now d }] } := by
  rw [memberReport, if_neg (by simp [hdue, hup, hrun]), fwFrame_of_sending]
  · simp only [getNet_netPortMod_same]
    rfl
  · rwa [getNet_netPortMod_same]
  · exact hrun
  · rwa [getNet_netPortMod_same]

end

/-! The rows of those changes. -/

section
variable (port : Fin 4) (a : List Byte) (s : State)

theorem exec_linkUp : exec (.linkUp port) s = .next (after s (linkUpOp (quiet s) port.val)) := rfl
theorem exec_linkDown (rf : Bool) : exec (.linkDown port rf) s = .next (after s (linkDown (quiet s) port.val rf)) := rfl
theorem exec_gateChangeTime : exec (.gateChangeTime port) s = .next (after s (gateChange (quiet s) port.val)) := rfl
theorem exec_gateIntervalEdge : exec (.gateIntervalEdge port) s = .next (after s (gateEdge (quiet s) port.val)) := rfl
theorem exec_arpResolveTimeout : exec (.arpResolveTimeout port a) s = .next (after s (arpTimeout (quiet s) port.val a)) := rfl
theorem exec_arpRefresh : exec (.arpRefresh port a) s = .next (after s (arpRefresh (quiet s) port.val a)) := rfl
theorem exec_membershipReport : exec (.membershipReport port a) s = .next (after s (memberReport (quiet s) port.val a)) := rfl

end

/-- Settles O43: each row is its change of the quiet device, settled; what the transmit side then does leaves every port's state (`TxOnly`), and
settling keeps the network.  Clauses that are the model's choices: a gate list's change time that lies ahead brings DT forward (log entry 67),
and a link may come up in SELFTEST (log entry 95). -/
theorem linksGatesAndNeighboursChange : Obligations.LinksGatesAndNeighboursChange := by
  intro port s p x
  refine ⟨fun hdown hspeed hpd hmode => ?_, fun h => ?_, fun rf hup => ?_, fun h => ?_, fun g t0 asked h => ?_, fun h => ?_, fun g h hix => ?_,
    fun a => ⟨fun h => ?_, fun h => ?_, fun h => ?_, fun hknown hup hrun hnone hlen hfam hsend => ?_, fun h => ?_, fun hdue hup hrun hsend => ?_⟩⟩
  · have hfield {α : Type} (g : NetPort → α) := linkUpOp_field (d := quiet s) hdown hspeed hpd hmode g
    have hmine : getNet (portUp (quiet s) p) p = _ := getNet_netPortMod_same _
    refine ⟨_, exec_linkUp port s, ?_, ?_, ?_, ?_, fun k hk => ?_⟩
    all_goals simp only [after, getNet_settle]
    · exact (hfield NetPort.up (fun _ _ _ _ _ _ _ _ _ => rfl) p).trans (congrArg NetPort.up hmine)
    · exact (hfield NetPort.blockLock (fun _ _ _ _ _ _ _ _ _ => rfl) p).trans (congrArg NetPort.blockLock hmine)
    · exact (hfield NetPort.remoteFault (fun _ _ _ _ _ _ _ _ _ => rfl) p).trans (congrArg NetPort.remoteFault hmine)
    · exact tx_linkUpOp (d := quiet s) hdown hspeed hpd hmode
    · exact (hfield NetPort.up (fun _ _ _ _ _ _ _ _ _ => rfl) k).trans (congrArg NetPort.up (getNet_netPortMod_ne _ hk))
  · rw [exec_linkUp, linkUpOp_of_not (d := quiet s) h]
  · have hmine : getNet (portDown (quiet s) p rf) p = _ := getNet_netPortMod_same _
    obtain ⟨hlinks, hcut⟩ := tx_linkDown (d := quiet s) hup rf
    refine ⟨_, exec_linkDown port s rf, ?_, ?_, ?_, ?_, ?_⟩
    all_goals simp only [after, getNet_settle]
    · exact (linkDown_field NetPort.up (fun _ _ _ _ _ _ _ => rfl) ..).trans (congrArg NetPort.up hmine)
    · exact (linkDown_field NetPort.sending (fun _ _ _ _ _ _ _ => rfl) ..).trans (congrArg NetPort.sending hmine)
    · exact (linkDown_field NetPort.remoteFault (fun _ _ _ _ _ _ _ => rfl) ..).trans (congrArg NetPort.remoteFault hmine)
    · exact hlinks
    · exact hcut
  · rw [exec_gateChangeTime, gateChange_none (d := quiet s) h]
  · obtain ⟨hgates, hpend, hdt⟩ := gateChange_port (d := quiet s) h
    refine ⟨_, exec_gateChangeTime port s, ?_, ?_, ?_⟩
    all_goals simp only [after, getNet_settle, settle_time]
    · exact hgates
    · exact hpend
    · exact hdt
  · rw [exec_gateIntervalEdge, gateEdge_none (d := quiet s) h]
  · obtain ⟨hnow, hlist⟩ := gateEdge_port (d := quiet s) h hix
    exact ⟨_, exec_gateIntervalEdge port s, (congrArg NetPort.gateIx (getNet_settle ..)).trans hnow,
      (congrArg NetPort.gates (getNet_settle ..)).trans hlist⟩
  · rw [exec_arpResolveTimeout, arpTimeout_of (d := quiet s) h]
  · rw [exec_arpResolveTimeout, arpTimeout_of_not (d := quiet s) h]
  · rw [exec_arpRefresh, arpRefresh_of_not (d := quiet s) h]
  · have hport := (getNet_settle ..).trans (getNet_arpRefresh (d := quiet s) hknown hup hrun hnone hlen hfam hsend)
    have hneigh := congrArg NetPort.neigh hport
    exact ⟨_, _, exec_arpRefresh port a s, congrArg NetPort.asking hport, hneigh, congrArg NetPort.queue hport, rfl⟩
  · rw [exec_membershipReport, memberReport_of_not (d := quiet s) h]
  · have hport := (getNet_settle ..).trans (getNet_memberReport (d := quiet s) hdue hup hrun hsend)
    exact ⟨_, _, exec_membershipReport port a s, congrArg NetPort.queue hport, rfl, congrArg NetPort.members hport⟩

end Sys2Proof.Machine

/-! Chapter 13's requests judged (R338, R345–R359): what each rule answers where nothing refuses the request, and what it makes of its port or
flow. -/

namespace Sys2Proof.Machine

/-- A request that is answered OK, or waits for what w says. -/
theorem reqRow1_awaitsOr {s : State} {op : Op} {j : Judge1} {r : Req} (hs : served s (takes s op r)) {d : Dev} {w : WaitFor} {body : List Byte}
    {waits : Bool} (h : j (quiet s) (takes s op r) none = if waits then (d, .wait w) else (d, .now .ok body)) :
    reqRow1 op j r s = .next (if waits then awaits s (takes s op r) d w else granted s (takes s op r) d body) := by
  rw [reqRow1_served hs]
  cases waits with
  | true => exact congrArg _ (judged_wait h)
  | false => exact congrArg _ (judged_ok h)

/-- A made change as the device it makes and its answer. -/
theorem answer_fst {α β γ : Type} {x : α × β × γ} {a : α} {b : β} {c : γ} (h : x = (a, b, c)) : x = (x.1, b, c) := by rw [h]
theorem fst_of_answer {α β γ : Type} {x : α × β × γ} {a : α} {b : β} {c : γ} (h : x = (a, b, c)) : x.1 = a := by rw [h]

/-! NET_PORT_CFG (R338, R361). -/

/-- The device with a port's configuration: its link down where speed or FEC change, power planned, addresses announced and asked for. -/
def netConfigured (d : Dev) (n : Nat) (c : NetCfg) : Dev :=
  let o := (getNet d n).cfg
  let d := if o.speed ≠ c.speed ∨ o.fec ≠ c.fec then linkDown d n false else d
  let d := powerPlan (netPortMod d n (fun x => { x with cfg := c, thresh := 512 }))
  askAll (if c.ip6 && !o.ip6 then fwFrame (fwFrame d n 2 (linkLocal d n)) n 2 c.ipv6 else d)

section
variable (d : Dev) (n : Nat) (c : NetCfg)

/-- What neither a link that goes down nor the transmit side changes is as the configuration makes it. -/
theorem netConfigured_field {α : Type} (g : NetPort → α) (k : Nat) (hg : ∀ x queue sending asking members, g { x with
      queue := queue, sending := sending, asking := asking, members := members } = g x) : g (getNet (netConfigured d n c) k) =
    g (getNet (netPortMod (if (getNet d n).cfg.speed ≠ c.speed ∨ (getNet d n).cfg.fec ≠ c.fec then linkDown d n false else d) n
      (fun x => { x with cfg := c, thresh := 512 })) k) := by
  rw [netConfigured, (askAll_txOnly _).field g hg]
  split
  · rw [((fwFrame_txOnly ..).trans (fwFrame_txOnly ..)).field g hg]
    rfl
  · rfl

theorem netConfigured_cfg : (getNet (netConfigured d n c) n).cfg = c := by
  rw [netConfigured_field d n c NetPort.cfg n (fun _ _ _ _ _ => rfl), getNet_netPortMod_same]
theorem netConfigured_thresh : (getNet (netConfigured d n c) n).thresh = 512 := by
  rw [netConfigured_field d n c NetPort.thresh n (fun _ _ _ _ _ => rfl), getNet_netPortMod_same]
theorem netConfigured_others {k : Nat} (hk : k ≠ n) : (getNet (netConfigured d n c) k).cfg = (getNet d k).cfg := by
  rw [netConfigured_field d n c NetPort.cfg k (fun _ _ _ _ _ => rfl), getNet_netPortMod_ne _ hk]
  split
  · rw [linkDown_field NetPort.cfg (fun _ _ _ _ _ _ _ => rfl), portDown, getNet_netPortMod_ne _ hk]
  · rfl
theorem netConfigured_down (h : (getNet d n).cfg.speed ≠ c.speed ∨ (getNet d n).cfg.fec ≠ c.fec) :
    (getNet (netConfigured d n c) n).up = false := by
  rw [netConfigured_field d n c NetPort.up n (fun _ _ _ _ _ => rfl), if_pos h, getNet_netPortMod_same]
  exact (linkDown_field NetPort.up (fun _ _ _ _ _ _ _ => rfl) ..).trans (congrArg NetPort.up (getNet_netPortMod_same _))

end

theorem u8_three_p8 (a b c : Nat) (rest : List Byte) : u8 (p8 a ++ (p8 b ++ (p8 c ++ rest))) 0 = a % 256 ∧
    u8 (p8 a ++ (p8 b ++ (p8 c ++ rest))) 1 = b % 256 ∧ u8 (p8 a ++ (p8 b ++ (p8 c ++ rest))) 2 = c % 256 :=
  ⟨u8_p8_append .., u8_p8_append b (p8 c ++ rest), u8_p8_append c rest⟩

section
variable {d : Dev} {t : Taken} {p : List Byte} (hp : t.req.payload = p)
include hp

theorem judgeNetSet_passes (hm : inModes t modes5 = true) (hlen : 44 ≤ p.length) (h0 : u8 p 0 ≤ 3) (h1 : u8 p 1 = 0) (hok : netCfgBad p = false)
    (hjumbo : (getNet d (u8 p 0)).cfg.jumbo = true → (netCfgOf p).jumbo = false → needsJumbo d (u8 p 0) = false) :
    judgeNetSet d t none =
      let e := netConfigured d (u8 p 0) (netCfgOf p)
      if (netCfgOf p).speed != 0 && !pdOn e (netPd (u8 p 0)) then (e, .wait (.powerOn (netPd (u8 p 0)) [])) else (e, .now .ok []) := by
  subst hp
  rw [judgeNetSet, if_neg (by simp [hm]), if_neg (by simp [longEnough_of_le hlen, h0, h1, hok]), if_neg]
  · rfl
  · simpa using hjumbo

/-- The reply of a NET_PORT_CFG GET begins with the link's state, its speed and its FEC. -/
theorem judgeNetGet_ok (hlen : 2 ≤ p.length) (h0 : u8 p 0 ≤ 3) (h1 : u8 p 1 = 1) : ∃ rest, judgeNetGet d t none = (d, .now .ok
    (p8 (b2n (getNet d (u8 p 0)).up) ++ (p8 (getNet d (u8 p 0)).cfg.speed ++ (p8 (getNet d (u8 p 0)).cfg.fec ++ rest)))) := by
  subst hp
  rw [judgeNetGet, if_neg (by simp [longEnough_of_le hlen, h0, h1])]
  simp only [ansB, List.append_assoc]
  exact ⟨_, rfl⟩

theorem judgeNetFilter_ok (hm : inModes t modes5 = true) (hlen : 16 ≤ p.length) (h0 : u8 p 0 ≤ 15) (h1 : u8 p 1 = 2) (h2 : u8 p 2 ≤ 15)
    (h3 : u8 p 3 ≤ 63) (h4 : u8 p 4 ≤ 3) :
    judgeNetFilter d t none = ({ d with net := { d.net with filters := tabSet d.net.filters (u8 p 2) (filterOf p) } }, .now .ok []) := by
  subst hp
  rw [judgeNetFilter, if_neg (by simp [hm]), if_neg (by simp [longEnough_of_le hlen, h0, h1, h2, h3, h4, Nat.not_lt.2])]
  rfl

end

/-! FLOW_RX_CFG (R356, R358). -/

/-- The assignment of SINGLE_RATE and the memberships, which follow a change of a receive flow, are no flow's. -/
theorem getRx_rxSet (d : Dev) (i : Nat) (c : RxFlowCfg) (fade : Bool) :
    (getRx (rxSet d i c fade) i).cfg = c ∧ ∀ k, k ≠ i → getRx (rxSet d i c fade) k = getRx d k := by
  have hkeep : ∀ e k, getRx (joinGroups (if single e then singleAssign e else e)) k = getRx e k := by
    intro e k
    rw [(joinGroups_txOnly _).getRx]
    split <;> rfl
  refine ⟨?_, fun k hk => (hkeep ..).trans (getRx_rxFlowMod_ne _ hk)⟩
  refine (congrArg RxFlow.cfg ((hkeep ..).trans (getRx_rxFlowMod_same _))).trans ?_
  dsimp only
  (repeat' split) <;> rfl

/-- A leg's addresses set. -/
def legSet (p : List Byte) (l : RxLeg) : RxLeg := { l with set := true, udp := u16 p 4, dst := slice p 8 16, src := slice p 24 16 }

/-- A leg is set, and DOWN, in its flow alone. -/
theorem getRx_rxLeg (d : Dev) (i leg : Nat) (p : List Byte) :
    getRx (rxLeg d i leg p) i = { getRx d i with legs := tabMod (getRx d i).legs leg (fun l => { legSet p l with up := false, seq := none }) } ∧
    ∀ k, k ≠ i → getRx (rxLeg d i leg p) k = getRx d k :=
  ⟨((joinGroups_txOnly _).getRx i).trans (getRx_rxFlowMod_same _), fun k hk => ((joinGroups_txOnly _).getRx k).trans (getRx_rxFlowMod_ne _ hk)⟩

section
variable {d : Dev} {t : Taken} {p : List Byte} (hp : t.req.payload = p)
include hp

section
variable (h2 : u8 p 2 = 0) (hfits : (rxCfgOf p).enable = true →
  legClash d (u16 p 0) (rxCfgOf p) (getRx d (u16 p 0)).legs = false ∧ rxFits d (u16 p 0) (rxCfgOf p) = true)
include h2 hfits

theorem applyFlowRx_set (b : Option MT) : applyFlowRx d t b = (rxSet d (u16 p 0) (rxCfgOf p) b.isSome, .ok, mtBody b) := by
  subst hp
  have h2' : ¬ u8 t.req.payload 2 = 1 := by omega
  simp only [applyFlowRx]
  rw [if_neg h2', if_neg (by simpa using fun h => (hfits h).1), if_neg (by simpa using fun h => (hfits h).2)]

theorem getRx_applyFlowRx_set : (getRx (applyFlowRx d t none).1 (u16 p 0)).cfg = rxCfgOf p ∧
    ∀ k, k ≠ u16 p 0 → getRx (applyFlowRx d t none).1 k = getRx d k := by
  rw [fst_of_answer (applyFlowRx_set hp h2 hfits none)]
  exact getRx_rxSet ..

theorem judgeFlowRxSet_commits (hm : inModes t modes5 = true) (hlen : (if decide (verOf t.major t.minor < 2) then 20 else 32) ≤ p.length)
    (hok : rxCfgBad d p (decide (verOf t.major t.minor < 2)) = false)
    (hdom : (getRx d (u16 p 0)).cfg.enable = true → (getRx d (u16 p 0)).cfg.domain = (rxCfgOf p).domain) :
    judgeFlowRxSet d t none = commitOr d t (rxCfgOf p).domain applyFlowRx := by
  subst hp
  have hpass : (!longEnough t (if decide (verOf t.major t.minor < 2) then 20 else 32) || u8 t.req.payload 2 != 0
      || rxCfgBad d t.req.payload (decide (verOf t.major t.minor < 2))) = false := by
    rw [longEnough_of_le hlen, h2, hok]
    rfl
  rw [judgeFlowRxSet, if_neg (by simp [hm]), if_neg (Bool.eq_false_iff.1 hpass), if_neg (by simpa using hdom),
    if_neg (by simpa using fun h => (hfits h).1), if_neg (by simpa using fun h => (hfits h).2)]

end

section
variable (h2 : u8 p 2 = 1) (hfree : (getRx d (u16 p 0)).cfg.enable = true →
  legClash d (u16 p 0) (getRx d (u16 p 0)).cfg (tabMod (getRx d (u16 p 0)).legs (u8 p 3) (legSet p)) = false)
include h2 hfree

theorem applyFlowRx_leg (b : Option MT) : applyFlowRx d t b = (rxLeg d (u16 p 0) (u8 p 3) p, .ok, mtBody b) := by
  have hclash := Bool.and_eq_false_imp.2 hfree
  subst hp
  rw [applyFlowRx]
  exact (if_pos h2).trans (if_neg (Bool.eq_false_iff.1 hclash))

theorem getRx_applyFlowRx_leg : tabGet (getRx (applyFlowRx d t none).1 (u16 p 0)).legs (u8 p 3) =
      { legSet p (tabGet (getRx d (u16 p 0)).legs (u8 p 3)) with up := false, seq := none } ∧
    (getRx (applyFlowRx d t none).1 (u16 p 0)).cfg = (getRx d (u16 p 0)).cfg ∧
    ∀ k, k ≠ u16 p 0 → getRx (applyFlowRx d t none).1 k = getRx d k := by
  obtain ⟨hsame, hothers⟩ := getRx_rxLeg d (u16 p 0) (u8 p 3) p
  rw [fst_of_answer (applyFlowRx_leg hp h2 hfree none), hsame]
  exact ⟨by simp only [tabGet_tabMod_same], rfl, hothers⟩

theorem judgeFlowRxLeg_commits (hm : inModes t modes5 = true) (hlen : 40 ≤ p.length) (h0 : u16 p 0 ≤ 255) (h3 : u8 p 3 ≤ 1) (h6 : u16 p 6 = 0) :
    judgeFlowRxLeg d t none = commitOr d t (getRx d (u16 p 0)).cfg.domain applyFlowRx := by
  have hclash := Bool.and_eq_false_imp.2 hfree
  subst hp
  rw [judgeFlowRxLeg, if_neg (by simp [hm]), if_neg (by simp [longEnough_of_le hlen, h0, h2, h3, h6])]
  exact if_neg (Bool.eq_false_iff.1 hclash)

end
end

/-! FLOW_TX_CFG (R357, R358). -/

/-- The channels of a flow with the sources a SOURCE names. -/
def sourcesSet (p : List Byte) (chans : Tab TxChan) : Tab TxChan :=
  tabMods (u8 p 3 + ·) (fun j _ => { src := srcEntry p (8 + 4 * j) }) (List.range (u8 p 4)) chans

theorem tabGet_sourcesSet_named (p : List Byte) (chans : Tab TxChan) {j : Nat} (hj : j < u8 p 4) :
    tabGet (sourcesSet p chans) (u8 p 3 + j) = { src := srcEntry p (8 + 4 * j) } :=
  tabGet_tabMods_nodup (u8 p 3 + ·) (fun j _ => ({ src := srcEntry p (8 + 4 * j) } : TxChan))
    (List.Nodup.map (fun _ _ => Nat.add_left_cancel) List.nodup_range) (List.mem_range.2 hj) chans

theorem tabGet_sourcesSet_unnamed (p : List Byte) (chans : Tab TxChan) {c : Nat} (hc : c < u8 p 3 ∨ u8 p 3 + u8 p 4 ≤ c) :
    tabGet (sourcesSet p chans) c = tabGet chans c :=
  tabGet_tabMods_unnamed (u8 p 3 + ·) _ (fun j hj => by have := List.mem_range.1 hj; omega) chans

theorem applyFlowTx_answers (d : Dev) (t : Taken) (b : Option MT) : applyFlowTx d t b = ((applyFlowTx d t b).1, .ok, mtBody b) := rfl

section
variable {d : Dev} {t : Taken} {p : List Byte} (hp : t.req.payload = p)
include hp

theorem getTx_applyFlowTx_set (h2 : u8 p 2 = 0) :
    getTx (applyFlowTx d t none).1 (u16 p 0) = { getTx d (u16 p 0) with cfg := txCfgOf p } ∧
    ∀ k, k ≠ u16 p 0 → getTx (applyFlowTx d t none).1 k = getTx d k := by
  have h : (applyFlowTx d t none).1 = askAll (txFlowMod d (u16 p 0) (fun x => { x with cfg := txCfgOf p })) := by
    subst hp
    exact if_pos h2
  rw [h]
  exact ⟨((askAll_txOnly _).getTx _).trans (getTx_txFlowMod_same _), fun k hk => ((askAll_txOnly _).getTx k).trans (getTx_txFlowMod_ne _ hk)⟩

theorem getTx_applyFlowTx_leg (h2 : u8 p 2 = 1) :
    (getTx (applyFlowTx d t none).1 (u16 p 0)).cfg = (getTx d (u16 p 0)).cfg ∧
    tabGet (getTx (applyFlowTx d t none).1 (u16 p 0)).legs (u8 p 3) =
      { set := true, srcUdp := u16 p 4, dstUdp := u16 p 6, dst := slice p 8 16 } ∧
    ∀ k, k ≠ u16 p 0 → getTx (applyFlowTx d t none).1 k = getTx d k := by
  have h : (applyFlowTx d t none).1 = askAll (txFlowMod d (u16 p 0) (fun x => { x with legs := tabMod x.legs (u8 p 3) (fun _ =>
      { set := true, srcUdp := u16 p 4, dstUdp := u16 p 6, dst := slice p 8 16 }) })) := by
    subst hp
    exact (if_neg (by omega)).trans (if_pos h2)
  rw [h, (askAll_txOnly _).getTx, getTx_txFlowMod_same]
  exact ⟨rfl, by simp only [tabGet_tabMod_same], fun k hk => ((askAll_txOnly _).getTx k).trans (getTx_txFlowMod_ne _ hk)⟩

/-- Outside a boundary the channels that are named take their sources. -/
theorem getTx_applyFlowTx_source (h2 : u8 p 2 = 2) :
    getTx (applyFlowTx d t none).1 (u16 p 0) = { getTx d (u16 p 0) with chans := sourcesSet p (getTx d (u16 p 0)).chans } ∧
    ∀ k, k ≠ u16 p 0 → getTx (applyFlowTx d t none).1 k = getTx d k := by
  have h : (applyFlowTx d t none).1 = txFlowMod d (u16 p 0) (fun x => { x with chans := sourcesSet p x.chans }) := by
    subst hp
    exact (if_neg (by omega)).trans (if_neg (by omega))
  rw [h]
  exact ⟨getTx_txFlowMod_same _, fun k hk => getTx_txFlowMod_ne _ hk⟩

theorem judgeFlowTxSet_commits (hm : inModes t modes5 = true) (hlen : 20 ≤ p.length) (h2 : u8 p 2 = 0) (hok : txCfgBad d p = false)
    (hdom : (getTx d (u16 p 0)).cfg.enable = true → (getTx d (u16 p 0)).cfg.domain = u8 p 4) :
    judgeFlowTxSet d t none = commitOr d t (u8 p 4) applyFlowTx := by
  subst hp
  rw [judgeFlowTxSet, if_neg (by simp [hm]), if_neg (by simp [longEnough_of_le hlen, h2, hok]), if_neg (by simpa using hdom)]

theorem judgeFlowTxLeg_commits (hm : inModes t modes5 = true) (hlen : 24 ≤ p.length) (h0 : u16 p 0 ≤ 255) (h2 : u8 p 2 = 1) (h3 : u8 p 3 ≤ 1) :
    judgeFlowTxLeg d t none = commitOr d t (getTx d (u16 p 0)).cfg.domain applyFlowTx := by
  subst hp
  rw [judgeFlowTxLeg, if_neg (by simp [hm]), if_neg (by simp [longEnough_of_le hlen, h0, h2, h3])]

theorem judgeFlowTxSource_commits (hm : inModes t modes5 = true) (hlen : 8 ≤ p.length) (h0 : u16 p 0 ≤ 255) (h2 : u8 p 2 = 2)
    (h4 : 1 ≤ u8 p 4) (h12 : u8 p 4 ≤ 12) (hchans : u8 p 3 + u8 p 4 ≤ 64) (hz : isZero p 5 3 = true) (hall : 8 + 4 * u8 p 4 ≤ p.length)
    (hsrc : ∀ j, j < u8 p 4 → srcFits d (getTx d (u16 p 0)).cfg.domain (srcEntry p (8 + 4 * j)) = true ∧
      (mode d = .twin → (srcEntry p (8 + 4 * j)).kind ≠ 7)) :
    judgeFlowTxSource d t none = commitOr d t (getTx d (u16 p 0)).cfg.domain applyFlowTx := by
  subst hp
  have hfits : ((List.range (u8 t.req.payload 4)).map (fun j => srcEntry t.req.payload (8 + 4 * j))).any
      (fun s => !srcFits d (getTx d (u16 t.req.payload 0)).cfg.domain s) = false := by
    simpa using fun j hj => (hsrc j hj).1
  have hmics : (mode d == .twin && ((List.range (u8 t.req.payload 4)).map (fun j => srcEntry t.req.payload (8 + 4 * j))).any
      (fun s => s.kind == 7)) = false := by
    simpa using fun htwin j hj => (hsrc j hj).2 htwin
  have hsome : u8 t.req.payload 4 ≠ 0 := by omega
  rw [judgeFlowTxSource, if_neg (by simp [hm]), if_neg, if_neg (Bool.eq_false_iff.1 hmics)]
  simp only [hfits]
  simpa [longEnough_of_le hlen, longEnough_of_le hall, h0, h2, h12, hsome, hchans, isZero] using hz

end

/-! FLOW_STATE (R359). -/

/-- A receive flow whose state has been read: its change of SSRC is no longer told. -/
def rxRead (d : Dev) (i : Nat) : Dev :=
  rxFlowMod d i (fun x => { x with ssrcChanged := false, view := if x.view.isEmpty then x.view else patch x.view 1 [x.view.getD 1 0 &&& 0xFD] })

section
variable {d : Dev} {t : Taken} {p : List Byte} (hp : t.req.payload = p)
include hp

theorem judgeFlowState_rx (hlen : 3 ≤ p.length) (h0 : u16 p 0 ≤ 255) (h2 : u8 p 2 = 0) :
    judgeFlowState d t none = (rxRead d (u16 p 0), .now .ok (let x := getRx d (u16 p 0); let m := effDom d x.cfg.domain
      if x.view.isEmpty || !mtRuns (getDom d m) then rxView x (mtOf d m) else x.view)) := by
  subst hp
  rw [judgeFlowState, if_neg (by simp [longEnough_of_le hlen, h0, h2]), if_pos h2]
  rfl

theorem judgeFlowState_tx (hlen : 3 ≤ p.length) (h0 : u16 p 0 ≤ 255) (h2 : u8 p 2 = 1) :
    judgeFlowState d t none = (d, .now .ok (let x := getTx d (u16 p 0); let m := effDom d x.cfg.domain
      if x.view.isEmpty || !mtRuns (getDom d m) then txView d x (mtOf d m) else x.view)) := by
  subst hp
  rw [judgeFlowState, if_neg (by simp [longEnough_of_le hlen, h0, h2]), if_neg (by omega)]
  rfl

end

/-! GATE_LIST (R345). -/

theorem pendGate_pending (d : Dev) (n : Nat) (g : Option GateList) (ct : Nat) (t : Taken) : (getNet (pendGate d n g ct t) n).gatePend = some (g, ct, t) := by
  rw [pendGate, getNet_netPortMod_same]

theorem pendGate_of_none {d : Dev} {n : Nat} (h : (getNet d n).gatePend = none) (g : Option GateList) (ct : Nat) (t : Taken) :
    pendGate d n g ct t = netPortMod d n (fun x => { x with gatePend := some (g, ct, t) }) := by
  rw [pendGate, h]

section
variable {d : Dev} {t : Taken} {p : List Byte} (hp : t.req.payload = p)
include hp

section
variable (hm : inModes t modes5 = true) (hlen : 32 ≤ p.length) (hb : t.req.bulk = true) (hport : u8 p 16 ≤ 3) (hmin : 1000 ≤ u32 p 28)
  (hmax : u32 p 28 ≤ 1000000000)
include hm hlen hb hport hmin hmax

theorem gateBad_none {a : Nat} (ha : u8 p 17 = a) : gateBad t a = none := by
  subst hp
  rw [gateBad, if_neg (by simp [hm]), if_neg (by simp [longEnough_of_le hlen, hb, hport, ha, Nat.not_lt.2 hmin, hmax])]

theorem judgeGateSet_fetches (ha : u8 p 17 = 0) (hn : 1 ≤ u16 p 18) (hn' : u16 p 18 ≤ 256) (href : bulkOk (bulkRef p 0) = true) :
    judgeGateSet d t none = (d, .fetch (bulkRef p 0).1 (bulkRef p 0).2.1 (bulkRef p 0).2.2) := by
  have hpass := gateBad_none hp hm hlen hb hport hmin hmax ha
  subst hp
  simp only [judgeGateSet, hpass]
  rw [if_neg (by omega), needFetch, if_neg (by simp [hb, href])]

theorem judgeGateClear_pends (ha : u8 p 17 = 1) :
    judgeGateClear d t none = (pendGate d (u8 p 16) none (changeTime (now d).toNat (u64 p 20) (u32 p 28)) t, .done) := by
  have hpass := gateBad_none hp hm hlen hb hport hmin hmax ha
  subst hp
  simp only [judgeGateClear, hpass]

end
end

/-- Settles O59: each request is judged as its rule says, and its effect is on its own port or flow.  Two clauses are the model's choices:
a pending gate list that another replaces or clears is answered CANCELLED (log entry 92), and FLOW_STATE answers the view of the last
boundary, or the present values where the domain has none (log entry 94). -/
theorem networkRequestsTakeEffect : Obligations.NetworkRequestsTakeEffect := by
  unfold Obligations.NetworkRequestsTakeEffect
  intro r s p d n i rx tx rxNow txNow
  have hp : ∀ op, (takes s op r).req.payload = p := fun _ => rfl
  refine ⟨?netSet, ?netGet, ?netFilter, ?rxSet, ?rxLeg, ?txSet, ?txLeg, ?txSource, ?state, ?gates⟩
  case netSet =>
    rintro t rfl hs hm hlen h0 h1 hok c hjumbo
    refine ⟨netConfigured d n c, (reqRow_eq_reqRow1 h1 rfl).trans (reqRow1_awaitsOr hs (judgeNetSet_passes (hp _) hm hlen h0 h1 hok hjumbo)),
      netConfigured_cfg .., netConfigured_thresh .., fun k => netConfigured_others _ _ _, netConfigured_down _ _ _⟩
  case netGet =>
    rintro t rfl hs hlen h0 h1
    obtain ⟨rest, h⟩ := judgeNetGet_ok (d := d) (t := takes s .netPortCfg r) (hp _) hlen h0 h1
    obtain ⟨hup, hspeed, hfec⟩ := u8_three_p8 (b2n (getNet d n).up) (getNet d n).cfg.speed (getNet d n).cfg.fec rest
    exact ⟨_, (reqRow_eq_reqRow1 h1 rfl).trans (reqRow1_granted hs h), hup.trans (by cases (getNet d n).up <;> rfl), hspeed, hfec⟩
  case netFilter =>
    rintro t rfl hs hm hlen h0 h1 h2 h3 h4
    exact (reqRow_eq_reqRow1 h1 rfl).trans (reqRow1_granted hs (judgeNetFilter_ok (hp _) hm hlen h0 h1 h2 h3 h4))
  case rxSet =>
    rintro t rfl hs hm old hlen h2 hok c hdom hfits
    exact ⟨(reqRow_eq_reqRow1 h2 rfl).trans (reqRow1_changes hs (answer_fst (applyFlowRx_set (hp _) h2 hfits none))
      (judgeFlowRxSet_commits (hp _) h2 hfits hm hlen hok hdom)), getRx_applyFlowRx_set (hp _) h2 hfits⟩
  case rxLeg =>
    rintro t rfl hs hm hlen h0 h2 h3 h6 l hfree
    exact ⟨(reqRow_eq_reqRow1 h2 rfl).trans (reqRow1_changes hs (answer_fst (applyFlowRx_leg (hp _) h2 hfree none))
      (judgeFlowRxLeg_commits (hp _) h2 hfree hm hlen h0 h3 h6)), getRx_applyFlowRx_leg (hp _) h2 hfree⟩
  case txSet =>
    rintro t rfl hs hm hlen h2 hok hdom
    exact ⟨(reqRow_eq_reqRow1 h2 rfl).trans (reqRow1_changes hs (applyFlowTx_answers ..) (judgeFlowTxSet_commits (hp _) hm hlen h2 hok hdom)),
      getTx_applyFlowTx_set (hp _) h2⟩
  case txLeg =>
    rintro t rfl hs hm hlen h0 h2 h3
    exact ⟨(reqRow_eq_reqRow1 h2 rfl).trans (reqRow1_changes hs (applyFlowTx_answers ..) (judgeFlowTxLeg_commits (hp _) hm hlen h0 h2 h3)),
      getTx_applyFlowTx_leg (hp _) h2⟩
  case txSource =>
    rintro t rfl hs hm hlen h0 h2 first count h4 h12 hchans hz hall hsrc
    obtain ⟨hsame, hothers⟩ := getTx_applyFlowTx_source (d := d) (t := takes s .flowTxCfg r) (hp _) h2
    refine ⟨(reqRow_eq_reqRow1 h2 rfl).trans (reqRow1_changes hs (applyFlowTx_answers ..)
      (judgeFlowTxSource_commits (hp _) hm hlen h0 h2 h4 h12 hchans hz hall hsrc)), ?_⟩
    rw [show getTx (txNow (takes s .flowTxCfg r)) i = _ from hsame]
    exact ⟨rfl, fun j hj => tabGet_sourcesSet_named _ _ hj, fun c hc => tabGet_sourcesSet_unnamed _ _ hc, hothers⟩
  case state =>
    rintro t rfl hs hlen h0
    refine ⟨fun h2 => ⟨rxRead d i, reqRow1_granted hs (judgeFlowState_rx (hp _) hlen h0 h2), rfl, ?_, ?_, fun k hk => getRx_rxFlowMod_ne _ hk⟩,
      fun h2 => reqRow1_granted hs (judgeFlowState_tx (hp _) hlen h0 h2)⟩ <;>
    · rw [rxRead, getRx_rxFlowMod_same]
  case gates =>
    rintro t rfl hs hm hlen hb hport hmin hmax
    refine ⟨fun h17 hn hn' href => (reqRow_eq_reqRow1 h17 rfl).trans
        (reqRow1_fetches hs (judgeGateSet_fetches (hp _) hm hlen hb hport hmin hmax h17 hn hn' href)),
      fun h17 => ⟨_, (reqRow_eq_reqRow1 h17 rfl).trans (reqRow1_underWay hs (judgeGateClear_pends (hp _) hm hlen hb hport hmin hmax h17)),
        pendGate_pending .., fun h => pendGate_of_none h ..⟩⟩

end Sys2Proof.Machine

/-! The Silton link (R373–R376): what a command puts on it, and what its loss leaves of the device. -/

namespace Sys2Proof.Machine

/-! The sending side (R373–R375). -/

/-- A body of one piece is one frame, kept until it is acknowledged. -/
theorem linkPut_short {b : List Byte} (hb : b.length < 8192) (t : Twin) (cls : Nat) :
    linkPut t cls b = { t with
      txSeq := t.txSeq + 1, sent := t.sent ++ [linkFrame cls 0 t.txSeq t.rxSeq b]
      unacked := t.unacked ++ [{ seq := t.txSeq, bytes := linkFrame cls 0 t.txSeq t.rxSeq b, tries := 1 }] } := by
  rw [linkPut, Nat.div_eq_of_lt hb]
  rfl

theorem linkFlush_of_none {t : Twin} (h : t.waiting = []) : linkFlush t = t := by
  have hclasses : List.range 8 = [0, 1, 2, 3, 4, 5, 6, 7] := rfl
  simp only [linkFlush, hclasses, List.foldl_cons, List.foldl_nil, h, List.filter_nil]
  rw [← h]

theorem linkFlush_of_hello {t : Twin} {b : List Byte} (h : t.waiting = [(7, b)]) : linkFlush t = { linkPut t 7 b with waiting := [] } := by
  have hclasses : List.range 8 = [0, 1, 2, 3, 4, 5, 6, 7] := rfl
  simp [linkFlush, hclasses, h]

theorem noteOne_twin (d : Dev) (n : DspNote) : (noteOne d n).twin = d.twin := by cases n <;> simp [noteOne, matrixError]

theorem settleNotes_twin (d : Dev) : (settleNotes d).twin = d.twin :=
  foldl_keeps (fun x : Dev => x.twin) noteOne noteOne_twin d.tiles.notes _

/-- Of the link, settling only sends what waits. -/
theorem settle_twin (d : Dev) : (settle d).twin = linkFlush d.twin := by
  rw [settle, (settleMsix_kept _).2, settleNotes_twin]

/-! The partner lost, and the link DOWN (R373). -/

theorem foldl_queueMsg (ms : List OutMsg) (d : Dev) : ms.foldl queueMsg d = fw d (fun f => { f with queue := f.queue ++ ms }) := by
  induction ms generalizing d with
  | nil => simp [fw]
  | cons m ms ih => simp [ih, queueMsg, fw]

theorem releaseIssued_twin (d : Dev) : (releaseIssued d).twin = { d.twin with issued := [] } := by simp only [releaseIssued, foldl_queueMsg, fw_twin, twinMod_twin]
theorem releaseIssued_dom (d : Dev) : (releaseIssued d).dom = d.dom := by simp only [releaseIssued, foldl_queueMsg, fw_dom, twinMod_dom]
theorem releaseIssued_scene (d : Dev) : (releaseIssued d).scene = d.scene := by simp only [releaseIssued, foldl_queueMsg, fw_scene, twinMod_scene]

section
variable (d : Dev)

theorem pairEv_twin (kind : Nat) (new : PairState) (mt : MT) (groups : Nat) : (pairEv d kind new mt groups).twin = { d.twin with state := new } := by
  rw [pairEv, evTwin, event_twin, twinMod_twin]

theorem partnerLost_twin : (partnerLost d).twin = { d.twin with
    partner := 255, partnerStart := none
    state := if d.twin.state = .leader then .leaderSolo else d.twin.state
    issued := if d.twin.state = .leader then [] else d.twin.issued } := by
  by_cases h : d.twin.state = .leader <;> simp [partnerLost, h, releaseIssued_twin, pairEv_twin]

theorem partnerLost_dom : (partnerLost d).dom = d.dom := by
  by_cases h : d.twin.state = .leader <;> simp [partnerLost, h, releaseIssued_dom, pairEv, evTwin]
theorem partnerLost_scene : (partnerLost d).scene = d.scene := by
  by_cases h : d.twin.state = .leader <;> simp [partnerLost, h, releaseIssued_scene, pairEv, evTwin]

theorem linkLost_twin : (linkLost d).twin = { handshakeAnew d.twin with
    waiting := [], downCnt := if d.twin.handshake then d.twin.downCnt + 1 else d.twin.downCnt, partner := 255, partnerStart := none
    state := if d.twin.state = .leader then .leaderSolo else d.twin.state
    issued := if d.twin.state = .leader then [] else d.twin.issued } := by
  rw [linkLost, partnerLost_twin]
  rfl

theorem settle_linkLost_twin : (settle (linkLost d)).twin = (linkLost d).twin := by
  rw [settle_twin, linkFlush_of_none]
  rw [linkLost_twin]

end

/-- The state after a command that takes the link DOWN: the handshake is to begin anew, nothing waits to be acknowledged or
completed, and a leader is alone. -/
theorem after_linkLost (s : State) (d : Dev) : let t := after s (linkLost d)
    t.dev.twin.handshake = false ∧ t.dev.twin.unacked = [] ∧ t.dev.twin.parts = [] ∧ t.dev.twin.hello = none ∧ t.dev.twin.partner = 255 ∧
      t.dev.twin.downCnt = d.twin.downCnt + (if d.twin.handshake then 1 else 0) ∧
      t.dev.twin.state = (if d.twin.state = .leader then .leaderSolo else d.twin.state) ∧ t.dev.dom = d.dom ∧ t.dev.scene = d.scene := by
  have htwin : (after s (linkLost d)).dev.twin = _ := (settle_linkLost_twin d).trans (linkLost_twin d)
  have hdown : (after s (linkLost d)).dev.twin.downCnt = d.twin.downCnt + (if d.twin.handshake then 1 else 0) := by
    rw [htwin]
    cases d.twin.handshake with
    | true => rfl
    | false => exact (BitVec.add_zero _).symm
  refine ⟨?_, ?_, ?_, ?_, ?_, hdown, ?_, (settle_dom _).trans (partnerLost_dom _), (settle_scene _).trans (partnerLost_scene _)⟩ <;> rw [htwin] <;> rfl

/-! Frames received (R375). -/

/-- The link carries the frame and nothing of it is damaged. -/
def FrameWhole (d : Dev) (f : List Byte) (crc : Word) : Prop :=
  linkCarries d.twin = true ∧ pdOn d 5 = true ∧ f.length = 16 + u16 f 2 ∧ u16 f 2 ≤ 8192 ∧ crc32c f = crc

/-- The link with the frames that f acknowledges no longer kept. -/
def acknowledged (t : Twin) (f : List Byte) : Twin := { t with unacked := t.unacked.filter (fun u => mtLater u.seq (BitVec.ofNat 32 (u32 f 8))) }

/-- The body of f, after what the frames before it have brought of the same body. -/
def bodySoFar (t : Twin) (f : List Byte) : List Byte := tabGet t.parts (u8 f 0) ++ slice f 16 (u16 f 2)

/-- The link with a frame taken, and what it leaves to be completed. -/
def frameTaken (t : Twin) (f rest : List Byte) : Twin :=
  { acknowledged t f with rxSeq := BitVec.ofNat 32 (u32 f 4), parts := tabSet t.parts (u8 f 0) rest }

section
variable {d : Dev} {f : List Byte} {crc : Word}

theorem linkRx_discards (h : ¬ FrameWhole d f crc) : linkRx d f crc = d := by
  refine if_pos ?_
  by_contra hpass
  exact h (by simpa [FrameWhole, and_assoc] using hpass)

theorem linkRx_whole (h : FrameWhole d f crc) : linkRx d f crc =
    if (!(!d.twin.handshake && d.twin.hello.isNone) && BitVec.ofNat 32 (u32 f 4) != d.twin.rxSeq + 1) = true then twinMod d (acknowledged · f)
    else if bit (u8 f 1) 1 = true then twinMod d (frameTaken · f (bodySoFar d.twin f))
    else linkBody (twinMod d (frameTaken · f [])) (u8 f 0) (bodySoFar d.twin f) := by
  obtain ⟨hcarries, hpd, hlen, hmax, hcrc⟩ := h
  rw [linkRx, if_neg (by simp [hcarries, hpd, hlen, hmax, hcrc])]
  cases hmore : bit (u8 f 1) 1 <;> rfl

theorem linkRx_out_of_turn (h : FrameWhole d f crc) (hup : d.twin.handshake = true) (hseq : BitVec.ofNat 32 (u32 f 4) ≠ d.twin.rxSeq + 1) :
    linkRx d f crc = twinMod d (acknowledged · f) := by
  rw [linkRx_whole h, if_pos (by simpa [hup] using hseq)]

theorem linkRx_more (h : FrameWhole d f crc) (hseq : BitVec.ofNat 32 (u32 f 4) = d.twin.rxSeq + 1) (hmore : bit (u8 f 1) 1 = true) :
    linkRx d f crc = twinMod d (frameTaken · f (bodySoFar d.twin f)) := by
  rw [linkRx_whole h, if_neg (by simp [hseq]), if_pos hmore]

theorem linkRx_last (h : FrameWhole d f crc) (hseq : BitVec.ofNat 32 (u32 f 4) = d.twin.rxSeq + 1) (hmore : bit (u8 f 1) 1 = false) :
    linkRx d f crc = linkBody (twinMod d (frameTaken · f [])) (u8 f 0) (bodySoFar d.twin f) := by
  rw [linkRx_whole h, if_neg (by simp [hseq]), if_neg (by simp [hmore])]

end

/-! Frames sent again (R373), LINK_HELLO (R376), lanes (R373). -/

section
variable {d : Dev}

theorem linkResend_unknown {seq : Word} (h : d.twin.unacked.find? (fun u => u.seq == seq) = none) : linkResend d seq = d := by
  rw [linkResend, h]

theorem linkResend_again {seq : Word} {u : LinkSent} (h : d.twin.unacked.find? (fun u => u.seq == seq) = some u) (hu : u.tries < 3) :
    linkResend d seq = twinMod d (fun t => { t with
      retry := t.retry + 1, sent := t.sent ++ [resent d.twin u.bytes]
      unacked := t.unacked.map (fun x => if x.seq = seq then { x with bytes := resent d.twin u.bytes, tries := x.tries + 1 } else x) }) := by
  simp only [linkResend, h]
  exact if_neg (by omega)

theorem linkResend_third {seq : Word} {u : LinkSent} (h : d.twin.unacked.find? (fun u => u.seq == seq) = some u) (hu : 3 ≤ u.tries) :
    linkResend d seq = linkLost d := by
  simp only [linkResend, h]
  exact if_pos hu

theorem sendHello_idle (h : d.twin.state = .off ∨ d.twin.handshake = true ∨ linkCarries d.twin = false) : sendHello d = d := by
  refine if_pos ?_
  rcases h with h | h | h <;> simp [h]

/-- While no LINK_HELLO has come, one that is sent only waits for it. -/
theorem sendHello_first (hstate : d.twin.state ≠ .off) (hup : d.twin.handshake = false) (hhello : d.twin.hello = none) (hpd : pdOn d 5 = true)
    (hcarries : linkCarries d.twin = true) :
    sendHello d = twinMod d (fun t => { t with waiting := t.waiting ++ [(7, linkHelloBytes d)], helloSent := true }) := by
  rw [sendHello, if_neg (by simp [hstate, hup, hpd, hcarries]), linkSend, if_pos (by simp [hcarries])]
  simp [tryHandshake, twinMod, hhello]

theorem length_linkHelloBytes (d : Dev) : (linkHelloBytes d).length = 24 := by
  simp [linkHelloBytes, p8, p16, p32, p64, zeros]

/-- A LINK_HELLO that nothing waits before is the frame a command sends. -/
theorem settle_hello_twin {e : Dev} {b : List Byte} (h : e.twin.waiting = [(7, b)]) (hb : b.length < 8192) (hsent : e.twin.sent = []) :
    (settle e).twin.sent = [linkFrame 7 0 e.twin.txSeq e.twin.rxSeq b] ∧ (settle e).twin.txSeq = e.twin.txSeq + 1 := by
  rw [settle_twin, linkFlush_of_hello h, linkPut_short hb, hsent]
  exact ⟨rfl, rfl⟩

/-- The lanes that hold lock without lane i. -/
def lanesLeft (t : Twin) (i : Nat) : BitVec 2 := t.lanes &&& ~~~(BitVec.ofNat 2 (2 ^ i))

variable {i : Nat}

theorem laneLock_gained (hpd : pdOn d 5 = true) (hon : d.twin.linkCtrl.getLsbD 0 = true) (hlane : d.twin.linkCtrl.getLsbD (i + 1) = true) :
    laneLock d i true = twinMod d (fun t => { t with lanes := t.lanes ||| BitVec.ofNat 2 (2 ^ i) }) := by
  simp only [laneLock, hpd, hon, hlane, Bool.and_self, if_true]

theorem laneLock_disabled (hlane : d.twin.linkCtrl.getLsbD (i + 1) = false) : laneLock d i true = d := by
  simp only [laneLock, hlane, Bool.and_false, Bool.false_eq_true, if_true, if_false]

theorem laneLock_false (d : Dev) (i : Nat) : laneLock d i false =
    let e := twinMod d (fun t => { t with lanes := lanesLeft d.twin i })
    if lanesLeft d.twin i = 0 ∧ d.twin.lanes ≠ 0 then linkLost e else e := rfl

theorem laneLock_left (h : lanesLeft d.twin i ≠ 0 ∨ d.twin.lanes = 0) :
    laneLock d i false = twinMod d (fun t => { t with lanes := lanesLeft d.twin i }) :=
  (laneLock_false d i).trans (if_neg (fun ⟨hnone, hsome⟩ => h.elim (· hnone) hsome))

theorem laneLock_last (hsome : d.twin.lanes ≠ 0) (hnone : lanesLeft d.twin i = 0) :
    laneLock d i false = linkLost (twinMod d (fun t => { t with lanes := lanesLeft d.twin i })) :=
  (laneLock_false d i).trans (if_pos ⟨hnone, hsome⟩)

end

/-! The rows of the link. -/

section
variable (s : State)

theorem exec_linkFrameRx (f : List Byte) (crc : Word) : exec (.linkFrameRx f crc) s = .next (after s (linkRx (quiet s) f crc)) := rfl
theorem exec_linkFrameResend (seq : Word) : exec (.linkFrameResend seq) s = .next (after s (linkResend (quiet s) seq)) := rfl
theorem exec_linkAckFrame (h : (linkCarries (quiet s).twin && pdOn (quiet s) 5) = true) :
    exec .linkAckFrame s = .next (after s (twinMod (quiet s) (fun t => linkPut t 5 []))) :=
  congrArg (fun d => Host.Outcome.next (after s d)) (if_pos h)
theorem exec_linkHello : exec .linkHello s = .next (after s (sendHello (quiet s))) := rfl
theorem exec_laneLockChange (l : Fin 2) (locked : Bool) : exec (.laneLockChange l locked) s = .next (after s (laneLock (quiet s) l.val locked)) := rfl

end

/-- Settles O49: each frame by whether it is whole and whether it is the next, each attempt by how many there were, each lane by whether it is
the last.  That an acknowledgement is taken from a frame out of sequence, and that acknowledgement frames take sequence numbers and are themselves
kept until acknowledged, are the model's choices (log entry 52). -/
theorem linkFramesAreTakenInSequence : Obligations.LinkFramesAreTakenInSequence := by
  unfold Obligations.LinkFramesAreTakenInSequence
  intro s w same lost
  refine ⟨?frames, ?resends, ?ack, ?idle, ?hello, ?lanes⟩
  case frames =>
    intro f crc len seq cls whole left body
    refine ⟨fun h => ?_, fun h hup hseq => ?_, fun h hseq hmore => ?_, fun h hseq hmore => ?_⟩ <;> rw [exec_linkFrameRx]
    · rw [linkRx_discards (d := quiet s) h]
    · rw [linkRx_out_of_turn (d := quiet s) h hup hseq]
      rfl
    · rw [linkRx_more (d := quiet s) h hseq hmore]
      rfl
    · rw [linkRx_last (d := quiet s) h hseq hmore]
      rfl
  case resends =>
    intro seq u
    refine ⟨fun h => ?_, fun h hu => ?_, fun h hu => ⟨_, ?_, after_linkLost s (quiet s)⟩⟩ <;> rw [exec_linkFrameResend]
    · rw [linkResend_unknown (d := quiet s) h]
    · rw [linkResend_again (d := quiet s) h hu]
      rfl
    · rw [linkResend_third (d := quiet s) h hu]
  case ack =>
    intro hcarries hpd
    rw [exec_linkAckFrame s (Bool.and_eq_true_iff.2 ⟨hcarries, hpd⟩), twinMod, linkPut_short (by decide)]
    rfl
  case idle =>
    intro h
    rw [exec_linkHello, sendHello_idle (d := quiet s) h]
  case hello =>
    intro hstate hup hhello hpd hcarries
    refine ⟨_, exec_linkHello s, ?_⟩
    rw [sendHello_first (d := quiet s) hstate hup hhello hpd hcarries]
    refine ⟨settle_twin_helloSent _, (settle_twin_handshake _).trans hup, settle_twin_state _, fun hw => ?_⟩
    refine settle_hello_twin ?_ (by rw [length_linkHelloBytes]; decide) rfl
    exact congrArg (· ++ [(7, linkHelloBytes (quiet s))]) hw
  case lanes =>
    intro l
    refine ⟨fun hpd hon hlane => ?_, fun hlane => ?_, fun h => ?_, fun hsome hnone => ⟨_, ?_, 
      after_linkLost s (twinMod (quiet s) (fun t => { t with lanes := lanesLeft w l.val }))⟩⟩ <;>
      rw [exec_laneLockChange]
    · rw [laneLock_gained (d := quiet s) hpd hon hlane]
      rfl
    · rw [laneLock_disabled (d := quiet s) hlane]
    · rw [laneLock_left (d := quiet s) h]
      rfl
    · rw [laneLock_last (d := quiet s) hsome hnone]
      rfl

end Sys2Proof.Machine

/-! A swap whose asker has begun a new epoch since (R396, R416): the reply of TWIN_SWAP is discarded, and the mailbox counts it. -/

namespace Sys2Proof.Machine

/-- The replies that a channel's mailbox has counted as discarded. -/
def staleCount (d : Dev) (ch : Nat) : Half := (getMbx d ch).staleOut

section
variable {t : Taken}

theorem queueReply_stale {d : Dev} (h : (getMbx d t.req.ch.val).epoch ≠ t.epoch) (m : OutMsg) :
    staleCount (queueReply d t m) t.req.ch.val = staleCount d t.req.ch.val + 1 := by
  rw [queueReply, if_pos h, staleCount, getMbx, mbxMod_mbx, tabGet_tabMod_same]
  rfl

theorem reply_stale {d : Dev} (h : (getMbx d t.req.ch.val).epoch ≠ t.epoch) (hreply : t.req.replyReq = true) (st : Status) (body : List Byte) :
    staleCount (reply d t st body) t.req.ch.val = staleCount d t.req.ch.val + 1 := by
  have hreplies : replies t st = true := by rw [replies, hreply, Bool.true_or]
  rw [reply, if_pos hreplies]
  split
  · exact queueReply_stale h _
  · exact queueReply_stale (d := addLog d _ _ _ _) h _

/-- The swap of the roles on a leader answers its host. -/
theorem swapEffect_stale {d : Dev} {first : MT} {atMt : Bool} (hswap : d.twin.swap = some (t, first, atMt)) (hdue : mtLater first (hbMt d) = false)
    (hown : t.req.ch.val ≠ 5) (hleads : d.twin.state = .leader) (hsynced : d.twin.partner = 6)
    (hreply : t.req.replyReq = true) (hstale : (getMbx d t.req.ch.val).epoch ≠ t.epoch) :
    staleCount (swapEffect d) t.req.ch.val = staleCount d t.req.ch.val + 1 := by
  have hroles : (d.twin.state == .leader && d.twin.partner == 6) = true := by rw [hleads, hsynced]; rfl
  simp only [swapEffect, hswap, hdue, Bool.false_eq_true, if_false, twinMod_twin, hroles, if_true, if_neg hown]
  have hmbx (e : Dev) (mt : MT) : (pairEv e 5 .synced mt 0).mbx = e.mbx := by rw [pairEv, evTwin, event_mbx, twinMod_mbx]
  rw [reply_stale (by rwa [getMbx, hmbx]) hreply, staleCount, getMbx, hmbx]
  rfl

end

/-- A leader with a SYNCED partner, and a swap asked for on channel 0 under sender epoch 1, where the mailbox's is 0. -/
def swapOfOtherEpoch : State := { dev := {
  fw := { mode := .twin }
  twin := {
    state := .leader, partner := 6
    swap := some ({ op := .twinSwap, req := { ch := 0, tag := 1, replyReq := true, bulk := false, payload := zeros 8 }, epoch := 1 }, 0, false) } } }

theorem exec_twinSwapTakeEffect (s : State) : exec .twinSwapTakeEffect s = .next (after s (swapEffect (quiet s))) := rfl

/-- Refutes O50 in its clause on a swap that takes effect: the statement has the mailboxes as they were, and ranges over every state; where the
request's sender epoch is not the mailbox's, its reply is discarded and counted in STALE_OUT (R416).  The statement does not ask that the epochs
agree, as they do where every new epoch has withdrawn the swap that waited (`newSenderEpoch`). -/
theorem not_pairStatesChange : ¬ Obligations.PairStatesChange := by
  intro h
  obtain ⟨-, -, -, -, -, -, -, -, -, -, -, -, hswap, -⟩ := h swapOfOtherEpoch
  obtain ⟨-, hleader, -⟩ := hswap _ _ _ rfl
  obtain ⟨t, ht, -, -, hmbx, -⟩ := hleader (by decide) rfl rfl
  obtain rfl := Host.Outcome.next.inj ((exec_twinSwapTakeEffect swapOfOtherEpoch).symm.trans ht)
  have hkept : staleCount (swapEffect (quiet swapOfOtherEpoch)) 0 = staleCount swapOfOtherEpoch.dev 0 :=
    congrArg (fun b : Tab Mailbox => (tabGet b 0).staleOut) ((settle_mbx _).symm.trans hmbx)
  have hcounted := swapEffect_stale (d := quiet swapOfOtherEpoch) rfl (by decide) (by decide) rfl rfl rfl (by decide)
  exact absurd (hcounted.symm.trans hkept) (by decide)

end Sys2Proof.Machine

/-! Chapter 14's requests judged (R385, R394–R396): what each rule answers where nothing refuses the request. -/

namespace Sys2Proof.Machine

theorem reqRow1_awaits {s : State} {op : Op} {j : Judge1} {r : Req} (hs : served s (takes s op r)) {d : Dev} {w : WaitFor}
    (h : j (quiet s) (takes s op r) none = (d, .wait w)) : reqRow1 op j r s = .next (awaits s (takes s op r) d w) := by
  rw [reqRow1_served hs, judged_wait h]

/-! Fields of a reply that have others before and after them. -/

theorem u8_append_p8_append (x : List Byte) (v : Nat) (y : List Byte) : u8 (x ++ (p8 v ++ y)) x.length = v % 256 := by
  have hfield : (x ++ (p8 v ++ y)).getD x.length 0 = BitVec.ofNat 8 v := by simp [p8, leBytes]
  rw [u8, hfield]
  exact BitVec.toNat_ofNat v 8

theorem u64_append_p64_append (x : List Byte) (v : Nat) (y : List Byte) : u64 (x ++ (p64 v ++ y)) x.length = v % 2 ^ 64 := by
  have hfield := slice_append_append x (p64 v) y
  rw [p64, length_leBytes] at hfield
  rw [u64, p64, hfield]
  exact leNat_leBytes 8 v

/-! TWIN_CFG (R385, R394). -/

section
variable {d : Dev} {t : Taken} {p : List Byte} (hp : t.req.payload = p)
include hp

theorem judgeTwinSet_passes (hm : tMode t = .config ∨ tMode t = .service) (hlen : 32 ≤ p.length) (h0 : u8 p 0 = 0) (hok : twinCfgBad p = false)
    (hmics : (twinCfgOf p).enable = true → micRenders d = false) : judgeTwinSet d t none =
      let e := powerPlan (twinMod d (fun x => { x with cfg := twinCfgOf p }))
      if (twinCfgOf p).enable && !pdOn e 5 then (needPd e 5, .wait (.powerOn 5 [])) else (e, .now .ok []) := by
  subst hp
  have hmode : inModes t [.config, .service] = true := by rcases hm with h | h <;> simp [inModes, h]
  have hpair : (tMode t == .twin) = false := by rcases hm with h | h <;> rw [h] <;> rfl
  rw [judgeTwinSet, if_neg (by simp [hpair]), if_neg (by simp [hmode]),
    if_neg (by simpa [longEnough_of_le hlen, h0, hok] using hmics)]
  rfl

/-- The reply of TWIN_CFG GET after its status. -/
def twinCfgBody (c : TwinCfg) : List Byte :=
  p8 (b2n c.enable + 2 * b2n c.both) ++ (p8 c.rolePref ++ (p8 c.txLeg ++ (p8 c.hbPorts ++
    (zeros 3 ++ (c.hbGroup ++ (p16 c.hbUdp ++ (zeros 2 ++ p32 c.pairId.toNat)))))))

theorem judgeTwinGet_ok (hlen : 1 ≤ p.length) (h0 : u8 p 0 = 1) : judgeTwinGet d t none = (d, .now .ok (twinCfgBody d.twin.cfg)) := by
  subst hp
  rw [judgeTwinGet, if_neg (by simp [longEnough_of_le hlen, h0])]
  simp only [ansB, List.append_assoc, twinCfgBody]

end

theorem twinCfgBody_fields (c : TwinCfg) : u8 (twinCfgBody c) 0 = b2n c.enable + 2 * b2n c.both ∧ u8 (twinCfgBody c) 1 = c.rolePref % 256 ∧
    u8 (twinCfgBody c) 2 = c.txLeg % 256 ∧ u8 (twinCfgBody c) 3 = c.hbPorts % 256 := by
  refine ⟨(u8_p8_append ..).trans (Nat.mod_eq_of_lt ?_), u8_append_p8_append (p8 _) _ _, u8_append_p8_append (p8 _ ++ p8 _) _ _,
    u8_append_p8_append (p8 _ ++ p8 _ ++ p8 _) _ _⟩
  cases c.enable <;> cases c.both <;> decide

/-! TWIN_STATE (R395). -/

/-- The first seven bytes of a TWIN_STATE reply: the states of the pair and of its link. -/
def twinStateHead (t : Twin) : List Byte :=
  p8 (pairCode t.state) ++ (p8 t.partner ++
    (p8 (b2n (linkUp t) + 2 * b2n (linkDegraded t) + 4 * b2n t.hbSeen + 8 * b2n (!t.cfg.both) + 16 * b2n t.partnerRestarting) ++
      (p8 t.major ++ (p8 t.minor ++ (p8 t.refusal ++ zeros 1)))))

/-- The reply of TWIN_STATE after its status. -/
def twinStateBody (d : Dev) : List Byte :=
  let t := d.twin
  twinStateHead t ++ (p64 t.partnerId.toNat ++ (p32 (hbMt d).toNat ++ (p32 t.diverge.toNat ++ (p32 t.resyncs.toNat ++ (p32 t.lastMt.toNat ++
    (p32 t.lastGroups.toNat ++ (p32 t.applied.toNat ++ (p32 t.retry.toNat ++
      p32 (d.net.rxFlows.foldl (fun a kv => a + kv.2.reconciled) (0 : Word)).toNat))))))))

theorem judgeTwinState_ok (d : Dev) (t : Taken) : judgeTwinState d t none = (d, .now .ok (twinStateBody d)) := by
  simp only [judgeTwinState, ansB, twinStateBody, twinStateHead, List.append_assoc]

theorem length_twinStateBody (d : Dev) : (twinStateBody d).length = 47 := by simp [twinStateBody, twinStateHead, p8, p32, p64, zeros]

theorem pairCode_lt (st : PairState) : pairCode st < 256 := by cases st <;> decide

theorem twinStateBody_states (d : Dev) : u8 (twinStateBody d) 0 = pairCode d.twin.state ∧ u8 (twinStateBody d) 1 = d.twin.partner % 256 := by
  rw [twinStateBody, twinStateHead, List.append_assoc]
  refine ⟨(u8_p8_append ..).trans (Nat.mod_eq_of_lt (pairCode_lt _)), ?_⟩
  rw [List.append_assoc]
  exact u8_append_p8_append (p8 _) _ _

theorem twinStateBody_counts (d : Dev) : u64 (twinStateBody d) 7 = d.twin.partnerId.toNat ∧ u32 (twinStateBody d) 15 = (hbMt d).toNat ∧
    u32 (twinStateBody d) 19 = d.twin.diverge.toNat ∧ u32 (twinStateBody d) 23 = d.twin.resyncs.toNat := by
  let head := twinStateHead d.twin
  let id_ := p64 d.twin.partnerId.toNat
  let mt := p32 (hbMt d).toNat
  refine ⟨(u64_append_p64_append head _ _).trans (Nat.mod_eq_of_lt d.twin.partnerId.isLt), ?_, ?_, ?_⟩
  · exact (u32_append_p32_append (head ++ id_) _ _).trans (Nat.mod_eq_of_lt (hbMt d).isLt)
  · exact (u32_append_p32_append (head ++ id_ ++ mt) _ _).trans (Nat.mod_eq_of_lt d.twin.diverge.isLt)
  · exact (u32_append_p32_append (head ++ id_ ++ mt ++ p32 d.twin.diverge.toNat) _ _).trans (Nat.mod_eq_of_lt d.twin.resyncs.isLt)

/-! TWIN_SWAP (R396). -/

theorem ledgerAdd_nextTicket (d : Dev) (no : Word) (dom : Nat) (st : MT) : (ledgerAdd d no dom st).twin.nextTicket = d.twin.nextTicket := by
  rw [ledgerAdd, twinMod_twin]; split <;> rfl
theorem ledgerAdd_state (d : Dev) (no : Word) (dom : Nat) (st : MT) : (ledgerAdd d no dom st).twin.state = d.twin.state := by
  rw [ledgerAdd, twinMod_twin]; split <;> rfl

theorem linkSend_nextTicket (d : Dev) (cls : Nat) (body : List Byte) : (linkSend d cls body).twin.nextTicket = d.twin.nextTicket := by
  rw [linkSend]; split <;> rfl
theorem linkSend_state (d : Dev) (cls : Nat) (body : List Byte) : (linkSend d cls body).twin.state = d.twin.state := by
  rw [linkSend]; split <;> rfl
theorem linkSend_fw (d : Dev) (cls : Nat) (body : List Byte) : (linkSend d cls body).fw = d.fw := by
  rw [linkSend]; split <;> rfl

section
variable (d : Dev) (kind queue dom : Nat) (st : MT) (taken : Option Taken) (rest : List Byte)

theorem sendTicket_nextTicket : (sendTicket d kind queue dom st taken rest).twin.nextTicket = d.twin.nextTicket + 1 := by
  rw [sendTicket, linkSend_nextTicket, ledgerAdd_nextTicket]; rfl
theorem sendTicket_state : (sendTicket d kind queue dom st taken rest).twin.state = d.twin.state := by
  rw [sendTicket, linkSend_state, ledgerAdd_state]; rfl
theorem sendTicket_fw : (sendTicket d kind queue dom st taken rest).fw = d.fw := by
  rw [sendTicket, linkSend_fw]; rfl

end

/-- The swap that a request asks for: the request, the first boundary it may take effect at, and whether that is the request's own choice. -/
def swapAsked (d : Dev) (t : Taken) : Taken × MT × Bool :=
  let p := t.req.payload
  let st := selBoundary d (ticketDom d 0)
  let mt : MT := BitVec.ofNat 32 (u32 p 0)
  (t, (if bit (u8 p 4) 0 && mtLater mt st then mt else st), bit (u8 p 4) 0)

/-- The leader with a swap stored and its partner told. -/
def swapTold (d : Dev) (t : Taken) : Dev :=
  twinMod (sendTicket d 3 0 (ticketDom d 0) (selBoundary d (ticketDom d 0)) none (p16 (opCode .twinSwap) ++ p16 8 ++ slice t.req.payload 0 8))
    (fun x => { x with swap := some (swapAsked d t) })

section
variable {d : Dev} {t : Taken} {p : List Byte} (hp : t.req.payload = p) (hm : tMode t = .twin) (hlen : 8 ≤ p.length) (h0 : u32 p 0 % 16 = 0)
  (h4 : u8 p 4 ≤ 1) (hz : isZero p 5 3 = true)
include hp hm hlen h0 h4 hz

theorem judgeTwinSwap_stored (hch : t.req.ch.val = 5) (hstate : d.twin.state = .synced) :
    judgeTwinSwap d t none = (twinMod d (fun x => { x with swap := some (swapAsked d t) }), .done) := by
  subst hp
  simp only [judgeTwinSwap]
  rw [if_neg (by simp [inModes, hm]), if_neg (by simp [longEnough_of_le hlen, h0, h4, hz]), if_pos hch, if_pos (by simp [hstate])]
  rfl

theorem judgeTwinSwap_told (hch : t.req.ch.val ≠ 5) (hstate : d.twin.state = .leader) (hpartner : d.twin.partner = 6) (hswap : d.twin.swap = none) :
    judgeTwinSwap d t none = (swapTold d t, .done) := by
  subst hp
  simp only [judgeTwinSwap]
  rw [if_neg (by simp [inModes, hm]), if_neg (by simp [longEnough_of_le hlen, h0, h4, hz]), if_neg hch, if_neg (by simp [isFollower, hstate]),
    if_neg (by simp [hstate, hpartner, hswap])]
  rfl

end

end Sys2Proof.Machine

/-! Chapter 11's requests judged (R299, R305, R306): what each rule answers where nothing refuses the request, and what waits for a boundary. -/

namespace Sys2Proof.Machine

/-! GRAPH_LOAD (R305). -/

theorem judgeGraphLoad_fetches {d : Dev} {t : Taken} {p : List Byte} (hp : t.req.payload = p) (hm : inModes t graphModes = true) (hlen : 20 ≤ p.length)
    (hslot : u8 p 16 ≤ 1) (hz : isZero p 17 3 = true) (hb : t.req.bulk = true) (href : bulkOk (bulkRef p 0) = true)
    (hruns : slotRuns d.tiles.sched (u8 p 16) = false) (hbusy : graphBusy d = false) :
    judgeGraphLoad d t none = (tilesMod d (fun T => dropSlot T (u8 p 16)), .fetch (bulkRef p 0).1 (bulkRef p 0).2.1 (bulkRef p 0).2.2) := by
  subst hp
  simp only [judgeGraphLoad]
  rw [if_neg (by simp [hm]), if_neg (by simp [longEnough_of_le hlen, hslot, hz, hb, href]), if_neg (by simp [hruns, hbusy]), needFetch,
    if_neg (by simp [hb, href])]

section
variable (T : Tiles) (slot : Nat)

theorem dropSlot_slot : (tabGet (dropSlot T slot).sched.slots slot).state = .empty := by
  simp only [dropSlot, schedMod, tabGet_tabSet_same]
theorem dropSlot_others {k : Nat} (h : k ≠ slot) : tabGet (dropSlot T slot).sched.slots k = tabGet T.sched.slots k := tabGet_tabSet_ne _ _ _ _ h
theorem mem_dropSlot_tasks (kv : Nat × Task) : kv ∈ (dropSlot T slot).sched.tasks ↔ kv ∈ T.sched.tasks ∧ kv.2.slot ≠ slot := by
  simp [dropSlot, schedMod]

end

/-! GRAPH_START and GRAPH_STOP (R306). -/

/-- The domains a request names. -/
def switchNames (p : List Byte) : List Nat := (List.range 3).filter (fun n => bit (u8 p 1) n)

/-- Whether a request names its boundary, which it does not in CONFIG. -/
def switchTimed (t : Taken) : Bool := bit (u8 t.req.payload 2) 0 && !atOnceMode t

/-- The boundary that a switch of domain n waits for, none where the domain has none to come. -/
def switchAt (d : Dev) (t : Taken) (n : Nat) : Option MT :=
  let mt : MT := BitVec.ofNat 32 (u32 t.req.payload 4)
  if !domRuns (getDom d n).state then none else if switchTimed t && mtGe mt (selBoundary d n) then some mt else some (selBoundary d n)

/-- Switches as a request leaves them. -/
def switchesSet (d : Dev) (t : Taken) (dest : Option Nat) (w : Tab (Option Switch)) : Tab (Option Switch) :=
  tabMods id (fun n _ => some { dest := dest, reqNo := d.tiles.sched.nextReq, atMt := switchAt d t n }) (switchNames t.req.payload) w

theorem tabGet_switchesSet_named {d : Dev} {t : Taken} {n : Nat} (hn : n ∈ switchNames t.req.payload) (dest : Option Nat) (w : Tab (Option Switch)) :
    tabGet (switchesSet d t dest w) n = some { dest := dest, reqNo := d.tiles.sched.nextReq, atMt := switchAt d t n } :=
  tabGet_tabMods_nodup id (fun n _ => some ({ dest := dest, reqNo := d.tiles.sched.nextReq, atMt := switchAt d t n } : Switch))
    (by rw [List.map_id]; exact List.nodup_range.filter _) hn w

theorem tabGet_switchesSet_unnamed {d : Dev} {t : Taken} {n : Nat} (hn : n ∉ switchNames t.req.payload) (dest : Option Nat) (w : Tab (Option Switch)) :
    tabGet (switchesSet d t dest w) n = tabGet w n :=
  tabGet_tabMods_unnamed id _ (fun _ hk (h : _ = n) => hn (h ▸ hk)) w

/-- The domains of a request that have a boundary to come. -/
def switchLeft (d : Dev) (t : Taken) : List Nat := (switchNames t.req.payload).filter (fun n => (getDom d n).state != .stopped)

/-- The boundary named has passed in a domain that runs. -/
def switchLate (d : Dev) (t : Taken) : Bool :=
  switchTimed t && ((switchNames t.req.payload).filter (fun n => domRuns (getDom d n).state)).any
    (fun n => !mtGe (BitVec.ofNat 32 (u32 t.req.payload 4)) (selBoundary d n))

/-- The request as it waits for the boundaries of its domains. -/
def switchReqOf (d : Dev) (t : Taken) (slotByte : Nat) : SwitchReq :=
  { no := d.tiles.sched.nextReq, taken := t, slot := slotByte, left := switchLeft d t, late := switchLate d t }

/-- The device with the switches of a request waiting, of which reqs are kept to be answered. -/
def switchWaits (d : Dev) (t : Taken) (dest : Option Nat) (reqs : List SwitchReq) : Dev :=
  tilesMod d (fun T => schedMod T (fun s => { s with
    nextReq := s.nextReq + 1, switches := switchesSet d t dest s.switches, switchReqs := reqs }))

theorem switchWaits_named {d : Dev} {t : Taken} {n : Nat} (hn : n ∈ switchNames t.req.payload) (dest : Option Nat) (reqs : List SwitchReq) :
    tabGet (switchWaits d t dest reqs).tiles.sched.switches n =
      some { dest := dest, reqNo := d.tiles.sched.nextReq, atMt := switchAt d t n } := tabGet_switchesSet_named hn ..

theorem switchWaits_unnamed {d : Dev} {t : Taken} {n : Nat} (hn : n ∉ switchNames t.req.payload) (dest : Option Nat) (reqs : List SwitchReq) :
    tabGet (switchWaits d t dest reqs).tiles.sched.switches n = tabGet d.tiles.sched.switches n := tabGet_switchesSet_unnamed hn ..

/-- The boundary as GRAPH_START and GRAPH_STOP judge it: from the list of the named domains that run. -/
def switchAtListed (d : Dev) (t : Taken) (n : Nat) : Option MT :=
  let live := (switchNames t.req.payload).filter (fun n => domRuns (getDom d n).state)
  let mt : MT := BitVec.ofNat 32 (u32 t.req.payload 4)
  if !live.contains n then none else if switchTimed t && mtGe mt (selBoundary d n) then some mt else some (selBoundary d n)

theorem switchAtListed_named {d : Dev} {t : Taken} {n : Nat} (hn : n ∈ switchNames t.req.payload) : switchAtListed d t n = switchAt d t n := by
  have hruns : ((switchNames t.req.payload).filter (fun n => domRuns (getDom d n).state)).contains n = domRuns (getDom d n).state := by
    simp [hn]
  rw [switchAtListed, hruns]
  rfl

theorem foldl_switchAtListed (d : Dev) (t : Taken) (dest : Option Nat) (w : Tab (Option Switch)) :
    (switchNames t.req.payload).foldl (fun w n => tabSet w n (some { dest := dest, reqNo := d.tiles.sched.nextReq, atMt := switchAtListed d t n })) w =
      switchesSet d t dest w :=
  List.foldl_ext _ _ w (fun w n hn => by rw [switchAtListed_named hn]; rfl)

section
variable {d : Dev} {t : Taken} {p : List Byte} {dest : Option Nat} (hp : t.req.payload = p)
include hp

theorem graphChange_judged (slotByte : Nat) (hat : switchTimed t = true → u32 p 4 % 16 = 0)
    (hnear : switchTimed t = true → ∀ n, n ∈ switchNames p → domRuns (getDom d n).state = true →
      mtDiff (BitVec.ofNat 32 (u32 p 4)) (selBoundary d n) ≤ 8 * rateOf d n)
    (hloaded : ∀ k, dest = some k → (tabGet d.tiles.sched.slots k).state = .loaded)
    (hfree : ∀ n, n ∈ switchNames p → tabGet d.tiles.sched.switches n = none)
    (hfits : runsFit d.tiles.sched (fun n => if (switchNames p).contains n then dest else toRun d.tiles.sched n) (graphRate d) = true) :
    graphChange d t slotByte dest =
      if atOnceMode t then ((switchNames p).foldl (fun d n => graphSwitch d n dest (mtOf d n + 16)) d, .now .ok (switchBody slotByte []))
      else
        let reqs := d.tiles.sched.switchReqs ++ [switchReqOf d t slotByte]
        if (switchLeft d t).isEmpty then
          (switchWaits d t dest (reqs.filter (fun x => x.no != d.tiles.sched.nextReq)), .now .ok (switchBody slotByte []))
        else (switchWaits d t dest reqs, .done) := by
  subst hp
  have hat' : ¬ (switchTimed t && u32 t.req.payload 4 % 16 != 0) = true := by simpa using hat
  have hnear' : ¬ (switchTimed t && ((switchNames t.req.payload).filter (fun n => domRuns (getDom d n).state)).any
      (fun n => decide ((8 * rateOf d n : Int) < mtDiff (BitVec.ofNat 32 (u32 t.req.payload 4)) (selBoundary d n)))) = true := by
    simpa using hnear
  have hloaded' : ¬ (dest.isSome && (tabGet d.tiles.sched.slots (dest.getD 0)).state != .loaded) = true := by
    cases dest with
    | none => exact Bool.false_ne_true
    | some k => simp [hloaded k rfl]
  have hfree' : ¬ ((switchNames t.req.payload).any (fun n => (tabGet d.tiles.sched.switches n).isSome)) = true := by
    simpa using hfree
  have hfits' : ¬ (!runsFit d.tiles.sched (fun n => if (switchNames t.req.payload).contains n then dest else toRun d.tiles.sched n) (graphRate d)) = true := by
    simp only [hfits, Bool.not_true, Bool.false_eq_true, not_false_eq_true]
  refine (if_neg hat').trans ((if_neg hnear').trans ((if_neg hloaded').trans ((if_neg hfree').trans ((if_neg hfits').trans ?_))))
  by_cases hc : atOnceMode t = true
  · rw [if_pos hc]
    exact if_pos hc
  rw [if_neg hc]
  refine (if_neg hc).trans ?_
  simp only [switchWaits, ← foldl_switchAtListed d t dest]
  rfl

end

theorem switchShort_of_fields {t : Taken} {p : List Byte} (hp : t.req.payload = p) (hlen : 8 ≤ p.length) (h1 : u8 p 1 ≤ 7) (h2 : u8 p 2 ≤ 1) (h3 : u8 p 3 = 0) :
    switchShort t = false := by
  subst hp
  simp [switchShort, longEnough_of_le hlen, h1, h2, h3]

theorem judgeGraphStart_changes {d : Dev} {t : Taken} (hm : inModes t graphModes = true) (hshort : switchShort t = false)
    (hslot : u8 t.req.payload 0 ≤ 1) : judgeGraphStart d t none = graphChange d t (u8 t.req.payload 0) (some (u8 t.req.payload 0)) := by
  simp only [judgeGraphStart]
  rw [if_neg (by simp [hm]), if_neg (by simp [hshort, hslot])]

theorem judgeGraphStop_changes {d : Dev} {t : Taken} (hm : inModes t graphModes = true) (hshort : switchShort t = false) :
    judgeGraphStop d t none = graphChange d t 0xFF none := by
  rw [judgeGraphStop, if_neg (by simp [hm]), if_neg (by simp [hshort])]

theorem switchLeft_eq_nil {d : Dev} {t : Taken} : switchLeft d t = [] ↔ ∀ n, n ∈ switchNames t.req.payload → (getDom d n).state = .stopped := by
  simp [switchLeft]

section
variable {r : Req} {s : State} {op : Op} {j : Judge1} {slotByte : Nat} {dest : Option Nat}

/-- A START or STOP that is in order, carried out: at once in CONFIG, elsewhere stored for the boundaries of its domains and, where none of
them has one to come, answered. -/
theorem reqRow1_switches (hs : served s (takes s op r)) (hj : j (quiet s) (takes s op r) none = graphChange (quiet s) (takes s op r) slotByte dest)
    (hat : switchTimed (takes s op r) = true → u32 r.payload 4 % 16 = 0)
    (hnear : switchTimed (takes s op r) = true → ∀ n, n ∈ switchNames r.payload → domRuns (getDom (quiet s) n).state = true →
      mtDiff (BitVec.ofNat 32 (u32 r.payload 4)) (selBoundary (quiet s) n) ≤ 8 * rateOf (quiet s) n)
    (hloaded : ∀ k, dest = some k → (tabGet (quiet s).tiles.sched.slots k).state = .loaded)
    (hfree : ∀ n, n ∈ switchNames r.payload → tabGet (quiet s).tiles.sched.switches n = none)
    (hfits : runsFit (quiet s).tiles.sched (fun n => if (switchNames r.payload).contains n then dest else toRun (quiet s).tiles.sched n)
      (graphRate (quiet s)) = true) :
    (atOnceMode (takes s op r) = true → reqRow1 op j r s = .next (granted s (takes s op r)
      ((switchNames r.payload).foldl (fun d n => graphSwitch d n dest (mtOf d n + 16)) (quiet s)) (switchBody slotByte []))) ∧
    (atOnceMode (takes s op r) = false → ∃ reqs, let e := switchWaits (quiet s) (takes s op r) dest reqs
      ((∀ n, n ∈ switchNames r.payload → (getDom (quiet s) n).state = .stopped) →
        reqRow1 op j r s = .next (granted s (takes s op r) e (switchBody slotByte []))) ∧
      (∀ n, n ∈ switchNames r.payload → (getDom (quiet s) n).state ≠ .stopped → reqRow1 op j r s = .next (underWay s (takes s op r) e))) := by
  have hjudged := graphChange_judged (t := takes s op r) rfl slotByte hat hnear hloaded hfree hfits
  refine ⟨fun hc => reqRow1_granted hs (hj.trans (hjudged.trans (if_pos hc))), fun hc => ?_⟩
  rw [if_neg (by simp [hc])] at hjudged
  have hnone := switchLeft_eq_nil (d := quiet s) (t := takes s op r)
  by_cases hleft : switchLeft (quiet s) (takes s op r) = []
  · exact ⟨_, fun _ => reqRow1_granted hs (hj.trans (hjudged.trans (if_pos (by rw [hleft]; rfl)))),
      fun n hn h => absurd (hnone.1 hleft n hn) h⟩
  · exact ⟨_, fun h => absurd (hnone.2 h) hleft,
      fun _ _ _ => reqRow1_underWay hs (hj.trans (hjudged.trans (if_neg (by simpa using hleft))))⟩

end

/-! TASK_CANCEL (R299). -/

theorem not_mtLater_self (a : MT) : mtLater a a = false := by simp [mtLater, mtDiff]

/-- Of two media times one at most is the later. -/
theorem not_mtLater_of_mtLater {a b : MT} (h : mtLater a b = true) : mtLater b a = false := by
  have hab : 0 < (a - b).toInt := of_decide_eq_true h
  have hmin : a - b ≠ BitVec.intMin 32 := fun h => absurd (h ▸ hab) (by decide)
  have hneg : mtDiff b a = -(a - b).toInt := by rw [mtDiff, ← neg_sub a b, BitVec.toInt_neg_of_ne_intMin hmin]
  exact decide_eq_false (by omega)

/-- The cancel that a request asks for, of the task of a number. -/
def cancelOf (t : Taken) (k : Nat) : Cancel :=
  let p := t.req.payload
  { instance_ := u8 p 0 == 1, slot := if u8 p 1 = 0xFF then none else some (u8 p 1), dom := u8 p 2, task := k, mt := BitVec.ofNat 32 (u32 p 8), taken := t }

section
variable {d : Dev} {t : Taken} {p : List Byte} (hp : t.req.payload = p) (hm : inModes t graphModes = true) (hlen : 12 ≤ p.length)
  (h0 : u8 p 0 ≤ 1) (h1 : u8 p 1 ≤ 1 ∨ u8 p 1 = 0xFF) (h2 : u8 p 2 ≤ 2) (h3 : u8 p 3 = 0) (hz : isZero p 6 2 = true) (h8 : u32 p 8 % 16 = 0)
  (hnear : mtDiff (BitVec.ofNat 32 (u32 p 8)) (selBoundary d (u8 p 2)) ≤ 8 * rateOf d (u8 p 2)) {k : Nat}
  (hk : (if u8 p 0 = 1 then some 0 else cancelIndex d (if u8 p 1 = 0xFF then none else some (u8 p 1)) (u8 p 2) (u16 p 4)) = some k)
  (hruns : domRuns (getDom d (u8 p 2)).state = true)
include hp hm hlen h0 h1 h2 h3 hz h8 hnear hk hruns

/-- A cancel that is in order: applied in the block under way, or kept for its own. -/
theorem judgeTaskCancel_passes (hpast : mtLater (mtOf d (u8 p 2)) (BitVec.ofNat 32 (u32 p 8)) = false) : judgeTaskCancel d t none =
    let c := cancelOf t k
    if c.mt = mtOf d c.dom then
      if cancelRuns d.tiles.sched c then
        let r := applyCancel d.tiles (baseRuns d c.dom) c
        (tilesMod d (fun _ => schedTick (schedMod r.1 (fun s => { s with cancels := s.cancels ++ [r.2] }))), .done)
      else ansB d .notFound (cancelReply c)
    else if 64 ≤ (d.tiles.sched.cancels.filter (fun x => !x.applied)).length then ansB d .noResource (cancelReply c)
    else (tilesMod d (fun T => schedMod T (fun s => { s with cancels := s.cancels ++ [c] })), .done) := by
  subst hp
  have hslot : (decide (u8 t.req.payload 1 ≤ 1) || u8 t.req.payload 1 == 0xFF) = true := by simpa using h1
  have hindex : (if (u8 t.req.payload 0 == 1) = true then some 0 else
      cancelIndex d (if u8 t.req.payload 1 = 0xFF then none else some (u8 t.req.payload 1)) (u8 t.req.payload 2) (u16 t.req.payload 4)) = some k := by
    simpa using hk
  simp only [judgeTaskCancel]
  rw [if_neg (by simp [hm]), if_neg (by simp [longEnough_of_le hlen, h0, hslot, h2, h3, hz, h8]), if_neg (by simpa using hnear), hindex]
  simp only [hruns, hpast, Bool.not_true, Bool.false_eq_true, if_false]
  rfl

theorem judgeTaskCancel_now (hmt : BitVec.ofNat 32 (u32 p 8) = mtOf d (u8 p 2)) (himage : cancelRuns d.tiles.sched (cancelOf t k) = true) :
    judgeTaskCancel d t none =
      let r := applyCancel d.tiles (baseRuns d (u8 p 2)) (cancelOf t k)
      (tilesMod d (fun _ => schedTick (schedMod r.1 (fun s => { s with cancels := s.cancels ++ [r.2] }))), .done) := by
  rw [judgeTaskCancel_passes hp hm hlen h0 h1 h2 h3 hz h8 hnear hk hruns (by rw [hmt]; exact not_mtLater_self _)]
  subst hp
  exact (if_pos hmt).trans (if_pos himage)

theorem judgeTaskCancel_later (hmt : mtLater (BitVec.ofNat 32 (u32 p 8)) (mtOf d (u8 p 2)) = true)
    (hroom : (d.tiles.sched.cancels.filter (fun x => !x.applied)).length < 64) :
    judgeTaskCancel d t none = (tilesMod d (fun T => schedMod T (fun s => { s with cancels := s.cancels ++ [cancelOf t k] })), .done) := by
  rw [judgeTaskCancel_passes hp hm hlen h0 h1 h2 h3 hz h8 hnear hk hruns (not_mtLater_of_mtLater hmt)]
  subst hp
  refine (if_neg (fun h : BitVec.ofNat 32 (u32 t.req.payload 8) = mtOf d (u8 t.req.payload 2) => ?_)).trans (if_neg (by omega))
  rw [h, not_mtLater_self] at hmt
  cases hmt

end

/-- Settles O60: each request is judged as its rule says.  The model's choices in it: the leader tells its partner of a swap by a ticket, which stores
it there (log entry 26), and a cancel numbers the base image's tasks over all domains, a slot's within its image (log entries 15 and 76). -/
theorem twinAndGraphRequestsTakeEffect : Obligations.TwinAndGraphRequestsTakeEffect := by
  unfold Obligations.TwinAndGraphRequestsTakeEffect
  intro r s p d tw g change
  have hp : ∀ op, (takes s op r).req.payload = p := fun _ => rfl
  have hchange {op : Op} {j : Judge1} {slotByte : Nat} {dest : Option Nat} (i : Instr) (hexec : exec i s = reqRow1 op j r s)
      (hj : inModes (takes s op r) graphModes = true → switchShort (takes s op r) = false →
        j d (takes s op r) none = graphChange d (takes s op r) slotByte dest) : change i (takes s op r) slotByte dest := by
    dsimp only [change]
    intro hs hm hlen h1 h2 h3 hat hnear hloaded hfree hfits
    obtain ⟨hnow, hwaits⟩ := reqRow1_switches hs (hj hm (switchShort_of_fields (hp _) hlen h1 h2 h3)) hat hnear hloaded hfree hfits
    rw [hexec]
    refine ⟨hnow, fun hc => ?_⟩
    obtain ⟨reqs, hanswered, hkept⟩ := hwaits hc
    exact ⟨switchWaits d (takes s op r) dest reqs, rfl, rfl, fun n hn => switchWaits_named (t := takes s op r) hn dest reqs,
      fun n hn => switchWaits_unnamed (t := takes s op r) hn dest reqs, hanswered, hkept⟩
  refine ⟨?twinSet, ?twinGet, ?twinState, ?swap, ?load, ?start, ?stop, ?cancel⟩
  case twinSet =>
    rintro t rfl hs hm hlen h0 hok c e hmics
    have hjudged := judgeTwinSet_passes (d := d) (t := takes s .twinCfg r) (hp _) hm hlen h0 hok hmics
    refine (reqRow_eq_reqRow1 h0 rfl).trans ?_
    by_cases hwait : (c.enable && !pdOn e 5) = true
    · rw [if_pos hwait]
      exact reqRow1_awaits hs (hjudged.trans (if_pos hwait))
    · rw [if_neg hwait]
      exact reqRow1_granted hs (hjudged.trans (if_neg hwait))
  case twinGet =>
    rintro t rfl hs hlen h0
    exact ⟨_, (reqRow_eq_reqRow1 h0 rfl).trans (reqRow1_granted hs (judgeTwinGet_ok (hp _) hlen h0)), twinCfgBody_fields _⟩
  case twinState =>
    rintro t rfl hs
    obtain ⟨hstate, hpartner⟩ := twinStateBody_states d
    exact ⟨_, reqRow1_granted hs (judgeTwinState_ok ..), length_twinStateBody _, hstate, hpartner, twinStateBody_counts _⟩
  case swap =>
    rintro t rfl hs hm hlen h0 h4 hz S mt x
    refine ⟨fun hch hstate => reqRow1_underWay hs (judgeTwinSwap_stored (hp _) hm hlen h0 h4 hz hch hstate), fun hch hstate hpartner hswap =>
      ⟨_, reqRow1_underWay hs (judgeTwinSwap_told (hp _) hm hlen h0 h4 hz hch hstate hpartner hswap), rfl, sendTicket_nextTicket ..,
        (sendTicket_state ..).trans hstate, sendTicket_scene .., sendTicket_fw ..⟩⟩
  case load =>
    rintro t rfl hs hm hlen slot hslot hz hb href hruns hbusy
    have hother : 1 - slot ≠ slot := by omega
    exact ⟨_, reqRow1_fetches hs (judgeGraphLoad_fetches (hp _) hm hlen hslot hz hb href hruns hbusy), rfl, dropSlot_slot ..,
      dropSlot_others _ _ hother, mem_dropSlot_tasks _ _⟩
  case start =>
    rintro t rfl hslot
    exact hchange _ rfl fun hm hshort => judgeGraphStart_changes hm hshort hslot
  case stop =>
    rintro t rfl
    exact hchange _ rfl judgeGraphStop_changes
  case cancel =>
    rintro t k rfl hs hm hlen h0 h1 dom slot mt c h2 h3 hz h8 hnear hk hruns
    exact ⟨fun hmt himage => reqRow1_underWay hs (judgeTaskCancel_now (hp _) hm hlen h0 h1 h2 h3 hz h8 hnear hk hruns hmt himage),
      fun hmt hroom => reqRow1_underWay hs (judgeTaskCancel_later (hp _) hm hlen h0 h1 h2 h3 hz h8 hnear hk hruns hmt hroom)⟩

end Sys2Proof.Machine


/-! The step as a whole (chapters 00 and 15): a command's outcome, the vectors' sources, and the reset state. -/

namespace Sys2Proof.Machine

/-- Settles O1: on a queue that is not empty `step` is `exec` by definition. -/
theorem stepRunsTheFrontCommand : Obligations.StepRunsTheFrontCommand := by
  intro c cs s h
  rw [step, h]

/-! What well-formed operands give (log entry 98). -/

/-- Whether an outcome is a next state. -/
def isNext : Host.Outcome State Fault Refusal → Bool
  | .next _ => true
  | _ => false

theorem isNext_coreRow {own : Word → Bool} {core : Fin 64} {i : Issue} {e : Option (DspCore → AOut)} {s : State} (h : own i.w = true) :
    isNext (coreRow own core i e s) = true := by
  rw [coreRow, if_pos h]
  rfl

theorem isNext_dmaRow {own : Nat} {ch : Fin 32} {i : DmaIssue} {g : Dev → List Byte → Dev} {s : State}
    (h : (i.word.length == 32 && dmaRowOwn own i) = true) : isNext (dmaRow own ch i g s) = true := by
  rw [dmaRow, if_pos (Bool.and_eq_true_iff.1 h).2]
  rfl

/-- Beside the requests a row is a change of the device, a core's row or a DMA row; the last two run where their word is their own. -/
theorem isNext_exec_of_not_request {c : Instr} {s : State} (hn : requestRow c = none) (hw : c.wf = true) : isNext (exec c s) = true := by
  cases c
  case add core i => exact isNext_coreRow (own := fun w => isSR 0 w || !isOther w) hw
  all_goals first
    | rfl
    | (refine isNext_coreRow ?_; exact hw)
    | (refine isNext_dmaRow ?_; exact hw)
    | (simp only [requestRow, reduceCtorEq] at hn)

theorem isNext_exec {c : Instr} {s : State} (hw : c.wf = true) : isNext (exec c s) = true := by
  cases hrow : requestRow c with
  | none => exact isNext_exec_of_not_request hrow hw
  | some x =>
    obtain ⟨op, j, r⟩ := x
    rw [exec_request hrow hw]
    rfl

/-- Settles O3: every row is a settled change of the device or the fault otherRow (`exec_isRun`), and a well-formed operand spells its own row
(`isNext_exec`).  That an operand which spells another row faults is the model's choice (log entry 98). -/
theorem wellFormedCommandsComplete : Obligations.WellFormedCommandsComplete := by
  intro c s
  rcases exec_isRun s c with ⟨g, hrun⟩ | hfault
  · rw [hrun, run_eq]
    exact ⟨fun _ => ⟨_, rfl⟩, fun _ => nofun, fun _ => nofun, fun t ht => by cases ht; rfl⟩
  · have hwf : c.wf ≠ true := fun hw => by
      have hnext := isNext_exec (s := s) hw
      rw [hfault] at hnext
      cases hnext
    rw [hfault]
    exact ⟨fun hw => absurd hw hwf, fun _ => nofun, fun f hf => by cases hf; exact ⟨rfl, Bool.eq_false_iff.2 hwf⟩, fun _ => nofun⟩

/-! The vectors' sources (R407). -/

/-- Whether vector n has a source pending. -/
def vecSource (d : Dev) (n : Nat) : Bool :=
  if n < 8 then mbxPends d n
  else if n = 8 then d.hif.dblD2H &&& d.hif.dblD2HEn != 0
  else if n = 9 then dmaPends d
  else if n = 10 then (List.range 8).any (fun r => (tabGet d.net.rings r).irqPend)
  else if n = 11 then (List.range 4).any (fun p => (getNet d p).halfRx != 0 || (getNet d p).halfTx != 0)
  else if n = 12 then d.time.irq &&& 0xFFF != 0
  else if n = 13 then d.hif.fault != 0
  else d.hif.irqMode

/-- HIF_IRQ_STATUS lists the sources of vectors 0 to 14. -/
theorem irqStatus_eq_bitSum (d : Dev) : irqStatus d = BitVec.ofNat 32 (bitSum (vecSource d) 15) := by
  simp [irqStatus, fields, bitSum, vecSource, List.range_succ, getNet]
  congr 1
  ring

theorem getLsbD_irqStatus (d : Dev) (n : Nat) : (irqStatus d).getLsbD n = (decide (n < 15) && vecSource d n) := by
  rw [irqStatus_eq_bitSum, BitVec.getLsbD_ofNat, testBit_bitSum]
  by_cases h : n < 15
  · simp [h, show n < 32 by omega]
  · simp [h]

/-- Settles O6: each vector's source is its bit of HIF_IRQ_STATUS (`getLsbD_irqStatus`). -/
theorem interruptVectorsHaveTheirSources : Obligations.InterruptVectorsHaveTheirSources := by
  intro d
  have hbit {n : Nat} (hn : n < 15) : (irqStatus d).getLsbD n = vecSource d n := by simp [getLsbD_irqStatus, hn]
  refine ⟨fun n hn => ?_, hbit (by decide), hbit (by decide), hbit (by decide), hbit (by decide), hbit (by decide), hbit (by decide),
    hbit (by decide), fun n hn => ?_, fun n hn h5 => ?_, ?_, fun n hn => ?_, rfl⟩
  · rw [hbit (by omega), vecSource, if_pos hn]; rfl
  · simp [getLsbD_irqStatus, Nat.not_lt.2 hn]
  · have h5' : (n != 5) = true := by simp [h5]
    simp only [vecPends, hn, h5', decide_true, Bool.true_and]
  · simp [vecPends]
  · simp [vecPends, Nat.not_lt.2 hn]

/-- Settles O7: the fields of `State.resetDev` as they stand in its definition. -/
theorem resetStateIsAsGiven : Obligations.ResetStateIsAsGiven := by
  have hstopped {n : Nat} (hn : n = 1 ∨ n = 2) : getDom State.resetDev n = {} := by rcases hn with rfl | rfl <;> rfl
  refine ⟨rfl, by decide, by decide, by decide, rfl, rfl, rfl, rfl, rfl, rfl, rfl, rfl, fun n hn => ?_, fun _ _ => ⟨rfl, rfl⟩, fun _ => rfl,
    rfl, rfl, rfl, rfl, by decide⟩
  show (getDom State.resetDev n).state = .stopped ∧ (getDom State.resetDev n).cfg = _
  rw [hstopped hn]
  exact ⟨rfl, rfl⟩

end Sys2Proof.Machine


/-! Requests taken, admitted and answered (chapter 16). -/

namespace Sys2Proof.Machine

/-- A change of the device runs on the quiet device, and is settled. -/
theorem run_to {f : Dev → Dev} {s : State} {d : Dev} (h : f (quiet s) = d) : run f s = .next (after s d) := by rw [← h]; rfl

/-! What a request row does (R424, R432, R422). -/

section
variable {c : Instr} {op : Op} {j : Judge1} {r : Req} {s : State} (hrow : requestRow c = some (op, j, r)) (hwf : c.wf = true)
include hrow hwf

/-- Where firmware takes cells a request is judged. -/
theorem exec_request_up (hup : s.dev.hif.ctrlUp = true) :
    exec c s = .next (after s (judgeReq j (quiet s) (takenOf (quiet s) op r (getMbx s.dev r.ch.val).epoch) none)) :=
  (exec_request hrow hwf).trans (run_to (if_pos hup))

/-- Where firmware does not run nothing happens. -/
theorem exec_request_down (hup : s.dev.hif.ctrlUp = false) : exec c s = .next (after s (quiet s)) :=
  (exec_request hrow hwf).trans (run_to (if_neg (ne_true_of_eq_false hup)))

/-- A request that a check turns away is answered with the check's status. -/
theorem exec_request_turnedAway (hup : s.dev.hif.ctrlUp = true) {st : Status} (hgate : gate (quiet s) (takes s op r) = some st) :
    exec c s = .next (after s (reply (quiet s) (takes s op r) st [])) := by
  have hjudged : judgeReq j (quiet s) (takes s op r) none = reply (quiet s) (takes s op r) st [] := by rw [judgeReq, hgate]
  rw [← hjudged]
  exact exec_request_up hrow hwf hup

end

section
variable {d : Dev} {t : Taken}

theorem gate_of_closed (hopen : (getSession d t.req.ch.val).isOpen = false) (hhello : t.op ≠ .hello) (hversion : t.op ≠ .version) :
    gate d t = some .denied := by simp [gate, hopen, hhello, hversion]

theorem gate_of_verLacks (hopen : (getSession d t.req.ch.val).isOpen = true)
    (hlacks : verLacks t.op (getSession d t.req.ch.val).major (getSession d t.req.ch.val).minor = true) : gate d t = some .version := by
  simp [gate, hopen, hlacks]

theorem gate_of_safe (hopen : (getSession d t.req.ch.val).isOpen = true)
    (hlacks : verLacks t.op (getSession d t.req.ch.val).major (getSession d t.req.ch.val).minor = false) (hmode : mode d = .safe)
    (hop : safeOp t.op = false) : gate d t = some .badMode := by
  simp [gate, hopen, hlacks, hmode, hop]

end

/-- Settles O8: a row of the table is its rule behind `gate` (`exec_request_up`), whose first three checks are closed, version and SAFE. -/
theorem requestsAreTakenAdmittedAndJudged : Obligations.RequestsAreTakenAdmittedAndJudged := by
  refine ⟨fun c op j r s hrow hwf => ⟨exec_request_up hrow hwf, exec_request_down hrow hwf⟩, ?_⟩
  intro c op j r s hrow hwf hup t ses
  refine ⟨?_, ?_, ?_⟩
  · intro hclosed hhello hversion
    exact exec_request_turnedAway hrow hwf hup (gate_of_closed hclosed hhello hversion)
  · intro hopen hlacks
    exact exec_request_turnedAway hrow hwf hup (gate_of_verLacks hopen hlacks)
  · intro hopen hlacks hsafe h0 hE htel hlog
    exact exec_request_turnedAway hrow hwf hup (gate_of_safe hopen hlacks hsafe (by simp [safeOp, h0, hE, htel, hlog]))

/-! Replies (R426). -/

/-- A reply's opcode is the request's with bit 15 set. -/
theorem ofNat_opCode_reply (o : Op) : BitVec.ofNat 16 (opCode o + 0x8000) = BitVec.ofNat 16 (opCode o) ||| 0x8000 := by
  cases o <;> decide

/-- The status stands first in a reply: filling, cutting and the cell's 56 bytes keep it. -/
theorem replyMsg_status (t : Taken) (st : Status) (body : List Byte) (b : Bool) :
    (replyMsg t st body b).payload.head? = some (BitVec.ofNat 8 (statusByte st)) := by
  have hcut : ∀ n, replyCut t.op (verOf t.major t.minor) = some n → 0 < n := by
    intro n h
    unfold replyCut at h
    split at h <;> simp only [Option.ite_none_right_eq_some, Option.some.injEq, reduceCtorEq] at h <;> omega
  unfold replyMsg
  simp only
  cases h : replyCut t.op (verOf t.major t.minor) with
  | none => simp [replyFill]
  | some n => 
    have := hcut n h
    simp [replyFill, List.head?_take, Nat.ne_of_gt this]

/-- A reply under the channel's epoch, which no command ticket withholds, joins the event queue. -/
theorem queueReply_current {d : Dev} {t : Taken} (hepoch : (getMbx d t.req.ch.val).epoch = t.epoch) (hissued : ∀ i, i ∈ d.twin.issued → i.taken ≠ some t)
    (m : OutMsg) : queueReply d t m = queueMsg d m := by
  have hany : d.twin.issued.any (fun i => i.taken == some t) = false := by simpa using hissued
  simp [queueReply, hepoch, hany]

/-- OK, asked for, under the channel's epoch: the reply joins the queue and nothing else changes. -/
theorem reply_ok_current {d : Dev} {t : Taken} (hreply : t.req.replyReq = true) (hepoch : (getMbx d t.req.ch.val).epoch = t.epoch)
    (hissued : ∀ i, i ∈ d.twin.issued → i.taken ≠ some t) (body : List Byte) (b : Bool) : reply d t .ok body b = queueMsg d (replyMsg t .ok body b) := by
  rw [← queueReply_current hepoch hissued]
  exact if_pos (by simp [replies, hreply])

theorem replies_iff (t : Taken) (st : Status) : replies t st = true ↔ t.req.replyReq = true ∨ (st ≠ .ok ∧ st ≠ .late) := by
  simp [replies]

/-- Settles O9: the message is `replyMsg`, and `queueReply_current` puts it in the queue where `replies` says so. -/
theorem repliesCarryOpcodeTagAndStatus : Obligations.RepliesCarryOpcodeTagAndStatus := by
  intro d t st body b hepoch hissued
  let e := if st == .ok || st == .late then d else addLog d (opCode t.op) 1 t.req.ch.val (logArgs t (replyMsg t st body b).payload)
  have he : e = { d with fw := { d.fw with log := e.fw.log, logSeq := e.fw.logSeq } } := by
    simp only [e]
    split <;> rfl
  have hreply : reply d t st body b = if replies t st then queueMsg e (replyMsg t st body b) else e := by
    rw [← queueReply_current (d := e) (by rw [he]; exact hepoch) (by rw [he]; exact hissued)]
    rfl
  refine ⟨⟨replyMsg t st body b, rfl, ofNat_opCode_reply t.op, rfl, rfl, rfl, replyMsg_status .., ?_⟩, ?_⟩
  · simp only [← replies_iff]
    rw [hreply, he]
    split <;> simp [queueMsg]
  · rw [hreply]
    split
    · rw [he]; rfl
    · rw [show e.fw.queue = d.fw.queue by rw [he]]
      exact he

/-! PING (R438). -/

/-- A request that is not pair-wide issues no ticket. -/
theorem commandTicket_of_not_pairWide {t : Taken} (h : pairWide t.op t.req.payload = false) (d : Dev) (dom : Nat) (b : Option (List Byte)) (w : Bool) :
    commandTicket d t dom b w = d := by
  simp [commandTicket, h]

/-- A reply message under a layout that no version cuts, whose bytes reach the layout's length and fit a cell. -/
theorem replyMsg_eq {t : Taken} {body : List Byte} (st : Status) (b : Bool) (hcut : replyCut t.op (verOf t.major t.minor) = none)
    (hlen : replyLen t.op ≤ body.length + 1) (hfit : body.length < 56) :
    replyMsg t st body b = { ch := t.req.ch.val, opcode := BitVec.ofNat 16 (opCode t.op + 0x8000), tag := t.req.tag, bulk := b,
                             payload := BitVec.ofNat 8 (statusByte st) :: body, isReply := true } := by
  have hfill : replyFill t.op (BitVec.ofNat 8 (statusByte st) :: body) = BitVec.ofNat 8 (statusByte st) :: body := by
    rw [replyFill, List.length_cons, Nat.sub_eq_zero_of_le hlen]
    exact List.append_nil _
  simp only [replyMsg, hcut, hfill]
  rw [List.take_of_length_le (by rw [List.length_cons]; omega)]

section
variable {r : Req} {s : State}

/-- The gate admits a PING of an open session. -/
theorem gate_ping (hopen : (getSession s.dev r.ch.val).isOpen = true) (hbulk : r.bulk = false ∨ r.ch.val ≠ 4) : gate (quiet s) (takes s .ping r) = none := by
  have hses : (getSession (quiet s) r.ch.val).isOpen = true := hopen
  have hlacks : ∀ major minor, verLacks .ping major minor = false := fun major minor => by
    rw [verLacks, show opCode .ping / 256 = 0 by decide]
    simp
  have hsafe : safeOp .ping = true := by decide
  rcases hbulk with hbulk | hbulk <;> simp [gate, hses, hlacks, hsafe, pairWide, pairWideOp, hbulk]

theorem exec_ping (hs : served s (takes s .ping r)) :
    exec (.ping r) s = .next (granted s (takes s .ping r) (quiet s) (zeros 3 ++ p64 s.dev.time.dt.toNat ++ r.payload.take 44)) :=
  reqRow1_granted hs rfl

end

/-- Settles O10: the reply's 56 bytes are the status, the reserved bytes, DT and the data (`replyMsg_payload`), and nothing cuts them. -/
theorem pingEchoesItsData : Obligations.PingEchoesItsData := by
  intro r s hlen hreply hup hopen hbulk hissued
  have hs : served s (takes s .ping r) := ⟨by rw [takes_req]; omega, hup, gate_ping hopen hbulk⟩
  have hticket := commandTicket_of_not_pairWide (t := takes s .ping r) rfl (quiet s) 0 none false
  have hmsg := replyMsg_eq (t := takes s .ping r) (body := zeros 3 ++ p64 s.dev.time.dt.toNat ++ r.payload) .ok false rfl
    (by simp [zeros, p64, replyLen]) (by simp [zeros, p64]; omega)
  have hsent := reply_ok_current (d := quiet s) (t := takes s .ping r) hreply rfl hissued (zeros 3 ++ p64 s.dev.time.dt.toNat ++ r.payload) false
  have hcode : BitVec.ofNat 16 (opCode (takes s .ping r).op + 0x8000) = 0x8004 := by rw [takes_op]; decide
  rw [exec_ping hs, granted, answered, hticket, List.take_of_length_le hlen, hsent, hmsg, hcode]
  rfl

end Sys2Proof.Machine


/-! Inbound cells and MORE chains (R414, R416, R424, R425). -/

namespace Sys2Proof.Machine

/-! What a merged event leaves in the event queue (R450): only waiting events of its own kind change, so a message whose first byte is no kind that
settling reports stays. -/

section
variable {m : OutMsg}

/-- A fold that rewrites the first message for which `same` holds keeps the others. -/
theorem mem_foldl_merge {same : OutMsg → Bool} (g : OutMsg → OutMsg) (hm : same m = false) (l : List OutMsg) (a : Bool × List OutMsg)
    (h : m ∈ a.2 ∨ m ∈ l) :
    m ∈ (l.foldl (fun (a : Bool × List OutMsg) x => if same x && !a.1 then (true, a.2 ++ [g x]) else (a.1, a.2 ++ [x])) a).2 := by
  induction l generalizing a with
  | nil => exact h.resolve_right List.not_mem_nil
  | cons x l ih =>
    refine ih _ ?_
    rcases h with h | h
    · left
      beta_reduce
      split <;> exact List.mem_append_left _ h
    · rcases List.mem_cons.1 h with rfl | h
      · left
        simp [hm]
      · exact Or.inr h

/-- A message that waits in d's event queue waits in that of d'. -/
def StaysQueued (m : OutMsg) (d d' : Dev) : Prop := m ∈ d.fw.queue → m ∈ d'.fw.queue

theorem StaysQueued.refl (d : Dev) : StaysQueued m d d := id
theorem StaysQueued.trans {a b c : Dev} (h : StaysQueued m a b) (k : StaysQueued m b c) : StaysQueued m a c := k ∘ h

theorem staysQueued_eventTo (d : Dev) (n : Nat) {payload : List Byte} (ch : Nat) (hkind : u8 m.payload 0 ≠ u8 payload 0) :
    StaysQueued m d (eventTo d n payload ch) := by
  intro h
  unfold eventTo
  simp only
  split
  · exact mem_foldl_merge _ (by simp [hkind]) _ _ (Or.inr h)
  · split
    · exact h
    · exact List.mem_append_left _ h

theorem staysQueued_event (d : Dev) (n : Nat) {payload : List Byte} (hkind : u8 m.payload 0 ≠ u8 payload 0) : StaysQueued m d (event d n payload) := by
  unfold event
  split
  · exact .refl d
  · have hlog : StaysQueued m d (addLog d (0xC000 + n) (eventSeverity n) 0xFF payload) := id
    refine hlog.trans (foldl_rel (StaysQueued m) .refl (fun _ _ _ => .trans) _ (fun x ch => ?_) _ _)
    split
    · exact staysQueued_eventTo x n ch hkind
    · exact .refl x

theorem staysQueued_evFault (d : Dev) {kind : Nat} (code index domain : Nat) (mt : MT) (a0 a1 a2 : Nat) (hkind : u8 m.payload 0 ≠ kind % 256) :
    StaysQueued m d (evFault d kind code index domain mt a0 a1 a2) := by
  refine staysQueued_event d 2 ?_
  simp only [List.append_assoc, u8_p8_append]
  exact hkind

theorem staysQueued_noteOne (h2 : u8 m.payload 0 ≠ 2) (h3 : u8 m.payload 0 ≠ 3) (d : Dev) (note : DspNote) : StaysQueued m d (noteOne d note) := by
  cases note with
  | matrixErr master read addr =>
    intro h
    unfold noteOne matrixError
    refine staysQueued_evFault _ _ _ _ _ _ _ _ ?_ ?_
    · exact h2
    · exact h
  | coreFault core task cause xpc xaddr =>
    unfold noteOne
    refine staysQueued_evFault _ _ _ _ _ _ _ _ ?_
    exact h3

theorem settle_fw (d : Dev) : (settle d).fw = (settleNotes d).fw := by
  have h := settleMsix_msixSame { settleNotes d with twin := linkFlush (settleNotes d).twin }
  have hfw := congrArg (fun x : Dev => x.fw) h
  exact hfw

/-- Settling reports in events of kinds 2 and 3. -/
theorem staysQueued_settle (h2 : u8 m.payload 0 ≠ 2) (h3 : u8 m.payload 0 ≠ 3) (d : Dev) : StaysQueued m d (settle d) := by
  have hnotes : StaysQueued m d (settleNotes d) :=
    foldl_rel (StaysQueued m) .refl (fun _ _ _ => .trans) _ (staysQueued_noteOne h2 h3) d.tiles.notes { d with tiles := { d.tiles with notes := [] } }
  intro h
  rw [settle_fw]
  exact hnotes h

end

/-! A cell taken (R424, R425). -/

section
variable {d : Dev} {ch : Fin 8} {c : List Byte}

/-- The mailbox of a channel whose oldest inbound cell has been taken. -/
def cellTaken (m : Mailbox) (rest : List (List Byte)) : Mailbox := { m with inFifo := rest, irq := if rest.isEmpty then m.irq ||| 1 else m.irq }

theorem cellTake_cons {rest : List (List Byte)} (hup : d.hif.ctrlUp = true)
    (hroom : (d.fw.queue.filter (fun m => m.isReply && m.ch == ch.val)).length < 32) (hfifo : (getMbx d ch.val).inFifo = c :: rest) :
    cellTake d ch = takeCell { d with mbx := tabSet d.mbx ch.val (cellTaken (getMbx d ch.val) rest) } ch c := by
  have htakes : (!takesCells d || decide (32 ≤ (d.fw.queue.filter (fun m => m.isReply && m.ch == ch.val)).length)) = false := by
    simp [takesCells, hup, hroom]
  simp only [cellTake, htakes, hfifo]
  rfl

theorem takeCell_stale (h : u8 c 7 ≠ (getMbx d ch.val).epoch.toNat) :
    takeCell d ch c = mbxMod d ch.val (fun m => { m with staleIn := m.staleIn + 1 }) := if_pos h

/-- A reply cell outside a chain is discarded and counted. -/
theorem takeCell_reply (hepoch : u8 c 7 = (getMbx d ch.val).epoch.toNat) (hop : 0x8000 ≤ u16 c 0) (hchain : tabGet d.fw.chains ch.val = none) :
    takeCell d ch c = fw d (fun f => { f with discard := tabMod f.discard ch.val (· + 1) }) := by
  simp [takeCell, hepoch, hop, hchain]

@[simp] theorem chainFail_chains (n : Nat) (k : Chain) (st : Status) : (chainFail d n k st).fw.chains = tabSet d.fw.chains n none := rfl
theorem chainFail_queue (n : Nat) (k : Chain) (st : Status) : (chainFail d n k st).fw.queue = d.fw.queue ++
    [{ ch := n, opcode := k.opcode + 0x8000, tag := k.tag, bulk := false, payload := [BitVec.ofNat 8 (statusByte st)], isReply := true }] := rfl

/-- A cell of another opcode or tag is taken as if the chain of its channel had ended before. -/
theorem takeCell_breaks {k : Chain} (hepoch : u8 c 7 = (getMbx d ch.val).epoch.toNat) (hchain : tabGet d.fw.chains ch.val = some k)
    (hother : k.opcode ≠ BitVec.ofNat 16 (u16 c 0) ∨ k.tag ≠ BitVec.ofNat 16 (u16 c 4)) :
    takeCell d ch c = takeCell (chainFail d ch.val k .badArg) ch c := by
  have hnot : ¬ (k.opcode = BitVec.ofNat 16 (u16 c 0) ∧ k.tag = BitVec.ofNat 16 (u16 c 4)) := fun ⟨ho, ht⟩ => hother.elim (· ho) (· ht)
  have hended : tabGet (chainFail d ch.val k .badArg).fw.chains ch.val = none := tabGet_tabSet_same ..
  have hmbx : getMbx (chainFail d ch.val k .badArg) ch.val = getMbx d ch.val := rfl
  simp only [takeCell, hmbx, hepoch, hchain, hended, hnot, if_false, ne_eq, not_true_eq_false]

end

/-- Settles O13: a cell is judged by `takeCell` (one lemma per way it is taken), and the TIMEOUT of a chain stays in the queue because settling
merges events of kinds 2 and 3 alone (`staysQueued_settle`).  Log entry 132 confirms the order of taking. -/
theorem cellsAreTakenInOrderAndChainsTimeOut : Obligations.CellsAreTakenInOrderAndChainsTimeOut := by
  refine ⟨?taken, ?timeout⟩
  case taken =>
    intro ch s c rest hup hroom hfifo m m' d
    have hm' : getMbx d ch.val = m' := tabGet_tabSet_same ..
    have hexec {e : Dev} (he : takeCell d ch c = e) : exec (.hatreCellTake ch) s = .next (after s e) :=
      run_to (f := fun d => cellTake d ch) ((cellTake_cons (d := quiet s) hup hroom hfifo).trans he)
    refine ⟨hexec rfl, fun hstale => hexec ?_, fun hepoch hop hchain => hexec ?_, fun k hepoch hchain hother => hexec ?_⟩
    · rw [takeCell_stale (by rw [hm']; exact hstale), mbxMod, tabMod, show tabGet d.mbx ch.val = m' from hm']
    · exact takeCell_reply (by rw [hm']; exact hepoch) hop hchain
    · exact takeCell_breaks (by rw [hm']; exact hepoch) hchain hother
  case timeout =>
    intro ch s k hup hchain
    have hends : chainTimeout (quiet s) ch.val = chainFail (quiet s) ch.val k .timeout := by
      simp only [chainTimeout, show tabGet (quiet s).fw.chains ch.val = some k from hchain, if_pos (show takesCells (quiet s) = true from hup)]
    refine ⟨after s (chainFail (quiet s) ch.val k .timeout), run_to (f := fun d => chainTimeout d ch.val) hends, ?_, ?_⟩
    · rw [after, settle_fw_chains, chainFail_chains, tabGet_tabSet_same]
    · refine staysQueued_settle (show u8 [7] 0 ≠ 2 by decide) (show u8 [7] 0 ≠ 3 by decide) _ ?_
      rw [chainFail_queue]
      exact List.mem_append_right _ (List.mem_singleton.2 rfl)

end Sys2Proof.Machine


/-! Outbound cells and interrupt messages (R408, R412, R415, R430). -/

namespace Sys2Proof.Machine

/-! The oldest message of a channel (R415). -/

/-- What `takeOut` finds is the first message of its channel, and leaves the others as they stood. -/
theorem takeOut_eq_some {ch : Nat} {q : List OutMsg} {m : OutMsg} {rest : List OutMsg} (h : takeOut ch q = some (m, rest)) :
    m.ch = ch ∧ ∃ p r, q = p ++ m :: r ∧ rest = p ++ r ∧ ∀ x ∈ p, x.ch ≠ ch := by
  induction q generalizing rest with
  | nil => cases h
  | cons x q ih =>
    rw [takeOut] at h
    split at h
    case isTrue hx =>
      cases h
      exact ⟨hx, [], q, rfl, rfl, nofun⟩
    case isFalse hx =>
      obtain ⟨⟨m', rest'⟩, hq, heq⟩ := Option.map_eq_some_iff.1 h
      cases heq
      obtain ⟨hm, p, r, rfl, rfl, hp⟩ := ih hq
      exact ⟨hm, x :: p, r, rfl, rfl, List.forall_mem_cons.2 ⟨hx, hp⟩⟩

section
variable {d : Dev} {ch : Nat} {m : OutMsg} {q : List OutMsg} (hup : d.hif.ctrlUp = true) (hout : takeOut ch d.fw.queue = some (m, q))
include hup hout

/-- A channel of the host's takes a free cell. -/
theorem outPlace_cell (hch : ch ≠ 5) (hroom : (getMbx d ch).outFifo.length < 32) : outPlace d ch =
    mbxMod (fw d (fun f => { f with queue := q })) ch
      (fun b => { b with outFifo := b.outFifo ++ [cellBytes m d.hif.deviceEpoch], irq := b.irq ||| 2 }) := by
  simp [outPlace, hup, hout, hch, Nat.not_le.2 hroom]

/-- MBX5 goes over the link. -/
theorem outPlace_link (hch : ch = 5) (hlink : linkUp d.twin = true) : outPlace d ch =
    linkSend (fw d (fun f => { f with queue := q })) 5 (cellBytes m d.hif.deviceEpoch) := by
  subst hch
  simp [outPlace, hup, hout, hlink]

end

theorem linkSend_up {d : Dev} (hup : linkUp d.twin = true) (hcarries : linkCarries d.twin = true) (cls : Nat) (body : List Byte) :
    linkSend d cls body = { d with twin := { d.twin with waiting := d.twin.waiting ++ [(cls, body)] } } := by
  simp [linkSend, hup, hcarries]

/-! A device with nothing to settle (R407). -/

/-- No message where no condition has become true. -/
theorem msixSignal_of_cond {d : Dev} {v : Nat} (h : v < 15 → d.hif.msixCond.getLsbD v = vecPends d v) : msixSignal d v = d := by
  refine if_neg fun hdue => ?_
  obtain ⟨hpends, hcond⟩ := Bool.and_eq_true_iff.1 hdue
  have hv : v < 15 := by
    by_contra hv
    simp [vecPends, hv] at hpends
  rw [h hv, hpends] at hcond
  cases hcond

/-- Settling what is settled records the conditions again and changes nothing else. -/
theorem settle_of_settled {d : Dev} (h : Settled d) : settle d = hif d (fun h => { h with msixCond := BitVec.ofNat 16 (bitSum (vecPends d) 15) }) := by
  obtain ⟨hnotes, hwaiting, hcond⟩ := h
  have hquiet : settleNotes d = d := by
    rw [settleNotes, hnotes, List.foldl_nil, ← hnotes]
  rw [settle, hquiet, linkFlush_of_none hwaiting, settleMsix_eq, List.foldl_fixed' fun v => msixSignal_of_cond (hcond v)]

/-- Unmasking a vector settles nothing: mask, pending bits and sent messages are sources of none. -/
theorem settled_msixMaskWrite {d : Dev} (v : Nat) (h : Settled d) : Settled (msixMaskWrite d v false) := by
  unfold msixMaskWrite
  simp only [Bool.false_eq_true, if_false]
  split <;> exact h

theorem msixMaskWrite_mask (d : Dev) (v : Nat) : (msixMaskWrite d v false).hif.msixMask = d.hif.msixMask &&& ~~~(BitVec.ofNat 16 (2 ^ v)) := by
  unfold msixMaskWrite
  simp only [Bool.false_eq_true, if_false]
  split <;> rfl

theorem msixMaskWrite_pend (d : Dev) (v : Nat) : (msixMaskWrite d v false).hif.msixPend = d.hif.msixPend &&& ~~~(BitVec.ofNat 16 (2 ^ v)) := by
  unfold msixMaskWrite
  simp only [Bool.false_eq_true, if_false]
  split <;> rfl

theorem msixMaskWrite_sent (d : Dev) (v : Nat) : (msixMaskWrite d v false).hif.msixSent =
    d.hif.msixSent ++ (if d.hif.msixMask.getLsbD v ∧ d.hif.msixPend.getLsbD v ∧ vecPends d v then [v] else []) := by
  unfold msixMaskWrite
  simp only [Bool.false_eq_true, if_false]
  split
  · rfl
  · exact (List.append_nil _).symm

theorem msixMaskWrite_frame (d : Dev) (v : Nat) (b : Bool) : (msixMaskWrite d v b).mbx = d.mbx ∧ (msixMaskWrite d v b).fw = d.fw ∧
    (msixMaskWrite d v b).time = d.time := by
  unfold msixMaskWrite
  simp only
  split
  · exact ⟨rfl, rfl, rfl⟩
  · split <;> exact ⟨rfl, rfl, rfl⟩

/-- Settles O14: `takeOut_eq_some` finds the oldest message, `outPlace_cell` and `outPlace_link` place it; after an unmasking nothing is left to
settle (`settle_of_settled`), so what it sent is all that was sent. -/
theorem outboundCellsAndPendingMessagesAreSent : Obligations.OutboundCellsAndPendingMessagesAreSent := by
  refine ⟨?place, ?unmask⟩
  case place =>
    intro ch s m q hup hout b
    obtain ⟨hm, p, r, hq, rfl, hp⟩ := takeOut_eq_some hout
    refine ⟨hm, ⟨p, ?_, ?_, hp⟩, fun hch hroom => ?_, fun hch hlink hcarries => ?_⟩
    · simp [hq]
    · simp
    · exact run_to (f := fun d => outPlace d ch.val) (outPlace_cell (d := quiet s) hup hout hch hroom)
    · refine run_to (f := fun d => outPlace d ch.val) ((outPlace_link (d := quiet s) hup hout hch hlink).trans ?_)
      rw [linkSend_up (by exact hlink) (by exact hcarries)]
      rfl
  case unmask =>
    intro v s hs
    have hsettled : settle (msixMaskWrite (quiet s) v.val false) = _ := settle_of_settled (settled_msixMaskWrite v.val hs)
    obtain ⟨hmbx, hfw, htime⟩ := msixMaskWrite_frame (quiet s) v.val false
    refine ⟨after s (msixMaskWrite (quiet s) v.val false), run_to (f := fun d => msixMaskWrite d v.val false) rfl, ?_⟩
    rw [after, hsettled]
    exact ⟨msixMaskWrite_mask .., msixMaskWrite_pend .., msixMaskWrite_sent .., hmbx, hfw, htime⟩

end Sys2Proof.Machine


/-! Registers of the window and of the device (R19, R405, R406, R419, R420, R493). -/

namespace Sys2Proof.Machine

/-! The window's blocks as a host interface writes them (R401). -/

theorem windowWrite_hif (d : Dev) (via : Via) {o : Nat} (ho : o < 0x1000) (v : Word) : windowWrite d via o v 15 = hifWrite d o v := by
  simp only [windowWrite]
  rw [if_neg (by simp), if_pos ho]

theorem windowWrite_dbl (d : Dev) (via : Via) {o : Nat} (ho : o < 0x1000) (v : Word) : windowWrite d via (0x3000 + o) v 15 = dblWrite d o v := by
  have hoff : 0x3000 + o - 0x3000 = o := by omega
  simp only [windowWrite]
  rw [if_neg (by simp), if_neg (by omega), if_neg (by omega), if_pos (by omega), hoff]

theorem windowWrite_time (d : Dev) (via : Via) {o : Nat} (ho : o < 0x1000) (v : Word) :
    windowWrite d via (0x5000 + o) v 15 = if pdOn d 1 then timeWrite d o v else d := by
  have hoff : 0x5000 + o - 0x5000 = o := by omega
  have hblock : (0x5000 ≤ 0x5000 + o ∧ 0x5000 + o < 0x6000 ∧ pdOn d 1 = true) ↔ pdOn d 1 = true := by simp; omega
  simp only [windowWrite]
  rw [if_neg (by simp), if_neg (by omega), if_neg (by omega), if_neg (by omega), if_neg (by omega), if_neg (by omega), hoff]
  simp only [hblock]

section
variable {s : State} {via : Via} (h : hostReaches s via)
include h

/-- A register write of a host interface. -/
theorem run_winReg (o : Nat) (v : Word) {d : Dev} (hd : windowWrite (quiet s) via o v 15 = d) : run (winReg via o v) s = .next (after s d) :=
  run_to ((winReg_hostReaches h o v).trans hd)

theorem run_winReg_time {o : Nat} (ho : o < 0x1000) (v : Word) :
    run (winReg via (0x5000 + o) v) s = .next (after s (if pdOn s.dev 1 then timeWrite (quiet s) o v else quiet s)) :=
  run_winReg h _ v (windowWrite_time (quiet s) via ho v)

/-- TIME_SNAPSHOT acts where PD_CTRL is on. -/
theorem exec_timeSnapshot (el : Elapsed) : exec (.timeSnapshot via el) s =
    .next (after s (if pdOn s.dev 1 then timeMod (quiet s) (fun t => { t with snap := snapshotOf (quiet s) el }) else quiet s)) := by
  obtain ⟨hvia, hpd⟩ := h
  have hpd' : pdOn (quiet s) 2 = true := hpd
  refine run_to (f := fun d => if via == .bar2 then d else if pdOn d 1 && pdOn d 2 then timeMod d (fun t => { t with snap := snapshotOf d el }) else d) ?_
  rcases hvia with rfl | rfl
  · simp only [hpd', Bool.and_true]; rfl
  · simp only [hpd', Bool.and_true]; rfl

end

/-! HIF_RESET (R406, R493): the two commands are bits below the key. -/

theorem key_or_low (v : Word) {b : Word} (hb : b >>> 16 = 0) : (v ||| b) >>> 16 = v >>> 16 := by
  rw [BitVec.ushiftRight_or_distrib, hb]
  exact BitVec.or_zero

theorem key_clear_bit0 (v : Word) : (v &&& 0xFFFFFFFE) >>> 16 = v >>> 16 := by
  rw [BitVec.ushiftRight_and_distrib]
  ext i hi
  have hmask : ∀ i : Fin 32, (v >>> 16).getLsbD i = true → i.val < 16 := by
    intro i
    rw [BitVec.getLsbD_ushiftRight]
    intro hbit
    by_contra hge
    rw [BitVec.getLsbD_of_ge _ _ (by omega)] at hbit
    cases hbit
  have hones : ∀ i : Fin 32, i.val < 16 → ((0xFFFFFFFE : Word) >>> 16).getLsbD i = true := by decide
  rw [BitVec.getElem_and, ← BitVec.getLsbD_eq_getElem, ← BitVec.getLsbD_eq_getElem]
  cases hbit : (v >>> 16).getLsbD i
  · rfl
  · rw [hones ⟨i, hi⟩ (hmask ⟨i, hi⟩ hbit)]; rfl

theorem hifReset_unkeyed {d : Dev} {v : Word} (h : v >>> 16 ≠ 0xC3D2) : hifReset d v = d := if_pos h

theorem hifReset_warm {d : Dev} {v : Word} (h : v >>> 16 = 0xC3D2) (h0 : v.getLsbD 0 = true) : hifReset d v = warmResetOp d 2 := by
  rw [hifReset, if_neg (not_not_intro h), if_pos h0]

theorem hifReset_ctrl {d : Dev} {v : Word} (h : v >>> 16 = 0xC3D2) (h0 : v.getLsbD 0 = false) (h1 : v.getLsbD 1 = true) :
    hifReset d v = controlFault d 5 := by
  rw [hifReset, if_neg (not_not_intro h), if_neg (ne_true_of_eq_false h0), if_pos h1]

theorem ctrlRestart_key (v : Word) : ((v &&& 0xFFFFFFFE) ||| 2) >>> 16 = v >>> 16 := (key_or_low _ (by decide)).trans (key_clear_bit0 v)

/-! Snapshots (R50). -/

theorem getD_map_range {α : Type} (f : Nat → α) {k n : Nat} (h : n < k) (a : α) : ((List.range k).map f).getD n a = f n := by
  simp [List.getD, h]

theorem snapshotOf_domain (d : Dev) (el : Elapsed) {n : Nat} (hn : n < 3) : (snapshotOf d el).valid.getD n false = mtValid d n ∧
    (snapshotOf d el).mt.getD n 0 = (mtNow d el n).1 ∧ (snapshotOf d el).frac.getD n 0 = (mtNow d el n).2 :=
  ⟨getD_map_range _ hn _, getD_map_range (fun n => (mtNow d el n).1) hn 0, getD_map_range (fun n => (mtNow d el n).2) hn 0⟩

/-- Settles O15: a host's write reaches its block of the window (`windowWrite_hif`, `windowWrite_dbl`, `windowWrite_time`), and the key decides
HIF_RESET.  That the TIME registers do not act while PD_CTRL is off is the model's reading (log entry 132). -/
theorem hostRegisterWritesSnapshotsAndForcedResets : Obligations.HostRegisterWritesSnapshotsAndForcedResets := by
  refine ⟨⟨?writes, ?resets⟩, ?snapshot⟩
  case writes =>
    intro via v s hs h
    refine ⟨run_winReg hs _ v (windowWrite_dbl _ via (o := 0) (by decide) v), run_winReg hs _ v (windowWrite_dbl _ via (o := 8) (by decide) v),
      run_winReg hs _ v (windowWrite_hif _ via (by decide) v), run_winReg hs _ v (windowWrite_hif _ via (by decide) v),
      fun hpd => ⟨?_, fun el => ?_⟩, fun hpd => ⟨?_, fun el => ?_⟩⟩
    · exact (run_winReg_time hs (o := 0x40) (by decide) v).trans (by rw [hpd]; rfl)
    · rw [exec_timeSnapshot hs, hpd]; rfl
    · exact (run_winReg_time hs (o := 0x40) (by decide) v).trans (by rw [hpd]; rfl)
    · rw [exec_timeSnapshot hs, hpd]; rfl
  case resets =>
    intro via v s hs
    have hwarm : (v ||| 1) >>> 16 = v >>> 16 := key_or_low v (by decide)
    have hctrl := ctrlRestart_key v
    have hreset (w : Word) {d : Dev} (hd : hifReset (quiet s) w = d) : run (winReg via 0x14 w) s = .next (after s d) :=
      run_winReg hs _ w ((windowWrite_hif _ via (by decide) w).trans hd)
    refine ⟨fun hkey => ⟨hreset _ (hifReset_unkeyed (by rwa [hwarm])), hreset _ (hifReset_unkeyed (by rwa [hctrl]))⟩,
      fun hkey => ⟨hreset _ (hifReset_warm (by rwa [hwarm]) (by simp)), hreset _ (hifReset_ctrl (by rwa [hctrl]) (by simp) (by simp))⟩⟩
  case snapshot =>
    intro d el
    refine ⟨rfl, fun n hn => ?_⟩
    obtain ⟨hvalid, hmt, hfrac⟩ := snapshotOf_domain d el hn
    rw [hvalid, hmt, hfrac, mtNow]
    refine ⟨rfl, fun hv => ?_, fun hv => ?_⟩
    · rw [if_pos hv]; exact ⟨rfl, rfl⟩
    · rw [if_neg (ne_true_of_eq_false hv)]; exact ⟨rfl, rfl⟩

end Sys2Proof.Machine


/-! Reads that clear or remove, and the accesses of the control processor (R72, R185, R258, R260, R307, R322, R334, R370, R405, R420). -/

namespace Sys2Proof.Machine

/-! Registers in arrays. -/

theorem arrIx_some {base s n k : Nat} (hs : 0 < s) (hk : k < n) : arrIx (base + s * k) base s n = some k := by
  have hsub : base + s * k - base = s * k := by omega
  rw [arrIx, hsub, Nat.mul_mod_right, Nat.mul_div_cancel_left k hs, if_pos ⟨by omega, rfl, hk⟩]

theorem arrIx_none {o base s n : Nat} (h : n ≤ (o - base) / s) : arrIx o base s n = none := if_neg (fun ⟨_, _, hlt⟩ => absurd h (Nat.not_le.2 hlt))

/-! The window as a host interface reads it (R405). -/

/-- The device after a read of a window word outside the mailboxes. -/
def windowReads (d : Dev) (via : Via) (o : Nat) : Dev := (windowRead d via o).2

theorem windowReads_cap {d : Dev} {via : Via} {i : Nat} (hi : i < 4) (hpd : pdOn d 1 = true) : windowReads d via (0x510C + 0x20 * i) = capPop d i := by
  simp only [windowReads, windowRead]
  rw [if_neg (by omega), arrIx_some (by decide) hi]
  exact if_pos hpd

theorem windowReads_button (d : Dev) (via : Via) : windowReads d via 0x70D4 = buttonPop d := by
  simp only [windowReads, windowRead]
  rw [if_neg (by omega), arrIx_none (by decide)]
  rfl

/-- A register of network port p's block. -/
theorem windowReads_net {d : Dev} (via : Via) {p r : Nat} (hp : p < 4) (hr : r < 0x400) (hpd : pdOn d (netPd p) = true) :
    windowReads d via (0x6000 + r + 0x400 * p) =
      if r = 0x104 then netPortMod d p (fun n => { n with status := 0 })
      else if r = 0x110 then netPortMod d p (fun n => { n with halfRx := 0 })
      else if r = 0x114 then netPortMod d p (fun n => { n with halfTx := 0 }) else d := by
  have hport : (0x6000 + r + 0x400 * p - 0x6000) / 0x400 = p := by omega
  have hreg : (0x6000 + r + 0x400 * p) % 0x400 = r := by omega
  simp only [windowReads, windowRead]
  rw [if_neg (by omega), arrIx_none (by omega), hport, hreg]
  exact if_pos ⟨by omega, by omega, hpd⟩

/-- A host interface's read of a window offset: the word goes to its reader. -/
theorem run_winRead {s : State} {via : Via} (h : hostReaches s via) (o : Nat) {d : Dev} (hd : windowReads (quiet s) via o = d) :
    run (winRead via o) s = .next (after s { d with hif := { d.hif with readData := d.hif.readData ++ [windowWord (quiet s) via o] } }) := by
  refine run_to (f := winRead via o) ?_
  rw [← hd]
  obtain ⟨rfl | rfl, hpd⟩ := h
  · exact if_pos hpd
  · exact if_pos hpd

/-! The device's blocks as the control processor reads them (R23). -/

/-- The control processor's read of an address: the word goes to its reader. -/
theorem regRead_ctrl {d : Dev} {a : Nat} {x : Word × Dev} (h : deviceRead d .ctrl a = x) : regRead d .ctrl a = giveRead x.1 x.2 := by
  rw [← h]
  rfl

theorem blockPd_grHold {c : Nat} (hc : c < 640) : blockPd (0x40040C00 + 4 * c) = blockPd 0x40040C00 := by
  have hblock : (0x40040C00 + 4 * c) / 65536 = 0x4004 := by omega
  rw [blockPd, hblock]
  rfl

theorem deviceRead_grHold {d : Dev} {c : Nat} (hc : c < 640) (hpd : pdOn d (blockPd 0x40040C00) = true) :
    deviceRead d .ctrl (0x40040C00 + 4 * c) = (deviceWord d .ctrl (0x40040C00 + 4 * c), { d with chain := { d.chain with
      cols := tabMod d.chain.cols c (fun x => { x with st := { x.st with holdC := 0, holdL := 0 } }) } }) := by
  have hblock : (0x40040C00 + 4 * c) / 65536 = 0x4004 := by omega
  have hoff : (0x40040C00 + 4 * c) % 65536 = 0xC00 + 4 * c := by omega
  simp only [deviceRead, hblock, hoff, blockPd_grHold hc, hpd, arrIx_some (s := 4) (by decide) hc]
  rfl

theorem deviceRead_compLo {d : Dev} (hpd : pdOn d (blockPd 0x40090100) = true) :
    deviceRead d .ctrl 0x40090100 = (deviceWord d .ctrl 0x40090100,
      tilesMod d (fun T => schedMod T (fun x => { x with compHi := (x.comp.head?.map (·.mt)).getD 0, comp := x.comp.drop 1 }))) := by
  simp only [deviceRead, hpd]
  rfl

theorem deviceRead_descData {d : Dev} (hpd : pdOn d (blockPd 0x40090204) = true) :
    deviceRead d .ctrl 0x40090204 = (deviceWord d .ctrl 0x40090204,
      tilesMod d (fun T => schedMod T (fun x => { x with descIndex := BitVec.ofNat 32 ((x.descIndex.toNat + 1) % 32768) }))) := by
  simp only [deviceRead, hpd]
  rfl

theorem deviceWrite_descData {d : Dev} (hpd : pdOn d (blockPd 0x40090204) = true) (v : Word) :
    deviceWrite d 0x40090204 v 15 = tilesMod d (fun T => descWrite T v) := by
  simp only [deviceWrite, hpd]
  rfl

theorem blockPd_tdmMask {p : Nat} (hp : p < 8) : blockPd (0x400505E0 + 4 * p) = blockPd 0x400505E0 := by
  have hblock : (0x400505E0 + 4 * p) / 65536 = 0x4005 := by omega
  rw [blockPd, hblock]
  rfl

theorem deviceWrite_tdmMask {d : Dev} {p : Nat} (hp : p < 8) (hpd : pdOn d (blockPd 0x400505E0) = true) (v : Word) :
    deviceWrite d (0x400505E0 + 4 * p) v 15 = portsMod d (fun x => { x with tdm := tabMod x.tdm p (fun t => maskCtrlWrite t v) }) := by
  have hblock : (0x400505E0 + 4 * p) / 65536 = 0x4005 := by omega
  have hoff : (0x400505E0 + 4 * p) % 65536 = 0x5E0 + 4 * p := by omega
  simp only [deviceWrite, hblock, hoff, blockPd_tdmMask hp, hpd]
  simp only [aioWrite, arrIx_some (base := 0x5E0) (s := 4) (by decide) hp, arrIx_none (o := 0x5E0 + 4 * p) (base := 0x560) (s := 4) (n := 8) (by omega),
    arrIx_none (o := 0x5E0 + 4 * p) (base := 0x580) (s := 4) (n := 8) (by omega)]
  rfl

/-- Settles O16: the effect of a read is that of its window register (`windowReads_cap`, `windowReads_button`, `windowReads_net`) or of its
device register (`deviceRead_grHold`, `deviceRead_compLo`, `deviceRead_descData`). -/
theorem readsThatClearAndControlProcessorAccesses : Obligations.ReadsThatClearAndControlProcessorAccesses := by
  refine ⟨?host, ?ctrl⟩
  case host =>
    intro via s h gives
    refine ⟨fun i hpd => run_winRead h _ (windowReads_cap i.isLt hpd), run_winRead h _ (windowReads_button _ via), fun p hpd => ?_⟩
    have hread (r : Nat) (hr : r < 0x400) := run_winRead h _ (windowReads_net (d := quiet s) via p.isLt hr hpd)
    exact ⟨hread 0x104 (by decide), hread 0x110 (by decide), hread 0x114 (by decide)⟩
  case ctrl =>
    intro s gives
    refine ⟨fun c hc hpd => ?_, fun hpd => ?_, fun hpd => ⟨?_, fun v => ?_⟩, fun p v hpd => ?_⟩
    · refine run_to (f := fun d => if c < 640 then regRead d .ctrl (0x40040C00 + 4 * c) else d) ?_
      rw [if_pos hc]
      exact regRead_ctrl (deviceRead_grHold (d := quiet s) hc hpd)
    · exact run_to (f := fun d => regRead d .ctrl 0x40090100) (regRead_ctrl (deviceRead_compLo (d := quiet s) hpd))
    · exact run_to (f := fun d => regRead d .ctrl 0x40090204) (regRead_ctrl (deviceRead_descData (d := quiet s) hpd))
    · exact run_to (f := fun d => deviceWrite d 0x40090204 v 15) (deviceWrite_descData (d := quiet s) hpd v)
    · refine run_to (f := fun d => deviceWrite d (0x400505E0 + 4 * p.val) (v ||| 1) 15) ?_
      rw [deviceWrite_tdmMask (d := quiet s) p.isLt hpd]
      simp [maskCtrlWrite]

end Sys2Proof.Machine


/-! Supplies, RESET_N and REFCLK (R481, R484, R493, R507, R509). -/

namespace Sys2Proof.Machine

/-- e holds nothing but what power-on reset leaves, beside what outlives a reset; the flash is d's. -/
structure Emptied (d e : Dev) : Prop where
  scene : e.scene = {}
  net : e.net = {}
  ports : e.ports = {}
  seam : e.seam = {}
  mantle : e.mantle = {}
  chain : e.chain = {}
  dom : e.dom = State.resetDoms
  cores : e.tiles.cores = []
  mem : ∀ x, memRead e.tiles.mem x = 0
  sessions : e.fw.sessions = []
  ctrlUp : e.hif.ctrlUp = false
  flash : e.flash = flashKept d.flash

/-- Settling leaves the commands that wait. -/
theorem after_pending (s : State) (d : Dev) : (after s d).pending = s.pending :=
  have hmk : ∀ (e : Dev) (p : List Instr), (State.mk e p).pending = p := fun _ _ => rfl
  hmk (settle d) s.pending

theorem mode_eq (d : Dev) : mode d = d.fw.mode := rfl
theorem mode_after (s : State) (d : Dev) : mode (after s d).dev = d.fw.mode := (mode_eq (after s d).dev).trans (settle_fw_mode d)

/-- Settling an emptied device leaves it empty. -/
theorem Emptied.after {d e : Dev} (h : Emptied d e) (s : State) : (after s e).pending = s.pending ∧ (after s e).dev.scene = {} ∧
    (after s e).dev.net = {} ∧ (after s e).dev.ports = {} ∧ (after s e).dev.seam = {} ∧ (after s e).dev.mantle = {} ∧ (after s e).dev.chain = {} ∧
    (after s e).dev.dom = State.resetDoms ∧ (after s e).dev.tiles.cores = [] ∧ (∀ x, memRead (after s e).dev.tiles.mem x = 0) ∧
    (after s e).dev.fw.sessions = [] ∧ (after s e).dev.hif.ctrlUp = false ∧ (after s e).dev.flash = flashKept d.flash := by
  refine ⟨after_pending s e, ?_, ?_, ?_, ?_, ?_, ?_, ?_, ?_, fun x => ?_, ?_, ?_, ?_⟩
  all_goals simp only [Machine.after, settle_scene, settle_net, settle_ports, settle_seam, settle_mantle, settle_chain, settle_dom, settle_tiles_cores,
    settle_tiles_mem, settle_fw_sessions, settle_hif_ctrlUp, settle_flash, h.scene, h.net, h.ports, h.seam, h.mantle, h.chain, h.dom, h.cores, h.mem,
    h.sessions, h.ctrlUp, h.flash]

theorem emptied_powerLost (d : Dev) : Emptied d (powerLost d) := ⟨rfl, rfl, rfl, rfl, rfl, rfl, rfl, rfl, fun _ => rfl, rfl, rfl, rfl⟩
theorem emptied_domainsReset (d : Dev) (up : Bool) : Emptied d (domainsReset d up) := ⟨rfl, rfl, rfl, rfl, rfl, rfl, rfl, rfl, fun _ => rfl, rfl, rfl, rfl⟩

section
variable {d e : Dev} (h : Emptied d e)
include h

theorem Emptied.with_aon (a : Aon) : Emptied d { e with aon := a } := ⟨h.1, h.2, h.3, h.4, h.5, h.6, h.7, h.8, h.9, h.10, h.11, h.12⟩
theorem Emptied.startBoot (cause : Nat) : Emptied d (startBoot e cause) := h.with_aon _
theorem Emptied.enterOff : Emptied d (enterOff e) := ⟨h.1, h.2, h.3, h.4, h.5, h.6, h.7, h.8, h.9, h.10, h.11, h.12⟩
theorem Emptied.tryBoot (cause : Nat) : Emptied d (tryBoot e cause) := by
  unfold Machine.tryBoot
  split
  · exact h.startBoot cause
  · exact h.enterOff

end

/-! The edges, each on a device that has it (log entry 60). -/

section
variable {d : Dev}

/-- The device of a power-on reset, before its start. -/
def powerRisen (d : Dev) (st : Straps) : Dev :=
  sampleStraps { powerLost d with aon := { (powerLost d).aon with vddAon := true, resetN := d.aon.resetN, refclk := d.aon.refclk } } st

theorem vddRise_of_off (h : d.aon.vddAon = false) (st : Straps) : vddRise d st = tryBoot (powerRisen d st) 0 :=
  if_neg (ne_true_of_eq_false h)

theorem tryBoot_powerRisen_aon (d : Dev) (st : Straps) : let a := (tryBoot (powerRisen d st) 0).aon
    a.vddAon = true ∧ a.bootcnt = 0 ∧ a.cause = 0 ∧ a.bootSrc = st.bootSrc ∧ a.factoryEn = st.factoryEn ∧ a.i2cAddr = st.i2cAddr := by
  intro a
  simp only [a, tryBoot]
  split <;> exact ⟨rfl, rfl, rfl, rfl, rfl, rfl⟩

theorem mode_tryBoot_powerRisen (d : Dev) (st : Straps) :
    mode (tryBoot (powerRisen d st) 0) = if d.aon.resetN && d.aon.refclk then .boot else .off := by
  unfold tryBoot
  split
  case isTrue h => exact (if_pos h).symm
  case isFalse h => exact (if_neg h).symm

/-- The device after VDD_AON has gone. -/
def powerFallen (d : Dev) : Dev := { powerLost d with aon := { (powerLost d).aon with vddAon := false, resetN := d.aon.resetN, refclk := d.aon.refclk } }

theorem vddLoss_of_on (h : d.aon.vddAon = true) : vddLoss d = enterOff (powerFallen d) := if_neg (by simp [h])

theorem resetAssert_of_running (hv : d.aon.vddAon = true) (hn : d.aon.resetN = true) (hr : d.aon.refclk = true) :
    resetAssert d = enterOff { domainsReset d true with aon := { d.aon with resetN := false } } := by
  simp only [resetAssert]
  rw [if_neg (by simp [hn]), if_pos (by simp [hv, hr])]
  rfl

theorem refStop_of_running (hv : d.aon.vddAon = true) (hn : d.aon.resetN = true) (hr : d.aon.refclk = true) :
    refStop d = enterOff { domainsReset d true with aon := { d.aon with refclk := false } } := by
  simp only [refStop]
  rw [if_neg (by simp [hr]), if_pos (by simp [hv, hn])]
  rfl

/-- The device in BOOT, with its start begun. -/
def bootBegun (d : Dev) (a : Aon) : Dev :=
  { d with aon := { a with bootcnt := 0, cause := 1, attempt := 0, fallback := false }, power := {}, fw := { d.fw with mode := .boot } }

theorem resetRelease_of_held (hv : d.aon.vddAon = true) (hn : d.aon.resetN = false) (hr : d.aon.refclk = true) (st : Straps) :
    resetRelease d st = bootBegun d { d.aon with resetN := true, bootSrc := st.bootSrc, factoryEn := st.factoryEn, i2cAddr := st.i2cAddr } := by
  simp only [resetRelease]
  rw [if_neg (by simp [hn]), if_neg (by simp [hv]), if_pos (by exact hr)]
  rfl

theorem refBack_of_stopped (hv : d.aon.vddAon = true) (hn : d.aon.resetN = true) (hr : d.aon.refclk = false) :
    refBack d = bootBegun d { d.aon with refclk := true } := by
  simp only [refBack]
  rw [if_neg (by simp [hr]), if_pos (by simp [hv, hn])]
  rfl

end

/-- Settles O19: each edge empties the device (`Emptied`) or begins a start (`bootBegun`).  REFCLK's edges are those of RESET_N by the model's
choice (log entry 60). -/
theorem supplyResetAndClockStartAndStop : Obligations.SupplyResetAndClockStartAndStop := by
  intro st s a bare
  refine ⟨fun hv => ?rise, fun hv => ⟨?again, ?loss⟩, fun hv hn hr => ⟨?reset, ?stop⟩, fun hv hn hr => ?release, fun hv hn hr => ?back⟩
  case rise =>
    obtain ⟨hvdd, hcnt, hcause, hsrc, hfac, hi2c⟩ := tryBoot_powerRisen_aon (quiet s) st
    have hbare : bare (after s (tryBoot (powerRisen (quiet s) st) 0)) := ((((emptied_powerLost (quiet s)).with_aon _).with_aon _).tryBoot 0).after s
    refine ⟨_, run_to (f := fun d => vddRise d st) (vddRise_of_off (d := quiet s) hv st), hbare, ?_⟩
    rw [mode_after]
    simp only [after, settle_aon]
    exact ⟨hvdd, hcnt, hcause, hsrc, hfac, hi2c, mode_tryBoot_powerRisen (quiet s) st⟩
  case again => exact run_to (f := fun d => vddRise d st) (if_pos hv)
  case loss =>
    have hbare : bare (after s (enterOff (powerFallen (quiet s)))) := ((emptied_powerLost (quiet s)).with_aon _).enterOff.after s
    refine ⟨_, run_to (f := vddLoss) (vddLoss_of_on hv), hbare, ?_⟩
    rw [mode_after]
    simp only [after, settle_aon, settle_power]
    exact ⟨rfl, rfl, rfl⟩
  case reset =>
    have hbare := ((emptied_domainsReset (quiet s) true).with_aon { a with resetN := false }).enterOff.after s
    refine ⟨_, run_to (f := resetAssert) (resetAssert_of_running hv hn hr), hbare, ?_⟩
    rw [mode_after]
    simp only [after, settle_aon, settle_power, settle_hif_deviceEpoch]
    exact ⟨rfl, congrArg (fun b : Bool => if b then (1 : Half) else 0) hv, rfl, rfl⟩
  case stop =>
    have hbare := ((emptied_domainsReset (quiet s) true).with_aon { a with refclk := false }).enterOff.after s
    refine ⟨_, run_to (f := refStop) (refStop_of_running hv hn hr), hbare, ?_⟩
    rw [mode_after]
    simp only [after, settle_aon, settle_power, settle_hif_deviceEpoch]
    exact ⟨rfl, congrArg (fun b : Bool => if b then (1 : Half) else 0) hv, rfl, rfl⟩
  case release =>
    refine ⟨_, run_to (f := fun d => resetRelease d st) (resetRelease_of_held (d := quiet s) hv hn hr st), ?_⟩
    rw [mode_after]
    simp only [after, settle_aon, settle_power, settle_flash, settle_scene]
    exact ⟨rfl, rfl, rfl, rfl, rfl⟩
  case back =>
    refine ⟨_, run_to (f := refBack) (refBack_of_stopped hv hn hr), ?_⟩
    rw [mode_after]
    simp only [after, settle_aon, settle_power, settle_flash, settle_scene]
    exact ⟨rfl, rfl, rfl, rfl, rfl⟩

end Sys2Proof.Machine


/-! Starts (R481, R482, R485, R486, R491, R492). -/

namespace Sys2Proof.Machine

/-! A start that fails. -/

theorem booting_of {d : Dev} (hm : d.fw.mode = .boot) (hu : d.hif.ctrlUp = false) : booting d = true := by
  simp [booting, mode, hm, hu]

/-- The device of the next attempt. -/
def bootAgain (d : Dev) (reason : Byte) : Dev :=
  startBoot { domainsReset d false with aon := { d.aon with bootcnt := d.aon.bootcnt + 1, lastFail := reason } } 4

theorem startFails_of_lt {d : Dev} (h : d.aon.bootcnt.toNat < 2) (reason : Byte) : startFails d reason = bootAgain d reason := by
  unfold startFails
  rw [if_pos (by omega)]
  rfl
theorem startFails_of_le {d : Dev} (h : 2 ≤ d.aon.bootcnt.toNat) (reason : Byte) : startFails d reason = recoverySafe d reason :=
  if_neg (by omega)

/-- What an outcome says of a start that failed: the next attempt, or SAFE after the third. -/
def StartFailed (s : State) (reason : Byte) (o : Host.Outcome State Fault Refusal) : Prop :=
  let a := s.dev.aon
  (a.bootcnt.toNat < 2 → ∃ t, o = .next t ∧ mode t.dev = .boot ∧ t.dev.hif.ctrlUp = false ∧ t.dev.flash = flashKept s.dev.flash ∧
    t.dev.aon = { a with bootcnt := a.bootcnt + 1, lastFail := reason, cause := 4, attempt := a.bootcnt + 1, fallback := false }) ∧
  (2 ≤ a.bootcnt.toNat → ∃ t, o = .next t ∧ mode t.dev = .safe ∧ t.dev.hif.ctrlUp = true ∧ t.dev.hif.fault = 2 ∧
    t.dev.aon = { a with bootcnt := 3, safeReason := reason, lastFail := reason } ∧
    t.dev.flash = { flashKept s.dev.flash with recovery := true, running := 2 })

/-- A start fails on a device that differs from the one at rest in nothing a reset keeps. -/
theorem startFailed_run {s : State} {f : Dev → Dev} {d : Dev} {reason : Byte} (h : f (quiet s) = startFails d reason) (haon : d.aon = s.dev.aon)
    (hflash : d.flash = s.dev.flash) : StartFailed s reason (run f s) := by
  refine ⟨fun hlt => ?_, fun hle => ?_⟩
  · refine ⟨_, run_to (f := f) (h.trans (startFails_of_lt (haon ▸ hlt) reason)), ?_⟩
    rw [mode_after]
    simp only [after, settle_aon, settle_flash, settle_hif_ctrlUp]
    exact ⟨rfl, rfl, congrArg flashKept hflash, by rw [← haon]; rfl⟩
  · refine ⟨_, run_to (f := f) (h.trans (startFails_of_le (haon ▸ hle) reason)), ?_⟩
    rw [mode_after]
    simp only [after, settle_aon, settle_flash, settle_hif_ctrlUp, settle_hif_fault, recoverySafe, evMode, event_aon, event_flash,
      event_hif, event_fw_mode]
    exact ⟨rfl, rfl, (by decide : (0 : BitVec _) ||| 2 = 2), by rw [← haon]; rfl, by rw [← hflash]; rfl⟩

/-! A start that succeeds: what placing the image, enabling the engines and starting the domains leave alone. -/

/-- d' differs from d in nothing but engines, memory, domains, isolation and reports. -/
def StartSame (d d' : Dev) : Prop :=
  d' = { d with
    tiles := d'.tiles, scene := d'.scene, ports := d'.ports, mantle := d'.mantle, chain := d'.chain, seam := d'.seam, dom := d'.dom, mtx := d'.mtx
    fw := { d.fw with queue := d'.fw.queue, log := d'.fw.log, logSeq := d'.fw.logSeq, evqDrop := d'.fw.evqDrop } }

theorem StartSame.refl (d : Dev) : StartSame d d := rfl
theorem StartSame.trans {a b c : Dev} (h : StartSame a b) (k : StartSame b c) : StartSame a c := by
  unfold StartSame at *; rw [k, h]
theorem EvSame.start {a b : Dev} (h : EvSame a b) : StartSame a b := by
  unfold StartSame; unfold EvSame at h; rw [h]

theorem isolate_same (d : Dev) (i : Nat) (on : Bool) : StartSame d (isolate d i on) := by
  unfold isolate
  extract_lets other held
  split <;> rfl
theorem domState_same (d : Dev) (n : Nat) (new : DomState) (mt : MT) (dt : DT) : StartSame d (domState d n new mt dt) := by
  unfold domState; dsimp only
  have hmod : StartSame d (domMod d n (fun x => domEnter x new)) := rfl
  split
  · exact hmod
  · exact hmod.trans (evPortClock_same _ _ _ _ _ _ _ _).start
theorem domStart_same (d : Dev) (n : Nat) (c : DomCfg) : StartSame d (domStart d n c) :=
  StartSame.trans (b := domMod d n _) rfl (domState_same _ _ _ _ _)
theorem restartDomains_same (d : Dev) : StartSame d (restartDomains d) := by
  refine foldl_rel StartSame StartSame.refl (fun _ _ _ => StartSame.trans) _ (fun x n => ?_) _ d
  dsimp only
  split
  · exact domStart_same _ _ _
  · rfl

/-- A section placed writes memory alone. -/
theorem placeImage_same (d : Dev) (b : List Byte) (host : Bool) : StartSame d (placeImage d b host) := by
  refine foldl_rel (fun x y : Dev × Nat => StartSame x.1 y.1) (fun x => StartSame.refl x.1) (fun _ _ _ => StartSame.trans) _ (fun x e => ?_) _ (d, 0x390000)
  dsimp only
  split
  · rfl
  · split <;> rfl

/-- The mode that a start enters. -/
def startMode (d : Dev) : Mode := if d.aon.factoryEn && !d.flash.lock then .factory else .config

/-- The device as firmware starts to run, before it reports and starts domains. -/
def firmwareRuns (d : Dev) : Dev :=
  let m := startMode d
  powerAt (setMode (hif (enginesOn { d with aon := { d.aon with bootcnt := 0, safeReason := 0 } }) (fun h => { h with ctrlUp := true })) m) m

theorem startDone_eq (d : Dev) : startDone d = faultsFound (restartDomains (evMode (firmwareRuns d) (startMode d) .boot 2 0xFF)) := rfl

/-- What the device holds once firmware runs. -/
structure Started (d e : Dev) : Prop where
  mode : e.fw.mode = startMode d
  ctrlUp : e.hif.ctrlUp = true
  flash : e.flash = d.flash
  aon : e.aon = { d.aon with bootcnt := 0, safeReason := 0 }
  switching : e.power.switching = 0
  sense : e.sense = d.sense

theorem Started.same {d e e' : Dev} (h : Started d e) (k : StartSame e e') : Started d e' := by
  unfold StartSame at k
  rw [k]
  exact ⟨h.mode, h.ctrlUp, h.flash, h.aon, h.switching, h.sense⟩

theorem started_firmwareRuns (d : Dev) : Started d (firmwareRuns d) := by
  refine Started.same ?_ (foldl_rel StartSame StartSame.refl (fun _ _ _ => StartSame.trans) _ (fun x i => isolate_same x i _) _ _)
  exact ⟨rfl, rfl, rfl, rfl, rfl, rfl⟩

theorem faultsFound_of_sound {d : Dev} (ht : tempFault d = false) (hr : railFault d = false) :
    faultsFound d = senseMod d (fun s => { s with overdue := false }) := by
  have ht' : tempFault (senseMod d (fun s => { s with overdue := false })) = false := ht
  simp only [faultsFound]
  rw [if_neg (by simp [hr]), if_neg (by simp [ht'])]

theorem startDone_started {d : Dev} (ht : tempFault d = false) (hr : railFault d = false) : ∃ e, Started d e ∧ startDone d = senseMod e (fun s => { s with overdue := false }) := by
  have hreport : StartSame (firmwareRuns d) (restartDomains (evMode (firmwareRuns d) (startMode d) .boot 2 0xFF)) :=
    (event_same _ _ _).start.trans (restartDomains_same _)
  have hs := (started_firmwareRuns d).same hreport
  refine ⟨_, hs, ?_⟩
  rw [startDone_eq, faultsFound_of_sound]
  · simp only [tempFault, hs.sense]; exact ht
  · simp only [railFault, hs.sense]; exact hr

/-- The device that starts the image in slot k, its versions entered. -/
def slotImage (d : Dev) (k : Nat) : Dev :=
  let s := tabGet d.flash.slots k
  placeImage (runImage d k s.bytes s.version) s.bytes false

theorem slotImage_same (d : Dev) (k : Nat) :
    StartSame (runImage d k (tabGet d.flash.slots k).bytes (tabGet d.flash.slots k).version) (slotImage d k) := placeImage_same _ _ _

section
variable {d : Dev} (hb : booting d = true) (hsrc : d.aon.bootSrc = false)
include hb hsrc

theorem startSuccess_of_noSlot (hk : bootSlot d.flash d.aon.attempt.toNat = none) : startSuccess d = startFails d 1 := by
  simp only [startSuccess, hb, hsrc, hk]
  rfl
theorem startSuccess_of_bad {k : Nat} {r : Byte} (hk : bootSlot d.flash d.aon.attempt.toNat = some k)
    (hr : imageFails d.flash (tabGet d.flash.slots k).bytes false = some r) : startSuccess d = startFails d r := by
  simp only [startSuccess, hb, hsrc, hk, hr]
  rfl

/-- The device of a start whose image in slot k passes its checks, before firmware runs. -/
def imageReady (d : Dev) (k : Nat) : Dev :=
  let other := k != nextBoot d.flash
  let e := slotImage d k
  let e : Dev := if other then { e with flash := recWrite e.flash k (recState e.flash) } else e
  hif { e with aon := { e.aon with bootSource := BitVec.ofNat 2 k, fallback := other } } (fun h => { h with fwSlot := k == 1 })

theorem startSuccess_of_good {k : Nat} (hk : bootSlot d.flash d.aon.attempt.toNat = some k)
    (hr : imageFails d.flash (tabGet d.flash.slots k).bytes false = none) : startSuccess d = startDone (imageReady d k) := by
  simp only [startSuccess, hb, hsrc, hk, hr]
  rfl

end

theorem recWrite_running (f : Flash) (k : Nat) (st : Nat → SlotState) : (recWrite f k st).running = f.running ∧ (recWrite f k st).recovery = f.recovery ∧
    (recWrite f k st).fwVersion = f.fwVersion ∧ (recWrite f k st).lock = f.lock := by
  unfold recWrite; dsimp only; split <;> exact ⟨rfl, rfl, rfl, rfl⟩

/-- The image that is ready to run: its slot and its version; straps and sensors stand. -/
theorem imageReady_holds (d : Dev) (k : Nat) : let e := imageReady d k
    e.flash.running = k ∧ e.flash.recovery = false ∧ e.flash.fwVersion = (tabGet d.flash.slots k).version ∧ e.flash.lock = d.flash.lock ∧
    e.aon.bootSource = BitVec.ofNat 2 k ∧ e.aon.factoryEn = d.aon.factoryEn ∧ e.sense = d.sense := by
  have h := slotImage_same d k
  unfold StartSame at h
  simp only [imageReady]
  split
  · obtain ⟨hrun, hrec, hver, hlock⟩ := recWrite_running (slotImage d k).flash k (recState (slotImage d k).flash)
    rw [h] at hrun hrec hver hlock ⊢
    exact ⟨hrun, hrec, hver, hlock, rfl, rfl, rfl⟩
  · rw [h]
    exact ⟨rfl, rfl, rfl, rfl, rfl, rfl, rfl⟩

/-! The host's image (R492). -/

/-- The device once the doorbell has been taken. -/
def doorbellTaken (d : Dev) : Dev := hif d (fun h => { h with dblH2D := h.dblH2D &&& 0xFFFFFFFE })

section
variable {d : Dev} (hb : booting d = true) (hsrc : d.aon.bootSrc = true) (hd : d.hif.dblH2D.getLsbD 0 = true) (image : List Byte)
include hb hsrc hd

theorem hostLoad_of_tooLong (hn : 2097152 < u32 (getMbx d 0).inCell 8) : hostLoad d image = startFails (doorbellTaken d) 1 := by
  simp only [hostLoad]
  rw [if_neg (by simp [hb, hsrc, hd]), if_pos (by exact hn)]
  rfl

theorem hostLoad_of_good (hn : u32 (getMbx d 0).inCell 8 ≤ 2097152) (hgood : imageFails d.flash (slice image 0 (u32 (getMbx d 0).inCell 8)) true = none) :
    ∃ e, hostLoad d image = e ∧ e.flash = { d.flash with hostImage := slice image 0 (u32 (getMbx d 0).inCell 8) } ∧ e.aon = d.aon ∧
      e.hif = (doorbellTaken d).hif := by
  refine ⟨_, rfl, ?_⟩
  simp only [hostLoad]
  rw [if_neg (by simp [hb, hsrc, hd]), if_neg (by exact Nat.not_lt.mpr hn)]
  have hgood' : imageFails (tilesMod (doorbellTaken d) (fun T => { T with mem := memWriteBytes T.mem 0x180000 (slice image 0 (u32 (getMbx d 0).inCell 8)) })).flash
    (slice image 0 (u32 (getMbx d 0).inCell 8)) true = none := hgood
  split
  case h_1 r h => exact absurd (h.symm.trans hgood') (by simp)
  case h_2 h => exact ⟨rfl, rfl, rfl⟩

end

theorem imageFails_of_good {f : Flash} {b : List Byte} {host : Bool} (hc : imageCrcOk b = true) (hs : imageSigned f b = true)
    (hp : imagePlaced b host = true) : imageFails f b host = none := by simp [imageFails, hc, hs, hp]

theorem stepFail_of_booting {d : Dev} (hb : booting d = true) {reason : Byte} (hr : reason ∈ ([1, 2, 3, 4, 5, 6, 9] : List Byte)) :
    stepFail d reason = startFails d reason :=
  if_pos (by rw [hb, List.contains_iff_mem.mpr hr]; rfl)

theorem hostBootTimeout_of_waiting {d : Dev} (hb : booting d = true) (hsrc : d.aon.bootSrc = true) (hi : d.flash.hostImage = [])
    (hd : d.hif.dblH2D.getLsbD 0 = false) : hostBootTimeout d = startFails d 3 :=
  if_pos (by rw [hb, hsrc, hi, hd]; rfl)

/-- Settles O20: a failing start is `startFails` on a device that keeps what a reset keeps (`startFailed_run`); a start that succeeds runs
`startDone` on the image that is ready (`startDone_started`).  That success is judged by the image in the slot is the model's choice
(log entries 59 and 132). -/
theorem startsSucceedOrFail : Obligations.StartsSucceedOrFail := by
  intro s hm hu a fails
  have hb : booting (quiet s) = true := booting_of (d := quiet s) hm hu
  refine ⟨fun reason hr => ?step, fun hsrc hi hd => ?timeout, fun image hsrc hd => ⟨fun hn => ?long, fun hn hc hs hp => ?load⟩,
    fun k hsrc hk hgood ht hr => ?success, fun k r hsrc hk hbad => ?bad, fun hsrc hk => ?noSlot⟩
  case step => exact startFailed_run (f := fun d => stepFail d reason) (stepFail_of_booting hb hr) rfl rfl
  case timeout => exact startFailed_run (f := hostBootTimeout) (hostBootTimeout_of_waiting (d := quiet s) hb hsrc hi hd) rfl rfl
  case long => exact startFailed_run (f := fun d => hostLoad d image) (hostLoad_of_tooLong (d := quiet s) hb hsrc hd image hn) rfl rfl
  case load =>
    obtain ⟨e, he, hflash, haon, hhif⟩ := hostLoad_of_good (d := quiet s) hb hsrc hd image hn (imageFails_of_good hc hs hp)
    refine ⟨_, run_to (f := fun d => hostLoad d image) he, ?_⟩
    simp only [after, settle_flash, settle_aon, settle_hif_dblH2D]
    exact ⟨hflash, haon, congrArg (·.dblH2D) hhif⟩
  case success =>
    obtain ⟨hrun, hrec, hver, hlock, hsource, hfac, hsense⟩ := imageReady_holds (quiet s) k
    obtain ⟨e, he, hdone⟩ := startDone_started (d := imageReady (quiet s) k) (by simp only [tempFault, hsense]; exact ht)
      (by simp only [railFault, hsense]; exact hr)
    refine ⟨_, run_to (f := startSuccess) ((startSuccess_of_good (d := quiet s) hb hsrc hk hgood).trans hdone), ?_⟩
    rw [mode_after]
    simp only [after, settle_flash, settle_aon, settle_hif_ctrlUp, settle_power]
    refine ⟨?_, he.ctrlUp, ?_⟩
    · refine he.mode.trans ?_
      simp only [startMode, hfac, hlock]
      rfl
    · rw [senseMod, he.flash, he.aon]
      exact ⟨hrun, hrec, hver, rfl, rfl, hsource, he.switching⟩
  case bad => exact startFailed_run (f := startSuccess) (startSuccess_of_bad (d := quiet s) hb hsrc hk hbad) rfl rfl
  case noSlot => exact startFailed_run (f := startSuccess) (startSuccess_of_noSlot (d := quiet s) hb hsrc hk) rfl rfl

end Sys2Proof.Machine


/-! What a mode transition and a switching power domain leave alone (R480, R499): the mode, CTRL_UP and the state of power. -/

namespace Sys2Proof.Machine

/-- The mode, CTRL_UP and the power domains. -/
def ctl (d : Dev) : Mode × Bool × Power := (d.fw.mode, d.hif.ctrlUp, d.power)

theorem ctl_mode {d e : Dev} (h : ctl e = ctl d) : e.fw.mode = d.fw.mode := congrArg Prod.fst h
theorem ctl_ctrlUp {d e : Dev} (h : ctl e = ctl d) : e.hif.ctrlUp = d.hif.ctrlUp := congrArg (fun x => x.2.1) h
theorem ctl_power {d e : Dev} (h : ctl e = ctl d) : e.power = d.power := congrArg (fun x => x.2.2) h

/-! Read off a record's fields and back, by rewriting: simp takes no definitional step in the side conditions below. -/

@[simp] theorem ctl_mk (aon power flash) (fw : Fw) (hif : Hif) (mbx time dom scene chain mantle seam mics cal track sense selftest ports net twin render tiles
    dma mtx hostWrites free) :
    ctl (Dev.mk aon power flash fw hif mbx time dom scene chain mantle seam mics cal track sense selftest ports net twin render tiles dma mtx
      hostWrites free) = (fw.mode, hif.ctrlUp, power) := by simp only [ctl]
@[simp] theorem ctl_eta (d : Dev) : (d.fw.mode, d.hif.ctrlUp, d.power) = ctl d := by simp only [ctl]

theorem EvSame.ctl {d e : Dev} (h : EvSame d e) : ctl e = ctl d := by unfold EvSame at h; rw [h]; rfl

section
variable (d : Dev)

@[simp] theorem ctl_event (n : Nat) (payload : List Byte) : ctl (event d n payload) = ctl d := (event_same d n payload).ctl
@[simp] theorem ctl_evFault (a b c e : Nat) (m : MT) (x y z : Nat) : ctl (evFault d a b c e m x y z) = ctl d := (evFault_same d a b c e m x y z).ctl
@[simp] theorem ctl_evPortClock (a b c e g : Nat) (m : MT) (t : DT) : ctl (evPortClock d a b c e g m t) = ctl d := (evPortClock_same d a b c e g m t).ctl
@[simp] theorem ctl_foldl {α : Type} (f : Dev → α → Dev) (h : ∀ d a, ctl (f d a) = ctl d) (l : List α) : ctl (l.foldl f d) = ctl d :=
  foldl_keeps ctl f h l d

/-! Parts of the device changed alone. -/

@[simp] theorem ctl_domMod (n : Nat) (f : Domain → Domain) : ctl (domMod d n f) = ctl d := by simp [domMod]
@[simp] theorem ctl_tilesMod (f : Tiles → Tiles) : ctl (tilesMod d f) = ctl d := by simp [tilesMod]
@[simp] theorem ctl_sceneMod (f : Scene → Scene) : ctl (sceneMod d f) = ctl d := by simp [sceneMod]
@[simp] theorem ctl_portsMod (f : Ports → Ports) : ctl (portsMod d f) = ctl d := by simp [portsMod]
@[simp] theorem ctl_twinMod (f : Twin → Twin) : ctl (twinMod d f) = ctl d := by simp [twinMod]
@[simp] theorem ctl_timeMod (f : TimeUnit → TimeUnit) : ctl (timeMod d f) = ctl d := by simp [timeMod]
@[simp] theorem ctl_trackMod (f : Track → Track) : ctl (trackMod d f) = ctl d := by simp [trackMod]
@[simp] theorem ctl_netMod (f : Net → Net) : ctl (netMod d f) = ctl d := by simp [netMod]
@[simp] theorem ctl_netPortMod (p : Nat) (f : NetPort → NetPort) : ctl (netPortMod d p f) = ctl d := by simp [netPortMod]
@[simp] theorem ctl_ringMod (r : Nat) (f : Ring → Ring) : ctl (ringMod d r f) = ctl d := by simp [ringMod]
@[simp] theorem ctl_mbxMod (ch : Nat) (f : Mailbox → Mailbox) : ctl (mbxMod d ch f) = ctl d := by simp [mbxMod]
@[simp] theorem ctl_fw (f : Fw → Fw) (h : ∀ x, (f x).mode = x.mode) : ctl (fw d f) = ctl d := by simp [fw, h]
@[simp] theorem ctl_deposit (addr : Nat) (bytes : List Byte) : ctl (deposit d addr bytes) = ctl d := by simp [deposit]

/-! Answers. -/

@[simp] theorem ctl_addLog (code severity ch : Nat) (args : List Byte) : ctl (addLog d code severity ch args) = ctl d :=
  (addLog_same d code severity ch args).ctl
@[simp] theorem ctl_queueReply (t : Taken) (m : OutMsg) : ctl (queueReply d t m) = ctl d := by
  unfold queueReply; dsimp only
  (repeat' split) <;> simp [queueMsg]
@[simp] theorem ctl_reply (t : Taken) (st : Status) (body : List Byte) (bulk : Bool) : ctl (reply d t st body bulk) = ctl d := by
  unfold reply
  (repeat' split) <;> simp

/-! Requests withdrawn and answered (R428, R439, R499). -/

@[simp] theorem ctl_dropCommit (c : Commit) : ctl (dropCommit d c) = ctl d := by simp [dropCommit]
@[simp] theorem ctl_dropWaits (w : Wait) : ctl (dropWaits d w) = ctl d := by
  obtain ⟨taken, what⟩ := w
  cases what <;> simp [dropWaits, dropWait]
@[simp] theorem ctl_dropSwitch (r : SwitchReq) : ctl (dropSwitch d r) = ctl d := by simp [dropSwitch]
@[simp] theorem ctl_dropCancel (c : Cancel) : ctl (dropCancel d c) = ctl d := by simp [dropCancel]
@[simp] theorem ctl_dropMode : ctl (dropMode d) = ctl d := by
  unfold dropMode
  (repeat' split) <;> simp
theorem ctl_pendingWork {w : Taken × (Dev → Dev)} (hw : w ∈ pendingWork d) (e : Dev) : ctl (w.2 e) = ctl e := by
  revert w
  simp only [pendingWork, List.forall_mem_append, List.forall_mem_map, List.forall_mem_flatMap]
  simp
@[simp] theorem ctl_cancelWhere (p : Taken → Bool) : ctl (cancelWhere d p) = ctl d := by
  refine List.foldlRecOn (motive := fun e => ctl e = ctl d) _ _ rfl (fun e he w hw => ?_)
  split
  · rw [ctl_reply, ctl_pendingWork d hw, he]
  · exact he
@[simp] theorem ctl_answerStanding (p : Taken → Bool) : ctl (answerStanding d p) = ctl d := by simp [answerStanding]
@[simp] theorem ctl_cancelForMode (m : Mode) : ctl (cancelForMode d m) = ctl d := by simp [cancelForMode]

/-! The time unit follows the links (R54, R57). -/

@[simp] theorem ctl_refsChanged : ctl (refsChanged d) = ctl d := by simp [refsChanged]
@[simp] theorem ctl_ptpMod (f : Ptp → Ptp) : ctl (ptpMod d f) = ctl d := by simp [ptpMod]
@[simp] theorem ctl_ptpTo (new : PtpState) : ctl (ptpTo d new) = ctl d := by
  unfold ptpTo; dsimp only; split <;> simp
@[simp] theorem ctl_putRoles (r : Nat → PtpRole) : ctl (putRoles d r) = ctl d := by simp [putRoles, ptpPortMod]
@[simp] theorem ctl_selectForeign (sp : Nat) (b : Heard) (switch : Bool) : ctl (selectForeign d sp b switch) = ctl d := by
  unfold selectForeign slaveRoles; dsimp only
  (repeat' split) <;> simp
@[simp] theorem ctl_selectOwn : ctl (selectOwn d) = ctl d := by
  unfold selectOwn ownRoles; dsimp only
  (repeat' split) <;> simp
@[simp] theorem ctl_bmca : ctl (bmca d) = ctl d := by
  unfold bmca
  split
  · rfl
  · split <;> simp
@[simp] theorem ctl_masterLost : ctl (masterLost d) = ctl d := by
  unfold masterLost; split <;> simp
@[simp] theorem ctl_ptpListen : ctl (ptpListen d) = ctl d := by
  unfold ptpListen; split <;> simp [ptpPortMod]
@[simp] theorem ctl_ptpLinks : ctl (ptpLinks d) = ctl d := by
  unfold ptpLinks; split <;> simp

/-! A link goes down (R337). -/

@[simp] theorem ctl_nsTx (p i n : Nat) : ctl (nsTx d p i n) = ctl d := by simp [nsTx]
@[simp] theorem ctl_txDone (ring n status : Nat) (stamp : DT) : ctl (txDone d ring n status stamp) = ctl d := by
  unfold txDone; split <;> simp [ringAdvance]
@[simp] theorem ctl_dropSegments (p ring : Nat) : ctl (dropSegments d p ring) = ctl d := by simp [dropSegments]
@[simp] theorem ctl_linkDown (p : Nat) (remote : Bool) : ctl (linkDown d p remote) = ctl d := by
  unfold linkDown linkChanged netSticky; dsimp only
  (repeat' split) <;> simp

/-! The data path stops and what is found changed is reported (R478, R520). -/

@[simp] theorem ctl_loseContent : ctl (loseContent d) = ctl d := by simp [loseContent]
@[simp] theorem ctl_reportChange (kind i new old : Nat) : ctl (reportChange d kind i new old) = ctl d := by
  simp [reportChange, evSense, apply_ite ctl]
@[simp] theorem ctl_reportChanges (old : List (Nat × Nat × Nat)) : ctl (reportChanges d old) = ctl d := by
  refine ctl_foldl _ _ (fun e x => ?_) _
  dsimp only
  split <;> simp
@[simp] theorem ctl_pathStops : ctl (pathStops d) = ctl d := by simp [pathStops]
theorem StartSame.ctl {d e : Dev} (h : StartSame d e) : ctl e = ctl d := by unfold StartSame at h; rw [h]; rfl
@[simp] theorem ctl_restartDomains : ctl (restartDomains d) = ctl d := (restartDomains_same d).ctl
@[simp] theorem ctl_isolate (i : Nat) (on : Bool) : ctl (isolate d i on) = ctl d := (isolate_same d i on).ctl
@[simp] theorem ctl_trackRestart : ctl (trackRestart d) = ctl d := by simp [trackRestart]
@[simp] theorem ctl_timeAnew : ctl (timeAnew d) = ctl d := by simp [timeAnew]

/-! A power domain switches (R474, R499). -/

@[simp] theorem ctl_pdCancel (i : Nat) : ctl (pdCancel d i) = ctl d := by
  unfold pdCancel
  split
  · refine ctl_foldl _ _ (fun e k => ?_) _
    dsimp only
    split <;> simp
  · (repeat' split) <;> simp
@[simp] theorem ctl_pdCounters (i : Nat) : ctl (pdCounters d i) = ctl d := by
  unfold pdCounters; dsimp only
  (repeat' split) <;> simp
@[simp] theorem ctl_pdClear (i : Nat) : ctl (pdClear d i) = ctl d := by
  have h : ctl (pdCounters d i) = ctl d := ctl_pdCounters d i
  simp [pdClear, objsWhere, chainsWhere, apply_ite ctl, h]
@[simp] theorem ctl_answerPower (i : Nat) : ctl (answerPower d i) = ctl d := by simp [answerPower]

end

end Sys2Proof.Machine


/-! Modes, power domains and resets of the PCIe endpoint (R402, R478–R483, R496, R499). -/

namespace Sys2Proof.Machine

/-! A power domain switches. -/

/-- The state of power once domain i has switched. -/
def powerSwitched (p : Power) (i : Nat) : Power :=
  let b : Half := BitVec.ofNat 16 (2 ^ i)
  { en := p.en, switching := p.switching &&& ~~~b, on := if p.en.getLsbD i then p.on ||| b else p.on &&& ~~~b }

section
variable (d : Dev) (i : Nat)

/-- A domain cleared keeps the state of power that is then written. -/
theorem ctl_powered {d e : Dev} (h : ctl e = ctl d) (f : Power → Power) :
    ctl { e with power := f e.power } = (d.fw.mode, d.hif.ctrlUp, f d.power) := by
  rw [ctl_mk, ctl_mode h, ctl_ctrlUp h, ctl_power h]

theorem ctl_pdSwitched : ctl (pdSwitched d i) = (d.fw.mode, d.hif.ctrlUp, if d.power.switching.getLsbD i then powerSwitched d.power i else d.power) := by
  unfold pdSwitched
  cases hsw : d.power.switching.getLsbD i
  case false => rfl
  case true =>
    rw [if_neg (by simp), if_pos rfl]
    dsimp only
    cases hen : d.power.en.getLsbD i
    case false =>
      simp [powerSwitched, hen]
    case true =>
      rw [if_pos rfl, ctl_answerPower, ctl_isolate]
      refine (ctl_powered (e := if d.power.on.getLsbD i then _ else _) (d := { d with power := { d.power with switching := d.power.switching &&& ~~~(BitVec.ofNat 16 (2 ^ i)) } })
        ?_ (fun p => { p with on := p.on ||| BitVec.ofNat 16 (2 ^ i) })).trans ?_
      · split
        · rfl
        · exact ctl_pdClear _ _
      · simp [powerSwitched, hen]

theorem ctl_pdSwitchedAll :
    ctl (pdSwitchedAll d i) = (d.fw.mode, d.hif.ctrlUp, if d.power.switching.getLsbD i then powerSwitched d.power i else d.power) := by
  have hcancel : ∀ c : Bool, ctl (if c then pdCancel d i else d) = ctl d := by
    intro c
    split
    · exact ctl_pdCancel d i
    · rfl
  have hswitch : ∀ c : Bool, ctl (pdSwitched (if c then pdCancel d i else d) i) =
      (d.fw.mode, d.hif.ctrlUp, if d.power.switching.getLsbD i then powerSwitched d.power i else d.power) := by
    intro c
    rw [ctl_pdSwitched, ctl_mode (hcancel c), ctl_ctrlUp (hcancel c), ctl_power (hcancel c)]
  unfold pdSwitchedAll
  dsimp only
  split
  · exact (ctl_timeAnew _).trans (hswitch _)
  · exact hswitch _

theorem pdSwitchedAll_idle (h : d.power.switching.getLsbD i = false) : pdSwitchedAll d i = d := by
  have hs : pdSwitched d i = d := if_pos (by rw [h]; rfl)
  have hstart : (i == 1 && d.power.switching.getLsbD 1 && d.power.en.getLsbD 1 && !d.power.on.getLsbD 1) = false := by
    rcases eq_or_ne i 1 with rfl | hi
    · simp only [h, Bool.and_false, Bool.false_and]
    · simp only [beq_false_of_ne hi, Bool.false_and]
  simp only [pdSwitchedAll, h, hstart, Bool.false_and, Bool.false_eq_true, if_false, hs]

end

/-! A transition completes. -/

/-- The device on which a transition's mode is entered. -/
def modeReady (d : Dev) (c : ModeChange) : Dev :=
  let old := mode d
  let m := c.target
  let d := if old = .retain then ptpLinks (hif d (fun h => { h with ctrlUp := true })) else d
  let d := cancelForMode d m
  let d := if losesPath m then pathStops d else d
  let d := powerAsk d (pdWanted d m)
  let d := (List.range 16).foldl pdSwitchedAll d
  let d := if old = .retain then reportChanges d d.fw.reported.states else d
  let d := if m == .config && losesPath old then restartDomains d else d
  let tracks (x : Mode) : Bool := x == .service || x == .twin
  if tracks m && !tracks old then trackRestart d else d

/-- The mode entered, reported and answered. -/
def modeEntered (d : Dev) (c : ModeChange) (old : Mode) (timedOut : Bool) : Dev :=
  let m := c.target
  let d := evMode (setMode d m) m old c.cause ((c.asked.map (·.req.ch.val)).getD 0xFF)
  match c.asked with
  | some t => reply d t (if timedOut then .timeout else .ok) (modeBody m old (now d))
  | none => d

/-- What RETAIN and SAFE do when they have been entered. -/
def modeSettled (d : Dev) (m : Mode) : Dev :=
  if m = .retain then hif (fw d (fun f => { f with reported := { states := reportStates d } })) (fun h => { h with ctrlUp := false })
  else if m = .safe then hif d (fun h => { h with fault := h.fault ||| 2 }) else d

theorem modeDone_eq {d : Dev} {c : ModeChange} (hc : d.fw.changing = some c) (hl : ¬(c.target = .twin ∧ d.twin.state = .linking)) (timedOut : Bool) :
    modeDone d timedOut = modeSettled (modeEntered (modeReady d c) c (mode d) timedOut) c.target := by
  simp only [modeDone, hc]
  rw [if_neg hl]
  rfl
theorem modeDone_of_linking {d : Dev} {c : ModeChange} (hc : d.fw.changing = some c) (hl : c.target = .twin ∧ d.twin.state = .linking) (timedOut : Bool) :
    modeDone d timedOut = d := by
  simp only [modeDone, hc]
  exact if_pos hl

/-- The mode and CTRL_UP. -/
def running (d : Dev) : Mode × Bool := (d.fw.mode, d.hif.ctrlUp)

theorem running_of_ctl {d e : Dev} (h : ctl e = ctl d) : running e = running d := Prod.ext (ctl_mode h) (ctl_ctrlUp h)
theorem running_if {p : Prop} [Decidable p] {d e : Dev} (h : running e = running d) : running (if p then e else d) = running d := by
  split
  · exact h
  · rfl
theorem running_pdSwitchedAll (d : Dev) (i : Nat) : running (pdSwitchedAll d i) = running d :=
  congrArg (fun x : Mode × Bool × Power => (x.1, x.2.1)) (ctl_pdSwitchedAll d i)

/-- What comes before a mode is entered keeps the old mode, and firmware running. -/
theorem running_modeReady {d : Dev} (hup : d.hif.ctrlUp = true) (c : ModeChange) : running (modeReady d c) = running d := by
  have hwake : running (hif d (fun h => { h with ctrlUp := true })) = running d := Prod.ext rfl hup.symm
  unfold modeReady
  refine (running_if (running_of_ctl (ctl_trackRestart _))).trans ?_
  refine (running_if (running_of_ctl (ctl_restartDomains _))).trans ?_
  refine (running_if (running_of_ctl (ctl_reportChanges _ _))).trans ?_
  refine (foldl_keeps running _ running_pdSwitchedAll _ _).trans ?_
  refine (rfl : running (powerAsk _ _) = running _).trans ?_
  refine (running_if (running_of_ctl (ctl_pathStops _))).trans ?_
  refine (running_of_ctl (ctl_cancelForMode _ _)).trans ?_
  exact running_if ((running_of_ctl (ctl_ptpLinks _)).trans hwake)

/-- A reply keeps the firmware's modes, and every register of the host interface. -/
theorem reply_modes (d : Dev) (t : Taken) (st : Status) (body : List Byte) (bulk : Bool) : let e := reply d t st body bulk
    e.fw.mode = d.fw.mode ∧ e.fw.prevMode = d.fw.prevMode ∧ e.fw.changing = d.fw.changing ∧ e.hif = d.hif := by
  unfold reply queueReply
  dsimp only
  (repeat' split) <;> exact ⟨rfl, rfl, rfl, rfl⟩

theorem modeEntered_holds (d : Dev) (c : ModeChange) (old : Mode) (timedOut : Bool) : let e := modeEntered d c old timedOut
    e.fw.mode = c.target ∧ e.fw.prevMode = d.fw.mode ∧ e.fw.changing = none ∧ e.hif = { d.hif with irqMode := true } := by
  have hev := event_same (setMode d c.target) 1
    (p8 (modeCode c.target) ++ p8 (modeCode old) ++ p8 c.cause ++ p8 (if c.target = .safe then (setMode d c.target).aon.safeReason.toNat else 0) ++
      p8 ((c.asked.map (·.req.ch.val)).getD 0xFF) ++ zeros 3 ++ p64 (now (setMode d c.target)).toNat)
  simp only [modeEntered]
  split
  case h_1 t _ =>
    obtain ⟨hmode, hprev, hchanging, hhif⟩ := reply_modes (evMode (setMode d c.target) c.target old c.cause ((c.asked.map (·.req.ch.val)).getD 0xFF)) t
      (if timedOut then .timeout else .ok) (modeBody c.target old (now (evMode (setMode d c.target) c.target old c.cause ((c.asked.map (·.req.ch.val)).getD 0xFF)))) false
    exact ⟨hmode.trans hev.fw_mode, hprev.trans hev.fw_prevMode, hchanging.trans hev.fw_changing, hhif.trans hev.hif⟩
  case h_2 => exact ⟨hev.fw_mode, hev.fw_prevMode, hev.fw_changing, hev.hif⟩

theorem modeSettled_holds (d : Dev) (m : Mode) : let e := modeSettled d m
    e.fw.mode = d.fw.mode ∧ e.fw.prevMode = d.fw.prevMode ∧ e.fw.changing = d.fw.changing ∧ e.hif.irqMode = d.hif.irqMode ∧
      e.hif.ctrlUp = (if m = .retain then false else d.hif.ctrlUp) ∧ (m = .safe → e.hif.fault.getLsbD 1 = true) := by
  simp only [modeSettled]
  split
  case isTrue h => exact ⟨rfl, rfl, rfl, rfl, rfl, fun hs => absurd (h.symm.trans hs) (by decide)⟩
  case isFalse h =>
    split
    · exact ⟨rfl, rfl, rfl, rfl, rfl, fun _ => by simp [hif]⟩
    case isFalse hs => exact ⟨rfl, rfl, rfl, rfl, rfl, fun h => absurd h hs⟩

end Sys2Proof.Machine


/-! The sender epochs of the PCIe channels rise (R402, R411, R416), and O22. -/

namespace Sys2Proof.Machine

/-! What withdrawing and answering requests leaves alone. -/

/-- The epoch and the outbound FIFO of each channel. -/
def boxes (d : Dev) (n : Nat) : Byte × List (List Byte) := ((getMbx d n).epoch, (getMbx d n).outFifo)

/-- d' differs from d in nothing but what a withdrawn or answered request writes: no FIFO and no epoch is among it. -/
def WithdrawSame (d d' : Dev) : Prop :=
  boxes d' = boxes d ∧
  d' = { d with
    fw := { d.fw with queue := d'.fw.queue, log := d'.fw.log, logSeq := d'.fw.logSeq, evqDrop := d'.fw.evqDrop, bulks := d'.fw.bulks,
                      commits := d'.fw.commits, waits := d'.fw.waits, changing := d'.fw.changing, chains := d'.fw.chains }
    mbx := d'.mbx, twin := d'.twin, scene := d'.scene, mantle := d'.mantle, net := { d.net with ports := d'.net.ports }, tiles := d'.tiles
    ports := d'.ports, selftest := d'.selftest }

theorem WithdrawSame.refl (d : Dev) : WithdrawSame d d := ⟨rfl, rfl⟩
theorem WithdrawSame.trans {a b c : Dev} (h : WithdrawSame a b) (k : WithdrawSame b c) : WithdrawSame a c := by
  obtain ⟨hbox, hdev⟩ := h
  obtain ⟨kbox, kdev⟩ := k
  exact ⟨kbox.trans hbox, by rw [kdev, hdev]⟩

/-- What is withdrawn keeps sessions, DMA channels, host rings, the mode, the render engine and the domains. -/
theorem WithdrawSame.kept {d d' : Dev} (h : WithdrawSame d d') : d'.fw.sessions = d.fw.sessions ∧ d'.dma = d.dma ∧ d'.net.rings = d.net.rings ∧
    d'.fw.mode = d.fw.mode ∧ d'.render = d.render ∧ d'.dom = d.dom := by
  have k := congrArg (fun x : Dev => (x.fw.sessions, x.dma, x.net.rings, x.fw.mode, x.render, x.dom)) h.2
  simp only [Prod.mk.injEq] at k
  exact k

section
variable (d : Dev)

theorem boxes_mbxMod (ch : Nat) (f : Mailbox → Mailbox) (h : ∀ m, ((f m).epoch, (f m).outFifo) = (m.epoch, m.outFifo)) : boxes (mbxMod d ch f) = boxes d := by
  funext n
  simp only [boxes, getMbx, mbxMod]
  rcases eq_or_ne n ch with rfl | hn
  · rw [tabGet_tabMod_same, h]
  · rw [tabGet_tabMod_ne _ _ _ _ hn]

theorem addLog_withdraw (code severity ch : Nat) (args : List Byte) : WithdrawSame d (addLog d code severity ch args) := ⟨rfl, rfl⟩
theorem queueReply_withdraw (t : Taken) (m : OutMsg) : WithdrawSame d (queueReply d t m) := by
  unfold queueReply
  dsimp only
  split
  · exact ⟨boxes_mbxMod d _ _ (fun _ => rfl), rfl⟩
  · split <;> exact ⟨rfl, rfl⟩
theorem reply_withdraw (t : Taken) (st : Status) (body : List Byte) (bulk : Bool) : WithdrawSame d (reply d t st body bulk) := by
  have hlog : ∀ c : Bool, WithdrawSame d (if c then d else addLog d (opCode t.op) 1 t.req.ch.val (logArgs t (replyMsg t st body bulk).payload)) := by
    intro c
    split
    · exact .refl d
    · exact addLog_withdraw _ _ _ _ _
  unfold reply
  dsimp only
  split
  · exact (hlog _).trans (queueReply_withdraw _ _ _)
  · exact hlog _

/-- Each way in which a waiting request is withdrawn. -/
theorem pendingWork_withdraw {w : Taken × (Dev → Dev)} (hw : w ∈ pendingWork d) (e : Dev) : WithdrawSame e (w.2 e) := by
  have hwaits : ∀ (w : Wait), WithdrawSame e (dropWaits e w) := by
    rintro ⟨taken, what⟩
    cases what <;> exact ⟨rfl, rfl⟩
  have hmode : WithdrawSame e (dropMode e) := by
    unfold dropMode
    split
    · dsimp only
      split <;> exact ⟨rfl, rfl⟩
    · exact .refl e
  revert w
  simp only [pendingWork, List.forall_mem_append, List.forall_mem_map, List.forall_mem_flatMap]
  refine ⟨⟨⟨⟨⟨⟨⟨⟨⟨?_, ?_⟩, ?_⟩, ?_⟩, ?_⟩, ?_⟩, ?_⟩, ?_⟩, ?_⟩, ?_⟩
  · exact fun c _ => ⟨rfl, rfl⟩
  · exact fun w _ => hwaits w
  · exact fun t _ => hmode
  · exact fun j _ => ⟨rfl, rfl⟩
  · exact fun c _ => ⟨rfl, rfl⟩
  · exact fun t _ => ⟨rfl, rfl⟩
  · exact fun p _ g _ => ⟨rfl, rfl⟩
  · exact fun w _ => ⟨rfl, rfl⟩
  · exact fun r _ => ⟨rfl, rfl⟩
  · exact fun c _ => ⟨rfl, rfl⟩

theorem cancelWhere_withdraw (p : Taken → Bool) : WithdrawSame d (cancelWhere d p) := by
  refine List.foldlRecOn (motive := WithdrawSame d) _ _ (.refl d) (fun e he w hw => ?_)
  split
  · exact (he.trans (pendingWork_withdraw d hw e)).trans (reply_withdraw _ _ _ _ _)
  · exact he
theorem replies_withdraw {α : Type} (f : Dev → α → Dev) (h : ∀ e a, WithdrawSame e (f e a)) (l : List α) : WithdrawSame d (l.foldl f d) :=
  foldl_rel WithdrawSame WithdrawSame.refl (fun _ _ _ => WithdrawSame.trans) f h l d
theorem answerStanding_withdraw (p : Taken → Bool) : WithdrawSame d (answerStanding d p) :=
  WithdrawSame.trans (b := fw d _) ⟨rfl, rfl⟩ (replies_withdraw _ _ (fun _ _ => reply_withdraw _ _ _ _ _) _)
theorem dropBulks_withdraw (ch : Nat) : WithdrawSame d (dropBulks d ch) := ⟨rfl, rfl⟩
theorem cancelChannel_withdraw (ch : Nat) : WithdrawSame d (cancelChannel d ch) := by
  unfold cancelChannel
  extract_lets bs d1 own
  have h1 : WithdrawSame d d1 := replies_withdraw d _ (fun _ _ => reply_withdraw _ _ _ _ _) bs
  exact ((h1.trans (answerStanding_withdraw d1 own)).trans (cancelWhere_withdraw _ own)).trans (dropBulks_withdraw _ ch)

end

/-! New sender epochs. -/

/-- e is d with the epoch of each channel of chs one higher, its session ended, its outbound FIFO flushed. -/
structure EpochsUp (chs : List Nat) (d e : Dev) : Prop where
  session : ∀ n, getSession e n = if n ∈ chs then {} else getSession d n
  box : ∀ n, boxes e n = if n ∈ chs then ((getMbx d n).epoch + 1, []) else boxes d n
  dma : e.dma = d.dma
  rings : e.net.rings = d.net.rings
  mode : e.fw.mode = d.fw.mode
  render : e.render = d.render
  dom : e.dom = d.dom

/-- The channel's mailbox, queue and chain as the epoch rises, before what waits on it is withdrawn. -/
def epochOpened (d : Dev) (ch : Nat) : Dev :=
  let m := getMbx d ch
  let q := d.fw.queue.filter (fun o => o.ch == ch)
  let held := (d.twin.issued.filter (fun i => (i.reply.map (·.ch)) == some ch)).length
  let chainCells := ((tabGet d.fw.chains ch).map (·.cells)).getD 0
  let d := mbxMod d ch (fun x => { x with epoch := x.epoch + 1, outFifo := [], staleOut := x.staleOut + BitVec.ofNat 16 (m.outFifo.length + q.length + held),
                                          staleIn := x.staleIn + BitVec.ofNat 16 chainCells })
  let d := fw d (fun f => { f with queue := f.queue.filter (fun o => o.ch != ch), chains := tabSet f.chains ch none })
  twinMod d (fun t => { t with issued := t.issued.map (fun i => if (i.reply.map (·.ch)) == some ch then { i with reply := none } else i) })

theorem newSenderEpoch_eq (d : Dev) (ch : Nat) :
    newSenderEpoch d ch = sessionMod (cancelChannel (dropBulks (epochOpened d ch) ch) ch) ch (fun _ => {}) := rfl

theorem boxes_epochOpened (d : Dev) (ch n : Nat) : boxes (epochOpened d ch) n = if n = ch then ((getMbx d n).epoch + 1, []) else boxes d n := by
  simp only [boxes, getMbx, epochOpened, twinMod, fw, mbxMod]
  rcases eq_or_ne n ch with rfl | hn
  · rw [tabGet_tabMod_same, if_pos rfl]
  · rw [tabGet_tabMod_ne _ _ _ _ hn, if_neg hn]

theorem getSession_sessionMod (d : Dev) (ch n : Nat) (f : Session → Session) :
    getSession (sessionMod d ch f) n = if n = ch then f (getSession d n) else getSession d n := by
  simp only [getSession, sessionMod, fw]
  rcases eq_or_ne n ch with rfl | hn
  · rw [tabGet_tabMod_same, if_pos rfl]
  · rw [tabGet_tabMod_ne _ _ _ _ hn, if_neg hn]

theorem epochsUp_of_withdrawn {d e : Dev} {ch : Nat} (h : WithdrawSame (epochOpened d ch) e) : EpochsUp [ch] d (sessionMod e ch (fun _ => {})) := by
  obtain ⟨hfw, hdma, hrings, hmode, hrender, hdom⟩ := h.kept
  have hsession : ∀ n, getSession e n = getSession d n := fun n => congrArg (fun t => tabGet t n) hfw
  refine ⟨fun n => ?_, fun n => ?_, hdma, hrings, hmode, hrender, hdom⟩
  · rw [getSession_sessionMod, hsession]
    exact if_congr List.mem_singleton.symm rfl rfl
  · refine (congrFun h.1 n).trans ((boxes_epochOpened d ch n).trans ?_)
    exact if_congr List.mem_singleton.symm rfl rfl

theorem epochsUp_newSenderEpoch (d : Dev) (ch : Nat) : EpochsUp [ch] d (newSenderEpoch d ch) := by
  rw [newSenderEpoch_eq]
  exact epochsUp_of_withdrawn ((dropBulks_withdraw _ ch).trans (cancelChannel_withdraw _ ch))

theorem EpochsUp.cons {ch : Nat} {chs : List Nat} {d e e' : Dev} (hch : ch ∉ chs) (h : EpochsUp [ch] d e) (k : EpochsUp chs e e') :
    EpochsUp (ch :: chs) d e' := by
  refine ⟨fun n => (k.session n).trans ?_, fun n => (k.box n).trans ?_, k.dma.trans h.dma, k.rings.trans h.rings, k.mode.trans h.mode,
    k.render.trans h.render, k.dom.trans h.dom⟩
  · rw [h.session]
    by_cases hl : n ∈ chs
    · rw [if_pos hl, if_pos (List.mem_cons_of_mem _ hl)]
    · rw [if_neg hl]
      exact if_congr (by simp [hl]) rfl rfl
  · by_cases hl : n ∈ chs
    · have hne : n ≠ ch := fun e => hch (e ▸ hl)
      have hb : (getMbx e n).epoch = (getMbx d n).epoch :=
        congrArg Prod.fst ((h.box n).trans (if_neg (fun hm => hne (List.mem_singleton.1 hm))))
      rw [if_pos hl, if_pos (List.mem_cons_of_mem _ hl), hb]
    · rw [if_neg hl, h.box]
      exact if_congr (by simp [hl]) rfl rfl
theorem EpochsUp.hif {chs : List Nat} {d e : Dev} (h : EpochsUp chs d e) (f : Hif → Hif) : EpochsUp chs d (Machine.hif e f) :=
  ⟨h.session, h.box, h.dma, h.rings, h.mode, h.render, h.dom⟩

theorem epochsUp_foldl {chs : List Nat} (hn : chs.Nodup) (d : Dev) : EpochsUp chs d (chs.foldl newSenderEpoch d) := by
  induction chs generalizing d with
  | nil => exact ⟨fun _ => by simp, fun _ => by simp, rfl, rfl, rfl, rfl, rfl⟩
  | cons ch chs ih =>
    obtain ⟨hch, hrest⟩ := List.nodup_cons.1 hn
    have h := epochsUp_newSenderEpoch d ch
    rw [List.foldl_cons]
    generalize newSenderEpoch d ch = e at h ⊢
    exact h.cons hch (ih hrest e)

/-! Resets of the PCIe endpoint. -/

/-- Host-owned channels aborted. -/
def hostAborted (d : Dev) : Dev := (List.range 8).foldl (fun d n => dmaMod d n (fun _ => { state := .aborted })) d

/-- Host rings stopped. -/
def hostRingsStopped (d : Dev) : Dev :=
  (List.range 8).foldl (fun d r => ringMod d r (fun x => { x with ctrl := x.ctrl &&& 0xFFFFFFFE, dropping := false, stalled := false })) d

/-- The device of R402 before the epochs rise. -/
def hostStopped (d : Dev) : Dev := hostRingsStopped (hostAborted d)

theorem hostStopped_dma {d : Dev} {n : Nat} (h : n < 8) : (getDma (hostStopped d) n).state = .aborted :=
  congrArg (·.state) (tabGet_tabMods_idem (g := fun _ : DmaChan => { state := .aborted }) (fun _ => rfl) (xs := List.range 8) (List.mem_range.2 h) d.dma.ch)

/-- d' differs from d in nothing but DMA channels and the network. -/
def HostSame (d d' : Dev) : Prop := d' = { d with dma := d'.dma, net := d'.net }

theorem HostSame.refl (d : Dev) : HostSame d d := rfl
theorem HostSame.trans {a b c : Dev} (h : HostSame a b) (k : HostSame b c) : HostSame a c := by
  unfold HostSame at *; rw [k, h]
theorem hostAborted_same (d : Dev) : HostSame d (hostAborted d) := by
  refine foldl_rel HostSame HostSame.refl (fun _ _ _ => HostSame.trans) _ (fun x n => ?_) _ d
  rfl
theorem hostRingsStopped_same (d : Dev) : HostSame d (hostRingsStopped d) := by
  refine foldl_rel HostSame HostSame.refl (fun _ _ _ => HostSame.trans) _ (fun x r => ?_) _ d
  rfl
theorem hostStopped_same (d : Dev) : HostSame d (hostStopped d) := (hostAborted_same d).trans (hostRingsStopped_same _)
theorem HostSame.kept {d d' : Dev} (h : HostSame d d') : d'.fw = d.fw ∧ d'.mbx = d.mbx ∧ d'.render = d.render ∧ d'.dom = d.dom := by
  have k := congrArg (fun x : Dev => (x.fw, x.mbx, x.render, x.dom)) h
  simp only [Prod.mk.injEq] at k
  exact k

/-- A ring stopped. -/
def ringStopped (x : Ring) : Ring := { x with ctrl := x.ctrl &&& 0xFFFFFFFE, dropping := false, stalled := false }

theorem ringStopped_idem (x : Ring) : ringStopped (ringStopped x) = ringStopped x := by
  simp [ringStopped, BitVec.and_assoc]
theorem hostStopped_ring {d : Dev} {n : Nat} (h : n < 8) : (tabGet (hostStopped d).net.rings n).ctrl = (tabGet d.net.rings n).ctrl &&& 0xFFFFFFFE :=
  congrArg (·.ctrl) (tabGet_tabMods_idem ringStopped_idem (xs := List.range 8) (List.mem_range.2 h) d.net.rings)

/-- The channels of PCIe. -/
def pcieChannels : List Nat := [0, 1, 2, 3, 6, 7]

theorem pcieResetOp_eq (d : Dev) :
    pcieResetOp d = hif (pcieChannels.foldl newSenderEpoch (hostStopped d)) (fun h => { h with irqEn := 0, dblD2HEn := 0 }) := rfl
theorem epochsUp_pcieResetOp (d : Dev) : EpochsUp pcieChannels (hostStopped d) (pcieResetOp d) := by
  have h := epochsUp_foldl (chs := pcieChannels) (by decide) (hostStopped d)
  rw [pcieResetOp_eq]
  generalize pcieChannels.foldl newSenderEpoch (hostStopped d) = e at h ⊢
  exact h.hif _

/-- An erased slot's request is answered, and the other waits go on. -/
theorem slotErased_holds (d : Dev) : (slotErased d).flash = d.flash ∧ (slotErased d).fw.commits = d.fw.commits ∧
    (slotErased d).fw.waits = d.fw.waits.filter (fun w => match w.what with | .slotErase _ => false | _ => true) := by
  have hfold : ∀ (f : Wait → List Byte) (l : List Wait) (e : Dev), let e' := l.foldl (fun d w => reply d w.taken .ok (f w)) e
      e'.flash = e.flash ∧ e'.fw.commits = e.fw.commits ∧ e'.fw.waits = e.fw.waits := by
    intro f l
    induction l with
    | nil => exact fun e => ⟨rfl, rfl, rfl⟩
    | cons w l ih =>
      intro e
      have hone : let e' := reply e w.taken .ok (f w); e'.flash = e.flash ∧ e'.fw.commits = e.fw.commits ∧ e'.fw.waits = e.fw.waits := by
        unfold reply queueReply
        dsimp only
        (repeat' split) <;> exact ⟨rfl, rfl, rfl⟩
      obtain ⟨hf, hc, hw⟩ := hone
      obtain ⟨kf, kc, kw⟩ := ih (reply e w.taken .ok (f w))
      exact ⟨kf.trans hf, kc.trans hc, kw.trans hw⟩
  obtain ⟨hf, hc, hw⟩ := hfold _ _ _
  refine ⟨hf, hc, hw.trans ?_⟩
  refine List.filter_congr (fun w _ => ?_)
  obtain ⟨taken, what⟩ := w
  cases what <;> rfl

/-- What a reset of the endpoint leaves, as O22 says it. -/
theorem pcieReset_holds {s : State} {e : Dev} (h : EpochsUp pcieChannels (hostStopped (quiet s)) e) : let t := after s e
    (∀ n, n < 8 → (getDma t.dev n).state = .aborted ∧ (tabGet t.dev.net.rings n).ctrl = (tabGet s.dev.net.rings n).ctrl &&& 0xFFFFFFFE) ∧
    (∀ n, n ∈ [0, 1, 2, 3, 6, 7] → getSession t.dev n = {} ∧ (getMbx t.dev n).outFifo = [] ∧ (getMbx t.dev n).epoch = (getMbx s.dev n).epoch + 1) ∧
    getSession t.dev 4 = getSession s.dev 4 ∧ getSession t.dev 5 = getSession s.dev 5 ∧ mode t.dev = mode s.dev ∧ t.dev.render = s.dev.render ∧
    t.dev.dom = s.dev.dom := by
  intro t
  obtain ⟨kfw, kmbx, krender, kdom⟩ := (hostStopped_same (quiet s)).kept
  have hsession : ∀ n, getSession t.dev n = if n ∈ pcieChannels then {} else getSession s.dev n := fun n =>
    (congrArg (fun x => tabGet x n) (settle_fw_sessions e)).trans ((h.session n).trans (if_congr Iff.rfl rfl (congrArg (fun f : Fw => tabGet f.sessions n) kfw)))
  have hbox : ∀ n, n ∈ pcieChannels → (getMbx t.dev n).epoch = (getMbx s.dev n).epoch + 1 ∧ (getMbx t.dev n).outFifo = [] := by
    intro n hn
    have hopened : boxes e n = ((getMbx s.dev n).epoch + 1, []) :=
      (h.box n).trans ((if_pos hn).trans (congrArg (fun x : Tab Mailbox => ((tabGet x n).epoch + 1, [])) kmbx))
    obtain ⟨hepoch, hfifo⟩ := Prod.mk.inj hopened
    exact ⟨(congrArg (fun x : Tab Mailbox => (tabGet x n).epoch) (settle_mbx e)).trans hepoch,
      (congrArg (fun x : Tab Mailbox => (tabGet x n).outFifo) (settle_mbx e)).trans hfifo⟩
  have hmode : e.fw.mode = s.dev.fw.mode := h.mode.trans (congrArg (·.mode) kfw)
  refine ⟨fun n hn => ⟨?_, ?_⟩, fun n hn => ⟨?_, ?_, ?_⟩, ?_, ?_, (mode_after s e).trans (hmode.trans (mode_eq s.dev).symm),
    (settle_render e).trans (h.render.trans krender), (settle_dom e).trans (h.dom.trans kdom)⟩
  · have hdma : t.dev.dma = (hostStopped (quiet s)).dma := (settle_dma e).trans h.dma
    exact (congrArg (fun x => (tabGet x.ch n).state) hdma).trans (hostStopped_dma (d := quiet s) hn)
  · have hrings : t.dev.net.rings = (hostStopped (quiet s)).net.rings := (congrArg (·.rings) (settle_net e)).trans h.rings
    exact (congrArg (fun x => (tabGet x n).ctrl) hrings).trans (hostStopped_ring (d := quiet s) hn)
  · exact (hsession n).trans (if_pos hn)
  · exact (hbox n hn).2
  · exact (hbox n hn).1
  · exact (hsession 4).trans (if_neg (by decide))
  · exact (hsession 5).trans (if_neg (by decide))

/-! A wake, and the completion of a transition. -/

theorem powerPlan_on (d : Dev) : (powerPlan d).power.on = d.power.on := rfl
theorem powerPlan_switching (d : Dev) :
    (powerPlan d).power.switching = ((powerPlan d).power.en ^^^ d.power.on) ||| (pdResets d.power &&& (powerPlan d).power.en) := rfl
theorem modeDone_runs {d : Dev} (hup : d.hif.ctrlUp = true) (timedOut : Bool) :
    onlyIf (d.hif.ctrlUp || mode d == .retain) (fun d => modeDone d timedOut) d = modeDone d timedOut :=
  if_pos (by rw [hup]; rfl)

theorem wakeUp_of_allowed {d : Dev} {pin dbl : Bool} (hm : d.fw.mode = .retain) (hc : d.fw.changing = none)
    (h : (pin = true ∧ d.aon.wakeEn.getLsbD 0 = true) ∨ (dbl = true ∧ d.aon.wakeEn.getLsbD 1 = true ∧ d.hif.dblH2D.getLsbD 31 = true)) :
    let p := pin && d.aon.wakeEn.getLsbD 0
    let b := dbl && d.aon.wakeEn.getLsbD 1 && d.hif.dblH2D.getLsbD 31
    wakeUp d pin dbl = powerPlan (fw { d with aon := { d.aon with cause := 5, wokePin := p, wokeDbl := b } }
      (fun f => { f with changing := some { target := .config, cause := 2, asked := none } })) := by
  intro p b
  have hw : (p || b) = true := by
    rcases h with ⟨hp, hen⟩ | ⟨hb, hen, hdbl⟩
    · simp only [p, hp, hen, Bool.and_self, Bool.true_or]
    · simp only [b, hb, hen, hdbl, Bool.and_self, Bool.or_true]
  have hgo : ¬(mode d != .retain || d.fw.changing.isSome || !(p || b)) = true := by
    rw [hc, hw, show mode d = .retain from hm]
    decide
  exact if_neg hgo
theorem wakeUp_of_none (d : Dev) : wakeUp d false false = d := by
  unfold wakeUp
  exact if_pos (by simp)

/-- Settles O22: a wake plans power for CONFIG; a transition enters its mode on a device that keeps the old one (`running_modeReady`); a
domain switches alone (`ctl_pdSwitchedAll`); a reset of the endpoint raises the epochs of its channels (`pcieReset_holds`).  The readings of
log entries 63 and 24 are the model's choice. -/
theorem modesAndPowerDomainsChange : Obligations.ModesAndPowerDomainsChange := by
  intro s
  refine ⟨fun pin dbl hm hc => ⟨fun h => ?wake, ?asleep⟩, fun c timedOut hc hup => ⟨fun ht hl => ?linking, fun hl => ?done⟩,
    fun pd => ⟨fun h => ?idle, fun h => ?switch⟩, fun hpd c hcmd => ?reset, ?erase⟩
  case wake =>
    refine ⟨_, run_to (f := fun d => wakeUp d pin dbl) (wakeUp_of_allowed (d := quiet s) hm hc h), ?_⟩
    rw [mode_after]
    simp only [after, settle_aon, settle_power, settle_fw_changing]
    exact ⟨rfl, hm, rfl, powerPlan_on _, powerPlan_switching _⟩
  case asleep =>
    rintro rfl rfl
    exact run_to (f := fun d => wakeUp d false false) (wakeUp_of_none (quiet s))
  case linking =>
    refine run_to (f := fun d => onlyIf (d.hif.ctrlUp || mode d == .retain) (fun d => modeDone d timedOut) d) ?_
    exact (modeDone_runs (d := quiet s) hup timedOut).trans (modeDone_of_linking (d := quiet s) hc ⟨ht, hl⟩ timedOut)
  case done =>
    have hrun := running_modeReady (d := quiet s) hup c
    obtain ⟨hmode, hprev, hchanging, hhif⟩ := modeEntered_holds (modeReady (quiet s) c) c (mode (quiet s)) timedOut
    obtain ⟨kmode, kprev, kchanging, kirq, kup, kfault⟩ :=
      modeSettled_holds (modeEntered (modeReady (quiet s) c) c (mode (quiet s)) timedOut) c.target
    refine ⟨_, run_to (f := fun d => onlyIf (d.hif.ctrlUp || mode d == .retain) (fun d => modeDone d timedOut) d)
      ((modeDone_runs (d := quiet s) hup timedOut).trans (modeDone_eq (d := quiet s) hc (fun h => hl h.1 h.2) timedOut)), ?_⟩
    rw [mode_after]
    simp only [after, settle_fw_prevMode, settle_fw_changing, settle_hif_irqMode, settle_hif_ctrlUp, settle_hif_fault]
    refine ⟨kmode.trans hmode, kprev.trans (hprev.trans (congrArg Prod.fst hrun)), kchanging.trans hchanging, kirq.trans (congrArg (·.irqMode) hhif), ?_, kfault⟩
    have hkeep : (modeEntered (modeReady (quiet s) c) c (mode (quiet s)) timedOut).hif.ctrlUp = true :=
      (congrArg (·.ctrlUp) hhif).trans ((congrArg Prod.snd hrun).trans hup)
    refine kup.trans ?_
    rw [hkeep]
    cases c.target <;> rfl
  case idle => exact run_to (f := fun d => pdSwitchedAll d pd.val) (pdSwitchedAll_idle (quiet s) pd.val h)
  case switch =>
    refine ⟨_, run_to (f := fun d => pdSwitchedAll d pd.val) rfl, ?_⟩
    simp only [after, settle_power]
    exact (congrArg (fun x : Mode × Bool × Power => x.2.2) (ctl_pdSwitchedAll (quiet s) pd.val)).trans (if_pos h)
  case reset =>
    have hepochs := epochsUp_pcieResetOp (quiet s)
    rcases hcmd with rfl | rfl
    · obtain ⟨h1, h2, h3, h4, h5, h6, h7⟩ := pcieReset_holds hepochs
      exact ⟨_, run_to (f := fun d => onlyIf (pdOn d 2) pcieResetOp d) (if_pos hpd), h1, h2, h3, h4, h5, h6, h7, nofun⟩
    · obtain ⟨h1, h2, h3, h4, h5, h6, h7⟩ := pcieReset_holds (hepochs.hif (fun h => { h with msixMask := 0xFFFF, msixPend := 0, msixTable := [] }))
      refine ⟨_, run_to (f := fun d => onlyIf (pdOn d 2) (fun d => hif (pcieResetOp d) (fun h => { h with msixMask := 0xFFFF, msixPend := 0, msixTable := [] })) d)
        (if_pos hpd), h1, h2, h3, h4, h5, h6, h7, fun _ => ?_⟩
      simp only [after, settle_hif_msixMask, settle_hif_msixTable]
      exact ⟨rfl, rfl⟩
  case erase =>
    obtain ⟨hf, hc, hw⟩ := slotErased_holds (quiet s)
    refine ⟨_, run_to (f := slotErased) rfl, ?_⟩
    simp only [after, settle_flash, settle_fw_commits, settle_fw_waits]
    exact ⟨hf, hc, hw⟩

end Sys2Proof.Machine


/-! Programs of the DMA engine (R455–R457, R461–R464, R467). -/

namespace Sys2Proof.Machine

/-! The word of an instruction. -/

theorem u8_slice_zero {bs : List Byte} {n i : Nat} (h : i < n) : u8 (slice bs 0 n) i = u8 bs i := by
  unfold u8 slice
  rcases Nat.lt_or_ge i bs.length with hi | hi
  · simp [h, hi]
  · have hpad : i - min n bs.length < n - min n bs.length := by omega
    rw [List.getD_append_right _ _ _ _ (by simpa using hi.trans' (Nat.min_le_right ..))]
    simp [hi, hpad]

/-! One change of a channel after another. -/

section
variable (d : Dev) (n : Nat)

theorem dmaMod_dmaMod (f g : DmaChan → DmaChan) : dmaMod (dmaMod d n f) n g = dmaMod d n (fun c => g (f c)) := by
  simp only [dmaMod, tabMod, tabGet_tabSet_same, tabSet_tabSet]

/-! The end of an instruction without RECORD, on a channel that moves nothing. -/

section
variable {d n} {flags : Nat} (hflags : bit flags 1 = false)
include hflags

theorem dmaEnds_of_noRecord (recFlags : Nat) (mv : DmaMove) (pc : Nat) (next : DmaState) : dmaEnds d n flags recFlags mv pc next =
    dmaMod d n (fun c => { c with move := none, wait := none, state := next, pc := pc, irq := if next = .idle then c.irq ||| 4 else c.irq }) := by
  rw [dmaEnds, if_neg (by rw [hflags]; decide), dmaMod_dmaMod]

/-- The program goes on at pc. -/
theorem dmaEnds_running (hst : (getDma d n).state = .running) (hmv : (getDma d n).move = none) (recFlags : Nat) (mv : DmaMove) (pc : Nat) :
    dmaEnds d n flags recFlags mv pc .running = dmaMod d n (fun c => { c with wait := none, pc := pc }) := by
  rw [dmaEnds_of_noRecord hflags]
  refine dmaMod_congr ?_
  rw [if_neg (by decide), hst, hmv]

/-- The program goes on with the next instruction. -/
theorem dmaNext_running (hst : (getDma d n).state = .running) (hmv : (getDma d n).move = none) (recFlags : Nat) (mv : DmaMove) :
    dmaNext d n flags recFlags mv = dmaMod d n (fun c => { c with wait := none, pc := c.pc + 1 }) :=
  (dmaEnds_running hflags hst hmv recFlags mv _).trans (dmaMod_congr rfl)

end

/-! A channel error without a queue for its record (R467). -/

theorem getDma_evFault (a b c e : Nat) (m : MT) (x y z k : Nat) : getDma (evFault d a b c e m x y z) k = getDma d k :=
  congrArg (fun q : Dma => tabGet q.ch k) (evFault_same d a b c e m x y z).dma

theorem getDma_matrixCounted (p : Prop) [Decidable p] (addr : Nat) (read : Bool) (k : Nat) :
    getDma (if p then matrixCount d addr read else d) k = getDma d k := by split <;> rfl

theorem dmaRecordDue_of_noQueue {d : Dev} {n : Nat} (h : (getDma d n).cqSize = 0) (r : DmaRecord) : dmaRecordDue d n r =
    dmaMod d n (fun c => { c with state := r.next, pc := r.pc, stalled := none,
                                  irq := c.irq ||| (if r.next = .idle then 4 else if r.next = .error then 2 else 0) }) :=
  if_pos (by rw [h]; decide)

/-- The channel is in ERROR with the code, its instruction over. -/
theorem dmaError_same {d : Dev} {n : Nat} (h : (getDma d n).cqSize = 0) (code addr : Nat) (read : Bool) :
    let c := getDma (dmaError d n code addr read) n
    c.state = .error ∧ c.lastCode = code ∧ c.irq = (getDma d n).irq ||| 2 ∧ c.move = none ∧ c.wait = none := by
  intro c
  have hc : c = getDma (dmaError d n code addr read) n := rfl
  rw [dmaError, dmaRecordDue_of_noQueue, getDma_dmaMod_same, getDma_evFault, getDma_dmaMod_same, getDma_matrixCounted] at hc
  · rw [hc]
    exact ⟨rfl, rfl, rfl, rfl, rfl⟩
  · rw [getDma_evFault, getDma_dmaMod_same, getDma_matrixCounted]
    exact h

theorem dmaError_ne {d : Dev} {n : Nat} (h : (getDma d n).cqSize = 0) (code addr : Nat) (read : Bool) {k : Nat} (hk : k ≠ n) :
    getDma (dmaError d n code addr read) k = getDma d k := by
  rw [dmaError, dmaRecordDue_of_noQueue, getDma_dmaMod_ne _ hk, getDma_evFault, getDma_dmaMod_ne _ hk, getDma_matrixCounted]
  rw [getDma_evFault, getDma_dmaMod_same, getDma_matrixCounted]
  exact h

end

/-! An instruction of a channel that runs. -/

theorem dmaRowOwn_of_opcode {own : Nat} {i : DmaIssue} (h : u8 i.word 0 = own) : dmaRowOwn own i = true := by
  simp [dmaRowOwn, h]

section
variable {ch : Fin 32} {i : DmaIssue} {s : State}

theorem dmaRow_to {own : Nat} {f : Dev → List Byte → Dev} {d : Dev} (hown : dmaRowOwn own i = true) (h : dmaInstr (quiet s) ch.val i f = d) :
    dmaRow own ch i f s = .next (after s d) := by
  rw [dmaRow, if_pos hown]
  exact run_to (f := fun d => dmaInstr d ch.val i f) h

variable {d : Dev} {n : Nat} (hst : (getDma d n).state = .running) (hmv : (getDma d n).move = none) (hfetch : i.fetchErr = 0)
  (hprog : 8 ≤ n → dmaDenies d n (dmaPcAddr (getDma d n)) ≠ some 1)
include hst hmv hfetch hprog

theorem dmaInstr_of_running (hword : u8 i.word 1 < 8) (f : Dev → List Byte → Dev) : dmaInstr d n i f = f d (slice i.word 0 32) := by
  simp only [dmaInstr]
  rw [if_neg (by rw [hst, hmv]; decide), if_neg (fun h => hprog h.1 h.2), if_neg (by simpa using hfetch), if_neg (by omega)]
theorem dmaInstr_of_reserved (hword : 8 ≤ u8 i.word 1) (f : Dev → List Byte → Dev) : dmaInstr d n i f = dmaBad d n := by
  simp only [dmaInstr]
  rw [if_neg (by rw [hst, hmv]; decide), if_neg (fun h => hprog h.1 h.2), if_neg (by simpa using hfetch), if_pos hword]

end

/-! Each instruction (R457, R461–R464). -/

section
variable {d : Dev} {n : Nat} {w : List Byte}

theorem dmaMove_of_good (hbad : moveBad n w = false) (hlen : u32 w 24 ≠ 0) (hcheck : moveCheck (moveAddrs (getDma d n) w) w = none) :
    dmaMove n d w = dmaMod d n (fun c => { moveAddrs c w with
      move := some { flags := u8 w 1, mflags := u8 w 2, swap := u8 w 3, burst := u8 w 4, line := u8 w 5, total := u32 w 24, left := u32 w 24 } }) := by
  simp only [dmaMove]
  rw [if_neg (by rw [hbad]; decide), if_neg hlen, getDma_dmaMod_same, hcheck]
  exact dmaMod_dmaMod _ _ _ _

/-- The passes that are left, the one that ends now among them. -/
def loopLeft (c : DmaChan) (w : List Byte) : Nat := if c.act0 = none then u32 w 4 - 1 else c.lc0.toNat

theorem loopLeft_eq (c : DmaChan) (w : List Byte) : (if c.act0.isNone = true then u32 w 4 - 1 else c.lc0.toNat) = loopLeft c w :=
  if_congr Option.isNone_iff_eq_none rfl rfl

section
variable (hflags : bit (u8 w 1) 1 = false) (hst : (getDma d n).state = .running) (hmv : (getDma d n).move = none)
include hflags hst hmv

theorem dmaLoop_forever (hbad : loopBad (getDma d n) w = false) (hcount : u32 w 4 = 0) :
    dmaLoop n d w = dmaMod d n (fun c => { c with wait := none, pc := c.pc - u16 w 8 }) := by
  simp only [dmaLoop]
  rw [if_neg (by rw [hbad]; decide), if_pos hcount, dmaEnds_running hflags hst hmv]
  exact dmaMod_congr rfl

theorem dmaLoop_again (hbad : loopBad (getDma d n) w = false) (hfirst : u8 w 2 = 0) (hcount : u32 w 4 ≠ 0) (hleft : 0 < loopLeft (getDma d n) w) :
    dmaLoop n d w = dmaMod d n (fun c =>
      { c with wait := none, lc0 := BitVec.ofNat 32 (loopLeft (getDma d n) w - 1), act0 := some c.pc, pc := c.pc - u16 w 8 }) := by
  simp only [dmaLoop, hfirst, show ((0 : Nat) == 1) = false from rfl, Bool.false_eq_true, if_false, loopLeft_eq]
  rw [if_neg (by rw [hbad]; decide), if_neg hcount, if_pos hleft, dmaEnds_running hflags (by simpa using hst) (by simpa using hmv), dmaMod_dmaMod]
  exact dmaMod_congr rfl
theorem dmaLoop_done (hbad : loopBad (getDma d n) w = false) (hfirst : u8 w 2 = 0) (hcount : u32 w 4 ≠ 0) (hleft : loopLeft (getDma d n) w = 0) :
    dmaLoop n d w = dmaMod d n (fun c => { c with wait := none, lc0 := 0, act0 := none, pc := c.pc + 1 }) := by
  simp only [dmaLoop, hfirst, show ((0 : Nat) == 1) = false from rfl, Bool.false_eq_true, if_false, loopLeft_eq]
  rw [if_neg (by rw [hbad]; decide), if_neg hcount, if_neg (by omega), dmaNext_running hflags (by simpa using hst) (by simpa using hmv), dmaMod_dmaMod]
  rfl

end

/-- The condition that a WAIT names. -/
def waitOf (d : Dev) (w : List Byte) : DmaWait :=
  { flags := u8 w 1, kind := u8 w 2, index := u8 w 3, stop := if u32 w 4 = 0 then none else some (now d + BitVec.ofNat 64 (1000 * u32 w 4)) }

theorem dmaWait_of_good (hbad : waitBad n w = false) : dmaWait n d w =
    if waitHolds d n (waitOf d w) false then waitEnds d n (waitOf d w) else dmaMod d n (fun c => { c with state := .waiting, wait := some (waitOf d w) }) :=
  if_neg (by rw [hbad]; decide)

/-- A bit that is cleared reads 0. -/
theorem getLsbD_w1c_pow {v : Word} {i : Nat} (hi : i < 32) : (w1c v (BitVec.ofNat 32 (2 ^ i))).getLsbD i = false := by
  simp only [w1c, BitVec.getLsbD_and, BitVec.getLsbD_not, BitVec.getLsbD_ofNat, Nat.testBit_two_pow_self, hi, decide_true, Bool.and_true,
    Bool.not_true, Bool.and_false]

theorem waitBad_index {k : Nat} (hbad : waitBad n w = false) (hk : u8 w 2 = k) (hkind : k = 2 ∨ k = 5) : u8 w 3 < 32 := by
  simp only [waitBad, hk] at hbad
  rcases hkind with rfl | rfl
  · simpa using (Bool.or_eq_false_iff.1 hbad).2
  · have h := (Bool.or_eq_false_iff.1 hbad).2
    simp at h
    split at h <;> omega

/-- The device once the doorbell bit or the flag of a WAIT is cleared. -/
def waitCleared (d : Dev) (x : DmaWait) : Dev :=
  let b : Word := BitVec.ofNat 32 (2 ^ x.index)
  if x.kind = 2 then hif d (fun h => { h with dblH2D := w1c h.dblH2D b })
  else if x.kind = 5 then { d with dma := { d.dma with flags := w1c d.dma.flags b } } else d

theorem getDma_waitCleared (d : Dev) (x : DmaWait) (k : Nat) : getDma (waitCleared d x) k = getDma d k := by
  simp only [waitCleared]
  split
  · rfl
  · split <;> rfl

theorem waitCleared_holds {d : Dev} {x : DmaWait} (hindex : x.kind = 2 ∨ x.kind = 5 → x.index < 32) : let e := waitCleared d x
    (x.kind = 5 → e.dma.flags.getLsbD x.index = false) ∧ (x.kind = 2 → e.hif.dblH2D.getLsbD x.index = false) ∧
    (x.kind ≠ 5 → e.dma.flags = d.dma.flags) ∧ (x.kind ≠ 2 → e.hif.dblH2D = d.hif.dblH2D) := by
  simp only [waitCleared]
  split
  case isTrue h => exact ⟨fun h5 => absurd (h.symm.trans h5) (by decide), fun _ => getLsbD_w1c_pow (hindex (.inl h)), fun _ => rfl, fun h2 => absurd h h2⟩
  case isFalse h =>
    split
    case isTrue h5 => exact ⟨fun _ => getLsbD_w1c_pow (hindex (.inr h5)), fun h2 => absurd h2 h, fun hn => absurd h5 hn, fun _ => rfl⟩
    case isFalse h5 => exact ⟨fun h => absurd h h5, fun h2 => absurd h2 h, fun _ => rfl, fun _ => rfl⟩

theorem signalBad_kind (hbad : signalBad n w = false) : u8 w 2 = 1 ∨ u8 w 2 = 2 ∨ u8 w 2 = 3 := by
  by_contra hk
  obtain ⟨h1, h2, h3⟩ : u8 w 2 ≠ 1 ∧ u8 w 2 ≠ 2 ∧ u8 w 2 ≠ 3 := by omega
  simp [signalBad, h1, h2, h3] at hbad

theorem dmaSignal_doorbell {bme : Bool} (hbad : signalBad n w = false) (hk : u8 w 2 = 1) : dmaSignal bme n d w =
    dmaNext (hif d (fun h => { h with dblD2H := h.dblD2H ||| BitVec.ofNat 32 (2 ^ u8 w 3) })) n (u8 w 1) 1 {} := by
  simp only [dmaSignal]
  rw [if_neg (by rw [hbad]; decide), if_pos hk]
theorem dmaSignal_flag {bme : Bool} (hbad : signalBad n w = false) (hk : u8 w 2 = 2) : dmaSignal bme n d w =
    dmaNext { d with dma := { d.dma with flags := d.dma.flags ||| BitVec.ofNat 32 (2 ^ u8 w 3) } } n (u8 w 1) 1 {} := by
  simp only [dmaSignal]
  rw [if_neg (by rw [hbad]; decide), if_neg (by omega), if_pos hk]
theorem dmaSignal_host (hbad : signalBad n w = false) (hk : u8 w 2 = 3) (hhost : bit (u8 w 4) 0 = true) :
    dmaSignal false n d w = dmaNext (deposit d (u64 w 8) (slice w 16 4)) n (u8 w 1) 1 {} := by
  simp only [dmaSignal]
  rw [if_neg (by rw [hbad]; decide), if_neg (by omega), if_neg (by omega), if_pos hhost, if_neg (by decide)]
theorem dmaSignal_device (hbad : signalBad n w = false) (hk : u8 w 2 = 3) (hhost : bit (u8 w 4) 0 = false) (hopen : dmaDenies d n (u64 w 8) = none) :
    dmaSignal false n d w = dmaNext (dmaWriteDev d n (u64 w 8) (slice w 16 4)) n (u8 w 1) 1 {} := by
  simp only [dmaSignal]
  rw [if_neg (by rw [hbad]; decide), if_neg (by omega), if_neg (by omega), if_neg (by rw [hhost]; decide), hopen]

theorem dmaStop_of_good (hzero : isZero w 2 30 = true) (hflags : bit (u8 w 1) 1 = false) (hmv : (getDma d n).move = none) :
    dmaStop n d w = dmaMod d n (fun c => { c with wait := none, state := .idle, irq := c.irq ||| 4 }) := by
  simp only [dmaStop]
  rw [if_neg (by rw [hzero]; decide), dmaEnds_of_noRecord hflags]
  refine dmaMod_congr ?_
  rw [if_pos rfl, hmv]

end

/-- What an ended instruction leaves of its channel, and of everything else a device that has been prepared. -/
theorem dmaNext_holds {d : Dev} {n flags : Nat} (hflags : bit flags 1 = false) (hst : (getDma d n).state = .running) (hmv : (getDma d n).move = none)
    (s : State) : let t := after s (dmaNext d n flags 1 {})
    getDma t.dev n = { getDma d n with wait := none, pc := (getDma d n).pc + 1 } ∧ t.dev.dma.flags = d.dma.flags ∧
      t.dev.hif.dblH2D = d.hif.dblH2D ∧ t.dev.hif.dblD2H = d.hif.dblD2H := by
  rw [dmaNext_running hflags hst hmv]
  exact ⟨(getDma_settle _ n).trans (getDma_dmaMod_same ..), congrArg (·.flags) (settle_dma _), settle_hif_dblH2D _, settle_hif_dblD2H _⟩

/-- Settles O36: each instruction is what its row does on a channel that runs (`dmaInstr_of_running`) and ends by `dmaEnds_running`; a
reserved flag or opcode is `dmaBad`. -/
theorem dmaInstructionsTakeEffect : Obligations.DmaInstructionsTakeEffect := by
  intro ch i s n c w put hst hmv hfetch hprog
  have hgo : ∀ f, u8 i.word 1 < 8 → dmaInstr (quiet s) n i f = f (quiet s) w := fun f h => dmaInstr_of_running (d := quiet s) hst hmv hfetch hprog h f
  have h0 : u8 w 0 = u8 i.word 0 := u8_slice_zero (by decide)
  have h1 : u8 w 1 = u8 i.word 1 := u8_slice_zero (by decide)
  refine ⟨fun hword hrec => ?run, fun hq row hrow => ?bad⟩
  case run =>
    have hflags : bit (u8 w 1) 1 = false := h1 ▸ hrec
    refine ⟨fun ho hbad hlen hcheck => ?move, fun ho hbad hfirst => ?loop, fun ho hbad => ?wait, fun ho hbad hk => ?signal,
      fun ho hbad hk hbme => ?store, fun ho hzero => ?stop⟩
    case move => exact dmaRow_to (dmaRowOwn_of_opcode ho) ((hgo _ hword).trans (dmaMove_of_good (d := quiet s) hbad hlen hcheck))
    case loop =>
      intro v
      refine ⟨fun hz => ?_, fun hz hv => ?_, fun hz hv => ?_⟩
      · exact dmaRow_to (dmaRowOwn_of_opcode ho) ((hgo _ hword).trans (dmaLoop_forever (d := quiet s) hflags hst hmv hbad hz))
      · exact dmaRow_to (dmaRowOwn_of_opcode ho) ((hgo _ hword).trans (dmaLoop_again (d := quiet s) hflags hst hmv hbad hfirst hz hv))
      · exact dmaRow_to (dmaRowOwn_of_opcode ho) ((hgo _ hword).trans (dmaLoop_done (d := quiet s) hflags hst hmv hbad hfirst hz hv))
    case wait =>
      intro x
      have hwait := (hgo (dmaWait n) hword).trans (dmaWait_of_good (d := quiet s) hbad)
      refine ⟨fun hh => ?_, fun hh => ?_⟩
      · exact dmaRow_to (dmaRowOwn_of_opcode ho) (hwait.trans (if_neg (ne_true_of_eq_false hh)))
      · have hcleared : ∀ k, getDma (waitCleared (quiet s) x) k = getDma s.dev k := getDma_waitCleared (quiet s) x
        obtain ⟨hchan, hf, hd, _⟩ := dmaNext_holds (d := waitCleared (quiet s) x) (n := n) (flags := u8 w 1) hflags (by rw [hcleared]; exact hst)
          (by rw [hcleared]; exact hmv) s
        obtain ⟨h5, h2, hn5, hn2⟩ := waitCleared_holds (d := quiet s) (x := x) (fun hk => waitBad_index hbad rfl hk)
        rw [hcleared] at hchan
        exact ⟨_, dmaRow_to (dmaRowOwn_of_opcode ho) (hwait.trans (if_pos hh)), hchan,
          fun h => (congrArg (fun f : Word => f.getLsbD (u8 w 3)) hf).trans (h5 h), fun h => (congrArg (fun f : Word => f.getLsbD (u8 w 3)) hd).trans (h2 h),
          fun h => hf.trans (hn5 h), fun h => hd.trans (hn2 h)⟩
    case signal =>
      rcases signalBad_kind hbad with hkind | hkind | hkind
      · obtain ⟨hchan, hf, _, hd⟩ := dmaNext_holds (d := hif (quiet s) (fun h => { h with dblD2H := h.dblD2H ||| BitVec.ofNat 32 (2 ^ u8 w 3) }))
          (n := n) hflags hst hmv s
        exact ⟨_, dmaRow_to (dmaRowOwn_of_opcode ho) ((hgo _ hword).trans (dmaSignal_doorbell (d := quiet s) hbad hkind)), hchan,
          fun _ => ⟨hd, hf⟩, fun h => absurd (hkind.symm.trans h) (by decide)⟩
      · obtain ⟨hchan, hf, _, hd⟩ :=
          dmaNext_holds (d := { quiet s with dma := { s.dev.dma with flags := s.dev.dma.flags ||| BitVec.ofNat 32 (2 ^ u8 w 3) } }) (n := n) hflags hst hmv s
        exact ⟨_, dmaRow_to (dmaRowOwn_of_opcode ho) ((hgo _ hword).trans (dmaSignal_flag (d := quiet s) hbad hkind)), hchan,
          fun h => absurd (hkind.symm.trans h) (by decide), fun _ => ⟨hf, hd⟩⟩
      · exact absurd hkind hk
    case store =>
      intro a
      refine ⟨fun hhost => ?_, fun hhost hopen => ?_⟩
      · have h := dmaSignal_host (d := quiet s) hbad hk hhost
        rw [← hbme] at h
        exact dmaRow_to (dmaRowOwn_of_opcode ho) (((hgo _ hword).trans h).trans (dmaNext_running (d := deposit (quiet s) a (slice w 16 4)) hflags hst hmv 1 {}))
      · have h := dmaSignal_device (d := quiet s) hbad hk hhost hopen
        rw [← hbme] at h
        exact dmaRow_to (dmaRowOwn_of_opcode ho) ((hgo _ hword).trans h)
    case stop => exact dmaRow_to (dmaRowOwn_of_opcode ho) ((hgo _ hword).trans (dmaStop_of_good (d := quiet s) hzero hflags hmv))
  case bad =>
    obtain ⟨hst', hcode, hirq, _, _⟩ := dmaError_same (d := quiet s) (n := n) hq 8 (dmaPcAddr c) true
    have hfailed : exec row s = .next (after s (dmaBad (quiet s) n)) := by
      rcases hrow with ⟨hres, hop⟩ | ⟨hop, rfl⟩
      · have hbad : ∀ f, dmaInstr (quiet s) n i f = dmaBad (quiet s) n := dmaInstr_of_reserved (d := quiet s) hst hmv hfetch hprog hres
        rcases hop with ⟨ho, rfl⟩ | ⟨ho, rfl⟩ | ⟨ho, rfl⟩ | ⟨ho, rfl⟩ | ⟨ho, rfl⟩ <;> exact dmaRow_to (dmaRowOwn_of_opcode ho) (hbad _)
      · have hown : dmaRowOwn 1 i = true := by
          rcases hop with h | h <;> simp [dmaRowOwn, h]
        refine dmaRow_to hown ?_
        rcases Nat.lt_or_ge (u8 i.word 1) 8 with hlt | hge
        · refine (hgo _ hlt).trans (if_pos ?_)
          have hne : u8 w 0 ≠ 1 := by omega
          simp [moveBad, hne]
        · exact dmaInstr_of_reserved (d := quiet s) hst hmv hfetch hprog hge _
    refine ⟨_, hfailed, ?_⟩
    simp only [after, getDma_settle]
    exact ⟨hst', hcode, hirq, fun k hk => dmaError_ne (d := quiet s) hq 8 (dmaPcAddr c) true hk⟩

end Sys2Proof.Machine


/-! Waits and timeouts of the DMA engine, and the matrix's grants (R25, R462, R467, R472). -/

namespace Sys2Proof.Machine

/-! Waits that end, and errors of waits and host accesses. -/

/-- DT brought forward decides no condition. -/
theorem waitHolds_dtTo (d : Dev) (t : DT) (n : Nat) (w : DmaWait) (flash : Bool) : waitHolds (dtTo d t) n w flash = waitHolds d n w flash := by
  unfold dtTo
  split <;> rfl

section
variable {d : Dev} {n : Nat} {w : DmaWait} (hw : (getDma d n).wait = some w) (hst : (getDma d n).state = .waiting)
include hw hst

theorem waitMet_of_holds (h : waitHolds d n w true = true) : waitMet d n = waitEnds d n w := by
  simp only [waitMet, hw]
  exact if_pos ⟨hst, h⟩
omit hst in
theorem waitMet_of_not (h : waitHolds d n w true = false) : waitMet d n = d := by
  simp only [waitMet, hw]
  exact if_neg (fun hc => absurd hc.2 (ne_true_of_eq_false h))

theorem waitExpires_of_holds {t : DT} (ht : w.stop = some t) (h : waitHolds d n w false = true) : waitExpires d n = waitEnds (dtTo d t) n w := by
  simp only [waitExpires, hw, ht]
  rw [if_neg (by rw [hst]; decide), waitHolds_dtTo, if_pos h]
theorem waitExpires_of_not {t : DT} (ht : w.stop = some t) (h : waitHolds d n w false = false) :
    waitExpires d n = dmaError (dtTo d t) n 7 (dmaPcAddr (getDma d n)) true := by
  simp only [waitExpires, hw, ht]
  rw [if_neg (by rw [hst]; decide), waitHolds_dtTo, if_neg (ne_true_of_eq_false h)]

end

section
variable {d : Dev} {n : Nat} (hst : (getDma d n).state = .running)
include hst

theorem hostTimeout_of_move {mv : DmaMove} (hmv : (getDma d n).move = some mv) (hhost : bit mv.mflags 0 = true) :
    hostTimeout d n = dmaError d n 5 (getDma d n).src.toNat true := by
  simp only [hostTimeout, hmv]
  rw [if_neg (by rw [hst]; decide), if_pos hhost]
theorem hostTimeout_of_fetch (hmv : (getDma d n).move = none) (hn : n < 8) : hostTimeout d n = dmaError d n 9 (dmaPcAddr (getDma d n)) true := by
  simp only [hostTimeout, hmv]
  rw [if_neg (by rw [hst]; decide), if_pos hn]

end

/-- A channel of a device whose error is due leaves an outcome with the code. -/
theorem errs_of_dmaError {s : State} {f : Dev → Dev} {d : Dev} {n code addr : Nat} {read : Bool} (h : f (quiet s) = dmaError d n code addr read)
    (hchan : getDma d n = getDma s.dev n) (hq : (getDma s.dev n).cqSize = 0) : ∃ t, run f s = .next t ∧ (getDma t.dev n).state = .error ∧
    (getDma t.dev n).lastCode = code ∧ (getDma t.dev n).move = none ∧ (getDma t.dev n).wait = none ∧
    (getDma t.dev n).irq = (getDma s.dev n).irq ||| 2 := by
  obtain ⟨hst, hcode, hirq, hmv, hw⟩ := dmaError_same (d := d) (n := n) (hchan ▸ hq) code addr read
  refine ⟨_, run_to (f := f) h, ?_⟩
  simp only [after, getDma_settle]
  exact ⟨hst, hcode, hmv, hw, hchan ▸ hirq⟩

theorem getDma_dtTo (d : Dev) (t : DT) (n : Nat) : getDma (dtTo d t) n = getDma d n := by
  unfold dtTo
  split <;> rfl

/-! Rounds: the first of a rotation that asks (R454, R472). -/

/-- The places of a rotation of N that begins at b. -/
def rotation (N b : Nat) : List Nat := (List.range N).map (fun k => (b + k) % N)

theorem mem_rotation {N b m : Nat} (h : m < N) : m ∈ rotation N b := by
  refine List.mem_map.2 ⟨(m + (N - b % N)) % N, List.mem_range.2 (Nat.mod_lt _ (by omega)), ?_⟩
  have hb : b % N < N := Nat.mod_lt _ (by omega)
  rw [Nat.add_mod, Nat.mod_mod, ← Nat.add_mod, show b + (m + (N - b % N)) = m + N * (b / N + 1) by
    have := Nat.div_add_mod b N
    rw [Nat.mul_add, Nat.mul_one]
    omega]
  rw [Nat.add_mul_mod_self_left, Nat.mod_eq_of_lt h]
theorem lt_of_mem_rotation {N b m : Nat} (hN : 0 < N) (h : m ∈ rotation N b) : m < N := by
  obtain ⟨k, _, rfl⟩ := List.mem_map.1 h
  exact Nat.mod_lt _ hN

/-- A rotation finds one that asks. -/
theorem find?_rotation {N b : Nat} {p : Nat → Bool} {m : Nat} (hm : m < N) (hp : p m = true) : ∃ g, (rotation N b).find? p = some g ∧ g < N ∧ p g = true := by
  have hsome : ((rotation N b).find? p).isSome := List.find?_isSome.2 ⟨m, mem_rotation hm, hp⟩
  obtain ⟨g, hg⟩ := Option.isSome_iff_exists.1 hsome
  exact ⟨g, hg, lt_of_mem_rotation (by omega) (List.mem_of_find?_eq_some hg), List.find?_some hg⟩

theorem mtxRound_nil (last : Option Nat) : mtxRound last [] = none := by
  unfold mtxRound
  exact List.find?_eq_none.2 (fun _ _ => by simp)
theorem mtxRound_single (last : Option Nat) {m : Nat} (hm : m < 16) : mtxRound last [m] = some m := by
  obtain ⟨g, hg, _, hp⟩ := find?_rotation (N := 16) (b := match last with | some m => m + 1 | none => 0) (p := [m].contains) hm (by simp)
  have hgm : g = m := by simpa using hp
  exact hg.trans (congrArg some hgm)

/-- The place of master m in the round after l. -/
theorem round_place {l m : Nat} (hl : l < 16) (hm : m < 16) (k : Nat) (hk : k < 16) : (l + 1 + k) % 16 = m ↔ k = (m + 15 - l) % 16 := by omega

theorem mtxRound_iff {l g : Nat} {ms : List Nat} (hl : l < 16) (hms : ∀ m ∈ ms, m < 16) :
    mtxRound (some l) ms = some g ↔ g ∈ ms ∧ ∀ m ∈ ms, (g + 15 - l) % 16 ≤ (m + 15 - l) % 16 := by
  have hfind : mtxRound (some l) ms = some g ↔ ∃ k, (l + 1 + k) % 16 = g ∧ k < 16 ∧ g ∈ ms ∧ ∀ j, j < k → (l + 1 + j) % 16 ∉ ms := by
    simp only [mtxRound, List.find?_map, Option.map_eq_some_iff, List.find?_range_eq_some, Function.comp, List.contains_iff_mem, List.mem_range]
    constructor
    · rintro ⟨k, ⟨hmem, hk, hfirst⟩, rfl⟩
      exact ⟨k, rfl, hk, hmem, fun j hj => by simpa using hfirst j hj⟩
    · rintro ⟨k, rfl, hk, hmem, hfirst⟩
      exact ⟨k, ⟨hmem, hk, fun j hj => by simpa using hfirst j hj⟩, rfl⟩
  rw [hfind]
  constructor
  · rintro ⟨k, hkg, hk, hmem, hfirst⟩
    refine ⟨hmem, fun m hm => ?_⟩
    rw [← (round_place hl (hms g hmem) k hk).1 hkg]
    by_contra hlt
    refine hfirst ((m + 15 - l) % 16) (by omega) ?_
    rwa [(round_place hl (hms m hm) _ (Nat.mod_lt _ (by decide))).2 rfl]
  · rintro ⟨hmem, hfirst⟩
    refine ⟨(g + 15 - l) % 16, (round_place hl (hms g hmem) _ (Nat.mod_lt _ (by decide))).2 rfl, Nat.mod_lt _ (by decide), hmem, fun j hj hin => ?_⟩
    have hjm := hfirst _ hin
    rw [← (round_place hl (hms _ hin) j (by omega)).1 rfl] at hjm
    omega

/-- Of channels of both queues the one is served whose queue was not served last. -/
theorem dmaTurn_alternates (q : Dma) {ns : List Nat} {h v : Nat} (hh : h ∈ ns) (hh8 : h < 8) (hv : v ∈ ns) (hv8 : 8 ≤ v) (hv32 : v < 32) :
    ∃ m ∈ ns, dmaTurn q ns = some m ∧ m < 32 ∧ (m < 8 ↔ q.devLast = true) := by
  obtain ⟨a, ha, ha8, hain⟩ := find?_rotation (N := 8) (b := q.lastHost + 1) (p := ns.contains) hh8 (List.contains_iff_mem.2 hh)
  obtain ⟨b, hb, hb24, hbin⟩ := find?_rotation (N := 24) (b := q.lastDev - 8 + 1) (p := fun k => ns.contains (8 + k)) (m := v - 8) (by omega)
    (by rw [show 8 + (v - 8) = v by omega]; exact List.contains_iff_mem.2 hv)
  have hdev : ((List.range 24).map (fun k => 8 + (q.lastDev - 8 + 1 + k) % 24)).find? ns.contains = some (8 + b) := by
    have hmap : (List.range 24).map (fun k => 8 + (q.lastDev - 8 + 1 + k) % 24) = (rotation 24 (q.lastDev - 8 + 1)).map (8 + ·) := by
      rw [rotation, List.map_map]
      rfl
    rw [hmap, List.find?_map]
    exact congrArg (Option.map (8 + ·)) hb
  have hturn : dmaTurn q ns = some (if q.devLast then a else 8 + b) := by
    simp only [dmaTurn]
    rw [show ((List.range 8).map (fun k => (q.lastHost + 1 + k) % 8)).find? ns.contains = some a from ha, hdev]
  cases hq : q.devLast <;> rw [hq] at hturn
  · exact ⟨8 + b, List.contains_iff_mem.1 hbin, hturn, by omega, by simp⟩
  · exact ⟨a, List.contains_iff_mem.1 hain, hturn, by omega, by simp [ha8]⟩

/-! One access is granted at once (R472, R25). -/

theorem mtxTarget_lt {a k : Nat} (h : mtxTarget a = some k) : k < 15 := by
  simp only [mtxTarget] at h
  (repeat' split at h) <;> cases h <;> omega

/-- What a master's one access makes of a target. -/
theorem mtxGrant_single {d : Dev} {idle : Bool} {i m : Nat} (hm : m < 16) : mtxGrant d idle i [m] = some m := by
  unfold mtxGrant
  split
  case isTrue h =>
    have hpark : parkOf d i = m := by simpa using (Bool.and_eq_true_iff.1 h).2
    rw [hpark]
  case isFalse => exact mtxRound_single _ hm
theorem mtxGrant_nil (d : Dev) (idle : Bool) (i : Nat) : mtxGrant d idle i [] = none := by
  unfold mtxGrant
  rw [if_neg (by simp)]
  exact mtxRound_nil _

/-- The grants of one cycle, of targets that are asked as ask says. -/
def mtxGrants (idle : Bool) (ask : Nat → List Nat) (d : Dev) (is : List Nat) : Dev :=
  is.foldl (fun (d : Dev) i => match mtxGrant d idle i (ask i) with
    | some m => { d with mtx := { d.mtx with last := tabSet d.mtx.last i (some m) } }
    | none => d) d

theorem mtxGrants_of_none (idle : Bool) {ask : Nat → List Nat} {is : List Nat} (h : ∀ i ∈ is, ask i = []) (d : Dev) : mtxGrants idle ask d is = d := by
  induction is generalizing d with
  | nil => rfl
  | cons i is ih =>
    obtain ⟨hi, his⟩ := List.forall_mem_cons.1 h
    have hstep : mtxGrants idle ask d (i :: is) = mtxGrants idle ask d is := by
      simp only [mtxGrants, List.foldl_cons, hi, mtxGrant_nil]
    rw [hstep, ih his]

theorem mtxGrants_of_one (idle : Bool) {ask : Nat → List Nat} {is : List Nat} {k m : Nat} (hm : m < 16) (hk : k ∈ is) (hn : is.Nodup) (hask : ask k = [m])
    (hrest : ∀ i ∈ is, i ≠ k → ask i = []) (d : Dev) :
    mtxGrants idle ask d is = { d with mtx := { d.mtx with last := tabSet d.mtx.last k (some m) } } := by
  induction is generalizing d with
  | nil => cases hk
  | cons i is ih =>
    obtain ⟨hi, his⟩ := List.forall_mem_cons.1 hrest
    obtain ⟨hni, hnd⟩ := List.nodup_cons.1 hn
    by_cases hik : i = k
    · subst hik
      have hstep : mtxGrants idle ask d (i :: is) = mtxGrants idle ask { d with mtx := { d.mtx with last := tabSet d.mtx.last i (some m) } } is := by
        simp only [mtxGrants, List.foldl_cons, hask, mtxGrant_single hm]
      rw [hstep]
      exact mtxGrants_of_none idle (fun j hj => his j hj (fun e => hni (e ▸ hj))) _
    · have hstep : mtxGrants idle ask d (i :: is) = mtxGrants idle ask d is := by
        simp only [mtxGrants, List.foldl_cons, hi hik, mtxGrant_nil]
      rw [hstep]
      exact ih ((List.mem_cons.1 hk).resolve_left (fun e => hik e.symm)) hnd his d

/-- An access that a target takes. -/
def matrixHit (q : MatrixReq) : Bool := match mtxTarget q.addr.toNat with | some i => mtxReach i q | none => false
/-- The masters that ask target i. -/
def matrixAsk (d : Dev) (qs : List MatrixReq) (i : Nat) : List Nat :=
  (qs.filter (fun q => (decide (q.master < 16) && !d.mtx.isolated.getLsbD q.master) && matrixHit q && mtxTarget q.addr.toNat == some i)).map (·.master)
/-- The accesses that the default target answers, on a device e of which the targets have granted. -/
def matrixMissed (d e : Dev) (qs : List MatrixReq) : List MatrixReq :=
  qs.filter (fun q => (decide (q.master < 16) && !d.mtx.isolated.getLsbD q.master) && !matrixHit q && !mtxPrivate e q &&
    (q.master == 0 || (decide (3 ≤ q.master) && decide (q.master ≤ 7))))

theorem matrixGrant_eq (d : Dev) (idle : Bool) (qs : List MatrixReq) : let e := mtxGrants idle (matrixAsk d qs) d (List.range 15)
    matrixGrant d idle qs = (matrixMissed d e qs).foldl (fun d q => matrixError d q.master q.read q.addr) e := rfl

section
variable {d : Dev} {q : MatrixReq} (idle : Bool) (hm : q.master < 16) (hiso : d.mtx.isolated.getLsbD q.master = false)
include hm hiso

theorem matrixGrant_of_target {k : Nat} (hk : mtxTarget q.addr.toNat = some k) (hreach : mtxReach k q = true) :
    matrixGrant d idle [q] = { d with mtx := { d.mtx with last := tabSet d.mtx.last k (some q.master) } } := by
  have hhit : matrixHit q = true := by simp only [matrixHit, hk, hreach]
  have hasks : matrixAsk d [q] k = [q.master] := by
    rw [matrixAsk, List.filter_cons_of_pos]
    · rfl
    · rw [hiso, hhit, hk]
      simp [hm]
  have hone := mtxGrants_of_one idle (ask := matrixAsk d [q]) hm (List.mem_range.2 (mtxTarget_lt hk)) List.nodup_range hasks
    (fun i _ hi => by simp [matrixAsk, hk, Ne.symm hi]) d
  have hmissed : ∀ e, matrixMissed d e [q] = [] := fun e => by simp [matrixMissed, hhit]
  rw [matrixGrant_eq, hmissed, hone]
  rfl
theorem matrixGrant_of_default (hk : mtxTarget q.addr.toNat = none) (hpriv : mtxPrivate d q = false)
    (hmaster : q.master = 0 ∨ (3 ≤ q.master ∧ q.master ≤ 7)) : matrixGrant d idle [q] = matrixError d q.master q.read q.addr := by
  have hhit : matrixHit q = false := by simp only [matrixHit, hk]
  have hnone := mtxGrants_of_none idle (ask := matrixAsk d [q]) (is := List.range 15) (fun i _ => by simp [matrixAsk, hk]) d
  have hmissed : matrixMissed d d [q] = [q] := by
    refine List.filter_eq_self.2 (fun x hx => ?_)
    rw [List.mem_singleton.1 hx, hiso, hhit, hpriv]
    simpa [hm] using hmaster
  rw [matrixGrant_eq, hnone, hmissed]
  rfl

end

end Sys2Proof.Machine


/-! Bursts of the DMA engine (R454, R457, R458). -/

namespace Sys2Proof.Machine

/-! Bytes in units (R458). -/

theorem slice_within {bs : List Byte} {o n : Nat} (h : o + n ≤ bs.length) : slice bs o n = (bs.drop o).take n := by
  simp only [slice, List.length_take, List.length_drop]
  rw [show n - min n (bs.length - o) = 0 by omega, List.replicate_zero, List.append_nil]
theorem length_slice (bs : List Byte) (o n : Nat) : (slice bs o n).length = n := by
  simp only [slice, List.length_append, List.length_take, List.length_drop, List.length_replicate]
  omega
theorem getD_slice {bs : List Byte} {o n i : Nat} (h : o + n ≤ bs.length) (hi : i < n) : (slice bs o n).getD i 0 = bs.getD (o + i) 0 := by
  simp only [slice_within h, List.getD_eq_getElem?_getD, List.getElem?_take_of_lt hi, List.getElem?_drop]
theorem ext_getD {x y : List Byte} (hl : x.length = y.length) (h : ∀ i, i < x.length → x.getD i 0 = y.getD i 0) : x = y := by
  refine List.ext_getElem hl (fun i hx hy => ?_)
  have hi := h i hx
  rwa [List.getD_eq_getElem _ _ hx, List.getD_eq_getElem _ _ hy] at hi

/-- Bytes i of pieces of one length. -/
theorem getD_pieces {f : Nat → List Byte} {u : Nat} (hu : 0 < u) (hf : ∀ k, (f k).length = u) (q : Nat) :
    ((List.range q).flatMap f).length = u * q ∧ ∀ i, i < u * q → ((List.range q).flatMap f).getD i 0 = (f (i / u)).getD (i % u) 0 := by
  induction q with
  | zero => exact ⟨rfl, fun i hi => absurd hi (by simp)⟩
  | succ q ih =>
    obtain ⟨hl, hget⟩ := ih
    simp only [List.range_succ, List.flatMap_append, List.flatMap_singleton]
    refine ⟨by rw [List.length_append, hl, hf, Nat.mul_succ], fun i hi => ?_⟩
    rcases Nat.lt_or_ge i (u * q) with hlt | hge
    · rw [List.getD_append _ _ _ _ (hl ▸ hlt), hget i hlt]
    · rw [List.getD_append_right _ _ _ _ (hl ▸ hge), hl]
      obtain ⟨r, rfl⟩ := Nat.exists_eq_add_of_le hge
      have hr : r < u := by rw [Nat.mul_succ] at hi; omega
      rw [Nat.mul_add_div hu, Nat.mul_add_mod, Nat.div_eq_of_lt hr, Nat.mod_eq_of_lt hr, Nat.add_zero, Nat.add_sub_cancel_left]

section
variable {u : Nat} {bs : List Byte} (hu : 0 < u) (hunits : bs.length % u = 0)
include hu hunits

theorem swapUnits_pieces : (swapUnits u bs).length = bs.length ∧
    ∀ i, i < bs.length → (swapUnits u bs).getD i 0 = bs.getD (u * (i / u) + (u - 1 - i % u)) 0 := by
  have hlen : u * (bs.length / u) = bs.length := by
    have := Nat.div_add_mod bs.length u
    omega
  obtain ⟨hl, hget⟩ := getD_pieces hu (f := fun k => (slice bs (u * k) u).reverse) (fun k => by rw [List.length_reverse, length_slice]) (bs.length / u)
  rw [hlen] at hl hget
  refine ⟨hl, fun i hi => (hget i hi).trans ?_⟩
  have hmod : i % u < u := Nat.mod_lt _ hu
  have hunit : u * (i / u) + u ≤ bs.length := by
    have hq : i / u + 1 ≤ bs.length / u := Nat.div_lt_div_of_lt_of_dvd (Nat.dvd_of_mod_eq_zero hunits) hi
    calc u * (i / u) + u = u * (i / u + 1) := by rw [Nat.mul_add, Nat.mul_one]
      _ ≤ u * (bs.length / u) := Nat.mul_le_mul_left u hq
      _ = bs.length := hlen
  rw [List.getD_reverse _ (by rw [length_slice]; exact hmod), length_slice, getD_slice hunit (by omega)]

theorem swapUnits_swapUnits : swapUnits u (swapUnits u bs) = bs := by
  obtain ⟨hl, hget⟩ := swapUnits_pieces hu hunits
  obtain ⟨hl2, hget2⟩ := swapUnits_pieces (bs := swapUnits u bs) hu (by rw [hl]; exact hunits)
  refine ext_getD (hl2.trans hl) (fun i hi => ?_)
  rw [hl2] at hi
  have hmod : i % u < u := Nat.mod_lt _ hu
  have hi' : i < bs.length := hl ▸ hi
  have hdm := Nat.div_add_mod i u
  have hlt : u * (i / u) + (u - 1 - i % u) < bs.length := by
    have hq : i / u + 1 ≤ bs.length / u := Nat.div_lt_div_of_lt_of_dvd (Nat.dvd_of_mod_eq_zero hunits) hi'
    have hm : u * (i / u + 1) ≤ u * (bs.length / u) := Nat.mul_le_mul_left u hq
    have hb := Nat.div_add_mod bs.length u
    rw [Nat.mul_add, Nat.mul_one] at hm
    omega
  rw [hget2 i hi, hget _ hlt, Nat.mul_add_div hu, Nat.mul_add_mod, Nat.div_eq_of_lt (show u - 1 - i % u < u by omega),
    Nat.mod_eq_of_lt (show u - 1 - i % u < u by omega), Nat.add_zero]
  congr 1
  omega

end

theorem swapUnits_one (bs : List Byte) : swapUnits 1 bs = bs := by
  obtain ⟨hl, hget⟩ := swapUnits_pieces (u := 1) (bs := bs) Nat.one_pos (Nat.mod_one _)
  refine ext_getD hl (fun i hi => (hget i (hl ▸ hi)).trans ?_)
  rw [Nat.div_one, Nat.mod_one, Nat.one_mul]
  rfl

/-! Bytes in the sample pool. -/

/-- The device with bytes of memory written. -/
def memPut (d : Dev) (a : Nat) (bs : List Byte) : Dev := tilesMod d (fun T => { T with mem := memWriteBytes T.mem a bs })

theorem memWriteBytes_append (m : List Host.Cell) (a : Nat) (x y : List Byte) :
    memWriteBytes m a (x ++ y) = memWriteBytes (memWriteBytes m a x) (a + x.length) y := by
  induction x generalizing m a with
  | nil => rfl
  | cons b x ih =>
    rw [List.cons_append, memWriteBytes, memWriteBytes, ih, List.length_cons]
    congr 1
    omega

theorem memRead_memWriteBytes_same {m : List Host.Cell} (h : memWf m = true) (a : Nat) (bs : List Byte) {j : Nat} (hj : j < bs.length) :
    memRead (memWriteBytes m a bs) (a + j) = bs.getD j 0 := by
  induction bs generalizing m a j with
  | nil => exact absurd hj (by simp)
  | cons b bs ih =>
    rw [memWriteBytes]
    cases j with
    | zero => exact (memRead_memWriteBytes_ne _ _ _ _ (.inl (Nat.lt_succ_self a))).trans (memRead_memWrite_same m 0 a b h)
    | succ j =>
      rw [show a + (j + 1) = a + 1 + j by omega, ih (memWf_memWrite m a b h) _ (Nat.lt_of_succ_lt_succ hj), List.getD_cons_succ]

theorem memPut_nil (d : Dev) (a : Nat) : memPut d a [] = d := rfl
theorem memPut_append (d : Dev) (a : Nat) (x y : List Byte) : memPut (memPut d a x) (a + x.length) y = memPut d a (x ++ y) := by
  simp only [memPut, tilesMod, memWriteBytes_append]

section
variable {n a : Nat} (hn : 8 ≤ n) (hlo : 0x30000000 ≤ a) (hhi : a < 0x32000000)
include hn hlo hhi

theorem dmaDenies_pool {d : Dev} (hpd : pdOn d 14 = true) : dmaDenies d n a = none := by
  have hreg : dmaRegSpace a = false := by simp [dmaRegSpace]; omega
  have hopen : m1Opens d a = true := by simp [m1Opens, hlo, hhi]
  have hmem : memPd a = 14 := by
    unfold memPd
    rw [if_neg (by omega), if_neg (by omega), if_neg (by omega), if_neg (by omega), if_pos (by omega)]
  unfold dmaDenies
  rw [if_neg (by omega), hreg, if_neg Bool.false_ne_true, hmem, hopen, hpd]
  rfl

theorem dmaWriteDev_pool (d : Dev) {bs : List Byte} (hbs : bs.length = 4) : dmaWriteDev d n a bs = memPut d a bs := by
  have hreg : dmaRegSpace a = false := by simp [dmaRegSpace]; omega
  have hmirror : mirrorOff a = none := if_neg (fun h => by omega)
  have hslice : slice bs 0 4 = bs := by
    rw [slice_within (by omega), List.drop_zero, ← hbs, List.take_length]
  unfold dmaWriteDev
  rw [if_neg (by omega), if_neg (by omega), hreg, if_neg (by decide)]
  simp only [devStore, hbs, show List.range (4 / 4) = [0] from rfl, List.foldl_cons, List.foldl_nil, Nat.mul_zero, Nat.add_zero, hmirror, hslice]
  rw [if_neg (by omega)]
  rfl

end

/-! The beats of a burst from host space into the sample pool. -/

section
variable {n : Nat} {mv : DmaMove} {b : BurstIn} (hline : mv.line = 0) (hflags : mv.mflags = 1) (hhost : b.hostFail = 0)
include hline hflags hhost

theorem burstRead_host {r : BurstRun} (herr : r.err = none) (i : Nat) :
    burstRead n mv b 4 r i = { r with src := (r.src + 4) % 2 ^ 64, bytes := r.bytes ++ slice b.data (4 * i) 4 } := by
  simp only [burstRead, hline, hflags, hhost, herr]
  rfl

theorem burstReads_host {r : BurstRun} (herr : r.err = none) (hnone : r.bytes = []) {k : Nat} (hdata : 4 * k ≤ b.data.length) (hsrc : r.src + 4 * k < 2 ^ 64) :
    (List.range k).foldl (burstRead n mv b 4) r = { r with src := r.src + 4 * k, bytes := b.data.take (4 * k) } := by
  induction k with
  | zero => rw [Nat.mul_zero, List.take_zero, ← hnone]; rfl
  | succ k ih =>
    rw [List.range_succ, List.foldl_append, ih (by omega) (by omega), List.foldl_cons, List.foldl_nil, burstRead_host hline hflags hhost (by exact herr)]
    dsimp only
    rw [slice_within (by omega), ← List.take_add, Nat.mod_eq_of_lt (by omega)]
    rfl

omit hhost in
theorem burstWrite_pool (hn : 8 ≤ n) {r : BurstRun} (herr : r.err = none) (hlo : 0x30000000 ≤ r.dst) (hhi : r.dst < 0x32000000) (hpd : pdOn r.d 14 = true)
    (out : List Byte) (i : Nat) :
    burstWrite n mv b 4 out r i = { r with d := memPut r.d r.dst (slice out (4 * i) 4), dst := r.dst + 4 } := by
  have hstep : (r.dst + 4) % 2 ^ 64 = r.dst + 4 := Nat.mod_eq_of_lt (by omega)
  have hwrite : burstWrite n mv b 4 out r i = match dmaDenies r.d n r.dst with
      | some e => { r with err := some (e, r.dst, false) }
      | none => { r with d := dmaWriteDev r.d n r.dst (slice out (4 * i) 4), dst := (r.dst + 4) % 2 ^ 64 } := by
    simp only [burstWrite, hline, hflags, herr]
    rfl
  rw [hwrite, dmaDenies_pool hn hlo hhi hpd, dmaWriteDev_pool hn hlo hhi r.d (length_slice _ _ _), hstep]

omit hhost in
theorem burstWrites_pool (hn : 8 ≤ n) {r : BurstRun} (herr : r.err = none) (hlo : 0x30000000 ≤ r.dst) (hpd : pdOn r.d 14 = true) {out : List Byte} {k : Nat}
    (hout : 4 * k ≤ out.length) (hhi : r.dst + 4 * k ≤ 0x32000000) :
    (List.range k).foldl (burstWrite n mv b 4 out) r = { r with d := memPut r.d r.dst (out.take (4 * k)), dst := r.dst + 4 * k } := by
  induction k with
  | zero => rw [Nat.mul_zero, List.take_zero, memPut_nil]; rfl
  | succ k ih =>
    rw [List.range_succ, List.foldl_append, ih (by omega) (by omega), List.foldl_cons, List.foldl_nil,
      burstWrite_pool hline hflags hn (by exact herr) (by exact Nat.le_add_right_of_le hlo) (by exact (by omega : r.dst + 4 * k < 0x32000000)) (by exact hpd)]
    have hput := memPut_append r.d r.dst (out.take (4 * k)) (slice out (4 * k) 4)
    rw [List.length_take, Nat.min_eq_left (by omega), slice_within (by omega), ← List.take_add] at hput
    dsimp only
    rw [slice_within (by omega), hput]
    rfl

end

/-- A MOVE of which one more piece has been moved. -/
def moveOn (mv : DmaMove) (n : Nat) : DmaMove := { mv with left := mv.left - n, moved := mv.moved + n }

/-- The channel after a piece of n bytes. -/
def chanOn (mv : DmaMove) (n : Nat) (c : DmaChan) : DmaChan :=
  { c with src := BitVec.ofNat 64 (c.src.toNat + n), dst := BitVec.ofNat 64 (c.dst.toNat + n), move := some (moveOn mv n), bytes := c.bytes + BitVec.ofNat 32 n }

section
variable {d : Dev} {n : Nat} {mv : DmaMove} {b : BurstIn} {k : Nat} (hline : mv.line = 0) (hflags : mv.mflags = 1) (hswap : mv.swap = 0) (hheld : mv.held = [])
  (hk : k = min mv.burst (mv.left / 4)) (hn : 8 ≤ n) (hdata : 4 * k ≤ b.data.length) (hhost : b.hostFail = 0)
  (hlo : 0x30000000 ≤ (getDma d n).dst.toNat) (hhi : (getDma d n).dst.toNat + 4 * k ≤ 0x32000000) (hpd : pdOn d 14 = true)
  (hsrc : (getDma d n).src.toNat + 4 * k < 2 ^ 64)
include hline hflags hswap hheld hk hn hdata hhost hlo hhi hpd hsrc

/-- A burst of k beats from host space into the sample pool. -/
theorem dmaBurstDo_pool : dmaBurstDo d n mv b =
    let e := dmaMod (memPut d (getDma d n).dst.toNat (b.data.take (4 * k))) n (chanOn mv (4 * k))
    if mv.left - 4 * k = 0 then dmaNext e n mv.flags (1 + 4 * b2n mv.withdrawn) (moveOn mv (4 * k)) else e := by
  have hlen : (b.data.take (4 * k)).length = 4 * k := by rw [List.length_take]; omega
  have hreads := burstReads_host (n := n) hline hflags hhost (r := { d := d, src := (getDma d n).src.toNat, dst := (getDma d n).dst.toNat }) rfl rfl hdata hsrc
  have hwrites := burstWrites_pool (b := b) hline hflags hn (r := { d := d, src := (getDma d n).src.toNat + 4 * k, dst := (getDma d n).dst.toNat, bytes := b.data.take (4 * k) })
    rfl hlo hpd (out := b.data.take (4 * k)) (k := k) (by omega) hhi
  have hbeat : (if bit mv.mflags 6 = true then 32 else 4) = 4 := by rw [hflags]; rfl
  have htake : (b.data.take (4 * k)).take (4 * k / max 4 1 * max 4 1) = b.data.take (4 * k) := by
    rw [show max 4 1 = 4 from rfl, Nat.mul_div_cancel_left k (by decide), Nat.mul_comm k 4, List.take_of_length_le (by omega)]
  have hbeats : 4 * k / 4 = k := by omega
  have hall : (b.data.take (4 * k)).take (4 * k) = b.data.take (4 * k) := List.take_of_length_le (by omega)
  have hnone : (b.data.take (4 * k)).drop (4 * k) = [] := List.drop_of_length_le (by omega)
  simp only [dmaBurstDo, hbeat, ← hk, hreads, hheld, List.nil_append, hswap, hlen, htake, swapUnits_one, pow_zero, hbeats, hwrites, hall, hnone]
  have hwithdrawn : (mv.withdrawn || mv.line != 0 && b.withdraw.isSome || decide (0 < 0 + 0)) = mv.withdrawn := by simp [hline]
  have hon : moveOn mv (4 * k) = { mv with left := mv.left - 4 * k, moved := mv.moved + 4 * k, swap := 0, held := [] } := by
    rw [moveOn, hswap, hheld]
  have hmod : ∀ f, f (getDma d n) = chanOn mv (4 * k) (getDma d n) →
      dmaMod (memPut d (getDma d n).dst.toNat (b.data.take (4 * k))) n f = dmaMod (memPut d (getDma d n).dst.toNat (b.data.take (4 * k))) n (chanOn mv (4 * k)) :=
    fun f h => dmaMod_congr h
  simp only [hwithdrawn, Nat.add_zero, BitVec.add_zero, ← hon]
  exact if_congr Iff.rfl (congrArg (fun e => dmaNext e n mv.flags (1 + 4 * b2n mv.withdrawn) (moveOn mv (4 * k))) (hmod _ rfl)) (hmod _ rfl)

end

/-! A burst in its turn. -/

theorem dmaBurst_of_turn {d : Dev} {n : Nat} {mv : DmaMove} {b : BurstIn} (hmv : (getDma d n).move = some mv) (hready : burstReady d n = true)
    (hturn : dmaTurn d.dma (n :: b.others.filter (burstReady d)) = some n) : dmaBurst d n b = dmaBurstDo (dmaServed d n) n mv b := by
  simp only [dmaBurst, hmv]
  exact if_pos (by rw [hready, hturn, beq_self_eq_true]; rfl)
theorem dmaBurst_outOfTurn {d : Dev} {n : Nat} {b : BurstIn} (h : burstReady d n = false ∨ dmaTurn d.dma (n :: b.others.filter (burstReady d)) ≠ some n) :
    dmaBurst d n b = d := by
  unfold dmaBurst
  split
  · refine if_neg (fun hgo => ?_)
    obtain ⟨hready, hturn⟩ := Bool.and_eq_true_iff.1 hgo
    exact h.elim (fun hr => absurd hready (ne_true_of_eq_false hr)) (fun ht => ht (eq_of_beq hturn))
  · rfl
theorem burstReady_of_unpaced {d : Dev} {n : Nat} {mv : DmaMove} (hst : (getDma d n).state = .running) (hmv : (getDma d n).move = some mv)
    (hline : mv.line = 0) : burstReady d n = true := by
  simp [burstReady, hmv, hst, hline]
theorem getDma_dmaServed (d : Dev) (n k : Nat) : getDma (dmaServed d n) k = getDma d k := by
  unfold dmaServed getDma
  dsimp only
  split <;> rfl

theorem ofNat_toNat_add (x : DWord) (k : Nat) : BitVec.ofNat 64 (x.toNat + k) = x + BitVec.ofNat 64 k := by
  rw [BitVec.ofNat_add, BitVec.ofNat_toNat, BitVec.setWidth_eq]

/-- The channel after its burst, and the device that it leaves. -/
theorem burstEnd_holds {d : Dev} {n k : Nat} {mv : DmaMove} (hrec : bit mv.flags 1 = false) :
    let e := dmaMod d n (chanOn mv k)
    let t := if mv.left - k = 0 then dmaNext e n mv.flags (1 + 4 * b2n mv.withdrawn) (moveOn mv k) else e
    t.tiles = d.tiles ∧ (getDma t n).src = BitVec.ofNat 64 ((getDma d n).src.toNat + k) ∧ (getDma t n).dst = BitVec.ofNat 64 ((getDma d n).dst.toNat + k) ∧
    (getDma t n).bytes = (getDma d n).bytes + BitVec.ofNat 32 k ∧
    (mv.left - k = 0 → (getDma t n).move = none ∧ (getDma t n).state = .running ∧ (getDma t n).pc = (getDma d n).pc + 1) ∧
    (mv.left - k ≠ 0 → (getDma t n).move = some (moveOn mv k) ∧ (getDma t n).pc = (getDma d n).pc) ∧ ∀ m, m ≠ n → getDma t m = getDma d m := by
  intro e t
  have hchan : getDma e n = chanOn mv k (getDma d n) := getDma_dmaMod_same ..
  have hother : ∀ m, m ≠ n → getDma e m = getDma d m := fun m hm => getDma_dmaMod_ne _ hm
  by_cases hend : mv.left - k = 0
  · have ht : t = dmaMod e n (fun c => { c with move := none, wait := none, state := .running, pc := (getDma e n).pc + 1, irq := c.irq }) :=
      (if_pos hend).trans (dmaEnds_of_noRecord hrec _ _ _ _)
    have htn : getDma t n = { chanOn mv k (getDma d n) with move := none, wait := none, state := .running, pc := (getDma e n).pc + 1 } := by
      rw [ht, getDma_dmaMod_same, hchan]
    rw [htn, hchan]
    exact ⟨by rw [ht]; rfl, rfl, rfl, rfl, fun _ => ⟨rfl, rfl, rfl⟩, fun h => absurd hend h, fun m hm => by rw [ht, getDma_dmaMod_ne _ hm, hother m hm]⟩
  · have ht : t = e := if_neg hend
    rw [ht, hchan]
    exact ⟨rfl, rfl, rfl, rfl, fun h => absurd h hend, fun _ => ⟨rfl, rfl⟩, hother⟩

/-- Settles O37: a burst into the pool is `dmaBurstDo_pool` and ends by `burstEnd_holds`; the queues alternate by `dmaTurn_alternates`; a wait or a host
access in error is `dmaError`; one access is granted or reported by `matrixGrant_of_target` and `matrixGrant_of_default`; a round is `mtxRound_iff`.
That a burst out of turn is not issued is log entry 75. -/
theorem dmaBurstsWaitsAndGrants : Obligations.DmaBurstsWaitsAndGrants := by
  refine ⟨⟨?burst, ?outOfTurn, ?turn, ?swap⟩, ?waits, ?grants, fun l g ms hl hms => mtxRound_iff hl hms⟩
  case burst =>
    intro ch b s mv n c k dst hst hmv hline hswap hheld hflags hrec hn hk hleft hdata hhost halign hlo hhi hpd hwf hsrc hturn
    have hserved : ∀ m, getDma (dmaServed (quiet s) n) m = getDma s.dev m := getDma_dmaServed (quiet s) n
    have hdo := dmaBurstDo_pool (d := dmaServed (quiet s) n) (n := n) (b := b) (k := k) hline hflags hswap hheld rfl hn hdata hhost (by rw [hserved]; exact hlo)
      (by rw [hserved]; exact hhi) hpd (by rw [hserved]; exact hsrc)
    rw [hserved] at hdo
    have hlen : (b.data.take (4 * k)).length = 4 * k := by rw [List.length_take]; omega
    obtain ⟨htiles, hs, hd, hb, hend, hgo, hother⟩ := burstEnd_holds (d := memPut (dmaServed (quiet s) n) dst (b.data.take (4 * k))) (n := n) (k := 4 * k) (mv := mv)
      hrec
    have hput : ∀ m, getDma (memPut (dmaServed (quiet s) n) dst (b.data.take (4 * k))) m = getDma s.dev m := hserved
    rw [hput] at hs hd hb hend hgo
    have hmem : ∀ e : Dev, e.tiles = (memPut (dmaServed (quiet s) n) dst (b.data.take (4 * k))).tiles →
        (settle e).tiles.mem = memWriteBytes s.dev.tiles.mem dst (b.data.take (4 * k)) := fun e he => (settle_tiles_mem e).trans (congrArg (·.mem) he)
    have hrun := run_to (s := s) (f := fun d => dmaBurst d n b)
      ((dmaBurst_of_turn (d := quiet s) hmv (burstReady_of_unpaced (d := quiet s) hst hmv hline) hturn).trans hdo)
    refine ⟨_, hrun, fun j hj => ?_, fun x hx => ?_, ?_, ?_, ?_, ?_, fun hall => ?_, fun hmore => ?_, fun m hm => ?_⟩
    · rw [after, hmem _ htiles, memRead_memWriteBytes_same hwf dst _ (by omega), List.getD_eq_getElem?_getD, List.getElem?_take_of_lt hj,
        ← List.getD_eq_getElem?_getD]
    · rw [after, hmem _ htiles]
      exact memRead_memWriteBytes_ne _ _ _ _ (by omega)
    · rw [after, hmem _ htiles]
      exact memWf_memWriteBytes _ _ _ hwf
    · exact (congrArg (·.src) (getDma_settle _ n)).trans (hs.trans (ofNat_toNat_add c.src (4 * k)))
    · exact (congrArg (·.dst) (getDma_settle _ n)).trans (hd.trans (ofNat_toNat_add c.dst (4 * k)))
    · exact (congrArg (·.bytes) (getDma_settle _ n)).trans hb
    · obtain ⟨hmove, hstate, hpc⟩ := hend (by omega)
      exact ⟨(congrArg (·.move) (getDma_settle _ n)).trans hmove, (congrArg (·.state) (getDma_settle _ n)).trans hstate,
        (congrArg (·.pc) (getDma_settle _ n)).trans hpc⟩
    · obtain ⟨hmove, hpc⟩ := hgo (by omega)
      exact ⟨(congrArg (·.move) (getDma_settle _ n)).trans hmove, (congrArg (·.pc) (getDma_settle _ n)).trans hpc⟩
    · exact (getDma_settle _ m).trans ((hother m hm).trans (hput m))
  case outOfTurn =>
    intro ch b s h
    exact run_to (f := fun d => dmaBurst d ch.val b) (dmaBurst_outOfTurn (d := quiet s) h)
  case turn =>
    rintro q ns ⟨h, hh, hh8⟩ ⟨v, hv, hv8, hv32⟩
    exact dmaTurn_alternates q hh hh8 hv hv8 hv32
  case swap =>
    intro u bs hu hunits
    obtain ⟨hl, hget⟩ := swapUnits_pieces hu hunits
    exact ⟨hl, swapUnits_swapUnits hu hunits, hget⟩
  case waits =>
    intro ch s n c errs
    refine ⟨fun w hw hst => ⟨fun h => ?_, fun h => ?_, fun t ht h hq => ?_, fun t ht h => ?_⟩, fun hst hq => ⟨fun mv hmv hhost => ?_, fun hmv hn => ?_⟩⟩
    · exact run_to (f := fun d => waitMet d n) (waitMet_of_holds (d := quiet s) hw hst h)
    · exact run_to (f := fun d => waitMet d n) (waitMet_of_not (d := quiet s) hw h)
    · exact errs_of_dmaError (f := fun d => waitExpires d n) (waitExpires_of_not (d := quiet s) hw hst ht h) (getDma_dtTo (quiet s) t n) hq
    · exact run_to (f := fun d => waitExpires d n) (waitExpires_of_holds (d := quiet s) hw hst ht h)
    · exact errs_of_dmaError (f := fun d => hostTimeout d n) (hostTimeout_of_move (d := quiet s) hst hmv hhost) rfl hq
    · exact errs_of_dmaError (f := fun d => hostTimeout d n) (hostTimeout_of_fetch (d := quiet s) hst hmv hn) rfl hq
  case grants =>
    intro idle q s hm hiso
    refine ⟨fun k hk hreach => ?_, fun hk hpriv hmaster => ?_⟩
    · exact run_to (f := fun d => matrixGrant d idle [q]) (matrixGrant_of_target (d := quiet s) idle hm hiso hk hreach)
    · exact run_to (f := fun d => matrixGrant d idle [q]) (matrixGrant_of_default (d := quiet s) idle hm hiso hk hpriv hmaster)

end Sys2Proof.Machine


/-! Session, system and firmware-update requests (R431–R448, R490, R496): what each rule answers where nothing refuses the request. -/

namespace Sys2Proof.Machine

/-! What a reply leaves alone. -/

/-- d' differs from d in nothing but what a reply writes. -/
def ReplySame (d d' : Dev) : Prop :=
  d' = { d with fw := { d.fw with queue := d'.fw.queue, log := d'.fw.log, logSeq := d'.fw.logSeq }, mbx := d'.mbx, twin := d'.twin }

theorem ReplySame.refl (d : Dev) : ReplySame d d := rfl
theorem ReplySame.trans {a b c : Dev} (h : ReplySame a b) (k : ReplySame b c) : ReplySame a c := by
  unfold ReplySame at *; rw [k, h]
theorem reply_same (d : Dev) (t : Taken) (st : Status) (body : List Byte) (bulk : Bool) : ReplySame d (reply d t st body bulk) := by
  unfold reply queueReply
  dsimp only
  (repeat' split) <;> rfl

/-- A reply keeps sessions, what waits, the mode and everything outside firmware and its mailboxes. -/
theorem ReplySame.kept {d d' : Dev} (h : ReplySame d d') : d'.fw.sessions = d.fw.sessions ∧ d'.fw.waits = d.fw.waits ∧
    d'.fw.resetPending = d.fw.resetPending ∧ d'.fw.mode = d.fw.mode ∧ d'.flash = d.flash ∧ d'.dom = d.dom ∧ d'.tiles = d.tiles ∧ d'.scene = d.scene ∧
    d'.mantle = d.mantle ∧ d'.selftest = d.selftest := by
  have k := congrArg (fun x : Dev => (x.fw.sessions, x.fw.waits, x.fw.resetPending, x.fw.mode, x.flash, x.dom, x.tiles, x.scene, x.mantle, x.selftest)) h
  simp only [Prod.mk.injEq] at k
  exact k

/-- The state after a request that is answered: its device is d but for the reply. -/
theorem answered_same {t : Taken} (h : pairWide t.op t.req.payload = false) (s : State) (d : Dev) (st : Status) (body : List Byte) (bulk : Bool) :
    ∃ e, ReplySame d e ∧ answered s t d st body bulk = after s e :=
  ⟨_, reply_same d t st body bulk, by rw [answered, commandTicket_of_not_pairWide h]⟩

/-! Offers of versions (R431). -/

/-- The better of the best offer so far and the next one. -/
def bestStep (f : Nat → Option (Nat × Nat)) (best : Option (Nat × Nat)) (i : Nat) : Option (Nat × Nat) :=
  match f i, best with
  | some v, some b => if laterVer b v then some v else some b
  | some v, none => some v
  | none, b => b

theorem laterVer_iff (a b : Nat × Nat) : laterVer a b = true ↔ a.1 < b.1 ∨ (a.1 = b.1 ∧ a.2 < b.2) := by simp [laterVer]
theorem laterVer_self (a : Nat × Nat) : laterVer a a = false := by simp [laterVer]
theorem laterVer_trans {a b c : Nat × Nat} (h : laterVer a b = true) (k : laterVer b c = true) : laterVer a c = true := by
  rw [laterVer_iff] at *
  omega
theorem laterVer_of_not {a b c : Nat × Nat} (h : laterVer b c = false) (k : laterVer a c = true) : laterVer a b = true := by
  rw [← Bool.not_eq_true, laterVer_iff] at h
  rw [laterVer_iff] at *
  omega

/-- No offer is later than the best of them. -/
theorem foldl_bestStep_max (f : Nat → Option (Nat × Nat)) (l : List Nat) {best : Option (Nat × Nat)} {v : Nat × Nat}
    (h : l.foldl (bestStep f) best = some v) :
    (∀ b, best = some b → laterVer v b = false) ∧ ∀ o ∈ l.filterMap f, laterVer v o = false := by
  induction l generalizing best with
  | nil => exact ⟨fun b hb => by rw [Option.some.inj (hb.symm.trans h)]; exact laterVer_self v, nofun⟩
  | cons i l ih =>
    obtain ⟨hbest, hl⟩ := ih h
    cases hf : f i with
    | none =>
      rw [List.filterMap_cons_none hf]
      exact ⟨fun b hb => hbest b (by simp only [bestStep, hf, hb]), hl⟩
    | some w =>
      rw [List.filterMap_cons_some hf, List.forall_mem_cons]
      cases best with
      | none => exact ⟨nofun, hbest w (by simp only [bestStep, hf]), hl⟩
      | some b =>
        cases hw : laterVer b w with
        | true =>
          have hvw := hbest w (by simp only [bestStep, hf, hw, if_true])
          refine ⟨fun b' hb => ?_, hvw, hl⟩
          rw [← Option.some.inj hb, Bool.eq_false_iff]
          exact fun hvb => absurd (laterVer_trans hvb hw) (ne_true_of_eq_false hvw)
        | false =>
          have hvb := hbest b (by simp only [bestStep, hf, hw]; rfl)
          refine ⟨fun b' hb => Option.some.inj hb ▸ hvb, ?_, hl⟩
          rw [Bool.eq_false_iff]
          exact fun hvw => absurd (laterVer_of_not hw hvw) (ne_true_of_eq_false hvb)

theorem bestVer_max {p : List Byte} {v o : Nat × Nat} (h : bestVer p = some v)
    (ho : o ∈ (List.range (u8 p 0)).filterMap (fun i => servedAs (u8 p (8 + 2 * i)) (u8 p (9 + 2 * i)))) : laterVer v o = false :=
  (foldl_bestStep_max (fun i => servedAs (u8 p (8 + 2 * i)) (u8 p (9 + 2 * i))) _ h).2 o ho

/-! Session group (R435–R439). -/

section
variable {d : Dev} {t : Taken} {p : List Byte} (hp : t.req.payload = p)

/-- The session that HELLO opens. -/
def helloSession (p : List Byte) (v : Nat × Nat) : Session :=
  { isOpen := true, major := v.1, minor := v.2, mask := BitVec.ofNat 32 (u32 p 4) &&& 0xFFE }

include hp

theorem judgeHello_opens (hlen : 32 ≤ p.length) (hz : isZero p 1 3 = true) (hlo : 1 ≤ u8 p 0) (hhi : u8 p 0 ≤ 8) {v : Nat × Nat} (hv : bestVer p = some v) :
    let e := sessionMod d t.req.ch.val (fun _ => helloSession p v)
    let body := helloBody e t.req.ch.val
    judgeHello d t none = (addLog e 1 0 t.req.ch.val (logArgs t (0 :: body)), .now .ok body) := by
  have hgo : ¬(!longEnough t 32 || !isZero p 1 3 || u8 p 0 == 0 || decide (8 < u8 p 0)) = true := by
    rw [longEnough_of_le (hp ▸ hlen), hz]
    simp
    omega
  simp only [judgeHello, hp]
  rw [if_neg hgo, hv]
  rfl

theorem judgeModeSet_same {m : Mode} (hlen : 4 ≤ p.length) (hz : isZero p 1 3 = true) (hm : modeOf (u8 p 0) = some m) (hoff : m ≠ .off) (hboot : m ≠ .boot)
    (hfac : m ≠ .factory) (hc : d.fw.changing = none) (hwait : d.fw.commits.any (fun c => c.taken.op == .modeSet) = false) :
    judgeModeSet d t none = if m == mode d then ansB d .ok (modeBody m d.fw.prevMode (now d))
      else if !(modeTargets (mode d)).contains m then ans d .badMode
      else if mode d == .twin && domRenders d 0 then (d, .commit 0) else (beginMode d m 0 (some t), .done) := by
  have hgo : ¬(!longEnough t 4 || !isZero p 1 3) = true := by
    rw [longEnough_of_le (hp ▸ hlen), hz]
    decide
  have hmode : ¬(m == .off || m == .boot || m == .factory) = true := by simp [hoff, hboot, hfac]
  have hbusy : ¬(d.fw.changing.isSome || d.fw.commits.any (fun c => c.taken.op == .modeSet)) = true := by rw [hc, hwait]; decide
  simp only [judgeModeSet, hp]
  rw [if_neg hgo, hm]
  dsimp only
  rw [if_neg hmode, if_neg hbusy]

/-- RESET_REQ with its key asks for the reset of its kind. -/
theorem judgeResetReq_asks (hlen : 4 ≤ p.length) (hkey : u16 p 2 = 0xC3D2) (hkind : u8 p 0 ≤ 2)
    (hpd : u8 p 0 = 2 → (2 ≤ u8 p 1 ∧ u8 p 1 ≤ 15) ∧ (t.mode = .config ∨ t.mode = .selftest ∨ t.mode = .factory)) :
    judgeResetReq d t none = (fw d (fun f => { f with resetPending := f.resetPending ++
      [if u8 p 0 = 0 then .warm 2 else if u8 p 0 = 1 then .ctrlRestart else .domain (u8 p 1)] }), .now .ok []) := by
  have hgo : ¬(!longEnough t 4 || decide (2 < u8 p 0)) = true := by
    rw [longEnough_of_le (hp ▸ hlen)]
    simpa using hkind
  simp only [judgeResetReq, hp]
  rw [if_neg hgo, if_neg (by rw [hkey]; decide), if_neg, if_neg]
  · intro h
    obtain ⟨h2, hbad⟩ := Bool.and_eq_true_iff.1 h
    obtain ⟨⟨hlo, hhi⟩, _⟩ := hpd (eq_of_beq h2)
    simp at hbad
    omega
  · intro h
    obtain ⟨h2, hbad⟩ := Bool.and_eq_true_iff.1 h
    obtain ⟨_, hmode⟩ := hpd (eq_of_beq h2)
    rcases hmode with hmode | hmode | hmode <;> rw [hmode] at hbad <;> exact absurd hbad (by decide)

end

/-- A transition that is begun stands with its target, where the modes between have nothing of their own to begin or end. -/
theorem beginMode_changing {d : Dev} {m : Mode} {asked : Option Taken} (hc : d.fw.changing = none) (hmt : m ≠ .twin) (ht : mode d ≠ .twin)
    (hs : mode d ≠ .singleRate) (hcal : mode d ≠ .calibrate) (hsv : m ≠ .service) (hms : m ≠ .singleRate) :
    (beginMode d m 0 asked).fw.changing = some { target := m, cause := 0, asked := asked } := by
  have hold : pathMode d = mode d := by simp only [pathMode, hc]
  simp only [beginMode, hold, hmt, ht, hs, hcal, hsv, hms, false_and, if_false]
  split <;> rfl

/-! Fields of the bodies. -/

theorem u8_ofNat_of_lt {v : Nat} (h : v < 256) : (BitVec.ofNat 8 v).toNat = v := by
  rw [BitVec.toNat_ofNat]
  exact Nat.mod_eq_of_lt h
theorem modeCode_lt (m : Mode) : modeCode m < 256 := by cases m <;> decide
theorem slotCode_lt (x : SlotState) : slotCode x < 256 := by cases x <;> decide

/-! Telemetry and the log (R444, R446). -/

theorem length_flatMap_const {α : Type} {f : α → List Byte} {n : Nat} (h : ∀ a, (f a).length = n) (l : List α) : (l.flatMap f).length = n * l.length := by
  induction l with
  | nil => rfl
  | cons a l ih => rw [List.flatMap_cons, List.length_append, ih, h, List.length_cons, Nat.mul_succ, Nat.add_comm]

theorem length_logBytes (e : LogEntry) : (logBytes e).length = 32 := by
  simp only [logBytes, p64, p32, p16, p8, List.length_append, length_leBytes, length_slice]

section
variable {d : Dev} {t : Taken} {p : List Byte} (hp : t.req.payload = p)
include hp

theorem judgeCounters_ok {n : Nat} (hn : u8 p 1 = n) {es : List (Nat × Nat)} (hes : (List.range n).map (fun i => (u16 p (4 + 4 * i), u16 p (6 + 4 * i))) = es)
    (h0 : u8 p 0 = 0) (hlo : 1 ≤ n) (hhi : n ≤ 12) (hz : isZero p 2 2 = true) (hlen : 4 + 4 * n ≤ p.length)
    (hrange : ∀ e, e ∈ es → ∃ k, counterRange e.1 = some k ∧ e.2 < k) :
    judgeCounters d t none =
      ansB d .ok (p8 n ++ zeros 2 ++ p32 (mtOf d 0).toNat ++ es.flatMap (fun e => p32 (counterVal d e.1 e.2).toNat)) := by
  have hgo : ¬(!longEnough t 4 || u8 p 0 != 0 || n == 0 || decide (12 < n) || !isZero p 2 2 || !longEnough t (4 + 4 * n)) = true := by
    rw [longEnough_of_le (by rw [hp]; omega : 4 ≤ t.req.payload.length), longEnough_of_le (hp ▸ hlen), h0, hz]
    simp
    omega
  have hknown : ¬(es.any (fun e => (counterRange e.1).isNone)) = true := by
    simp only [List.any_eq_true, not_exists, not_and]
    intro e he
    obtain ⟨k, hk, _⟩ := hrange e he
    simp [hk]
  have hin : ¬(es.any (fun e => decide ((counterRange e.1).getD 0 ≤ e.2))) = true := by
    simp only [List.any_eq_true, not_exists, not_and]
    intro e he
    obtain ⟨k, hk, hlt⟩ := hrange e he
    simpa [hk] using hlt
  simp only [judgeCounters, hp, hn, hes]
  rw [if_neg hgo, if_neg hknown, if_neg hin]

section
variable {n a : Nat} (hn : u16 p 2 = n) (ha : u32 p 4 = a) (h1 : u8 p 0 = 1) (hlo : 1 ≤ n) (h4 : a % 4 = 0) (halo : 0x40000000 ≤ a) (hahi : a ≤ 0x4011FFFF)
  (hwin : a % 65536 + 4 * n ≤ 65536)
include hn ha h1 hlo h4 halo hahi hwin

/-- The words of a block. -/
def blockWords (d : Dev) (a n : Nat) : List Byte := (List.range n).flatMap (fun i => p32 (deviceWord d .ctrl (a + 4 * i)).toNat)

theorem judgeBlock_reply (hbulk : t.req.bulk = false) (hlen : 8 ≤ p.length) (hhi : n ≤ 11) :
    judgeBlock d t none = ansB d .ok (p8 (b2n (!pdOn d (blockPd a))) ++ zeros 6 ++ blockWords d a n) := by
  simp only [judgeBlock, hp, hn, ha, hbulk, Bool.false_eq_true, if_false]
  rw [if_neg]
  · rfl
  · rw [longEnough_of_le (hp ▸ hlen), h1]
    simp
    omega

theorem judgeBlock_deposit (hbulk : t.req.bulk = true) (hlen : 24 ≤ p.length) (hhi : n ≤ 16384) (hok : bulkOk (bulkRef p 8) = true)
    (hfits : 4 * n ≤ (bulkRef p 8).2.1) :
    judgeBlock d t none = (deposit d (u64 p 8) (blockWords d a n), .now .ok (p8 (b2n (!pdOn d (blockPd a)))) true) := by
  have hdep : depositOk t 8 (4 * n) = true := by
    simp only [depositOk, hp, hbulk, hok]
    simpa using hfits
  simp only [judgeBlock, hp, hn, ha, hbulk, if_true]
  rw [if_neg, hdep]
  · rfl
  · rw [longEnough_of_le (hp ▸ hlen), h1]
    simp
    omega

end

/-- Where a read of the log begins, and the entries that it gives. -/
def logStart (d : Dev) (p : List Byte) : Word :=
  let oldest := d.fw.logSeq - BitVec.ofNat 32 d.fw.log.length
  if mtLater oldest (BitVec.ofNat 32 (u32 p 0)) then oldest else BitVec.ofNat 32 (u32 p 0)
def logGiven (d : Dev) (p : List Byte) : List LogEntry :=
  if mtGe (logStart d p) d.fw.logSeq then [] else
    (d.fw.log.drop (logStart d p - (d.fw.logSeq - BitVec.ofNat 32 d.fw.log.length)).toNat).take (u16 p 4)
def logHead (d : Dev) (p : List Byte) : List Byte :=
  zeros 3 ++ p32 (logStart d p).toNat ++ p16 (logGiven d p).length ++ zeros 2 ++ p32 d.fw.logSeq.toNat ++
    p32 (logStart d p - BitVec.ofNat 32 (u32 p 0)).toNat

theorem judgeLogRead_reply (hbulk : t.req.bulk = false) (hlen : 6 ≤ p.length) (hone : u16 p 4 = 1) :
    judgeLogRead d t none = ansB d .ok (logHead d p ++ (logGiven d p).flatMap logBytes) := by
  simp only [judgeLogRead, hp, hbulk, Bool.false_eq_true, if_false]
  rw [if_neg]
  · rfl
  · rw [longEnough_of_le (hp ▸ hlen), hone]
    decide

theorem judgeLogRead_deposit (hbulk : t.req.bulk = true) (hlen : 24 ≤ p.length) (hlo : 1 ≤ u16 p 4) (hhi : u16 p 4 ≤ 8192)
    (hok : bulkOk (bulkRef p 8) = true) (hfits : 32 * u16 p 4 ≤ (bulkRef p 8).2.1) :
    judgeLogRead d t none = (deposit d (u64 p 8) ((logGiven d p).flatMap logBytes), .now .ok (logHead d p) true) := by
  have hcount : (logGiven d p).length ≤ u16 p 4 := by
    unfold logGiven
    split
    · exact Nat.zero_le _
    · rw [List.length_take]; exact Nat.min_le_left _ _
  have hdep : depositOk t 8 ((logGiven d p).flatMap logBytes).length = true := by
    rw [length_flatMap_const length_logBytes]
    simp only [depositOk, hp, hbulk, hok]
    simp
    omega
  simp only [judgeLogRead, hp, hbulk, if_true]
  rw [if_neg]
  · have hneg : ¬(!depositOk t 8 ((logGiven d p).flatMap logBytes).length) = true := by rw [hdep]; decide
    exact if_neg hneg
  · rw [longEnough_of_le (hp ▸ hlen)]
    simp
    omega

end

/-- A read at the oldest entry of a log that is not empty gives that entry. -/
theorem logGiven_oldest {d : Dev} {p : List Byte} {e : LogEntry} {l : List LogEntry} (hone : u16 p 4 = 1)
    (hat : BitVec.ofNat 32 (u32 p 0) = d.fw.logSeq - BitVec.ofNat 32 d.fw.log.length) (hlog : d.fw.log = e :: l) (hl : l.length < 8192) :
    logGiven d p = [e] := by
  have hstart : logStart d p = d.fw.logSeq - BitVec.ofNat 32 d.fw.log.length := by
    unfold logStart
    rw [hat]
    exact if_neg (by simp [mtLater, mtDiff])
  have hold : mtGe (logStart d p) d.fw.logSeq = false := by
    have hdiff : logStart d p - d.fw.logSeq = -BitVec.ofNat 32 (l.length + 1) := by
      rw [hstart, hlog, List.length_cons]
      ring
    simp only [mtGe, mtDiff, hdiff]
    simp only [decide_eq_false_iff_not, not_le]
    have hnat : (BitVec.ofNat 32 (l.length + 1)).toNat = l.length + 1 := by
      rw [BitVec.toNat_ofNat]
      omega
    have hint : (BitVec.ofNat 32 (l.length + 1)).toInt = l.length + 1 := by
      rw [BitVec.toInt_eq_toNat_of_lt (by omega), hnat]
      rfl
    rw [BitVec.toInt_neg_of_ne_intMin, hint]
    · omega
    · intro h
      have hmin := congrArg BitVec.toNat h
      rw [hnat] at hmin
      simp [BitVec.intMin] at hmin
      omega
  unfold logGiven
  rw [if_neg (ne_true_of_eq_false hold), hstart, BitVec.sub_self, hlog, hone]
  rfl

end Sys2Proof.Machine


/-! The boot record and the firmware group (R448, R488, R490, R496), latencies and self-tests (R242, R447), and O52. -/

namespace Sys2Proof.Machine

/-! The boot record: the copy that is written is the one in force from then on (R488). -/

section
variable (seq next a b : Nat)

/-- The bytes of a boot record that its CRC covers. -/
def recHead : List Byte := p32 0x54425A4F ++ p32 seq ++ p8 next ++ p8 a ++ p8 b ++ zeros 17

theorem recBuild_eq : recBuild seq next a b = recHead seq next a b ++ p32 (crc32c (recHead seq next a b)).toNat := rfl
theorem length_recHead : (recHead seq next a b).length = 28 := by
  simp only [recHead, p32, p8, zeros, List.length_append, length_leBytes, List.length_replicate]
theorem slice_recBuild : slice (recBuild seq next a b) 0 28 = recHead seq next a b := by
  have h := slice_append_append [] (recHead seq next a b) (p32 (crc32c (recHead seq next a b)).toNat)
  rw [length_recHead, List.nil_append, List.length_nil] at h
  rw [recBuild_eq, h]
theorem crc_recBuild : u32 (recBuild seq next a b) 28 = (crc32c (recHead seq next a b)).toNat := by
  have h := slice_append (recHead seq next a b) (p32 (crc32c (recHead seq next a b)).toNat)
  rw [length_recHead, p32, length_leBytes] at h
  rw [u32, recBuild_eq, p32, h, leNat_leBytes]
  exact Nat.mod_eq_of_lt (crc32c (recHead seq next a b)).isLt
theorem magic_recBuild : u32 (recBuild seq next a b) 0 = 0x54425A4F := by
  have h := u32_append_p32_append [] 0x54425A4F (p32 seq ++ p8 next ++ p8 a ++ p8 b ++ zeros 17 ++ p32 (crc32c (recHead seq next a b)).toNat)
  rw [List.nil_append, List.length_nil] at h
  simp only [recBuild_eq, recHead, List.append_assoc] at h ⊢
  exact h.trans (Nat.mod_eq_of_lt (by decide))
theorem seq_recBuild : u32 (recBuild seq next a b) 4 = seq % 2 ^ 32 := by
  have h := u32_append_p32_append (p32 0x54425A4F) seq (p8 next ++ p8 a ++ p8 b ++ zeros 17 ++ p32 (crc32c (recHead seq next a b)).toNat)
  rw [show (p32 0x54425A4F).length = 4 from rfl] at h
  simpa only [recBuild_eq, recHead, List.append_assoc] using h
theorem next_recBuild : u8 (recBuild seq next a b) 8 = next % 256 := by
  have h := u8_append_p8_append (p32 0x54425A4F ++ p32 seq) next (p8 a ++ p8 b ++ zeros 17 ++ p32 (crc32c (recHead seq next a b)).toNat)
  rw [show (p32 0x54425A4F ++ p32 seq).length = 8 from rfl] at h
  simpa only [recBuild_eq, recHead, List.append_assoc] using h
theorem stateA_recBuild : u8 (recBuild seq next a b) 9 = a % 256 := by
  have h := u8_append_p8_append (p32 0x54425A4F ++ p32 seq ++ p8 next) a (p8 b ++ zeros 17 ++ p32 (crc32c (recHead seq next a b)).toNat)
  rw [show (p32 0x54425A4F ++ p32 seq ++ p8 next).length = 9 from rfl] at h
  simpa only [recBuild_eq, recHead, List.append_assoc] using h
theorem stateB_recBuild : u8 (recBuild seq next a b) 10 = b % 256 := by
  have h := u8_append_p8_append (p32 0x54425A4F ++ p32 seq ++ p8 next ++ p8 a) b (zeros 17 ++ p32 (crc32c (recHead seq next a b)).toNat)
  rw [show (p32 0x54425A4F ++ p32 seq ++ p8 next ++ p8 a).length = 10 from rfl] at h
  simpa only [recBuild_eq, recHead, List.append_assoc] using h

theorem recOk_recBuild (hn : next ≤ 1) (ha : a ≤ 3) (hb : b ≤ 3) : recOk (recBuild seq next a b) = true := by
  have hlen : (recBuild seq next a b).length = 32 := by
    rw [recBuild_eq, List.length_append, length_recHead, p32, length_leBytes]
  simp only [recOk, hlen, magic_recBuild, crc_recBuild, slice_recBuild, next_recBuild, stateA_recBuild, stateB_recBuild]
  simp
  omega

end

theorem slotCode_le (x : SlotState) : slotCode x ≤ 3 := by cases x <;> decide

section
variable (f : Flash)

theorem recPick_false (h : recPick f = some false) : recOk f.rec0 = true ∧ recNow f = some f.rec0 := by
  refine ⟨?_, by rw [recNow, h]; rfl⟩
  unfold recPick at h
  split at h
  case h_1 h0 _ => exact h0
  case h_2 h0 _ => exact h0
  case h_3 => cases h
  case h_4 => cases h
theorem recPick_true (h : recPick f = some true) : recOk f.rec1 = true ∧ recNow f = some f.rec1 := by
  refine ⟨?_, by rw [recNow, h]; rfl⟩
  unfold recPick at h
  split at h
  case h_1 h1 => exact h1
  case h_2 => cases h
  case h_3 h1 => exact h1
  case h_4 => cases h
theorem recPick_none (h : recPick f = none) : recOk f.rec1 = false := by
  unfold recPick at h
  split at h
  case h_1 => cases h
  case h_2 => cases h
  case h_3 => cases h
  case h_4 h1 => exact h1

/-- A record with the number after another's is the later one. -/
theorem mtLater_succ (n : Nat) : mtLater (BitVec.ofNat 32 ((n + 1) % 2 ^ 32 % 2 ^ 32)) (BitVec.ofNat 32 n) = true ∧
    mtLater (BitVec.ofNat 32 n) (BitVec.ofNat 32 ((n + 1) % 2 ^ 32 % 2 ^ 32)) = false := by
  have hsucc : BitVec.ofNat 32 ((n + 1) % 2 ^ 32 % 2 ^ 32) = BitVec.ofNat 32 n + 1 := by
    apply BitVec.eq_of_toNat_eq
    simp
  have hup : BitVec.ofNat 32 n + 1 - BitVec.ofNat 32 n = 1 := by ring
  have hdown : BitVec.ofNat 32 n - (BitVec.ofNat 32 n + 1) = -1 := by ring
  simp only [mtLater, mtDiff, hsucc, hup, hdown]
  decide

/-- The record that is written next. -/
def recNext (next : Nat) (state : Nat → SlotState) : BootRec :=
  recBuild ((((recNow f).map (fun r => u32 r 4)).getD 0 + 1) % 2 ^ 32) next (slotCode (state 0)) (slotCode (state 1))

theorem recNow_recWrite {next : Nat} (hn : next ≤ 1) (state : Nat → SlotState) : recNow (recWrite f next state) = some (recNext f next state) := by
  have hok : recOk (recNext f next state) = true := recOk_recBuild _ _ _ _ hn (slotCode_le _) (slotCode_le _)
  have hseq : ∀ r, recNow f = some r → u32 (recNext f next state) 4 = (u32 r 4 + 1) % 2 ^ 32 % 2 ^ 32 := by
    intro r hr
    rw [recNext, seq_recBuild, hr]
    rfl
  have hwrite : recWrite f next state = if recPick f = some false then { f with rec1 := recNext f next state } else { f with rec0 := recNext f next state } := rfl
  rw [hwrite]
  cases hpick : recPick f with
  | none =>
    rw [if_neg nofun]
    simp only [recNow, recPick, hok, recPick_none f hpick]
    rfl
  | some one =>
    cases one with
    | false =>
      obtain ⟨h0, hnow⟩ := recPick_false f hpick
      rw [if_pos rfl]
      simp only [recNow, recPick, hok, h0, hseq _ hnow, (mtLater_succ (u32 f.rec0 4)).1]
      rfl
    | true =>
      obtain ⟨h1, hnow⟩ := recPick_true f hpick
      rw [if_neg (by simp)]
      simp only [recNow, recPick, hok, h1, hseq _ hnow, (mtLater_succ (u32 f.rec1 4)).2]
      rfl

theorem nextBoot_recWrite {next : Nat} (hn : next ≤ 1) (state : Nat → SlotState) : nextBoot (recWrite f next state) = next := by
  rw [nextBoot, recNow_recWrite f hn, recNext]
  exact (next_recBuild _ _ _ _).trans (Nat.mod_eq_of_lt (by omega))

theorem recWrite_keeps (next : Nat) (state : Nat → SlotState) : let g := recWrite f next state
    g.slots = f.slots ∧ g.revoked = f.revoked ∧ g.update = f.update ∧ g.running = f.running := by
  unfold recWrite
  dsimp only
  split <;> exact ⟨rfl, rfl, rfl, rfl⟩

theorem slotPut_holds (k : Nat) (x : Slot) (next : Nat) : let g := slotPut f k x next
    tabGet g.slots k = x ∧ g.revoked = f.revoked ∧ (next ≤ 1 → nextBoot g = next) := by
  obtain ⟨hslots, hrev, _, _⟩ := recWrite_keeps { f with slots := tabSet f.slots k x } next (fun j => if j = k then x.state else recState f j)
  exact ⟨(congrArg (fun t => tabGet t k) hslots).trans (tabGet_tabSet_same ..), hrev, fun h => nextBoot_recWrite _ h _⟩

end

/-- Which copy is in force is told by the copies alone. -/
theorem nextBoot_congr {f g : Flash} (h0 : g.rec0 = f.rec0) (h1 : g.rec1 = f.rec1) : nextBoot g = nextBoot f := by
  simp only [nextBoot, recNow, recPick, h0, h1]

/-! The firmware group (R448). -/

section
variable {d : Dev} {t : Taken} {p : List Byte} (hp : t.req.payload = p)

theorem ownUpdate_of {d : Dev} {ch slot : Nat} (h : d.flash.update = some (ch, slot)) : ownUpdate d ch = some slot := by simp [ownUpdate, h]
theorem otherUpdate_of {d : Dev} {ch slot : Nat} (h : d.flash.update = some (ch, slot)) : otherUpdate d ch = false := by simp [otherUpdate, ownUpdate_of h]

/-- The slot that an update begins. -/
def slotBegun (p : List Byte) : Slot := { state := .incomplete, length := u32 p 4, crc := BitVec.ofNat 32 (u32 p 8) }

include hp

theorem judgeUpdateBegin_begins (hm : updateMode t = true) (hlen : 12 ≤ p.length) (hslot : u8 p 0 ≤ 1) (hz : isZero p 1 3 = true) (hlo : u32 p 4 ≠ 0)
    (hhi : u32 p 4 ≤ 33554432) (hother : otherUpdate d t.req.ch.val = false) (hrun : d.flash.running ≠ u8 p 0) :
    judgeUpdateBegin d t none = ({ d with flash := { slotPut d.flash (u8 p 0) (slotBegun p) (nextBoot d.flash) with update := some (t.req.ch.val, u8 p 0) } },
      .wait (.slotErase (u8 p 0))) := by
  simp only [judgeUpdateBegin, hp, hm, hother]
  rw [if_neg (by decide), if_neg, if_neg (by decide), if_neg hrun]
  · rfl
  · rw [longEnough_of_le (hp ▸ hlen), hz]
    simp
    omega

/-- The slot as a chunk makes it grow. -/
def slotGrown (x : Slot) (off : Nat) (bs : List Byte) : Slot := { x with received := off + bs.length, bytes := x.bytes ++ bs }

omit hp in
theorem programChunk_ok {slot off : Nat} {bs : List Byte} (he : erasing d slot = false) (hoff : off = (tabGet d.flash.slots slot).received)
    (hfits : off + bs.length ≤ (tabGet d.flash.slots slot).length) :
    programChunk d slot off bs = ({ d with flash := { d.flash with slots := tabSet d.flash.slots slot (slotGrown (tabGet d.flash.slots slot) off bs) } },
      .now .ok (zeros 3 ++ p32 (off + bs.length))) := by
  simp only [programChunk]
  rw [if_neg (ne_true_of_eq_false he), if_neg (by omega)]
  rfl

theorem judgeChunk_programs {slot : Nat} (hm : updateMode t = true) (hu : d.flash.update = some (t.req.ch.val, slot)) (hbulk : t.req.bulk = false)
    (hlo : 1 ≤ u16 p 4) (hhi : u16 p 4 ≤ 48) (hz : isZero p 6 2 = true) (hlen : 8 + u16 p 4 ≤ p.length) :
    judgeChunk d t none = programChunk d slot (u32 p 0) (slice p 8 (u16 p 4)) := by
  simp only [judgeChunk, hp, hm, hbulk, otherUpdate_of hu, ownUpdate_of hu]
  rw [if_neg (by decide), if_neg, if_neg (by decide), if_neg (by decide), if_neg]
  · rw [longEnough_of_le (hp ▸ hlen), hz]
    simp
    omega
  · rw [if_neg (by decide), longEnough_of_le (by rw [hp]; omega : 8 ≤ t.req.payload.length)]
    decide

theorem judgeChunk_fetches {slot : Nat} (hm : updateMode t = true) (hu : d.flash.update = some (t.req.ch.val, slot)) (hbulk : t.req.bulk = true)
    (hlen : 20 ≤ p.length) (hok : bulkOk (bulkRef p 4) = true) :
    judgeChunk d t none = (d, .fetch (bulkRef p 4).1 (bulkRef p 4).2.1 (bulkRef p 4).2.2) := by
  simp only [judgeChunk, hp, hm, hbulk, otherUpdate_of hu, ownUpdate_of hu, needFetch, hok]
  rw [if_neg (by decide), if_neg, if_neg (by decide), if_pos trivial, if_neg (by decide)]
  rw [if_pos trivial, longEnough_of_le (hp ▸ hlen)]
  decide

/-- An image that is not whole, intact and signed. -/
def imageBad (f : Flash) (x : Slot) : Bool := crc32c x.bytes != x.crc || !imageCrcOk x.bytes || !imageSigned f x.bytes

/-- The flash after a commit: the slot is valid and its image's revocations hold; or the slot is invalid. -/
def slotCommitted (x : Slot) : Slot :=
  { x with state := .valid, version := BitVec.ofNat 16 (u16 x.bytes 12), encrypted := bit (imageFlags x.bytes) 0 }
def flashCommitted (f : Flash) (flags slot : Nat) (x : Slot) : Flash :=
  let g := slotPut f slot (slotCommitted x) (if bit flags 0 then slot else nextBoot f)
  { g with update := none, revoked := g.revoked ||| imageRevokes x.bytes }
def flashRejected (f : Flash) (slot : Nat) (x : Slot) : Flash :=
  { slotPut f slot { x with state := .invalid } (nextBoot f) with update := none }
def commitDev (d : Dev) (flags : Nat) (g : Flash) : Dev :=
  if bit flags 1 then fw { d with flash := g } (fun f => { f with resetPending := f.resetPending ++ [.warm 3] }) else { d with flash := g }

omit hp in
theorem flashCommitted_holds (f : Flash) (flags slot : Nat) (x : Slot) : let g := flashCommitted f flags slot x
    tabGet g.slots slot = slotCommitted x ∧ g.revoked = f.revoked ||| imageRevokes x.bytes ∧ (bit flags 0 = true → slot ≤ 1 → nextBoot g = slot) := by
  obtain ⟨hslot, hrevoked, hnext⟩ := slotPut_holds f slot (slotCommitted x) (if bit flags 0 then slot else nextBoot f)
  refine ⟨hslot, congrArg (· ||| imageRevokes x.bytes) hrevoked, fun hflag hle =>
    (nextBoot_congr (f := slotPut f slot (slotCommitted x) (if bit flags 0 then slot else nextBoot f)) rfl rfl).trans ?_⟩
  rw [if_pos hflag] at hnext ⊢
  exact hnext hle

omit hp in
theorem commitDev_holds (d : Dev) (flags : Nat) (g : Flash) : (commitDev d flags g).flash = g ∧
    (commitDev d flags g).fw.resetPending = d.fw.resetPending ++ (if bit flags 1 then [.warm 3] else []) := by
  unfold commitDev
  split
  · exact ⟨rfl, rfl⟩
  · exact ⟨rfl, (List.append_nil _).symm⟩

section
variable {slot : Nat} (hm : updateMode t = true) (hlen : 4 ≤ p.length) (hfl : u8 p 1 ≤ 3) (hz : isZero p 2 2 = true) (h0 : u8 p 0 = slot) (hslot : slot ≤ 1)
  (hu : d.flash.update = some (t.req.ch.val, slot)) (he : erasing d slot = false)
  (hwhole : (tabGet d.flash.slots slot).length ≤ (tabGet d.flash.slots slot).received)
include hm hlen hfl hz h0 hslot hu he hwhole

theorem judgeFwCommit_whole : judgeFwCommit d t none =
    let x := tabGet d.flash.slots slot
    if imageBad d.flash x then ({ d with flash := flashRejected d.flash slot x }, .now .integrity (p8 slot ++ p8 (slotCode .invalid)))
    else (commitDev d (u8 p 1) (flashCommitted d.flash (u8 p 1) slot x), .now .ok (p8 slot ++ p8 (slotCode .valid))) := by
  simp only [judgeFwCommit, hp, hm, h0, otherUpdate_of hu, ownUpdate_of hu, he]
  rw [if_neg (by decide), if_neg, if_neg (by decide), if_neg (by simp), if_neg (by decide), if_neg (by omega)]
  · unfold imageBad
    generalize (crc32c _ != _ || _ || _) = bad
    cases bad <;> rfl
  · rw [longEnough_of_le (hp ▸ hlen), hz]
    simp
    omega

end

/-! Latencies and self-tests (R447, R242). -/

theorem judgeOutLatency_traced {segs : List PathSeg} (hlen : 12 ≤ p.length)
    (hout : (u8 p 8 = 1 ∧ u8 p 9 < 2 ∧ u16 p 10 < 16) ∨ (u8 p 8 = 2 ∧ u8 p 9 < 32 ∧ u16 p 10 < 8) ∨ (u8 p 8 = 3 ∧ u8 p 9 < 64 ∧ u16 p 10 < 256))
    (hsrc : srcRange { kind := u8 p 0, chan := u8 p 1, index := u16 p 2 } = true) (hkind : u8 p 0 = 1 ∨ u8 p 0 = 2 ∨ u8 p 0 = 3 ∨ u8 p 0 = 7)
    (hpath : (u16 p 4 = 0xFFFF ∧ u16 p 6 = 0xFFFF) ∨ (u16 p 4 < nObjects ∧ colOk (u16 p 6) = true))
    (hsegs : pathSegs d { kind := u8 p 0, chan := u8 p 1, index := u16 p 2 } (if u16 p 4 = 0xFFFF then none else some (u16 p 4))
      (if u16 p 6 = 0xFFFF then none else some (u16 p 6)) (u8 p 8) (u8 p 9) (u16 p 10) = some segs) :
    ∃ ns : Nat, judgeOutLatency d t none =
      ansB d .ok (p8 segs.length ++ zeros 2 ++ p32 ns ++ segs.flatMap (fun s => p8 s.dom ++ zeros 1 ++ p16 s.n)) := by
  have hoc : ((u8 p 8 == 1 && decide (u8 p 9 < 2) && decide (u16 p 10 < 16)) || (u8 p 8 == 2 && decide (u8 p 9 < 32) && decide (u16 p 10 < 8)) ||
      (u8 p 8 == 3 && decide (u8 p 9 < 64) && decide (u16 p 10 < 256))) = true := by simpa [and_assoc, or_assoc] using hout
  have hic : (u8 p 0 == 1 || u8 p 0 == 2 || u8 p 0 == 3 || u8 p 0 == 7) = true := by simpa [or_assoc] using hkind
  have hpc : (u16 p 4 == 0xFFFF && u16 p 6 == 0xFFFF || decide (u16 p 4 < nObjects) && colOk (u16 p 6)) = true := by simpa using hpath
  simp only [judgeOutLatency, hp, hoc, hsrc, hic, hpc, longEnough_of_le (hp ▸ hlen)]
  rw [if_neg (by decide), hsegs]
  exact ⟨_, rfl⟩

theorem judgeSelftest_admits {m : Nat} (hlen : 4 ≤ p.length) (hm : u32 p 0 = m) (hmode : inModes t [.selftest, .service, .twin] = true)
    (hoff : m % 16 = 0 ∨ tMode t = .selftest) (hres : m / 16 % 16 = 0) (hhi : m < 2048) (hfree : d.selftest.mask = none) :
    judgeSelftest d t none = if m = 0 then ansB d .ok (selfBody {}) else ({ d with selftest := { mask := some m } }, .wait .selftest) := by
  have hgo : ¬(decide (m % 16 ≠ 0) && tMode t != .selftest || !inModes t [.selftest, .service, .twin]) = true := by
    rw [hmode]
    rcases hoff with h | h <;> simp [h]
  simp only [judgeSelftest, hp, hm]
  rw [if_neg (by rw [longEnough_of_le (hp ▸ hlen)]; decide), if_neg hgo, if_neg (by simp [hres]; omega), if_neg (by rw [hfree]; decide)]

end

/-! What the state holds after a request that is answered, or whose reply waits. -/

/-- A request refused is answered without a ticket. -/
theorem reqRow1_refused {s : State} {op : Op} {j : Judge1} {r : Req} (hs : served s (takes s op r)) {d : Dev} {st : Status} {body : List Byte} {b : Bool}
    (h : j (quiet s) (takes s op r) none = (d, .now st body b)) (hok : st ≠ .ok) (hlate : st ≠ .late) :
    reqRow1 op j r s = .next (after s (reply d (takes s op r) st body b)) := by
  rw [reqRow1_served hs]
  simp only [judged, h, finish]
  rw [if_neg (by simp [hok, hlate])]

theorem reqRow1_grantedBulk {s : State} {op : Op} {j : Judge1} {r : Req} (hs : served s (takes s op r)) {d : Dev} {body : List Byte} {b : Bool}
    (h : j (quiet s) (takes s op r) none = (d, .now .ok body b)) : reqRow1 op j r s = .next (granted s (takes s op r) d body b) := by
  rw [reqRow1_served hs, judged_ok h]

theorem getSession_after {s : State} {d e : Dev} (h : ReplySame d e) (k : Nat) : getSession (after s e).dev k = getSession d k := by
  obtain ⟨hses, _⟩ := h.kept
  exact congrArg (fun x => tabGet x k) ((settle_fw_sessions e).trans hses)

/-- The device after a reply, as far as firmware updates read it. -/
theorem flash_after {s : State} {d e : Dev} (h : ReplySame d e) : (after s e).dev.flash = d.flash ∧ (after s e).dev.fw.waits = d.fw.waits ∧
    (after s e).dev.fw.resetPending = d.fw.resetPending := by
  obtain ⟨_, hwaits, hreset, _, hflash, _⟩ := h.kept
  exact ⟨(settle_flash e).trans hflash, (settle_fw_waits e).trans hwaits, (settle_fw_resetPending e).trans hreset⟩

/-- The state after a request whose reply waits, where no pair hands requests on. -/
theorem awaits_eq {t : Taken} (h : pairWide t.op t.req.payload = false) (s : State) (d : Dev) (w : WaitFor) :
    awaits s t d w = after s { d with fw := { d.fw with waits := d.fw.waits ++ [{ taken := t, what := w }] } } := by
  rw [awaits, commandTicket_of_not_pairWide h]

theorem any_append_self {α : Type} {f : α → Bool} {a : α} (l : List α) (h : f a = true) : (l ++ [a]).any f = true := by
  rw [List.any_append, Bool.or_eq_true_iff]
  exact .inr (by simp [h])

/-! The reply of CAPS (R438). -/

/-- A capability of the grade built. -/
def gradeCap (af other : Nat) : Nat := if Config.gradeAF then af else other
def capsRest : List Byte := p16 (gradeCap 64 28) ++ p32 (gradeCap 4194304 2097152) ++ p32 768000 ++ p64 31457280000 ++ p16 256 ++ p16 256 ++ p16 256 ++
  p16 4096 ++ [4, 16, 16, 8, 8, 16] ++ p16 640 ++ p64 Config.deviceId.toNat ++ p32 7
def capsBody : List Byte := p8 (gradeCap 0 1) ++ p8 (gradeCap 7 5) ++ p8 3 ++ (p16 (gradeCap 1024 512) ++ (p16 (gradeCap 512 256) ++ (p16 (gradeCap 640 320) ++ capsRest)))

theorem judgeCaps_body (d : Dev) (t : Taken) : judgeCaps d t none = ansB d .ok capsBody := by
  refine congrArg (ansB d .ok) ?_
  simp only [capsBody, capsRest, List.append_assoc]
  rfl

theorem gradeCap_lt {a b n : Nat} (ha : a < n) (hb : b < n) : gradeCap a b % n = gradeCap a b := by
  refine Nat.mod_eq_of_lt ?_
  unfold gradeCap
  split <;> assumption

theorem capsBody_fields : u16 capsBody 3 = gradeCap 1024 512 ∧ u16 capsBody 5 = gradeCap 512 256 ∧ u16 capsBody 7 = gradeCap 640 320 := by
  have hhead : (p8 (gradeCap 0 1) ++ p8 (gradeCap 7 5) ++ p8 3).length = 3 := rfl
  have hobjects := u16_append_p16_append (p8 (gradeCap 0 1) ++ p8 (gradeCap 7 5) ++ p8 3) (gradeCap 1024 512) (p16 (gradeCap 512 256) ++ (p16 (gradeCap 640 320) ++ capsRest))
  have hcolumns := u16_append_p16_append (p8 (gradeCap 0 1) ++ p8 (gradeCap 7 5) ++ p8 3 ++ p16 (gradeCap 1024 512)) (gradeCap 512 256) (p16 (gradeCap 640 320) ++ capsRest)
  have hspeakers := u16_append_p16_append (p8 (gradeCap 0 1) ++ p8 (gradeCap 7 5) ++ p8 3 ++ p16 (gradeCap 1024 512) ++ p16 (gradeCap 512 256)) (gradeCap 640 320) capsRest
  rw [gradeCap_lt (by decide) (by decide)] at hobjects hcolumns hspeakers
  rw [show (p8 (gradeCap 0 1) ++ p8 (gradeCap 7 5) ++ p8 3 ++ p16 (gradeCap 1024 512)).length = 5 from rfl] at hcolumns
  rw [show (p8 (gradeCap 0 1) ++ p8 (gradeCap 7 5) ++ p8 3 ++ p16 (gradeCap 1024 512) ++ p16 (gradeCap 512 256)).length = 7 from rfl] at hspeakers
  simp only [List.append_assoc] at hobjects hcolumns hspeakers
  simp only [capsBody, List.append_assoc]
  exact ⟨hobjects, hcolumns, hspeakers⟩

/-- Settles O52: each request is what its rule judges where nothing refuses it, answered or under way.  VERSION says 0.0 on a channel without a session
by the model's choice (log entry 73). -/
theorem sessionRequestsTakeEffect : Obligations.SessionRequestsTakeEffect := by
  intro r s p d ch
  refine ⟨?hello, ?bye, ?version, ?caps, ?ping, ?modeSet, ?modeGet, ?resetReq, ?counters, ?block, ?logReply, ?logDeposit, ?latency, ?updateBegin, ?chunk,
    ?commit, ?slotInfo, ?selftest⟩
  case hello =>
    rintro _ v rfl hs hlen hz hlo hhi hv
    refine ⟨fun o ho => bestVer_max hv ho, ?_⟩
    obtain ⟨e, he, hstate⟩ := answered_same (t := takes s .hello r) rfl s _ .ok _ false
    have hexec := reqRow1_granted hs (judgeHello_opens (d := d) (t := takes s .hello r) rfl hlen hz hlo hhi hv)
    obtain ⟨_, _, _, hmode, _, hdom, htiles, hscene, _, _⟩ := he.kept
    refine ⟨_, hexec.trans (congrArg _ hstate), fun k hk => ?_, (settle_dom e).trans hdom, (settle_tiles_mem e).trans (congrArg (·.mem) htiles),
      (mode_after s e).trans hmode, (settle_scene e).trans hscene, ?_⟩
    · have hkeep : getSession (sessionMod d ch (fun _ => helloSession p v)) k = getSession d k := (getSession_sessionMod ..).trans (if_neg hk)
      exact (getSession_after he k).trans hkeep
    · have hopen : getSession (sessionMod d ch (fun _ => helloSession p v)) ch = helloSession p v := (getSession_sessionMod ..).trans (if_pos rfl)
      exact (getSession_after he ch).trans hopen
  case bye =>
    rintro _ rfl hs
    have hexec := (reqRow1_underWay hs (j := judgeBye) rfl).trans
      (congrArg (fun e => Host.Outcome.next (after s e)) (commandTicket_of_not_pairWide (t := takes s .bye r) rfl _ 0 none true))
    obtain ⟨hkeep, _⟩ := ((cancelChannel_withdraw d ch).trans (addLog_withdraw _ 5 0 ch [0])).kept
    obtain ⟨hreply, _⟩ := (reply_same (addLog (cancelChannel d ch) 5 0 ch [0]) (takes s .bye r) .ok [] false).kept
    have hses : ∀ k, getSession (reply (addLog (cancelChannel d ch) 5 0 ch [0]) (takes s .bye r) .ok []) k = getSession s.dev k :=
      fun k => congrArg (fun x => tabGet x k) (hreply.trans hkeep)
    refine ⟨_, hexec, ?_, fun k hk => ?_⟩
    · exact (congrArg (fun x => tabGet x ch) (settle_fw_sessions _)).trans ((getSession_sessionMod _ ch ch _).trans (if_pos rfl))
    · exact (congrArg (fun x => tabGet x k) (settle_fw_sessions _)).trans ((getSession_sessionMod _ ch k _).trans ((if_neg hk).trans (hses k)))
  case version =>
    rintro _ rfl hs g
    refine ⟨_, reqRow1_granted hs (j := judgeVersion) rfl, rfl, ?_, ?_, rfl⟩
    · exact (BitVec.toNat_ofNat _ 8).trans (apply_ite (· % 256) _ _ _)
    · exact (BitVec.toNat_ofNat _ 8).trans (apply_ite (· % 256) _ _ _)
  case caps =>
    rintro _ rfl hs
    exact ⟨capsBody, reqRow1_granted hs (judgeCaps_body d (takes s .caps r)), capsBody_fields⟩
  case ping =>
    rintro _ rfl hs
    exact exec_ping hs
  case modeSet =>
    rintro _ m rfl hs hlen hz hm hoff hboot hfac hc hwait
    have hj := judgeModeSet_same (d := d) (t := takes s .modeSet r) rfl hlen hz hm hoff hboot hfac hc hwait
    refine ⟨fun hsame => ?_, fun hne hto => ⟨fun htwin hren => ?_, fun hstill => ⟨?_, fun h1 h2 h3 h4 h5 h6 => ?_⟩⟩⟩
    · exact reqRow1_granted hs ((hj.trans (if_pos (beq_iff_eq.2 hsame))).trans rfl)
    · have hgo := (hj.trans (if_neg (mt beq_iff_eq.1 hne))).trans (if_neg (ne_true_of_eq_false (congrArg (! ·) hto)))
      exact reqRow1_committed hs (hgo.trans (if_pos (Bool.and_eq_true_iff.2 ⟨beq_iff_eq.2 htwin, hren⟩)))
    · have hgo := (hj.trans (if_neg (mt beq_iff_eq.1 hne))).trans (if_neg (ne_true_of_eq_false (congrArg (! ·) hto)))
      refine reqRow1_underWay hs (hgo.trans (if_neg fun h => ?_))
      obtain ⟨htwin, hren⟩ := Bool.and_eq_true_iff.1 h
      exact Bool.false_ne_true ((hstill (beq_iff_eq.1 htwin)).symm.trans hren)
    · exact beginMode_changing (d := d) hc h1 h2 h3 h4 h5 h6
  case modeGet =>
    rintro _ rfl hs
    exact ⟨_, reqRow1_granted hs (j := judgeModeGet) rfl, rfl, u8_ofNat_of_lt (modeCode_lt _), u8_ofNat_of_lt (modeCode_lt _),
      u8_ofNat_of_lt s.dev.aon.safeReason.isLt, u8_ofNat_of_lt (by have := s.dev.aon.bootcnt.isLt; omega)⟩
  case resetReq =>
    rintro _ rfl hs hlen hkey asks
    have hj := judgeResetReq_asks (d := d) (t := takes s .resetReq r) (p := p) rfl hlen hkey
    refine ⟨fun h0 => ?_, fun h1 => ?_, fun h2 hlo hhi hmode => ?_⟩
    · exact reqRow1_granted hs ((hj (by omega) (by omega)).trans
        (congrArg (fun x => ((asks x, .now .ok []) : Dev × Ans)) (if_pos h0)))
    · exact reqRow1_granted hs ((hj (by omega) (by omega)).trans
        (congrArg (fun x => ((asks x, .now .ok []) : Dev × Ans)) ((if_neg (by omega)).trans (if_pos h1))))
    · exact reqRow1_granted hs ((hj (by omega) fun _ => ⟨⟨hlo, hhi⟩, hmode⟩).trans
        (congrArg (fun x => ((asks x, .now .ok []) : Dev × Ans)) ((if_neg (by omega)).trans (if_neg (by omega)))))
  case counters =>
    rintro _ rfl hs n es h0 hlo hhi hz hlen hrange
    exact (reqRow_eq_reqRow1 h0 rfl).trans (reqRow1_granted hs (judgeCounters_ok (d := d) (t := takes s .telemetryGet r) rfl rfl rfl h0 hlo hhi hz hlen hrange))
  case block =>
    rintro _ rfl hs n a ws off h1 hlo h4 halo hahi hwin
    refine ⟨fun hbulk hlen hhi => ?_, fun hbulk hlen hhi hok hfits => ?_⟩
    · exact (reqRow_eq_reqRow1 h1 rfl).trans
        (reqRow1_granted hs (judgeBlock_reply (d := d) (t := takes s .telemetryGet r) rfl rfl rfl h1 hlo h4 halo hahi hwin hbulk hlen hhi))
    · exact (reqRow_eq_reqRow1 h1 rfl).trans
        (reqRow1_grantedBulk hs (judgeBlock_deposit (d := d) (t := takes s .telemetryGet r) rfl rfl rfl h1 hlo h4 halo hahi hwin hbulk hlen hhi hok hfits))
  case logReply =>
    rintro _ rfl hs hbulk hlen hone
    refine ⟨_, reqRow1_granted hs (judgeLogRead_reply (d := d) (t := takes s .logRead r) rfl hbulk hlen hone), fun hat e l hlog hl => ⟨logHead d p, rfl, ?_⟩⟩
    have hgiven := logGiven_oldest (d := d) hone hat hlog hl
    exact (congrArg (fun es => logHead d p ++ es.flatMap logBytes) hgiven).trans (congrArg (logHead d p ++ ·) (List.flatMap_singleton ..))
  case logDeposit =>
    rintro _ rfl hs hbulk hlen hlo hhi hok hfits
    exact ⟨_, _, reqRow1_grantedBulk hs (judgeLogRead_deposit (d := d) (t := takes s .logRead r) rfl hbulk hlen hlo hhi hok hfits)⟩
  case latency =>
    rintro _ segs rfl hs hlen k input hout hsrc hkind hpath hsegs
    obtain ⟨ns, hns⟩ := judgeOutLatency_traced (d := d) (t := takes s .outLatencyGet r) rfl hlen hout hsrc hkind hpath hsegs
    exact ⟨ns, reqRow1_granted hs hns⟩
  case updateBegin =>
    rintro _ rfl hs hm hlen hslot hz hlo hhi hother hrun
    have hj := judgeUpdateBegin_begins (d := d) (t := takes s .fwUpdateBegin r) rfl hm hlen hslot hz hlo hhi hother hrun
    obtain ⟨hbegun, _, _⟩ := slotPut_holds s.dev.flash (u8 p 0) (slotBegun p) (nextBoot s.dev.flash)
    refine ⟨_, (reqRow1_awaits hs hj).trans (congrArg Host.Outcome.next (awaits_eq rfl ..)), ?_, ?_, ?_⟩
    · exact congrArg (·.update) (settle_flash _)
    · exact (congrArg (fun ws : List Wait => ws.any (fun w => w.what == .slotErase (u8 p 0))) (settle_fw_waits _)).trans
        (any_append_self _ (beq_iff_eq.2 rfl))
    · exact (congrArg (fun f : Flash => tabGet f.slots (u8 p 0)) (settle_flash _)).trans hbegun
  case chunk =>
    rintro _ slot rfl hs hm hu x grown puts
    refine ⟨fun hbulk hlo hhi hz hlen he hoff hfits => ?_, fun hbulk hlen hok => ?_⟩
    · have hlength : (slice p 8 (u16 p 4)).length = u16 p 4 := length_slice ..
      have hj := judgeChunk_programs (d := d) (t := takes s .fwChunk r) rfl hm hu hbulk hlo hhi hz hlen
      have hput := programChunk_ok (d := d) (slot := slot) (off := u32 p 0) (bs := slice p 8 (u16 p 4)) he hoff (by rw [hlength]; exact hfits)
      rw [hlength] at hput
      exact reqRow1_granted hs (hj.trans hput)
    · exact reqRow1_fetches hs (judgeChunk_fetches (d := d) (t := takes s .fwChunk r) rfl hm hu hbulk hlen hok)
  case commit =>
    rintro _ rfl hs hm hlen hfl hz slot x hslot hu he hwhole
    have hj := judgeFwCommit_whole (d := d) (t := takes s .fwCommit r) rfl hm hlen hfl hz rfl hslot hu he hwhole
    refine ⟨fun hcrc himage hsigned => ?_, fun hcrc => ?_⟩
    · have hgood : imageBad s.dev.flash x = false := by rw [imageBad, himage, hsigned, bne_eq_false_iff_eq.2 hcrc]; rfl
      obtain ⟨e, he, hstate⟩ := answered_same (t := takes s .fwCommit r) rfl s (commitDev d (u8 p 1) (flashCommitted s.dev.flash (u8 p 1) slot x)) .ok
        (p8 slot ++ p8 (slotCode .valid)) false
      obtain ⟨hflash, _, hreset⟩ := flash_after (s := s) he
      obtain ⟨hcommit, hpending⟩ := commitDev_holds d (u8 p 1) (flashCommitted s.dev.flash (u8 p 1) slot x)
      obtain ⟨hput, hrevoked, hnext⟩ := flashCommitted_holds s.dev.flash (u8 p 1) slot x
      refine ⟨_, (reqRow1_granted hs (hj.trans (if_neg (ne_true_of_eq_false hgood)))).trans (congrArg Host.Outcome.next hstate), ?_⟩
      rw [hflash, hreset, hcommit]
      exact ⟨rfl, congrArg (·.state) hput, congrArg (·.bytes) hput, fun h => hnext h hslot, hrevoked, hpending⟩
    · have hbad : imageBad s.dev.flash x = true := by rw [imageBad, bne_iff_ne.2 hcrc]; rfl
      have hflash := (flash_after (s := s) (reply_same { d with flash := flashRejected s.dev.flash slot x } (takes s .fwCommit r) .integrity
        (p8 slot ++ p8 (slotCode .invalid)) false)).1
      obtain ⟨hput, _, _⟩ := slotPut_holds s.dev.flash slot { x with state := .invalid } (nextBoot s.dev.flash)
      exact ⟨_, reqRow1_refused hs (hj.trans (if_pos hbad)) nofun nofun, congrArg (·.update) hflash,
        (congrArg (fun f : Flash => (tabGet f.slots slot).state) hflash).trans (congrArg (·.state) hput)⟩
  case slotInfo =>
    rintro _ rfl hs
    refine ⟨_, reqRow1_granted hs (j := judgeSlotInfo) rfl, rfl, BitVec.toNat_ofNat _ 8, u8_ofNat_of_lt (slotCode_lt _), u8_ofNat_of_lt (slotCode_lt _)⟩
  case selftest =>
    rintro _ rfl hs hlen m hmode hoff hres hhi hfree
    have hj := judgeSelftest_admits (d := d) (t := takes s .selftestRun r) rfl hlen rfl hmode hoff hres hhi hfree
    exact ⟨fun h0 => reqRow1_granted hs (hj.trans (if_pos h0)), fun h0 => reqRow1_awaits hs (hj.trans (if_neg h0))⟩

end Sys2Proof.Machine


/-! Fetched regions (R199, R441, R452), finished work of the engines (R112, R199, R242, R305), what ended ramps release (R83, R107, R114), and O38. -/

namespace Sys2Proof.Machine

/-! Fetched regions (R441). -/

/-- The oldest region of each channel. -/
def fetchHeads (l : List BulkWait) : List BulkWait :=
  l.foldl (fun a b => if a.any (fun x => x.taken.req.ch == b.taken.req.ch) then a else a ++ [b]) []

theorem mem_of_mem_fetchHeads (l : List BulkWait) : ∀ b ∈ fetchHeads l, b ∈ l := by
  unfold fetchHeads
  induction l using List.reverseRecOn with
  | nil => simp
  | append_singleton l x ih =>
    rw [List.foldl_append, List.foldl_cons, List.foldl_nil]
    intro b hb
    split at hb
    · exact List.mem_append_left _ (ih b hb)
    · rcases List.mem_append.1 hb with hold | hnew
      · exact List.mem_append_left _ (ih b hold)
      · exact List.mem_append_right _ hnew

/-- The region that a channel moves is one of those that wait, and the channel's. -/
theorem fetchOf_some {d : Dev} {ch : Fin 8} {b : BulkWait} (h : fetchOf d ch.val = some b) : b ∈ d.fw.bulks ∧ b.taken.req.ch = ch :=
  ⟨mem_of_mem_fetchHeads _ b (List.mem_of_mem_take (List.mem_of_find?_eq_some h)), Fin.ext (beq_iff_eq.1 (List.find?_some h :))⟩

section
variable {d : Dev} {ch : Nat}

theorem fetchOver_none (h : fetchOf d ch = none) (f : Dev → BulkWait → Dev) : fetchOver d ch f = d := by rw [fetchOver, h]

section
variable {b : BulkWait} (h : fetchOf d ch = some b)
include h

theorem fetchOver_dead (hl : b.live = false) (f : Dev → BulkWait → Dev) :
    fetchOver d ch f = fw d (fun w => { w with bulks := w.bulks.erase b }) := by
  simp only [fetchOver, h, hl]
  rfl
theorem fetchOver_live (hl : b.live = true) (hup : d.hif.ctrlUp = true) (f : Dev → BulkWait → Dev) :
    fetchOver d ch f = f (fw d (fun w => { w with bulks := w.bulks.erase b })) b := by
  have hgo : (b.live && (fw d (fun w => { w with bulks := w.bulks.erase b })).hif.ctrlUp) = true := Bool.and_eq_true_iff.2 ⟨hl, hup⟩
  simp only [fetchOver, h]
  rw [if_pos hgo]
theorem loadMeets_of_fetch (st : Status) : loadMeets d ch st = d := by rw [loadMeets, h]; rfl

end

/-- A bus error leaves what the channels fetch. -/
theorem fetchOf_loadMeets (st : Status) (n : Nat) : fetchOf (loadMeets d ch st) n = fetchOf d n := by
  unfold loadMeets
  split <;> rfl

end

section
variable {d : Dev} {ch : Fin 8} (h : fetchOf d ch.val = none) (st : Status)
include h

theorem loadMeets_idle : loadMeets d ch.val st = mantleMod d (fun m => { m with load := m.load.map (fun l =>
    if (l.asked.map (·.req.ch.val)) == some ch.val then { l with busErr := some st } else l) }) := by
  rw [loadMeets, h]
  rfl

omit h in
theorem asks_iff (l : MLoad) : ((l.asked.map (·.req.ch.val)) == some ch.val) = true ↔ l.asked.map (·.req.ch) = some ch := by
  cases l.asked with
  | none => simp
  | some t => simp [Fin.ext_iff]

theorem loadMeets_unmet (hl : ∀ l, d.mantle.load = some l → l.asked.map (·.req.ch) ≠ some ch) : loadMeets d ch.val st = d := by
  have hload : d.mantle.load.map (fun l => if (l.asked.map (·.req.ch.val)) == some ch.val then { l with busErr := some st } else l) = d.mantle.load := by
    cases hm : d.mantle.load with
    | none => rfl
    | some l => exact congrArg some (if_neg (mt (asks_iff l).1 (hl l hm)))
  rw [loadMeets_idle h, mantleMod, hload]

theorem loadMeets_met {l : MLoad} (hm : d.mantle.load = some l) (hl : l.asked.map (·.req.ch) = some ch) :
    loadMeets d ch.val st = { d with mantle := { d.mantle with load := some { l with busErr := some st } } } := by
  rw [loadMeets_idle h, mantleMod, hm, Option.map_some, if_pos ((asks_iff l).2 hl)]

/-- A channel that moves no region has nothing to finish. -/
theorem fetchOver_loadMeets (f : Dev → BulkWait → Dev) : fetchOver (loadMeets d ch.val st) ch.val f = loadMeets d ch.val st :=
  fetchOver_none ((fetchOf_loadMeets st ch.val).trans h) f

end

/-! What a column's binding leaves of the scene (R107, R114). -/

/-- The scene after column c has taken a binding. -/
def bindScene (s : Scene) (c : Nat) (dest : Binding) : Scene :=
  let moved := (getCol s c).bind.mode = 0 ∨ dest.mode = 0 ∨ (getCol s c).bind.dom ≠ dest.dom
  { s with cols := tabMod s.cols c (fun x => { x with bind := dest, unbind := none, compiled := x.compiled && !decide moved })
           job := if moved then s.job.map (fun j => { j with live := j.live.filter (· != c) }) else s.job
           objs := if moved then s.objs.map (fun kv => (kv.1, { kv.2 with ents := kv.2.ents.filter (fun e => e.1 != c) })) else s.objs }

theorem bindColumn_scene (d : Dev) (c : Nat) (dest : Binding) : (bindColumn d c dest).scene = bindScene d.scene c dest := by
  unfold bindColumn
  extract_lets old moved frees kept bound orphaned cleared freed joined
  have hkept : kept.scene = d.scene := by simp only [kept]; split <;> rfl
  have hbound : bound.scene = bindScene d.scene c dest := by
    simp only [bound, sceneMod_scene, hkept]
    rfl
  have horphaned : orphaned.scene = bound.scene := by
    simp only [orphaned]
    split
    · exact foldl_keeps Dev.scene _ (fun _ _ => evFault_scene ..) _ bound
    · rfl
  have hjoined : joined.scene = bound.scene := by
    simp only [joined, freed, cleared]
    rw [joinGate_scene]
    split <;> simp [horphaned]
  split
  · exact hbound
  · rw [← hbound, ← hjoined]
    (repeat' split) <;> rfl

/-- The parts of the scene that a binding keeps: layout, emission groups, build, bank, and that no layout is compiled. -/
def LayoutSame (d e : Dev) : Prop :=
  e.scene.layout = d.scene.layout ∧ e.scene.groups = d.scene.groups ∧ e.scene.build = d.scene.build ∧ e.scene.activeBank = d.scene.activeBank ∧
  e.scene.job.isSome = d.scene.job.isSome

theorem LayoutSame.refl (d : Dev) : LayoutSame d d := ⟨rfl, rfl, rfl, rfl, rfl⟩
theorem LayoutSame.trans {a b c : Dev} : LayoutSame a b → LayoutSame b c → LayoutSame a c := by
  rintro ⟨h1, h2, h3, h4, h5⟩ ⟨k1, k2, k3, k4, k5⟩
  exact ⟨k1.trans h1, k2.trans h2, k3.trans h3, k4.trans h4, k5.trans h5⟩

theorem bindColumn_layout (d : Dev) (c : Nat) (dest : Binding) : LayoutSame d (bindColumn d c dest) := by
  have hjob : (bindScene d.scene c dest).job.isSome = d.scene.job.isSome := by
    simp only [bindScene]
    split
    · exact Option.isSome_map
    · rfl
  rw [LayoutSame, bindColumn_scene]
  exact ⟨rfl, rfl, rfl, rfl, hjob⟩

theorem foldl_layout {α : Type} (f : Dev → α → Dev) (h : ∀ d a, LayoutSame d (f d a)) (l : List α) (d : Dev) : LayoutSame d (l.foldl f d) :=
  foldl_rel LayoutSame LayoutSame.refl (fun _ _ _ => LayoutSame.trans) f h l d

/-- A bound column's unbinding is over, and no other column's is. -/
theorem unbind_bindColumn (d : Dev) (c : Nat) (dest : Binding) (k : Nat) :
    (getCol (bindColumn d c dest).scene k).unbind = if k = c then none else (getCol d.scene k).unbind := by
  rw [bindColumn_scene]
  simp only [getCol, bindScene]
  by_cases hk : k = c
  · rw [hk, tabGet_tabMod_same, if_pos rfl]
  · rw [tabGet_tabMod_ne _ _ _ _ hk, if_neg hk]
theorem unbind_bindColumns (dest : Nat → Binding) {cols : List Nat} {k : Nat} (d : Dev)
    (hk : k ∈ cols ∨ (getCol d.scene k).unbind = none) : (getCol (cols.foldl (fun d k => bindColumn d k (dest k)) d).scene k).unbind = none := by
  induction cols generalizing d with
  | nil => exact hk.resolve_left List.not_mem_nil
  | cons c cols ih =>
    refine ih _ ?_
    rw [unbind_bindColumn]
    by_cases hc : k = c
    · exact .inr (if_pos hc)
    · rw [if_neg hc]
      exact hk.imp_left (fun h => (List.mem_cons.1 h).resolve_left hc)

theorem bind_bindColumns (dest : Nat → Binding) (cols : List Nat) (d : Dev) (k : Nat) :
    (getCol (cols.foldl (fun d k => bindColumn d k (dest k)) d).scene k).bind = if k ∈ cols then dest k else (getCol d.scene k).bind := by
  have hbinds : ∀ (sc : Scene), binds sc k = (getCol sc k).bind := fun _ => rfl
  rw [← hbinds, ← hbinds, binds_bindColumns]

theorem chainsMoved_scene (d : Dev) (n : Nat) (b : MT) : (chainsMoved d n b).scene = d.scene := rfl

/-! Compiled layouts (R112). -/

/-- A layout that takes effect at once is in force with its emission groups, from the other bank; job and build are over. -/
theorem applyLayout_atOnce (d : Dev) (j : LayoutJob) (l : Layout) (gs : Tab Mesh) : let e := applyLayout d j l gs none
    e.scene.layout = some l ∧ e.scene.groups = gs ∧ e.scene.job = none ∧ e.scene.build = none ∧ e.scene.activeBank = !d.scene.activeBank := by
  unfold applyLayout
  extract_lets n old gone was swapped bound e
  have hbound : LayoutSame swapped bound := foldl_layout _ (fun x s => by
    split
    · exact .refl x
    · exact bindColumn_layout _ _ _) _ _
  have hreset : LayoutSame bound (sceneMod bound (fun s => { s with oldCols := [], oldSpks := [] })) := ⟨rfl, rfl, rfl, rfl, rfl⟩
  obtain ⟨hlayout, hgroups, hbuild, hbank, hjob⟩ := hbound.trans (hreset.trans (foldl_layout (fun d c => bindColumn d c {}) (fun _ _ => bindColumn_layout _ _ _) gone _))
  exact ⟨hlayout, hgroups, Option.isSome_eq_false_iff.1 hjob |> Option.isNone_iff_eq_none.1, hbuild, hbank⟩

theorem sceneMod_job {d e : Dev} (h : e.scene = d.scene) (j : LayoutJob) :
    (sceneMod e (fun s => { s with job := some j })).scene = { d.scene with job := some j } := by
  rw [sceneMod_scene, h]

section
variable {d : Dev} {j : LayoutJob} (hj : d.scene.job = some j) (hr : j.result = none)
include hj hr

theorem layoutCompiled_eq : layoutCompiled d = match compileLayout d j with
    | .error e =>
      let id := (if j.busesOnly then d.scene.layout.map (·.id) else d.scene.build.map (·.id)).getD 0
      reply (completionTicket (sceneMod d (fun s => { s with job := none, build := if j.busesOnly then s.build else none })) j.taken []) j.taken e.1
        (layoutBody none 0 e.2 id)
    | .ok (l, gs) =>
      if inConfig (mode d) then layoutDone d j l gs none .ok
      else
        let n := effDom d l.dom
        let S := selBoundary d n
        let d := if d.twin.working.any (fun w => w.1 == j.taken) then completionTicket d j.taken ((List.range 3).map (fun i => if i = n then S else 0)) else d
        sceneMod d (fun s => { s with job := some { j with result := some (l, gs), st := if mode d == .twin && !isFollower d then some (j.st.getD S) else j.st } }) := by
  simp only [layoutCompiled, hj, hr]
  rfl

/-- In CONFIG a compiled layout takes effect at once; elsewhere it waits for its boundary, and what is in force stays. -/
theorem layoutCompiled_config {l : Layout} {gs : Tab Mesh} (hc : compileLayout d j = .ok (l, gs)) (hm : inConfig (mode d) = true) :
    layoutCompiled d = layoutDone d j l gs none .ok := by
  simp only [layoutCompiled_eq hj hr, hc]
  exact if_pos hm
theorem layoutCompiled_waits {l : Layout} {gs : Tab Mesh} (hc : compileLayout d j = .ok (l, gs)) (hm : inConfig (mode d) = false) :
    ∃ st, (layoutCompiled d).scene = { d.scene with job := some { j with result := some (l, gs), st := st } } := by
  simp only [layoutCompiled_eq hj hr, hc]
  rw [if_neg (ne_true_of_eq_false hm)]
  refine ⟨_, sceneMod_job ?_ _⟩
  split
  · exact completionTicket_scene _ _ _
  · rfl

/-- A layout that fails its checks leaves the one in force and its columns. -/
theorem layoutCompiled_refused {e : Status × Nat} (hc : compileLayout d j = .error e) :
    (layoutCompiled d).scene = { d.scene with job := none, build := if j.busesOnly then d.scene.build else none } := by
  simp only [layoutCompiled_eq hj hr, hc]
  rw [reply_scene, completionTicket_scene]
  rfl

end

/-! Loaded taps (R199). -/

/-- The device once a load's taps are written to its channels. -/
def tapsWritten (d : Dev) (l : MLoad) : Dev :=
  { d with mantle := { d.mantle with
      ch := l.chans.foldl (fun t k => tabMod t k (fun c => setExt c (!c.activeB) ((inactive c).map (fun e => { e with done := true })))) d.mantle.ch } }

theorem firLoadEnd_whole {d : Dev} {l : MLoad} (hl : d.mantle.load = some l) (hb : l.busErr = none) :
    firLoadEnd d = commitsUnbound (loadFinish (unboundChans (tapsWritten d l))) := by
  simp only [firLoadEnd, firLoadDone, hl, Option.bind_some, hb]
  rfl

/-- A channel whose extent was loading when the transfer failed. -/
def chanSpoiled (c : MChan) : MChan :=
  setExt c (!c.activeB) ((inactive c).map (fun e => if e.state = .loading then { e with state := .invalid, done := false, taps := [], raw := [] } else e))

theorem inactive_chanSpoiled (c : MChan) : inactive (chanSpoiled c) =
    (inactive c).map (fun e => if e.state = .loading then { e with state := .invalid, done := false, taps := [], raw := [] } else e) := by
  unfold chanSpoiled inactive setExt extOf
  cases c.activeB <;> rfl
theorem chanSpoiled_state {c : MChan} (h : (inactive c).map (·.state) = some .loading) : (inactive (chanSpoiled c)).map (·.state) = some .invalid := by
  rw [inactive_chanSpoiled]
  obtain ⟨e, he, hstate⟩ := Option.map_eq_some_iff.1 h
  rw [he, Option.map_some, if_pos hstate]
  rfl

theorem firLoadEnd_spoiled {d : Dev} {l : MLoad} {st : Status} (hl : d.mantle.load = some l) (hb : l.busErr = some st) :
    (firLoadEnd d).mantle = { d.mantle with load := none, loadErr := d.mantle.loadErr + 1, ch := tabMods id (fun _ => chanSpoiled) l.chans d.mantle.ch } := by
  have hmantle : ∀ (e : Dev) (t : Taken) (body : List Byte), (reply e t st body).mantle = e.mantle := fun e t body => by
    obtain ⟨_, _, _, _, _, _, _, _, h, _⟩ := (reply_same e t st body false).kept
    exact h
  simp only [firLoadEnd, firLoadFailed, hl, Option.bind_some, hb]
  split
  · split <;> rw [hmantle] <;> rfl
  · rfl

/-! Loaded images (R305) and finished tests (R242). -/

theorem linkSend_tiles (d : Dev) (cls : Nat) (body : List Byte) : (linkSend d cls body).tiles = d.tiles := by
  rw [linkSend]; split <;> rfl
theorem sendTicket_tiles (d : Dev) (kind queue dom : Nat) (st : MT) (taken : Option Taken) (rest : List Byte) :
    (sendTicket d kind queue dom st taken rest).tiles = d.tiles := by
  rw [sendTicket, linkSend_tiles]; rfl

/-- A completed piece of work keeps the tiles and what waits in firmware. -/
theorem completionTicket_keeps (d : Dev) (t : Taken) (mts : List MT) :
    (completionTicket d t mts).tiles = d.tiles ∧ (completionTicket d t mts).fw = d.fw := by
  unfold completionTicket
  split
  · dsimp only
    split
    · exact ⟨sendTicket_tiles .., sendTicket_fw ..⟩
    · exact ⟨rfl, rfl⟩
  · exact ⟨rfl, rfl⟩

/-- The answers to the loads of an image keep the tiles and what else waits. -/
def LoadAnswered (d e : Dev) : Prop := e.tiles = d.tiles ∧ e.fw.waits = d.fw.waits

theorem LoadAnswered.trans {a b c : Dev} : LoadAnswered a b → LoadAnswered b c → LoadAnswered a c := by
  rintro ⟨h1, h2⟩ ⟨k1, k2⟩
  exact ⟨k1.trans h1, k2.trans h2⟩

theorem replyCompleted_answers (d : Dev) (t : Taken) (body : List Byte) : LoadAnswered d (reply (completionTicket d t []) t .ok body) := by
  obtain ⟨htiles, hfw⟩ := completionTicket_keeps d t []
  obtain ⟨_, hwaits, _, _, _, _, hkept, _⟩ := (reply_same (completionTicket d t []) t .ok body false).kept
  exact ⟨hkept.trans htiles, hwaits.trans (congrArg (·.waits) hfw)⟩

theorem finishLoad_slot (T : Tiles) (slot : Nat) :
    tabGet (finishLoad T slot).sched.slots slot = { tabGet T.sched.slots slot with state := .loaded } := by
  simp only [finishLoad, schedMod, tabGet_tabMod_same]

theorem graphLoadDone_holds {d : Dev} {slot : Nat} (h : (tabGet d.tiles.sched.slots slot).state = .loading) :
    (graphLoadDone d slot).tiles = finishLoad d.tiles slot ∧ (graphLoadDone d slot).fw.waits = d.fw.waits.filter (fun w => w.what != .graphLoad slot) := by
  simp only [graphLoadDone]
  rw [if_neg (not_not.2 h)]
  exact foldl_rel LoadAnswered (fun _ => ⟨rfl, rfl⟩) (fun _ _ _ => LoadAnswered.trans) _ (fun e (w : Wait) => replyCompleted_answers e w.taken _) _ _

theorem selftestDone_holds {d : Dev} {m : Nat} (r : TestResult) (h : d.selftest.mask = some m) :
    (selftestDone d r).selftest = {} ∧ (selftestDone d r).fw.waits = d.fw.waits.filter (fun x => x.what != .selftest) := by
  simp only [selftestDone, h]
  generalize selfBody _ = body
  obtain ⟨_, hwaits, _, _, _, _, _, _, _, hselftest⟩ := (foldl_rel ReplySame ReplySame.refl (fun _ _ _ => ReplySame.trans)
    (fun d (x : Wait) => reply d x.taken .ok body) (fun d x => reply_same d x.taken .ok body false) (d.fw.waits.filter (fun x => x.what == .selftest))
    (fw { d with selftest := {} } (fun f => { f with waits := f.waits.filter (fun x => x.what != .selftest) }))).kept
  exact ⟨hselftest, hwaits⟩

/-! Ended unbind ramps (R107). -/

/-- The columns that change with column c, whose unbinding is u. -/
def unbindCols (sc : Scene) (c : Nat) (u : Unbind) : List Nat :=
  if u.group then haloCols.filter (fun k => ((getCol sc k).unbind.map (·.group)).getD false) else [c]

/-- The binding that a column's unbinding leads to. -/
def unbindDest (sc : Scene) (k : Nat) : Binding := ((getCol sc k).unbind.map (·.dest)).getD {}

/-- The columns among some that are being unbound, each with its unbinding. -/
def unbindEnds (sc : Scene) (cols : List Nat) : List (Nat × Unbind) := cols.filterMap (fun k => (getCol sc k).unbind.map (fun u => (k, u)))

theorem mem_unbindEnds {sc : Scene} {cols : List Nat} {e : Nat × Unbind} : e ∈ unbindEnds sc cols ↔ e.1 ∈ cols ∧ (getCol sc e.1).unbind = some e.2 := by
  simp only [unbindEnds, List.mem_filterMap, Option.map_eq_some_iff]
  constructor
  · rintro ⟨k, hk, u, hu, rfl⟩
    exact ⟨hk, hu⟩
  · rintro ⟨hk, hu⟩
    exact ⟨e.1, hk, e.2, hu, rfl⟩

theorem bindEnds_eq (d : Dev) (cols : List Nat) : (unbindEnds d.scene cols).foldl (fun d e => bindColumn d e.1 e.2.dest) d =
    ((unbindEnds d.scene cols).map Prod.fst).foldl (fun e k => bindColumn e k (unbindDest d.scene k)) d := by
  rw [List.foldl_map]
  refine List.foldl_ext _ _ _ (fun e x hx => ?_)
  rw [unbindDest, (mem_unbindEnds.1 hx).2]
  rfl

section
variable {d : Dev} {c : Nat} {u : Unbind} (hu : (getCol d.scene c).unbind = some u)
include hu

theorem busUnbindEnd_early (h : (unbindCols d.scene c u).all (unbindEnded d) = false) : busUnbindEnd d c = d := by
  simp only [busUnbindEnd, hu]
  exact if_neg (ne_true_of_eq_false h)

theorem busUnbindEnd_scene (h : (unbindCols d.scene c u).all (unbindEnded d) = true) : (busUnbindEnd d c).scene =
    (((unbindEnds d.scene (unbindCols d.scene c u)).map Prod.fst).foldl (fun e k => bindColumn e k (unbindDest d.scene k)) d).scene := by
  simp only [busUnbindEnd, hu]
  refine (congrArg Dev.scene (if_pos h)).trans ?_
  rw [foldl_keeps Dev.scene _ (fun _ _ => reply_scene ..), chainsMoved_scene]
  exact congrArg Dev.scene (bindEnds_eq d _)

end

/-! The end of a layout's ramps (R114), and a released object (R83). -/

theorem oldLayoutUnbind_scene {d : Dev} {l : Layout} (hl : d.scene.layout = some l) (ho : d.scene.objs = []) (he : d.scene.layoutEnd = none) :
    (oldLayoutUnbind d).scene = { (d.scene.oldCols.foldl (fun d c => bindColumn d c {}) d).scene with oldCols := [], oldSpks := [], layoutEnd := none } := by
  simp only [oldLayoutUnbind, hl, ho, he]
  rw [if_neg (by simp)]
  rfl

/-- An object whose ramp has ended, or whose domain does not run, is released. -/
def objectReleased (object : Nat) (d : Dev) : Dev :=
  match (getObj d.scene object).disable with
  | some e =>
    if mtGe (mtOf d (effDom d (getObj d.scene object).domain)) e || !domRenders d (effDom d (getObj d.scene object).domain) then
      sceneMod d (fun s => objMod s object releaseObj)
    else d
  | none => d

theorem execObjectDisableRelease_eq (object : Nat) (s : State) : execObjectDisableRelease object s = run (objectReleased object) s := rfl

theorem objectReleased_due {d : Dev} {object : Nat} {e : MT} (he : (getObj d.scene object).disable = some e)
    (h : mtGe (mtOf d (effDom d (getObj d.scene object).domain)) e = true ∨ domRenders d (effDom d (getObj d.scene object).domain) = false) :
    objectReleased object d = { d with scene := objMod d.scene object releaseObj } := by
  simp only [objectReleased, he]
  rw [if_pos]
  · rfl
  · rcases h with h | h <;> simp [h]

/-- Settles O38: each event does what its rule says of work that is due.  That a bus error on an idle channel meets the taps that a request of the channel
is loading is the model's choice (log entry 133). -/
theorem fetchedAndFinishedWorkTakesEffect : Obligations.FetchedAndFinishedWorkTakesEffect := by
  refine ⟨fun ch data s => ⟨fun hidle => ⟨?_, fun hunmet => ⟨?_, ?_⟩, fun l hl hasks => ⟨?_, ?_⟩⟩, fun b hb => ?fetched⟩,
    fun s => ⟨?compiled, ?refused, ?loaded, ?spoiled, ?graph, ?selftest, ?unbind, ?oldLayout, ?object⟩⟩
  · exact run_to (f := fun d => bulkDone d ch.val data false) (fetchOver_none (d := quiet s) hidle _)
  · exact run_to (f := fun d => bulkDone d ch.val data true) ((fetchOver_loadMeets (d := quiet s) hidle .integrity _).trans (loadMeets_unmet (d := quiet s) hidle _ hunmet))
  · exact run_to (f := fun d => fetchOver (loadMeets d ch.val .timeout) ch.val (fun d b => regionFails d b.taken .timeout true))
      ((fetchOver_loadMeets (d := quiet s) hidle .timeout _).trans (loadMeets_unmet (d := quiet s) hidle _ hunmet))
  · exact run_to (f := fun d => bulkDone d ch.val data true) ((fetchOver_loadMeets (d := quiet s) hidle .integrity _).trans (loadMeets_met (d := quiet s) hidle _ hl hasks))
  · exact run_to (f := fun d => fetchOver (loadMeets d ch.val .timeout) ch.val (fun d b => regionFails d b.taken .timeout true))
      ((fetchOver_loadMeets (d := quiet s) hidle .timeout _).trans (loadMeets_met (d := quiet s) hidle _ hl hasks))
  case fetched =>
    intro d bs
    obtain ⟨hmem, hch⟩ := fetchOf_some hb
    have hfetch : fetchOf (quiet s) ch.val = some b := hb
    have hcalm : ∀ st, loadMeets (quiet s) ch.val st = quiet s := loadMeets_of_fetch hfetch
    have hdone := fun hl hup => fetchOver_live hfetch hl hup
    refine ⟨hmem, hch, fun hl => ?_, fun hl hup => ⟨?_, ?_, fun hcrc => ?_, fun hcrc => ?_⟩⟩
    · exact run_to (f := fun d => bulkDone d ch.val data false) (fetchOver_dead hfetch hl _)
    · refine run_to (f := fun d => fetchOver (loadMeets d ch.val .timeout) ch.val (fun d b => regionFails d b.taken .timeout true)) ?_
      exact (congrArg (fun e => fetchOver e ch.val _) (hcalm .timeout)).trans (hdone hl hup _)
    · refine run_to (f := fun d => bulkDone d ch.val data true) ?_
      exact (congrArg (fun e => fetchOver e ch.val _) (hcalm .integrity)).trans (hdone hl hup _)
    · exact run_to (f := fun d => bulkDone d ch.val data false) ((hdone hl hup _).trans (if_pos hcrc))
    · exact run_to (f := fun d => bulkDone d ch.val data false) ((hdone hl hup _).trans (if_neg (not_not.2 hcrc)))
  case compiled =>
    intro j l gs hj hr hc
    refine ⟨fun hm => ?_, fun hm => ?_⟩
    · obtain ⟨hlayout, hgroups, hjob, hbuild, hbank⟩ := applyLayout_atOnce (quiet s) j l gs
      refine ⟨_, run_to (layoutCompiled_config (d := quiet s) hj hr hc hm), ?_⟩
      rw [show (after s (layoutDone (quiet s) j l gs none .ok)).dev.scene = (applyLayout (quiet s) j l gs none).scene from (settle_scene _).trans (reply_scene ..)]
      exact ⟨hlayout, hgroups, hjob, hbuild, hbank⟩
    · obtain ⟨st, hscene⟩ := layoutCompiled_waits (d := quiet s) hj hr hc hm
      refine ⟨_, run_to (f := layoutCompiled) rfl, ?_⟩
      rw [show (after s (layoutCompiled (quiet s))).dev.scene = _ from (settle_scene _).trans hscene]
      exact ⟨rfl, rfl, rfl⟩
  case refused =>
    intro j e hj hr hc
    refine ⟨_, run_to (f := layoutCompiled) rfl, ?_⟩
    rw [show (after s (layoutCompiled (quiet s))).dev.scene = _ from (settle_scene _).trans (layoutCompiled_refused (d := quiet s) hj hr hc)]
    exact ⟨rfl, rfl, rfl⟩
  case loaded =>
    intro l hl hb
    exact run_to (f := firLoadEnd) (firLoadEnd_whole (d := quiet s) hl hb)
  case spoiled =>
    intro l st hl hb
    refine ⟨_, run_to (f := firLoadEnd) rfl, ?_⟩
    have hmantle : (after s (firLoadEnd (quiet s))).dev.mantle = _ := (settle_mantle _).trans (firLoadEnd_spoiled (d := quiet s) hl hb)
    simp only [getMch]
    rw [hmantle]
    refine ⟨rfl, rfl, fun m hm => ?_, fun m hm hn hstate => ?_⟩
    · exact tabGet_tabMods_unnamed id _ (fun x hx h => hm ((show x = m from h) ▸ hx)) _
    · have hget : tabGet (tabMods id (fun _ => chanSpoiled) l.chans s.dev.mantle.ch) m = chanSpoiled (tabGet s.dev.mantle.ch m) :=
        tabGet_tabMods_nodup id _ ((List.map_id l.chans).symm ▸ hn) hm _
      exact (congrArg (fun c => (inactive c).map (·.state)) hget).trans (chanSpoiled_state hstate)
  case graph =>
    intro slot hslot
    obtain ⟨htiles, hwaits⟩ := graphLoadDone_holds (d := quiet s) hslot
    refine ⟨_, run_to (f := fun d => graphLoadDone d slot.val) rfl, ?_, ?_, (settle_fw_waits _).trans hwaits⟩
    · have hsched := (settle_tiles_sched (graphLoadDone (quiet s) slot.val)).trans (congrArg (·.sched) htiles)
      exact (congrArg (fun q : Sched => tabGet q.slots slot.val) hsched).trans (finishLoad_slot ..)
    · exact (settle_tiles_mem _).trans (congrArg (·.mem) htiles)
  case selftest =>
    intro r m hm
    obtain ⟨hselftest, hwaits⟩ := selftestDone_holds (d := quiet s) r hm
    exact ⟨_, run_to (f := fun d => selftestDone d r) rfl, (settle_selftest _).trans hselftest, (settle_fw_waits _).trans hwaits⟩
  case unbind =>
    intro c u hu grouped cols
    refine ⟨fun hearly => run_to (f := fun d => busUnbindEnd d c) (busUnbindEnd_early (d := quiet s) hu hearly), fun hended => ?_⟩
    have hscene : (after s (busUnbindEnd (quiet s) c)).dev.scene = _ := (settle_scene _).trans (busUnbindEnd_scene (d := quiet s) hu hended)
    have hbinds := bind_bindColumns (unbindDest s.dev.scene) ((unbindEnds s.dev.scene cols).map Prod.fst) (quiet s)
    have hends : ∀ k v, k ∈ cols → (getCol s.dev.scene k).unbind = some v → k ∈ (unbindEnds s.dev.scene cols).map Prod.fst :=
      fun k v hk hv => List.mem_map_of_mem (f := Prod.fst) (a := (k, v)) (mem_unbindEnds.2 ⟨hk, hv⟩)
    refine ⟨_, run_to (f := fun d => busUnbindEnd d c) rfl, fun k v hk hv => ⟨?_, ?_⟩, fun k hk => ?_⟩
    · have hdest : unbindDest s.dev.scene k = v.dest := by rw [unbindDest, hv]; rfl
      exact (congrArg (fun sc => (getCol sc k).bind) hscene).trans ((hbinds k).trans ((if_pos (hends k v hk hv)).trans hdest))
    · exact (congrArg (fun sc => (getCol sc k).unbind) hscene).trans (unbind_bindColumns (unbindDest s.dev.scene) (quiet s) (.inl (hends k v hk hv)))
    · refine (congrArg (fun sc => (getCol sc k).bind) hscene).trans ((hbinds k).trans (if_neg fun h => hk ?_))
      obtain ⟨e, he, rfl⟩ := List.mem_map.1 h
      exact (mem_unbindEnds.1 he).1
  case oldLayout =>
    intro l hl ho he
    have hscene : (after s (oldLayoutUnbind (quiet s))).dev.scene = _ := (settle_scene _).trans (oldLayoutUnbind_scene (d := quiet s) hl ho he)
    have hbinds := bind_bindColumns (fun _ => {}) s.dev.scene.oldCols (quiet s)
    refine ⟨_, run_to (f := oldLayoutUnbind) rfl, congrArg (·.oldCols) hscene, fun c hc => ?_, fun c hc => ?_⟩
    · exact (congrArg (fun sc => (getCol sc c).bind) hscene).trans ((hbinds c).trans (if_pos hc))
    · exact (congrArg (fun sc => (getCol sc c).bind) hscene).trans ((hbinds c).trans (if_neg hc))
  case object =>
    intro o e he n hdue
    exact ⟨(execObjectDisableRelease_eq o s).trans (run_to (objectReleased_due (d := quiet s) he hdue)), rfl, rfl⟩

end Sys2Proof.Machine
